-- ==== Sys2Proof/Word.lean ====
section
/-! DEFINITION. The words of the KW6144: bytes, 16-, 32- and 64-bit register words, and the plainest arithmetic on
counters (saturating and wrapping sums). Multi-byte values are little-endian (R3), which `Machine/Bits.lean` reads. -/
namespace Sys2Proof

/-- A byte of a descriptor, a record or an image. -/
abbrev Byte := BitVec 8

/-- A 16-bit field. -/
abbrev Half := BitVec 16

/-- A 32-bit register word (R4). -/
abbrev Word := BitVec 32

/-- A 64-bit register word, a host address or a short stamp (R4, R56). -/
abbrev Long := BitVec 64

/-- A sum that saturates at `top`. -/
def satAdd (top a b : Nat) : Nat := min top (a + b)

/-- A sum kept modulo `m`. -/
def wrapAdd (m a b : Nat) : Nat := (a + b) % m

/-- A value held between two limits, lower limit first. -/
def clampNat (lo hi a : Nat) : Nat := max lo (min hi a)

/-- A signed value held between two limits, lower limit first. -/
def clampInt (lo hi a : Int) : Int := max lo (min hi a)

end Sys2Proof
end

