-- ==== Sys2Proof/Types/Common.lean ====
section
/-! DEFINITION. Types that several blocks share: completion status codes (R70), target classes (R68), severities (R564),
and the identity of a command that has been issued and not completed. -/
namespace Sys2Proof

/-- Completion status codes (R70). -/
inductive Status where
  | ok | busyOwned | conflict | notLocked | timeout | stillActive | badParam | noCapacity | denied | uninit | memUe
  | sigFail | tempRange | superseded | rejectedBusy | fatalState
  deriving DecidableEq, Repr

/-- Object classes of the target field, bits [31:24] (R68). -/
inductive TargetClass where
  | device | slice | rxPort | txPort | tile | lane | loop | madc | fem | counter | bank | engine | cfgSlot
  | captureRing | errorSource
  deriving DecidableEq, Repr

/-- Severity of an error source (R564). -/
inductive Severity where
  | info | corrected | degraded | fatal
  deriving DecidableEq, Repr

/-- A function of the endpoint: 0 for PF0, n for VFn (R39). -/
abbrev Fn := Fin 8

/-- The 64 ring pairs RING_0 to RING_63. -/
abbrev RingId := Fin 64

/-- Who is answered when a command completes: the ring it was fetched from, its tag, its opcode, the issuing
function at fetch and its irq_now flag (R56, R64, R67). A command that waits is kept as this. -/
structure Issue where
  ring   : RingId
  tag    : Half
  opcode : Byte
  fn     : Fn
  irqNow : Bool
  /-- The ring's era at fetch: a command of an era that has ended completes into nothing (R91, R99). -/
  era    : Nat
  deriving DecidableEq, Repr

/-- What a refusal names in its completion and its detail record: the status, the byte offset in the descriptor of the
first offending field or 0xFFFF, and the resource concerned in target encoding or 0 (R62). -/
structure Refuse where
  status   : Status
  offset   : Nat
  resource : Nat
  deriving DecidableEq, Repr

/-- What a host memory read of an indirect buffer gave: an error, or the bytes (R65, R71). -/
inductive Buf where
  | error
  | bytes (b : List Byte)
  deriving DecidableEq, Repr

/-- A 64-byte command descriptor (R64) as an opcode row carries it: byte 0 is the row itself. `params` are the bytes
12 to 63; `buf` is what the read of the indirect buffer gave, when there is one. -/
structure Desc where
  ring   : RingId
  flags  : Byte
  tag    : Half
  length : Word
  target : Word
  params : List Byte
  buf    : Buf
  deriving DecidableEq, Repr

/-- The two directions of a slice with a two-way path: A and B, as the paths of the slice chapter name them. -/
inductive PathId where
  | a | b
  deriving DecidableEq, Repr

end Sys2Proof
end

