-- ==== Sys2Proof/Types/Dfe.lean ====
section
/-! DEFINITION. The digital front end: DDCs, DUCs, tile queues and residue checks (R240 to R270). -/
namespace Sys2Proof

/-- A sample container as it is carried (R259, R260): poisoned, or I and Q of 14 bits. -/
inductive Container where
  | poisoned
  | valid (i q : Int)
  deriving DecidableEq, Repr

/-- A complex word: real and imaginary parts. -/
structure Cplx where
  re : Int
  im : Int
  deriving DecidableEq, Repr

/-- A DDC (R243 to R249, R270). `estimate` is d of R248 in units of 2^-30 LSB. -/
structure Ddc where
  dcEnable  : Bool
  dcShift   : Nat
  dcFreeze  : Bool
  zone      : Bool
  station   : Bool
  word      : Nat
  estimate  : Int
  satCount  : Nat
  deriving DecidableEq, Repr

/-- A DUC (R254 to R258, R270). -/
structure Duc where
  droopComp : Bool
  station   : Bool
  streams   : Nat
  droopEntry : Nat
  word      : Nat
  gain      : Nat
  satCount  : Nat
  poisonedCount : Nat
  deriving DecidableEq, Repr

/-- The pair of tile queues of one port index (R268 to R270). -/
structure Queue where
  rxOcc     : Nat
  rxAligned : Nat
  txOcc     : Nat
  txAligned : Nat
  rxError   : Bool
  txError   : Bool
  deriving DecidableEq, Repr

/-- The residue counts of a tile (TILE_RES_STATUS of R270) and who holds its two spare stages (R263, R265). -/
structure TileResidue where
  ddcCorrected : Nat
  ducCorrected : Nat
  poisonedBlocks : Nat
  spareBusy : Nat
  deriving DecidableEq, Repr

/-- A port entry of the SLICES section (R691): RX or TX, centre in kHz, phase mode, droop compensation and port gain. -/
structure PortEntry where
  tx      : Bool
  index   : Fin 32
  station : Bool
  droop   : Bool
  centre  : Nat
  gain    : Nat
  deriving DecidableEq, Repr

/-- Where a residue check failed (R264, R266): the DDC of an RX port, the DUC of a TX port, or the chains of a slice path on its home engine. -/
inductive ResidueSite where
  | ddc (p : Fin 32)
  | duc (p : Fin 32)
  | engine (slice : Fin 256) (path : PathId)
  deriving DecidableEq, Repr

/-- The digital front end with the centre frequency of each port in kHz, none for a port that is tuned nowhere (R691). -/
structure Dfe where
  ddc      : Vector Ddc 32
  duc      : Vector Duc 32
  queue    : Vector Queue 32
  residue  : Vector TileResidue 4
  rxCentre : Vector (Option Nat) 32
  txCentre : Vector (Option Nat) 32
  /-- A container whose check failed was received from the RX queue or at the TX sum of a port, and is not reported yet (R261). -/
  wrong    : Vector (Bool × Bool) 32
  deriving DecidableEq, Repr

end Sys2Proof
end

