-- ==== Sys2Proof/Types/Host.lean ====
section
/-! DEFINITION. The state of the host interface: functions, ring pairs, the event ring, the capture rings and MSI-X
vectors (R39 to R93), and the packets the block sends towards the outside. -/
namespace Sys2Proof

/-- The three states of a ring (R91). -/
inductive RingState where
  | disabled | running | error
  deriving DecidableEq, Repr

/-- Ring error codes (R92). -/
inductive RingError where
  | none | dbOverrun | fetchError | cplWriteError | badConfig
  deriving DecidableEq, Repr

/-- A ring pair: its set-up registers (R93), its four indices (R51 to R55), the phase of the current pass (R57), the
commands it has in flight and, of these, those that have started (R66), and its last marker (R60). -/
structure Ring where
  owner    : Fn
  enable   : Bool
  state    : RingState
  error    : RingError
  cmdBase  : Nat
  cplBase  : Nat
  wb       : Nat
  cmdLog2  : Nat
  cplLog2  : Nat
  vector   : Nat
  cmdPI    : Word
  cmdCI    : Word
  cplPI    : Word
  cplCI    : Word
  phase    : Bool
  inFlight : Nat
  started  : Nat
  /-- Epoch and high sequence half that the last marker carried; none before the first marker. -/
  marker   : Option (Nat × Nat)
  /-- The model's own count of the times the pair left Running by a reset of its owner (R91, R99). -/
  era      : Nat
  /-- The indices have changed since they were last written back, and the monotonic count at that write-back (R93). -/
  wbDue    : Bool
  wbAt     : Option Nat
  deriving DecidableEq, Repr

/-- The event ring (R76 to R79): set-up and the free-running producer and consumer byte offsets. -/
structure EventRing where
  enable : Bool
  state  : RingState
  error  : RingError
  base   : Nat
  wb     : Nat
  log2   : Nat
  vector : Nat
  prod   : Word
  cons   : Word
  deriving DecidableEq, Repr

/-- A capture ring (R80 to R82): set-up, block indices, and the blocks dropped since the last written one. -/
structure CapRing where
  owner   : Fn
  enable  : Bool
  state   : RingState
  error   : RingError
  base    : Nat
  wb      : Nat
  log2    : Nat
  vector  : Nat
  prod    : Word
  cons    : Word
  dropped : Nat
  deriving DecidableEq, Repr

/-- One MSI-X vector with its moderation (R84 to R86): `entries` since its last message, and whether its timer runs, from the first of them,
which came at `since` on the monotonic count. `address` and `data` are its message, from the MSI-X table. -/
structure Vec where
  address : Nat
  data    : Nat
  masked  : Bool
  pending : Bool
  count   : Nat
  timer   : Nat
  entries : Nat
  running : Bool
  since   : Nat
  deriving DecidableEq, Repr

/-- One function of the endpoint: its configuration-space fields (R39, R41, R42, R45), what AER logged (R71), its
wide-register buffer (R5) with the address of the register that it holds, and its vectors. `bars` are the addresses assigned to BAR0, BAR2
and BAR4 (R43). -/
structure Func where
  bars      : Vector (Option Nat) 3
  maxPayload : Nat
  maxRead   : Nat
  tenBitTags : Bool
  ecrcGen   : Bool
  ecrcCheck : Bool
  aspmL1    : Bool
  busMaster : Bool
  memSpace  : Bool
  d3hot     : Bool
  aerCor    : Bool
  aerUncor  : Bool
  ownerWriteIgnored : Bool
  dbDrop    : Nat
  accessDrop : Nat
  wideBuf   : Nat
  wideAt    : Option Nat
  vecs      : Vector Vec 64
  deriving DecidableEq, Repr

/-- The host interface: functions, rings, SR-IOV (R41), the link (R93) and PERST_L (R94). -/
structure Hif where
  fns       : Vector Func 8
  rings     : Vector Ring 64
  evr       : EventRing
  caps      : Vector CapRing 8
  numVFs    : Nat
  vfEnable  : Bool
  linkRate  : Nat
  linkWidth : Nat
  perstLow  : Bool
  deriving DecidableEq, Repr

/-- The BARs of a function (R43). -/
inductive BarId where
  | bar0 | bar2 | bar4
  deriving DecidableEq, Repr

/-- A ring, of any of the three sorts (R46): a ring pair, the event ring or a capture ring. -/
inductive RingSel where
  | pair (n : RingId)
  | event
  | capture (c : Fin 8)
  deriving DecidableEq, Repr

/-- What the block finds of the data that a command names, in the order of its checks: the signature and the digest of an image (R131), the
key, the signature and the digest of a firmware (R652), and an uncorrectable error in the STAGED copy (R134). -/
structure Findings where
  sigOk    : Bool
  digestOk : Bool
  keyOk    : Bool
  copyUe   : Bool
  deriving DecidableEq, Repr

/-- What a descriptor read gave: an error, or the 64 bytes of the descriptor (R54, R64, R92) with what the read of its indirect buffer gave
(R65) and what the block finds of the data named. -/
inductive Fetch where
  | error
  | got (bytes : List Byte) (buf : Buf) (found : Findings)
  deriving DecidableEq, Repr

/-- Fields of a function's configuration space that a request reads (R39 to R43). -/
inductive CfgField where
  | vendorId | deviceId | classCode | revision | busMaster | memSpace | d3hot | totalVFs | numVFs | vfEnable | vfDeviceId
  | bar (i : Fin 3) | barSize (i : Fin 3) | barPrefetchable (i : Fin 3)
  | maxPayload | maxPayloadSupported | maxRead | tenBitTags | ecrcGen | ecrcCheck | aspmL1 | msixVectors | aerCor | aerUncor | doe
  /-- Does the function have this capability: ATS, PRI, PASID, AtomicOp, L1 PM substates, ASPM L0s, INTx, MSI (R40)? -/
  | absent (capability : Fin 8)
  deriving DecidableEq, Repr

/-- What a PCIe configuration request reads or changes, if anything (R39, R41 to R43, R45, R91). -/
inductive CfgChange where
  | nothing
  | read (what : CfgField)
  | bar (i : Fin 3) (address : Nat)
  | maxPayload (bytes : Nat)
  | maxRead (bytes : Nat)
  | tenBitTags (on : Bool)
  | ecrcGen (on : Bool)
  | ecrcCheck (on : Bool)
  | aspmL1 (on : Bool)
  | clearAer (correctable : Bool)
  | busMaster (on : Bool)
  | memSpace (on : Bool)
  | d3hot (on : Bool)
  | numVFs (n : Nat)
  | vfEnable (on : Bool)
  deriving DecidableEq, Repr

end Sys2Proof
end

