-- ==== Sys2Proof/Types/Slice.lean ====
section
/-! DEFINITION. Slices: their definition, their two parameter sets, restart, deletion and capture (R17, R18, R271 to R309). -/
namespace Sys2Proof

/-- A slice index. -/
abbrev SliceId := Fin 256

/-- Which way a slice carries (R271, R272). -/
inductive Direction where
  | dl | ul | tdd
  deriving DecidableEq, Repr

/-- An endpoint of a path (R273, R292). -/
inductive Endpoint where
  | none
  | rx (p : Fin 32)
  | tx (p : Fin 32)
  | fronthaul
  deriving DecidableEq, Repr

/-- A slice definition (R271). `nCh` and `nFc` count taps; gains are in 0.01 dB; `gainRise` in 0.1 dB/ms. -/
structure SliceDef where
  owner     : Fn
  direction : Direction
  srcA      : Endpoint
  sinkA     : Endpoint
  srcB      : Endpoint
  sinkB     : Endpoint
  pattern   : Option (Fin 8)
  centre    : Nat
  k         : Nat
  bandwidth : Nat
  family    : Nat
  edge      : Nat
  nCh       : Nat
  nFc       : Nat
  priority  : Nat
  gainA     : Int
  gainB     : Int
  muteRamp  : Nat
  gainRise  : Nat
  deriving DecidableEq, Repr

/-- The parameters of one path's canceller (R310 to R334). -/
structure CancelParams where
  mode     : Nat
  m        : Nat
  l        : Nat
  v        : Nat
  ceilRise : Nat
  margin   : Int
  iFloor   : Int
  deriving DecidableEq, Repr

/-- A parameter set of a slice (R17): definition, host mutes of both paths, and canceller parameters. -/
structure SliceParams where
  defn  : SliceDef
  muteA : Bool
  muteB : Bool
  canA  : CancelParams
  canB  : CancelParams
  deriving DecidableEq, Repr

/-- A pending set and the command that filled it last (R18). `copyA` and `clearA` of CANCEL_CTL act when it goes live;
`moving` waits for a placement move that its higher cost needs (R294). -/
structure PendingSet where
  params : SliceParams
  issue  : Issue
  actA   : Nat
  actB   : Nat
  moving : Bool
  deriving DecidableEq, Repr

/-- A restart in progress (R295): the new parameters, the command, R, whether the new definition has started, and whether Overcast's shed
outlasts it (R636, R639, R694). -/
structure Restart where
  params  : SliceParams
  issue   : Option Issue
  strobe  : Nat
  started : Bool
  keepShed : Bool
  deriving DecidableEq, Repr

/-- SLC_STATE.state (R309). -/
inductive SliceState where
  | empty | placing | running | restarting | deleting | stopped
  deriving DecidableEq, Repr

/-- A slice. Applied gains are in 0.01 dB, meters in 0.01 dBFS with −32,768 for none yet (R309). `fadeA` and `fadeB` count
the samples of the mute ramp that each path has come up; `riseA` and `riseB` hold the part of a 0.01 dB step gained. -/
structure Slice where
  state    : SliceState
  live     : Option SliceParams
  pending  : Option PendingSet
  restart  : Option Restart
  deleting : Option Issue
  shed     : Bool
  satCount : Nat
  appliedA : Int
  appliedB : Int
  fadeA    : Nat
  fadeB    : Nat
  riseA    : Nat
  riseB    : Nat
  inA      : Int
  outA     : Int
  inB      : Int
  outB     : Int
  deriving DecidableEq, Repr

/-- Containers of a capture block (R81) with the station time and the epoch of the first of them. -/
structure CaptureFill where
  stamp   : Nat
  epoch   : Nat
  samples : List Container
  deriving DecidableEq, Repr

/-- A capture on a capture ring (R305 to R307). `left` counts the containers still to capture, none until stopped;
`startIssue` completes at the first sample and `stopIssue` at the last block. `full` are blocks that are to be written, oldest first, `fill` is the
one that fills, and `cut` says that samples outside the captured direction's segments came since its last one. -/
structure Capture where
  slice  : SliceId
  tap    : Nat
  which  : Nat
  left   : Option Nat
  instant : Nat
  startIssue : Option Issue
  stopIssue  : Option Issue
  ending : Bool
  full   : List CaptureFill
  fill   : CaptureFill
  cut    : Bool
  deriving DecidableEq, Repr

/-- The slice fabric (R309). -/
structure Slices where
  slice    : Vector Slice 256
  window   : Nat
  coefSel  : Nat
  capture  : Vector (Option Capture) 8
  capDropped : Vector Nat 8
  capLast  : Vector (Nat × Nat × Nat) 8
  deriving DecidableEq, Repr

end Sys2Proof
end

