-- ==== Sys2Proof/Types/Link.lean ====
section
/-! DEFINITION. Soldin Link fronthaul (R402 to R441): lanes, links, streams, feeds and delay buffers. -/
namespace Sys2Proof

/-- Lane states (R441). -/
inductive LaneState where
  | off | training | up | failed | testing | retired
  deriving DecidableEq, Repr

/-- Why a lane failed (R408). -/
inductive LaneFault where
  | signal | alignment | fec | peer | remote
  deriving DecidableEq, Repr

/-- A lane's set-up (R438, LNK_LANE_CFG_l of R441). -/
structure LaneCfg where
  rate     : Nat
  fecOff   : Bool
  txInvert : Bool
  link     : Option (Fin 16)
  spare    : Bool
  deriving DecidableEq, Repr

/-- A lane. `data` says that it is a data lane now; `issue` is the LANE_CTL that waits for it to be UP; `arrival` is the
offset of the last marker received, `peerArrival` the one the peer reported (R432), and `peerLane` the index that the lane has at the peer (R413). -/
structure Lane where
  cfg        : LaneCfg
  state      : LaneState
  data       : Bool
  forbid     : Bool
  rxInverted : Bool
  los        : Bool
  loa        : Bool
  fecFail    : Bool
  degraded   : Bool
  band       : Nat
  testPending : Bool
  corrected  : Nat
  uncorrectable : Nat
  ser        : Nat
  /-- Corrected symbols of the superframe in progress. -/
  serNow     : Nat
  /-- Superframes in a row above deg_ser, and below half of it (R408). -/
  above      : Nat
  below      : Nat
  /-- Which of the last 8 frames, newest first, had uncorrectable codewords (R408). -/
  badFrames  : List Bool
  issue      : Option Issue
  /-- The waiting LANE_CTL is a retrain, which does not time out. -/
  retrain    : Bool
  /-- The lane was enabled, by LANE_CTL, a commit or boot, and not disabled since. -/
  enabled    : Bool
  /-- The lane failed or left its feeds and is not a spare again yet (R409). -/
  recovering : Bool
  absent     : Nat
  arrival    : Option Int
  peerArrival : Option Int
  peerLane   : Option Nat
  deriving DecidableEq, Repr

/-- A link's set-up (R410, LNK_LINK_CTL_g of R441). -/
structure LinkCfg where
  kind       : Nat
  peer       : Nat
  timeSource : Bool
  asym       : Int
  deriving DecidableEq, Repr

/-- A link (R410, R411, R441). -/
structure Link where
  cfg          : LinkCfg
  peerSeen     : Nat
  peerMismatch : Bool
  late         : Nat
  early        : Nat
  deriving DecidableEq, Repr

/-- Stream roles (R420); NONE removes an entry and is never held. -/
inductive Role where
  | none | originate | terminate | dropForward | addForward | forward
  deriving DecidableEq, Repr

/-- A stream entry (R419). -/
structure StreamEntry where
  slice    : SliceId
  path     : PathId
  role     : Role
  width    : Nat
  stream   : Nat
  linkIn   : Option (Fin 16)
  linkOut  : Option (Fin 16)
  target   : Nat
  k        : Nat
  priority : Nat
  ring     : Bool
  noUp0    : Bool
  noUp1    : Bool
  expected : Nat
  deriving DecidableEq, Repr

/-- A compressed block of 16 samples (R416 to R418): the width of its mantissas in bits, exponent, residue and the 32 mantissas, I before Q. -/
structure Block where
  w        : Nat
  e        : Nat
  residue  : Nat
  mant     : List Int
  deriving DecidableEq, Repr

/-- A block that waits: in a stream's delay buffer, or to be sent. `holes` are the samples of it that the buffer has lost to memory
errors (R549). -/
structure HeldBlock where
  stream  : Nat
  feed    : Nat
  number  : Nat
  contrib : Nat
  origin  : Nat
  block   : Block
  holes   : List Nat
  deriving DecidableEq, Repr

/-- A block that a path's output is filling (R416): its number and its containers, oldest first. -/
structure Filling where
  slice   : SliceId
  path    : PathId
  number  : Nat
  samples : List Container
  deriving DecidableEq, Repr

/-- Containers that have played out into a path and that it has not taken yet (R426), oldest first. -/
structure Played where
  slice   : SliceId
  path    : PathId
  samples : List Container
  deriving DecidableEq, Repr

/-- A feed that this part sends (R435, R436): its stream and direction, its link, its lane, or none while it is shed. -/
structure Feed where
  stream : Nat
  feed   : Nat
  link   : Fin 16
  lane   : Option (Fin 64)
  deriving DecidableEq, Repr

/-- The LINK section (R410, R424). -/
structure LinkSection where
  node    : Nat
  site    : Nat
  links   : List (Fin 16 × LinkCfg)
  lanes   : List (Fin 64 × LaneCfg)
  streams : List StreamEntry
  deriving DecidableEq, Repr

/-- A LINK_MAP, or the stream list of a commit, that waits for its superframe (R424). -/
structure PendingMap where
  entries : List StreamEntry
  at'     : Nat
  issue   : Option Issue
  /-- The whole LINK section, when a commit waits (R138). -/
  linkPart : Option LinkSection
  deriving DecidableEq, Repr

/-- A frame header (R413). `timeState` is the code of R373, and `arrival` none when no marker was received. -/
structure Header where
  unlinked : Bool
  node     : Nat
  link     : Nat
  lane     : Nat
  site     : Nat
  frame    : Nat
  superframe : Nat
  arrival  : Option Int
  seconds  : Nat
  timeState : Nat
  error    : Nat
  laneUp   : BitVec 64
  deriving DecidableEq, Repr

/-- What a lane's FEC counted in a frame: codewords, corrected symbols and uncorrectable codewords (R441). -/
structure FecCounts where
  codewords     : Nat
  corrected     : Nat
  uncorrectable : Nat
  deriving DecidableEq, Repr

/-- A segment's descriptor (R414): `width` is the code of the mantissas, `number` the low 24 bits of the first block's number. -/
structure SegmentHead where
  stream  : Nat
  count   : Nat
  width   : Nat
  feed    : Nat
  origin  : Nat
  contrib : Nat
  number  : Nat
  deriving DecidableEq, Repr

/-- Soldin Link. -/
structure LinkBlock where
  node     : Nat
  site     : Nat
  degSer   : Nat
  lane     : Vector Lane 64
  link     : Vector Link 16
  streams  : List StreamEntry
  feeds    : List Feed
  pending  : Option PendingMap
  /-- Blocks that wait in delay buffers, and blocks that wait for a tick. -/
  buffered : List HeldBlock
  toSend   : List HeldBlock
  filling  : List Filling
  played   : List Played
  timeLink : Option (Fin 16)
  deriving DecidableEq, Repr

end Sys2Proof
end

