-- ==== Sys2Proof/Types/Place.lean ====
section
/-! DEFINITION. Weathervane placement (R442 to R473): engines, hosted parts, moves, buffers, pins, and commands that wait for them. -/
namespace Sys2Proof

/-- Unit states (R443). -/
inductive UnitState where
  | available | forbidden | evacuating | testing | retired | owned
  deriving DecidableEq, Repr

/-- A canceller line or fronthaul delay buffer (R448): the path it serves, its kind and its feed. -/
structure BufKey where
  slice : SliceId
  path  : PathId
  delay : Bool
  feed  : Nat
  deriving DecidableEq, Repr

/-- A definition placed on engines, part j on the j-th: the cost of a part in 1/2,048 wu, the local bytes a part needs
without lines, and the bytes of the delay lines that the home part holds locally (R445, R446). -/
structure Hosting where
  engines : List (Fin 64)
  cost    : Nat
  need    : Nat
  lines   : List (PathId × Nat)
  deriving DecidableEq, Repr

/-- What a slice index has placed: its definition in force, a reservation for one to come, and whether it was stopped for
capacity (R460, R473). -/
structure Placed where
  live    : Option Hosting
  next    : Option Hosting
  stopped : Bool
  deriving DecidableEq, Repr

/-- Reasons of a move (R473). -/
inductive MoveReason where
  | periodic | evacuation | pin | costRise | thermal | hostPass
  deriving DecidableEq, Repr

/-- Phases of a move (R473). -/
inductive MovePhase where
  | warmUp | shadow | cutover
  deriving DecidableEq, Repr

/-- A move in flight (R450): its part, engines, reason and phase, S, the run of agreeing samples, and the samples of its shadow so far (R451, R452). -/
structure Move where
  slice   : SliceId
  part    : Nat
  src     : Fin 64
  dst     : Fin 64
  reason  : MoveReason
  phase   : MovePhase
  start   : Nat
  matched : Nat
  shadowed : Nat
  deriving DecidableEq, Repr

/-- A move that waits for a slot (R454); `dst` is given when the trigger named it. -/
structure MoveReq where
  slice  : SliceId
  part   : Nat
  reason : MoveReason
  dst    : Option (Fin 64)
  deriving DecidableEq, Repr

/-- A buffer in SMEM pages, chunk by chunk, and the pages a copy of it goes to (R448, R455). -/
structure Buffer where
  key    : BufKey
  chunks : List (Fin 48 × BitVec 512)
  copy   : Option (List (Fin 48 × BitVec 512))
  deriving DecidableEq, Repr

/-- A pin (R465). -/
structure Pin where
  slice : SliceId
  kind  : Nat
  which : Nat
  mask  : BitVec 64
  deriving DecidableEq, Repr

/-- What a command waits for (R466 to R468, R557). -/
inductive PlaceJob where
  | pin (p : Pin)
  | forbidEngine (e : Fin 64)
  | forbidBank (b : Fin 48)
  | retireBank (b : Fin 48)
  | pass
  deriving DecidableEq, Repr

/-- A command that waits for Weathervane. -/
structure PlaceWait where
  issue : Issue
  job   : PlaceJob
  deriving DecidableEq, Repr

/-- A unit that Weathervane empties and tests (R459). -/
inductive FabricUnit where
  | engine (e : Fin 64)
  | bank (b : Fin 48)
  deriving DecidableEq, Repr

/-- An engine (R443): its state and whether a forbid is in force or waits for its test. -/
structure Engine where
  state  : UnitState
  forbid : Bool
  deriving DecidableEq, Repr

/-- The PLACEMENT section (R469). -/
structure PlacementSection where
  policy        : Bool
  ownerSeparate : Bool
  thermalMoves  : Bool
  thermalWeight : Nat
  spreadLimit   : Nat
  moveLimit     : Nat
  interval      : Nat
  gap           : Nat
  pins          : List Pin
  forbids       : List (TargetClass × Nat)
  deriving DecidableEq, Repr

/-- Weathervane (R473). `policy` is true for PACK. -/
structure Placement where
  engine        : Vector Engine 64
  placed        : Vector Placed 256
  moves         : Vector (Option Move) 8
  waiting       : List MoveReq
  waits         : List PlaceWait
  pins          : List Pin
  buffers       : List Buffer
  stagedBank    : Option (Fin 48)
  policy        : Bool
  ownerSeparate : Bool
  thermalMoves  : Bool
  thermalWeight : Nat
  spreadLimit   : Nat
  moveLimit     : Nat
  interval      : Nat
  gap           : Nat
  spread        : Bool
  /-- The `mono` since which the condition that ends or begins a spread has held (R462, R629). -/
  spreadSince   : Option Nat
  lastPass      : Nat
  mapGen        : Nat
  pinSel        : BitVec 13
  deriving DecidableEq, Repr

end Sys2Proof
end

