-- ==== Sys2Proof/Types/Memory.lean ====
section
/-! DEFINITION. Shared sample memory (R539 to R562) and the retirement map (R559). The samples that SMEM carries are held where
they are used: delay lines in the cancellers, delay buffers in the streams. What is held here is every bank's protection
state and the words that a read would not return clean. -/
namespace Sys2Proof

/-- What is wrong with a stored word: a poison code (R548) or failed parity bytes, by mask (R550). -/
inductive WordFault where
  | poison
  | parity (bytes : Nat)
  deriving DecidableEq, Repr

/-- What a read of a word met (R548, R550): a syndrome, or the mask of the bytes that fail parity. -/
inductive ReadError where
  | single (syndrome : Nat)
  | uncorrectable (syndrome : Nat)
  | address (syndrome : Nat)
  | parity (bytes : Nat)
  | poisoned
  deriving DecidableEq, Repr

/-- Who read (R549, R551, R555): a reader of a whole word, the scrubber, or the read part of a partial write. -/
inductive Reader where
  | word | scrub | partialWrite
  deriving DecidableEq, Repr

/-- The word of an engine's local memory that a parity error meets as a sample reads it (R560): a container of a canceller's delay line by its age, a
foreground or background tap, a filter coefficient, or a word of another block: the stage that read it, and the output of that stage's block. -/
inductive LocalWord where
  | delayLine (age : Nat)
  | tap (foreground : Bool) (index : Nat)
  | coefficient
  | other (stage : Nat) (index : Fin 32)
  deriving DecidableEq, Repr

/-- An SMEM bank (R443, R544, R545, R562). `zeroed` says that boot zeroed it, and `recode` that it is being zeroed in a new
code. -/
structure Bank where
  state    : UnitState
  forbid   : Bool
  retire   : Bool
  parity   : Bool
  recode   : Bool
  zeroed   : Bool
  written  : BitVec 512
  corrected : Nat
  uncorrectable : Nat
  poisonReads : Nat
  deriving DecidableEq, Repr

/-- MEM_ERR_LOC with MEM_ERR_TIME (R562). -/
structure ErrLoc where
  word     : Nat
  bank     : Nat
  syndrome : Nat
  kind     : Nat
  scrub    : Bool
  stamp    : Nat
  deriving DecidableEq, Repr

/-- A history entry of the retirement map (R559). -/
structure RetiredEntry where
  unitClass : TargetClass
  index     : Nat
  source    : Nat
  stamp     : Nat
  deriving DecidableEq, Repr

/-- The retirement map (R559). -/
structure RetireMap where
  updates : Nat
  engines : BitVec 64
  banks   : BitVec 48
  lanes   : BitVec 64
  rx      : BitVec 32
  tx      : BitVec 32
  madcs   : BitVec 8
  history : List RetiredEntry
  deriving DecidableEq, Repr

/-- Shared sample memory. `faults` lists the faulty words by location, ascending (R539). -/
structure Smem where
  bank     : Vector Bank 48
  faults   : List (Nat × WordFault)
  errLoc   : ErrLoc
  codeIgnored : Bool
  period   : Nat
  bitmapSel : BitVec 9
  deriving DecidableEq, Repr

end Sys2Proof
end

