-- ==== Sys2Proof/Types/Protect.lean ====
section
/-! DEFINITION. The network protection supervisor (R335 to R369). Levels and trims are in 0.01 dB, powers in 0.01 dBFS. -/
namespace Sys2Proof

/-- The four trim components of a path (R336, R337). -/
inductive TrimKind where
  | squall | overdrive | noise | emission
  deriving DecidableEq, Repr

/-- The mute causes of a slice (R337). -/
inductive SliceMute where
  | squall | emission | donorLoss | tddTiming
  deriving DecidableEq, Repr

/-- The mute causes of a port (R337). -/
inductive PortMute where
  | reflected | squall
  deriving DecidableEq, Repr

/-- The sources of a halt (R337, R354). -/
inductive HaltCause where
  | host | mgmt | reset | thermal
  deriving DecidableEq, Repr

/-- A trim component: its value, whether its condition is present, and whether it is releasing, and how fast (R352, R360). -/
structure Trim where
  value     : Nat
  present   : Bool
  releasing : Bool
  fast      : Bool
  deriving DecidableEq, Repr

/-- Protection of one path. `last` is the predecessor of the next Squall window, none without one: the sum of |z|² over it in units of 2^-34 of full
scale, its samples, and the powers of its 64 bins; `lowest` is the lowest reading of the output meter in this noise interval;
`detecting` says that the last tested window detected; `noiseHigh` that the last noise interval was above its release
level; `exceeds` that the last visit attributed an exceeding bin (R339, R345, R347, R360). -/
structure PathProt where
  squall    : Trim
  overdrive : Trim
  noise     : Trim
  emission  : Trim
  last      : Option (Nat × Nat × List Nat)
  lowest    : Option Int
  detecting : Bool
  previous  : Bool
  noiseHigh : Bool
  exceeds   : Bool
  deriving DecidableEq, Repr

/-- A slice entry of the PROTECT section (R366, R367). -/
structure SliceGuard where
  squall     : Bool
  donor      : Bool
  noise      : Bool
  donorRef   : Fin 256
  donorFloor : Int
  noiseLimit : Int
  deriving DecidableEq, Repr

/-- Protection of a slice index: its settings, both paths, its mute causes and its count of detecting windows (R369). -/
structure SliceProt where
  guard        : SliceGuard
  a            : PathProt
  b            : PathProt
  squallMute   : Bool
  emissionMute : Bool
  donorLoss    : Bool
  tddTiming    : Bool
  donorLow     : Bool
  squallCount  : Nat
  deriving DecidableEq, Repr

/-- Protection of a TX port (R342, R343, R346, R369). `tripped` is its reflected-power comparator. -/
structure PortProt where
  reflectedEnable : Bool
  emissionEnable  : Bool
  emissionMask    : Int
  reflected : Bool
  squall    : Bool
  fromLoad  : Bool
  tripped   : Bool
  exceeds   : Bool
  /-- The bins, by their centre in kHz, that were above the mask on the last visit (R346). -/
  aboveLast : List Nat
  muteCount : Nat
  deriving DecidableEq, Repr

/-- The header of the PROTECT section (R366). -/
structure GuardConfig where
  trimHold     : Nat
  trimRelease  : Nat
  maxTrim      : Nat
  squallGrowth : Nat
  squallFloor  : Nat
  squallPeak   : Nat
  overdriveStep : Nat
  emissionStep : Nat
  donorHyst    : Nat
  donorTime    : Nat
  donorRecover : Nat
  deriving DecidableEq, Repr

/-- The PROTECT section (R366). -/
structure ProtectSection where
  cfg    : GuardConfig
  slices : List (Fin 256 × SliceGuard)
  ports  : List (Fin 32 × Bool × Bool × Int)
  deriving DecidableEq, Repr

/-- The supervisor. `overdriven` says of each RX port that it was overdriven in the last 10 µs (R344). -/
structure Protect where
  cfg        : GuardConfig
  slice      : Vector SliceProt 256
  port       : Vector PortProt 32
  overdriven : Vector Bool 32
  haltHost   : Bool
  haltMgmt   : Bool
  haltReset  : Bool
  haltThermal : Bool
  haltTime   : Nat
  deriving DecidableEq, Repr

end Sys2Proof
end

