-- ==== Sys2Proof/Types/Security.lean ====
section
/-! DEFINITION. Keys, firmware, attestation and the management port (R646 to R671). -/
namespace Sys2Proof

/-- A verified firmware image (R649): version, security version, body digest and total length. -/
structure Firmware where
  version : Nat
  svn     : Nat
  digest  : Nat
  length  : Nat
  deriving DecidableEq, Repr

/-- An owner key slot of OTP (R646): the hash of its modulus, whether it is programmed and revoked, and whether the key record in flash holds
a modulus of that hash (R647). -/
structure OwnerSlot where
  hash       : Nat
  programmed : Bool
  revoked    : Bool
  usable     : Bool
  deriving DecidableEq, Repr

/-- What a verification of a firmware image found after its header (R650): the modulus has the root key hash, the signature holds, the body
digest holds. -/
structure FwProof where
  key    : Bool
  sig    : Bool
  digest : Bool
  deriving DecidableEq, Repr

/-- Why the supervisor restarts (R94, R656, R657): an ACTIVATE, the failure of an activated image, or the end of an activation window. -/
inductive RestartCause where
  | activate (issue : Issue)
  | failed
  | expired
  deriving DecidableEq, Repr

/-- How a supervisor restart ends (R656): FW_RUN is reached, the verification fails, or FW_RUN is not reached within 30 ms. -/
inductive RestartEnd where
  | running
  | badImage
  | late
  deriving DecidableEq, Repr

/-- The SPDM requests that set up a transport's negotiation (R659). -/
structure Negotiation where
  version      : Bool
  capabilities : Bool
  algorithms   : Bool
  deriving DecidableEq, Repr

/-- A transport of SPDM (R659): MCTP over the SMBus, or the PF0 DOE mailbox. -/
inductive Transport where
  | mctp | doe
  deriving DecidableEq, Repr

/-- JTAG instructions (R667, R668): the public ones, the private ones of level 1, which read or write a register of PF0's BAR0 or read the supervisor's
trace, and those of level 2, scan and supervisor debug. -/
inductive JtagOp where
  | bypass | idcode | sample | extest | extestPulse | extestTrain
  | readRegister (offset size : Nat)
  | writeRegister (offset size value : Nat)
  | trace
  | inner
  deriving DecidableEq, Repr

/-- The operations of OWNER_KEY (R664). A modulus is given by its SHA-256. -/
inductive KeyOp where
  | provision (hash : Nat)
  | add (hash : Nat)
  | revoke (slot : Fin 4)
  deriving DecidableEq, Repr

/-- Security and management. `running` is the image that runs and `slot` its slot, true for B; `fw` holds
the valid images of the slots. `windowEnd` is the end of the activation window on the monotonic count and `windowStamp` its short stamp.
`asked` is a restart that waits for the commands in flight; `restart` runs. `load` is a LOAD that is being written. `writes` are the bytes of a
management FW_WRITE sequence that is open, newest first. A nonce is kept as the number of its challenge and the monotonic count of its
issue. -/
structure Security where
  debug       : Nat
  owner       : Vector OwnerSlot 4
  minSvn      : Nat
  running     : Option Firmware
  slot        : Bool
  fw          : Vector (Option Firmware) 2
  failures    : Nat
  lockedOut   : Bool
  keyBad      : Bool
  fwWindow    : Nat
  mgmtFw      : Bool
  windowEnd   : Option Nat
  windowStamp : Nat
  asked       : Option RestartCause
  restart     : Option RestartCause
  load        : Option (Issue × Firmware)
  writes      : Option (List (Nat × List Byte))
  nonce       : Option (Nat × Nat)
  nonces      : Nat
  eid         : Nat
  addr        : BitVec 2
  pecErrors   : Nat
  spdmMctp    : Negotiation
  spdmDoe     : Negotiation
  deriving DecidableEq, Repr

end Sys2Proof
end

