-- ==== Sys2Proof/Types/Thermal.lean ====
section
/-! DEFINITION. Thermal sensing and management (R624 to R645, R694). Temperatures are in 1/8 °C. -/
namespace Sys2Proof

/-- A sensor (R625, R626, R637): its last 8 samples, newest first, its filtered value, when its difference from the zone
began to be too large, and how many consecutive samples read 115 °C or more. -/
structure Sensor where
  samples : List Int
  value   : Int
  failed  : Bool
  awaySince : Option Nat
  hot     : Nat
  deriving DecidableEq, Repr

/-- A zone's thresholds (R627, R628, R643). -/
structure ZoneCfg where
  lowWarn  : Int
  highWarn : Int
  throttle : Int
  hyst     : Nat
  dwell    : Nat
  deriving DecidableEq, Repr

/-- The dwell timers of a zone (R628 to R631, R639): the `mono` since which each timed condition has held. The first four time the
declaration of a threshold, or its clearing while it is declared; `thaw`, `halt` and `flash` time the ends of Thaw, of the thermal halt
and of a flash hold; `bands` times the crossing of each band boundary, in either direction. -/
structure ZoneTimers where
  cold     : Option Nat
  low      : Option Nat
  high     : Option Nat
  throttle : Option Nat
  thaw     : Option Nat
  halt     : Option Nat
  flash    : Option Nat
  bands    : Vector (Option Nat) 4
  deriving DecidableEq, Repr

/-- A zone (R625 to R630, R645). `band` is none before the first declaration. -/
structure Zone where
  cfg      : ZoneCfg
  value    : Int
  band     : Option Nat
  highWarn : Bool
  lowWarn  : Bool
  throttle : Bool
  critical : Bool
  cold     : Bool
  noSensor : Bool
  timers   : ZoneTimers
  /-- The direction of the last crossing of each band boundary, up or down (R185). -/
  cross    : Vector (Option Bool) 4
  deriving DecidableEq, Repr

/-- Thresholds that are declared and cleared (R627). -/
inductive Threshold where
  | coldStart | lowWarn | highWarn | throttle
  deriving DecidableEq, Repr

/-- The THERMAL section (R643). -/
structure ThermalSection where
  thawPower : Nat
  interval  : Nat
  zones     : List (Fin 6 × ZoneCfg)
  deriving DecidableEq, Repr

/-- Overcast (R632 to R635): stage, request in 0.01 dB, shed slices with the most recent first, and the time of the last step. -/
structure Overcast where
  stage   : Nat
  request : Nat
  shed    : List SliceId
  last    : Nat
  slow    : Bool
  deriving DecidableEq, Repr

/-- The service-life ledger (R641, R642): seconds by zone and bin, and life used in parts of 2^-32 s of ageing at 95 °C. -/
structure Ledger where
  bins  : Vector (Vector Nat 7) 6
  life  : Nat
  deriving DecidableEq, Repr

/-- The thermal block. -/
structure Thermal where
  sensor    : Vector Sensor 24
  zone      : Vector Zone 6
  thawPower : Nat
  interval  : Nat
  thaw      : Bool
  halted    : Bool
  overcast  : Overcast
  ledger    : Ledger
  lifeFull  : Bool
  ledgerSel : BitVec 6
  deriving DecidableEq, Repr

end Sys2Proof
end

