-- ==== Sys2Proof/Types/Tile.lean ====
section
/-! DEFINITION. Converter tiles and their ports (R158 to R195), radio states (R196 to R208). -/
namespace Sys2Proof

/-- Port states (R196); `active` is Receive for an RX port and Transmit for a TX port. -/
inductive PortState where
  | sleep | standby | synthOn | active
  deriving DecidableEq, Repr

/-- Tile states (R196). -/
inductive TileState where
  | sleep | standby | synthOn
  deriving DecidableEq, Repr

/-- A port's radio state, the state it is asked for, the RADIO_STATE that asked and the monotonic count at its execution (R205), the state it
held before its tile lost lock (R178), and whether Thaw holds back a Transmit that the image asked for, with its full_cal (R115, R209). `since`
is the monotonic count since which it stands in its state towards its target (R199). -/
structure Radio where
  state    : PortState
  target   : PortState
  issue    : Option Issue
  asked    : Nat
  since    : Nat
  before   : Option PortState
  deferred : Bool
  deferredCal : Bool
  deriving DecidableEq, Repr

/-- A ramp gain (R164 to R167): its direction, the position it starts from in parts of 2^-32 of the raised cosine's length, the monotonic count
at which it starts, and the time that a whole ramp takes, in quarter-nanoseconds. -/
structure Ramp where
  up     : Bool
  base   : Nat
  start  : Nat
  length : Nat
  deriving DecidableEq, Repr

/-- What drives a TX port's output (R164 to R168, R212, R228, R233): its ramp, and the instant at which its ramp-up is due, none while the port
is not to transmit. `long` says that the next ramp is the long one, `radioOn` what its radio state asked for when it was last looked at, `waits`
that the ramp-up is due and a requester's grant is missing, and `cut` that a halt switched the output off. -/
structure Drive where
  due     : Option Nat
  long    : Bool
  radioOn : Bool
  waits   : Bool
  cut     : Bool
  ramp    : Ramp
  deriving DecidableEq, Repr

/-- An RX port (R160 to R162, R192, R195). `spare` is the sub-converter out of rotation (R160); `due` is the instant on the monotonic count from
which its samples enter its slices, none while they do not, and `stopped` the instant at which they last stopped (R212). -/
structure RxPort where
  radio      : Radio
  ovrThresh  : Nat
  calFreeze  : Bool
  overrange  : Bool
  converged  : Bool
  spareInUse : Bool
  retired    : Bool
  peak       : Nat
  spare      : Fin 17
  due        : Option Nat
  stopped    : Option Nat
  deriving DecidableEq, Repr

/-- Output states of TILE_TX_STATUS (R195). -/
inductive TxOutput where
  | off | rampingUp | on | rampingDown
  deriving DecidableEq, Repr

/-- A TX port (R164 to R168, R190, R195). `ungated` is the drive that its output would have without the halt path: the BYP strobe follows it
(R215). -/
structure TxPort where
  radio     : Radio
  rampLong  : Nat
  rampShort : Nat
  loadCheck : Bool
  output    : TxOutput
  drive     : Drive
  ungated   : Drive
  loadFault : Bool
  retired   : Bool
  deriving DecidableEq, Repr

/-- Synthesiser states (R195). -/
inductive SynState where
  | off | calibrating | idleLocked | active | failed
  deriving DecidableEq, Repr

/-- A synthesiser (R169 to R171, R195). `stored` is a calibration that a SynthOn entry may use (R112); `prepared` is a twin
whose phase is slaved (R173). Temperatures are in 1/8 °C. -/
structure Synth where
  state     : SynState
  locked    : Bool
  calTemp   : Int
  calBand   : Nat
  failCount : Nat
  stored    : Bool
  prepared  : Bool
  deriving DecidableEq, Repr

/-- Where a preparation or handover stands in the steps of R173. -/
inductive PrepStep where
  | preparing | waiting | switched
  deriving DecidableEq, Repr

/-- A preparation or handover in progress (R173, R182): does it hand over, who asked, the named instant, its step, the
boundary once known, whether the synthesiser that becomes the twin is prepared afterwards (R180), and the temperature and band at its
start, which are stored at step 6. -/
structure Prep where
  handover : Bool
  issue    : Option Issue
  instant  : Option Nat
  step     : PrepStep
  boundary : Nat
  again    : Bool
  temp     : Int
  band     : Nat
  deriving DecidableEq, Repr

/-- A SYNTH_CAL that calibrates in Standby (R180). -/
structure StandbyCal where
  issue : Issue
  syn   : Fin 2
  deriving DecidableEq, Repr

/-- A converter tile (R159, R171 to R188, R195 to R197). `floorIssue` is the RADIO_STATE addressed to the tile; `relock` is a
re-entry into SynthOn after a lock loss; `poisoned` says that its queues poison until realignment (R31, R178); `since` is the monotonic count since which it stands in its
state (R199). -/
structure Tile where
  state       : TileState
  since       : Nat
  floor       : TileState
  floorIssue  : Option Issue
  active      : Fin 2
  syn         : Vector Synth 2
  queueAligned : Bool
  poisoned    : Bool
  calOverdue  : Bool
  handoverCount : Nat
  handoverTime : Nat
  autoCal     : Bool
  calDelta    : Nat
  tddGapAlign : Bool
  lockTimeout : Nat
  appliedBand : Nat
  applyPending : Bool
  forceEnable : Bool
  forceBand   : Nat
  fullCal     : Bool
  relock      : Bool
  /-- The tile was reset and has not been in SynthOn since, so that slices through its ports emit poisoned samples (R100). -/
  resetDown   : Bool
  prep        : Option Prep
  standbyCal  : Option StandbyCal
  /-- `mono` since which the zone has differed from the active calibration by cal_delta (R172). -/
  deltaSince  : Option Nat
  /-- When a failed twin is prepared again (R177). -/
  retryAt     : Option Nat
  /-- When a loaded shadow table applies at the latest on a tile without TDD slices (R186). -/
  applyAt     : Nat
  deriving DecidableEq, Repr

/-- The unit a radio event is about (R196). -/
inductive RadioUnit where
  | rx (p : Fin 32)
  | tx (p : Fin 32)
  | tile (t : Fin 4)
  deriving DecidableEq, Repr

/-- The tiles with the ports they carry. -/
structure Tiles where
  tile : Vector Tile 4
  rx   : Vector RxPort 32
  tx   : Vector TxPort 32
  deriving DecidableEq, Repr

end Sys2Proof
end

