-- ==== Sys2Proof/Syntax.lean ====
section
/-! DEFINITION. The commands: one constructor of `Instr` for each row of the opcode table. The host's opcodes (R69) carry
their descriptor; an event of the outside or of a timed engine carries what the environment measured or decided. -/
namespace Sys2Proof

/-- The commands the block takes, one for each row of the opcode table, in the table's order. -/
inductive Instr where
  /-- POWER_GOOD (R673). All rails have held at or above their reset thresholds plus 20 mV for 1 ms, releasing power-on reset and setting the boot reference. -/
  | powerGood (straps : BitVec 2) (refclkSel : Bool)
  /-- POWER_FAIL (R675). A rail falls below its reset threshold: power-on reset is held and outputs return to their safe states within 10 µs. -/
  | powerFail
  /-- SYS_RESET (R94). SYS_RESET_L is held low for at least 1 µs, causing a cold reset of the whole device. -/
  | sysReset (straps : BitVec 2) (refclkSel : Bool)
  /-- REFCLK_QUALIFIED (R682). REFCLK comes within ±1,000 ppm of the selected frequency, so boot continues past step 3. -/
  | refclkQualified (hz : Nat)
  /-- FW_RUN (R105). The firmware slot read and verification ends: the part boots the current slot or the other slot, or enters RECOVERY if neither verifies. -/
  | fwRun (okA okB : Bool) (maps ledgers : Vector Bool 2) (keys : Vector Bool 4) (skip : BitVec 48)
  /-- READY (R108). The configuration image is selected, verified and applied as the first commit; the stage becomes READY or NO_CONFIG and start-up ports begin their transitions. -/
  | ready (verified : Vector Bool 3)
  /-- WATCHDOG_EXPIRY (R94). The supervisor watchdog goes 2 s without service and causes a warm reset. -/
  | watchdogExpiry
  /-- GLB_RESET_WARM (R118). PF0 writes GLB_RESET_CTL.warm with the correct key, starting a warm reset. -/
  | glbResetWarm (key : Half)
  /-- WARM_RESET_SEQUENCE (R97). A warm reset asserts the halt path, then reinitialises the supervisor, fabric, tiles and PCIe, keeping station time and the sequence counter running. -/
  | warmResetSequence
  /-- TILE_RESET (R100). PF0 writes GLB_RESET_CTL.tile_reset, sending the tile's ports to Sleep and abandoning the tile's pending work. -/
  | tileReset (tile : Fin 4) (key : Half)
  /-- PERST_ASSERT (R99). PERST_L goes low: the PCIe core, HIF and all functions reset while the repeat continues. -/
  | perstAssert
  /-- PERST_DEASSERT (R109). PERST_L rises, and link training starts within 20 ms of the later of this and step 7. -/
  | perstDeassert
  /-- PCIE_LINK_UP (R109). The PCIe link completes training and reaches L0, which updates link_rate and link_width. -/
  | pcieLinkUp (rate width : Nat)
  /-- FLR (R91). A function-level reset of PF0 or a VF disables that function's rings and resets its configuration space. -/
  | flr (fn : Fn)
  /-- PCIE_CONFIG_REQUEST (R109). A PCIe configuration request is served; it is retried before step 7 and is UR to a VF that does not exist, and it may change Bus Master Enable, Memory Space Enable, NumVFs or VF Enable. -/
  | pcieConfigRequest (fn : Fn) (change : CfgChange)
  /-- BAR_ACCESS_DROP (R45). A BAR0 or BAR4 access that is not permitted completes normally, reads 0, has no effect on write and increments HIF_ACCESS_DROP. -/
  | barAccessDrop (fn : Fn) (read : Bool)
  /-- REGISTER_WRITE (R7). A write to a register field that has no behaviour of its own acts according to the field's access code. -/
  | registerWrite (fn : Fn) (offset size value : Nat)
  /-- WIDE_REGISTER_CAPTURE (R5). A read of the lowest word of a 256-bit register captures all 256 bits for the reading function. -/
  | wideRegisterCapture (fn : Fn) (bar : BarId) (offset size : Nat)
  /-- TIM_NOW_NS_READ (R371). A read of TIM_NOW_NS latches the seconds of the same instant into TIM_NOW_SEC. -/
  | timNowNsRead (fn : Fn)
  /-- PEAK_READ (R195). A read of TILE_RX_STATUS_p returns the peak and resets it to 255. -/
  | peakRead (port : Fin 32)
  /-- TIME_SOURCE_CHANGE (R372). A write that changes TIM_CTL.source moves an ALIGNED part to HOLDOVER and raises source 163. -/
  | timeSourceChange (source : Bool)
  /-- CODE_SEL_WRITE (R544). A write of a MEM_CODE_SEL bit either switches an empty AVAILABLE bank to the new code or is ignored and flagged. -/
  | codeSelWrite (bank : Fin 48) (parity : Bool)
  /-- CODE_SEL_ZERO_DONE (R544). A bank switched to a new code finishes zeroing in that code and leaves TESTING. -/
  | codeSelZeroDone (bank : Fin 48)
  /-- DUMP_RELEASE (R589). Writing 1 to FLT_DUMP_STATUS.release releases the retained dump. -/
  | dumpRelease
  /-- RING_OWNER_WRITE (R49). PF0 writes HIF_RING_OWNER_n, which takes effect only while the pair is Disabled and never moves RING_0. -/
  | ringOwnerWrite (ring : RingId) (owner : Fn)
  /-- RING_ENABLE (R91). Writing 1 to a ring's enable moves it to Running, to Error with BAD_CONFIG, or leaves it Disabled when Bus Master Enable is clear. -/
  | ringEnable (fn : Fn) (sel : RingSel)
  /-- RING_DISABLE (R91). Writing 0 to a ring's enable begins its return to Disabled. -/
  | ringDisable (fn : Fn) (sel : RingSel)
  /-- RING_DRAINED (R91). Once a disabled ring's in-flight commands have completed and their completions are written, the ring enters Disabled. -/
  | ringDrained (ring : RingId)
  /-- RING_RESET (R93). Writing 1 to a ring's reset bit while it is Disabled zeroes its indices and phase; a ring in Error then returns to Disabled. -/
  | ringReset (fn : Fn) (sel : RingSel)
  /-- MSIX_UNMASK (R86). Unmasking a vector whose pending bit is set sends one message. -/
  | msixUnmask (fn : Fn) (vector : Fin 64)
  /-- DOORBELL_PRODUCER (R53). A doorbell write at offset 0x000 is accepted as the new producer index, ignored, or puts the ring into Error with DB_OVERRUN; discarded doorbells are counted. -/
  | doorbellProducer (fn : Fn) (page : Fin 256) (offset size : Nat) (value : Word)
  /-- DOORBELL_CONSUMER (R47). A doorbell write at offset 0x008 returns completion, event or capture space, so fetching or mirroring resumes. -/
  | doorbellConsumer (fn : Fn) (page : Fin 256) (value : Word)
  /-- DESCRIPTOR_FETCH (R55). The device fetches the next descriptor of a ring in index order once there is room, and checks it under R71; a failed read enters Error with FETCH_ERROR. -/
  | descriptorFetch (ring : RingId) (fetch : Fetch)
  /-- CPL_WRITE_ERROR (R92). The host refuses a completion, write-back or record write, and the ring enters Error. -/
  | cplWriteError (sel : RingSel)
  /-- VECTOR_TIMER (R85). A vector's moderation timer expires and the vector signals. -/
  | vectorTimer (fn : Fn) (vector : Fin 64)
  /-- NOP (R689). NOP completes OK, or BAD_PARAM if any parameter is non-zero. -/
  | nop (d : Desc)
  /-- CFG_STAGE (R131). CFG_STAGE verifies an image and replaces STAGED, keeping a verified copy in an SMEM bank. -/
  | cfgStage (d : Desc) (sigOk digestOk : Bool)
  /-- CFG_COMMIT (R134). CFG_COMMIT rounds its instant to T, checks version, claims and capacity, and holds the commit pending; with cancel it withdraws a pending commit instead. -/
  | cfgCommit (d : Desc) (copyUe : Bool)
  /-- COMMIT_APPLY (R139). At T, STAGED becomes ACTIVE and the sections take effect, the high-water version is raised, the fallback window opens and the commit completes. -/
  | commitApply
  /-- CFG_CONFIRM (R143). CFG_CONFIRM closes the fallback window when its version matches ACTIVE. -/
  | cfgConfirm (d : Desc)
  /-- CFG_ROLLBACK (R148). CFG_ROLLBACK schedules a return to PREVIOUS at an instant rounded to an epoch strobe. -/
  | cfgRollback (d : Desc)
  /-- WINDOW_END (R144). The fallback window passes E unconfirmed, so an automatic return is scheduled. -/
  | windowEnd
  /-- FALLBACK_RETURN (R145). PREVIOUS or the empty configuration is applied at the return instant, the slots rotate, conflicting claims are released and a configuration-returned record is written. -/
  | fallbackReturn
  /-- STAGED_COPY_REBUILD (R129). A suitable bank becomes free, so the STAGED copy is rebuilt from flash. -/
  | stagedCopyRebuild (verified : Bool)
  /-- PERSIST_FLUSH (R151). The temperature is back in range for the dwell, so pending configuration, retirement-map and ledger writes go to flash. -/
  | persistFlush
  /-- FLASH_RETRY (R153). A flash write that has failed three times is retried every 10 s. -/
  | flashRetry
  /-- TIME_SET (R383). TIME_SET sets, steps or schedules the seconds of station time according to its mode. -/
  | timeSet (d : Desc)
  /-- TIME_SET_TIMEOUT (R383). A mode 1 TIME_SET finds no edge accepted within 2 s and completes TIMEOUT. -/
  | timeSetTimeout
  /-- TDD_PATTERN_SET (R393). TDD_PATTERN_SET schedules a new pattern for a timer at the first old period start X. -/
  | tddPatternSet (d : Desc)
  /-- PATTERN_PERIOD_START (R393). A pattern timer reaches a period start: pattern changes, transition or re-phase gaps, pair side and shift changes, and TDD-timing releases take effect. -/
  | patternPeriodStart (timer : Fin 8)
  /-- TDD_SWITCH (R213). At a switching instant a TDD pair switches between Receive and Transmit, with strobe leads and lags and the short ramp. -/
  | tddSwitch (pair : Fin 32)
  /-- TDD_INFER (R395). TDD_INFER starts observing the power of a slice's input to infer a pattern. -/
  | tddInfer (d : Desc)
  /-- INFER_DONE (R397). The observation ends, and a proposal is published or the command completes TIMEOUT. -/
  | inferDone
  /-- INFER_INTERVAL (R398). A timer's inference interval elapses, so an inference runs and agreeing proposals may be adopted automatically. -/
  | inferInterval (timer : Fin 8)
  /-- PPS_EDGE (R377). A PPS_IN timing edge is captured and is accepted, counted as stray, or causes a step, with polarity detection under R376. -/
  | ppsEdge (capture width active : Nat)
  /-- PPS_LOSS (R378). No edge has been accepted for 1.1 s while ALIGNED, so the state becomes HOLDOVER and PPS-lost is raised. -/
  | ppsLoss
  /-- TIME_STEP (R379). A decided step is added to the counter at an epoch strobe, the epoch may advance and a TIME_STEP record is written. -/
  | timeStep
  /-- ERROR_UPDATE (R374). The estimated time error is updated every 1 ms, and source 164 and TDD_TIMING are raised when it exceeds 1.5 µs. -/
  | errorUpdate
  /-- PPS_OUT_PULSE (R384). PPS_OUT pulses at each whole second plus its offset, as its mode allows. -/
  | ppsOutPulse
  /-- RADIO_STATE (R200). RADIO_STATE requests a state for a port, pair or tile and replaces any request in progress. -/
  | radioState (d : Desc)
  /-- RADIO_TRANSITION_DONE (R203). A port or tile reaches its requested state, and the RADIO_STATE completes OK. -/
  | radioTransitionDone (unit : RadioUnit)
  /-- TILE_LOCK_FAIL (R206). A tile entry from Standby fails to lock within the maximum time plus lock_timeout, so the tile stays in Standby and waiting requests complete NOT_LOCKED. -/
  | tileLockFail (tile : Fin 4)
  /-- LOCK_TIMEOUT (R184). A command that waits for lock reaches lock_timeout and completes NOT_LOCKED. -/
  | lockTimeout (unit : RadioUnit)
  /-- SYNTH_CAL (R180). SYNTH_CAL calibrates or prepares a synthesiser and may hand over, according to the tile state. -/
  | synthCal (d : Desc)
  /-- SYNTH_HANDOVER (R181). SYNTH_HANDOVER asks for a handover to the twin at an instant. -/
  | synthHandover (d : Desc)
  /-- TEMP_HANDOVER_TRIGGER (R172). The zone temperature has differed from the calibration temperature by cal_delta for the dwell, so twin preparation and handover begin. -/
  | tempHandoverTrigger (tile : Fin 4)
  /-- TWIN_PREPARED (R173). Twin calibration and phase slaving end at step 6, and the tile waits for the handover boundary. -/
  | twinPrepared (tile : Fin 4)
  /-- HANDOVER_BOUNDARY (R174). At the handover boundary strobe the selector switches the clock tree to the prepared twin. -/
  | handoverBoundary (tile : Fin 4)
  /-- HANDOVER_RECORD (R173). At boundary plus 1 µs the phase step is measured and stored, handover_pending clears and the record is written. -/
  | handoverRecord (tile : Fin 4) (phaseStep : Int)
  /-- TWIN_FAILED (R177). A twin fails to lock or exceeds the phase residual, so the handover is abandoned and may become Failed after three tries. -/
  | twinFailed (tile : Fin 4)
  /-- TWIN_RETRY (R177). 100 ms after a twin failure, the twin is prepared again. -/
  | twinRetry (tile : Fin 4)
  /-- SYNTH_LOCK_LOST (R178). The active synthesiser loses lock, so the tile queues poison and the tile drops to Standby to re-enter SynthOn on the twin. -/
  | synthLockLost (tile : Fin 4)
  /-- TILE_RELOCK (R178). The tile re-enters SynthOn on the twin and returns its ports to their earlier states. -/
  | tileRelock (tile : Fin 4)
  /-- BAND_DECLARED (R185). A tile's zone value stays across a band boundary for the dwell, so a new band is declared and its seeds are loaded into the shadow table. -/
  | bandDeclared (zone : Fin 6) (up : Bool)
  /-- BAND_TABLE_APPLY (R186). The shadow band table is applied to all 16 converters at the first safe point. -/
  | bandTableApply (tile : Fin 4)
  /-- SPARE_ROTATION (R160). Every 64 µs the spare sub-converter replaces one in the rotation for background calibration. -/
  | spareRotation (port : Fin 32) (next : Fin 17) (converged : Bool)
  /-- CORRECTION_TIMEOUT (R194). The correction has not converged within 100 ms, which raises a CORRECTED tile error. -/
  | correctionTimeout (port : Fin 32)
  /-- RX_OVERRANGE (R162). An RX port's peak reaches ovr_thresh, which sets overrange and reports to the protection supervisor. -/
  | rxOverrange (port : Fin 32)
  /-- LOAD_FAULT (R190). The internal load check sees a reflection of 0.8 or more for 100 µs, which sets load_fault and triggers REFLECTED. -/
  | loadFault (port : Fin 32)
  /-- PORT_SELFTEST_DONE (R192). The 2 ms converter self-test ends, and may place the spare, retire the port or count the error as transient. -/
  | portSelftestDone (unit : RadioUnit) (failures : Nat) (replay : Bool)
  /-- QUEUE_ALIGNMENT_ERROR (R31). A tile queue's occupancy at a strobe differs from its aligned value by more than one entry, so it poisons and raises an error. -/
  | queueAlignmentError (port : Fin 32) (tx : Bool) (occupancy : Fin 33)
  /-- RESIDUE_MISMATCH (R264). A stage output fails its residue check, so the block is recomputed on the spare or poisoned, and a self-test is scheduled. -/
  | residueMismatch (site : ResidueSite) (stage : Nat) (index : Fin 32) (corrected : Bool)
  /-- FEM_FAULT_INPUT (R223). A FEM fault or rail mismatch is read after filtering, which raises the link fault and may place a FEM hold. -/
  | femFaultInput (fem : Fin 16) (t c : Bool)
  /-- STROBE_SHORT (R224). A strobe read-back mismatch persists for 1 µs, which sets short bits and holds for TXEN or PAEN. -/
  | strobeShort (fem : Fin 16) (strobe : Fin 4) (high : Bool)
  /-- RFFE_SHORT (R225). A read-back mismatch on SCLK or SDATA stops the bus and discards the commands waiting on it. -/
  | rffeShort (fem : Fin 16)
  /-- RFFE_BUS_RETEST (R225). Every 10 ms a stopped bus is tested again, and traffic resumes when the read-back agrees. -/
  | rffeBusRetest (fem : Fin 16) (agrees : Bool)
  /-- PRESENCE_POLL (R226). Every 100 ms register 0x1D of each listed USID is read, and slave_missing is set after three failed reads. -/
  | presencePoll (fem : Fin 16) (failed : BitVec 16)
  /-- RFFE_COMMAND_DONE (R219). An RFFE bus command (write list, bias channel or mailbox) finishes on the bus. -/
  | rffeCommandDone (fem : Fin 16) (data : Nat) (parityOk : Bool)
  /-- RFFE_QUEUE_TIMEOUT (R219). A bias or mailbox command has waited more than 10 ms and is discarded, raising overflow. -/
  | rffeQueueTimeout (fem : Fin 16)
  /-- RFFE_MAILBOX_GO (R221). A write of FEC_RFFE_CMD_n with go queues a mailbox command, or refuses it as BUSY_OWNED. -/
  | rffeMailboxGo (fem : Fin 16) (value : Word)
  /-- MANUAL_STROBE_WRITE (R237). A write of FEC_MANUAL_n drives the strobes that HOST owns and flags busy_owned for the others. -/
  | manualStrobeWrite (fem : Fin 16) (level : BitVec 4)
  /-- GRANT_CHANGE (R229). A requester's CXG_c edge ramps its bound ports down or up within 0.5 µs. -/
  | grantChange (pair : Fin 8) (level : Bool)
  /-- GRANT_TIMEOUT (R228). A bound port's wait for a grant exceeds grant_timeout, so it is counted as denied and a notification is raised. -/
  | grantTimeout (pair : Fin 8)
  /-- COEX_REQUEST_CHANGE (R230). An arbiter's CXA_c request edge raises or lowers CXG_c. -/
  | coexRequestChange (pair : Fin 8) (level : Bool)
  /-- BLANK_ASSERT (R231). An enabled BLANK_b rises, which ramps its bound TX ports off and zeroes its bound RX samples. -/
  | blankAssert (blank : Fin 8)
  /-- BLANK_RELEASE (R234). BLANK_b is released, and the bound ports resume. -/
  | blankRelease (blank : Fin 8)
  /-- BLANK_STUCK (R235). A blanking input stays asserted beyond blank_max, which sets stuck and raises an error. -/
  | blankStuck (blank : Fin 8)
  /-- SLICE_SET (R294). SLICE_SET defines or changes a slice and sorts the change into Immediate, class A or class B. -/
  | sliceSet (d : Desc)
  /-- PENDING_SET_LIVE (R17). A slice's pending parameter set is copied to live at a slice sample boundary, and the commands that filled it complete. -/
  | pendingSetLive (slice : SliceId)
  /-- SLICE_RESTART_START (R295). At the first strobe at or after E + 1 ms, the old definition stops and the new one starts on its engines. -/
  | sliceRestartStart (slice : SliceId)
  /-- SLICE_RESTART_DONE (R295). At R + L_new the output ramps up, the command completes and notification 96 is raised. -/
  | sliceRestartDone (slice : SliceId)
  /-- SLICE_GAIN (R297). SLICE_GAIN fills a slice's pending set with a new gain target. -/
  | sliceGain (d : Desc)
  /-- SLICE_MUTE (R297). SLICE_MUTE fills a slice's pending set with a host mute or unmute. -/
  | sliceMute (d : Desc)
  /-- SLICE_DELETE (R297). SLICE_DELETE ramps a slice down and frees its resources. -/
  | sliceDelete (d : Desc)
  /-- SLICE_DELETE_DONE (R297). The delete ramp ends, the index reads EMPTY and the command completes. -/
  | sliceDeleteDone (slice : SliceId)
  /-- METER_WINDOW_END (R283). A slice power meter window of 2^w samples ends and the meter reports. -/
  | meterWindowEnd (slice : SliceId) (path : PathId)
  /-- CAPTURE (R306). CAPTURE starts or stops streaming a slice tap to a capture ring. -/
  | capture (d : Desc)
  /-- CAPTURE_BLOCK (R82). A capture block fills and is written to the ring, or is dropped and counted. -/
  | captureBlock (ring : Fin 8)
  /-- CAPTURE_END (R307). A capture ends when its count is reached, it is stopped, or its slice is deleted or restarted; a last block is written and notification 99 is raised. -/
  | captureEnd (ring : Fin 8)
  /-- CANCEL_CTL (R332). CANCEL_CTL fills the pending set with canceller mode and parameters. -/
  | cancelCtl (d : Desc)
  /-- CANCEL_WINDOW_END (R322). An evaluation window ends: the estimators are computed, the background may be copied to the foreground, settled is updated and the ceiling is recomputed. -/
  | cancelWindowEnd (slice : SliceId) (path : PathId)
  /-- SQUALL_WINDOW_END (R339). A Squall window ends and is tested, and may activate SQUALL_TRIM, SQUALL_MUTE or SQUALL_PORT. -/
  | squallWindowEnd (slice : SliceId) (path : PathId)
  /-- OVERDRIVE_INTERVAL (R344). A 10 µs overdrive interval ends, which raises OVERDRIVE components or marks the condition absent. -/
  | overdriveInterval (rx : Fin 32)
  /-- NOISE_INTERVAL_END (R345). A 100 ms noise interval ends, which may raise NOISE_RISE by 0.50 dB. -/
  | noiseIntervalEnd (slice : SliceId)
  /-- EMISSION_VISIT_END (R347). An observation visit to a port ends, which raises EMISSION_TRIM or activates EMISSION_MUTE. -/
  | emissionVisitEnd (tx : Fin 32) (bins : List (Nat × Int))
  /-- DONOR_LOSS_TIMEOUT (R348). Donor power stays below donor_floor for donor_time, which activates DONOR_LOSS. -/
  | donorLossTimeout (ref : SliceId)
  /-- DONOR_RECOVER (R349). Donor power stays above the floor plus hysteresis for donor_recover, which releases DONOR_LOSS. -/
  | donorRecover (ref : SliceId)
  /-- TRIM_HOLD_EXPIRY (R352). A trim component's condition has been absent for trim_hold, so its release begins. -/
  | trimHoldExpiry (slice : SliceId) (path : PathId) (kind : TrimKind)
  /-- TRIM_RELEASE_STEP (R352). A releasing trim component falls by 0.50 dB each trim_release interval. -/
  | trimReleaseStep (slice : SliceId) (path : PathId) (kind : TrimKind)
  /-- PROTECT_HALT (R358). PROTECT_HALT asserts or releases HALT_HOST. -/
  | protectHalt (d : Desc)
  /-- PROTECT_CLEAR (R360). PROTECT_CLEAR releases the named protection causes whose condition is absent. -/
  | protectClear (d : Desc)
  /-- LOOP_TICK (R485). At a base tick the control engine latches inputs, evaluates the due slots, applies outputs, swaps banks and records trace entries. -/
  | loopTick (parity : List (Fin 64 × Fin 512))
  /-- LOOP_WRITE (R495). LOOP_WRITE writes coefficient words into a bank. -/
  | loopWrite (d : Desc)
  /-- LOOP_SWAP (R497). LOOP_SWAP schedules a bank swap at a boundary, with an optional fade. -/
  | loopSwap (d : Desc)
  /-- LOOP_SETPOINT (R491). LOOP_SETPOINT retargets a set-point ramp. -/
  | loopSetpoint (d : Desc)
  /-- TRACE_ARM (R507). TRACE_ARM arms or disarms a trace buffer on a trigger. -/
  | traceArm (d : Desc)
  /-- MON_SEQ_SET (R534). MON_SEQ_SET programs a converter's sequence, which takes effect at its next pass or slot. -/
  | monSeqSet (d : Desc)
  /-- PASS_TRIGGER (R516). A SCAN converter's trigger occurs, and a pass is started, queued, dropped or restarted under its policy. -/
  | passTrigger (conv : Fin 8)
  /-- PASS_COMPLETE (R515). A pass ends and its results are published together. -/
  | passComplete (conv : Fin 8) (averages : List Nat)
  /-- MON_INJECT (R520). MON_INJECT queues a host injected conversion. -/
  | monInject (d : Desc)
  /-- INJECTION_COMPLETE (R522). An injected conversion finishes and writes its record, or times out. -/
  | injectionComplete (conv : Fin 8) (timeout : Bool) (stamp average : Nat)
  /-- MON_CAL (R523). MON_CAL starts a system calibration measurement of a phase on an input. -/
  | monCal (d : Desc)
  /-- CAL_MEASUREMENT_DONE (R524). The calibration measurement ends, user terms are computed and go live, and held injections run. -/
  | calMeasurementDone (conv : Fin 8) (average : Nat)
  /-- REF_READY (R513). A converter's reference becomes ready and the converter leaves REF_WAIT. -/
  | refReady (conv : Fin 8)
  /-- COMPARATOR_TRIP (R527). A window comparator trips, which sets status, requests an automatic injection and may trigger REFLECTED. -/
  | comparatorTrip (input : Fin 64) (high : Bool)
  /-- COMPARATOR_RELEASE (R527). The input stays inside the window by hyst for 1 µs, so the comparator releases. -/
  | comparatorRelease (input : Fin 64)
  /-- OPEN_CHECK (R530). The 100 ms open-input check with a test current declares or clears an open input. -/
  | openCheck (conv : Fin 8) (input : Fin 16) (difference : Int)
  /-- REFERENCE_CHECK (R532). The 10 ms internal reference conversion may fail and start the converter self-test. -/
  | referenceCheck (conv : Fin 8) (code : Nat)
  /-- MADC_SELFTEST_DONE (R532). The 50 µs converter self-test ends, and the converter is restored or retired. -/
  | madcSelftestDone (conv : Fin 8) (pass : Bool)
  /-- LANE_CTL (R438). LANE_CTL enables, disables or retrains a lane. -/
  | laneCtl (d : Desc)
  /-- LANE_UP (R404). A lane completes training and is UP, and may become the data lane. -/
  | laneUp (lane : Fin 64) (inverted : Bool)
  /-- LANE_TRAIN_TIMEOUT (R404). A lane is not UP within 100 ms, so it restarts training and a pending enable completes TIMEOUT. -/
  | laneTrainTimeout (lane : Fin 64)
  /-- LANE_FAIL (R408). A lane's receive health fails, so it becomes FAILED, its feeds fail over or are shed, and the time-source link may change. -/
  | laneFail (lane : Fin 64) (reason : LaneFault)
  /-- LANE_DEGRADED (R408). Corrected symbols exceed deg_ser in 3 superframes, which sets degraded, or degraded clears after 1 s. -/
  | laneDegraded (lane : Fin 64)
  /-- LANE_SELFTEST_DONE (R409). The lane PRBS self-test ends, and the lane retrains or is retired. -/
  | laneSelftestDone (lane : Fin 64) (pass : Bool)
  /-- LANE_SPARE_READY (R409). A retrained lane has been UP and healthy for 1 s and becomes a spare. -/
  | laneSpareReady (lane : Fin 64)
  /-- FRAME_HEADER (R406). A frame marker and header are received, and the arrival, peer identity, lane-up mask and time state are checked. -/
  | frameHeader (lane : Fin 64) (offset : Int) (words : List Nat) (fec : FecCounts)
  /-- TICK_SEND (R415). At each 1 µs tick the completed blocks are sent in segments ordered by stream and feed. -/
  | tickSend
  /-- SEGMENT_RECEIVE (R415). A segment is received and its blocks enter the stream's delay buffer. -/
  | segmentReceive (lane : Fin 64) (descriptor : Nat) (bytes : List Byte)
  /-- BLOCK_PLAYOUT (R426). At a block's playout instant it is chosen from the feeds or combined, added forward, or played as poisoned when late. -/
  | blockPlayout (stream number : Nat)
  /-- LINK_MAP (R424). LINK_MAP schedules stream entries for the next superframe start. -/
  | linkMap (d : Desc)
  /-- LINK_MAP_EFFECT (R424). At the superframe start the stream entries take effect and LINK_MAP completes. -/
  | linkMapEffect
  /-- PLACE_PIN (R466). PLACE_PIN records or removes a pin mask and moves the work inside it. -/
  | placePin (d : Desc)
  /-- PLACE_FORBID (R467). PLACE_FORBID empties and forbids a unit, or allows it again. -/
  | placeForbid (d : Desc)
  /-- PLACE_REBALANCE (R468). PLACE_REBALANCE runs one rebalance or thermal pass, or a dry run. -/
  | placeRebalance (d : Desc)
  /-- MOVE_START (R450). At strobe S the move's target starts taking input and receiving the part's state. -/
  | moveStart
  /-- SHADOW_START (R450). At S + W shadow computation starts on both engines. -/
  | shadowStart (slot : Fin 8)
  /-- MOVE_CUTOVER (R450). After a match the target's output is released and the source is freed. -/
  | moveCutover (slot : Fin 8)
  /-- MOVE_ABANDON (R452). A shadow that does not match in 8,192 samples is abandoned, or cuts over when it is an evacuation. -/
  | moveAbandon (slot : Fin 8) (matched : Nat)
  /-- BUFFER_COPY_DONE (R455). A buffer copy ends, and the readers switch at the next strobe. -/
  | bufferCopyDone (slice : SliceId) (path : PathId) (delay : Bool) (feed : Nat)
  /-- UNIT_SELFTEST_DONE (R459). An engine BIST or bank march test ends, and the unit returns to AVAILABLE or is retired. -/
  | unitSelftestDone (unit : FabricUnit) (pass : Bool)
  /-- SPREAD_DECLARED (R462). The quadrant temperature spread stays at or above spread_limit for the dwell, so thermal moves begin. -/
  | spreadDeclared
  /-- REBALANCE_PASS (R463). rebalance_interval elapses and a periodic pass runs. -/
  | rebalancePass
  /-- SMEM_READ_ERROR (R548). An SMEM read meets a corrected, uncorrectable, address, parity or poisoned word and acts under the read table. -/
  | smemReadError (location : Fin 16777216) (reader : Reader) (error : ReadError)
  /-- SCRUB_PASS_END (R555). A scrub pass over all banks completes, raising notification 260. -/
  | scrubPassEnd
  /-- MEM_RETIRE (R557). MEM_RETIRE evacuates and permanently retires an SMEM bank. -/
  | memRetire (d : Desc)
  /-- COLLECTION_CYCLE (R567). Every 40 ns the collector samples all dual-rail pairs, declares broken pairs, records assertions in order, and updates first-fault capture and history. -/
  | collectionCycle (bad : List (Fin 320))
  /-- DUMP_ASSEMBLED (R587). Dump assembly in retained SRAM ends. -/
  | dumpAssembled
  /-- DUMP_WRITTEN (R588). The dump write to the host buffer ends or the host proves unreachable, and the 2 s reset countdown starts. -/
  | dumpWritten (ok : Bool)
  /-- FAULT_INJECT (R575). FAULT_INJECT schedules a pulse or hold injection at a source's detector. -/
  | faultInject (d : Desc)
  /-- INJECTION_FIRE (R576). At its instant an injection makes the detector report as though it had detected the condition. -/
  | injectionFire (source : Fin 320)
  /-- INJECTION_HOLD_END (R575). A hold injection's duration ends and the command completes. -/
  | injectionHoldEnd (source : Fin 320)
  /-- SELFTEST (R582). SELFTEST runs a unit's targeted self-test with its usual consequences. -/
  | selftest (d : Desc)
  /-- FAULT_CLEAR (R583). FAULT_CLEAR clears latched status, first-fault capture or history. -/
  | faultClear (d : Desc)
  /-- DUMP_REGISTER (R590). DUMP_REGISTER registers or removes the fatal-dump host buffer and copies any retained dump into it. -/
  | dumpRegister (d : Desc)
  /-- RECORD_PUBLISH (R600). A staged record is published to the on-chip store, inserting OVERFLOW records for losses. -/
  | recordPublish
  /-- RECORD_MIRROR (R603). The mirror copies the next record, or an OVERFLOW stand-in, to the event ring. -/
  | recordMirror
  /-- COUNTER_CFG (R614). COUNTER_CFG reprograms a counter at the next counter clock. -/
  | counterCfg (d : Desc)
  /-- COUNTER_WRAP (R611). A counter passes 2^48 − 1, which sets sticky and may publish a COUNTER_WRAP record. -/
  | counterWrap (counter : Fin 256) (amount : Nat)
  /-- COUNTER_SNAPSHOT (R617). COUNTER_SNAPSHOT starts or stops a single or periodic snapshot. -/
  | counterSnapshot (d : Desc)
  /-- SNAPSHOT_CAPTURE (R619). At a snapshot instant all counts are captured and written to the next slot. -/
  | snapshotCapture (periodic ok : Bool)
  /-- THERMAL_SAMPLE (R625). Every 50 µs every sensor is sampled and the filtered values are updated, failing sensors as needed. -/
  | thermalSample (samples : Vector Int 24) (bad : BitVec 24)
  /-- THRESHOLD_DECLARED (R628). A zone value stays across a threshold for the dwell, which declares LOW_WARN, HIGH_WARN, THROTTLE or COLD_START. -/
  | thresholdDeclared (zone : Fin 6) (threshold : Threshold)
  /-- THRESHOLD_CLEARED (R628). A zone value stays inside by the hysteresis for the dwell, which clears a declared threshold. -/
  | thresholdCleared (zone : Fin 6) (threshold : Threshold)
  /-- THAW_END (R115). Every zone has stayed above COLD_START plus hysteresis for the dwell, so Thaw ends and deferred transmits start. -/
  | thawEnd
  /-- OVERCAST_STEP (R634). An Overcast interval elapses, and Overcast advances or retreats one stage step. -/
  | overcastStep
  /-- CRITICAL_DECLARED (R638). A sensor reads 115 °C or more on 4 consecutive samples, which sets HALT_THERMAL and gates the slice engines. -/
  | criticalDeclared (zone : Fin 6)
  /-- THERMAL_HALT_END (R639). Every zone stays below CRITICAL less hysteresis for the dwell, so the halt releases and slices restart. -/
  | thermalHaltEnd
  /-- LEDGER_SECOND (R642). Each second the ledger bins and life_used advance. -/
  | ledgerSecond
  /-- LEDGER_PERSIST (R641). The hourly ledger write to flash. -/
  | ledgerPersist
  /-- FW_ACTIVATE (R652). FW_ACTIVATE loads a firmware slot, activates it by supervisor restart, or confirms it. -/
  | fwActivate (d : Desc) (proof : FwProof)
  /-- SUPERVISOR_RESTART_DONE (R656). The restarted supervisor reaches FW_RUN or fails or times out, falling back to the previous slot. -/
  | supervisorRestartDone (fin : RestartEnd)
  /-- FW_WINDOW_EXPIRY (R657). The activation window ends unconfirmed, so the supervisor restarts into the previous slot. -/
  | fwWindowExpiry
  /-- HALT (R354). The management HALT message sets HALT_MGMT. -/
  | halt (inst : Byte)
  /-- RELEASE (R355). The management RELEASE message releases HALT_MGMT and HALT_HOST. -/
  | release (inst : Byte)
  /-- WARM_RESET (R662). The management WARM_RESET message causes a warm reset within 1 ms of its response. -/
  | warmReset (inst : Byte) (payload : Half)
  /-- FAULT_READ (R662). FAULT_READ returns fault collector status or a history entry. -/
  | faultRead (inst selector : Byte)
  /-- CFG_INFO (R662). CFG_INFO returns configuration status, versions and digests. -/
  | cfgInfo (inst : Byte)
  /-- DUMP_READ (R662). DUMP_READ returns a range of the retained dump. -/
  | dumpRead (inst : Byte) (offset : Word) (length : Half)
  /-- FW_WRITE (R663). FW_WRITE writes data to the firmware slot that is not running. -/
  | fwWrite (inst : Byte) (offset : Word) (bytes : List Byte)
  /-- FW_FINISH (R663). FW_FINISH verifies the written slot, makes it current and warm-resets. -/
  | fwFinish (inst : Byte) (proof : FwProof)
  /-- OWNER_KEY (R664). OWNER_KEY provisions, adds or revokes an owner key. -/
  | ownerKey (inst : Byte) (change : KeyOp) (sigOk : Bool)
  /-- DEBUG_CHALLENGE (R668). DEBUG_CHALLENGE returns a nonce and the identity hash. -/
  | debugChallenge (inst : Byte)
  /-- DEBUG_UNLOCK (R668). DEBUG_UNLOCK verifies a signature and unlocks a debug level, or counts a failure. -/
  | debugUnlock (inst level : Byte) (sigOk : Bool)
  /-- NONCE_EXPIRY (R668). A debug nonce lapses 60 s after it was issued. -/
  | nonceExpiry
  /-- SET_ENDPOINT_ID (R661). The MCTP control command Set Endpoint ID assigns the endpoint ID. -/
  | setEndpointId (eid : Byte)
  /-- GET_ENDPOINT_ID (R661). The MCTP control command Get Endpoint ID. -/
  | getEndpointId
  /-- GET_MCTP_VERSION_SUPPORT (R661). The MCTP control command Get MCTP Version Support. -/
  | getMctpVersionSupport
  /-- GET_MESSAGE_TYPE_SUPPORT (R661). The MCTP control command Get Message Type Support. -/
  | getMessageTypeSupport
  /-- GET_VENDOR_DEFINED_MESSAGE_SUPPORT (R661). The MCTP control command Get Vendor Defined Message Support. -/
  | getVendorDefinedMessageSupport
  /-- MCTP_PEC_DROP (R661). A packet that fails PEC is dropped and counted, and error 296 is raised. -/
  | mctpPecDrop
  /-- SMBUS_TIMEOUT (R685). An SMBus line is held low for 35 ms, so the port releases its lines and resets its interface. -/
  | smbusTimeout
  /-- GETTID (R665). The PLDM GetTID request. -/
  | gettid
  /-- GETPLDMVERSION (R665). The PLDM GetPLDMVersion request. -/
  | getpldmversion
  /-- GETPLDMTYPES (R665). The PLDM GetPLDMTypes request. -/
  | getpldmtypes
  /-- GETPLDMCOMMANDS (R665). The PLDM GetPLDMCommands request. -/
  | getpldmcommands (type : Nat)
  /-- GETPDRREPOSITORYINFO (R665). The PLDM GetPDRRepositoryInfo request. -/
  | getpdrrepositoryinfo
  /-- GETPDR (R665). The PLDM GetPDR request. -/
  | getpdr (record : Nat)
  /-- GETSENSORREADING (R665). The PLDM GetSensorReading request returns a numeric sensor. -/
  | getsensorreading (sensor : Nat)
  /-- GETSTATESENSORREADINGS (R665). The PLDM GetStateSensorReadings request returns state sensors. -/
  | getstatesensorreadings (sensor : Nat)
  /-- GET_VERSION (R659). The SPDM GET_VERSION request over MCTP or DOE. -/
  | getVersion (transport : Transport)
  /-- GET_CAPABILITIES (R659). The SPDM GET_CAPABILITIES request. -/
  | getCapabilities (transport : Transport)
  /-- NEGOTIATE_ALGORITHMS (R659). The SPDM NEGOTIATE_ALGORITHMS request. -/
  | negotiateAlgorithms (transport : Transport) (offered : Bool)
  /-- GET_DIGESTS (R659). The SPDM GET_DIGESTS request. -/
  | getDigests (transport : Transport)
  /-- GET_CERTIFICATE (R658). The SPDM GET_CERTIFICATE request returns the slot 0 chain. -/
  | getCertificate (transport : Transport) (slot : Nat) (offset length : Half)
  /-- CHALLENGE (R669). The SPDM CHALLENGE request is signed with the identity key, unless debug level 2 is unlocked. -/
  | challenge (transport : Transport) (slot : Nat)
  /-- GET_MEASUREMENTS (R660). The SPDM GET_MEASUREMENTS request reports the measurement blocks. -/
  | getMeasurements (transport : Transport) (index : Nat) (signed : Bool)
  /-- SPDM_UNSUPPORTED_REQUEST (R659). Any other SPDM request is answered with ERROR UnsupportedRequest. -/
  | spdmUnsupportedRequest (transport : Transport)
  /-- PCIE_LINK_DOWN (R565). The PCIe link leaves L0 without PERST_L (cable, pin fault or missing PCIE_REFCLK), raising source 3, zeroing link_rate and link_width and making the host unreachable for the dump. -/
  | pcieLinkDown
  /-- AER_ERROR (R565). A correctable or uncorrectable PCIe error detected on the link is logged by AER and asserts source 1 or 2. -/
  | aerError (fn : Fn) (correctable : Bool)
  /-- PLL_LOCK_LOST (R682). After boot the fabric or supervisor PLL loses lock, for example on loss of REFCLK, raising FATAL source 310. -/
  | pllLockLost
  /-- DOE_DISCOVERY (R39). A DOE Discovery request in the PF0 DOE mailbox is answered with the supported protocols. -/
  | doeDiscovery
  /-- JTAG_INSTRUCTION (R667). A JTAG instruction (BYPASS, IDCODE, SAMPLE/PRELOAD, EXTEST, EXTEST_PULSE, EXTEST_TRAIN, or a non-public one at an unlocked level) is loaded and executed. -/
  | jtagInstruction (instruction : JtagOp)
  /-- FLASH_WRITE_DONE (R153). A flash program of a slot, directory, retirement map, ledger, key record or firmware slot ends, either verified, which completes LOAD or persists a change, or failed, counting towards the three failures of R153. -/
  | flashWriteDone (ok : Bool)
  /-- SPREAD_CLEARED (R462). The quadrant temperature difference stays below spread_limit minus the hysteresis for the dwell, so the spread is cleared and thermal moves stop. -/
  | spreadCleared
  /-- SLICE_SAMPLE_BOUNDARY (R289). At each slice sample the applied gain moves towards min(target, ceiling) under gain_rise, mute and unmute ramps and trims advance, and canceller suspensions end. -/
  | sliceSampleBoundary (slice : SliceId) (path : PathId) (wrong : Option LocalWord)
  /-- SYNTH_CAL_DONE (R180). A SYNTH_CAL issued in Standby finishes full calibration of the named synthesiser, stores it and completes OK. -/
  | synthCalDone (tile : Fin 4)
  /-- UNSUPPORTED_REQUEST (R45). A memory request to a function whose Memory Space Enable is clear, or to a VF that does not exist, completes as Unsupported Request. -/
  | unsupportedRequest (fn : Fn)
  deriving DecidableEq, Repr

end Sys2Proof
end

