-- ==== Sys2Proof/Types/Cancel.lean ====
section
/-! DEFINITION. The feedback canceller of one slice path and its ceiling (R310 to R334). -/
namespace Sys2Proof

/-- The canceller of one path. Foreground taps are in units of 2^-22, background taps of 2^-30 (R316); the accumulators hold
products of samples in units of 2^-13; `line` is the reference delay line, newest first. Isolations, depths, residuals
and ceilings are in 0.01 dB; `none` is no estimate. -/
structure Canceller where
  present   : Bool
  loopExt   : Nat
  delay     : Nat
  inSmem    : Bool
  bank      : Nat
  iMeas     : Option Nat
  iUsed     : Nat
  cMeas     : Nat
  cUsed     : Nat
  resFg     : Option Int
  resBg     : Option Int
  ceiling   : Int
  raw       : Int
  settled   : Bool
  suspended : Bool
  limited   : Bool
  squallSeen : Bool
  copies    : Nat
  copied    : Bool
  copyFree  : Nat
  count     : Nat
  kk        : Nat
  pr        : Nat
  py        : Nat
  wFg       : List Cplx
  wBg       : List Cplx
  gFg       : List Cplx
  gBg       : List Cplx
  line      : List Container
  suspendUntil : Nat
  deriving DecidableEq, Repr

/-- A CANCEL section entry (R333). -/
structure CancelEntry where
  slice   : SliceId
  path    : PathId
  params  : CancelParams
  loopExt : Nat
  deriving DecidableEq, Repr

/-- The cancellers, path A of SLICE_s at 2s and path B at 2s + 1, and the tap selector (R334). -/
structure Cancel where
  path   : Vector Canceller 512
  tapSel : Nat
  deriving DecidableEq, Repr

end Sys2Proof
end

