-- ==== Sys2Proof/Types/Control.lean ====
section
/-! DEFINITION. The closed-loop control engine (R474 to R509). Signals are signed 32-bit integers. -/
namespace Sys2Proof

/-- What a slot's entry fixes (R501): `hold` is the hold_port, `src` and `dst` are the codes of R479 and R480. -/
structure LoopCfg where
  outer : Bool
  m     : Nat
  ns    : Nat
  ni    : Nat
  no    : Nat
  hold  : Option (Fin 32)
  fade  : Nat
  src   : List Nat
  dst   : List Nat
  stale : Nat
  deriving DecidableEq, Repr

/-- A fade in progress (R499): its exponent, the last step made, and the LOOP_SWAP that it answers. -/
structure Fade where
  f     : Nat
  step  : Nat
  issue : Option Issue
  deriving DecidableEq, Repr

/-- A swap that waits for its boundary (R497): a commit's swap has no issue. -/
structure SwapReq where
  instant : Nat
  f       : Nat
  issue   : Option Issue
  deriving DecidableEq, Repr

/-- A long write to a bank, the words that have not landed (R495). -/
structure LongWrite where
  bank  : Bool
  start : Nat
  words : List Int
  issue : Issue
  deriving DecidableEq, Repr

/-- A LOOP_SETPOINT that waits for the next base tick (R491). -/
structure SetRequest where
  j      : Nat
  target : Int
  slew   : Option Nat
  issue  : Issue
  deriving DecidableEq, Repr

/-- Signals of a slot (R485): set-point targets, slews and ramped values, states, integrators, the outputs last applied and those before
the limits, the inputs and the innovations. -/
structure LoopSignals where
  rt   : List Int
  slew : List Nat
  r    : List Int
  xh   : List Int
  q    : List Int
  up   : List Int
  ur   : List Int
  y    : List Int
  v    : List Int
  deriving DecidableEq, Repr

/-- A loop slot (R474, R509). Bank A is `a` and bank B is `b`, words as signed numbers; `active` is true for B. `parity` lists the words
(bank, word) that failed byte parity; `limRun` counts consecutive limited evaluations of each output. -/
structure Loop where
  cfg     : LoopCfg
  a       : List Int
  b       : List Int
  active  : Bool
  sig     : LoopSignals
  wasHeld : List Bool
  hold    : Nat
  intHold : Bool
  cap     : List Int
  staleRun : List Nat
  seen    : List Nat
  limRun  : List Nat
  outSat  : List Bool
  fade    : Option Fade
  swap    : Option SwapReq
  sets    : List SetRequest
  writes  : List LongWrite
  parity  : List (Bool × Nat)
  limited : Nat
  accSat  : Bool
  clamped : Bool
  swapTime : Nat
  deriving DecidableEq, Repr

/-- A trace entry (R504). -/
structure TraceEntry where
  stamp  : Nat
  tick   : Nat
  flags  : Nat
  values : List Int
  deriving DecidableEq, Repr

/-- A trace buffer (R504 to R507). `issue` and `address` are those of the TRACE_ARM that armed it; `armed` and `continuous` say how it
records; `skip` counts evaluations since the last entry. -/
structure Trace where
  armed    : Option Issue
  address  : Option Nat
  continuous : Bool
  slot     : Fin 64
  sel      : List Nat
  decim    : Nat
  trigger  : Nat
  pre      : Nat
  instant  : Nat
  triggered : Bool
  skip     : Nat
  entries  : List TraceEntry
  /-- The place of the next entry of a continuous ring (R505). -/
  next     : Nat
  deriving DecidableEq, Repr

/-- A slot entry of the LOOPS section (R501). -/
structure LoopEntry where
  slot    : Fin 64
  cfg     : LoopCfg
  targets : List Int
  slews   : List Nat
  qInit   : List Int
  bank    : List Int
  deriving DecidableEq, Repr

/-- A trace entry of the LOOPS section (R505). -/
structure TraceCfg where
  buffer : Fin 16
  slot   : Fin 64
  sel    : List Nat
  decim  : Nat
  deriving DecidableEq, Repr

/-- The LOOPS section (R501). -/
structure LoopsSection where
  baseLog2 : Nat
  slots    : List LoopEntry
  traces   : List TraceCfg
  deriving DecidableEq, Repr

/-- The control engine. `biasSent` is the value last sent on each bias channel (R482). -/
structure Control where
  slot     : Vector (Option Loop) 64
  baseLog2 : Nat
  /-- Swap boundaries of each slot since cold reset, modulo 65,536 (R509). -/
  swaps    : Vector Nat 64
  tick     : Nat
  biasSent : Vector (Option Nat) 64
  trace    : Vector Trace 16
  traceSel : Nat
  deriving DecidableEq, Repr

end Sys2Proof
end

