-- ==== Sys2Proof/Types/FrontEnd.lean ====
section
/-! DEFINITION. Front-end links, RFFE buses, coexistence pairs and blanking inputs (R210 to R239). -/
namespace Sys2Proof

/-- A strobe (R211 to R216, R224): its set-up, its level, and its read-back faults. -/
structure Strobe where
  mode     : Nat
  lead     : Nat
  lag      : Nat
  asserted : Bool
  shortHi  : Bool
  shortLo  : Bool
  deriving DecidableEq, Repr

/-- Who puts a command on an RFFE bus, in priority order (R219). -/
inductive BusClient where
  | writeList | bias | mailbox
  deriving DecidableEq, Repr

/-- A command waiting for an RFFE bus (R217, R219): code, slave, address, byte count and data, and when it was queued. -/
structure BusCmd where
  client  : BusClient
  command : Nat
  usid    : Nat
  addr    : Nat
  count   : Nat
  data    : Nat
  since   : Nat
  deriving DecidableEq, Repr

/-- Mailbox results (R239). -/
inductive MailResult where
  | ok | busyOwned | badParam | readParity | busFault
  deriving DecidableEq, Repr

/-- A front-end link (R210 to R226, R239). Strobes are TXEN 0, RXEN 1, BYP 2, PAEN 3. -/
structure Fem where
  enable      : Bool
  port        : Fin 32
  faultEnable : Bool
  faultAction : Bool
  sclk        : Nat
  presencePoll : Bool
  fltT        : Bool
  fltC        : Bool
  fault       : Bool
  railMismatch : Bool
  hold        : Bool
  strobes     : Vector Strobe 4
  manual      : BitVec 4
  rffeShort   : Bool
  stopped     : Bool
  slaveMissing : Bool
  missingUsid : Nat
  misses      : Vector Nat 16
  data        : Nat
  busy        : Bool
  result      : MailResult
  discards    : Nat
  /-- A port of the link has entered Sleep and none has begun to work since: all four strobes are deasserted (R215). -/
  dropped     : Bool
  /-- Until when, on the monotonic count, the strobes wait for the Sleep list (R215, R220). -/
  sleepUntil  : Option Nat
  queue       : List BusCmd
  deriving DecidableEq, Repr

/-- A coexistence pair (R227 to R230, R239). `request` is the level on CXA, `grant` the level on CXG; `pinA` and `pinG` are the levels that the
outside drives on them. `waitSince` is the monotonic count since which a bound port waits for the grant, and `counted` says that this wait has
been counted (R228). -/
structure CxPair where
  role     : Nat
  lead     : Nat
  lag      : Nat
  grantTimeout : Nat
  ports    : BitVec 32
  request  : Bool
  grant    : Bool
  gating   : Bool
  pinA     : Bool
  pinG     : Bool
  waitSince : Option Nat
  counted  : Bool
  denied   : Nat
  deriving DecidableEq, Repr

/-- A blanking input (R231 to R235, R239). `since` is the monotonic count since which it is asserted and obeyed, and `overdue` says that this
assertion has exceeded blank_max (R235). -/
structure Blank where
  enable   : Bool
  blankMax : Nat
  rxMask   : BitVec 32
  txMask   : BitVec 32
  level    : Bool
  since    : Option Nat
  overdue  : Bool
  stuck    : Bool
  asserts  : Nat
  deriving DecidableEq, Repr

/-- A write-list entry (R220): trigger 0 commit, 1 Standby entry, 2 SynthOn entry, 3 Sleep entry. -/
structure WriteEntry where
  trigger : Nat
  link    : Fin 16
  usid    : Nat
  command : Nat
  addr    : Nat
  count   : Nat
  data    : Nat
  deriving DecidableEq, Repr

/-- A bias channel: one RFFE register that a loop output drives (R220). -/
structure BiasChannel where
  link    : Fin 16
  usid    : Nat
  command : Nat
  count   : Nat
  addr    : Nat
  deriving DecidableEq, Repr

/-- A register image of the FRONT_END section (R220). -/
structure RegImage where
  offset : Nat
  value  : Nat
  deriving DecidableEq, Repr

/-- The FRONT_END section (R220). -/
structure FrontEndSection where
  regs   : List RegImage
  writes : List WriteEntry
  bias   : List BiasChannel
  deriving DecidableEq, Repr

/-- Front-end control. `settledAt` is the monotonic count at which its levels were last brought up to date. -/
structure FrontEnd where
  settledAt : Nat
  fems      : Vector Fem 16
  cx        : Vector CxPair 8
  blanks    : Vector Blank 8
  busyOwned : Bool
  writes    : List WriteEntry
  bias      : List BiasChannel
  deriving DecidableEq, Repr

/-- An entry of the START_UP section (R209). -/
structure StartEntry where
  unitClass : TargetClass
  index     : Nat
  state     : Nat
  fullCal   : Bool
  deriving DecidableEq, Repr

end Sys2Proof
end

