-- ==== Sys2Proof/Types/Monitor.lean ====
section
/-! DEFINITION. The monitor converters and sense inputs (R510 to R538). Averages and values are in 1/16 raw LSB. -/
namespace Sys2Proof

/-- The modes of a converter (R514). -/
inductive ConvMode where
  | off | scan | stream
  deriving DecidableEq, Repr

/-- A step of a pass (R515, R535). -/
structure ConvStep where
  input  : Fin 16
  avg    : Nat
  settle : Nat
  deriving DecidableEq, Repr

/-- A converter entry (R535): trigger and policy are the codes of R516 and R517. -/
structure ConvCfg where
  mode      : ConvMode
  trigger   : Nat
  policy    : Nat
  steps     : List ConvStep
  preset    : Nat
  dcShift   : Nat
  streamInput : Fin 16
  openCheck : Bool
  dcBlock   : Bool
  refAlways : Bool
  param1    : Nat
  param2    : Nat
  deriving DecidableEq, Repr

/-- A comparator entry (R527, R535). -/
structure CmpCfg where
  enable : Bool
  hyst   : Nat
  hi     : Nat
  lo     : Nat
  deriving DecidableEq, Repr

/-- The MONITOR section (R535). -/
structure MonitorSection where
  convs : List (Fin 8 × ConvCfg)
  cmps  : List (Fin 64 × CmpCfg)
  deriving DecidableEq, Repr

/-- An injection that waits (R520 to R526): an automatic one has no issue. `blocked` holds it until new terms go live;
`since` is the monotonic count at its execution, from which inject_timeout runs. -/
structure MonInjection where
  issue   : Option Issue
  address : Nat
  input   : Fin 16
  avg     : Nat
  settle  : Nat
  blocked : Bool
  held    : Bool
  newCal  : Bool
  since   : Nat
  deriving DecidableEq, Repr

/-- The phases of MON_CAL (R523). -/
inductive CalPhase where
  | zero | full | offset | revert
  deriving DecidableEq, Repr

/-- A calibration measurement that runs, or waits for a self-test to end (R523 to R525). -/
structure CalRun where
  issue    : Issue
  input    : Fin 16
  phase    : CalPhase
  avg      : Nat
  settle   : Nat
  expected : Int
  deriving DecidableEq, Repr

/-- The sample chain of a STREAM converter (R518, R519): the previous raw code, the DC estimate in units of 2^-30, how many codes it has taken, the
last inputs of its stages in 1/16 raw LSB, newest first, the last output as R512 gives it, and how many slots to come checks have taken. -/
structure StreamLine where
  last     : Nat
  estimate : Int
  count    : Nat
  stages   : List (List Int)
  output   : Int
  taken    : Nat
  deriving DecidableEq, Repr

/-- A converter (R513 to R526, R538). `next` is a MON_SEQ_SET that waits for the next pass. -/
structure Converter where
  cfg      : ConvCfg
  refReady : Bool
  running  : Bool
  pending  : Bool
  lastAborted : Bool
  overrun  : Nat
  restarts : Nat
  next     : Option (ConvCfg × Option Issue)
  queue    : List MonInjection
  cal      : Option CalRun
  calInput : Fin 16
  lastPhase : CalPhase
  line     : StreamLine
  deriving DecidableEq, Repr

/-- A sense input (R512, R524, R530, R538): its latest result, its open detection, its user terms, those of the image, and a stored
zero point (m0, 16 x0). `updates` counts every publication. -/
structure Sense where
  value   : Int
  raw     : Nat
  updates : Nat
  stream  : Bool
  isOpen  : Bool
  openRun : Nat
  clearRun : Nat
  trim    : Int
  offset  : Int
  imageTrim : Int
  imageOffset : Int
  zero    : Option (Int × Int)
  deriving DecidableEq, Repr

/-- A fast window comparator (R527 to R529). -/
structure Comparator where
  cfg     : CmpCfg
  tripped : Bool
  latch   : Bool
  deriving DecidableEq, Repr

/-- The monitor block. -/
structure Monitor where
  conv    : Vector Converter 8
  sense   : Vector Sense 128
  cmp     : Vector Comparator 64
  timeout : Nat
  deriving DecidableEq, Repr

end Sys2Proof
end

