-- ==== Sys2Proof/Types/Time.lean ====
section
/-! DEFINITION. Station time, its alignment and steps (R370 to R385), pattern timers and TDD pairs (R386 to R394), and
pattern inference (R395 to R398). Instants and durations are in quarter-nanoseconds, the resolution of R370. -/
namespace Sys2Proof

/-- Alignment states (R373). -/
inductive AlignState where
  | unaligned | aligned | holdover | set
  deriving DecidableEq, Repr

/-- What caused a step (byte 24 of R381). -/
inductive StepCause where
  | ppsAlign | setMode0 | setMode1 | setMode2 | fronthaul
  deriving DecidableEq, Repr

/-- A step decided and not yet applied (R379): by an amount, or to a value (TIME_SET mode 0). -/
structure PendingStep where
  delta     : Int
  toValue   : Option Nat
  strobe    : Nat
  cause     : StepCause
  newState  : AlignState
  baseError : Nat
  /-- The monotonic count at the edge that decided it, none for a TIME_SET. -/
  edge      : Option Nat
  issue     : Option Issue
  deriving DecidableEq, Repr

/-- A mode 1 TIME_SET that waits for an edge (R383). -/
structure PendingSeconds where
  seconds  : Nat
  issue    : Issue
  deriving DecidableEq, Repr

/-- Segment types (R394). -/
inductive SegType where
  | dl | ul | gap
  deriving DecidableEq, Repr

/-- A pattern segment: its duration in ns and its type (R394). -/
structure Segment where
  dur : Nat
  typ : SegType
  deriving DecidableEq, Repr

/-- A pattern entry (R386, R394). `period` is the code of R386. -/
structure Pattern where
  period     : Fin 10
  offset     : Nat
  segs       : List Segment
  autoAdopt  : Bool
  inferSlice : Fin 256
  inferInterval : Nat
  deriving DecidableEq, Repr

/-- State codes of TIM_TDT_STATUS (R401). -/
inductive TimerState where
  | none | running | transition | rephase
  deriving DecidableEq, Repr

/-- A pattern change that waits for X (R393); `issue` is the command that asked for it, if one did. -/
structure PatternChange where
  pattern : Option Pattern
  x       : Nat
  issue   : Option Issue
  deriving DecidableEq, Repr

/-- An inferred pattern (R396), with its folded agreement in 0.1%. -/
structure Proposal where
  period    : Fin 10
  offset    : Nat
  segs      : List Segment
  agreement : Nat
  timer     : Fin 8
  binLen    : Nat
  deriving DecidableEq, Repr

/-- A pattern timer. `incoming` is a new pattern whose transition gap runs until its first period start. -/
structure PatternTimer where
  pattern  : Option Pattern
  state    : TimerState
  change   : Option PatternChange
  incoming : Option PatternChange
  lastProposal : Option Proposal
  deriving DecidableEq, Repr

/-- The sides of a TDD pair (R388). -/
inductive Side where
  | donor | service
  deriving DecidableEq, Repr

/-- A TDD pair RX_m and TX_m: its side and shift, and those that take effect at its timer's next start (R394). -/
structure TddPair where
  side : Option Side
  shift : Int
  next : Option (Option Side × Int)
  /-- The pair transmits now (R213). -/
  transmitting : Bool
  deriving DecidableEq, Repr

/-- An inference that runs (R395, R398): its command, or none for a periodic one. `start` is the sampling instant of its first sample, once there was
one, and `bins` hold the sum of |x|² and the number of samples of each bin so far, newest first (R396). -/
structure Inference where
  issue   : Option Issue
  slice   : Fin 256
  timer   : Fin 8
  gap     : Nat
  observe : Nat
  start   : Option Nat
  bins    : List (Nat × Nat)
  deriving DecidableEq, Repr

/-- Station time (R370 to R385, R401). `q` is the counter in quarter-nanoseconds; `mono` counts the same ticks without
the steps, and measures elapsed time. -/
structure StationTime where
  q           : Nat
  mono        : Nat
  phase       : Fin 5
  epoch       : Nat
  latchedSec  : Nat
  state       : AlignState
  inverted    : Bool
  ambiguous   : Bool
  errorOver   : Bool
  /-- Estimated error in units of 1/400,000,000,000 ns; none is unbounded. -/
  estimate    : Option Nat
  /-- The error at the last accepted edge or set, in quarter-nanoseconds. -/
  baseError   : Nat
  /-- `mono` at the last accepted edge or set. -/
  lastEdge    : Nat
  strays      : Nat
  source      : Bool
  ppsPolarity : Bool
  autoPolarity : Bool
  ppsWindow   : Nat
  stepCount   : Nat
  ppsDelay    : Int
  ppsAccuracy : Nat
  /-- What takes the place of pps_accuracy after an edge of the fronthaul (R433), in ns. -/
  linkAccuracy : Option Nat
  holdoverRate : Nat
  ppsOffset   : Int
  outMode     : Nat
  outPolarity : Bool
  outWidth    : Nat
  outOffset   : Int
  outRun      : Nat
  strayRun    : Nat
  lastStray   : Option Nat
  longRun     : Nat
  step        : Option PendingStep
  seconds     : Option PendingSeconds
  deriving DecidableEq, Repr

/-- TDD timing: pattern timers, pairs and inference. -/
structure Tdd where
  timers   : Vector PatternTimer 8
  pairs    : Vector TddPair 32
  infer    : Option Inference
  proposal : Option Proposal
  adopted  : Bool
  deriving DecidableEq, Repr

end Sys2Proof
end

