-- ==== Sys2Proof/Types/Image.lean ====
section
/-! DEFINITION. A configuration image as its sections give it (R120 to R125). -/
namespace Sys2Proof

/-- A tenant's entry of the TENANTS section (R690): its work-unit quota in 1/2,048 wu and its slice group. -/
structure Tenant where
  quota : Nat
  group : BitVec 256
  deriving DecidableEq, Repr

/-- An ownership table entry (R123, R124), with class and feature codes. -/
structure Owner where
  cls      : Nat
  feature  : Nat
  index    : Nat
  inst : Nat
  deriving DecidableEq, Repr

/-- A pair entry of the TDD section (R394). -/
structure PairEntry where
  port  : Fin 32
  side  : Side
  shift : Int
  deriving DecidableEq, Repr

/-- A CALIBRATION entry (R155): user_gain_trim and user_offset of a sense input. -/
structure CalEntry where
  sense  : Fin 128
  trim   : Int
  offset : Int
  deriving DecidableEq, Repr

/-- A verified image: the header fields that are used after the verification, and its sections. A section that is absent has no entries and
its defaults. `owners` is the OWNERSHIP section with the owners that the rules give to what it does not list (R236, R505, R533). -/
structure Image where
  version    : Nat
  window     : Nat
  binding    : Nat
  digest     : Nat
  startUp    : List StartEntry
  ports      : List PortEntry
  slices     : List (SliceId × SliceDef)
  cancel     : List CancelEntry
  protect    : ProtectSection
  patterns   : List (Fin 8 × Pattern)
  pairs      : List PairEntry
  link       : LinkSection
  loops      : LoopsSection
  monitor    : MonitorSection
  frontEnd   : FrontEndSection
  placement  : PlacementSection
  tenants    : Vector Tenant 8
  calibration : List CalEntry
  thermal    : ThermalSection
  owners     : List Owner
  deriving DecidableEq, Repr

/-- An image in a slot: the flash area that holds it (R127). -/
structure Slot where
  area  : Fin 3
  image : Image
  deriving DecidableEq, Repr

/-- The slot directory (R127, R128): the area of each role, whether ACTIVE is confirmed, whether STAGED was returned, and the high-water version. -/
structure SlotDir where
  active    : Option (Fin 3)
  previous  : Option (Fin 3)
  staged    : Option (Fin 3)
  confirmed : Bool
  returned  : Bool
  high      : Nat
  deriving DecidableEq, Repr

end Sys2Proof
end

