-- ==== Sys2Proof/Config.lean ====
section
/-! DEFINITION. What one part fixes and the spec leaves open: opaque constants without a body. Each is applied to what it
depends on, or to the counter `State.free` for a fresh value. Nothing can prove a value of them. -/
namespace Sys2Proof

/-- The sequence field of a capture block or a counter snapshot: the spec names it and assigns it no number (R36, R81, R619). -/
opaque freeSequence : Nat → Nat

/-- The multiplier, in parts of 2^-24, by which an engine applies a gain in 0.01 dB: the model holds it to within 0.005 dB of the gain, and no
more is said of it (R290). -/
opaque freeGainWord : Int → Int

/-- The factor, in parts of 2^-16, of a raised cosine at a position of its length: the model holds it to within one step of the exact value, and
its rounding is not given (R164, R291). -/
opaque freeRampWord : Nat → Nat → Int

/-- An NCO's cosine (true) or sine (false) at a phase: the model holds it to within one step of the exact 18-bit value (R243). -/
opaque freeSine : Nat → Bool → Int

/-- The samples of an RX port's ADC, by the port and the sampling instant in sixteenths of a nanosecond on the monotonic count: what the antenna
brings comes from outside. -/
opaque adcSample : Fin 32 → Nat → Int

/-- The raw code of a sense input at a monotonic count in quarter-nanoseconds: what its pin brings comes from outside. -/
opaque senseSample : Fin 128 → Nat → Nat

/-- Does the update of a DC estimate round up, where its exact value has more than 30 fraction bits (R248)? By the estimate and the sum of the
cycle. -/
opaque freeDcRound : Int → Int → Bool

/-- A tap of a set of the droop ROM in parts of 2^-17, its real (true) or imaginary part: the spec gives the ROM's shape and not its contents
(R257). -/
opaque droopTap : Nat → Nat → Bool → Int

/-- A coefficient of a channel filter, by the definition's rate index, bandwidth, family, edge class and length, and its index: the model holds
it to within one step of the formula (R287). -/
opaque freeCoef : Nat → Nat → Nat → Nat → Nat → Nat → Int

/-- Does a reading in decibels round up? The spec gives its unit and not its rounding (R283, R322). -/
opaque freeRound : Nat → Bool

/-- The power of a bin of the 64-bin power spectrum of a Squall window, by the window's samples, newest first: the spec gives the number of bins and
not the transform (R339). -/
opaque squallBin : List Cplx → Nat → Nat

/-- The reading in decibels of a power of zero, which has no logarithm (R283). -/
opaque freeLog : Nat → Int

/-- A background tap after an update, from the exact numerator and denominator of the update of R316: its rounding to Q2.30 is not
given. -/
opaque tapRound : Int → Int → Int

/-- The ageing of one second at a hottest zone of T eighths of a degree Celsius, in parts of 2^-32 of a second at 95 °C: the model holds it to within
one part of af(T), whose rounding is not given (R642). -/
opaque freeAgeing : Int → Int

/-- The mailbox result after a mailbox command is discarded for waiting too long: the spec names none (R219, R239). -/
opaque freeMailResult : Nat → Nat

/-- The factory gain of a sense input, in parts of 2^-32: an OTP value that the spec gives no number (R154, R646). -/
opaque factoryGain : Nat → Int

/-- The factory offset of a sense input, in parts of 2^-32 of a raw LSB: an OTP value that the spec gives no number (R154, R646). -/
opaque factoryOffset : Nat → Int

/-- Where the ramped set-point of a loop slot that starts or restarts begins: R502 gives states, integrators and outputs a start, and the
ramps none. -/
opaque freeRamp : Nat → Int

/-- The identity hash: the SHA-256 of the identity public modulus, an OTP value (R646), as a 256-bit number with byte 0 in its low bits. -/
opaque identityHash : Nat

/-- The root key hash, an OTP value (R646). -/
opaque rootHash : Nat

/-- Druzar's PCI vendor ID, an OTP value (R662). -/
opaque vendorId : Nat

/-- The SHA-256 digest of the boot ROM (R660): the ROM's contents are not given. -/
opaque romDigest : Nat

/-- SHA-256 (R660): a function of the bytes that the model computes nothing from. -/
opaque sha256 : List Nat → Nat

/-- The LINK section as its bytes give it: the spec names its contents (R410, R419) and lays out no more of its bytes than the stream entry.
None is a section with a field out of range. -/
opaque linkSectionOf : List Byte → Option LinkSection

/-- The CALIBRATION section as its bytes give it: the spec names its fields (R155) and lays out no bytes. None is a section with a field out of
range. -/
opaque calibrationOf : List Byte → Option (List CalEntry)

/-- The nonce of a challenge (R662, R668): 32 bytes that the spec gives no value. -/
opaque freeNonce : Nat → Nat

/-- The error code of a ring that an injection puts into Error: the spec names none (R92, R693). -/
opaque freeRingError : Nat → Nat

/-- A byte of the supervisor section of a fatal dump, by the sequence number at entry and the offset: the firmware's trace and the cores' registers have
no contents in the spec (R592). -/
opaque freeDumpByte : Nat → Nat → Nat

/-- The length of that section in bytes, by the sequence number at entry. -/
opaque freeTraceLength : Nat → Nat

/-- What a byte of the recorder's store holds where no record and no padding lies (R601), by the free-running offset that it last had. -/
opaque freeStoreByte : Nat → Nat

/-- The bytes of a padding record to which the spec gives no meaning (R77), by the length of the record and their place in it. -/
opaque freePadding : Nat → Nat → Nat

/-- What an answer holds that the spec leaves to the standard it names or to the factory: by the answer's code and a field's number. -/
opaque freeAnswer : Nat → Nat → Nat

end Sys2Proof
end

