-- ==== Sys2Proof/Machine/Bits.lean ====
section
/-! DEFINITION. Reading bytes and bits: little-endian numbers (R3), two's complement, bit tests, and updating one
element of a collection by its index. -/
namespace Sys2Proof

/-- The number that a list of bytes spells, least significant first (R3). -/
def leNat : List Byte → Nat
  | [] => 0
  | b :: bs => b.toNat + 256 * leNat bs

/-- The `n`-byte little-endian number at offset `o`; bytes beyond the end read as zero. -/
def leAt (bs : List Byte) (o n : Nat) : Nat := leNat ((bs.drop o).take n)

/-- The two's complement value of the low `w` bits of `v`. -/
def signed (w v : Nat) : Int := if 2 * (v % 2 ^ w) < 2 ^ w then (v % 2 ^ w : Nat) else ((v % 2 ^ w : Nat) : Int) - (2 ^ w : Nat)

/-- The low `w` bits of the two's complement form of `x`. -/
def unsigned (w : Nat) (x : Int) : Nat := (x % ((2 ^ w : Nat) : Int)).toNat

/-- Bit `i` of `v`. -/
def bitOf (v i : Nat) : Bool := v.testBit i

/-- The field of `v` in bits [hi:lo]. -/
def field (v hi lo : Nat) : Nat := (v / 2 ^ lo) % 2 ^ (hi + 1 - lo)

/-- 1 for true and 0 for false, as a register bit. -/
def bit (b : Bool) : Nat := if b then 1 else 0

/-- `v` with element `i` changed by `f`. -/
def upd {α : Type} {n : Nat} (v : Vector α n) (i : Fin n) (f : α → α) : Vector α n := v.set i (f v[i])

/-- Every element of `v` changed by `f`, which also sees the index. -/
def updAll {α β : Type} {n : Nat} (v : Vector α n) (f : Fin n → α → β) : Vector β n := Vector.ofFn fun i => f i v[i]

/-- The index of a number, when it is in range. -/
def finOf (n v : Nat) : Option (Fin n) := if h : v < n then some ⟨v, h⟩ else none

/-- The indices 0 to n - 1 in ascending order. -/
def indices (n : Nat) : List (Fin n) := List.finRange n

/-- Arithmetic shift right of a signed integer: division that rounds towards minus infinity. -/
def asr (x : Int) (k : Nat) : Int := x / ((2 ^ k : Nat) : Int)

/-- A signed integer over 2^k, rounded convergently: to nearest, ties to even. -/
def roundEven (x : Int) (k : Nat) : Int :=
  let m : Int := ((2 ^ k : Nat) : Int)
  let q := x / m
  let r := 2 * (x % m)
  if r < m then q else if m < r then q + 1 else if q % 2 = 0 then q else q + 1

/-- A quotient of integers, rounded convergently; a quotient by zero is zero. -/
def roundRatio (n d : Int) : Int :=
  let m : Int := d.natAbs
  let n := if d < 0 then -n else n
  let q := n / m
  let r := 2 * (n % m)
  if r < m then q else if m < r then q + 1 else if q % 2 = 0 then q else q + 1

/-- A signed integer saturated to a two's complement word of `w` bits. -/
def satWord (w : Nat) (x : Int) : Int := clampInt (-((2 ^ (w - 1) : Nat) : Int)) (((2 ^ (w - 1) : Nat) : Int) - 1) x

/-- The smallest multiple of `m` at or above `v`. -/
def ceilTo (m v : Nat) : Nat := (v + (m - 1)) / m * m

/-- The list with the first element that meets `p` removed. -/
def removeFirst {α : Type} (p : α → Bool) : List α → List α
  | [] => []
  | a :: as => if p a then as else a :: removeFirst p as

/-- The lowest index of a vector whose element meets `p`. -/
def findIdx {α : Type} {n : Nat} (v : Vector α n) (p : α → Bool) : Option (Fin n) :=
  (indices n).find? fun i => p v[i]

/-- `x` put in before the first element that it comes before or ties with. -/
def insertBy {α : Type} (le : α → α → Bool) (x : α) : List α → List α
  | [] => [x]
  | y :: ys => if le x y then x :: y :: ys else y :: insertBy le x ys

/-- A list in the order of `le`; elements that tie keep their order. -/
def sortBy {α : Type} (le : α → α → Bool) : List α → List α
  | [] => []
  | x :: xs => insertBy le x (sortBy le xs)

/-- How many elements of a vector meet `p`. -/
def countOf {α : Type} {n : Nat} (v : Vector α n) (p : α → Bool) : Nat :=
  ((indices n).filter fun i => p v[i]).length

/-- The sum of `f` over a vector. -/
def sumOf {α : Type} {n : Nat} (v : Vector α n) (f : α → Nat) : Nat :=
  (indices n).foldl (fun t i => t + f v[i]) 0

/-- Every element of a vector meets `p`. -/
def allOf {α : Type} {n : Nat} (v : Vector α n) (p : α → Bool) : Bool := (indices n).all fun i => p v[i]

/-- Some element of a vector meets `p`. -/
def anyOf {α : Type} {n : Nat} (v : Vector α n) (p : α → Bool) : Bool := (indices n).any fun i => p v[i]

end Sys2Proof
end

