-- ==== Sys2Proof/Types/Record.lean ====
section
/-! DEFINITION. Event records (R594 to R596), the recorder's state (R597 to R607) and the event counters (R608 to R620). -/
namespace Sys2Proof

/-- The payload of a record, one constructor per record code (R595, R596), with the fields the payload names. -/
inductive Payload where
  | overflow (kind count first : Nat)
  | timeStep (old oldEpoch new newEpoch cause : Nat)
  | commandDetail (fn ring tag opcode status offset resource : Nat)
  | cfgEvent (kind oldVersion newVersion : Nat)
  | ownerRelease (entry : Nat)
  | protection (cause action path target : Nat) (value : Int)
  | placement (event reason slice part src dst newState matched unit : Nat)
  | selftest (unit : Nat) (pass requested injectedOnly : Bool) (source duration : Nat)
  | synth (tile kind newActive band : Nat) (phaseStep : Int)
  | counterWrap (counter : Nat)
  | event (source unit repeats severity flags detail : Nat)
  deriving DecidableEq, Repr

/-- A record: the 24-byte header of R594 and its payload. -/
structure Record where
  sequence   : Nat
  stamp      : Nat
  epoch      : Nat
  suppressed : Nat
  payload    : Payload
  deriving DecidableEq, Repr

/-- The token bucket of one record code (R605, R606). Tokens are held in parts of 1/4,000,000,000 token, so that a
refill of `rate` tokens a second over quarter-nanoseconds is exact. -/
structure Bucket where
  rate    : Nat
  burst   : Nat
  parts   : Nat
  since   : Nat
  pending : Nat
  deriving DecidableEq, Repr

/-- A record held in the on-chip store, at its free-running byte offset (R601). -/
structure Stored where
  offset : Nat
  entry  : Record
  deriving DecidableEq, Repr

/-- The event recorder (R597 to R604, R622). `buckets` has one entry for each code: 1 to 10, then 0x1000 + i. -/
structure Recorder where
  seqNext     : Nat
  staging     : List Record
  lostPending : Nat
  store       : List Stored
  head        : Nat
  tail        : Nat
  mirrorSeq   : Nat
  /-- First number of an overwritten record that was not mirrored, if there is one (R603). -/
  firstLost   : Option Nat
  mirrorPaused : Bool
  stagingLost : Nat
  storeLost   : Nat
  mirrorStart : Bool
  winBase     : Nat
  rateSel     : Nat
  buckets     : Vector Bucket 331
  deriving DecidableEq, Repr

/-- One performance counter (R609 to R615, R623). `last` is the level of the counter clock before (mode CROSS). -/
structure Counter where
  count      : Nat
  sticky     : Bool
  event      : Nat
  mode       : Nat
  enable     : Bool
  wrapRecord : Bool
  unit       : Nat
  threshold  : Nat
  last       : Nat
  /-- COUNTER_WRAP records still to publish (R611). -/
  wrapDue    : Nat
  deriving DecidableEq, Repr

/-- A snapshot that runs or waits (R617 to R620). -/
structure Snapshot where
  issue   : Issue
  address : Nat
  slots   : Nat
  period  : Nat
  clear   : Bool
  next    : Nat
  index   : Nat
  deriving DecidableEq, Repr

/-- The performance counters: the 256 counters, the running periodic snapshot and the single snapshots that wait. -/
structure Counters where
  cnt           : Vector Counter 256
  periodic      : Option Snapshot
  singles       : List Snapshot
  snapshotError : Bool
  deriving DecidableEq, Repr

end Sys2Proof
end

