-- ==== Sys2Proof/Machine/Operands.lean ====
section
/-! DEFINITION. The operand forms: reading a descriptor (R64, R68), target encoding, status and record codes, short stamps. -/
namespace Sys2Proof

/-- The code of a completion status (R70). -/
def statusCode : Status → Nat
  | .ok => 0x00 | .busyOwned => 0x01 | .conflict => 0x02 | .notLocked => 0x03 | .timeout => 0x04
  | .stillActive => 0x05 | .badParam => 0x06 | .noCapacity => 0x07 | .denied => 0x08 | .uninit => 0x09
  | .memUe => 0x0A | .sigFail => 0x0B | .tempRange => 0x0C | .superseded => 0x0D | .rejectedBusy => 0x0E
  | .fatalState => 0x0F

/-- The code of a target class (R68). -/
def classCode : TargetClass → Nat
  | .device => 0x00 | .slice => 0x01 | .rxPort => 0x02 | .txPort => 0x03 | .tile => 0x04 | .lane => 0x05
  | .loop => 0x06 | .madc => 0x07 | .fem => 0x08 | .counter => 0x09 | .bank => 0x0A | .engine => 0x0B
  | .cfgSlot => 0x0C | .captureRing => 0x0D | .errorSource => 0x0E

/-- How many units a class has (R68); a tile index also has its synthesiser bit. -/
def classSize : TargetClass → Nat
  | .device => 1 | .slice => 256 | .rxPort => 32 | .txPort => 32 | .tile => 4 | .lane => 64 | .loop => 64
  | .madc => 8 | .fem => 16 | .counter => 256 | .bank => 48 | .engine => 64 | .cfgSlot => 3 | .captureRing => 8
  | .errorSource => 320

/-- Every target class, in code order. -/
def allClasses : List TargetClass :=
  [.device, .slice, .rxPort, .txPort, .tile, .lane, .loop, .madc, .fem, .counter, .bank, .engine, .cfgSlot,
   .captureRing, .errorSource]

/-- A unit in target encoding: class in [31:24], index in [23:0] (R68). -/
def target (c : TargetClass) (i : Nat) : Nat := classCode c * 2 ^ 24 + i

/-- The class that a word in target encoding names, if it names one. -/
def targetClass (t : Nat) : Option TargetClass := allClasses.find? fun c => classCode c == t / 2 ^ 24

/-- The index of a word in target encoding. -/
def targetIdx (t : Nat) : Nat := t % 2 ^ 24

/-- The index that `t` has when it names a unit of class `c`, and that unit exists among `n`. -/
def targetOf (c : TargetClass) (n : Nat) (t : Nat) : Option (Fin n) :=
  if t / 2 ^ 24 = classCode c then finOf n (targetIdx t) else none

/-- Byte `o` of the descriptor, 12 to 63 (R64); a byte that is not there reads as zero. -/
def Desc.byte (d : Desc) (o : Nat) : Nat := ((d.params.drop (o - 12)).headD 0).toNat

/-- The unsigned `n`-byte field at descriptor offset `o`. -/
def Desc.u (d : Desc) (o n : Nat) : Nat := leAt d.params (o - 12) n

/-- The signed `n`-byte field at descriptor offset `o`. -/
def Desc.s (d : Desc) (o n : Nat) : Int := signed (8 * n) (d.u o n)

/-- The target word. -/
def Desc.tgt (d : Desc) : Nat := d.target.toNat

/-- The unit of class `c` that the target names. -/
def Desc.unit (d : Desc) (c : TargetClass) (n : Nat) : Option (Fin n) := targetOf c n d.tgt

/-- Flag [0] of R64. -/
def Desc.indirect (d : Desc) : Bool := d.flags.getLsbD 0

/-- Flag [1] of R64. -/
def Desc.fence (d : Desc) : Bool := d.flags.getLsbD 1

/-- Flag [2] of R64. -/
def Desc.irqNow (d : Desc) : Bool := d.flags.getLsbD 2

/-- The offset of the first non-zero byte of 12 to 63 that lies in none of the ranges (first offset, length). -/
def Desc.strayByte (d : Desc) (used : List (Nat × Nat)) : Option Nat :=
  (List.range 52).map (· + 12) |>.find? fun o => (used.all fun r => o < r.1 || r.1 + r.2 ≤ o) && d.byte o != 0

/-- A refusal with BAD_PARAM at a descriptor offset. -/
def badParam (o : Nat) : Refuse := { status := .badParam, offset := o, resource := 0 }

/-- A refusal that names no field and no resource. -/
def refusal (st : Status) : Refuse := { status := st, offset := 0xFFFF, resource := 0 }

/-- A refusal that names the target, at offset 8. -/
def refuseTarget (st : Status) (t : Nat) : Refuse := { status := st, offset := 8, resource := t }

/-- The refusals of the checks of a list that fail, each a condition that must not hold and what it refuses with. -/
def failing (l : List (Bool × Refuse)) : List Refuse := (l.filter (·.1)).map (·.2)

/-- Of two refusals, the one of the field that comes first in the descriptor (R62). -/
def earlier (a b : Refuse) : Refuse := if b.offset < a.offset then b else a

/-- The refusal of a list of checks (R71): that of the first which fails, and where it is BAD_PARAM, the one of the first offending field
among the BAD_PARAM checks that fail (R62). -/
def firstFail (l : List (Bool × Refuse)) : Option Refuse :=
  match failing l with
  | [] => none
  | r :: rest => some (if r.status = .badParam then (rest.filter (·.status == .badParam)).foldl earlier r else r)

/-- The check that every byte outside the given ranges is zero. -/
def Desc.strayCheck (d : Desc) (used : List (Nat × Nat)) : Bool × Refuse :=
  match d.strayByte used with
  | some o => (true, badParam o)
  | none => (false, badParam 0)

/-- The indirect buffer's bytes, none when its read gave an error. -/
def Desc.bytes (d : Desc) : Option (List Byte) :=
  match d.buf with
  | .bytes b => some b
  | .error => none

/-- The record code of a payload (R595). -/
def Payload.code : Payload → Nat
  | .overflow .. => 0x0001
  | .timeStep .. => 0x0002
  | .commandDetail .. => 0x0003
  | .cfgEvent .. => 0x0004
  | .ownerRelease .. => 0x0005
  | .protection .. => 0x0006
  | .placement .. => 0x0007
  | .selftest .. => 0x0008
  | .synth .. => 0x0009
  | .counterWrap .. => 0x000A
  | .event src _ _ _ _ _ => 0x1000 + src

/-- The payload's length in bytes (R596, R381). -/
def Payload.length : Payload → Nat
  | .timeStep .. => 32
  | .ownerRelease .. => 8
  | .counterWrap .. => 8
  | _ => 16

/-- The `n` little-endian bytes of `v` (R3). -/
def toBytes : Nat → Nat → List Byte
  | 0, _ => []
  | n + 1, v => BitVec.ofNat 8 v :: toBytes n (v / 256)

/-- The payload's bytes (R62, R381, R596). -/
def Payload.bytes : Payload → List Byte
  | .overflow kind count first => toBytes 4 kind ++ toBytes 4 count ++ toBytes 8 first
  | .timeStep old oldEpoch new newEpoch cause =>
    toBytes 4 (old % 4000000000) ++ toBytes 6 (old / 4000000000) ++ toBytes 2 oldEpoch ++
      toBytes 4 (new % 4000000000) ++ toBytes 6 (new / 4000000000) ++ toBytes 2 newEpoch ++ toBytes 8 cause
  | .commandDetail fn ring tag opcode status offset resource =>
    toBytes 1 fn ++ toBytes 1 ring ++ toBytes 2 tag ++ toBytes 1 opcode ++ toBytes 1 status ++ toBytes 2 offset ++
      toBytes 8 resource
  | .cfgEvent kind old new => toBytes 4 kind ++ toBytes 4 old ++ toBytes 8 new
  | .ownerRelease entry => toBytes 8 entry
  | .protection cause action path tgt value =>
    toBytes 1 cause ++ toBytes 1 action ++ toBytes 2 path ++ toBytes 4 tgt ++ toBytes 8 (unsigned 32 value)
  | .placement ev reason slice part src dst st matched unit =>
    toBytes 1 ev ++ toBytes 1 reason ++ toBytes 1 slice ++ toBytes 1 part ++ toBytes 1 src ++ toBytes 1 dst ++
      toBytes 2 st ++ toBytes 4 matched ++ toBytes 4 unit
  | .selftest unit pass req inj source duration =>
    toBytes 4 unit ++ toBytes 1 (bit pass) ++ toBytes 1 (bit req + 2 * bit inj) ++ toBytes 2 source ++
      toBytes 8 duration
  | .synth tile kind newActive band step =>
    toBytes 1 tile ++ toBytes 1 kind ++ toBytes 1 newActive ++ toBytes 1 band ++
      toBytes 4 (unsigned 32 step) ++ toBytes 8 0
  | .counterWrap n => toBytes 8 n
  | .event _ unit repeats severity flags detail =>
    toBytes 4 unit ++ toBytes 2 repeats ++ toBytes 1 severity ++ toBytes 1 flags ++ toBytes 8 detail

/-- A record's whole length in bytes: header and payload (R594). -/
def Record.size (r : Record) : Nat := 24 + r.payload.length

/-- A record as it is stored (R594). -/
def Record.bytes (r : Record) : List Byte :=
  toBytes 8 r.sequence ++ toBytes 8 r.stamp ++ toBytes 2 r.payload.code ++ toBytes 1 (r.size / 8) ++
    toBytes 1 (bit (decide (65535 < r.suppressed))) ++ toBytes 2 r.epoch ++ toBytes 2 (min 65535 r.suppressed) ++
    r.payload.bytes

/-- What the end of a ring of records is filled with (R77, R594, R595, R601): a PADDING record, whose sequence field is all ones, or that field alone
where the 24 bytes of a header do not fit. The fields without a meaning are free. -/
def paddingBytes (n : Nat) : List Byte :=
  toBytes 8 (2 ^ 64 - 1) ++
    if n < 24 then []
    else
      let open' (i k : Nat) : List Byte := (List.range k).map fun j => BitVec.ofNat 8 (freePadding n (i + j))
      open' 8 8 ++ toBytes 2 0xFFFF ++ toBytes 1 (n / 8) ++ open' 19 (n - 19)

/-- The canonical order of two records, by epoch in serial arithmetic, then stamp, then sequence (R37). -/
def Record.before (a b : Record) : Bool :=
  let d := (b.epoch + 65536 - a.epoch % 65536) % 65536
  if d ≠ 0 then decide (d < 32768)
  else if a.stamp ≠ b.stamp then decide (a.stamp < b.stamp)
  else decide (a.sequence < b.sequence)

/-- Codes that are never rate-limited (R607); `fatal` is an EVENT record of FATAL severity. -/
def Payload.exempt : Payload → Bool
  | .overflow .. => true
  | .timeStep .. => true
  | .cfgEvent .. => true
  | .ownerRelease .. => true
  | .protection .. => true
  | .selftest .. => true
  | .event _ _ _ severity _ _ => severity == 3
  | _ => false

/-- The place of a record code among the token buckets: 1 to 10, then 0x1000 + i at 11 + i. -/
def bucketIndex (code : Nat) : Option (Fin 331) :=
  if 1 ≤ code ∧ code ≤ 10 then finOf 331 code
  else if 0x1000 ≤ code ∧ code < 0x1000 + 320 then finOf 331 (code - 0x1000 + 11)
  else none

/-- Quarter-nanoseconds in a second. -/
abbrev qSecond : Nat := 4000000000

/-- The short stamp of an instant: seconds [31:0] above, nanoseconds below (R370). -/
def stampOf (q : Nat) : Nat := (q / qSecond) % 2 ^ 32 * 2 ^ 32 + (q % qSecond) / 4

/-- The instant that a short stamp names: the one nearest to `now`, within 2^31 s either way (R370). -/
def instantOf (now stamp : Nat) : Nat :=
  let low := stamp / 2 ^ 32
  let ns := stamp % 2 ^ 32
  let base := now / qSecond / 2 ^ 32
  let at' (hi : Nat) : Nat := (hi * 2 ^ 32 + low) * qSecond + 4 * ns
  let here := at' base
  let dist (x : Nat) : Nat := if x < now then now - x else x - now
  let up := at' (base + 1)
  let best := if dist up < dist here then up else here
  if base = 0 then best else
    let down := at' (base - 1)
    if dist down < dist best then down else best

/-- An epoch strobe comes every 32 ns: 128 quarter-nanoseconds (R27). -/
abbrev qStrobe : Nat := 128

/-- The first epoch strobe at or after an instant (R27). -/
def strobeAt (q : Nat) : Nat := ceilTo qStrobe q

end Sys2Proof
end

