-- ==== Sys2Proof/Machine/Descriptors.lean ====
section
/-! DEFINITION. Reading a 64-byte command descriptor (R64): its fields at their offsets, and the command that its opcode names (R69). -/
namespace Sys2Proof

/-- The fields of a descriptor at their offsets (R64), as read from a ring with what the read of its indirect buffer gave. -/
def Desc.ofBytes (ring : RingId) (bytes : List Byte) (buf : Buf) : Desc :=
  { ring := ring
    flags := BitVec.ofNat 8 (leAt bytes 1 1)
    tag := BitVec.ofNat 16 (leAt bytes 2 2)
    length := BitVec.ofNat 32 (leAt bytes 4 4)
    target := BitVec.ofNat 32 (leAt bytes 8 4)
    params := (bytes.drop 12).take 52
    buf := buf }

/-- The host address of the indirect buffer (R64). -/
def Desc.bufferAddress (d : Desc) : Nat := d.u 12 8

/-- The command that an opcode names (R69), with what the block finds of the data that it names; none for an unknown opcode. -/
def commandOf (op : Nat) (d : Desc) (f : Findings) : Option Instr :=
  match op with
  | 0x01 => some (.nop d)
  | 0x02 => some (.cfgStage d f.sigOk f.digestOk)
  | 0x03 => some (.cfgCommit d f.copyUe)
  | 0x04 => some (.cfgConfirm d)
  | 0x05 => some (.cfgRollback d)
  | 0x08 => some (.timeSet d)
  | 0x09 => some (.tddPatternSet d)
  | 0x0A => some (.tddInfer d)
  | 0x10 => some (.radioState d)
  | 0x11 => some (.synthCal d)
  | 0x12 => some (.synthHandover d)
  | 0x18 => some (.sliceSet d)
  | 0x19 => some (.sliceGain d)
  | 0x1A => some (.sliceMute d)
  | 0x1B => some (.sliceDelete d)
  | 0x1C => some (.cancelCtl d)
  | 0x20 => some (.protectClear d)
  | 0x21 => some (.protectHalt d)
  | 0x28 => some (.loopWrite d)
  | 0x29 => some (.loopSwap d)
  | 0x2A => some (.loopSetpoint d)
  | 0x2B => some (.traceArm d)
  | 0x30 => some (.monSeqSet d)
  | 0x31 => some (.monInject d)
  | 0x32 => some (.monCal d)
  | 0x38 => some (.laneCtl d)
  | 0x39 => some (.linkMap d)
  | 0x40 => some (.placePin d)
  | 0x41 => some (.placeForbid d)
  | 0x42 => some (.placeRebalance d)
  | 0x48 => some (.capture d)
  | 0x50 => some (.selftest d)
  | 0x51 => some (.faultClear d)
  | 0x52 => some (.faultInject d)
  | 0x58 => some (.counterCfg d)
  | 0x59 => some (.counterSnapshot d)
  | 0x60 => some (.memRetire d)
  | 0x68 => some (.dumpRegister d)
  | 0x70 => some (.fwActivate d { key := f.keyOk, sig := f.sigOk, digest := f.digestOk })
  | _ => none

end Sys2Proof
end

