-- ==== Sys2Proof/Machine/Flags.lean ====
section
/-! DEFINITION. The status flags of the part: which event sources are notifications and which are reserved (R563), and the
severity of every error source, as the source tables of the blocks give it (R564, R565). -/
namespace Sys2Proof

/-- The 32 notifications of R563: they reach the event recorder only. -/
def isNotification (i : Nat) : Bool :=
  (32 ≤ i && i < 64 && (i % 8 == 6 || i % 8 == 7)) || (80 ≤ i && i ≤ 87) || i == 89 || i == 93 || i == 96 || i == 98
    || i == 99 || i == 100 || i == 140 || i == 160 || i == 161 || i == 166 || i == 193 || i == 195 || i == 199
    || i == 201 || i == 260 || i == 262

/-- Reserved error sources, which are never raised (R565 and the blocks' source tables). -/
def isReserved (i : Nat) : Bool :=
  (6 ≤ i && i ≤ 31) || i == 92 || i == 94 || i == 95 || (105 ≤ i && i ≤ 127) || (141 ≤ i && i ≤ 159)
    || (167 ≤ i && i ≤ 175) || (204 ≤ i && i ≤ 207) || (213 ≤ i && i ≤ 223) || (229 ≤ i && i ≤ 239)
    || (251 ≤ i && i ≤ 255) || (263 ≤ i && i ≤ 271) || (281 ≤ i && i ≤ 287) || (298 ≤ i && i ≤ 303)
    || (314 ≤ i && i ≤ 319)

/-- Sources of severity CORRECTED; the tile's correction-convergence error is 32 + 8t + 5 (R565 and the source tables). -/
def isCorrected (i : Nat) : Bool :=
  i == 1 || i == 4 || i == 5 || (32 ≤ i && i < 64 && i % 8 == 5) || i == 91 || i == 101 || i == 128 || i == 132
    || i == 133 || i == 134 || i == 162 || i == 165 || i == 192 || i == 208 || i == 212 || i == 224 || i == 225
    || i == 228 || (240 ≤ i && i ≤ 247) || i == 250 || i == 256 || i == 272 || i == 273 || i == 277 || i == 278
    || i == 280 || i == 293 || i == 294 || i == 295 || i == 296 || i == 297 || i == 304 || i == 307 || i == 313

/-- The FATAL sources (R565). -/
def isFatal (i : Nat) : Bool := 308 ≤ i && i ≤ 311

/-- The fixed severity of an event source (R564). -/
def severityOf (i : Nat) : Severity :=
  if isNotification i then .info else if isFatal i then .fatal else if isCorrected i then .corrected else .degraded

/-- The code of a severity (R564). -/
def severityCode : Severity → Nat
  | .info => 0 | .corrected => 1 | .degraded => 2 | .fatal => 3

end Sys2Proof
end

