-- ==== Sys2Proof/Types/Boot.lean ====
section
/-! DEFINITION. Resets and boot (R94 to R119): the boot stage, the reset causes, and the power and clock inputs the boot waits
for. -/
namespace Sys2Proof

/-- Boot stage codes (R119). -/
inductive Stage where
  | reset | rom | fwVerify | fwRun | cfgLoad | ready | noConfig | recovery | fatal
  deriving DecidableEq, Repr

/-- What holds the part in reset, if anything does: low rails, or a warm reset that was asked for, by the watchdog or otherwise, and has not
reinitialised the blocks yet (R94, R97). -/
inductive HeldBy where
  | nothing | power | warm | watchdog
  deriving DecidableEq, Repr

/-- Boot (R104 to R119). `cause` has bit i for bit [i] of GLB_RESET_CAUSE; `refclk` is the qualified reference, and `refclkSel` the level of
REFCLK_SEL sampled at the last release of SYS_RESET_L (R681). -/
structure Boot where
  stage      : Stage
  heldBy     : HeldBy
  cause      : BitVec 10
  fwSlot     : Bool
  fwFallback : Bool
  cfgSource  : Nat
  cfgVersion : Nat
  skipped    : BitVec 48
  powerGood  : Bool
  refclk     : Bool
  refclkSel  : Bool
  /-- The last reset was cold, so that boot zeroes memory and starts time (R104 step 3, R107). -/
  cold       : Bool
  /-- The RWL lock (R9). -/
  locked     : Bool
  deriving DecidableEq, Repr

end Sys2Proof
end

