-- ==== Sys2Proof/Types/Config.lean ====
section
/-! DEFINITION. The configuration store (R120 to R157). -/
namespace Sys2Proof

/-- A commit that waits for T (R134, R139): its command, T in quarter-nanoseconds, its window in seconds, and the image as it was read at
execution, with the flash area that holds it. -/
structure PendingCommit where
  issue   : Issue
  instant : Nat
  window  : Nat
  area    : Fin 3
  image   : Image
  deriving DecidableEq, Repr

/-- The configuration store: the three roles, the pending commit and rollback, the fallback window with its end E and the automatic return that
is scheduled once E has passed (R144), and what of the image in force is looked up at run time. -/
structure Config where
  active     : Option Slot
  previous   : Option Slot
  staged     : Option Slot
  confirmed  : Bool
  returned   : Bool
  high       : Nat
  commit     : Option PendingCommit
  rollback   : Option (Issue × Nat)
  window     : Option Nat
  autoReturn : Option Nat
  commitTime : Nat
  windowEnd  : Nat
  cancel     : List CancelEntry
  tenants    : Vector Tenant 8
  owners     : List Owner
  claims     : List (Nat × Nat)
  deriving DecidableEq, Repr

end Sys2Proof
end

