-- ==== Sys2Proof/Types/Fault.lean ====
section
/-! DEFINITION. The fault collector: the dual-rail sources (R566 to R568), first-fault capture and history (R569 to R572),
injections (R574 to R577), self-tests (R579 to R582) and the fatal dump (R586 to R592). -/
namespace Sys2Proof

/-- One event source as the collector sees it. `cond` is a condition that persists, `hold` an injected one; `events` and
`injEvents` count single events not yet acknowledged, with the unit, detail, stamp and epoch of the first of them; `also` lists
the other units that the further ones name; `injUnit` and `injDetail` are what an injected one names. -/
structure Source where
  cond      : Bool
  hold      : Bool
  events    : Nat
  injEvents : Nat
  unit      : Nat
  detail    : Nat
  also      : List Nat
  injUnit   : Nat
  injDetail : Nat
  injCapture : Bool
  stamp     : Nat
  epoch     : Nat
  latched   : Bool
  count     : Nat
  injected  : Nat
  broken    : Bool
  badCycles : Nat
  goodCycles : Nat
  level     : Bool
  deriving DecidableEq, Repr

/-- A history entry (R572). -/
structure HistEntry where
  stamp    : Nat
  sequence : Nat
  epoch    : Nat
  source   : Nat
  severity : Severity
  coincident : Bool
  injected : Bool
  injectionCoincident : Bool
  tookFirst : Bool
  repeats  : Nat
  unit     : Nat
  deriving DecidableEq, Repr

/-- First-fault capture (R571, FLT_FIRST and FLT_FIRST_TIME of R593). -/
structure FirstFault where
  source     : Nat
  severity   : Severity
  injected   : Bool
  coincident : Bool
  epoch      : Nat
  stamp      : Nat
  deriving DecidableEq, Repr

/-- An injection that waits for its instant, a pulse that waits to be acknowledged, or a hold that runs until its instant, which is then on the monotonic
count (R574, R575). -/
structure Injection where
  issue    : Issue
  source   : Fin 320
  isHold   : Bool
  capture  : Bool
  duration : Nat
  instant  : Nat
  unit     : Nat
  inst     : Nat
  fired    : Bool
  deriving DecidableEq, Repr

/-- The kinds of unit that have a self-test (R579, FLT_ST_LAST.kind of R593). -/
inductive UnitKind where
  | engine | bank | lane | rxPort | txPort | madc
  deriving DecidableEq, Repr

/-- The last self-test (FLT_ST_LAST of R593). -/
structure SelfTestLast where
  kind   : UnitKind
  index  : Nat
  pass   : Bool
  host   : Bool
  injectedOnly : Bool
  source : Nat
  seqLo  : Nat
  deriving DecidableEq, Repr

/-- A self-test that runs or waits for its unit to be emptied: what caused it and which SELFTEST commands wait for it. -/
structure SelfTest where
  kind    : UnitKind
  index   : Nat
  source  : Nat
  injectedOnly : Bool
  hosts   : List Issue
  deriving DecidableEq, Repr

/-- The stage a fatal dump has reached (R587). -/
inductive DumpPhase where
  | idle | assembling | writing | done
  deriving DecidableEq, Repr

/-- A section of a dump (R591, R592): its block, the width and the value of each register, the history entries or the store behind them, how many
bytes of the supervisor's trace it holds, the bytes that are kept, and whether it is cut. -/
structure DumpSection where
  block   : Nat
  words   : List (Nat × Nat)
  history : List HistEntry
  store   : Option Recorder
  trace   : Nat
  length  : Nat
  cut     : Bool
  deriving DecidableEq, Repr

/-- A dump (R591): the header fields that are fixed at entry to the fatal state, and the sections. -/
structure DumpHeader where
  toSram     : Bool
  toHost     : Bool
  previousKept : Bool
  fwVersion  : Nat
  fwSlot     : Bool
  stage      : Nat
  cfgVersion : Nat
  sequence   : Nat
  epoch      : Nat
  stamp      : Nat
  first      : Nat
  resetCause : Nat
  sections   : List DumpSection
  deriving DecidableEq, Repr

/-- The fatal dump: the registered buffer, the retained dump and the dump in progress (R587 to R590, R593). -/
structure Dump where
  registered : Option (Nat × Nat)
  retained   : Option DumpHeader
  retainedLen : Nat
  lastToHost : Bool
  truncated  : Bool
  phase      : DumpPhase
  current    : Option DumpHeader
  waiting    : List Issue
  deriving DecidableEq, Repr

/-- The fault collector. `unitCount` holds transient and lasting counts for engine, bank, lane, port and converter. -/
structure Collector where
  fatal      : Bool
  fatalReset : Bool
  injectEnable : Bool
  sources    : Vector Source 320
  first      : Option FirstFault
  history    : List HistEntry
  histOverwrites : Nat
  histSel    : Nat
  unitCount  : Vector (Nat × Nat) 5
  stLast     : Option SelfTestLast
  injections : List Injection
  injTotal   : Nat
  selftests  : List SelfTest
  dump       : Dump
  deriving DecidableEq, Repr

end Sys2Proof
end

