-- ==== Sys2Proof/Types/Flash.lean ====
section
/-! DEFINITION. The external flash: what it holds, and the writes that wait for it (R103, R127 to R129, R150 to R153, R559, R641). -/
namespace Sys2Proof

/-- What a flash write programs (R150, R153, R647, R653, R657): the slot and directory writes carry what they write. -/
inductive FlashItem where
  | slot (area : Fin 3) (image : Image)
  | directory (dir : SlotDir)
  | map
  | ledger
  | keys
  | firmware (slot : Bool) (image : Firmware)
  deriving DecidableEq, Repr

/-- The flash as the part sees it. Two copies of the directory, the map and the ledger are written alternately, each with its update count; `held` says
that a temperature out of range holds writes (R631); `failed` says that a write has failed three times and waits until `retryAt` on the
monotonic count for its retry (R153).
`late` says that a configuration write has been held back or has failed since the last was persisted.
`area` holds the image of each slot area, none where there is no valid one; `boot` is the slot that the boot record names. -/
structure Flash where
  queue   : List FlashItem
  tries   : Nat
  failed  : Bool
  retryAt : Nat
  held    : Bool
  late    : Bool
  area    : Vector (Option Image) 3
  dirs    : Vector (Nat × SlotDir) 2
  maps    : Vector RetireMap 2
  ledgers : Vector (Nat × Ledger) 2
  boot    : Bool
  deriving DecidableEq, Repr

end Sys2Proof
end

