-- ==== Sys2Proof/Types/Out.lean ====
section
/-! DEFINITION. What the block sends to the outside: writes to host memory, interrupts, data returned to a reader, answers
on the management port, and pulses and bus frames on pins. The newest stands first in the log that State holds. -/
namespace Sys2Proof

/-- An answer of the management port or of the DOE mailbox: the name of the answer's code and its data bytes. -/
structure Answer where
  code : Nat
  data : List Nat
  deriving DecidableEq, Repr

/-- One thing sent to the outside. -/
inductive Out where
  /-- A completion (R56) at the address of its slot (R51): tag, status code, phase, low half of the sequence number, short stamp. -/
  | completion (ring : RingId) (address : Nat) (tag : Half) (status : Status) (phase : Bool) (seqLo stamp : Nat)
  /-- A marker completion (R60) at the address of its slot. -/
  | marker (ring : RingId) (address : Nat) (phase : Bool) (seqHi epoch : Nat)
  /-- The two indices of a ring pair written back (R93). -/
  | writeBack (ring : RingId) (address ci pi : Nat)
  /-- The event producer offset written back (R78). -/
  | eventWriteBack (address offset : Nat)
  /-- The producer block index of a capture ring written back (R80). -/
  | captureWriteBack (ring : Fin 8) (address index : Nat)
  /-- A read of host memory: a descriptor of a command ring (R54) or an indirect buffer (R65). -/
  | hostRead (fn : Fn) (address length : Nat)
  /-- An MSI-X message (R84 to R87). -/
  | msi (fn : Fn) (vector : Nat)
  /-- A record mirrored to an address of the event ring (R76). -/
  | mirrored (address : Nat) (r : Record)
  /-- Padding at the end of the event ring (R77): the address and the length of the remainder. -/
  | padding (address length : Nat)
  /-- A capture block (R81) at its address: ring, sequence, stamp, epoch, slice, flags, blocks dropped, and its samples. -/
  | captureBlock (ring : Fin 8) (address sequence stamp epoch slice flags dropped : Nat) (samples : List Container)
  /-- A counter snapshot (R619): address, sequence, stamp, epoch, flags, index, and the 256 counter words. -/
  | snapshot (address sequence stamp epoch flags index : Nat) (words : List Nat)
  /-- A fatal dump, or a copy of the retained one, written to a host buffer (R588, R590). -/
  | dump (address : Nat) (d : DumpHeader)
  /-- Data returned to a read by a function (R45, R371, R195). -/
  | readData (fn : Fn) (value : Nat)
  /-- A PCIe request completed as Unsupported Request (R41, R45), or retried before boot step 7 (R109). -/
  | unsupported (fn : Nat)
  | retry
  /-- An answer on the management port or the DOE mailbox. -/
  | answer (a : Answer)
  /-- A PPS_OUT pulse (R384): active level, width in µs. -/
  | ppsPulse (activeLow : Bool) (width : Nat)
  /-- An RFFE frame on the bus of a FEM (R217): command kind, slave, address, number of bytes, data. -/
  | rffe (fem : Fin 16) (kind usid addr count data : Nat)
  /-- The level of a CXA output (R227). -/
  | request (pair : Fin 8) (level : Bool)
  /-- The level of a CXG output (R227). -/
  | grant (pair : Fin 8) (level : Bool)
  /-- A frame marker and the eight words of its header sent on a lane (R412, R413). -/
  | frame (lane : Fin 64) (words : List Nat)
  /-- A segment sent on a lane in a tick (R414, R415): the descriptor word, and the blocks' bytes with the padding. -/
  | segment (lane : Fin 64) (descriptor : Nat) (bytes : List Byte)
  /-- A sample of a slice path after the TDD gate (R280 step 7). -/
  | sample (slice : Nat) (path : PathId) (c : Container)
  /-- Words written to a host buffer: an injection record (R522) or the entries of a trace (R507). -/
  | hostWrite (address : Nat) (bytes : List Nat)
  /-- The result of a dry rebalance, or another number a command returns to its reader. -/
  | value (v : Nat)
  deriving DecidableEq, Repr

end Sys2Proof
end

