-- ==== Sys2Proof/Types/Signal.lean ====
section
/-! DEFINITION. The samples in flight: in the down- and up-converters (R240 to R258), the tile queues (R28, R268), and the chains of the slice
engines (R253, R280 to R286). Instants are on the monotonic count, in quarter-nanoseconds; one container passes in each. -/
namespace Sys2Proof

/-- A word inside a stage: I and Q of 18 bits, or none where the word is poisoned (R252, R262). -/
abbrev Sample := Option Cplx

/-- A run of outputs of a stage that are released poisoned (R265): the number of the first and how many. -/
structure PoisonRun where
  first : Nat
  count : Nat
  deriving DecidableEq, Repr

/-- A DDC with its receive tile queue and the transport to the engines (R240 to R248, R268). `acc` is the NCO's accumulator; `cycle` is the sum of
the samples of this tile cycle so far; `stages` are the last inputs of HB_M and HB_F, newest first; `pipe` are the containers that wait for the
end of the fixed latency, and `queue` and `wait` those in the tile queue and on their way, as 32-bit words, oldest first; `out` is the container
that the engines take now; `bad` are runs of containers by the instant of their ADC sample; `opened` says that the queue has started to fill
since its alignment, and `counted` that its aligned value is recorded; `retuned` is the instant of the last new frequency word. `loud` says that a sample
of this microsecond has reached ovr_thresh, and `loudRun` counts the microseconds up to it that had one (R162, R344). -/
structure RxLine where
  acc     : Nat
  cycle   : Int
  stages  : List (List Sample)
  pipe    : List Nat
  queue   : List Nat
  wait    : List Nat
  out     : Container
  bad     : List PoisonRun
  opened  : Bool
  counted : Bool
  retuned : Option Nat
  loud    : Bool
  loudRun : Nat
  deriving DecidableEq, Repr

/-- A container of one slice stream on its way to a DUC, as a 32-bit word, with its slice-output instant (R245, R268). -/
structure StreamWord where
  word : Nat
  made : Nat
  deriving DecidableEq, Repr

/-- A DUC with its transmit tile queue and the transport from the engines (R243, R254 to R258, R268). `word` is the frequency word that its NCO
runs on, and `change` the one that takes its place and the instant T of its commit; `after` is the number of the first DAC sample that it has,
once a container of T or later was received. `power` and `summed` are the sum of |x|² over the sums of the base tick interval so far, in units of 2^-34
of full scale, and how many there were (R479). `droop` and `stages` are the last inputs of the equaliser and of the half-band stages, newest
first; `pipe` are the DAC codes that wait for the end of the fixed latency, oldest first; `codes` are the eight codes of the quarter-nanosecond
that last passed, as they leave the DAC; `bad` are runs of DAC samples. -/
structure TxLine where
  acc     : Nat
  word    : Nat
  change  : Option (Nat × Nat)
  after   : Option Nat
  wait    : List (List StreamWord)
  queue   : List (List StreamWord)
  droop   : List Sample
  stages  : List (List Sample)
  pipe    : List Int
  codes   : List Int
  power   : Nat
  summed  : Nat
  bad     : List PoisonRun
  opened  : Bool
  counted : Bool
  deriving DecidableEq, Repr

/-- A power meter (R283): the sum of |x|² over the window so far, in units of 2^-34 of full scale, how many samples it holds, and the sum of a window
that has ended and is not read yet, with its length. -/
structure Meter where
  sum   : Nat
  count : Nat
  ended : Option (Nat × Nat)
  deriving DecidableEq, Repr

/-- The residual z of a path as Squall watches it (R339): the samples of the window so far, newest first; whether one of them, or the window's place
in its segment, leaves it untested; and a window that has ended and is not tested yet. -/
structure SquallWatch where
  window : List Cplx
  spoilt : Bool
  ended  : Option (List Cplx × Bool)
  deriving DecidableEq, Repr

/-- The chains of one path of a slice (R253, R280). `down` and `up` are the last inputs of the decimation and the interpolation stages, widest rate
first for `down` and narrowest first for `up`; `taken` are the decimated samples, with their numbers, that the channel filter has not taken;
`filter` are its last inputs, newest first. `sent` are the samples at 4.0 GS/s that wait for the mix out, with `due` the instant at which the
first of them is mixed; `out` is the container of this instant, and `fresh` says that none was made since the definition started. The runs are
of outputs of the decimation chain, of slice samples, and of containers. -/
structure Chain where
  down    : List (List Sample)
  taken   : List (Nat × Sample)
  filter  : List Sample
  up      : List (List Sample)
  sent    : List Sample
  due     : Nat
  out     : Container
  fresh   : Bool
  badDown : List PoisonRun
  badMid  : List PoisonRun
  badUp   : List PoisonRun
  meterIn : Meter
  meterOut : Meter
  squall  : SquallWatch
  deriving DecidableEq, Repr

/-- The samples in flight. The chains of path A of SLICE_s stand at 2s, those of path B at 2s + 1. `strobe` is station time at the last epoch strobe
and `since` the monotonic count there: what the slice NCOs run from (R247, R281). The spares hold the instant until which each is busy: the
DDC and the DUC spare of each tile and the reserve of each engine (R263, R265). -/
structure Signals where
  rx       : Vector RxLine 32
  tx       : Vector TxLine 32
  path     : Vector Chain 512
  strobe   : Nat
  since    : Nat
  spareDdc : Vector Nat 4
  spareDuc : Vector Nat 4
  spareEngine : Vector Nat 64
  deriving DecidableEq, Repr

end Sys2Proof
end

