-- ==== Sys2Proof/Machine/State.lean ====
section
/-! DEFINITION. The state of the KW6144 as plain data, and `State.reset`: the block right after a power-on reset has begun. -/
namespace Sys2Proof.Machine
open Sys2Proof

/-- Reasons a step stops with a fault. -/
inductive Fault where
  /-- Raised by the idle tick of `step` alone, when the 48-bit seconds field of station time (R370) is at its end: the
  spec says that the counter never wraps (R692) and gives no behaviour there. Safe: the machine stops. -/
  | timeExhausted
  deriving DecidableEq, Repr

/-- Reasons a command is refused. -/
inductive Refusal where
  /-- Raised by a dispatch arm of a command that has no meaning yet. Safe: the machine stops. -/
  | notModelled (mnemonic : String)
  /-- Raised by JTAG_INSTRUCTION for an instruction of scan or supervisor debug at debug level 2, whose effect the spec does not
  give (R668). Safe: the machine stops. -/
  | privateJtag
  deriving DecidableEq, Repr

/-- The state. `pending` is the queue of commands that wait, first in, first out; `held` are host commands held behind a
fence (R66), oldest first, each with its ring and its own fence flag; `out` is what was sent to the outside, newest first, and `free` counts the free values taken:
these two are the model's own fields. -/
structure State where
  pending : List Instr
  held    : List (RingId × Bool × Instr)
  out     : List Out
  free    : Nat
  time    : StationTime
  tdd     : Tdd
  boot    : Boot
  hif     : Hif
  evr     : Recorder
  pmc     : Counters
  flt     : Collector
  cfg     : Config
  sec     : Security
  mon     : Monitor
  cen     : Control
  flash   : Flash
  plc     : Placement
  mem     : Smem
  map     : RetireMap
  thm     : Thermal
  lnk     : LinkBlock
  tiles   : Tiles
  fec     : FrontEnd
  dfe     : Dfe
  sig     : Signals
  slices  : Slices
  can     : Cancel
  nps     : Protect
  deriving DecidableEq, Repr

/-- A ring pair at reset (R93). -/
def ringReset : Ring :=
  { owner := 0, enable := false, state := .disabled, error := .none, cmdBase := 0, cplBase := 0, wb := 0, cmdLog2 := 6,
    cplLog2 := 6, vector := 0, cmdPI := 0, cmdCI := 0, cplPI := 0, cplCI := 0, phase := true, inFlight := 0,
    started := 0, marker := none, era := 0, wbDue := false, wbAt := none }

/-- The event ring at reset (R93). -/
def eventRingReset : EventRing :=
  { enable := false, state := .disabled, error := .none, base := 0, wb := 0, log2 := 16, vector := 0, prod := 0, cons := 0 }

/-- A capture ring at reset (R93). -/
def capRingReset : CapRing :=
  { owner := 0, enable := false, state := .disabled, error := .none, base := 0, wb := 0, log2 := 4, vector := 0,
    prod := 0, cons := 0, dropped := 0 }

/-- A vector at reset (R93). PRESUMED: the mask bit is set, as PCI Express resets it. DESIGN CHOICE: the message address
and data, to which PCI Express gives no reset value, read 0. -/
def vecReset : Vec :=
  { address := 0, data := 0, masked := true, pending := false, count := 1, timer := 0, entries := 0, running := false, since := 0 }

/-- A function at reset (R39, R93, R95): no BAR assigned. PRESUMED (PCI Express): 128-byte payloads, 512-byte read requests, and 10-bit tags,
ECRC and ASPM off. -/
def funcReset : Func :=
  { bars := Vector.replicate 3 none, maxPayload := 128, maxRead := 512, tenBitTags := false, ecrcGen := false, ecrcCheck := false
    aspmL1 := false, busMaster := false, memSpace := false, d3hot := false, aerCor := false, aerUncor := false,
    ownerWriteIgnored := false, dbDrop := 0, accessDrop := 0, wideBuf := 0, wideAt := none, vecs := Vector.replicate 64 vecReset }

/-- The host interface at reset (R93, R95). DESIGN CHOICE: PERST_L is taken as low. -/
def hifReset : Hif :=
  { fns := Vector.replicate 8 funcReset, rings := Vector.replicate 64 ringReset, evr := eventRingReset,
    caps := Vector.replicate 8 capRingReset, numVFs := 0, vfEnable := false, linkRate := 0, linkWidth := 0,
    perstLow := true }

/-- A token bucket at reset: rate 1,000, burst 16, full (R605, R622). -/
def bucketReset : Bucket :=
  { rate := 1000, burst := 16, parts := 16 * 4000000000, since := 0, pending := 0 }

/-- The event recorder after a cold reset (R604, R621, R622). -/
def recorderReset : Recorder :=
  { seqNext := 0, staging := [], lostPending := 0, store := [], head := 0, tail := 0,
    mirrorSeq := 0, firstLost := none, mirrorPaused := false, stagingLost := 0, storeLost := 0, mirrorStart := false, winBase := 0,
    rateSel := 0, buckets := Vector.replicate 331 bucketReset }

/-- A performance counter at reset (R623). -/
def counterReset : Counter :=
  { count := 0, sticky := false, event := 0, mode := 0, enable := false, wrapRecord := false, unit := 0,
    threshold := 0, last := 0, wrapDue := 0 }

/-- The performance counters at reset (R621, R623). -/
def countersReset : Counters :=
  { cnt := Vector.replicate 256 counterReset, periodic := none, singles := [], snapshotError := false }

/-- An event source at reset: quiet (R566, R593). -/
def sourceReset : Source :=
  { cond := false, hold := false, events := 0, injEvents := 0, unit := 0, detail := 0, also := [], injUnit := 0, injDetail := 0,
    injCapture := false, stamp := 0, epoch := 0, latched := false, count := 0, injected := 0, broken := false,
    badCycles := 0, goodCycles := 0, level := false }

/-- No dump (R593). -/
def dumpReset : Dump :=
  { registered := none, retained := none, retainedLen := 0, lastToHost := false, truncated := false, phase := .idle,
    current := none, waiting := [] }

/-- The fault collector after a cold reset (R593, R95). -/
def collectorReset : Collector :=
  { fatal := false, fatalReset := true, injectEnable := false, sources := Vector.replicate 320 sourceReset,
    first := none, history := [], histOverwrites := 0, histSel := 0, unitCount := Vector.replicate 5 (0, 0),
    stLast := none, injections := [], injTotal := 0, selftests := [], dump := dumpReset }

/-- Station time after a cold reset: 0 s, unaligned (R95, R373, R401). -/
def timeReset : StationTime :=
  { q := 0, mono := 0, phase := 0, epoch := 0, latchedSec := 0, state := .unaligned, inverted := false,
    ambiguous := false, errorOver := true, estimate := none, baseError := 0, lastEdge := 0, strays := 0,
    source := false, ppsPolarity := false, autoPolarity := true, ppsWindow := 50, stepCount := 3, ppsDelay := 0,
    ppsAccuracy := 100, linkAccuracy := none, holdoverRate := 500, ppsOffset := 0, outMode := 0, outPolarity := false, outWidth := 100,
    outOffset := 0, outRun := 0, strayRun := 0, lastStray := none, longRun := 0, step := none, seconds := none }

/-- A pattern timer without a pattern (R401). -/
def timerReset : PatternTimer :=
  { pattern := none, state := .none, change := none, incoming := none, lastProposal := none }

/-- A TDD pair without an entry: its side follows from the slice that uses it (R388). -/
def pairReset : TddPair := { side := none, shift := 0, next := none, transmitting := false }

/-- TDD timing at reset (R401). -/
def tddReset : Tdd :=
  { timers := Vector.replicate 8 timerReset, pairs := Vector.replicate 32 pairReset, infer := none, proposal := none,
    adopted := false }

/-- Boot at power-on: rails not yet good, stage RESET (R104, R118, R119). DESIGN CHOICE: what has a dash reads 0 until the part writes it: the causes
but power_on, fw_slot and skipped; and so does the sampled REFCLK_SEL. -/
def bootReset : Boot :=
  { stage := .reset, heldBy := .power, cause := 1, fwSlot := false, fwFallback := false, cfgSource := 0,
    cfgVersion := 0, skipped := 0, powerGood := false, refclk := false, refclkSel := false, cold := true, locked := false }

/-- The configuration store before an image has been applied (R157). -/
def configReset : Config :=
  { active := none, previous := none, staged := none, confirmed := true, returned := false, high := 0, commit := none
    rollback := none, window := none, autoReturn := none, commitTime := 0, windowEnd := 0, cancel := []
    tenants := Vector.replicate 8 { quota := 0, group := 0 }, owners := [], claims := [] }

/-- A radio in Sleep (R95, R196). -/
def radioReset : Radio :=
  { state := .sleep, target := .sleep, issue := none, asked := 0, since := 0, before := none, deferred := false, deferredCal := false }

/-- A drive at reset: output off (R195). -/
def driveReset : Drive :=
  { due := none, long := true, radioOn := false, waits := false, cut := false, ramp := { up := false, base := 0, start := 0, length := 20000 } }

/-- An RX port at reset (R195). DESIGN CHOICE: sub-converter 0 is the spare. -/
def rxReset : RxPort :=
  { radio := radioReset, ovrThresh := 3, calFreeze := false, overrange := false, converged := false,
    spareInUse := false, retired := false, peak := 255, spare := 0, due := none, stopped := none }

/-- A TX port at reset (R195). -/
def txReset : TxPort :=
  { radio := radioReset, rampLong := 5, rampShort := 100, loadCheck := true, output := .off, drive := driveReset, ungated := driveReset
    loadFault := false, retired := false }

/-- A synthesiser at reset, without a stored calibration (R112, R195). -/
def synthReset : Synth :=
  { state := .off, locked := false, calTemp := 0, calBand := 0, failCount := 0, stored := false, prepared := false }

/-- A tile at reset (R195). DESIGN CHOICE: `appliedBand`, which has a dash, reads 0 until boot step 2. -/
def tileReset : Tile :=
  { state := .sleep, since := 0, floor := .sleep, floorIssue := none, active := 0, syn := Vector.replicate 2 synthReset,
    queueAligned := false, poisoned := false, calOverdue := false, handoverCount := 0, handoverTime := 0,
    autoCal := true, calDelta := 6, tddGapAlign := true, lockTimeout := 2000, appliedBand := 0,
    applyPending := false, forceEnable := false, forceBand := 0, fullCal := false, relock := false, resetDown := false, prep := none,
    standbyCal := none, deltaSince := none, retryAt := none, applyAt := 0 }

/-- The tiles after a cold reset (R95). -/
def tilesReset : Tiles :=
  { tile := Vector.replicate 4 tileReset, rx := Vector.replicate 32 rxReset, tx := Vector.replicate 32 txReset }

/-- A strobe at reset (R239). -/
def strobeReset : Strobe := { mode := 0, lead := 0, lag := 0, asserted := false, shortHi := false, shortLo := false }

/-- A front-end link at reset (R239). DESIGN CHOICE: the two fault inputs, which have a dash, read as no fault (T 0, C 1). -/
def femReset : Fem :=
  { enable := false, port := 0, faultEnable := false, faultAction := false, sclk := 1, presencePoll := false,
    fltT := false, fltC := true, fault := false, railMismatch := false, hold := false,
    strobes := Vector.replicate 4 strobeReset, manual := 0, rffeShort := false, stopped := false,
    slaveMissing := false, missingUsid := 0, misses := Vector.replicate 16 0, data := 0, busy := false, result := .ok,
    discards := 0, dropped := false, sleepUntil := none, queue := [] }

/-- A coexistence pair at reset (R239). -/
def cxReset : CxPair :=
  { role := 0, lead := 0, lag := 0, grantTimeout := 0, ports := 0, request := false, grant := false, gating := false,
    pinA := false, pinG := false, waitSince := none, counted := false, denied := 0 }

/-- A blanking input at reset (R239). -/
def blankReset : Blank :=
  { enable := false, blankMax := 0, rxMask := 0, txMask := 0, level := false, since := none, overdue := false, stuck := false, asserts := 0 }

/-- Front-end control at reset (R239). -/
def frontEndReset : FrontEnd :=
  { settledAt := 0, fems := Vector.replicate 16 femReset, cx := Vector.replicate 8 cxReset, blanks := Vector.replicate 8 blankReset,
    busyOwned := false, writes := [], bias := [] }

/-- A DDC at reset (R270). -/
def ddcReset : Ddc :=
  { dcEnable := true, dcShift := 16, dcFreeze := false, zone := false, station := false, word := 0, estimate := 0,
    satCount := 0 }

/-- A DUC at reset (R270). -/
def ducReset : Duc :=
  { droopComp := false, station := false, streams := 0, droopEntry := 0, word := 0, gain := 0x10000, satCount := 0,
    poisonedCount := 0 }

/-- The digital front end at reset (R270). -/
def dfeReset : Dfe :=
  { ddc := Vector.replicate 32 ddcReset, duc := Vector.replicate 32 ducReset
    queue := Vector.replicate 32
      { rxOcc := 0, rxAligned := 0, txOcc := 0, txAligned := 0, rxError := false, txError := false }
    residue := Vector.replicate 4 { ddcCorrected := 0, ducCorrected := 0, poisonedBlocks := 0, spareBusy := 0 }
    rxCentre := Vector.replicate 32 none, txCentre := Vector.replicate 32 none, wrong := Vector.replicate 32 (false, false) }

/-- A receive line with nothing in it. -/
def rxLineReset : RxLine :=
  { acc := 0, cycle := 0, stages := [], pipe := [], queue := [], wait := [], out := .poisoned, bad := [], opened := false, counted := false
    retuned := none, loud := false, loudRun := 0 }

/-- A transmit line with nothing in it. -/
def txLineReset : TxLine :=
  { acc := 0, word := 0, change := none, after := none, wait := [], queue := [], droop := [], stages := [], pipe := [], codes := []
    power := 0, summed := 0, bad := [], opened := false, counted := false }

/-- A meter without a sample. -/
def meterReset : Meter := { sum := 0, count := 0, ended := none }

/-- Squall before a segment's first window (R339). -/
def squallReset : SquallWatch := { window := [], spoilt := true, ended := none }

/-- The chains of a path without a definition. -/
def chainReset : Chain :=
  { down := [], taken := [], filter := [], up := [], sent := [], due := 0, out := .poisoned, fresh := true, badDown := [], badMid := []
    badUp := [], meterIn := meterReset, meterOut := meterReset, squall := squallReset }

/-- No sample in flight. -/
def signalsReset : Signals :=
  { rx := Vector.replicate 32 rxLineReset, tx := Vector.replicate 32 txLineReset, path := Vector.replicate 512 chainReset, strobe := 0
    since := 0, spareDdc := Vector.replicate 4 0, spareDuc := Vector.replicate 4 0, spareEngine := Vector.replicate 64 0 }

/-- An empty slice index (R271, R309). -/
def sliceReset : Slice :=
  { state := .empty, live := none, pending := none, restart := none, deleting := none, shed := false, satCount := 0,
    appliedA := 0, appliedB := 0, fadeA := 0, fadeB := 0, riseA := 0, riseB := 0, inA := -32768, outA := -32768,
    inB := -32768, outB := -32768 }

/-- The slice fabric at reset (R309). -/
def slicesReset : Slices :=
  { slice := Vector.replicate 256 sliceReset, window := 10, coefSel := 0, capture := Vector.replicate 8 none,
    capDropped := Vector.replicate 8 0, capLast := Vector.replicate 8 (0, 0, 0) }

/-- The canceller of an absent path (R334). -/
def cancellerReset : Canceller :=
  { present := false, loopExt := 0, delay := 0, inSmem := false, bank := 0, iMeas := none, iUsed := 0, cMeas := 0,
    cUsed := 0, resFg := none, resBg := none, ceiling := 0, raw := 0, settled := false, suspended := false,
    limited := false, squallSeen := false, copies := 0, copied := false, copyFree := 0, count := 0, kk := 0, pr := 0,
    py := 0, wFg := [], wBg := [], gFg := [], gBg := [], line := [], suspendUntil := 0 }

/-- The cancellers at reset (R334). -/
def cancelReset : Cancel := { path := Vector.replicate 512 cancellerReset, tapSel := 0 }

/-- No trim (R369). -/
def trimReset : Trim := { value := 0, present := false, releasing := false, fast := false }

/-- The protection of a path at reset (R369). -/
def pathProtReset : PathProt :=
  { squall := trimReset, overdrive := trimReset, noise := trimReset, emission := trimReset, last := none
    lowest := none, detecting := false, previous := false, noiseHigh := false, exceeds := false }

/-- A slice's protection settings at reset (R369). -/
def sliceGuardReset : SliceGuard :=
  { squall := false, donor := false, noise := false, donorRef := 0, donorFloor := 0, noiseLimit := 0 }

/-- The protection of a slice index at reset (R369). -/
def sliceProtReset : SliceProt :=
  { guard := sliceGuardReset, a := pathProtReset, b := pathProtReset, squallMute := false, emissionMute := false
    donorLoss := false, tddTiming := false, donorLow := false, squallCount := 0 }

/-- The protection of a TX port at reset (R369). -/
def portProtReset : PortProt :=
  { reflectedEnable := true, emissionEnable := false, emissionMask := 0, reflected := false, squall := false
    fromLoad := false, tripped := false, exceeds := false, aboveLast := [], muteCount := 0 }

/-- The defaults of the PROTECT header (R366, R369). -/
def guardDefaults : GuardConfig :=
  { trimHold := 1000, trimRelease := 100, maxTrim := 2000, squallGrowth := 300, squallFloor := 3000, squallPeak := 1500
    overdriveStep := 100, emissionStep := 100, donorHyst := 300, donorTime := 1000, donorRecover := 1000 }

/-- The supervisor after a cold reset (R354, R369). -/
def protectReset : Protect :=
  { cfg := guardDefaults, slice := Vector.replicate 256 sliceProtReset, port := Vector.replicate 32 portProtReset
    overdriven := Vector.replicate 32 false, haltHost := false, haltMgmt := false, haltReset := false
    haltThermal := false, haltTime := 0 }

/-- Weathervane at reset: every unit AVAILABLE, nothing placed (R473). -/
def placementReset : Placement :=
  { engine := Vector.replicate 64 { state := .available, forbid := false }
    placed := Vector.replicate 256 { live := none, next := none, stopped := false }
    moves := Vector.replicate 8 none, waiting := [], waits := [], pins := [], buffers := [], stagedBank := none
    policy := false, ownerSeparate := true, thermalMoves := true, thermalWeight := 64, spreadLimit := 8, moveLimit := 4
    interval := 60, gap := 2240, spread := false, spreadSince := none, lastPass := 0, mapGen := 0, pinSel := 0 }

/-- A bank at reset (R562). -/
def bankReset : Bank :=
  { state := .available, forbid := false, retire := false, parity := false, recode := false, zeroed := false
    written := 0, corrected := 0, uncorrectable := 0, poisonReads := 0 }

/-- Shared sample memory at reset (R562). -/
def smemReset : Smem :=
  { bank := Vector.replicate 48 bankReset, faults := []
    errLoc := { word := 0, bank := 0, syndrome := 0, kind := 0, scrub := false, stamp := 0 }
    codeIgnored := false, period := 24, bitmapSel := 0 }

/-- A retirement map that names no unit (R559). -/
def mapReset : RetireMap :=
  { updates := 0, engines := 0, banks := 0, lanes := 0, rx := 0, tx := 0, madcs := 0, history := [] }

/-- A sensor at reset (R645): no sample yet. -/
def sensorReset : Sensor := { samples := [], value := 0, failed := false, awaySince := none, hot := 0 }

/-- A zone's default thresholds (R627, R628). -/
def zoneCfgDefault : ZoneCfg := { lowWarn := -240, highWarn := 800, throttle := 840, hyst := 3, dwell := 10 }

/-- No dwell runs (R628). -/
def zoneTimersReset : ZoneTimers :=
  { cold := none, low := none, high := none, throttle := none, thaw := none, halt := none, flash := none
    bands := Vector.replicate 4 none }

/-- A zone at reset (R645). -/
def zoneReset : Zone :=
  { cfg := zoneCfgDefault, value := 0, band := none, highWarn := false, lowWarn := false, throttle := false
    critical := false, cold := false, noSensor := false, timers := zoneTimersReset
    cross := Vector.replicate 4 none }

/-- The thermal block after a cold reset (R645, R694). -/
def thermalReset : Thermal :=
  { sensor := Vector.replicate 24 sensorReset, zone := Vector.replicate 6 zoneReset, thawPower := 40, interval := 1000
    thaw := false, halted := false
    overcast := { stage := 0, request := 0, shed := [], last := 0, slow := false }
    ledger := { bins := Vector.replicate 6 (Vector.replicate 7 0), life := 0 }, lifeFull := false, ledgerSel := 0 }

/-- A lane at reset: OFF and in no link (R441). -/
def laneReset : Lane :=
  { cfg := { rate := 0, fecOff := false, txInvert := false, link := none, spare := false }
    state := .off, data := false, forbid := false, rxInverted := false, los := false, loa := false, fecFail := false
    degraded := false, band := 0, testPending := false, corrected := 0, uncorrectable := 0, ser := 0, serNow := 0
    above := 0, below := 0, badFrames := [], peerLane := none, issue := none, retrain := false, enabled := false, recovering := false, absent := 0,
    arrival := none, peerArrival := none }

/-- A link at reset: unused (R441). -/
def linkReset : Link :=
  { cfg := { kind := 0, peer := 0, timeSource := false, asym := 0 }, peerSeen := 0, peerMismatch := false, late := 0
    early := 0 }

/-- Soldin Link at reset (R441). -/
def linkBlockReset : LinkBlock :=
  { node := 0, site := 0, degSer := 100, lane := Vector.replicate 64 laneReset, link := Vector.replicate 16 linkReset
    streams := [], feeds := [], pending := none, buffered := [], toSend := [], filling := [], played := [], timeLink := none }

/-- A slot directory that names no image. -/
def dirReset : SlotDir :=
  { active := none, previous := none, staged := none, confirmed := true, returned := false, high := 0 }

/-- The flash of a part on which nothing has been stored yet. DESIGN CHOICE: the spec gives no factory contents. -/
def flashReset : Flash :=
  { queue := [], tries := 0, failed := false, retryAt := 0, held := false, late := false, area := Vector.replicate 3 none
    dirs := Vector.replicate 2 (0, dirReset), maps := Vector.replicate 2 mapReset
    ledgers := Vector.replicate 2 (0, { bins := Vector.replicate 6 (Vector.replicate 7 0), life := 0 }), boot := false }

/-- A stream that has taken no sample. -/
def lineReset : StreamLine := { last := 0, estimate := 0, count := 0, stages := [], output := 0, taken := 0 }

/-- A converter at reset: OFF (R538). DESIGN CHOICE: the fields with a dash in the entry read 0. -/
def converterReset : Converter :=
  { cfg := { mode := .off, trigger := 0, policy := 0, steps := [], preset := 0, dcShift := 0, streamInput := 0, openCheck := false
             dcBlock := false, refAlways := false, param1 := 0, param2 := 0 }
    refReady := false, running := false, pending := false, lastAborted := false, overrun := 0, restarts := 0, next := none
    queue := [], cal := none, calInput := 0, lastPhase := .zero, line := lineReset }

/-- A sense input at reset (R538). -/
def senseReset : Sense :=
  { value := 0, raw := 0, updates := 0, stream := false, isOpen := false, openRun := 0, clearRun := 0, trim := 0, offset := 0
    imageTrim := 0, imageOffset := 0, zero := none }

/-- The monitor block at reset (R538). -/
def monitorReset : Monitor :=
  { conv := Vector.replicate 8 converterReset, sense := Vector.replicate 128 senseReset
    cmp := Vector.replicate 64 { cfg := { enable := false, hyst := 0, hi := 0, lo := 0 }, tripped := false, latch := false }
    timeout := 1000 }

/-- A trace buffer at reset (R509). -/
def traceReset : Trace :=
  { armed := none, address := none, continuous := false, slot := 0, sel := [0, 0, 0, 0], decim := 1, trigger := 0, pre := 0
    instant := 0, triggered := false, skip := 0, entries := [], next := 0 }

/-- The control engine at reset: every slot disabled (R509). -/
def controlReset : Control :=
  { slot := Vector.replicate 64 none, baseLog2 := 0, swaps := Vector.replicate 64 0, tick := 0, biasSent := Vector.replicate 64 none
    trace := Vector.replicate 16 traceReset, traceSel := 0 }

/-- No SPDM request answered yet. -/
def negotiationReset : Negotiation := { version := false, capabilities := false, algorithms := false }

/-- Security and management after a cold reset (R671). DESIGN CHOICE: the OTP values that the registers reset to are those of an unowned part
with min_svn 0, and both address straps read 0. -/
def securityReset : Security :=
  { debug := 0, owner := Vector.replicate 4 { hash := 0, programmed := false, revoked := false, usable := false }, minSvn := 0
    running := none, slot := false, fw := Vector.replicate 2 none, failures := 0, lockedOut := false, keyBad := false, fwWindow := 600
    mgmtFw := false, windowEnd := none, windowStamp := 0, asked := none, restart := none, load := none, writes := none, nonce := none
    nonces := 0, eid := 0, addr := 0, pecErrors := 0, spdmMctp := negotiationReset, spdmDoe := negotiationReset }

/-- The machine right after reset. -/
def State.reset : State :=
  { pending := [], held := [], out := [], free := 0, time := timeReset, tdd := tddReset, boot := bootReset,
    hif := hifReset, evr := recorderReset, pmc := countersReset, flt := collectorReset,
    cfg := configReset,
    sec := securityReset,
    mon := monitorReset,
    cen := controlReset,
    flash := flashReset,
    plc := placementReset,
    mem := smemReset,
    map := mapReset,
    thm := thermalReset,
    lnk := linkBlockReset,
    tiles := tilesReset,
    fec := frontEndReset,
    dfe := dfeReset,
    sig := signalsReset,
    slices := slicesReset,
    can := cancelReset,
    nps := protectReset }

end Sys2Proof.Machine
end

