-- ==== Sys2Proof/Machine/Events.lean ====
section
/-! DEFINITION. The shared operations over the state's parts, counting events (R609 to R611), recording (R594 to R607), and raising errors (R563 to
R569). -/
namespace Sys2Proof.Machine
open Sys2Proof

/-! ### A change of one part of the state -/

/-- A change of station time. -/
def onTime (f : StationTime → StationTime) (s : State) : State := { s with time := f s.time }
/-- A change of TDD timing. -/
def onTdd (f : Tdd → Tdd) (s : State) : State := { s with tdd := f s.tdd }
/-- A change of boot. -/
def onBoot (f : Boot → Boot) (s : State) : State := { s with boot := f s.boot }
/-- A change of the host interface. -/
def onHif (f : Hif → Hif) (s : State) : State := { s with hif := f s.hif }
/-- A change of the event recorder. -/
def onEvr (f : Recorder → Recorder) (s : State) : State := { s with evr := f s.evr }
/-- A change of the performance counters. -/
def onPmc (f : Counters → Counters) (s : State) : State := { s with pmc := f s.pmc }
/-- A change of the fault collector. -/
def onFlt (f : Collector → Collector) (s : State) : State := { s with flt := f s.flt }
/-- A change of the configuration store. -/
def onCfg (f : Config → Config) (s : State) : State := { s with cfg := f s.cfg }

/-- A change of the protection supervisor. -/
def onNps (f : Protect → Protect) (s : State) : State := { s with nps := f s.nps }

/-- A change of the cancellers. -/
def onCan (f : Cancel → Cancel) (s : State) : State := { s with can := f s.can }

/-- A change of the slice fabric. -/
def onSlices (f : Slices → Slices) (s : State) : State := { s with slices := f s.slices }

/-- A change of the digital front end. -/
def onDfe (f : Dfe → Dfe) (s : State) : State := { s with dfe := f s.dfe }

/-- A change of the samples in flight. -/
def onSig (f : Signals → Signals) (s : State) : State := { s with sig := f s.sig }

/-- A change of front-end control. -/
def onFec (f : FrontEnd → FrontEnd) (s : State) : State := { s with fec := f s.fec }

/-- A change of the tiles. -/
def onTiles (f : Tiles → Tiles) (s : State) : State := { s with tiles := f s.tiles }

/-- A change of Weathervane. -/
def onPlc (f : Placement → Placement) (s : State) : State := { s with plc := f s.plc }

/-- A change of shared sample memory. -/
def onMem (f : Smem → Smem) (s : State) : State := { s with mem := f s.mem }

/-- A change of the retirement map. -/
def onMap (f : RetireMap → RetireMap) (s : State) : State := { s with map := f s.map }

/-- A change of the thermal block. -/
def onThm (f : Thermal → Thermal) (s : State) : State := { s with thm := f s.thm }

/-- A change of Soldin Link. -/
def onLnk (f : LinkBlock → LinkBlock) (s : State) : State := { s with lnk := f s.lnk }

/-- A change of the flash. -/
def onFlash (f : Flash → Flash) (s : State) : State := { s with flash := f s.flash }

/-- A change of the monitor block. -/
def onMon (f : Monitor → Monitor) (s : State) : State := { s with mon := f s.mon }

/-- A change of the control engine. -/
def onCen (f : Control → Control) (s : State) : State := { s with cen := f s.cen }

/-- A change of security and management. -/
def onSec (f : Security → Security) (s : State) : State := { s with sec := f s.sec }

/-! ### Station time -/

/-- Station time now, in quarter-nanoseconds (R370). -/
def State.now (s : State) : Nat := s.time.q

/-- The short stamp of now (R370). -/
def State.stamp (s : State) : Nat := stampOf s.time.q

/-- What is sent to the outside. -/
def emit (o : Out) (s : State) : State := { s with out := o :: s.out }

/-- The next index of a free value: a value the spec leaves open is an opaque function of it. -/
def takeFree (s : State) : State := { s with free := s.free + 1 }

/-! ### Performance counters (R609 to R611) -/

/-- One counter's addition of `n` (R611): the count is kept modulo 2^48, and passing it sets sticky and, with
wrap_record set, leaves a COUNTER_WRAP record to publish. -/
def addTo (n : Nat) (c : Counter) : Counter :=
  let wraps := (c.count + n) / 2 ^ 48
  { c with
    count := (c.count + n) % 2 ^ 48
    sticky := c.sticky || wraps != 0
    wrapDue := if wraps != 0 && c.wrapRecord then c.wrapDue + wraps else c.wrapDue }

/-- Does a counter count event `ev` of unit `u` (R609): its own unit, or DEVICE for the sum over all units? -/
def counts (ev u : Nat) (c : Counter) : Bool := c.enable && c.event == ev && (c.unit == 0 || c.unit == u)

/-- A pulse event of a unit, `n` occurrences (R609, R610). -/
def pulse (ev u n : Nat) (s : State) : State :=
  { s with pmc := { s.pmc with cnt := s.pmc.cnt.map fun c => if counts ev u c then addTo n c else c } }

/-! ### Records (R594 to R607) -/

/-- The bucket refilled up to its burst for the time since it was last looked at (R605). -/
def refill (mono : Nat) (b : Bucket) : Bucket :=
  { b with parts := min (b.burst * qSecond) (b.parts + b.rate * (mono - b.since)), since := mono }

/-- Staging entries that the reserved entry does not hold (R597, R599): those that are no kind-0 OVERFLOW record. -/
def unreserved (r : Recorder) : Nat :=
  (r.staging.filter fun x => match x.payload with
    | .overflow 0 _ _ => false
    | _ => true).length

/-- The verdict of the rate check on a payload (R605 to R607): the recorder with its bucket changed, and the suppressed
count an accepted record carries, or none when it is suppressed. -/
def rateCheck (p : Payload) (mono : Nat) (r : Recorder) : Recorder × Option Nat :=
  match bucketIndex p.code with
  | none => (r, some 0)
  | some i =>
    let b := refill mono r.buckets[i]
    if p.exempt then (r, some b.pending)
    else if qSecond ≤ b.parts then
      ({ r with buckets := r.buckets.set i { b with parts := b.parts - qSecond } }, some b.pending)
    else ({ r with buckets := r.buckets.set i { b with pending := b.pending + 1 } }, none)

/-- The pending count of a code returns to zero once a record of it has entered staging (R606). -/
def clearSuppressed (p : Payload) (r : Recorder) : Recorder :=
  match bucketIndex p.code with
  | none => r
  | some i => { r with buckets := upd r.buckets i fun b => { b with pending := 0 } }

/-- A record reaches the recorder with a stamp and an epoch: the rate check, then the staging check (R598). `own` is the
number of a completion that the record carries, and then it takes none of its own (R36). -/
def record (p : Payload) (stamp epoch : Nat) (own : Option Nat) (s : State) : State :=
  match rateCheck p s.time.mono s.evr with
  | (r, none) => pulse 0x0601 0 1 { s with evr := r }
  | (r, some sup) =>
    if 63 ≤ unreserved r then
      pulse 0x0602 0 1
        { s with evr := { r with lostPending := r.lostPending + 1, stagingLost := satAdd 65535 r.stagingLost 1 } }
    else
      let rec' : Record := { sequence := own.getD r.seqNext, stamp := stamp, epoch := epoch, suppressed := sup, payload := p }
      let r := clearSuppressed p r
      pulse 0x0600 0 1
        { s with evr := { r with
            staging := r.staging ++ [rec']
            seqNext := if own.isSome then r.seqNext else (r.seqNext + 1) % 2 ^ 64 } }

/-- The number a record would take now, or all ones when the rate limit or staging turns it away (R572). -/
def recordNumber (p : Payload) (s : State) : Nat :=
  match rateCheck p s.time.mono s.evr with
  | (_, none) => 2 ^ 64 - 1
  | (r, some _) => if 63 ≤ unreserved r then 2 ^ 64 - 1 else r.seqNext

/-- A record stamped now. -/
def recordNow (p : Payload) (s : State) : State := record p s.stamp s.time.epoch none s

/-! ### Event sources (R563, R569) -/

/-- A notification goes to the recorder at once (R563). -/
def notify (src unit detail : Nat) (s : State) : State := recordNow (.event src unit 1 0 0 detail) s

/-- A source detects a single event (R566): it asserts until the collector acknowledges it and counts further events. -/
def raiseBy (injected : Bool) (src : Fin 320) (unit detail : Nat) (s : State) : State :=
  { s with flt := { s.flt with sources := upd s.flt.sources src fun x =>
      if injected then { x with injEvents := x.injEvents + 1, injUnit := unit, injDetail := detail,
                                stamp := if x.events + x.injEvents = 0 then s.stamp else x.stamp,
                                epoch := if x.events + x.injEvents = 0 then s.time.epoch else x.epoch }
      else { x with
        events := x.events + 1
        unit := if x.events = 0 then unit else x.unit
        detail := if x.events = 0 then detail else x.detail
        also := if x.events = 0 ∨ unit = x.unit ∨ unit ∈ x.also then x.also else x.also ++ [unit]
        stamp := if x.events + x.injEvents = 0 then s.stamp else x.stamp
        epoch := if x.events + x.injEvents = 0 then s.time.epoch else x.epoch } } }

/-- A real single event at a source, naming a unit in target encoding or 0. -/
def raise (src : Fin 320) (unit detail : Nat) (s : State) : State := raiseBy false src unit detail s

/-- A condition at a source begins, naming its unit, or ends (R566). -/
def setCond (src : Fin 320) (on : Bool) (unit detail : Nat) (s : State) : State :=
  { s with flt := { s.flt with sources := upd s.flt.sources src fun x =>
      { x with
        cond := on
        unit := if on && !x.cond then unit else x.unit
        detail := if on && !x.cond then detail else x.detail
        stamp := if on && !x.cond then s.stamp else x.stamp
        epoch := if on && !x.cond then s.time.epoch else x.epoch } } }

end Sys2Proof.Machine
end

