-- ==== Sys2Proof/Machine/Paths.lean ====
section
/-! DEFINITION. What the sample path asks of the state: which paths a slice has and where they begin and end (R271 to R273), the tile of a port
(R158), and what blanks an RX port (R231). -/
namespace Sys2Proof.Machine
open Sys2Proof

/-! ### Slices and their ports -/

/-- The definition in force at a slice index (R271). -/
def liveDef (sl : SliceId) (s : State) : Option SliceDef := (s.slices.slice[sl]).live.map (·.defn)

/-- A path's source (R271). -/
def srcOf (d : SliceDef) (p : PathId) : Endpoint :=
  match p with
  | .a => d.srcA
  | .b => d.srcB

/-- A path's sink (R271). -/
def sinkOf (d : SliceDef) (p : PathId) : Endpoint :=
  match p with
  | .a => d.sinkA
  | .b => d.sinkB

/-- The paths a definition has: both for TDD, path A otherwise (R271). -/
def pathsOf (d : SliceDef) : List PathId := if d.direction = .tdd then [.a, .b] else [.a]

/-- The RX port of an endpoint. -/
def rxOf : Endpoint → Option (Fin 32)
  | .rx p => some p
  | _ => none

/-- The TX port of an endpoint. -/
def txOf : Endpoint → Option (Fin 32)
  | .tx p => some p
  | _ => none

/-- Does a path's source lie on an RX port? -/
def srcIsRx (d : SliceDef) (p : PathId) : Bool := (rxOf (srcOf d p)).isSome

/-- The tile of a port (R158). -/
def tileOf (p : Fin 32) : Fin 4 := ⟨p.val / 8, by omega⟩

/-- A blanking input is asserted and obeyed (R231). -/
def blankActive (b : Blank) : Bool := b.enable && b.level

/-- An asserted blanking input is bound to the RX port (R231). -/
def rxBlanked (m : Fin 32) (s : State) : Bool := anyOf s.fec.blanks fun b => blankActive b && b.rxMask.getLsbD m

end Sys2Proof.Machine
end

