-- ==== Sys2Proof/Machine/Numeric.lean ====
section
/-! DEFINITION. Real functions in fixed point: sine (R243), the Bessel function and the power of ten that the filter and gain formulas name (R250,
R286, R290), logarithms in hundredths of a decibel (R283), and values that the spec gives only to within a step. Fixed-point numbers are integers
in units of 2^-80; their error lies far below every step of the words that they are rounded to. -/
namespace Sys2Proof.Machine
open Sys2Proof

/-- One in fixed point. -/
abbrev fixOne : Int := 2 ^ 80

/-- π in fixed point, rounded down. -/
def fixPi : Int := 3797952473636338580787993

/-- The natural logarithm of 10 in fixed point, rounded down. -/
def fixLn10 : Int := 2783654570780253816072539

/-- A product in fixed point. -/
def fixMul (a b : Int) : Int := a * b / fixOne

/-- The sum of a series of `n` terms that starts with `t`; `next m t` is the term after the one of number m. -/
def series (next : Nat → Int → Int) : Nat → Nat → Int → Int
  | 0, _, _ => 0
  | n + 1, m, t => t + series next n (m + 1) (next m t)

/-- The sine of an angle of at most a quarter turn, by its power series. -/
def fixSine (x : Int) : Int :=
  let x2 := fixMul x x
  series (fun m t => -(fixMul t x2) / ((2 * m + 2) * (2 * m + 3) : Nat)) 20 0 x

/-- sin(2π n / d) in fixed point, d above zero: the angle is brought to at most a quarter turn first. -/
def sineOf (n : Int) (d : Nat) : Int :=
  let r := n % (d : Int)
  let h := if 4 * r ≤ d then 2 * r else if 4 * r ≤ 3 * d then d - 2 * r else 2 * r - 2 * d
  fixSine (fixPi * h / (d : Int))

/-- cos(2π n / d) in fixed point. -/
def cosineOf (n : Int) (d : Nat) : Int := sineOf (4 * n + d) (4 * d)

/-- I0(x) in fixed point from x² in fixed point (R250, R286): the sum of (x² / 4)^m / (m!)². -/
def bessel (x2 : Int) : Int := series (fun m t => fixMul t (x2 / 4) / ((m + 1) * (m + 1) : Nat)) 64 0 fixOne

/-- e^x in fixed point, for 0 ≤ x below 2.4. -/
def fixExp (x : Int) : Int := series (fun m t => fixMul t x / (m + 1 : Nat)) 60 0 fixOne

/-- A fixed-point number times 10^k. -/
def timesTen (k v : Int) : Int := if 0 ≤ k then v * 10 ^ k.toNat else v / 10 ^ (-k).toNat

/-- 10^(n / d) in fixed point, d above zero. -/
def tenPower (n : Int) (d : Nat) : Int := timesTen (n / (d : Int)) (fixExp (fixLn10 * (n % (d : Int)) / (d : Int)))

/-- e^x in fixed point. -/
def expOf (x : Int) : Int := timesTen (x / fixLn10) (fixExp (x % fixLn10))

/-- A fixed-point number times 2^w, rounded convergently. -/
def fixRound (w : Nat) (x : Int) : Int := roundEven x (80 - w)

/-! ### Values that the spec gives to within a step -/

/-- A value that lies within one step of an exact one and is free otherwise. -/
def near (exact free : Int) : Int := clampInt (exact - 1) (exact + 1) free

/-- An exact quotient, d above zero, rounded one way or the other: the spec says that it is a whole number and not which of the two. -/
def eitherWay (n d : Int) (up : Bool) : Int := if n % d = 0 then n / d else n / d + (if up then 1 else 0)

/-- The 18-bit cosine and sine of an NCO's phase (R243). The model takes each to lie within one step of the exact value. -/
def ncoWord (phase : Nat) : Cplx :=
  { re := satWord 18 (near (fixRound 17 (cosineOf phase (2 ^ 48))) (freeSine phase true))
    im := satWord 18 (near (fixRound 17 (sineOf phase (2 ^ 48))) (freeSine phase false)) }

/-- The factor of a raised cosine at n / d of its length, in parts of 2^-16 (R164, R291): its rounding is free. -/
def rampWord (n d : Nat) : Nat :=
  if n = 0 then 0 else if d ≤ n then 65536
  else (clampInt 0 65536 (near (fixRound 16 ((fixOne - cosineOf n (2 * d)) / 2)) (freeRampWord n d))).toNat

/-- The multiplier of a gain of g hundredths of a decibel, in parts of 2^-24: within 0.005 dB of the gain, and free otherwise (R290). -/
def gainWord (g : Int) : Nat :=
  (clampInt (fixRound 24 (tenPower (2 * g - 1) 4000) + 1) (fixRound 24 (tenPower (2 * g + 1) 4000) - 1) (freeGainWord g)).toNat

/-! ### Logarithms (R283) -/

/-- Is 10^(x / 1000) at most n / d? -/
def tenBelow (x : Int) (n d : Nat) : Bool :=
  if 0 ≤ x then decide (10 ^ x.toNat * d ^ 1000 ≤ n ^ 1000) else decide (d ^ 1000 ≤ n ^ 1000 * 10 ^ (-x).toNat)

/-- The greatest x from `lo` on, in 2^n steps of one, at which 10^(x / 1000) ≤ a / b; `lo` when there is none. -/
def searchLog (a b : Nat) : Nat → Int → Int
  | 0, lo => lo
  | n + 1, lo => searchLog a b n (if tenBelow (lo + 2 ^ n) a b then lo + 2 ^ n else lo)

/-- A power ratio a / b in hundredths of a decibel, rounded one way or the other (the spec does not say which); a ratio of zero has no logarithm
and its value is free. -/
def centibels (a b k : Nat) : Int :=
  if a = 0 then freeLog k
  else
    let x := searchLog a b 17 (-65536)
    if a ^ 1000 * 10 ^ (-x).toNat = b ^ 1000 * 10 ^ x.toNat then x else x + (if freeRound k then 1 else 0)

end Sys2Proof.Machine
end

