-- ==== Sys2Proof/Machine/Signal.lean ====
section
/-! DEFINITION. The arithmetic of the sample path: containers (R259 to R261), the half-band designs and the chains that they form (R250 to R252,
R262), the NCO mixes (R240, R254, R280, R281), and the channel filter (R284 to R287). -/
namespace Sys2Proof.Machine
open Sys2Proof

/-! ### Containers (R259 to R261) -/

/-- I of a container; a poisoned one counts as zero (R262). -/
def contI : Container → Int
  | .poisoned => 0
  | .valid i _ => i

/-- Q of a container. -/
def contQ : Container → Int
  | .poisoned => 0
  | .valid _ q => q

/-- Is a container poisoned (R260)? -/
def contBad : Container → Bool
  | .poisoned => true
  | .valid _ _ => false

/-- The residue of a pair of 14-bit words (R259). -/
def residueOf (i q : Int) : Nat := ((i + 8192 + (q + 8192)) % 15).toNat

/-- A container as its 32-bit word (R259, R260). -/
def containerWord : Container → Nat
  | .poisoned => 0xF
  | .valid i q => unsigned 14 i * 2 ^ 18 + unsigned 14 q * 16 + residueOf i q

/-- Does a 32-bit word fail the residue check on receipt: its check is neither 0xF nor the residue of its I and Q (R261)? -/
def residueWrong (w : Nat) : Bool := w % 16 != 15 && w % 16 != residueOf (signed 14 (w / 2 ^ 18)) (signed 14 (w / 16))

/-- The container that a 32-bit word carries: one whose check fails is replaced by a poisoned one (R260, R261). -/
def containerOf (w : Nat) : Container :=
  let i := signed 14 (w / 2 ^ 18)
  let q := signed 14 (w / 16)
  if w % 16 = residueOf i q then .valid i q else .poisoned

/-! ### Words of a stage (R252) -/

/-- A complex word saturated to 18 bits. -/
def sat18 (v : Cplx) : Cplx := ⟨satWord 18 v.re, satWord 18 v.im⟩

/-- A sum of products over 2^w as a word of 18 bits: rounded convergently and saturated (R252). -/
def round18 (w : Nat) (v : Cplx) : Cplx := sat18 ⟨roundEven v.re w, roundEven v.im w⟩

/-- The container of an 18-bit word (R252): rounded convergently to 14 bits and saturated. -/
def outContainer (v : Cplx) : Container := .valid (satWord 14 (roundEven v.re 4)) (satWord 14 (roundEven v.im 4))

/-- The container of a sample; a poisoned one stays poisoned. -/
def sampleContainer : Sample → Container
  | none => .poisoned
  | some v => outContainer v

/-- A container as an 18-bit word (R252). -/
def sampleOf : Container → Sample
  | .poisoned => none
  | .valid i q => some ⟨16 * i, 16 * q⟩

/-- A sample in a stage's arithmetic: a poisoned one counts as zero (R262). -/
def valueOf (x : Sample) : Cplx := x.getD ⟨0, 0⟩

/-- The sample at a place of a stage's last inputs, newest first; poisoned where there is none yet. -/
def sampleAt (h : List Sample) (i : Nat) : Sample := (h[i]?).getD none

/-- Real coefficients applied to I and Q alike: the sum of products. -/
def firSum (cs : List Int) (h : List Sample) : Cplx :=
  (cs.zip h).foldl (fun t x => ⟨t.re + x.1 * (valueOf x.2).re, t.im + x.1 * (valueOf x.2).im⟩) ⟨0, 0⟩

/-- Is output number `n` of a stage in a run that is released poisoned (R265)? -/
def inRun (l : List PoisonRun) (n : Nat) : Bool := l.any fun r => decide (r.first ≤ n) && decide (n < r.first + r.count)

/-- An output of a stage as it is released (R265). -/
def released (l : List PoisonRun) (n : Nat) (x : Sample) : Sample := if inRun l n then none else x

/-- The runs that are not wholly past number `n`. -/
def laterRuns (l : List PoisonRun) (n : Nat) : List PoisonRun := l.filter fun r => decide (n < r.first + r.count)

/-! ### Half-band stages (R250 to R252, R262) -/

/-- The distinct non-zero coefficients of HB_F, h(1), h(3) and so on, in units of 2^-19 (R250). -/
def hbF : List Int := [166050, -53165, 29414, -18578, 12229, -8085, 5257, -3314, 1998, -1136, 598, -283, 115, -36, 5]

/-- Those of HB_M. -/
def hbM : List Int := [161152, -40406, 13311, -3517, 549, -14]

/-- Those of HB_E. -/
def hbE : List Int := [153045, -24694, 2729, -23]

/-- The formula of R250 for coefficient h(n) of a design of L taps, n odd, in units of 2^-19. -/
def halfBandFormula (L n : Nat) : Int :=
  let d := (L - 1) * (L - 1)
  let x2 : Int := fixOne * (896 * 896) * (d - 4 * n * n : Nat) / (10000 * d : Nat)
  let w := bessel x2 * fixOne / bessel (fixOne * (896 * 896) / 10000)
  let sinc := (if n % 4 = 1 then 1 else -1) * fixOne * fixOne / (fixPi * n)
  fixRound 19 (fixMul sinc w)

/-- The half of the half-band filter of stage `j` of a chain of `k` decimation stages (R251, R302): 29 for HB_F, 11 for HB_M, 7 for HB_E. -/
def halfBand (k j : Nat) : Nat := if j + 1 = k then 29 else if j + 2 = k then 11 else 7

/-- The stages of a chain of `k` decimations, widest rate first (R251). An interpolation chain has them in the reverse order. -/
def chainHalves (k : Nat) : List Nat := (List.range k).map (halfBand k)

/-- The coefficients of a design by its half. -/
def designOf (half : Nat) : List Int := if half = 29 then hbF else if half = 11 then hbM else hbE

/-- h(n) at a distance n from the centre, in units of 2^-19: 2^18 at the centre, and zero at the other even distances. -/
def halfBandTap (half n : Nat) : Int :=
  if n = 0 then 2 ^ 18 else if n % 2 = 0 then 0 else ((designOf half)[n / 2]?).getD 0

/-- The distance of tap i from a middle. -/
def distance (i middle : Nat) : Nat := (i - middle) + (middle - i)

/-- A decimating stage takes input number `i` (R240, R250, R252, R262): its last inputs, and on every second one an output, numbered at the lower
rate, whose centre is input i − half. -/
def decimateStage (half : Nat) (h : List Sample) (x : Nat × Sample) : List Sample × Option (Nat × Sample) :=
  let h := (x.2 :: h).take (2 * half + 1)
  if x.1 % 2 = 0 then (h, none)
  else
    let y := round18 19 (firSum ((List.range (2 * half + 1)).map fun i => halfBandTap half (distance i half)) h)
    (h, some ((x.1 - half) / 2, (sampleAt h half).map fun _ => y))

/-- An input passes down a decimation chain: the stages' last inputs, and the output that it completes. -/
def decimate : List Nat → List (List Sample) → Nat × Sample → List (List Sample) × Option (Nat × Sample)
  | [], _, x => ([], some x)
  | half :: rest, hs, x =>
    let a := decimateStage half (hs.headD []) x
    match a.2 with
    | none => (a.1 :: hs.tail, none)
    | some y =>
      let b := decimate rest hs.tail y
      (a.1 :: b.1, b.2)

/-- An interpolating stage takes input number `n` (R252, R254, R262): its last inputs, and two outputs, numbered at the upper rate, the first
midway between two inputs and the second at one. Each is twice the filter's sum. The one midway is poisoned when the earlier of the two is. -/
def interpolateStage (half : Nat) (h : List Sample) (x : Nat × Sample) : List Sample × List (Nat × Sample) :=
  let h := (x.2 :: h).take (half + 1)
  let y := round18 18 (firSum ((List.range (half + 1)).map fun i => halfBandTap half (distance (2 * i) half)) h)
  (h, [(2 * x.1 - half, (sampleAt h ((half + 1) / 2)).map fun _ => y), (2 * x.1 - half + 1, sampleAt h ((half - 1) / 2))])

/-- An input passes up an interpolation chain: the stages' last inputs, and the outputs that it completes, in order. -/
def interpolate : List Nat → List (List Sample) → Nat × Sample → List (List Sample) × List (Nat × Sample)
  | [], _, x => ([], [x])
  | half :: rest, hs, x =>
    let a := interpolateStage half (hs.headD []) x
    let b := a.2.foldl (fun t y => let r := interpolate rest t.1 y; (r.1, t.2 ++ r.2)) (hs.tail, [])
    (a.1 :: b.1, b.2)

/-! ### Mixes (R240, R254, R281) -/

/-- A real sample of 14 bits mixed down: times e^(−jφ), as 18-bit I and Q (R240). -/
def mixReal (y : Int) (n : Cplx) : Cplx := round18 13 ⟨y * n.re, -(y * n.im)⟩

/-- A container mixed down by a slice NCO, as 18-bit I and Q (R281). -/
def mixIn (n : Cplx) : Container → Sample
  | .poisoned => none
  | .valid i q => some (round18 13 ⟨i * n.re + q * n.im, q * n.re - i * n.im⟩)

/-- An 18-bit word mixed up by a slice NCO, as a container (R252, R281). -/
def mixOut (n : Cplx) : Sample → Container
  | none => .poisoned
  | some v =>
    .valid (satWord 14 (roundEven (v.re * n.re - v.im * n.im) 21)) (satWord 14 (roundEven (v.re * n.im + v.im * n.re) 21))

/-- The real part of an 18-bit word mixed up, over 2^21 a DAC code before it is rounded (R254 steps 7 to 9). -/
def mixUp (v n : Cplx) : Int := v.re * n.re - v.im * n.im

/-- The word of a slice mix between a slice's centre and a port's, in kHz: their difference over 4.0 GHz (R281). -/
def sliceMixWord (centre port : Nat) : Nat := unsigned 48 (roundRatio (((centre : Int) - port) * 2 ^ 48) 4000000)

/-! ### The channel filter (R284 to R287) -/

/-- β of a family (R284): families 8 to 15 take those of 0 to 7. -/
def kaiserBeta (family : Nat) : Nat := 3 + family % 8

/-- Twice the filter delay d in slice samples (R286): N − 1 for linear phase, N / 2 for low delay. -/
def twiceDelay (family n : Nat) : Nat := if family < 8 then n - 1 else n / 2

/-- h[i] of R286 in fixed point: 2ν sinc(2νx) w, with 2ν the fraction num / 160,000,000. -/
def tapFormula (family n num i : Nat) : Int :=
  let d2 := twiceDelay family n
  let x2 : Int := 2 * (i : Int) - d2
  let span2 : Int := if x2 ≤ 0 then d2 else 2 * ((n : Int) - 1) - d2
  let beta : Int := kaiserBeta family
  let w := bessel (fixOne * beta * beta * (span2 * span2 - x2 * x2) / (span2 * span2)) * fixOne / bessel (fixOne * beta * beta)
  let s := if x2 = 0 then fixOne * num / 160000000 else sineOf (num * x2) 640000000 * 2 * fixOne / (fixPi * x2)
  fixMul s w

/-- 2ν of a definition as a number of 160,000,000ths (R285): f_cut = (B / 2)(1 + 0.025 e), over f_s. -/
def cutNumber (k bandwidth edge : Nat) : Nat := bandwidth * (40 + edge) * 2 ^ k

/-- The coefficients of a channel filter of n taps as R286 gives them, in units of 2^-17. -/
def coefFormula (k bandwidth family edge n : Nat) : List Int :=
  let hs := (List.range n).map (tapFormula family n (cutNumber k bandwidth edge))
  let total := hs.foldl (· + ·) 0
  hs.map fun h => satWord 18 (roundRatio (h * 2 ^ 17) total)

/-- The coefficients in use: each lies within one step of the formula (R287). -/
def coefficients (k bandwidth family edge n : Nat) : List Int :=
  (coefFormula k bandwidth family edge n).zipIdx.map fun c => satWord 18 (near c.1 (freeCoef k bandwidth family edge n c.2))

/-- A square of the magnitude. -/
def cNorm (a : Cplx) : Nat := (a.re * a.re + a.im * a.im).toNat

end Sys2Proof.Machine
end

