-- ==== Sys2Proof/Machine/Sensing.lean ====
section
/-! DEFINITION. What the monitor converters share: their inputs (R510, R511), published results (R512), and the sample chain of a STREAM converter
(R518, R519). -/
namespace Sys2Proof.Machine
open Sys2Proof

/-! ### Converters and inputs (R510 to R514) -/

/-- A change of one converter. -/
def onConv (c : Fin 8) (f : Converter → Converter) (s : State) : State := onMon (fun m => { m with conv := upd m.conv c f }) s

/-- The sense input of a converter's local input (R510). -/
def senseIdx (c : Fin 8) (i : Fin 16) : Fin 128 := ⟨16 * c.val + i.val, by omega⟩

/-- The converter of a sense input (R510). -/
def convOfSense (n : Fin 128) : Fin 8 := ⟨n.val / 16, by omega⟩

/-- The TX port that a sense input watches: forward and reflected power, and drain current (R511). -/
def portOfSense (n : Fin 128) : Option (Fin 32) :=
  if h : n.val < 64 then some ⟨n.val / 2, by omega⟩ else if h : n.val < 96 then some ⟨n.val - 64, by omega⟩ else none

/-- A change of one sense input. -/
def onSense (n : Fin 128) (f : Sense → Sense) (s : State) : State := onMon (fun m => { m with sense := upd m.sense n f }) s

/-- A unit's self-test that runs or waits. -/
def testOf (k : UnitKind) (i : Nat) (s : State) : Option SelfTest :=
  s.flt.selftests.find? fun t => t.kind == k && t.index == i

/-- Is a converter retired (R532)? -/
def madcRetired (c : Fin 8) (s : State) : Bool := s.map.madcs.getLsbD c

/-- Is a converter under self-test (R532)? -/
def madcTesting (c : Fin 8) (s : State) : Bool := (testOf .madc c s).isSome

/-- A converter's reference buffer is on (R513). -/
def refOn (x : Converter) : Bool := x.cfg.mode != .off || x.cfg.refAlways

/-- A converter waits for its reference (R513). -/
def refWait (x : Converter) : Bool := refOn x && !x.refReady

/-- An injection that converts now, ahead of a measurement: one that is not held (R521, R526). -/
def nextInjection (x : Converter) : Option MonInjection := x.queue.find? fun i => !i.blocked

/-- A calibration measurement takes the converter's slots (R523, R526). -/
def measuring (c : Fin 8) (s : State) : Bool :=
  let x := s.mon.conv[c]
  x.cal.isSome && (nextInjection x).isNone && !madcTesting c s

/-- Conversions of a converter are counted (R609). -/
def conversions (c : Fin 8) (n : Nat) (s : State) : State := pulse 0x0900 (target .madc c) n s

/-! ### Results (R154, R512) -/

/-- The calibrated value of a raw average, in 1/16 raw LSB, rounded convergently (R154, R512). -/
def calibrated (n : Fin 128) (x : Sense) (average : Int) : Int :=
  roundEven ((32768 + x.trim) * factoryGain n * average + factoryOffset n * 2 ^ 19 + x.offset * 2 ^ 51) 47

/-- A result is published (R512, R538): of a pass, of an injection, or of a stream. -/
def publishResult (stream : Bool) (n : Fin 128) (average : Int) (s : State) : State :=
  onSense n (fun x => { x with
    value := calibrated n x average
    raw := unsigned 14 (roundEven average 4)
    updates := x.updates + 1
    stream := stream }) s

/-- A result of a pass or an injection is published. -/
def publish (n : Fin 128) (average : Nat) (s : State) : State := publishResult false n average s

/-! ### The stream (R518, R519) -/

/-- The stages of a preset (R518). -/
def presetStages : Nat → Nat
  | 0 => 3
  | 1 => 5
  | 2 => 8
  | _ => 11

/-- Is the DC estimate of a stream frozen: its input's TX port is in a transmit segment or blanked (R518)? -/
def streamFrozen (n : Fin 128) (s : State) : Bool :=
  (portOfSense n).any fun (m : Fin 32) => (s.tdd.pairs[m]).transmitting || anyOf s.fec.blanks fun b => blankActive b && b.txMask.getLsbD m

/-- The DC block on one raw code (R248, R518): the output, and the estimate after it. DEDUCED: a converter's cycle is one sample. -/
def streamDc (frozen : Bool) (k : Nat) (d x : Int) : Int × Int :=
  (satWord 14 (x - roundEven d 30), if frozen then d else d + eitherWay (x * 2 ^ 30 - d) (2 ^ k) (freeDcRound d x))

/-- A real half-band stage takes input number `i`, in 1/16 raw LSB: its last inputs, and on every second one an output, rounded convergently to the
same unit (R250, R518). -/
def streamStage (half : Nat) (h : List Int) (i : Nat) (x : Int) : List Int × Option Int :=
  let h := (x :: h).take (2 * half + 1)
  if i % 2 = 0 then (h, none)
  else
    let taps := (List.range (2 * half + 1)).map fun j => halfBandTap half (distance j half)
    (h, some (roundEven ((taps.zip h).foldl (fun t y => t + y.1 * y.2) 0) 19))

/-- Sample number `i` passes down the chain of a preset: the stages' last inputs, and the output that it completes. -/
def streamChain : List Nat → List (List Int) → Nat → Int → List (List Int) × Option Int
  | [], _, _, x => ([], some x)
  | half :: rest, hs, i, x =>
    let a := streamStage half (hs.headD []) i x
    match a.2 with
    | none => (a.1 :: hs.tail, none)
    | some y =>
      let b := streamChain rest hs.tail (i / 2) y
      (a.1 :: b.1, b.2)

/-- A STREAM converter's chain takes one raw code; an output is published (R518, R538). -/
def feedStream (c : Fin 8) (raw : Nat) (s : State) : State :=
  let x := s.mon.conv[c]
  let n := senseIdx c x.cfg.streamInput
  let d := streamDc (streamFrozen n s) x.cfg.dcShift x.line.estimate raw
  let y : Int := if x.cfg.dcBlock then d.1 else raw
  let r := streamChain (chainHalves (presetStages x.cfg.preset)) x.line.stages x.line.count (16 * y)
  let line : StreamLine :=
    { x.line with
      last := raw, estimate := if x.cfg.dcBlock then d.2 else x.line.estimate, count := x.line.count + 1, stages := r.1 }
  match r.2 with
  | none => onConv c (fun x => { x with line := line }) s
  | some v =>
    let out := calibrated n s.mon.sense[n] v
    publishResult true n v (onConv c (fun x => { x with line := { line with output := out } }) s)

/-- `n` slots were taken from a STREAM converter: its chain takes repeats of the previous raw code, and each is counted (R519). -/
def repeatSamples (c : Fin 8) : Nat → State → State
  | 0, s => s
  | n + 1, s =>
    let x := s.mon.conv[c]
    if x.cfg.mode = .stream then
      repeatSamples c n (feedStream c x.line.last (onConv c (fun x => { x with restarts := satAdd 65535 x.restarts 1 }) s))
    else s

/-- Is a STREAM converter's next slot its own: its reference is ready, it is neither under test nor retired, and no injection or measurement holds
it? What they take is fed when they end (`repeatSamples`). -/
def streamSlot (c : Fin 8) (s : State) : Bool :=
  let x := s.mon.conv[c]
  x.cfg.mode == .stream && x.refReady && (nextInjection x).isNone && !measuring c s && !madcTesting c s && !madcRetired c s

/-- The conversion slot of one converter that begins now (R510, R514, R518): a slot that a check took already feeds nothing. -/
def converterSlot (s : State) (c : Fin 8) : State :=
  let x := s.mon.conv[c]
  if !streamSlot c s then s
  else if x.line.taken ≠ 0 then onConv c (fun x => { x with line := { x.line with taken := x.line.taken - 1 } }) s
  else conversions c 1 (feedStream c (min 16383 (senseSample (senseIdx c x.cfg.streamInput) s.time.mono)) s)

/-- The conversion slots of 100 ns that begin now. -/
def monitorSlots (s : State) : State := (indices 8).foldl converterSlot s

/-- Does no converter stream? -/
def streamless (s : State) : Bool := allOf s.mon.conv fun x => x.cfg.mode != .stream

/-- A reference check or an open check takes one slot of a STREAM converter: the chain takes its repeat now, and the slot that follows is gone
(R519). -/
def takeCheckSlot (c : Fin 8) (s : State) : State :=
  let s := repeatSamples c 1 s
  if streamSlot c s then onConv c (fun x => { x with line := { x.line with taken := x.line.taken + 1 } }) s else s

end Sys2Proof.Machine
end

