-- ==== Sys2Proof/Machine/Samples.lean ====
section
/-! DEFINITION. A quarter-nanosecond of the sample path: four ADC samples and one container of each RX port (R240 to R249), the tile queues (R28 to
R31, R268, R269), one container of each slice path (R280, R281), and one container and eight DAC codes of each TX port (R254 to R258). -/
namespace Sys2Proof.Machine
open Sys2Proof

/-! ### Lengths of the fixed latencies, in quarter-nanoseconds -/

/-- A container stands in a tile queue for 12.8 ns (R29), held here as 52 quarter-nanoseconds; the rest of the 32 ns that the queue and the
transport take together (R303) follows in the transport. -/
abbrev queueTime : Nat := 52

/-- The transport between a tile and an engine, less what its queue was held too long (R303). -/
abbrev transportTime : Nat := 76

/-- A DDC container waits in the pipe from the quarter-nanosecond in which its last ADC sample is taken, 17 after its own instant, until 24 ns after
that instant (R241, R263). -/
abbrev ddcWait : Nat := 79

/-- A DUC's codes wait from the computation until 28 ns after their container left the queue (R241, R263). -/
abbrev ducWait : Nat := 695

/-! ### The down-converter (R240 to R249) -/

/-- Do the clocks of a port's tile run (R196)? -/
def tileRuns (m : Fin 32) (s : State) : Bool := (s.tiles.tile[tileOf m]).state == .synthOn

/-- Is a converter clocked: its port in SynthOn or above (R196)? -/
def clocked (r : Radio) : Bool := r.state == .synthOn || r.state == .active

/-- An ADC code: samples beyond full scale saturate at the extreme codes (R162). -/
def adcCode (m : Fin 32) (i : Nat) : Int := satWord 14 (adcSample m i)

/-- The four ADC codes of a quarter-nanosecond. -/
def adcCodes (m : Fin 32) (mono : Nat) : List Int := (List.range 4).map fun i => adcCode m (4 * mono + i)

/-- A magnitude as TILE_RX_STATUS.peak holds it (R195): the least number of tenths of a decibel below full scale, at most 255, that it reaches. -/
def peakCode (mag : Nat) : Nat := ((List.range 255).find? fun x => decide (8192 ^ 200 ≤ mag ^ 200 * 10 ^ x)).getD 255

/-- Is the DC estimate of a port frozen (R249)? -/
def dcFrozen (m : Fin 32) (s : State) : Bool :=
  (s.dfe.ddc[m]).dcFreeze || (s.tiles.rx[m]).radio.state != .active || (s.tdd.pairs[m]).transmitting || rxBlanked m s

/-- The estimate after a tile digital cycle whose sixteen samples sum to `sum` (R248), in units of 2^-30: the part of the update below one unit is
rounded one way or the other. -/
def dcUpdate (k : Nat) (d sum : Int) : Int := d + eitherWay (sum * 2 ^ 30 - 16 * d) (2 ^ k) (freeDcRound d sum)

/-- The output of HB_F as a container, and whether it saturates (R240 steps 6 to 8). -/
def ddcContainer (v : Sample) : Container × Bool :=
  match v with
  | none => (.poisoned, false)
  | some v =>
    let i := roundEven (2 * v.re) 4
    let q := roundEven (2 * v.im) 4
    (.valid (satWord 14 i) (satWord 14 q), satWord 14 i != i || satWord 14 q != q)

/-- Q negated for a port of the second range (R244). -/
def correctZone (zone : Bool) (v : Cplx) : Cplx := if zone then ⟨v.re, satWord 18 (-v.im)⟩ else v

/-- One ADC code through the mix, the zone correction and the half-band stages (R240 steps 2 to 5). -/
def ddcStep (word : Nat) (zone : Bool) (t : Nat × List (List Sample) × Option (Nat × Sample)) (y : Int × Nat) :
    Nat × List (List Sample) × Option (Nat × Sample) :=
  let v := correctZone zone (mixReal y.1 (ncoWord t.1))
  let r := decimate (chainHalves 2) t.2.1 (y.2, some v)
  ((t.1 + word) % 2 ^ 48, r.1, r.2.or t.2.2)

/-- A word enters a delay line of a length; what leaves it, when it is full. -/
def shift {α : Type} (n : Nat) (l : List α) (x : Option α) : List α × Option α :=
  let l := l ++ x.toList
  if n < l.length then (l.tail, l.head?) else (l, none)

/-- A container leaves the DDC's pipe, passes the tile queue and the transport, and its check is tested as it leaves the queue (R261, R268, R28): the
line, and whether the check failed. -/
def rxCarry (mono : Nat) (w : Option Nat) (x : RxLine) : RxLine × Bool :=
  let p := shift ddcWait x.pipe w
  let r := p.2.map fun w => if inRun x.bad (mono - 96) then 0xF else w
  let q := shift queueTime x.queue (if x.opened then r else none)
  let wrong := q.2.any residueWrong
  let o := shift transportTime x.wait (q.2.map fun w => containerWord (containerOf w))
  ({ x with pipe := p.1, queue := q.1, wait := o.1, out := (o.2.map containerOf).getD .poisoned, bad := laterRuns x.bad (mono - 96) }, wrong)

/-- A quarter-nanosecond whose samples reach ovr_thresh, or do not (R162): at the end of a microsecond its run is carried on or ends. -/
def hearLoud (mono : Nat) (now : Bool) (x : RxLine) : RxLine :=
  let loud := x.loud || now
  if mono % 4000 = 3999 then { x with loud := false, loudRun := if loud then x.loudRun + 1 else 0 } else { x with loud := loud }

/-- A quarter-nanosecond of an RX port. While its ADC has no clock, its samples are missing (R14). -/
def rxQuarter (s : State) (m : Fin 32) : Ddc × RxLine × Bool :=
  let mono := s.time.mono
  let c := s.dfe.ddc[m]
  let x := s.sig.rx[m]
  if !tileRuns m s then (c, { x with out := .poisoned, loud := false, loudRun := 0 }, false)
  else if !clocked (s.tiles.rx[m]).radio then (c, rxCarry mono (some 0xF) { x with loud := false, loudRun := 0 })
  else
    let codes := adcCodes m mono
    let ys := codes.map fun v => if c.dcEnable then satWord 14 (v - roundEven c.estimate 30) else v
    let sum := codes.foldl (· + ·) x.cycle
    let ends := mono % 4 == 3
    let r := (ys.zipIdx (4 * mono)).foldl (ddcStep c.word c.zone) (x.acc, x.stages, none)
    let y := r.2.2.map fun n => ddcContainer n.2
    let t := rxCarry mono (y.map fun n => containerWord n.1)
      { hearLoud mono (decide (peakCode (codes.foldl (fun t v => max t v.natAbs) 0) ≤ (s.tiles.rx[m]).ovrThresh)) x with
        acc := r.1, stages := r.2.1, cycle := if ends then 0 else sum }
    let c := { c with
      estimate := if ends && !dcFrozen m s then dcUpdate c.dcShift c.estimate sum else c.estimate
      satCount := if y.any (·.2) then satAdd 16383 c.satCount 1 else c.satCount }
    (c, t)

/-- The highest peak of a port that is clocked (R162, R195): the lower the code, the higher the peak. -/
def holdPeak (s : State) (m : Fin 32) (x : RxPort) : RxPort :=
  if tileRuns m s && clocked x.radio then
    { x with peak := min x.peak (peakCode ((adcCodes m s.time.mono).foldl (fun t v => max t v.natAbs) 0)) }
  else x

/-! ### The chains of a slice path (R280, R281) -/

/-- The slice and the path that a pair of chains belongs to. -/
def chainOwner (i : Fin 512) : SliceId × PathId := (⟨i.val / 2, by omega⟩, if i.val % 2 = 0 then .a else .b)

/-- Do an RX port's samples enter its slices now (R196, R198, R390)? -/
def rxEnters (m : Fin 32) (s : State) : Bool :=
  let x := s.tiles.rx[m]
  x.radio.state == .active && x.due.any fun t => decide (t ≤ s.time.mono)

/-- The container that the slices of an RX port take (R14, R31, R100, R178, R231): poisoned while the tile's queues poison or the port's samples do
not enter its slices, so that they are missing (DEDUCED), and zero while a blanking input holds the port. -/
def rxInput (m : Fin 32) (y : Container) (s : State) : Container :=
  let t := s.tiles.tile[tileOf m]
  if t.state != .synthOn || t.poisoned || (s.dfe.queue[m]).rxError || !rxEnters m s then .poisoned
  else if rxBlanked m s then .valid 0 0
  else y

/-- The phase of a slice NCO of a frequency word (R247, R281): at every epoch strobe word × 128 × n, and word more with every sample. -/
def slicePhase (word : Nat) (s : State) : Nat := word * (s.sig.strobe + (s.time.mono - s.sig.since)) % 2 ^ 48

/-- The frequency word of the slice mix between a slice and a port, 0 for a port that is tuned nowhere (R281, R691). -/
def mixWordOf (d : SliceDef) (port : Option Nat) : Nat := (port.map (sliceMixWord d.centre)).getD 0

/-- The container of an RX port enters a path: slice mix in and decimation chain (R280 steps 1 and 2). Its sample was taken 56 ns ago (R241,
R303). -/
def chainTake (d : SliceDef) (m : Fin 32) (s : State) (x : Chain) : Chain :=
  let n := ncoWord (slicePhase (mixWordOf d s.dfe.rxCentre[m]) s)
  let r := decimate (chainHalves d.k) x.down (s.time.mono - 224, mixIn n (rxInput m (s.sig.rx[m]).out s))
  let y := r.2.map fun v => (v.1, released x.badDown v.1 v.2)
  { x with down := r.1, taken := x.taken ++ y.toList, badDown := match r.2 with
      | some v => laterRuns x.badDown v.1
      | none => x.badDown }

/-- The container that a path gives to the DUC of its sink now: slice mix out (R280 step 9), poisoned where it is missing (R14), and zero until the
definition's first one (R295). -/
def chainGive (d : SliceDef) (m : Fin 32) (s : State) (x : Chain) : Chain :=
  let mono := s.time.mono
  let sent := x.sent.drop (mono - x.due)
  if x.fresh then { x with out := .valid 0 0 }
  else if mono < x.due then { x with out := .poisoned }
  else
    let v := released x.badUp mono (sampleAt sent 0)
    { x with
      out := mixOut (ncoWord (slicePhase (mixWordOf d s.dfe.txCentre[m]) s)) v, sent := sent.tail, due := mono + 1
      badUp := laterRuns x.badUp mono }

/-- A quarter-nanosecond of the chains of a path. -/
def chainQuarter (s : State) (i : Fin 512) (x : Chain) : Chain :=
  let o := chainOwner i
  match liveDef o.1 s with
  | none => x
  | some d =>
    if !(pathsOf d).contains o.2 then x
    else
      let x := match rxOf (srcOf d o.2) with
        | some m => chainTake d m s x
        | none => x
      match txOf (sinkOf d o.2) with
      | some m => chainGive d m s x
      | none => x

/-! ### The up-converter (R254 to R258) -/

/-- One chain's delay g in units of 0.025 ns (R302). -/
def chainDelay (k : Nat) : Nat := (List.range k).foldl (fun g j => g + halfBand k j * 10 * 2 ^ j + 64) 0

/-- Two containers of one stream: a TDD slice whose two paths share a sink gives the sum. -/
def addContainers : Container → Container → Container
  | .valid i q, .valid j r => .valid (satWord 14 (i + j)) (satWord 14 (q + r))
  | _, _ => .poisoned

/-- The containers that the slice streams of a TX port give now, in the order of the slices, with their slice-output instants: the interpolation
chain, its check allowance and the mix out lie between (R268, R303). -/
def portStreams (m : Fin 32) (s : State) : List StreamWord :=
  (indices 256).filterMap fun sl => match liveDef sl s with
    | none => none
    | some d =>
      let one (p : PathId) : Container := (s.sig.path[(⟨2 * sl.val + (if p = .a then 0 else 1), by split <;> omega⟩ : Fin 512)]).out
      match (pathsOf d).filter fun p => txOf (sinkOf d p) == some m with
      | [] => none
      | p :: l =>
        some { word := containerWord (l.foldl (fun c p => addContainers c (one p)) (one p))
               made := s.time.mono - (chainDelay d.k + 576) / 10 }

/-- The sum of a port's streams (R15, R254, R258, R261): poisoned containers count zero. The sum, whether it saturates, how many are poisoned, and
whether a check failed. -/
def ducSum (error : Bool) (l : List StreamWord) : Cplx × Bool × Nat × Bool :=
  let cs := l.map fun x => if error then .poisoned else containerOf x.word
  let t : Cplx := cs.foldl (fun t c => ⟨t.re + 16 * contI c, t.im + 16 * contQ c⟩) ⟨0, 0⟩
  (sat18 t, sat18 t != t, (cs.filter contBad).length, l.any fun x => residueWrong x.word)

/-- The port gain in Q2.16, and whether it saturates (R256, R258). -/
def portGain (g : Nat) (v : Cplx) : Cplx × Bool :=
  let y : Cplx := ⟨roundEven (v.re * g) 16, roundEven (v.im * g) 16⟩
  (sat18 y, sat18 y != y)

/-- The droop equaliser over its last 15 inputs (R257): the complex taps of the set in use, or the centre tap only. -/
def droopOut (c : Duc) (h : List Sample) : Sample :=
  if !c.droopComp then sampleAt h 7
  else
    let t := h.zipIdx.foldl (fun (t : Cplx) x =>
      let v := valueOf x.1
      let a := droopTap c.droopEntry x.2 true
      let b := droopTap c.droopEntry x.2 false
      ⟨t.re + v.re * a - v.im * b, t.im + v.re * b + v.im * a⟩) ⟨0, 0⟩
    (sampleAt h 7).map fun _ => round18 17 t

/-- One sample at 32 GS/s through the mix, the real part and the rounding to a DAC code (R254 steps 7 to 9, R258): the accumulator, the codes, and
how many saturate. The number of the sample says which frequency word the accumulator then adds (R245). -/
def ducStep (word : Nat → Nat) (t : Nat × List Int × Nat) (x : Nat × Sample) : Nat × List Int × Nat :=
  let y := roundEven (mixUp (valueOf x.2) (ncoWord t.1)) 21
  ((t.1 + word x.1) % 2 ^ 48, t.2.1 ++ [satWord 14 y], if satWord 14 y = y then t.2.2 else t.2.2 + 1)

/-- Where a ramp stands at a monotonic count, in parts of 2^-32 of its length. -/
def rampAt (mono : Nat) (r : Ramp) : Nat :=
  let moved := (mono - r.start) * 2 ^ 32 / max 1 r.length
  if r.up then min (2 ^ 32) (r.base + moved) else r.base - moved

/-- The DUC's new frequency word begins with the first container of slice-output instant T or later (R245). -/
def ducRetune (mono : Nat) (l : List StreamWord) (x : TxLine) : TxLine :=
  match x.change, x.after with
  | some (_, t), none => if l.any fun c => decide (t ≤ c.made) then { x with after := some (8 * mono) } else x
  | _, _ => x

/-- The word that a DAC sample's NCO step takes. -/
def ducWordAt (x : TxLine) (n : Nat) : Nat :=
  match x.change, x.after with
  | some (w, _), some a => if a ≤ n then w else x.word
  | _, _ => x.word

/-- A new word that every further sample takes is the word. -/
def ducSettle (n : Nat) (x : TxLine) : TxLine :=
  match x.change, x.after with
  | some (w, _), some a => if a ≤ n then { x with word := w, change := none, after := none } else x
  | _, _ => x

/-- A quarter-nanosecond of a TX port, with whether a check failed and how many saturations there were: the streams' containers pass the transport
and the tile queue into the sum, and eight DAC codes leave through the ramp (R164, R254, R268). -/
def txQuarter (s : State) (m : Fin 32) : Duc × TxLine × Bool × Nat :=
  let mono := s.time.mono
  let c := s.dfe.duc[m]
  let x := s.sig.tx[m]
  if !tileRuns m s then (c, { x with codes := [] }, false, 0)
  else
    let w := shift transportTime x.wait (some (portStreams m s))
    let q := shift queueTime x.queue (if x.opened then w.2 else none)
    let l := q.2.getD []
    let sum := ducSum (s.dfe.queue[m]).txError l
    let g := portGain c.gain sum.1
    let droop := (some g.1 :: x.droop).take 15
    let up := interpolate (chainHalves 3).reverse x.stages (mono - 7, droopOut c droop)
    let x := ducRetune mono l x
    let r := up.2.foldl (ducStep (ducWordAt x)) (x.acc, [], 0)
    let pipe := x.pipe ++ r.2.1
    let full := decide (ducWait < pipe.length)
    let gain := rampWord (rampAt mono (s.tiles.tx[m]).drive.ramp) (2 ^ 32)
    let first := 8 * (mono - 112)
    let passed := (pipe.take 8).zipIdx.map fun y => if inRun x.bad (first + y.2) then 0 else roundEven (y.1 * gain) 16
    let codes := if !clocked (s.tiles.tx[m]).radio then [] else if full then passed else List.replicate 8 0
    let x := ducSettle ((up.2.map (·.1)).headD 0)
      { x with
        acc := r.1, wait := w.1, queue := q.1, droop := droop, stages := up.1, pipe := if full then pipe.drop 8 else pipe, codes := codes
        power := x.power + cNorm sum.1, summed := x.summed + 1, bad := laterRuns x.bad first }
    let sats := bit sum.2.1 + bit g.2 + r.2.2
    let c := { c with satCount := satAdd 65535 c.satCount sats, poisonedCount := satAdd 65535 c.poisonedCount sum.2.2.1 }
    (c, x, sum.2.2.2, sats)

/-! ### Strobes (R27, R28, R247, R269) -/

/-- An epoch strobe at an RX line: a STATION accumulator takes its value, and the queue of a tile in SynthOn begins to fill. -/
def rxStrobe (s : State) (m : Fin 32) (x : RxLine) : RxLine :=
  let c := s.dfe.ddc[m]
  { x with
    acc := if c.station then c.word * 512 * (s.time.q / 128) % 2 ^ 48 else x.acc, counted := x.counted || x.opened
    opened := x.opened || tileRuns m s }

/-- An epoch strobe at a TX line. -/
def txStrobe (s : State) (m : Fin 32) (x : TxLine) : TxLine :=
  { x with
    acc := if (s.dfe.duc[m]).station then x.word * 1024 * (s.time.q / 128) % 2 ^ 48 else x.acc, counted := x.counted || x.opened
    opened := x.opened || tileRuns m s }

/-- The entries that a number of containers or columns takes: four to an entry (R268). -/
def queueEntries (n : Nat) : Nat := (n + 3) / 4

/-- The occupancies at a strobe; the first strobe after the alignment records the aligned values (R269). -/
def queueStrobe (s : State) (m : Fin 32) (x : Queue) : Queue :=
  let r := s.sig.rx[m]
  let t := s.sig.tx[m]
  let x := if r.opened then
      { x with rxOcc := queueEntries r.queue.length, rxAligned := if r.counted then x.rxAligned else queueEntries r.queue.length } else x
  if t.opened then
    { x with txOcc := queueEntries t.queue.length, txAligned := if t.counted then x.txAligned else queueEntries t.queue.length } else x

/-- An epoch strobe. -/
def strobe (s : State) : State :=
  { s with
    dfe := { s.dfe with queue := updAll s.dfe.queue (queueStrobe s) }
    sig := { s.sig with
      rx := updAll s.sig.rx (rxStrobe s), tx := updAll s.sig.tx (txStrobe s), strobe := s.time.q, since := s.time.mono } }

/-! ### Everything -/

/-- The RX ports. -/
def rxQuarters (s : State) : State :=
  let v : Vector (Ddc × RxLine × Bool) 32 := Vector.ofFn fun m => rxQuarter s m
  { s with
    dfe := { s.dfe with ddc := v.map (·.1), wrong := updAll s.dfe.wrong fun m b => (b.1 || (v[m]).2.2, b.2) }
    sig := { s.sig with rx := v.map (·.2.1) }
    tiles := { s.tiles with rx := updAll s.tiles.rx (holdPeak s) } }

/-- The slice paths. -/
def chainQuarters (s : State) : State := { s with sig := { s.sig with path := updAll s.sig.path (chainQuarter s) } }

/-- The saturations of the DUCs are counted (R258, R609). -/
def countSaturations (n : Vector Nat 32) (s : State) : State :=
  (indices 32).foldl (fun (s : State) (m : Fin 32) => if n[m] = 0 then s else pulse 0x0700 (target .txPort m) n[m] s) s

/-- The TX ports. -/
def txQuarters (s : State) : State :=
  let v : Vector (Duc × TxLine × Bool × Nat) 32 := Vector.ofFn fun m => txQuarter s m
  countSaturations (v.map (·.2.2.2)) { s with
    dfe := { s.dfe with duc := v.map (·.1), wrong := updAll s.dfe.wrong fun m b => (b.1, b.2 || (v[m]).2.2.1) }
    sig := { s.sig with tx := v.map (·.2.1) } }

/-- Is no tile in SynthOn, so that no converter is clocked, and does no monitor converter stream? -/
def converterless (s : State) : Bool := (allOf s.tiles.tile fun t => t.state != .synthOn) && streamless s

/-- An epoch strobe, when one falls now. -/
def strobeDue (s : State) : State := if s.time.q % 128 = 0 then strobe s else s

/-- The monitor converters' slots, when they begin now. -/
def slotsDue (s : State) : State := if s.time.mono % 400 = 0 then monitorSlots s else s

/-- The samples of the quarter-nanosecond that begins now. -/
def sampleQuarter (s : State) : State := txQuarters (chainQuarters (rxQuarters (slotsDue (strobeDue s))))

/-- One quarter-nanosecond passes. -/
def passQuarter (s : State) : State :=
  let s := sampleQuarter s
  { s with time := { s.time with q := s.time.q + 1, mono := s.time.mono + 1 } }

/-- A number of quarter-nanoseconds pass. -/
def passQuarters : Nat → State → State
  | 0, s => s
  | n + 1, s => passQuarters n (passQuarter s)

end Sys2Proof.Machine
end

