-- ==== Sys2Proof/Machine/Ops.lean ====
section
/-! DEFINITION. The shared operations: passing time, signalling vectors, and completing commands. Every command meaning is written over these
and those of `Machine/Events.lean`. -/
namespace Sys2Proof.Machine
open Sys2Proof

/-! ### Passing time -/

/-- Time passes by `dq` quarter-nanoseconds (R25), and with it the samples in flight. -/
def elapse (dq : Nat) (s : State) : State :=
  if converterless s then { s with time := { s.time with q := s.time.q + dq, mono := s.time.mono + dq } } else passQuarters dq s

/-- Time passes until station time is at least `t`. DESIGN CHOICE: an event that names its instant brings the clock there. -/
def advanceTo (t : Nat) (s : State) : State := elapse (t - s.time.q) s

/-- Time passes until the monotonic count is at least `m`: the instant of an event that a dwell or a timer fixes. -/
def advanceMono (m : Nat) (s : State) : State := elapse (m - s.time.mono) s

/-! ### Interrupts (R84 to R87) -/

/-- Does a function write nothing to host memory (R42)? -/
def inD3hot (fn : Fn) (s : State) : Bool := (s.hif.fns[fn]).d3hot

/-- A vector signals: it sends its message, or sets its pending bit while it is masked (R86); its moderation starts anew. DESIGN CHOICE: it
does so while it is masked too, and a function in D3hot, whose messages R42 forbids, counts as one whose vectors are masked. -/
def signalVector (fn : Fn) (v : Fin 64) (s : State) : State :=
  let x := (s.hif.fns[fn]).vecs[v]
  let quiet := x.masked || inD3hot fn s
  let x' : Vec := { x with entries := 0, running := false, pending := x.pending || quiet }
  let s := { s with hif := { s.hif with fns := upd s.hif.fns fn fun f => { f with vecs := f.vecs.set v x' } } }
  if quiet then s else emit (.msi fn v) s

/-- The vectors a function has: 64 on PF0 and 4 on each VF (R39). -/
def vectorCount (fn : Fn) : Nat := if fn = 0 then 64 else 4

/-- A vector by number, when the function has it. -/
def vectorOf (fn : Fn) (v : Nat) : Option (Fin 64) := if v < vectorCount fn then finOf 64 v else none

/-- An entry is written under a vector (R85), with irq_now or not. -/
def countEntry (fn : Fn) (v : Nat) (now : Bool) (s : State) : State :=
  match vectorOf fn v with
  | none => s
  | some v =>
    let x := (s.hif.fns[fn]).vecs[v]
    if now || max 1 x.count ≤ x.entries + 1 then signalVector fn v s
    else
      { s with hif := { s.hif with fns := upd s.hif.fns fn fun f =>
          { f with vecs := f.vecs.set v { x with
              entries := x.entries + 1, running := x.timer != 0, since := if x.entries = 0 then s.time.mono else x.since } } } }

/-- A vector by number signals at once. -/
def signalNumber (fn : Fn) (v : Nat) (s : State) : State :=
  match vectorOf fn v with
  | none => s
  | some v => signalVector fn v s

/-! ### Rings (R51 to R63, R91, R92) -/

/-- A change of one ring pair. -/
def onRing (r : RingId) (f : Ring → Ring) (s : State) : State :=
  { s with hif := { s.hif with rings := upd s.hif.rings r f } }

/-- The error code of R92. -/
def ringErrorCode : RingError → Nat
  | .none => 0 | .dbOverrun => 1 | .fetchError => 2 | .cplWriteError => 3 | .badConfig => 4

/-- Any ring enters Error (R92): source 0 names the ring (0 to 63 pairs, 64 event, 65 to 72 capture) and the code; the
ring's vector and vector 0 of its function signal (R85, R87). -/
def ringErrorEvent (inst : Nat) (e : RingError) (fn : Fn) (v : Nat) (s : State) : State :=
  let s := raise 0 0 (inst + 256 * ringErrorCode e) s
  let s := signalNumber fn v s
  if v = 0 then s else signalNumber fn 0 s

/-- A ring pair enters Error (R92). -/
def ringFail (r : RingId) (e : RingError) (s : State) : State :=
  let x := s.hif.rings[r]
  ringErrorEvent r e x.owner x.vector (onRing r (fun x => { x with state := .error, error := e }) s)

/-- An entry takes the write slot of a completion ring: the producer index moves on and the phase inverts at slot 0
(R51, R57). -/
def takeSlot (x : Ring) : Ring :=
  { x with cplPI := x.cplPI + 1
           phase := if (x.cplPI + 1).toNat % 2 ^ x.cplLog2 = 0 then !x.phase else x.phase }

/-- The address of the slot that the next completion takes (R51): slot i mod ring size, 16 bytes each (R56). -/
def completionSlot (x : Ring) : Nat := x.cplBase + x.cplPI.toNat % 2 ^ x.cplLog2 * 16

/-- The address of the descriptor that the command consumer index names (R51): slot i mod ring size, 64 bytes each (R64). -/
def commandSlot (x : Ring) : Nat := x.cmdBase + x.cmdCI.toNat % 2 ^ x.cmdLog2 * 64

/-- A marker completion with the epoch of now and a high sequence half (R60). -/
def putMarker (r : RingId) (hi : Nat) (s : State) : State :=
  let x := s.hif.rings[r]
  let s := emit (.marker r (completionSlot x) x.phase hi s.time.epoch) s
  pulse 0x0501 0 1 (onRing r (fun x => { takeSlot x with marker := some (s.time.epoch, hi) }) s)

/-- The two indices go out (R93). -/
def sendIndices (r : RingId) (s : State) : State :=
  let x := s.hif.rings[r]
  emit (.writeBack r x.wb x.cmdCI.toNat x.cplPI.toNat) (onRing r (fun x => { x with wbDue := false, wbAt := some s.time.mono }) s)

/-- May a ring pair write its indices back now (R42, R93): at most once every 250 ns? -/
def mayWriteBack (x : Ring) (s : State) : Bool :=
  x.state == .running && !inD3hot x.owner s && (x.wbAt.all fun at' => at' + 1000 ≤ s.time.mono)

/-- The two indices have changed: they are written back, at once or as soon as 250 ns have passed, unless the write-back address is 0
(R93). -/
def writeBack (r : RingId) (s : State) : State :=
  let x := s.hif.rings[r]
  if x.wb = 0 then s
  else if mayWriteBack x s then sendIndices r s
  else onRing r (fun x => { x with wbDue := true }) s

/-- A marker completion with the latest epoch and high sequence half (R60). -/
def writeMarker (r : RingId) (s : State) : State := writeBack r (putMarker r (s.evr.seqNext / 2 ^ 32) s)

/-- A completion numbered `seq` is written to a running ring, a marker first when one is due (R56 to R60, R85). -/
def writeCompletion (iss : Issue) (st : Status) (seq stamp : Nat) (s : State) : State :=
  let hi := seq / 2 ^ 32
  let s := if (s.hif.rings[iss.ring]).marker = some (s.time.epoch, hi) then s else putMarker iss.ring hi s
  let x := s.hif.rings[iss.ring]
  let s := emit (.completion iss.ring (completionSlot x) iss.tag st x.phase (seq % 2 ^ 32) stamp) s
  let s := pulse 0x0501 0 1 (onRing iss.ring takeSlot s)
  countEntry x.owner x.vector iss.irqNow (writeBack iss.ring s)

/-- A command leaves the ring's count of commands in flight. -/
def leaveFlight (iss : Issue) (s : State) : State :=
  onRing iss.ring (fun x =>
    if x.era = iss.era then { x with inFlight := x.inFlight - 1, started := x.started - 1 } else x) s

/-- Is a completion of this command still written (R91, R92, R99)? DESIGN CHOICE: one that comes while its function is in D3hot, which writes
nothing to host memory (R42), is not written and takes no slot. -/
def answers (iss : Issue) (s : State) : Bool :=
  let x := s.hif.rings[iss.ring]
  x.state == .running && x.era == iss.era && !inD3hot x.owner s

/-- A command completes at an instant of stamp `stamp`: its completion takes the next number (R36, R598) and is written
when its ring still runs; a refusal also publishes a COMMAND_DETAIL record that carries the same number (R62). -/
def completeAt (stamp : Nat) (iss : Issue) (r : Refuse) (s : State) : State :=
  let seq := s.evr.seqNext
  let epoch := s.time.epoch
  let s := { s with evr := { s.evr with seqNext := (seq + 1) % 2 ^ 64 } }
  let s := leaveFlight iss s
  let s := if answers iss s then writeCompletion iss r.status seq stamp s else s
  if r.status = .ok ∨ r.status = .superseded then s
  else record (.commandDetail iss.fn iss.ring iss.tag.toNat iss.opcode.toNat (statusCode r.status) r.offset r.resource)
    stamp epoch (some seq) s

/-- A command is refused now (R59, R62). -/
def refuse (iss : Issue) (r : Refuse) (s : State) : State := completeAt s.stamp iss r s

/-- A command completes now with a status that names no resource. -/
def complete (iss : Issue) (st : Status) (s : State) : State := completeAt s.stamp iss (refusal st) s

/-- Some command that waits completes now, when there is one. -/
def completeOpt (iss : Option Issue) (st : Status) (s : State) : State :=
  match iss with
  | some i => complete i st s
  | none => s

/-- The order in which completions of one instant take their numbers (R598): by function, then by ring pair. -/
def issueBefore (a b : Issue) : Bool := a.fn < b.fn || (a.fn == b.fn && decide (a.ring ≤ b.ring))

/-- Every command of a list completes now with the same status: by function, then by ring pair, then in the order of the list (R598). -/
def completeAll (l : List Issue) (st : Status) (s : State) : State := (sortBy issueBefore l).foldl (fun s i => complete i st s) s

end Sys2Proof.Machine
end

