-- ==== Sys2Proof/Machine/HostCommand.lean ====
section
/-! DEFINITION. What every host command has in common: the fence (R66), the checks of R71 that come before the opcode's own,
and the tenants' limits (R88). -/
namespace Sys2Proof.Machine
open Sys2Proof

/-- The opcodes a tenant function may issue (R88): NOP, SLICE_SET, SLICE_GAIN, SLICE_MUTE, SLICE_DELETE, CANCEL_CTL, CAPTURE. -/
def tenantOpcode (op : Nat) : Bool :=
  op == 0x01 || op == 0x18 || op == 0x19 || op == 0x1A || op == 0x1B || op == 0x1C || op == 0x48

/-- Is a slice in a function's slice group (R690)? A slice that no entry names belongs to PF0's group. -/
def inGroup (fn : Fn) (sl : Fin 256) (s : State) : Bool :=
  if fn = 0 then !(anyOf s.cfg.tenants fun t => t.group.getLsbD sl)
  else (s.cfg.tenants[fn]).group.getLsbD sl

/-- Step 3 of R71: what a tenant function may not do. A slice opcode needs a slice of the function's group as target;
the capture ring of a CAPTURE is checked by that command. -/
def tenantCheck (op : Nat) (fn : Fn) (d : Desc) (s : State) : Option Refuse :=
  if fn = 0 then none
  else if !tenantOpcode op then some { status := .denied, offset := 0, resource := 0 }
  else if op = 0x01 then none
  else match d.unit .slice 256 with
    | none => some (refuseTarget .denied d.tgt)
    | some sl => if inGroup fn sl s then none else some (refuseTarget .denied d.tgt)

/-- Is the indirect buffer consistent with R65, and the length zero without one (R64)? -/
def bufferCheck (d : Desc) : Option Refuse :=
  if d.indirect then
    if d.length.toNat = 0 ∨ 2 ^ 24 < d.length.toNat then some (badParam 4)
    else if d.u 12 8 % 64 ≠ 0 then some (badParam 12)
    else none
  else if d.length ≠ 0 then some (badParam 4) else none

/-- Steps 1 to 3 of R71; in RECOVERY the same two opcodes remain as in the fatal state (R106). -/
def preCheck (op : Nat) (fn : Fn) (d : Desc) (s : State) : Option Refuse :=
  if (s.flt.fatal || s.boot.stage == .recovery) && op != 0x01 && op != 0x68 then some (refusal .fatalState)
  else if d.flags.toNat / 8 ≠ 0 then some (badParam 1)
  else match bufferCheck d with
    | some r => some r
    | none => tenantCheck op fn d s

/-- Does a command wait behind a fence (R66): its own while earlier commands of the ring have not completed, or that of a
held command of its ring? -/
def mustHold (d : Desc) (heldOfRing : Bool) (s : State) : Bool :=
  heldOfRing || (d.fence && (s.hif.rings[d.ring]).started != 0)

/-- The identity under which a command is answered. -/
def issueOf (op : Nat) (d : Desc) (s : State) : Issue :=
  let r := s.hif.rings[d.ring]
  { ring := d.ring, tag := d.tag, opcode := BitVec.ofNat 8 op, fn := r.owner, irqNow := d.irqNow, era := r.era }

/-- A command starts: it is in flight and counts among its ring's started commands. -/
def startCommand (d : Desc) (s : State) : State :=
  onRing d.ring (fun x => { x with started := x.started + 1, inFlight := x.inFlight + 1 }) s

/-- A command that has been fetched waits until it may start (R66): it is in flight. -/
def holdCommand (d : Desc) (self : Instr) (s : State) : State :=
  onRing d.ring (fun x => { x with inFlight := x.inFlight + 1 }) { s with held := s.held ++ [(d.ring, d.fence, self)] }

/-- A host command: held behind a fence, refused by the first failing check, or run. `self` is the command as it stands
in the queue, and `body` its steps 4 to 6. DESIGN CHOICE: a command that the environment puts into the queue itself counts as fetched there. -/
def hostCommand (op : Nat) (self : Instr) (d : Desc) (body : Issue → State → State) (s : State) : State :=
  if mustHold d (s.held.any fun h => h.1 == d.ring) s then holdCommand d self s
  else
    let iss := issueOf op d s
    let s := startCommand d s
    match preCheck op iss.fn d s with
    | some r => refuse iss r s
    | none => body iss s

/-- A read of the indirect buffer gave an error (R71): BAD_PARAM at the address, an AER error of the function and source 2. -/
def bufferError (iss : Issue) (s : State) : State :=
  let s := { s with hif := { s.hif with fns := upd s.hif.fns iss.fn fun f => { f with aerUncor := true } } }
  refuse iss (badParam 12) (raise 2 0 0 s)

end Sys2Proof.Machine
end

