-- ==== Sys2Proof/Machine/HostInterface.lean ====
section
/-! DEFINITION. The host interface: the PCIe link, functions, rings, doorbells, interrupts and NOP (R39 to R93, R689). -/
namespace Sys2Proof.Machine
open Sys2Proof

/-- A change of one function. -/
def onFn (fn : Fn) (f : Func → Func) (s : State) : State := onHif (fun h => { h with fns := upd h.fns fn f }) s

/-- Does a function exist (R41)? PF0 always; VFn while VF Enable is set and n is at most NumVFs. -/
def fnExists (fn : Fn) (s : State) : Bool := fn == 0 || (s.hif.vfEnable && fn.val ≤ s.hif.numVFs)

/-- The size of a BAR of a function (R43), 0 for one that it has not. -/
def barSize (fn : Fn) (i : Fin 3) : Nat :=
  if fn = 0 then (if i = 0 then 0x1000000 else if i = 1 then 0x100000 else 0x10000)
  else if i = 0 then 0x10000 else if i = 1 then 0x20000 else 0

/-- Are all BARs of a function assigned (R45)? -/
def barsAssigned (fn : Fn) (s : State) : Bool :=
  (indices 3).all fun i => barSize fn i == 0 || ((s.hif.fns[fn]).bars[i]).isSome

/-- A memory request to a function (R45): none is received while PERST_L is low; it is an Unsupported Request to a function that does not
exist, whose BARs are not assigned or whose Memory Space Enable is clear; otherwise it has its effect. -/
def viaBar (fn : Fn) (f : State → State) (s : State) : State :=
  if s.hif.perstLow then s
  else if fnExists fn s && barsAssigned fn s && (s.hif.fns[fn]).memSpace then f s
  else emit (.unsupported fn) s

/-- A BAR access that is not permitted (R45): HIF_ACCESS_DROP counts it, source 5 reports it. -/
def dropAccess (fn : Fn) (s : State) : State :=
  raise 5 0 0 (onFn fn (fun f => { f with accessDrop := satAdd 0xFFFFFFFF f.accessDrop 1 }) s)

/-- A doorbell is discarded and counted (R47). -/
def dropDoorbell (fn : Fn) (s : State) : State :=
  raise 5 0 0 (onFn fn (fun f => { f with dbDrop := satAdd 0xFFFFFFFF f.dbDrop 1 }) s)

/-- A ring pair goes to Disabled by other means than a host write (R91): enable is cleared, and the completions of its
commands in flight are discarded because its era has ended. -/
def disablePair (x : Ring) : Ring :=
  { x with enable := false, state := .disabled, error := .none, inFlight := 0, started := 0, marker := none,
           era := x.era + 1 }

/-- A ring pair at the reset of its owner: its registers take their reset values, but for the owner itself. -/
def resetPair (x : Ring) : Ring := { ringReset with owner := x.owner, era := x.era + 1 }

/-- The event ring goes to Disabled (R91). -/
def disableEvent (x : EventRing) : EventRing := { x with enable := false, state := .disabled, error := .none }

/-- A capture ring goes to Disabled (R91). -/
def disableCap (x : CapRing) : CapRing := { x with enable := false, state := .disabled, error := .none }

/-- The rings of one function go to Disabled, and commands held behind a fence on them are discarded (R91). `whole` also
resets their registers (function-level reset). -/
def disableRings (whole : Bool) (fn : Fn) (s : State) : State :=
  let owned (r : RingId) : Bool := (s.hif.rings[r]).owner == fn
  { s with
    held := s.held.filter fun h => !owned h.1
    hif := { s.hif with
      rings := s.hif.rings.map fun x => if x.owner = fn then (if whole then resetPair x else disablePair x) else x
      evr := if fn = 0 then (if whole then eventRingReset else disableEvent s.hif.evr) else s.hif.evr
      caps := s.hif.caps.map fun x =>
        if x.owner = fn then (if whole then { capRingReset with owner := x.owner } else disableCap x) else x } }

/-- The periodic snapshot ends (R620) and completes nothing: its command completed at the first snapshot. -/
def endSnapshots (s : State) : State := { s with pmc := { s.pmc with periodic := none } }

/-- What PF0 loses with its Bus Master Enable or a reset: the periodic snapshot (R620). -/
def losePf0 (fn : Fn) (s : State) : State := if fn = 0 then endSnapshots s else s

/-- The rings of every function of a list go to Disabled as at a function-level reset (R91, R95). -/
def resetFns (fns : List Fn) (s : State) : State :=
  fns.foldl (fun s fn => onFn fn (fun _ => funcReset) (disableRings true fn s)) s

/-- The seven tenant functions. -/
def vfs : List Fn := [1, 2, 3, 4, 5, 6, 7]

/-- Function-level reset (R91, R95): of PF0 also VF Enable and NumVFs, the dump registration (R590) and the periodic
snapshot (R620). -/
def execFlr (fn : Fn) (s : State) : Host.Outcome State Fault Refusal :=
  if fn = 0 then
    let s := resetFns (0 :: vfs) s
    let s := onHif (fun h => { h with numVFs := 0, vfEnable := false }) s
    .next (endSnapshots { s with flt := { s.flt with dump := { s.flt.dump with registered := none } } })
  else .next (resetFns [fn] s)

/-- PERST_L goes low (R95, R99): the PCIe core, HIF and all functions reset; ring eras end. The repeat continues. -/
def perstReset (s : State) : State :=
  let s := { s with held := [], boot := { s.boot with cause := s.boot.cause ||| 0x20 } }
  let s := { s with hif := { hifReset with rings := s.hif.rings.map fun (x : Ring) => { ringReset with era := x.era + 1 } } }
  endSnapshots { s with flt := { s.flt with dump := { s.flt.dump with registered := none } } }

/-- PERST_ASSERT (R99). -/
def execPerstAssert (s : State) : Host.Outcome State Fault Refusal := .next (perstReset s)

/-- PERST_DEASSERT (R109): the link may train from boot step 7 on. -/
def execPerstDeassert (s : State) : Host.Outcome State Fault Refusal :=
  .next (onHif (fun h => { h with perstLow := false }) s)

/-- Has boot reached step 7 (R104)? -/
def pastFwRun (s : State) : Bool :=
  match s.boot.stage with
  | .reset => false
  | .rom => false
  | .fwVerify => false
  | _ => true

/-- PCIE_LINK_UP (R93, R101, R109): the link reaches L0 once PERST_L is high and boot has passed step 7. -/
def execPcieLinkUp (rate width : Nat) (s : State) : Host.Outcome State Fault Refusal :=
  if s.hif.perstLow || !pastFwRun s || s.boot.heldBy != .nothing then .next s
  else .next (onHif (fun h => { h with linkRate := clampNat 1 4 rate, linkWidth := clampNat 1 16 width }) s)

/-- PCIE_LINK_DOWN (R565): the link leaves L0 without PERST_L. -/
def execPcieLinkDown (s : State) : Host.Outcome State Fault Refusal :=
  .next (raise 3 0 0 (onHif (fun h => { h with linkRate := 0, linkWidth := 0 }) s))

/-- AER_ERROR (R565): a correctable or uncorrectable error is logged and asserts source 1 or 2. -/
def execAerError (fn : Fn) (correctable : Bool) (s : State) : Host.Outcome State Fault Refusal :=
  if correctable then .next (raise 1 0 fn (onFn fn (fun f => { f with aerCor := true }) s))
  else .next (raise 2 0 fn (onFn fn (fun f => { f with aerUncor := true }) s))

/-- UNSUPPORTED_REQUEST (R41, R45). -/
def execUnsupportedRequest (fn : Fn) (s : State) : Host.Outcome State Fault Refusal :=
  if s.hif.perstLow then .next s else .next (emit (.unsupported fn) s)

/-- DOE_DISCOVERY (R39): the mailbox answers with the protocols it supports, DOE Discovery (0) and SPDM (1). PRESUMED: the
two protocol numbers are those PCI-SIG gives them. -/
def execDoeDiscovery (s : State) : Host.Outcome State Fault Refusal :=
  .next (emit (.answer { code := 0, data := [0, 1] }) s)

/-- Bus Master Enable of a function is written (R91): clearing it disables the function's rings. -/
def setBusMaster (fn : Fn) (on : Bool) (s : State) : State :=
  let s := onFn fn (fun f => { f with busMaster := on }) s
  if on then s else losePf0 fn (disableRings false fn s)

/-- The functions that existed before and exist no more after a change of SR-IOV: DESIGN CHOICE, they are reset as at FLR. -/
def dropVfs (before : State) (s : State) : State :=
  resetFns (vfs.filter fun f => fnExists f before && !fnExists f s) s

/-- The vectors of a function whose pending bit is set and whose mask bit is clear send their message when the function leaves D3hot. -/
def sendPending (fn : Fn) (s : State) : State :=
  (indices 64).foldl (fun s (v : Fin 64) =>
    let x := (s.hif.fns[fn]).vecs[v]
    if x.pending && !x.masked then
      emit (.msi fn v) (onFn fn (fun f => { f with vecs := upd f.vecs v fun x => { x with pending := false } }) s)
    else s) s

/-- The value of a configuration field of a function (R39 to R43). PRESUMED (PCI Express): a VF's own vendor and device ID fields read 0xFFFF,
and the VF device ID stands in PF0's SR-IOV capability. -/
def configValue (fn : Fn) (what : CfgField) (s : State) : Nat :=
  let f := s.hif.fns[fn]
  match what with
  | .vendorId => if fn = 0 then vendorId else 0xFFFF
  | .deviceId => if fn = 0 then 0x6144 else 0xFFFF
  | .vfDeviceId => if fn = 0 then 0x6145 else 0
  | .classCode => 0x118000
  | .revision => 0xB0
  | .busMaster => bit f.busMaster
  | .memSpace => bit f.memSpace
  | .d3hot => bit f.d3hot
  | .totalVFs => if fn = 0 then 7 else 0
  | .numVFs => if fn = 0 then s.hif.numVFs else 0
  | .vfEnable => if fn = 0 then bit s.hif.vfEnable else 0
  | .bar i => (f.bars[i]).getD 0
  | .barSize i => barSize fn i
  | .barPrefetchable i => bit (i ≠ 0 ∧ barSize fn i ≠ 0)
  | .maxPayload => f.maxPayload
  | .maxPayloadSupported => 512
  | .maxRead => f.maxRead
  | .tenBitTags => bit f.tenBitTags
  | .ecrcGen => bit f.ecrcGen
  | .ecrcCheck => bit f.ecrcCheck
  | .aspmL1 => bit f.aspmL1
  | .msixVectors => vectorCount fn
  | .aerCor => bit f.aerCor
  | .aerUncor => bit f.aerUncor
  | .doe => bit (fn = 0)
  | .absent _ => 0

/-- A BAR is assigned an address, aligned to its size (R43). -/
def setBar (fn : Fn) (i : Fin 3) (address : Nat) (s : State) : State :=
  if barSize fn i = 0 then s
  else onFn fn (fun f => { f with bars := f.bars.set i (some (address / barSize fn i * barSize fn i)) }) s

/-- A power of two between two limits that a field takes, or its value before (R39). -/
def powerField (lo hi old v : Nat) : Nat := if [128, 256, 512, 1024, 2048, 4096].contains v && lo ≤ v && v ≤ hi then v else old

/-- PCIE_CONFIG_REQUEST (R39 to R43, R91, R106, R109): retried before boot step 7, Unsupported Request to a VF that does not exist. DESIGN
CHOICE: NumVFs holds 7 where a number above 7 is written (R41). -/
def execPcieConfigRequest (fn : Fn) (change : CfgChange) (s : State) : Host.Outcome State Fault Refusal :=
  if s.hif.perstLow then .next s
  else if !pastFwRun s then .next (emit .retry s)
  else if !fnExists fn s || (fn != 0 && s.boot.stage == .recovery) then .next (emit (.unsupported fn) s)
  else .next (match change with
    | .nothing => s
    | .read what => emit (.readData fn (configValue fn what s)) s
    | .bar i address => setBar fn i address s
    | .maxPayload n => onFn fn (fun f => { f with maxPayload := powerField 128 512 f.maxPayload n }) s
    | .maxRead n => onFn fn (fun f => { f with maxRead := powerField 128 4096 f.maxRead n }) s
    | .tenBitTags on => onFn fn (fun f => { f with tenBitTags := on }) s
    | .ecrcGen on => onFn fn (fun f => { f with ecrcGen := on }) s
    | .ecrcCheck on => onFn fn (fun f => { f with ecrcCheck := on }) s
    | .aspmL1 on => onFn fn (fun f => { f with aspmL1 := on }) s
    | .clearAer true => onFn fn (fun f => { f with aerCor := false }) s
    | .clearAer false => onFn fn (fun f => { f with aerUncor := false }) s
    | .busMaster on => setBusMaster fn on s
    | .memSpace on => onFn fn (fun f => { f with memSpace := on }) s
    | .d3hot true => onFn fn (fun f => { f with d3hot := true }) s
    | .d3hot false => sendPending fn (onFn fn (fun f => { f with d3hot := false }) s)
    | .numVFs n => if fn = 0 then dropVfs s (onHif (fun h => { h with numVFs := min 7 n }) s) else s
    | .vfEnable on => if fn = 0 then dropVfs s (onHif (fun h => { h with vfEnable := on }) s) else s)

/-- BAR_ACCESS_DROP (R44, R45, R616). -/
def execBarAccessDrop (fn : Fn) (read : Bool) (s : State) : Host.Outcome State Fault Refusal :=
  .next (viaBar fn (fun s => if read then emit (.readData fn 0) (dropAccess fn s) else dropAccess fn s) s)

/-- How many ring pairs a function owns (R49). -/
def pairsOwned (fn : Fn) (s : State) : Nat := countOf s.hif.rings fun x => x.owner == fn

/-- RING_OWNER_WRITE (R49): only while Disabled; RING_0 stays with PF0; a VF owns at most 16 pairs. DESIGN CHOICE: a write that would give a
VF a 17th pair is ignored as one at another time is. -/
def execRingOwnerWrite (ring : RingId) (owner : Fn) (s : State) : Host.Outcome State Fault Refusal :=
  .next (viaBar 0 (fun s =>
    if (s.hif.rings[ring]).state != .disabled || (ring == 0 && owner != 0)
        || (owner != 0 && (s.hif.rings[ring]).owner != owner && 16 ≤ pairsOwned owner s) then
      onFn 0 (fun f => { f with ownerWriteIgnored := true }) s
    else onRing ring (fun x => { x with owner := owner }) s) s)

/-- Is a ring pair's set-up valid (R50, R84)? -/
def pairValid (x : Ring) : Bool :=
  6 ≤ x.cmdLog2 && x.cmdLog2 ≤ 16 && 6 ≤ x.cplLog2 && x.cplLog2 ≤ 16 && x.cmdLog2 ≤ x.cplLog2
    && x.cmdBase % 4096 == 0 && x.cplBase % 4096 == 0 && x.vector < vectorCount x.owner

/-- Is the event ring's set-up valid (R76, R84, R93)? -/
def eventValid (x : EventRing) : Bool :=
  16 ≤ x.log2 && x.log2 ≤ 24 && x.base % 4096 == 0 && x.wb != 0 && x.vector < vectorCount 0

/-- Is a capture ring's set-up valid (R80, R84, R93)? A VF owns at most two. -/
def capValid (x : CapRing) (s : State) : Bool :=
  4 ≤ x.log2 && x.log2 ≤ 16 && x.base % 4096 == 0 && x.wb != 0 && x.vector < vectorCount x.owner
    && (x.owner == 0 || countOf s.hif.caps (fun y => y.owner == x.owner) ≤ 2)

/-- The mirror's start when the event ring enters Running (R604). -/
def startMirror (s : State) : State :=
  if s.evr.mirrorStart then
    match s.evr.store with
    | o :: _ => { s with evr := { s.evr with mirrorSeq := o.entry.sequence, firstLost := none, mirrorPaused := false } }
    | [] => { s with evr := { s.evr with mirrorPaused := false } }
  else { s with evr := { s.evr with mirrorPaused := false } }

/-- RING_ENABLE (R60, R91): to Running with indices from 0 and a marker, to Error with BAD_CONFIG, or back to Disabled
while the owner's Bus Master Enable is clear. DESIGN CHOICE: enable written 1 while a ring is Running (and drains) or in Error, for which
the table of R91 has no row, is ignored. -/
def enableRing (sel : RingSel) (s : State) : State :=
  match sel with
  | .pair n =>
    let x := s.hif.rings[n]
    if x.state != .disabled then s
    else if !(s.hif.fns[x.owner]).busMaster then onRing n (fun x => { x with enable := false }) s
    else if pairValid x then
      writeMarker n (onRing n (fun x =>
        { x with
          enable := true, state := .running, error := .none, cmdPI := 0, cmdCI := 0, cplPI := 0, cplCI := 0
          phase := true, inFlight := 0, started := 0, era := x.era + 1, wbDue := false, wbAt := none }) s)
    else ringFail n .badConfig (onRing n (fun x => { x with enable := true }) s)
  | .event =>
    let x := s.hif.evr
    if x.state != .disabled then s
    else if !(s.hif.fns[(0 : Fn)]).busMaster then onHif (fun h => { h with evr := { x with enable := false } }) s
    else if eventValid x then
      startMirror (onHif (fun h => { h with evr := { x with enable := true, state := .running, error := .none, prod := 0, cons := 0 } }) s)
    else ringErrorEvent 64 .badConfig 0 x.vector
      (onHif (fun h => { h with evr := { x with enable := true, state := .error, error := .badConfig } }) s)
  | .capture c =>
    let x := s.hif.caps[c]
    if x.state != .disabled then s
    else if !(s.hif.fns[x.owner]).busMaster then
      onHif (fun h => { h with caps := upd h.caps c fun x => { x with enable := false } }) s
    else if capValid x s then
      onHif (fun h => { h with caps := upd h.caps c fun x =>
        { x with enable := true, state := .running, error := .none, prod := 0, cons := 0, dropped := 0 } }) s
    else ringErrorEvent (65 + c) .badConfig x.owner x.vector
      (onHif (fun h => { h with caps := upd h.caps c fun x => { x with enable := true, state := .error, error := .badConfig } }) s)

/-- The function that owns a ring (R49, R76, R80). -/
def ringOwner (sel : RingSel) (s : State) : Fn :=
  match sel with
  | .pair n => (s.hif.rings[n]).owner
  | .event => 0
  | .capture c => (s.hif.caps[c]).owner

/-- Does a function's BAR0 show a ring's control word (R93): PF0's shows every ring's, a VF's those of its own ring pairs and capture rings? -/
def seesRing (fn : Fn) (sel : RingSel) (s : State) : Bool := fn == 0 || ringOwner sel s == fn

/-- A write by a function to a ring's control word has its effect where the function sees it. -/
def viaRing (fn : Fn) (sel : RingSel) (f : State → State) (s : State) : State :=
  viaBar fn (fun s => if seesRing fn sel s then f s else s) s

/-- RING_ENABLE. -/
def execRingEnable (fn : Fn) (sel : RingSel) (s : State) : Host.Outcome State Fault Refusal := .next (viaRing fn sel (enableRing sel) s)

/-- A running ring pair whose enable is 0 and that has no command in flight enters Disabled (R91). -/
def drainPair (x : Ring) : Ring :=
  if x.state == .running && !x.enable && x.inFlight == 0 then { x with state := .disabled, marker := none, era := x.era + 1 } else x

/-- RING_DISABLE (R91): enable is written 0. The event ring and the capture rings have no commands in flight. -/
def execRingDisable (fn : Fn) (sel : RingSel) (s : State) : Host.Outcome State Fault Refusal :=
  .next (viaRing fn sel (fun s => match sel with
    | .pair n => onRing n (fun x => { x with enable := false }) s
    | .event => onHif (fun h => { h with evr := { h.evr with
        enable := false, state := if h.evr.state = .running then .disabled else h.evr.state } }) s
    | .capture c => onHif (fun h => { h with caps := upd h.caps c fun x =>
        { x with enable := false, state := if x.state = .running then .disabled else x.state } }) s) s)

/-- RING_DRAINED (R91): the indices are written back a last time where they are not yet (R93). -/
def execRingDrained (ring : RingId) (s : State) : Host.Outcome State Fault Refusal :=
  let x := s.hif.rings[ring]
  let last := x.state == .running && !x.enable && x.inFlight == 0 && x.wbDue && !inD3hot x.owner s
  let s := if last then sendIndices ring (advanceMono ((x.wbAt.getD 0) + 1000) s) else s
  .next (onRing ring drainPair s)

/-- Does RING_RESET act on a ring (R91, R93)? -/
def resettable (state : RingState) (enable : Bool) : Bool := state == .disabled || (state == .error && !enable)

/-- RING_RESET (R91, R93): zeroes indices and phase while Disabled; a ring in Error whose enable is 0 goes to Disabled. DESIGN CHOICE: commands
of a ring in Error that have not started are discarded with it, as R91 discards them at a function-level reset. -/
def execRingReset (fn : Fn) (sel : RingSel) (s : State) : Host.Outcome State Fault Refusal :=
  .next (viaRing fn sel (fun s => match sel with
    | .pair n =>
      if resettable (s.hif.rings[n]).state (s.hif.rings[n]).enable then
        onRing n (fun x => { x with
          state := .disabled, error := .none, cmdPI := 0, cmdCI := 0, cplPI := 0, cplCI := 0, phase := true
          inFlight := 0, started := 0, marker := none, era := x.era + 1, wbDue := false, wbAt := none })
          { s with held := s.held.filter fun h => h.1 != n }
      else s
    | .event =>
      if resettable s.hif.evr.state s.hif.evr.enable then
        onHif (fun h => { h with evr := { h.evr with state := .disabled, error := .none, prod := 0, cons := 0 } }) s
      else s
    | .capture c =>
      if resettable (s.hif.caps[c]).state (s.hif.caps[c]).enable then
        onHif (fun h => { h with caps := upd h.caps c fun x => { x with state := .disabled, error := .none, prod := 0, cons := 0 } }) s
      else s) s)

/-- MSIX_UNMASK (R86): one message goes out when the pending bit is set, and moderation counts from it on (R85). -/
def execMsixUnmask (fn : Fn) (vector : Fin 64) (s : State) : Host.Outcome State Fault Refusal :=
  .next (viaBar fn (fun s =>
    let x := (s.hif.fns[fn]).vecs[vector]
    if x.masked && x.pending && !inD3hot fn s then
      emit (.msi fn vector) (onFn fn (fun f => { f with vecs := upd f.vecs vector fun x =>
        { x with masked := false, pending := false, entries := 0, running := false } }) s)
    else onFn fn (fun f => { f with vecs := upd f.vecs vector fun x => { x with masked := false } }) s) s)

/-- VECTOR_TIMER (R85): the vector's timer has run since the first entry after its last message. -/
def execVectorTimer (fn : Fn) (vector : Fin 64) (s : State) : Host.Outcome State Fault Refusal :=
  let x := (s.hif.fns[fn]).vecs[vector]
  if x.running ∧ x.timer ≠ 0 then .next (signalVector fn vector (advanceMono (x.since + 4000 * x.timer) s)) else .next s

/-- The indices, ascending, of the elements of a vector that a function owns. -/
def ownedOf {α : Type} {n : Nat} (v : Vector α n) (own : α → Fn) (fn : Fn) : List (Fin n) :=
  (indices n).filter fun i => own v[i] == fn

/-- The ring that a doorbell page of a function belongs to (R46); none for a page that is reserved or not owned. -/
def pageRing (fn : Fn) (page : Nat) (s : State) : Option RingSel :=
  if fn = 0 then
    if page < 64 then (finOf 64 page).bind fun n => if (s.hif.rings[n]).owner = 0 then some (.pair n) else none
    else if page = 64 then some .event
    else if page ≤ 72 then (finOf 8 (page - 65)).bind fun c => if (s.hif.caps[c]).owner = 0 then some (.capture c) else none
    else none
  else if page < 16 then (ownedOf s.hif.rings (·.owner) fn)[page]?.map .pair
  else if page < 18 then (ownedOf s.hif.caps (·.owner) fn)[page - 16]?.map .capture
  else none

/-- A running ring takes a new producer index (R53). -/
def takeProducer (n : RingId) (p : Word) (s : State) : State :=
  let x := s.hif.rings[n]
  let dp := (p - x.cmdPI).toNat
  let dq := (p - x.cmdCI).toNat
  if dp = 0 then s
  else if dp ≤ dq ∧ dq ≤ 2 ^ x.cmdLog2 then onRing n (fun x => { x with cmdPI := p }) s
  else ringFail n .dbOverrun s

/-- A consumer index is written to a doorbell page (R47, R55, R78, R82): completion, event or capture space is returned. -/
def takeConsumer (fn : Fn) (page : Nat) (value : Word) (s : State) : State :=
  match pageRing fn page s with
    | some (.pair n) =>
      if (s.hif.rings[n]).state = .running then onRing n (fun x => { x with cplCI := value }) s else dropDoorbell fn s
    | some .event =>
      if s.hif.evr.state = .running then
        let s := onHif (fun h => { h with evr := { h.evr with cons := value } }) s
        { s with evr := { s.evr with mirrorPaused := false } }
      else dropDoorbell fn s
    | some (.capture c) =>
      if (s.hif.caps[c]).state = .running then
        onHif (fun h => { h with caps := upd h.caps c fun x => { x with cons := value } }) s
      else dropDoorbell fn s
    | none => dropDoorbell fn s

/-- The doorbell pages that a function's BAR2 holds (R43). -/
def doorbellPages (fn : Fn) : Nat := barSize fn 1 / 4096

/-- A write to a doorbell page of a function: a page beyond its BAR2 is no page of the function, and receives nothing (R43). -/
def viaPage (fn : Fn) (page : Nat) (f : State → State) (s : State) : State :=
  if page < doorbellPages fn then viaBar fn f s else s

/-- DOORBELL_PRODUCER (R47, R53): a write of 4 bytes at offset 0x000 brings a producer index, and one at 0x008 a consumer index. A write at
another offset or of another size, to a ring the function does not own, to a ring without commands, or to a ring that is not Running is
discarded and counted. -/
def execDoorbellProducer (fn : Fn) (page : Fin 256) (offset size : Nat) (value : Word) (s : State) :
    Host.Outcome State Fault Refusal :=
  .next (viaPage fn page (fun s =>
    if size ≠ 4 then dropDoorbell fn s
    else if offset = 8 then takeConsumer fn page value s
    else if offset ≠ 0 then dropDoorbell fn s
    else match pageRing fn page s with
      | some (.pair n) => if (s.hif.rings[n]).state = .running then takeProducer n value s else dropDoorbell fn s
      | _ => dropDoorbell fn s) s)

/-- DOORBELL_CONSUMER (R47, R55, R78, R82). -/
def execDoorbellConsumer (fn : Fn) (page : Fin 256) (value : Word) (s : State) : Host.Outcome State Fault Refusal :=
  .next (viaPage fn page (takeConsumer fn page value) s)

/-- May a ring fetch now (R42, R55, R91)? It runs and is enabled, its function is in D0 with Bus Master Enable set, it is not empty, and
the commands in flight and the completions not yet consumed leave room. -/
def mayFetch (x : Ring) (f : Func) : Bool :=
  x.state == .running && x.enable && f.busMaster && !f.d3hot && x.cmdPI != x.cmdCI
    && x.inFlight + (x.cplPI - x.cplCI).toNat < 2 ^ x.cplLog2

/-- The command in flight that a restart does not wait for: the ACTIVATE that asks for it (R654). -/
def ownFlight (c : RestartCause) (s : State) : Nat :=
  match c with
  | .activate iss => bit ((s.hif.rings[iss.ring]).era == iss.era)
  | _ => 0

/-- A restart that is asked for starts once every command in flight on every ring has completed (R654, R657). -/
def startRestart (s : State) : State :=
  match s.sec.asked with
  | some c =>
    if sumOf s.hif.rings (·.inFlight) ≤ ownFlight c s then onSec (fun x => { x with asked := none, restart := some c }) s else s
  | none => s

/-- A fetched command (R66, R69, R71): an unknown opcode, or a command that fails steps 1 to 3 of R71, completes at once; any other waits
until it may start, its indirect buffer read. -/
def takeCommand (op : Nat) (d : Desc) (found : Findings) (s : State) : State :=
  let iss := issueOf op d s
  if (s.flt.fatal || s.boot.stage == .recovery) && op != 0x01 && op != 0x68 then refuse iss (refusal .fatalState) (startCommand d s)
  else match commandOf op d found with
    | none => refuse iss (badParam 0) (startCommand d s)
    | some c => match preCheck op iss.fn d s with
      | some r => refuse iss r (startCommand d s)
      | none =>
        let s := if d.indirect && op != 0x01 then emit (.hostRead iss.fn d.bufferAddress d.length.toNat) s else s
        holdCommand d c s

/-- DESCRIPTOR_FETCH (R51, R54, R55, R64, R71, R92): the descriptor in the slot that the consumer index names is read, and the index moves on. A
read that fails puts the ring into Error with FETCH_ERROR and is on source 2. Nothing is fetched while the supervisor restarts (R654). -/
def execDescriptorFetch (ring : RingId) (fetch : Fetch) (before : State) : Host.Outcome State Fault Refusal :=
  let s := startRestart before
  let x := s.hif.rings[ring]
  if s.sec.restart.isSome || !mayFetch x s.hif.fns[x.owner] then .next s
  else
    let s := emit (.hostRead x.owner (commandSlot x) 64) s
    match fetch with
    | .error =>
      .next (ringFail ring .fetchError (raise 2 0 x.owner (onFn x.owner (fun f => { f with aerUncor := true }) s)))
    | .got bytes buf found =>
      let s := writeBack ring (pulse 0x0500 0 1 (onRing ring (fun x => { x with cmdCI := x.cmdCI + 1 }) s))
      .next (takeCommand (leAt bytes 0 1) (Desc.ofBytes ring bytes buf) found s)

/-- CPL_WRITE_ERROR (R92): the host refused a write of a running ring. -/
def execCplWriteError (sel : RingSel) (s : State) : Host.Outcome State Fault Refusal :=
  .next (match sel with
    | .pair n => if (s.hif.rings[n]).state = .running then ringFail n .cplWriteError s else s
    | .event =>
      if s.hif.evr.state = .running then
        ringErrorEvent 64 .cplWriteError 0 s.hif.evr.vector
          (onHif (fun h => { h with evr := { h.evr with state := .error, error := .cplWriteError } }) s)
      else s
    | .capture c =>
      let x := s.hif.caps[c]
      if x.state = .running then
        ringErrorEvent (65 + c) .cplWriteError x.owner x.vector
          (onHif (fun h => { h with caps := upd h.caps c fun x => { x with state := .error, error := .cplWriteError } }) s)
      else s)

/-- NOP's own checks (R689): target 0, indirect 0, and no parameter byte set. -/
def nopCheck (d : Desc) : Option Refuse :=
  firstFail [(d.indirect, badParam 1), (d.tgt ≠ 0, badParam 8), d.strayCheck []]

/-- NOP (R69, R689). -/
def execNop (d : Desc) (s : State) : Host.Outcome State Fault Refusal :=
  .next (hostCommand 0x01 (.nop d) d (fun iss s =>
    match nopCheck d with
    | some r => refuse iss r s
    | none => complete iss .ok s) s)

end Sys2Proof.Machine
end

