-- ==== Sys2Proof/Machine/Recorder.lean ====
section
/-! DEFINITION. The event recorder's store and mirror (R599 to R604) and the performance counters (R609 to R620). -/
namespace Sys2Proof.Machine
open Sys2Proof

/-! ### Publication (R599 to R601) -/

/-- The size of the on-chip store (R601). -/
abbrev storeSize : Nat := 2 ^ 20

/-- The offset at which a record of `size` bytes is placed in a ring of `ring` bytes: past the padding when it would straddle
the end (R77, R601). -/
def placeAt (ring off size : Nat) : Nat :=
  if ring < off % ring + size then off + (ring - off % ring) else off

/-- The records that the space of a new head leaves whole (R601). -/
def keepWhole (head : Nat) (l : List Stored) : List Stored := l.filter fun o => head ≤ o.offset + storeSize

/-- The records that a new head overwrites and the mirror has not copied (R603). -/
def lostUnmirrored (head seq : Nat) (l : List Stored) : List Stored :=
  l.filter fun o => !(decide (head ≤ o.offset + storeSize)) && decide (seq ≤ o.entry.sequence)

/-- A record is written to the store at the head, overwriting the oldest records whose space it needs (R601). -/
def storeRecord (r : Record) (s : State) : State :=
  let e := s.evr
  let at' := placeAt storeSize e.head r.size
  let head := at' + r.size
  let lost := lostUnmirrored head e.mirrorSeq e.store
  let store := keepWhole head e.store ++ [{ offset := at', entry := r }]
  pulse 0x0602 0 lost.length
    { s with evr := { e with
        store := store
        head := head
        tail := (store.head?.map (·.offset)).getD head
        firstLost := if e.firstLost.isSome then e.firstLost else lost.head?.map (·.entry.sequence) } }

/-- The reserved staging entry takes one OVERFLOW record of kind 0 with every loss counted since the last (R599). -/
def placeOverflow (s : State) : State :=
  let e := s.evr
  if e.lostPending = 0 ∨ unreserved e < e.staging.length then s
  else
    let rec' : Record :=
      { sequence := e.seqNext, stamp := s.stamp, epoch := s.time.epoch, suppressed := 0, payload := .overflow 0 e.lostPending 0 }
    pulse 0x0600 0 1 { s with evr := { e with
      staging := e.staging ++ [rec'], lostPending := 0, seqNext := (e.seqNext + 1) % 2 ^ 64 } }

/-- RECORD_PUBLISH (R599 to R601): the oldest staged record goes to the store. -/
def execRecordPublish (s : State) : Host.Outcome State Fault Refusal :=
  match s.evr.staging with
  | [] => .next s
  | r :: rest => .next (placeOverflow (storeRecord r { s with evr := { s.evr with staging := rest } }))

/-! ### The mirror (R76 to R79, R603) -/

/-- The event ring has room for `n` more bytes (R79). -/
def eventRoom (x : EventRing) (n : Nat) : Bool := (x.prod - x.cons).toNat + n ≤ 2 ^ x.log2

/-- A record is written to the event ring, after padding when it would straddle the end (R76 to R78, R85). -/
def mirrorWrite (r : Record) (s : State) : State :=
  let x := s.hif.evr
  let off := x.prod.toNat
  let ring := 2 ^ x.log2
  let at' := placeAt ring off r.size
  let s := if at' = off then s else emit (.padding (x.base + off % ring) (at' - off)) s
  let s := emit (.mirrored (x.base + at' % ring) r) s
  let prod : Word := BitVec.ofNat 32 (at' + r.size)
  let s := onHif (fun h => { h with evr := { h.evr with prod := prod } }) s
  countEntry 0 x.vector false (emit (.eventWriteBack x.wb prod.toNat) s)

/-- Bytes that a record takes in the event ring, its padding included. -/
def mirrorNeed (r : Record) (x : EventRing) : Nat := placeAt (2 ^ x.log2) x.prod.toNat r.size + r.size - x.prod.toNat

/-- The record to mirror next: a kind-1 OVERFLOW stand-in after a loss, or the oldest held record not yet mirrored, with the
mirror's sequence number afterwards and the numbers skipped (R603). -/
def nextToMirror (e : Recorder) : Option (Record × Nat × Nat) :=
  match e.firstLost, e.store with
  | some f, o :: _ =>
    let n := o.entry.sequence - f
    some ({ sequence := f, stamp := o.entry.stamp, epoch := o.entry.epoch, suppressed := 0,
            payload := .overflow 1 n f }, o.entry.sequence, n)
  | _, l => (l.find? fun o => e.mirrorSeq ≤ o.entry.sequence).map fun o => (o.entry, o.entry.sequence + 1, 0)

/-- RECORD_MIRROR (R42, R79, R603): the mirror copies the next record, or pauses for lack of room and raises source 4. -/
def execRecordMirror (s : State) : Host.Outcome State Fault Refusal :=
  let f := s.hif.fns[(0 : Fn)]
  if s.hif.evr.state != .running || !f.busMaster || f.d3hot then .next s
  else match nextToMirror s.evr with
    | none => .next s
    | some (r, seq, skipped) =>
      if eventRoom s.hif.evr (mirrorNeed r s.hif.evr) then
        .next (mirrorWrite r { s with evr := { s.evr with
          mirrorSeq := seq, firstLost := none, storeLost := satAdd 65535 s.evr.storeLost skipped, mirrorPaused := false } })
      else if s.evr.mirrorPaused then .next s
      else .next (raise 4 0 0 { s with evr := { s.evr with mirrorPaused := true } })

/-! ### Counters (R609 to R615) -/

/-- The kinds of counter event (R609). -/
inductive EventKind where
  | pulse | level
  deriving DecidableEq, Repr

/-- The events of R609: code, kind, and the class of the unit, DEVICE for the events that name only it. -/
def counterEvents : List (Nat × EventKind × TargetClass) :=
  [(0x0001, .pulse, .device), (0x0100, .pulse, .slice), (0x0101, .pulse, .slice), (0x0102, .pulse, .slice),
   (0x0103, .pulse, .slice), (0x0104, .pulse, .slice), (0x0105, .pulse, .slice), (0x0200, .level, .engine),
   (0x0201, .pulse, .engine), (0x0300, .pulse, .lane), (0x0301, .pulse, .lane), (0x0302, .pulse, .lane),
   (0x0303, .level, .lane), (0x0400, .pulse, .bank), (0x0401, .pulse, .bank), (0x0402, .pulse, .bank)] ++
  [(0x0500, .pulse, .device), (0x0501, .pulse, .device), (0x0502, .level, .device), (0x0503, .pulse, .captureRing),
   (0x0504, .pulse, .captureRing), (0x0600, .pulse, .device), (0x0601, .pulse, .device), (0x0602, .pulse, .device),
   (0x0603, .level, .device), (0x0700, .pulse, .txPort), (0x0701, .pulse, .rxPort), (0x0800, .pulse, .loop),
   (0x0801, .pulse, .loop), (0x0802, .pulse, .loop), (0x0900, .pulse, .madc), (0x0901, .pulse, .madc)]

/-- The kind and class of an event code. -/
def counterEvent (code : Nat) : Option (EventKind × TargetClass) := (counterEvents.find? fun e => e.1 == code).map (·.2)

/-- Does a mode match an event's kind (R610)? -/
def modeFits (mode : Nat) (k : EventKind) : Bool :=
  match k with
  | .pulse => mode == 0
  | .level => mode == 1 || mode == 2 || mode == 3

/-- The ownership class of a resource has an owner other than HOST in the ACTIVE table (R126). -/
def ownedByOther (cls idx : Nat) (s : State) : Bool :=
  s.cfg.owners.any fun o => o.cls == cls && o.index == idx && o.feature != 0x09

/-- A run-time claim of HOST on a resource (R126); it stands once in the list. -/
def addClaim (cls idx : Nat) (s : State) : State :=
  if s.cfg.claims.contains (cls, idx) then s else { s with cfg := { s.cfg with claims := s.cfg.claims ++ [(cls, idx)] } }

/-- A run-time claim is given up. -/
def dropClaim (cls idx : Nat) (s : State) : State :=
  { s with cfg := { s.cfg with claims := s.cfg.claims.filter (· != (cls, idx)) } }

/-- COUNTER_CFG's checks of steps 4 and 5 (R613, R614). -/
def counterCfgCheck (d : Desc) (s : State) : Option Refuse :=
  match d.unit .counter 256 with
  | none => some (badParam 8)
  | some n =>
    let c := s.pmc.cnt[n]
    let ev := d.u 12 2
    let mode := d.byte 14
    let flags := d.byte 15
    let unit := d.u 16 4
    let thr := d.u 20 4
    let kind := (counterEvent ev).map (·.1)
    let unitOk := match counterEvent ev with
      | none => false
      | some (_, cls) => unit == 0 || (cls != .device && (targetOf cls (classSize cls) unit).isSome)
    firstFail
      [(d.indirect, badParam 1),
       (kind.isNone, badParam 12),
       (!(kind.any fun k => modeFits mode k), badParam 14),
       (flags / 8 ≠ 0, badParam 15),
       (!unitOk, badParam 16),
       ((mode == 0 || mode == 1) && thr != 0, badParam 20),
       (bitOf flags 2 && !(c.event == ev && c.mode == mode && c.unit == unit && c.threshold == thr), badParam 12),
       d.strayCheck [(12, 12)],
       (ownedByOther 0x0C n s, refuseTarget .busyOwned d.tgt)]

/-- The counter's new configuration (R614): with preserve only enable and wrap_record change and the count is kept. -/
def counterCfgEffect (d : Desc) (c : Counter) : Counter :=
  let flags := d.byte 15
  if bitOf flags 2 then { c with enable := bitOf flags 0, wrapRecord := bitOf flags 1 }
  else
    { c with
      count := 0, event := d.u 12 2, mode := d.byte 14, enable := bitOf flags 0, wrapRecord := bitOf flags 1
      unit := d.u 16 4, threshold := d.u 20 4, last := 0 }

/-- COUNTER_CFG (R126, R613, R614). DEDUCED: the run-time claim lasts while the counter is enabled. -/
def execCounterCfg (d : Desc) (s : State) : Host.Outcome State Fault Refusal :=
  .next (hostCommand 0x58 (.counterCfg d) d (fun iss s =>
    match counterCfgCheck d s, d.unit .counter 256 with
    | some r, _ => refuse iss r s
    | none, none => refuse iss (badParam 8) s
    | none, some n =>
      let s := { s with pmc := { s.pmc with cnt := upd s.pmc.cnt n (counterCfgEffect d) } }
      complete iss .ok (if bitOf (d.byte 15) 0 then addClaim 0x0C n s else dropClaim 0x0C n s)) s)

/-- COUNTER_WRAP (R611): an addition that carries the counter past 2^48 - 1 sets sticky; the COUNTER_WRAP records that the
counter owes are published. -/
def execCounterWrap (counter : Fin 256) (amount : Nat) (s : State) : Host.Outcome State Fault Refusal :=
  let s := { s with pmc := { s.pmc with cnt := upd s.pmc.cnt counter (addTo amount) } }
  let owed := (s.pmc.cnt[counter]).wrapDue
  let s := { s with pmc := { s.pmc with cnt := upd s.pmc.cnt counter fun c => { c with wrapDue := 0 } } }
  .next ((List.range owed).foldl (fun s _ => recordNow (.counterWrap counter) s) s)

/-- A level event's contribution in one counter clock (R610): SUM adds the level, ABOVE and CROSS compare with threshold. -/
def levelTick (level : Nat) (c : Counter) : Counter :=
  let n := if c.mode = 1 then level
           else if c.mode = 2 then (if c.threshold ≤ level then 1 else 0)
           else if c.last < c.threshold && c.threshold ≤ level then 1 else 0
  { addTo n c with last := level }

/-! ### Snapshots (R617 to R620) -/

/-- COUNTER_SNAPSHOT's parameter checks (R617, R620). -/
def snapshotCheck (d : Desc) (s : State) : Option Refuse :=
  firstFail
    [(d.tgt ≠ 0, badParam 8), (d.indirect, badParam 1), (d.byte 24 / 4 ≠ 0, badParam 24),
     d.strayCheck [(12, 13), (32, 8)],
     (!bitOf (d.byte 24) 0 && d.u 12 8 % 4096 != 0, badParam 12),
     (!bitOf (d.byte 24) 0 && (d.u 20 2 == 0 || 1024 < d.u 20 2), badParam 20),
     (!bitOf (d.byte 24) 0 && 60000 < d.u 22 2, badParam 22),
     (!bitOf (d.byte 24) 0 && d.u 22 2 != 0 && s.pmc.periodic.isSome, refusal .rejectedBusy)]

/-- The instant of a command's parameter: 0 stands for now (R370). -/
def instantOrNow (stamp : Nat) (s : State) : Nat := if stamp = 0 then s.now else max s.now (instantOf s.now stamp)

/-- COUNTER_SNAPSHOT (R617, R619, R620). -/
def execCounterSnapshot (d : Desc) (s : State) : Host.Outcome State Fault Refusal :=
  .next (hostCommand 0x59 (.counterSnapshot d) d (fun iss s =>
    match snapshotCheck d s with
    | some r => refuse iss r s
    | none =>
      if bitOf (d.byte 24) 0 then
        let early := s.pmc.periodic.bind fun p => if p.index = 0 then some p.issue else none
        complete iss .ok (completeOpt early .superseded (endSnapshots s))
      else
        let snap : Snapshot :=
          { issue := iss, address := d.u 12 8, slots := d.u 20 2, period := d.u 22 2, clear := bitOf (d.byte 24) 1
            next := strobeAt (instantOrNow (d.u 32 8) s), index := 0 }
        if d.u 22 2 = 0 then { s with pmc := { s.pmc with singles := s.pmc.singles ++ [snap] } }
        else { s with pmc := { s.pmc with periodic := some snap } }) s)

/-- The PMC_CNT_n word of a counter (R619, R623). -/
def counterWord (c : Counter) : Nat := c.count + bit c.sticky * 2 ^ 48 + bit c.enable * 2 ^ 49

/-- A capture of all counters (R618, R619), written to its slot; clear zeroes the counts and no sticky bit. -/
def captureSnapshot (snap : Snapshot) (s : State) : State :=
  let words := (indices 256).map fun i => counterWord s.pmc.cnt[i]
  let flags := bit snap.clear + 2 * bit (snap.period != 0)
  let s := emit (.snapshot (snap.address + snap.index % snap.slots * 4096) (freeSequence s.free) s.stamp s.time.epoch flags
    snap.index words) (takeFree s)
  if snap.clear then { s with pmc := { s.pmc with cnt := s.pmc.cnt.map fun c => { c with count := 0 } } } else s

/-- SNAPSHOT_CAPTURE (R618 to R620): the first waiting single snapshot, or the periodic one, is captured at its instant. A
write error sets snapshot_error, ends a periodic snapshot, and gives a single one TIMEOUT. DESIGN CHOICE: a write that D3hot forbids (R42)
counts as one. -/
def execSnapshotCapture (periodic written : Bool) (s : State) : Host.Outcome State Fault Refusal :=
  let ok := written && !inD3hot 0 s
  .next (if periodic then
    match s.pmc.periodic with
    | none => s
    | some snap =>
      let s := advanceTo snap.next s
      if ok then
        let s := captureSnapshot snap s
        let later := { snap with index := snap.index + 1, next := snap.next + snap.period * 4000000 }
        let s := onPmc (fun p => { p with periodic := some later }) s
        if snap.index = 0 then complete snap.issue .ok s else s
      else
        let s := { s with pmc := { s.pmc with periodic := none, snapshotError := true } }
        if snap.index = 0 then complete snap.issue .timeout s else s
  else
    match s.pmc.singles with
    | [] => s
    | snap :: rest =>
      let s := advanceTo snap.next { s with pmc := { s.pmc with singles := rest } }
      if ok then complete snap.issue .ok (captureSnapshot snap s)
      else complete snap.issue .timeout { s with pmc := { s.pmc with snapshotError := true } })

end Sys2Proof.Machine
end

