-- ==== Sys2Proof/Machine/Timebase.lean ====
section
/-! DEFINITION. The arithmetic of station time: strobes and steps (R379, R380, R692), the treatment of PPS edges (R375 to R377),
the estimated error (R374), patterns and their periods (R386, R387, R393, R394), and the fold of an inference (R396). -/
namespace Sys2Proof.Machine
open Sys2Proof

/-! ### Patterns -/

/-- The period of a code, in ns (R386). -/
def periodNs (c : Fin 10) : Nat :=
  [500000, 625000, 1000000, 1250000, 2000000, 2500000, 4000000, 5000000, 10000000, 20000000].getD c 0

/-- The first period start of a pattern at or after an instant (R386). -/
def nextStart (p : Pattern) (t : Nat) : Nat :=
  let per := 4 * periodNs p.period
  let r := (t + (per - 4 * p.offset % per)) % per
  if r = 0 then t else t + (per - r)

/-- Where an instant lies in a pattern's period, in quarter-nanoseconds (R386). -/
def phaseAt (p : Pattern) (t : Nat) : Nat :=
  let per := 4 * periodNs p.period
  (t + (per - 4 * p.offset % per)) % per

/-- The index and type of the segment that a phase in ns × 4 lies in, counting segments from `i`. -/
def segmentAt : List Segment → Nat → Nat → Nat × SegType
  | [], i, _ => (i, .gap)
  | g :: gs, i, ph => if ph < 4 * g.dur then (i, g.typ) else segmentAt gs (i + 1) (ph - 4 * g.dur)

/-- The ends of the DL and UL segments, as phases: a timer's switching instants (R386 to R391). -/
def switchPhases : List Segment → Nat → List Nat
  | [], _ => []
  | g :: gs, at' =>
    let e := at' + 4 * g.dur
    if g.typ = .gap then switchPhases gs e else e :: switchPhases gs e

/-- Is an instant within 1 µs of a switching instant of a pattern (R379)? -/
def nearSwitch (p : Pattern) (t : Nat) : Bool :=
  let per := 4 * periodNs p.period
  (switchPhases p.segs 0).any fun e =>
    let d := (phaseAt p t + per - e % per) % per
    d < 4000 || per < d + 4000

/-- No two neighbours of the same type, and no DL next to a UL (R387). -/
def neighboursOk (a b : Segment) : Bool :=
  match a.typ, b.typ with
  | .gap, .gap => false
  | .gap, _ => true
  | _, .gap => true
  | _, _ => false

/-- Every pair of neighbours in a list, first to last. -/
def chainOk : List Segment → Bool
  | a :: b :: rest => neighboursOk a b && chainOk (b :: rest)
  | _ => true

/-- The conditions on a pattern (R386, R387); `switchNs` is the longest switch time of a pair bound to the timer (R214). -/
def patternValid (p : Pattern) (switchNs : Nat) : Bool :=
  4 ≤ p.segs.length && p.segs.length ≤ 32 && p.offset < periodNs p.period
    && (p.segs.foldl (fun t g => t + g.dur) 0) == periodNs p.period
    && (p.segs.any fun g => g.typ == .dl) && (p.segs.any fun g => g.typ == .ul)
    && (p.segs.all fun g => g.typ == .gap || 2000 ≤ g.dur)
    && chainOk p.segs
    && (match p.segs.getLast?, p.segs.head? with
        | some a, some b => neighboursOk a b
        | _, _ => false)
    && (p.segs.all fun g => g.typ != .gap || switchNs ≤ g.dur)

/-- A segment word (R394); none when its type or its high bits are out of range. -/
def segmentOf (w : Nat) : Option Segment :=
  let dur := w % 2 ^ 25
  match w / 2 ^ 25 with
  | 0 => some { dur := dur, typ := .dl }
  | 1 => some { dur := dur, typ := .ul }
  | 2 => some { dur := dur, typ := .gap }
  | _ => none

/-- A segment as its word (R394). -/
def segmentWord (g : Segment) : Nat :=
  g.dur % 2 ^ 25 + 2 ^ 25 * (match g.typ with
    | .dl => 0
    | .ul => 1
    | .gap => 2)

/-- The whole length of a pattern entry of `n` segments (R394). -/
def patternLength (n : Nat) : Nat := ceilTo 8 (16 + 4 * n)

/-- Bytes of a list are zero over a range. -/
def zeroAt (bs : List Byte) (o n : Nat) : Bool := leAt bs o n == 0

/-- A pattern entry's timer and pattern, as laid out in R394; none when a field is out of range. -/
def patternOf (bs : List Byte) : Option (Fin 8 × Pattern) :=
  let n := leAt bs 2 1
  let interval := leAt bs 10 2
  let segs := (List.range n).map fun i => segmentOf (leAt bs (16 + 4 * i) 4)
  match finOf 8 (leAt bs 0 1), finOf 10 (leAt bs 1 1), finOf 256 (leAt bs 8 1) with
  | some timer, some period, some slice =>
    if n < 4 || 32 < n || 1 < leAt bs 3 1 || leAt bs 9 1 != 0 || !zeroAt bs 12 4 || bs.length < patternLength n
        || !zeroAt bs (16 + 4 * n) (patternLength n - (16 + 4 * n)) || segs.any (·.isNone)
        || (interval != 0 && (interval < 10 || 3600 < interval)) then none
    else some (timer, { period := period, offset := leAt bs 4 4, segs := segs.filterMap id, autoAdopt := bitOf (leAt bs 3 1) 0,
                        inferSlice := slice, inferInterval := interval })
  | _, _, _ => none

/-! ### Steps (R379, R380, R692) -/

/-- An instant moved by a signed number of quarter-nanoseconds, never below zero. -/
def shiftTime (t : Nat) (d : Int) : Nat := ((t : Int) + d).toNat

/-- A strobe at least 1 µs from every switching instant of every timer, before and after a step (R379). -/
def strobeClear (td : Tdd) (d : Int) (t : Nat) : Bool :=
  allOf td.timers fun x => match x.pattern with
    | none => true
    | some p => !nearSwitch p t && !nearSwitch p (shiftTime t d)

/-- The first clear strobe from `t` on, looking at `n` strobes; the last one looked at when none is clear. -/
def findStrobe (td : Tdd) (d : Int) : Nat → Nat → Nat
  | 0, t => t
  | n + 1, t => if strobeClear td d t then t else findStrobe td d n (t + qStrobe)

/-- The strobe at which a step decided at `t` is applied (R379): for less than 1 µs the first clear one at or after `t`, otherwise the
first after `t`. The search covers 20 ms, the longest period. -/
def stepStrobe (td : Tdd) (d : Int) (t : Nat) : Nat :=
  if d.natAbs < 4000 then findStrobe td d 625000 (strobeAt t) else strobeAt (t + 1)

/-- A step's amount raised by whole seconds until its target is at or above 0 s (R692). -/
def aboveZero (t : Nat) (d : Int) : Int :=
  let target := (t : Int) + d
  if target < 0 then d + (((-target).toNat + (qSecond - 1)) / qSecond * qSecond : Nat) else d

/-- Does a step advance the epoch (R380)? -/
def epochMoves (d : Int) : Bool := d < 0 || (qSecond : Int) < d

/-! ### PPS edges (R375 to R377) -/

/-- The offset e of an edge from the nearest whole second plus pps_delay, and that second (R377). DESIGN CHOICE: an edge
midway between two seconds is nearest to the later one. -/
def edgeOffset (capture : Nat) (delayNs : Int) : Int × Int :=
  let x := (capture : Int) - 4 * delayNs
  let n := (x + (qSecond / 2 : Nat)) / (qSecond : Int)
  (x - n * (qSecond : Int), n)

/-- What an edge does (R377): it is accepted with or without a step, or it is a stray with or without one. -/
structure EdgeVerdict where
  accepted : Bool
  step     : Bool
  deriving DecidableEq, Repr

/-- The run of strays after one more at `mono`, counting those spaced 1 s ± 1 µs apart (R377). -/
def strayRunAfter (t : StationTime) (mono : Nat) : Nat :=
  match t.lastStray with
  | some l =>
    let gap := mono - l
    if qSecond ≤ gap + 4000 ∧ gap ≤ qSecond + 4000 then t.strayRun + 1 else 1
  | none => 1

/-- The table of R377. -/
def edgeVerdict (t : StationTime) (e : Int) (mono : Nat) : EdgeVerdict :=
  let a := e.natAbs
  match t.state with
  | .unaligned => { accepted := true, step := true }
  | .aligned =>
    if a ≤ 4 * t.ppsWindow then { accepted := true, step := false }
    else if a ≤ 4000000 then { accepted := true, step := t.stepCount ≤ t.outRun + 1 }
    else { accepted := false, step := t.stepCount ≤ strayRunAfter t mono }
  | _ =>
    if a ≤ 4000000 then { accepted := true, step := true }
    else { accepted := false, step := 2 ≤ strayRunAfter t mono }

/-- The amount of the step that an edge decides (R377): to the next whole second while UNALIGNED, otherwise by −e; a pending
seconds-only TIME_SET overrides the seconds of its target. -/
def edgeStep (t : StationTime) (capture : Nat) (delay e n : Int) (step : Bool) : Int :=
  let toSecond (k : Int) : Int := k * (qSecond : Int) + 4 * delay - (capture : Int)
  match t.seconds with
  | some p => if step then toSecond p.seconds else ((p.seconds : Int) - n) * (qSecond : Int)
  | none =>
    if !step then 0
    else if t.state = .unaligned then toSecond ((capture / qSecond + 1 : Nat) : Int)
    else -e

/-- The counters of runs after an edge (R377). -/
def edgeRuns (t : StationTime) (v : EdgeVerdict) (e : Int) (mono : Nat) : StationTime :=
  if v.accepted then
    { t with
      ppsOffset := e, strayRun := 0, lastStray := none
      outRun := if t.state == .aligned && 4 * t.ppsWindow < e.natAbs && !v.step then t.outRun + 1 else 0 }
  else
    { t with
      ppsOffset := e, outRun := 0, strays := satAdd 255 t.strays 1
      strayRun := if v.step then 0 else strayRunAfter t mono
      lastStray := if v.step then none else some mono }

/-- A timing edge is taken (R377): `delay` is pps_delay in ns, `cause` the source's own cause of a step. A stray raises source 165; a
pending mode 1 TIME_SET completes at an edge that is accepted or that decides a step. -/
def takeEdge (capture : Nat) (delay : Int) (cause : StepCause) (s : State) : State :=
  let t := s.time
  let mono := t.mono - (t.q - capture)
  let (e, n) := edgeOffset capture delay
  let v := edgeVerdict t e mono
  let used := v.accepted || v.step
  let d := if used then edgeStep t capture delay e n v.step else 0
  let strobe := stepStrobe s.tdd d s.now
  let pending := t.seconds
  let later : PendingStep :=
    { delta := aboveZero strobe d, toValue := none, strobe := strobe
      cause := if pending.isSome then .setMode1 else cause, newState := .aligned
      baseError := if v.step then 0 else e.natAbs, edge := some mono, issue := none }
  let t' := edgeRuns t v e mono
  let t' := if used then { t' with seconds := none } else t'
  let t' := if v.accepted && !v.step then { t' with lastEdge := mono, baseError := e.natAbs } else t'
  let t' := if (v.step || d != 0) && t.step.isNone then { t' with step := some later } else t'
  let s := onTime (fun _ => t') s
  let s := if v.accepted then s else raise 165 0 0 s
  match used, pending with
  | true, some p => complete p.issue .ok s
  | _, _ => s

/-- The active time of a pulse, in ns, is judged (R376): three in a row above 600 ms toggle the timing edge. -/
def judgePolarity (activeNs : Nat) (t : StationTime) : StationTime × Bool :=
  if !t.autoPolarity then (t, false)
  else
    let t := { t with ambiguous := decide (400000000 ≤ activeNs ∧ activeNs ≤ 600000000) }
    if 600000000 < activeNs then
      if 3 ≤ t.longRun + 1 then ({ t with longRun := 0, inverted := !t.inverted }, true)
      else ({ t with longRun := t.longRun + 1 }, false)
    else ({ t with longRun := 0 }, false)

/-! ### The estimated error (R374) -/

/-- The code of an alignment state (R373). -/
def alignCode : AlignState → Nat
  | .unaligned => 0
  | .aligned => 1
  | .holdover => 2
  | .set => 3

/-- Parts of a ns in which the estimate is kept: a quarter-ns of offset is 10^11 parts, and holdover_rate × quarter-ns of
time since the edge is in parts already. -/
abbrev errorPart : Nat := 400000000000

/-- The estimated error, none while UNALIGNED (R374). -/
def estimateOf (t : StationTime) : Option Nat :=
  let still := t.baseError * (errorPart / 4) + t.linkAccuracy.getD t.ppsAccuracy * errorPart
  match t.state with
  | .unaligned => none
  | .aligned => some still
  | .holdover => some (still + t.holdoverRate * (t.mono - t.lastEdge))
  | .set => some (t.baseError * (errorPart / 4) + t.holdoverRate * (t.mono - t.lastEdge))

/-- Is an estimate above 1.5 µs (R374)? -/
def estimateOver : Option Nat → Bool
  | none => true
  | some x => 1500 * errorPart < x

/-- TIM_ERROR: the estimate in whole ns, saturating (R374, R401). DEDUCED: the fraction is dropped. -/
def errorWord : Option Nat → Nat
  | none => 0xFFFFFFFF
  | some x => min 0xFFFFFFFF (x / errorPart)

/-! ### Inference (R396) -/

/-- The length of a bin in ns (R396): max(250 ns, 16 slice samples). -/
def inferBin (k : Nat) : Nat := max 250 (16 * 2 ^ k / 4)

/-- Is `n` times the mean power of a bin, held as a sum and a number of samples, at least that of another? DEDUCED: a bin without a sample has no
power. -/
def binReaches (n : Nat) (a b : Nat × Nat) : Bool := decide (b.1 * max 1 a.2 ≤ n * a.1 * max 1 b.2)

/-- The 90th percentile of the bins. DESIGN CHOICE: the smallest power that at least 90% of the bins do not exceed. -/
def percentile90 (bins : List (Nat × Nat)) : Nat × Nat :=
  ((sortBy (fun a b => binReaches 1 b a) bins)[(9 * bins.length + 9) / 10 - 1]?).getD (0, 0)

/-- Which bins count as DL: within 10 dB of the 90th percentile (R396). -/
def dlBins (bins : List (Nat × Nat)) : List Bool :=
  let top := percentile90 bins
  bins.map fun b => binReaches 10 b top

/-- The place, in bins from the period's start, onto which bin `i` folds. -/
def foldPlace (binNs per i : Nat) : Nat := i * binNs % per / binNs

/-- How many places a period has; the last may be shorter than a bin. -/
def foldPlaces (binNs per : Nat) : Nat := (per + binNs - 1) / binNs

/-- The DL and UL counts of the bins that fold onto a place. -/
def foldCount (binNs per : Nat) (bits : List Bool) (k : Nat) : Nat × Nat :=
  bits.zipIdx.foldl
    (fun c x => if foldPlace binNs per x.2 = k then (if x.1 then (c.1 + 1, c.2) else (c.1, c.2 + 1)) else c) (0, 0)

/-- The folded majority of a place: true for DL. DESIGN CHOICE: a tie counts as UL. -/
def foldMajority (binNs per : Nat) (bits : List Bool) (k : Nat) : Bool :=
  decide ((foldCount binNs per bits k).2 < (foldCount binNs per bits k).1)

/-- The bins that agree with their folded majority. -/
def foldAgree (binNs per : Nat) (bits : List Bool) : Nat :=
  (List.range (foldPlaces binNs per)).foldl
    (fun t k => t + max (foldCount binNs per bits k).1 (foldCount binNs per bits k).2) 0

/-- The shortest period, at most one eighth of the observation, on which at least 95.0% of the bins agree (R396). -/
def foldChoice (binNs : Nat) (bits : List Bool) : Option (Fin 10) :=
  (indices 10).find? fun c =>
    8 * periodNs c ≤ binNs * bits.length && 950 * bits.length ≤ 1000 * foldAgree binNs (periodNs c) bits

/-- The places of a period with their majority and their length in ns. -/
def foldRow (binNs per : Nat) (bits : List Bool) : List (Bool × Nat) :=
  (List.range (foldPlaces binNs per)).map fun k =>
    (foldMajority binNs per bits k, min binNs (per - k * binNs))

/-- Neighbouring places of the same value joined into runs. -/
def runsOf : List (Bool × Nat) → List (Bool × Nat)
  | [] => []
  | b :: bs => match runsOf bs with
    | c :: rest => if b.1 = c.1 then (c.1, c.2 + b.2) :: rest else b :: c :: rest
    | [] => [b]

/-- The first place at which a DL run starts, looking round the period. -/
def firstDlStart (m : List (Bool × Nat)) : Option Nat :=
  (List.range m.length).find? fun k =>
    (m.getD k (false, 0)).1 && !(m.getD ((k + m.length - 1) % m.length) (false, 0)).1

/-- The segments of a fold that starts with a DL run: a GAP follows each DL end and precedes each DL start, and the
remainder between is UL (R396). -/
def inferSegments (gap : Nat) : List (Bool × Nat) → List Segment
  | [] => []
  | (true, n) :: rest => { dur := n, typ := .dl } :: inferSegments gap rest
  | (false, n) :: rest =>
    { dur := gap, typ := .gap } :: { dur := n - 2 * gap, typ := .ul } :: { dur := gap, typ := .gap }
      :: inferSegments gap rest

/-- The proposal that an observation gives (R396): bins of `binNs` ns whose first starts at `startNs`. -/
def inferProposal (timer : Fin 8) (gap binNs startNs : Nat) (bins : List (Nat × Nat)) : Option Proposal :=
  let bits := dlBins bins
  match foldChoice binNs bits with
  | none => none
  | some c =>
    let per := periodNs c
    let row := foldRow binNs per bits
    (firstDlStart row).map fun k =>
      { period := c, offset := (startNs + k * binNs) % per
        segs := inferSegments gap (runsOf (row.drop k ++ row.take k))
        agreement := 1000 * foldAgree binNs per bits / bits.length, timer := timer, binLen := binNs }

end Sys2Proof.Machine
end

