-- ==== Sys2Proof/Machine/Queries.lean ====
section
/-! DEFINITION. Questions about the state that several blocks ask: which paths a slice has, which ports it uses, and what gates a TX
port (R233). -/
namespace Sys2Proof.Machine
open Sys2Proof

/-! ### Slices and their ports -/

/-- The slices with a path whose sink is a TX port. -/
def slicesOnTx (m : Fin 32) (s : State) : List SliceId :=
  (indices 256).filter fun sl => match liveDef sl s with
    | some d => (pathsOf d).any fun p => txOf (sinkOf d p) == some m
    | none => false

/-- The paths whose source is an RX port. -/
def pathsFromRx (m : Fin 32) (s : State) : List (SliceId × PathId) :=
  (indices 256).flatMap fun sl => match liveDef sl s with
    | some d => ((pathsOf d).filter fun p => rxOf (srcOf d p) == some m).map fun p => (sl, p)
    | none => []

/-- Does a definition use port index `m` as an endpoint? -/
def usesIndex (d : SliceDef) (m : Fin 32) : Bool :=
  (pathsOf d).any fun p => rxOf (srcOf d p) == some m || txOf (sinkOf d p) == some m

/-- Does a TDD slice bind port index `m`, so that RX_m and TX_m form a TDD pair (R198)? -/
def isPair (m : Fin 32) (s : State) : Bool :=
  (indices 256).any fun sl => match liveDef sl s with
    | some d => d.direction == .tdd && usesIndex d m
    | none => false

/-- The pattern timer that governs a TDD pair (R389). -/
def pairTimer (m : Fin 32) (s : State) : Option (Fin 8) :=
  (indices 256).findSome? fun sl => match liveDef sl s with
    | some d => if d.direction = .tdd ∧ usesIndex d m = true then d.pattern else none
    | none => none

/-- The eight ports of a tile (R158). -/
def portsOf (t : Fin 4) : List (Fin 32) := (indices 32).filter fun p => tileOf p == t

/-! ### Gates of a TX port (R233) -/

/-- The halt path is asserted while any halt source is active (R354). -/
def haltAsserted (s : State) : Bool := s.nps.haltHost || s.nps.haltMgmt || s.nps.haltReset || s.nps.haltThermal

/-- A protection cause mutes the port (R335). -/
def portMuted (m : Fin 32) (s : State) : Bool := (s.nps.port[m]).reflected || (s.nps.port[m]).squall

/-- A FEM hold is in force on a link bound to the port (R223). -/
def femHeld (m : Fin 32) (s : State) : Bool := anyOf s.fec.fems fun f => f.enable && f.port == m && f.hold

/-- An asserted blanking input is bound to the TX port (R231). -/
def txBlanked (m : Fin 32) (s : State) : Bool := anyOf s.fec.blanks fun b => blankActive b && b.txMask.getLsbD m

/-- A requester pair bound to the port has no grant (R228). -/
def grantMissing (m : Fin 32) (s : State) : Bool :=
  anyOf s.fec.cx fun c => c.role == 1 && c.ports.getLsbD m && !c.grant

/-- FEC_PORT_STATE_m.gate: halt, protection, FEM hold, blanking, coexistence (R239). -/
def gateWord (m : Fin 32) (s : State) : Nat :=
  bit (haltAsserted s) + 2 * bit (portMuted m s) + 4 * bit (femHeld m s) + 8 * bit (txBlanked m s)
    + 16 * bit (grantMissing m s)

/-- Is a resource in the ACTIVE ownership table under a feature (R124)? -/
def ownedBy (cls idx feature : Nat) (s : State) : Bool :=
  s.cfg.owners.any fun o => o.cls == cls && o.index == idx && o.feature == feature

/-! ### Temperature -/

/-- A zone's filtered value in 1/8 °C (R625). -/
def zoneValue (z : Fin 6) (s : State) : Int := (s.thm.zone[z]).value

/-- The zone of a tile (R624). -/
def tileZone (t : Fin 4) : Fin 6 := ⟨t.val, by omega⟩

/-- Thaw runs (R113). -/
def thawing (s : State) : Bool := s.thm.thaw

/-- CRITICAL is declared for some zone and not cleared (R202). -/
def anyCritical (s : State) : Bool := anyOf s.thm.zone (·.critical)

end Sys2Proof.Machine
end

