-- ==== Sys2Proof/Machine/SliceBase.lean ====
section
/-! DEFINITION. What follows from a slice definition alone: cost and span (R276, R277), latency (R302), the bulk delay of a canceller
(R312), and the canceller's start, its clearing of settled and its ceiling (R320, R323 to R327). -/
namespace Sys2Proof.Machine
open Sys2Proof

/-! ### Cost and span -/

/-- A definition's cost in 1/2,048 wu (R276): f_s in GS/s is 4 / 2^k, and the sum is exact at every legal k. -/
def costOf (d : SliceDef) : Nat := (8192 * (d.nCh + 32) + 10240 * d.nFc) / 2 ^ d.k

/-- 1,120 wu in 1/2,048 wu (R278). -/
abbrev engineLimit : Nat := 1120 * 2048

/-- The number of engines a cost spans (R277). -/
def spanOf (cost : Nat) : Nat :=
  if cost ≤ engineLimit then 1 else if cost ≤ 2 * engineLimit then 2 else if cost ≤ 4 * engineLimit then 4 else 8

/-- The sample period in quarter-nanoseconds: f_s = 4 GS/s / 2^k (R271). -/
def samplePeriod (d : SliceDef) : Nat := 2 ^ d.k

/-! ### Latency -/

/-- The channel filter's delay d × T_s in units of 0.025 ns (R286, R302). -/
def filterDelay (d : SliceDef) : Nat :=
  if d.family < 8 then 5 * (d.nCh - 1) * 2 ^ d.k else 5 * d.nCh * 2 ^ d.k / 2

/-- A definition's latency in units of 0.025 ns (R302, SLC_LATENCY_s of R309). -/
def latencyOf (d : SliceDef) : Nat := 11808 + 2 * chainDelay d.k + filterDelay d

/-- A definition's latency in quarter-nanoseconds, rounded up to a whole one. -/
def latencyQ (d : SliceDef) : Nat := (latencyOf d + 9) / 10

/-- From a sample's ADC instant to its slice-output instant, in quarter-nanoseconds rounded up, without the channel filter's own delay: the decimation
chain with 220.8 ns (R303). -/
def outputDelay (d : SliceDef) : Nat := (8832 + chainDelay d.k + 9) / 10

/-- From the slice-output instant to the end of the mix out (R303): the interpolation chain, its check allowance and the mix. -/
def mixDelay (d : SliceDef) : Nat := (chainDelay d.k + 576) / 10

/-- The receive path latency, from the ADC to the slice output (R246). -/
def receiveLatency (d : SliceDef) : Nat := outputDelay d + (filterDelay d + 9) / 10

/-! ### Paths and cancellers -/

/-- The place of a path's canceller: 2s for path A, 2s + 1 for path B (R334). -/
def canIdx (sl : SliceId) (p : PathId) : Fin 512 :=
  match p with
  | .a => ⟨2 * sl.val, by omega⟩
  | .b => ⟨2 * sl.val + 1, by omega⟩

/-- Has a path a canceller: an RX source and taps (R310)? DEDUCED: a path without taps has none. -/
def hasCanceller (d : SliceDef) (p : PathId) : Bool := (pathsOf d).contains p && srcIsRx d p && d.nFc != 0

/-- The fixed loop latency L_loop in units of 0.025 ns (R312). -/
def loopLatency (d : SliceDef) (p : PathId) (loopExt : Nat) : Nat :=
  (if sinkOf d p = .fronthaul then latencyOf d - chainDelay d.k - 2976 else latencyOf d) + 40 * loopExt

/-- The whole samples at or above d (R312). -/
def delayCeil (d : SliceDef) : Nat := if d.family < 8 then d.nCh / 2 else d.nCh / 4

/-- The bulk delay D (R312). -/
def bulkDelay (d : SliceDef) (p : PathId) (loopExt : Nat) : Nat :=
  loopLatency d p loopExt / (10 * 2 ^ d.k) - delayCeil d - 8

/-- The CANCEL entry in force for a path (R313). -/
def cancelEntry (sl : SliceId) (p : PathId) (s : State) : Option CancelEntry :=
  s.cfg.cancel.find? fun e => e.slice == sl && e.path == p

/-- A path's loop_ext (R313). -/
def loopExtOf (sl : SliceId) (p : PathId) (s : State) : Nat := ((cancelEntry sl p s).map (·.loopExt)).getD 0

/-- The parameters of a path without a CANCEL entry (R333). -/
def cancelDefaults : CancelParams :=
  { mode := 0, m := 8, l := 24, v := 18, ceilRise := 50, margin := 1500, iFloor := 4000 }

/-- The parameters of a CANCEL entry. One for a path without a canceller carries zeros (R333): a canceller that the path gets later takes the
defaults in their place (DEDUCED). -/
def entryParams (c : CancelParams) : CancelParams :=
  if c.v = 0 then { cancelDefaults with margin := c.margin, iFloor := c.iFloor } else c

/-- The canceller parameters with which a path starts (R320, R333). RESET starts the path in ADAPT (R319). -/
def cancelStart (sl : SliceId) (p : PathId) (s : State) : CancelParams :=
  let c := ((cancelEntry sl p s).map fun e => entryParams e.params).getD cancelDefaults
  if c.mode = 2 then { c with mode := 0 } else c

/-- A path's parameters in a parameter set. -/
def canParams (x : SliceParams) (p : PathId) : CancelParams :=
  match p with
  | .a => x.canA
  | .b => x.canB

/-- A parameter set with one path's canceller parameters changed. -/
def setCanParams (p : PathId) (f : CancelParams → CancelParams) (x : SliceParams) : SliceParams :=
  match p with
  | .a => { x with canA := f x.canA }
  | .b => { x with canB := f x.canB }

/-- A change of one canceller. -/
def onCanceller (sl : SliceId) (p : PathId) (f : Canceller → Canceller) (s : State) : State :=
  onCan (fun c => { c with path := upd c.path (canIdx sl p) f }) s

/-- A change of the chains of one path. -/
def onChain (sl : SliceId) (p : PathId) (f : Chain → Chain) (s : State) : State :=
  onSig (fun g => { g with path := upd g.path (canIdx sl p) f }) s

/-- A change of one slice. -/
def onSlice (sl : SliceId) (f : Slice → Slice) (s : State) : State :=
  onSlices (fun x => { x with slice := upd x.slice sl f }) s

/-- The raw ceiling of used values and a margin, in 0.01 dB (R325). -/
def rawCeiling (used depth : Nat) (margin : Int) : Int := clampInt (-4000) 8000 ((used : Int) + depth - margin)

/-- The ceiling recomputed at once: it takes the raw ceiling when that is lower (R326). -/
def lowerCeiling (margin : Int) (c : Canceller) : Canceller :=
  let raw := rawCeiling c.iUsed c.cUsed margin
  { c with raw := raw, ceiling := min c.ceiling raw }

/-- The ceiling recomputed at a window's end (R326). -/
def raiseCeiling (margin : Int) (rise : Nat) (c : Canceller) : Canceller :=
  let raw := rawCeiling c.iUsed c.cUsed margin
  { c with raw := raw, ceiling := if raw < c.ceiling then raw else min raw (c.ceiling + rise) }

/-- The ceiling of a path without a canceller (R327). -/
def fixedCeiling (x : CancelParams) : Int := rawCeiling x.iFloor.toNat 0 x.margin

/-- The accumulators at zero: a new evaluation window (R317, R322). -/
def newWindow (c : Canceller) : Canceller :=
  { c with kk := 0, pr := 0, py := 0, gFg := c.wFg.map fun _ => ⟨0, 0⟩, gBg := c.wFg.map fun _ => ⟨0, 0⟩ }

/-- A path's canceller as a definition starts (R320): taps and accumulators zero, settled clear. Where its line lies is
decided by placement. -/
def startCanceller (d : SliceDef) (p : PathId) (x : CancelParams) (loopExt : Nat) : Canceller :=
  if (pathsOf d).contains p then
    if hasCanceller d p then
      let zeros : List Cplx := List.replicate d.nFc ⟨0, 0⟩
      let raw := fixedCeiling x
      { cancellerReset with
        present := true, loopExt := loopExt, delay := bulkDelay d p loopExt, iUsed := x.iFloor.toNat, raw := raw
        ceiling := raw, wFg := zeros, wBg := zeros, gFg := zeros, gBg := zeros }
    else { cancellerReset with iUsed := x.iFloor.toNat, raw := fixedCeiling x, ceiling := fixedCeiling x }
  else cancellerReset

/-- Settled clears, and the ceiling falls to i_floor − margin at once (R323, R324, R326). -/
def unsettle (x : CancelParams) (c : Canceller) : Canceller :=
  lowerCeiling x.margin
    { c with settled := false, copied := false, copyFree := 0, iUsed := x.iFloor.toNat, cUsed := 0 }

/-- Mode RESET acts: both tap sets zeroed and settled cleared (R319). -/
def resetCanceller (x : CancelParams) (c : Canceller) : Canceller :=
  let zeros : List Cplx := c.wFg.map fun _ => ⟨0, 0⟩
  unsettle x { c with wFg := zeros, wBg := zeros }

/-- The live parameters of a path's canceller. -/
def liveCan (sl : SliceId) (p : PathId) (s : State) : CancelParams :=
  match (s.slices.slice[sl]).live with
  | some x => canParams x p
  | none => cancelDefaults

/-- Settled clears on a path that has a canceller. -/
def unsettlePath (sl : SliceId) (p : PathId) (s : State) : State :=
  let x := liveCan sl p s
  onCanceller sl p (fun c => if c.present then unsettle x c else c) s

/-! ### Definitions in the state -/

/-- Is an index defined, that is, not EMPTY (R271)? -/
def isDefined (sl : SliceId) (s : State) : Bool := ((s.slices.slice[sl]).live).isSome || ((s.slices.slice[sl]).restart).isSome

/-- The definition that a command on a slice builds on: that of a restart in progress, else the live one (R299). -/
def baseParams (sl : SliceId) (s : State) : Option SliceParams :=
  match (s.slices.slice[sl]).restart with
  | some r => some r.params
  | none => (s.slices.slice[sl]).live

/-- The captures of a slice end (R307): CAPTURE_END writes their last block. -/
def endCaptures (sl : SliceId) (s : State) : State :=
  onSlices (fun x => { x with capture := x.capture.map fun c => c.map fun y =>
    if y.slice = sl then { y with ending := true } else y }) s

/-- Is a port retired (R193)? -/
def rxRetired (p : Fin 32) (s : State) : Bool := (s.tiles.rx[p]).retired

/-- Is a TX port retired (R193)? -/
def txRetired (p : Fin 32) (s : State) : Bool := (s.tiles.tx[p]).retired

/-- Does a definition name a retired port (R193, R293)? -/
def namesRetired (d : SliceDef) (s : State) : Bool :=
  (pathsOf d).any fun p => ((rxOf (srcOf d p)).any fun q => rxRetired q s) || ((txOf (sinkOf d p)).any fun q => txRetired q s)

/-- The definitions in force or about to start, by index: what capacity and port limits count. -/
def allDefs (s : State) : List (SliceId × SliceDef) :=
  (indices 256).filterMap fun sl => (baseParams sl s).map fun x => (sl, x.defn)

/-- The paths of a definition that use an RX port as source, or a TX port as sink. -/
def rxUses (q : Fin 32) (d : SliceDef) : Bool := (pathsOf d).any fun p => rxOf (srcOf d p) == some q

/-- Does a definition send to a TX port? -/
def txUses (q : Fin 32) (d : SliceDef) : Bool := (pathsOf d).any fun p => txOf (sinkOf d p) == some q

end Sys2Proof.Machine
end

