-- ==== Sys2Proof/Machine/Phases.lean ====
section
/-! DEFINITION. The phases of TDD pairs: side and shift, segments, switching instants and switch times (R213, R214, R388 to R391). -/
namespace Sys2Proof.Machine
open Sys2Proof

/-- The side and shift of a TDD pair, the shift in quarter-nanoseconds (R388): its entry's, or what follows from the slice that
sends to its TX port. -/
def pairView (m : Fin 32) (s : State) : Option (Side × Int) :=
  match (s.tdd.pairs[m]).side with
  | some x => some (x, (s.tdd.pairs[m]).shift)
  | none => (allDefs s).findSome? fun x =>
      if x.2.direction ≠ .tdd then none
      else if txOf x.2.sinkB = some m then some (.donor, 0)
      else if txOf x.2.sinkA = some m then some (.service, (latencyQ x.2 : Int))
      else none

/-- The segment type that a pair sees at an instant, none when its timer does not run a pattern (R388, R390). -/
def pairSegment (m : Fin 32) (t : Nat) (s : State) : Option SegType :=
  match pairTimer m s, pairView m s with
  | some i, some (_, shift) =>
    let x := s.tdd.timers[i]
    match x.pattern with
    | none => none
    | some p =>
      if x.state = .running then some (segmentAt p.segs 0 (phaseAt p (shiftTime t (-shift)))).2 else none
  | _, _ => none

/-- The type of the DL or UL segment that a phase lies in, or that follows the gap it lies in. -/
def comingType (p : Pattern) (ph : Nat) : SegType :=
  let here := segmentAt p.segs 0 ph
  if here.2 = .gap then ((p.segs[(here.1 + 1) % p.segs.length]?).map (·.typ)).getD .gap else here.2

/-- Does a pair transmit in segments of a type (R388)? -/
def transmitsIn (x : Side) (t : SegType) : Bool :=
  match x with
  | .donor => t == .ul
  | .service => t == .dl

/-- Is a pair in its transmit phase at an instant? Only while its timer runs (R390, R393). -/
def transmitPhase (m : Fin 32) (t : Nat) (s : State) : Bool :=
  match pairTimer m s, pairView m s with
  | some i, some (side, shift) =>
    let x := s.tdd.timers[i]
    match x.pattern with
    | none => false
    | some p => x.state == .running && transmitsIn side (comingType p (phaseAt p (shiftTime t (-shift))))
  | _, _ => false

/-- A pair's next switching instant at or after now (R391). -/
def nextSwitch (m : Fin 32) (s : State) : Option Nat :=
  match pairTimer m s, pairView m s with
  | some i, some (_, shift) =>
    let x := s.tdd.timers[i]
    match x.pattern with
    | none => none
    | some p =>
      let per := 4 * periodNs p.period
      let ph := phaseAt p (shiftTime s.now (-shift))
      if x.state != .running then none
      else match (switchPhases p.segs 0).map fun e => (e + per - ph) % per with
        | [] => none
        | a :: l => some (s.now + l.foldl min a)
  | _, _ => none

/-- The strobe lead or lag sums of a pair's two switches, less ramp_short, in ns (R213): the larger. -/
def switchSum (fems : Vector Fem 16) (m : Fin 32) : Nat :=
  match findIdx fems fun f => f.enable && f.port == m with
  | none => 100
  | some n =>
    let st := (fems[n]).strobes
    let lead := max (st[0].lead) (max (st[2].lead) (st[3].lead))
    let lag := max (st[0].lag) (max (st[2].lag) (st[3].lag))
    max (8 * st[1].lag + 100 + 8 * lead) (8 * lag + 100 + 8 * st[1].lead)

/-- A pair's switch time in ns (R213, R214). -/
def switchTime (m : Fin 32) (s : State) : Nat := switchSum s.fec.fems m + (s.tiles.tx[m]).rampShort

end Sys2Proof.Machine
end

