-- ==== Sys2Proof/Machine/Outputs.lean ====
section
/-! DEFINITION. What follows from the state and the time at the balls of the front end: ramps (R164 to R168, R356), the entry of RX samples, the
strobes with their leads and lags (R210 to R216, R223, R237), and coexistence lines (R227 to R232). `settle` brings them up to date; every fabric
cycle and every command that touches them does so. -/
namespace Sys2Proof.Machine
open Sys2Proof

/-! ### Ramps (R164 to R167) -/

/-- The monotonic count at which a ramp reaches its end: a reversed ramp takes the fraction that remains (R167). -/
def rampEnd (r : Ramp) : Nat := r.start + ((if r.up then 2 ^ 32 - r.base else r.base) * r.length + (2 ^ 32 - 1)) / 2 ^ 32

/-- Is a ramp on its way to an end that it has not reached? -/
def ramping (mono : Nat) (r : Ramp) : Bool := decide (mono < rampEnd r)

/-! ### Leads and lags (R212, R213) -/

/-- The link bound to a port index (R210). -/
def linkOfPort (m : Fin 32) (s : State) : Option (Fin 16) := findIdx s.fec.fems fun f => f.enable && f.port == m

/-- A measure of the strobes of the link bound to a port index, in units of 8 ns, as quarter-nanoseconds; zero without a link. -/
def ofLink (f : Vector Strobe 4 → Nat) (m : Fin 32) (s : State) : Nat :=
  ((linkOfPort m s).map fun n => 32 * f (s.fec.fems[n]).strobes).getD 0

/-- The largest of the TXEN, BYP and PAEN leads. -/
def txLead (m : Fin 32) (s : State) : Nat := ofLink (fun x => max x[0].lead (max x[2].lead x[3].lead)) m s

/-- The largest of the TXEN, BYP and PAEN lags. -/
def txLag (m : Fin 32) (s : State) : Nat := ofLink (fun x => max x[0].lag (max x[2].lag x[3].lag)) m s

/-- The RXEN lead. -/
def rxLead (m : Fin 32) (s : State) : Nat := ofLink (fun x => x[1].lead) m s

/-- The RXEN lag. -/
def rxLag (m : Fin 32) (s : State) : Nat := ofLink (fun x => x[1].lag) m s

/-- The longest request lead of the requester pairs bound to a port (R228). -/
def requestLead (m : Fin 32) (s : State) : Nat :=
  (indices 8).foldl (fun n c => let x := s.fec.cx[c]; if x.role = 1 ∧ x.ports.getLsbD m = true then max n (4000 * x.lead) else n) 0

/-- The 15 µs between the request and the ramp-up, and between the request and the entry of samples, of a port in SynthOn (R199). DESIGN CHOICE:
of the range that the table gives, the typical value. -/
def entryTime : Nat := 60000

/-! ### Transmit (R164 to R168, R198, R207, R233) -/

/-- Has boot reached step 9, before which no TX port transmits (R110)? -/
def stepNine (s : State) : Bool := s.boot.stage == .ready || s.boot.stage == .noConfig || s.boot.stage == .fatal

/-- Is the radio of a TX port in Transmit, or on its way there from SynthOn, with Transmit as its target (R196, R199)? -/
def txRadioOn (m : Fin 32) (s : State) : Bool :=
  let r := (s.tiles.tx[m]).radio
  r.target == .active && (r.state == .active ||
    (r.state == .synthOn && (s.tiles.tile[tileOf m]).state == .synthOn && !s.thm.thaw && stepNine s))

/-- Is a port outside a TDD pair, or its pair in a transmit segment (R198)? -/
def txPhase (m : Fin 32) (s : State) : Bool := !isPair m s || (s.tdd.pairs[m]).transmitting

/-- Does the radio of a TX port want its output on, whatever gates it? -/
def txWanted (m : Fin 32) (s : State) : Bool := txRadioOn m s && txPhase m s

/-- How long a ramp-up waits once a port is to transmit: for the entry into Transmit and a request's lead (R199, R228), for the switch of a
pair that receives (R213), or for the leads alone (R212). -/
def upDelay (m : Fin 32) (entry : Bool) (s : State) : Nat :=
  if entry then max entryTime (max (txLead m s) (requestLead m s))
  else if isPair m s && (s.tiles.rx[m]).due.isSome then rxLag m s + 400 + txLead m s
  else txLead m s

/-- A drive brought up to date (R164 to R168, R228, R229, R356): `gated` says that a gate other than halt and grant holds the port, `halted` that
the halt path bypasses the ramp. A change of the radio state and the end of a halt take the long ramp, every other change the short one. DESIGN
CHOICE: once a grant that was missing arrives, the leads come before the ramp-up. -/
def driveStep (m : Fin 32) (gated halted : Bool) (d : Drive) (s : State) : Drive :=
  let x := s.tiles.tx[m]
  let mono := s.time.mono
  let radio := txRadioOn m s
  let on := clocked x.radio && !halted
  let want := radio && txPhase m s && !gated && on
  let missing := grantMissing m s
  let changed := radio != d.radioOn
  let level := rampAt mono d.ramp
  let due :=
    if !want then none
    else match d.due with
      | none => some (mono + if level = 0 then upDelay m changed s else 0)
      | some t => if d.waits && !missing then some (mono + if level = 0 then txLead m s else 0) else some t
  let ready := due.any fun t => decide (t ≤ mono)
  let go := ready && !missing
  let long :=
    if changed then true
    else if want && d.due.isNone then d.cut
    else if d.ramp.up && !go then false
    else d.long
  let length := if long then 4000 * x.rampLong else 4 * x.rampShort
  let ramp : Ramp :=
    if !on then (if d.ramp.up || level != 0 then { up := false, base := 0, start := mono, length := length } else d.ramp)
    else if go == d.ramp.up then d.ramp
    else
      { up := go, base := level, length := length
        start := match due with
          | some t => if go && decide (s.fec.settledAt < t) then t else mono
          | none => mono }
  { due := due, long := long, radioOn := radio, waits := ready && missing, cut := halted, ramp := ramp }

/-- The output state that a drive shows (R195). -/
def outputOf (mono : Nat) (d : Drive) : TxOutput :=
  let level := rampAt mono d.ramp
  if d.ramp.up then (if level = 2 ^ 32 then .on else .rampingUp) else if level = 0 then .off else .rampingDown

/-- A TX port brought up to date. -/
def driveTx (s : State) (m : Fin 32) (x : TxPort) : TxPort :=
  let gated := gateWord m s % 16 / 2 != 0
  let d := driveStep m gated (haltAsserted s) x.drive s
  { x with drive := d, ungated := driveStep m gated false x.ungated s, output := outputOf s.time.mono d }

/-! ### Receive (R196, R198, R212, R213) -/

/-- Is the radio of an RX port in Receive, or on its way there from SynthOn, with Receive as its target? -/
def rxRadioOn (m : Fin 32) (s : State) : Bool :=
  let r := (s.tiles.rx[m]).radio
  r.target == .active && (r.state == .active || (r.state == .synthOn && (s.tiles.tile[tileOf m]).state == .synthOn))

/-- An RX port brought up to date: its samples enter from `due` on. A pair with target Transmit receives in receive segments only, one with
target Receive always (R198). -/
def driveRx (s : State) (m : Fin 32) (x : RxPort) : RxPort :=
  let mono := s.time.mono
  let want := rxRadioOn m s && !(isPair m s && (s.tdd.pairs[m]).transmitting && txRadioOn m s)
  let delay :=
    if x.radio.state ≠ .active then max entryTime (rxLead m s)
    else if isPair m s && txRadioOn m s then 4 * (s.tiles.tx[m]).rampShort + txLag m s + 400 + rxLead m s
    else rxLead m s
  { x with
    due := if want then some (x.due.getD (mono + delay)) else none
    stopped := if !want && x.due.any (fun t => decide (t ≤ mono)) then some mono else x.stopped }

/-! ### Strobes (R210 to R216, R220, R223, R237) -/

/-- The level of a radio-timed TXEN, BYP or PAEN: from its lead before a ramp-up until its lag after a ramp-down (R212). While a port waits
for a grant it is deasserted. -/
def timedTx (mono : Nat) (x : Strobe) (d : Drive) : Bool :=
  d.ramp.up || rampAt mono d.ramp != 0
    || (!d.waits && d.due.any fun t => decide (t ≤ mono + 32 * x.lead))
    || (d.ramp.start != 0 && decide (mono < rampEnd d.ramp + 32 * x.lag))

/-- The level of a radio-timed RXEN (R212). -/
def timedRx (mono : Nat) (x : Strobe) (p : RxPort) : Bool :=
  p.due.any (fun t => decide (t ≤ mono + 32 * x.lead)) || (p.due.isNone && p.stopped.any fun t => decide (mono < t + 32 * x.lag))

/-- Are the strobes of a link deasserted because its ports sleep (R196), or because one of them has entered Sleep and none works yet (R215)? -/
def asleep (f : Fem) (s : State) : Bool :=
  f.dropped || ((s.tiles.rx[f.port]).radio.state == .sleep && (s.tiles.tx[f.port]).radio.state == .sleep)

/-- Do the strobes of a link still wait for its Sleep list (R220)? They wait for at most 50 µs (R215). -/
def waitsForList (f : Fem) (mono : Nat) : Bool :=
  !f.stopped && f.sleepUntil.any (fun t => decide (mono < t)) && f.queue.any fun c => c.client == .writeList

/-- The level of strobe `i` of a link (R210 to R216, R223, R237): TXEN 0, RXEN 1, BYP 2, PAEN 3. A FEM hold and a port mute deassert TXEN and PAEN
once the ramp-down has ended. -/
def strobeLevel (n : Fin 16) (i : Fin 4) (s : State) : Bool :=
  let f := s.fec.fems[n]
  let x := s.tiles.tx[f.port]
  let y := f.strobes[i]
  let mono := s.time.mono
  let tx := i.val == 0 || i.val == 3
  let held := f.enable && (f.hold || portMuted f.port s) && rampAt mono x.drive.ramp == 0
  if tx && (haltAsserted s || held) then false
  else if ownedBy 0x01 (4 * n.val + i.val) 0x09 s then f.manual.getLsbD i
  else if !f.enable then false
  else if waitsForList f mono then y.asserted
  else if asleep f s then false
  else
    let on := if i.val = 1 then timedRx mono y s.tiles.rx[f.port] else timedTx mono y (if i.val = 2 then x.ungated else x.drive)
    match y.mode with
    | 0 => false
    | 1 => on
    | 2 => true
    | _ => !on

/-- Does a port of an index begin to receive or to transmit, between an earlier state and this one? -/
def begins (m : Fin 32) (old s : State) : Bool :=
  ((s.tiles.rx[m]).due.isSome && (old.tiles.rx[m]).due.isNone) || ((s.tiles.tx[m]).ungated.due.isSome && (old.tiles.tx[m]).ungated.due.isNone)

/-- A link brought up to date. -/
def driveFem (old s : State) (n : Fin 16) (f : Fem) : Fem :=
  { f with
    strobes := updAll f.strobes fun i y => { y with asserted := strobeLevel n i s }
    dropped := f.dropped && !begins f.port old s
    sleepUntil := if waitsForList f s.time.mono then f.sleepUntil else none }

/-! ### Coexistence (R227 to R232) -/

/-- Does a port's ramp-up come within a lead: one that is due, or that of a pair whose next switch leads into a transmit segment (R228, R230)? -/
def rampsWithin (m : Fin 32) (lead : Nat) (s : State) : Bool :=
  let d := (s.tiles.tx[m]).drive
  let mono := s.time.mono
  d.due.any (fun t => decide (mono < t) && decide (t ≤ mono + lead)) ||
    (isPair m s && txRadioOn m s && !(s.tdd.pairs[m]).transmitting && gateWord m s % 16 == 0 &&
      match nextSwitch m s with
      | none => false
      | some t => transmitPhase m t s && decide (t - s.now + rxLag m s + 400 + txLead m s ≤ lead))

/-- Is a port's output on or ramping? -/
def transmits (m : Fin 32) (s : State) : Bool :=
  let d := (s.tiles.tx[m]).drive
  d.ramp.up || rampAt s.time.mono d.ramp != 0

/-- Does a port hold a requester's request: it is in Transmit, in a transmit segment of its pair, or ramping, or its ramp-up comes within the lead
(R228)? -/
def holdsRequest (lead : Nat) (m : Fin 32) (s : State) : Bool :=
  ((s.tiles.tx[m]).radio.state == .active && txWanted m s) || transmits m s || rampsWithin m lead s

/-- A coexistence pair's lines (R227 to R232). A requester drives its request from its bound ports, and drops it while a blanking input holds
every one of them; an arbiter grants while it is asked and no bound port transmits or is about to. -/
def cxLevels (s : State) (c : CxPair) : CxPair :=
  let mono := s.time.mono
  let ports : List (Fin 32) := (indices 32).filter fun m => c.ports.getLsbD m
  if c.role = 1 then
    let held := ports.any fun m => holdsRequest (4000 * c.lead) m s
    let last := ports.foldl (fun t m => max t (rampEnd (s.tiles.tx[m]).drive.ramp)) 0
    let blanked := !ports.isEmpty && ports.all fun m => txBlanked m s
    let waits := ports.any fun m => (s.tiles.tx[m]).drive.waits
    { c with
      request := !blanked && (held || (c.request && decide (mono < last + 4000 * c.lag))), grant := c.pinG, gating := waits
      waitSince := if waits then some (c.waitSince.getD mono) else none, counted := c.counted && waits }
  else
    let busy (m : Fin 32) : Bool := !txBlanked m s && (transmits m s || rampsWithin m (4000 * c.lead) s)
    { c with
      request := c.pinA, grant := if c.role = 2 then c.pinA && !ports.any busy else c.pinG, gating := false, waitSince := none, counted := false }

/-- The lines that a pair drives go out when they change. -/
def cxEdges (old : FrontEnd) (s : State) (c : Fin 8) : State :=
  let a := old.cx[c]
  let b := s.fec.cx[c]
  if b.role = 1 && a.request != b.request then emit (.request c b.request) s
  else if b.role = 2 && a.grant != b.grant then emit (.grant c b.grant) s
  else s

/-! ### Everything -/

/-- The RX and TX ports brought up to date: a pair's converters see each other as they stood before. -/
def settlePorts (s : State) : State :=
  { s with tiles := { s.tiles with rx := updAll s.tiles.rx fun m x => driveRx s m x, tx := updAll s.tiles.tx fun m x => driveTx s m x } }

/-- The coexistence pairs brought up to date. -/
def settleCx (s : State) : State :=
  let t : State := { s with fec := { s.fec with cx := s.fec.cx.map (cxLevels s) } }
  (indices 8).foldl (cxEdges s.fec) t

/-- The links brought up to date, after the ports, which stood as in `old` before. -/
def settleFems (old s : State) : State :=
  { s with fec := { s.fec with fems := updAll s.fec.fems (driveFem old s), settledAt := s.time.mono } }

/-- The outputs, strobes and coexistence lines brought to what the state and the time demand. -/
def settle (s : State) : State := settleFems s (settleCx (settlePorts s))

end Sys2Proof.Machine
end

