-- ==== Sys2Proof/Machine/ProtectBase.lean ====
section
/-! DEFINITION. The override stage (R19, R335 to R338, R353, R354): trims and mutes of slices and ports, the halt path, and the record and
the error source that each change of a cause carries. -/
namespace Sys2Proof.Machine
open Sys2Proof

/-! ### Reading and changing the override stage -/

/-- A change of a slice index's protection. -/
def onSliceProt (sl : SliceId) (f : SliceProt → SliceProt) (s : State) : State :=
  onNps (fun n => { n with slice := upd n.slice sl f }) s

/-- A change of a TX port's protection. -/
def onPortProt (m : Fin 32) (f : PortProt → PortProt) (s : State) : State :=
  onNps (fun n => { n with port := upd n.port m f }) s

/-- The protection of a path. -/
def pathProt (x : SliceProt) (p : PathId) : PathProt :=
  match p with
  | .a => x.a
  | .b => x.b

/-- A change of one path's protection. -/
def onPathProt (sl : SliceId) (p : PathId) (f : PathProt → PathProt) (s : State) : State :=
  onSliceProt sl (fun x => match p with
    | .a => { x with a := f x.a }
    | .b => { x with b := f x.b }) s

/-- A trim component of a path (R336). -/
def trimOf (x : PathProt) (k : TrimKind) : Trim :=
  match k with
  | .squall => x.squall
  | .overdrive => x.overdrive
  | .noise => x.noise
  | .emission => x.emission

/-- A path with one trim component changed. -/
def setTrim (k : TrimKind) (f : Trim → Trim) (x : PathProt) : PathProt :=
  match k with
  | .squall => { x with squall := f x.squall }
  | .overdrive => { x with overdrive := f x.overdrive }
  | .noise => { x with noise := f x.noise }
  | .emission => { x with emission := f x.emission }

/-- The sum of a path's trim components in 0.01 dB (R336). -/
def trimSum (x : PathProt) : Nat := x.squall.value + x.overdrive.value + x.noise.value + x.emission.value

/-- A path's total trim in 0.01 dB: the sum, held at max_trim (R336, R353). -/
def totalTrim (sl : SliceId) (p : PathId) (s : State) : Nat :=
  min s.nps.cfg.maxTrim (trimSum (pathProt (s.nps.slice[sl]) p))

/-- A path number in a record (R596). -/
def pathByte : PathId → Nat
  | .a => 0
  | .b => 1

/-- The cause code of a trim component (R337). -/
def trimCause : TrimKind → Nat
  | .squall => 1
  | .overdrive => 5
  | .noise => 6
  | .emission => 7

/-- The cause code of a slice mute (R337). -/
def muteCause : SliceMute → Nat
  | .squall => 2
  | .emission => 8
  | .donorLoss => 9
  | .tddTiming => 10

/-- The cause code of a port mute (R337). -/
def portCause : PortMute → Nat
  | .squall => 3
  | .reflected => 4

/-- The cause code of a halt (R337). -/
def haltCode : HaltCause → Nat
  | .host => 11
  | .mgmt => 12
  | .reset => 13
  | .thermal => 14

/-- Is a mute cause active on a slice? -/
def muteOf (x : SliceProt) : SliceMute → Bool
  | .squall => x.squallMute
  | .emission => x.emissionMute
  | .donorLoss => x.donorLoss
  | .tddTiming => x.tddTiming

/-- A slice with one mute cause set or cleared. -/
def setMuteOf (k : SliceMute) (on : Bool) (x : SliceProt) : SliceProt :=
  match k with
  | .squall => { x with squallMute := on }
  | .emission => { x with emissionMute := on }
  | .donorLoss => { x with donorLoss := on }
  | .tddTiming => { x with tddTiming := on }

/-- Is a slice on Mute slice (R335)? -/
def sliceMuted (x : SliceProt) : Bool := x.squallMute || x.emissionMute || x.donorLoss || x.tddTiming

/-- Holds a slice SQUALL_TRIM or SQUALL_MUTE (R342)? -/
def holdsSquall (x : SliceProt) : Bool := x.squallMute || x.a.squall.value != 0 || x.b.squall.value != 0

/-- The causes active on a slice, bit c for cause code c (NPS_SLICE_s of R369). -/
def causeBits (x : SliceProt) : Nat :=
  let trim (k : TrimKind) : Nat := bit ((trimOf x.a k).value != 0 || (trimOf x.b k).value != 0) * 2 ^ trimCause k
  let mute (k : SliceMute) : Nat := bit (muteOf x k) * 2 ^ muteCause k
  trim .squall + trim .overdrive + trim .noise + trim .emission
    + mute .squall + mute .emission + mute .donorLoss + mute .tddTiming

/-- The slices with a sink on a TX port that hold a Squall cause (R342, NPS_PORT_m of R369). -/
def squallSlices (m : Fin 32) (s : State) : Nat := ((slicesOnTx m s).filter fun sl => holdsSquall (s.nps.slice[sl])).length

/-! ### Changes of a cause -/

/-- A PROTECTION record (R338, R596): action 0 activated, 1 released, 2 trim raised, 3 trim lowered. -/
def protRecord (cause action path tgt : Nat) (value : Int) (s : State) : State :=
  recordNow (.protection cause action path tgt value) s

/-- The error source of a cause code 1 to 10 (R368). -/
def causeSource (cause : Fin 11) : Fin 320 := ⟨127 + cause.val, by omega⟩

/-- A trim component takes a value (R336, R352): a recurrence stops its release. `fresh` is the measurement that fired, which the record of
an activation carries when there is one; every other record carries the total trim. `src` raises an error source. -/
def setTrimValue (sl : SliceId) (p : PathId) (k : TrimKind) (value : Nat) (present : Bool) (fresh : Option Int)
    (src : State → State) (s : State) : State :=
  let old := pathProt (s.nps.slice[sl]) p
  let was := (trimOf old k).value
  let s := onPathProt sl p (setTrim k fun _ => { value := value, present := present, releasing := false, fast := false }) s
  let s := if value = was then s
           else src (protRecord (trimCause k) (if was = 0 then 0 else 2) (pathByte p) (target .slice sl)
             (fresh.getD (totalTrim sl p s)) s)
  if s.nps.cfg.maxTrim < trimSum (pathProt (s.nps.slice[sl]) p) && trimSum old ≤ s.nps.cfg.maxTrim then
    raise 139 (target .slice sl) 0 s
  else s

/-- A trim component falls by at most 0.50 dB (R352, R360): at zero its cause is released, and notification 140 says so. -/
def lowerTrim (sl : SliceId) (p : PathId) (k : TrimKind) (s : State) : State :=
  let x := trimOf (pathProt (s.nps.slice[sl]) p) k
  if x.value = 0 then s
  else
    let v := x.value - 50
    let s := onPathProt sl p (setTrim k fun t =>
      if v = 0 then { value := 0, present := false, releasing := false, fast := false } else { t with value := v }) s
    let s := protRecord (trimCause k) (if v = 0 then 1 else 3) (pathByte p) (target .slice sl) (totalTrim sl p s) s
    if v = 0 then notify 140 (target .slice sl) 0 s else s

/-- A trim component is dropped at once (R361). -/
def dropTrim (sl : SliceId) (p : PathId) (k : TrimKind) (s : State) : State :=
  lowerTrim sl p k (onPathProt sl p (setTrim k fun t => { t with value := min t.value 50 }) s)

/-- A mute cause becomes active on a slice (R338); nothing happens when it is active already. TDD_TIMING names no unit (R693). -/
def muteSlice (inj : Bool) (sl : SliceId) (k : SliceMute) (value : Int) (s : State) : State :=
  if muteOf (s.nps.slice[sl]) k then s
  else
    let s := onSliceProt sl (setMuteOf k true) s
    let s := protRecord (muteCause k) 0 0 (target .slice sl) value s
    match k with
    | .squall => raiseBy inj 129 (target .slice sl) 0 s
    | .emission => raiseBy inj 135 (target .slice sl) 0 s
    | .donorLoss => raiseBy inj 136 (target .slice sl) 0 s
    | .tddTiming => raiseBy inj 137 0 0 s

/-- A mute cause of a slice is released (R338). -/
def unmuteSlice (sl : SliceId) (k : SliceMute) (s : State) : State :=
  if muteOf (s.nps.slice[sl]) k then
    let s := onSliceProt sl (setMuteOf k false) s
    notify 140 (target .slice sl) 0 (protRecord (muteCause k) 1 0 (target .slice sl) 0 s)
  else s

/-- A mute cause becomes active on a TX port (R335, R342, R343): the port is off; a port that was not muted counts a mute. -/
def mutePort (inj : Bool) (m : Fin 32) (k : PortMute) (fromLoad : Bool) (value : Int) (s : State) : State :=
  let x := s.nps.port[m]
  let active := match k with
    | .reflected => x.reflected
    | .squall => x.squall
  if active then s
  else
    let count := if x.reflected || x.squall then x.muteCount else (x.muteCount + 1) % 65536
    let s := onPortProt m (fun x => match k with
      | .reflected => { x with reflected := true, fromLoad := fromLoad, muteCount := count }
      | .squall => { x with squall := true, muteCount := count }) s
    let s := protRecord (portCause k) 0 0xFF (target .txPort m) value s
    settle (match k with
      | .reflected => raiseBy inj 131 (target .txPort m) 0 s
      | .squall => raiseBy inj 130 (target .txPort m) 0 s)

/-- A mute cause of a TX port is released (R338, R360). -/
def unmutePort (m : Fin 32) (k : PortMute) (s : State) : State :=
  let s := onPortProt m (fun x => match k with
    | .reflected => { x with reflected := false, fromLoad := false }
    | .squall => { x with squall := false }) s
  settle (notify 140 (target .txPort m) 0 (protRecord (portCause k) 1 0xFF (target .txPort m) 0 s))

/-- Is a halt source active (R354)? -/
def haltOf (n : Protect) : HaltCause → Bool
  | .host => n.haltHost
  | .mgmt => n.haltMgmt
  | .reset => n.haltReset
  | .thermal => n.haltThermal

/-- The supervisor with a halt source set or cleared. -/
def setHaltOf (k : HaltCause) (on : Bool) (n : Protect) : Protect :=
  match k with
  | .host => { n with haltHost := on }
  | .mgmt => { n with haltMgmt := on }
  | .reset => { n with haltReset := on }
  | .thermal => { n with haltThermal := on }

/-- A halt source is set (R354): outputs and TXEN and PAEN are off at once, error 138 holds while the path is asserted, and NPS_HALT_TIME
takes the instant. A source that is set already sets nothing. -/
def setHalt (k : HaltCause) (s : State) : State :=
  if haltOf s.nps k then s
  else
    let s := onNps (fun n => { setHaltOf k true n with haltTime := s.stamp }) s
    settle (setCond 138 true 0 0 (protRecord (haltCode k) 0 0xFF 0 0 s))

/-- A halt source is released (R355, R356). -/
def clearHalt (k : HaltCause) (s : State) : State :=
  if haltOf s.nps k then
    let s := onNps (setHaltOf k false) s
    let s := notify 140 0 0 (protRecord (haltCode k) 1 0xFF 0 0 s)
    settle (if haltAsserted s then s else setCond 138 false 0 0 s)
  else s

end Sys2Proof.Machine
end

