-- ==== Sys2Proof/Machine/PlaceBase.lean ====
section
/-! DEFINITION. Weathervane's choices (R444 to R448): engine loads and scores, the engine of a part, the pages of a buffer, and what
a placement reserves and frees. -/
namespace Sys2Proof.Machine
open Sys2Proof

/-! ### What engines carry -/

/-- One part as an engine carries it: its slice, its owner, whether it is the home part, its cost and its local bytes. -/
structure Carried where
  engine : Fin 64
  slice  : SliceId
  owner  : Fn
  home   : Bool
  cost   : Nat
  bytes  : Nat
  deriving DecidableEq, Repr

/-- The bytes of the lines that a home part holds locally (R446). -/
def lineBytes (h : Hosting) : Nat := h.lines.foldl (fun t l => t + l.2) 0

/-- The parts of a hosting. -/
def partsOf (sl : SliceId) (owner : Fn) (h : Hosting) : List Carried :=
  h.engines.zipIdx.map fun x =>
    { engine := x.1, slice := sl, owner := owner, home := x.2 == 0, cost := h.cost
      bytes := h.need + (if x.2 = 0 then lineBytes h else 0) }

/-- A slice's parts, those in force and those reserved: on an engine that carries both, the larger counts (DEDUCED from
R295: the old definition stops at the strobe at which the new one starts). -/
def mergeParts (live next : List Carried) : List Carried :=
  let same (a : Carried) (l : List Carried) : Option Carried := l.find? fun b => b.engine == a.engine
  (live.map fun a => match same a next with
    | some b => { a with home := a.home || b.home, cost := max a.cost b.cost, bytes := max a.bytes b.bytes }
    | none => a) ++ next.filter fun b => (same b live).isNone

/-- The owner of a slice index's definition. -/
def ownerOf (sl : SliceId) (s : State) : Fn := ((baseParams sl s).map (·.defn.owner)).getD 0

/-- What a move in flight reserves on its target (R450), unless a reservation of the slice counts there already. -/
def moveCarried (s : State) (m : Move) : Option Carried :=
  if ((s.plc.placed[m.slice]).next).any fun h => h.engines.contains m.dst then none
  else ((s.plc.placed[m.slice]).live).map fun h =>
    { engine := m.dst, slice := m.slice, owner := ownerOf m.slice s, home := m.part == 0, cost := h.cost
      bytes := h.need + (if m.part = 0 then lineBytes h else 0) }

/-- The moves in flight. -/
def movesOf (s : State) : List Move := s.plc.moves.toList.filterMap id

/-- Every part that engines carry, the targets of moves included. -/
def carried (s : State) : List Carried :=
  ((indices 256).flatMap fun sl =>
    let p := s.plc.placed[sl]
    let get (h : Option Hosting) : List Carried := (h.map (partsOf sl (ownerOf sl s))).getD []
    mergeParts (get p.live) (get p.next)) ++ (movesOf s).filterMap (moveCarried s)

/-- The parts on one engine. -/
def onEngine (l : List Carried) (e : Fin 64) : List Carried := l.filter fun c => c.engine == e

/-- The load of an engine in 1/2,048 wu (R444). -/
def loadOf (l : List Carried) (e : Fin 64) : Nat := (onEngine l e).foldl (fun t c => t + c.cost) 0

/-- The local bytes in use on an engine (R446). -/
def bytesOf (l : List Carried) (e : Fin 64) : Nat := (onEngine l e).foldl (fun t c => t + c.bytes) 0

/-- The local bytes that hosted parts may use (R446). -/
abbrev localBytes : Nat := 224 * 1024

/-! ### Scores (R444) -/

/-- The quadrant of an engine. -/
def quadrant (e : Fin 64) : Fin 4 := ⟨e.val / 16, by omega⟩

/-- The sensor of a quadrant (R624). -/
def quadSensor (q : Fin 4) : Fin 24 := ⟨16 + q.val, by omega⟩

/-- A quadrant's filtered reading in 1/8 °C. -/
def quadTemp (q : Fin 4) (s : State) : Int := (s.thm.sensor[quadSensor q]).value

/-- The hottest or, with `low`, the coolest quadrant; ties lowest index. -/
def quadExtreme (low : Bool) (s : State) : Fin 4 :=
  (indices 4).foldl (fun m q =>
    if low then (if quadTemp q s < quadTemp m s then q else m) else (if quadTemp m s < quadTemp q s then q else m)) 0

/-- How far the hottest quadrant's reading lies above the coolest's, in 1/8 °C. -/
def spreadOf (s : State) : Int := quadTemp (quadExtreme false s) s - quadTemp (quadExtreme true s) s

/-- The engines of a quadrant. -/
def enginesOf (q : Fin 4) : List (Fin 64) := (indices 64).filter fun e => quadrant e == q

/-- Is an engine out of the fabric: RETIRED, FORBIDDEN, or forbidden and holding nothing, which makes it FORBIDDEN (R467, R470)? -/
def engineOut (l : List Carried) (s : State) (e : Fin 64) : Bool :=
  let x := s.plc.engine[e]
  x.state == .retired || x.state == .forbidden || (x.state == .available && x.forbid && (onEngine l e).isEmpty)

/-- The number of a quadrant's engines that are neither RETIRED nor FORBIDDEN. -/
def availIn (l : List Carried) (q : Fin 4) (s : State) : Nat := ((enginesOf q).filter fun e => !engineOut l s e).length

/-- The load of a quadrant in 1/2,048 wu. -/
def quadLoad (l : List Carried) (q : Fin 4) : Nat := (enginesOf q).foldl (fun t e => t + loadOf l e) 0

/-- The lowest quadrant temperature. -/
def minTemp (s : State) : Int :=
  (indices 4).foldl (fun t q => min t (quadTemp q s)) (quadTemp 0 s)

/-- The score of a quadrant in 1/2,048 wu (R444). -/
def scoreOf (l : List Carried) (s : State) (q : Fin 4) : Nat :=
  quadLoad l q + engineLimit * (16 - availIn l q s)
    + 2048 * ((s.plc.thermalWeight : Int) * (quadTemp q s - minTemp s) / 8).toNat

/-- The quadrants in ascending score, ties in ascending index. -/
def quadOrder (l : List Carried) (s : State) : List (Fin 4) :=
  sortBy (fun a b => decide (scoreOf l s a ≤ scoreOf l s b)) (indices 4)

/-! ### The engine of a part (R445) -/

/-- The engine pins of a slice hold an engine. -/
def inPins (sl : SliceId) (e : Fin 64) (s : State) : Bool :=
  s.plc.pins.all fun p => !(p.slice == sl && p.kind == 0) || p.mask.getLsbD e

/-- What is being placed: its slice, owner, cost and bytes, whether it is a home part, and engines it may not take. -/
structure PartNeed where
  slice : SliceId
  owner : Fn
  home  : Bool
  cost  : Nat
  bytes : Nat
  avoid : List (Fin 64)
  deriving DecidableEq, Repr

/-- Is an engine a candidate for a part (R445)? -/
def candidate (l : List Carried) (n : PartNeed) (s : State) (e : Fin 64) : Bool :=
  (s.plc.engine[e]).state == .available && !(s.plc.engine[e]).forbid && inPins n.slice e s && !n.avoid.contains e
    && !((onEngine l e).any fun c => c.slice == n.slice)
    && (onEngine l e).length < 32 && loadOf l e + n.cost ≤ engineLimit && bytesOf l e + n.bytes ≤ localBytes
    && (!n.home || ((onEngine l e).filter (·.home)).length < 16)

/-- The preferred engine of a list of candidates: lowest load under SPREAD, highest under PACK, ties lowest index. -/
def prefer (l : List Carried) (pack : Bool) : List (Fin 64) → Option (Fin 64)
  | [] => none
  | e :: es => some (es.foldl (fun b x =>
      if pack then (if loadOf l b < loadOf l x then x else b) else (if loadOf l x < loadOf l b then x else b)) e)

/-- The engines of a quadrant that a part may take: with owner_separate set, those without another owner's parts, when
there are any. -/
def choices (l : List Carried) (n : PartNeed) (s : State) (q : Fin 4) : List (Fin 64) :=
  let c := (enginesOf q).filter (candidate l n s)
  let own := c.filter fun e => !((onEngine l e).any fun x => x.owner != n.owner)
  if s.plc.ownerSeparate && !own.isEmpty then own else c

/-- The engine that Weathervane chooses for a part (R445). -/
def choose (l : List Carried) (n : PartNeed) (s : State) : Option (Fin 64) :=
  (quadOrder l s).findSome? fun q => prefer l s.plc.policy (choices l n s q)

/-! ### Hostings -/

/-- The canceller paths of a definition with the containers of their lines, D + N_fc (R314). -/
def linesOf (sl : SliceId) (d : SliceDef) (s : State) : List (PathId × Nat) :=
  ((pathsOf d).filter (hasCanceller d)).map fun p => (p, bulkDelay d p (loopExtOf sl p s) + d.nFc)

/-- The local bytes of a part without lines (R446). -/
def partBytes (d : SliceDef) (span : Nat) : Nat :=
  512 + 32 * (d.nFc / span) * ((pathsOf d).filter (hasCanceller d)).length

/-- The engines of parts `i` to `span` - 1, chosen one after the other, with the parts already chosen counted. -/
def chooseParts (n : PartNeed) (homeBytes : Nat) (s : State) : Nat → Nat → List Carried → Option (List (Fin 64))
  | 0, _, _ => some []
  | left + 1, i, l =>
    let m : PartNeed := { n with home := i == 0, bytes := n.bytes + (if i = 0 then homeBytes else 0) }
    match choose l m s with
    | none => none
    | some e =>
      let c : Carried := { engine := e, slice := n.slice, owner := n.owner, home := i == 0, cost := n.cost, bytes := m.bytes }
      (chooseParts { n with avoid := e :: n.avoid } homeBytes s left (i + 1) (c :: l)).map (e :: ·)

/-- A hosting for a definition with the given local lines. -/
def hostWith (sl : SliceId) (d : SliceDef) (lines : List (PathId × Nat)) (l : List Carried) (s : State) : Option Hosting :=
  let span := spanOf (costOf d)
  let cost := costOf d / span
  let need := partBytes d span
  let bytes := lines.foldl (fun t x => t + x.2) 0
  (chooseParts { slice := sl, owner := d.owner, home := true, cost := cost, bytes := need, avoid := [] } bytes s span 0 l).map
    fun es => { engines := es, cost := cost, need := need, lines := lines }

/-- A hosting and the lines that need SMEM, in containers (R446): first with every line of up to 4,096 containers local,
then with none. -/
def hostFor (sl : SliceId) (d : SliceDef) (s : State) : Option (Hosting × List (PathId × Nat)) :=
  let l := (carried s).filter fun c => c.slice != sl
  let all := linesOf sl d s
  let short := all.filter fun x => x.2 ≤ 4096
  match hostWith sl d (short.map fun x => (x.1, 4 * x.2)) l s with
  | some h => some (h, all.filter fun x => 4096 < x.2)
  | none => (hostWith sl d [] l s).map fun h => (h, all)

/-- The engines of a hosting kept where they can carry the new part, and chosen anew where not (R294, R458). -/
def keepParts (n : PartNeed) (homeBytes : Nat) (s : State) (l : List Carried) :
    List (Fin 64) → Nat → List (Fin 64) → Option (List (Fin 64))
  | [], _, _ => some []
  | e :: es, i, taken =>
    let bytes := n.bytes + (if i = 0 then homeBytes else 0)
    if loadOf l e + n.cost ≤ engineLimit ∧ bytesOf l e + bytes ≤ localBytes then
      (keepParts n homeBytes s l es (i + 1) taken).map (e :: ·)
    else
      match choose l { n with home := i == 0, bytes := bytes, avoid := taken } s with
      | none => none
      | some x => (keepParts n homeBytes s l es (i + 1) (x :: taken)).map (x :: ·)

/-- A hosting for a changed definition with the given local lines, keeping engines where the span is the same. -/
def hostKeep (sl : SliceId) (d : SliceDef) (h : Hosting) (lines : List (PathId × Nat)) (l : List Carried) (s : State) :
    Option Hosting :=
  let span := spanOf (costOf d)
  if span = h.engines.length then
    let cost := costOf d / span
    let need := partBytes d span
    let bytes := lines.foldl (fun t x => t + x.2) 0
    (keepParts { slice := sl, owner := d.owner, home := true, cost := cost, bytes := need, avoid := [] } bytes s l h.engines 0
      h.engines).map fun es => { engines := es, cost := cost, need := need, lines := lines }
  else hostWith sl d lines l s

/-- A hosting for a class-A change, and the lines that need SMEM (R294, R314). -/
def hostChange (sl : SliceId) (d : SliceDef) (h : Hosting) (s : State) : Option (Hosting × List (PathId × Nat)) :=
  let l := (carried s).filter fun c => c.slice != sl
  let all := linesOf sl d s
  let short := all.filter fun x => x.2 ≤ 4096
  match hostKeep sl d h (short.map fun x => (x.1, 4 * x.2)) l s with
  | some x => some (x, all.filter fun x => 4096 < x.2)
  | none => (hostKeep sl d h [] l s).map fun x => (x, all)

/-! ### Banks (R448) -/

/-- The pages of a bank that buffers and copies hold. -/
def pagesIn (b : Fin 48) (s : State) : BitVec 512 :=
  s.plc.buffers.foldl (fun m x =>
    (x.chunks ++ x.copy.getD []).foldl (fun m c => if c.1 = b then m ||| c.2 else m) m) 0

/-- How many bits of a page mask are set. -/
def popCount (n : Nat) (m : BitVec n) : Nat := ((List.range n).filter fun i => m.getLsbD i).length

/-- The pages allocated in a bank (R473). -/
def pageCount (b : Fin 48) (s : State) : Nat := popCount 512 (pagesIn b s)

/-- The ownership table gives a bank to a feature as a named buffer (R443). -/
def bankOwned (b : Fin 48) (s : State) : Bool := s.cfg.owners.any fun o => o.cls == 0x08 && o.index == b.val

/-- May a bank take pages of a buffer: AVAILABLE, not forbidden, not the STAGED copy's, inside the pins (R443, R448)? -/
def bankTakes (b : Fin 48) (pins : List Pin) (s : State) : Bool :=
  let x := s.mem.bank[b]
  x.state == .available && !x.forbid && !x.retire && !bankOwned b s && s.plc.stagedBank != some b && pins.all fun p => p.mask.getLsbD b

/-- The lowest `n` pages that a mask leaves free. -/
def freePages (used : BitVec 512) (n : Nat) : BitVec 512 :=
  (((List.range 512).filter fun i => !used.getLsbD i).take n).foldl (fun m i => m ||| BitVec.twoPow 512 i) 0

/-- The bank with the fewest allocated pages among those that may take some; ties lowest index. -/
def emptiestBank (skip : List (Fin 48)) (pins : List Pin) (s : State) : Option (Fin 48) :=
  let l := (indices 48).filter fun b => bankTakes b pins s && !skip.contains b && pageCount b s < 512
  match l with
  | [] => none
  | b :: bs => some (bs.foldl (fun m x => if pageCount x s < pageCount m s then x else m) b)

/-- Pages for a buffer of `need` pages in at most `banks` banks (R448). DESIGN CHOICE: the lowest free pages of a bank. -/
def findPages (pins : List Pin) (s : State) : Nat → Nat → List (Fin 48) → Option (List (Fin 48 × BitVec 512))
  | _, 0, _ => some []
  | 0, _ + 1, _ => none
  | banks + 1, need + 1, skip =>
    match emptiestBank skip pins s with
    | none => none
    | some b =>
      let n := min (need + 1) (512 - pageCount b s)
      (findPages pins s banks (need + 1 - n) (b :: skip)).map ((b, freePages (pagesIn b s) n) :: ·)

/-- Pages of 4 KiB that a number of bytes takes. -/
def pagesFor (bytes : Nat) : Nat := (bytes + 4095) / 4096

/-- The pins of a buffer (R465): `which` names its path, its kind and its feed. -/
def bufferPins (k : BufKey) (s : State) : List Pin :=
  let w := bit (decide (k.path = .b)) + 2 * bit k.delay + 4 * (k.feed % 2)
  s.plc.pins.filter fun p => p.slice == k.slice && p.kind == 1 && p.which == w

/-- The written bits of some pages cleared, as they are allocated or released (R545). -/
def clearWritten (c : List (Fin 48 × BitVec 512)) (s : State) : State :=
  onMem (fun m => { m with bank := c.foldl (fun v x =>
    upd v x.1 fun b => { b with written := b.written &&& ~~~x.2 }) m.bank }) s

/-- PLC_MAP_GEN increments (R471). -/
def bumpGen (s : State) : State := onPlc (fun p => { p with mapGen := (p.mapGen + 1) % 2 ^ 32 }) s

/-- A buffer takes pages. -/
def addBuffer (k : BufKey) (c : List (Fin 48 × BitVec 512)) (s : State) : State :=
  bumpGen (clearWritten c (onPlc (fun p => { p with buffers := p.buffers ++ [{ key := k, chunks := c, copy := none }] }) s))

/-- A buffer of some bytes is allocated, or none when no bank can take it (R448). -/
def allocBuffer (k : BufKey) (bytes : Nat) (s : State) : Option State :=
  (findPages (bufferPins k s) s 4 (pagesFor bytes) []).map fun c => addBuffer k c s

/-- Buffers whose key meets a test are released (R545). -/
def freeBuffers (f : BufKey → Bool) (s : State) : State :=
  let gone := s.plc.buffers.filter fun b => f b.key
  let s := onPlc (fun p => { p with buffers := p.buffers.filter fun b => !f b.key }) s
  bumpGen (clearWritten (gone.flatMap fun b => b.chunks ++ b.copy.getD []) s)

/-! ### Reservations -/

/-- The key of a path's delay line: `next` marks the line of a definition that is still to start. -/
def lineKey (sl : SliceId) (p : PathId) (next : Bool) : BufKey :=
  { slice := sl, path := p, delay := false, feed := if next then 2 else 0 }

/-- A hosting is reserved, with the pages of its lines in SMEM. -/
def reserveHost (sl : SliceId) (h : Hosting) (far : List (PathId × Nat)) (s : State) : Option State :=
  let s := onPlc (fun p => { p with placed := upd p.placed sl fun x => { x with next := some h } }) s
  far.foldl (fun o x => o.bind (allocBuffer (lineKey sl x.1 true) (4 * x.2))) (some s)

/-- Engines and pages are reserved for a definition, or nothing changes (R279, R447). -/
def reserve (sl : SliceId) (d : SliceDef) (s : State) : Option State :=
  (hostFor sl d s).bind fun x => reserveHost sl x.1 x.2 s

/-- What a class-A change needs is reserved (R294, R314): nothing when neither the cost nor a line changes, or the slice is
not placed. -/
def reserveChange (sl : SliceId) (old new : SliceDef) (s : State) : Option State :=
  match (s.plc.placed[sl]).live with
  | none => some s
  | some h =>
    if costOf old = costOf new ∧ linesOf sl old s = linesOf sl new s then some s
    else (hostChange sl new h s).bind fun x => reserveHost sl x.1 x.2 s

/-- A reservation is given up. -/
def unreserve (sl : SliceId) (s : State) : State :=
  freeBuffers (fun k => k.slice == sl && !k.delay && k.feed == 2)
    (onPlc (fun p => { p with placed := upd p.placed sl fun x => { x with next := none } }) s)

/-- A path's line stands where its hosting has it (SLC_CAN_DELAY of R334). -/
def placeLine (sl : SliceId) (p : PathId) (s : State) : State :=
  match s.plc.buffers.find? fun b => b.key == lineKey sl p false with
  | some b => onCanceller sl p (fun c => { c with inSmem := true, bank := (b.chunks.head?.map fun x => x.1.val).getD 0 }) s
  | none => onCanceller sl p (fun c => { c with inSmem := false, bank := 0 }) s

/-- A reservation comes into force, and what was in force is freed (R295 step 2). -/
def takeReservation (sl : SliceId) (s : State) : State :=
  let s := freeBuffers (fun k => k.slice == sl && !k.delay && k.feed != 2) s
  bumpGen (onPlc (fun p => { p with
    placed := upd p.placed sl fun x => { live := x.next, next := none, stopped := false }
    buffers := p.buffers.map fun b =>
      if b.key.slice = sl ∧ b.key.delay = false then { b with key := { b.key with feed := 0 } } else b }) s)

/-- Everything that a slice has placed is freed: engines, chains and its delay lines (R297, R460). -/
def freePlaced (sl : SliceId) (s : State) : State :=
  freeBuffers (fun k => k.slice == sl)
    (onPlc (fun p => { p with placed := upd p.placed sl fun x => { x with live := none, next := none } }) s)

/-! ### Moves -/

/-- The code of a move's reason (R473). -/
def reasonCode : MoveReason → Nat
  | .periodic => 0 | .evacuation => 1 | .pin => 2 | .costRise => 3 | .thermal => 4 | .hostPass => 5

/-- The code of a unit state (R443). -/
def unitCode : UnitState → Nat
  | .available => 0 | .forbidden => 1 | .evacuating => 2 | .testing => 3 | .retired => 4 | .owned => 5

/-- A placement record of a move (R472, R596). -/
def moveRecord (ev : Nat) (m : Move) (s : State) : State :=
  recordNow (.placement ev (reasonCode m.reason) m.slice m.part m.src m.dst 0 m.matched 0) s

/-- A placement record of a unit's new state. -/
def unitRecord (st : UnitState) (unit : Nat) (s : State) : State :=
  recordNow (.placement 3 0 0 0 0 0 (unitCode st) 0 unit) s

/-- A slice in a move (R453). -/
def migrating (sl : SliceId) (s : State) : Bool := (movesOf s).any fun m => m.slice == sl

/-- The moves of a slice in flight are abandoned (R452, R586); their target reservations go with them. -/
def dropMoves (sl : SliceId) (s : State) : State :=
  let gone := (movesOf s).filter fun m => m.slice == sl
  let s := onPlc (fun p => { p with moves := p.moves.map fun m => m.bind fun x => if x.slice = sl then none else some x }) s
  gone.foldl (fun s m => bumpGen (moveRecord 2 m s)) s

/-- The moves of a slice, in flight and waiting, are abandoned (R452, R456). -/
def abandonMoves (sl : SliceId) (s : State) : State :=
  dropMoves sl (onPlc (fun p => { p with waiting := p.waiting.filter fun w => w.slice != sl }) s)

/-- A change of an engine's state, with its record (R471, R596). -/
def setEngine (e : Fin 64) (st : UnitState) (s : State) : State :=
  if (s.plc.engine[e]).state = st then s
  else unitRecord st (target .engine e)
    (bumpGen (onPlc (fun p => { p with engine := upd p.engine e fun x => { x with state := st } }) s))

/-- A change of a bank's state, with its record. -/
def setBank (b : Fin 48) (st : UnitState) (s : State) : State :=
  if (s.mem.bank[b]).state = st then s
  else unitRecord st (target .bank b)
    (bumpGen (onMem (fun m => { m with bank := upd m.bank b fun x => { x with state := st } }) s))

/-- Has a slice an active protection cause on it (R337, R362)? -/
def sliceOnRung (sl : SliceId) (s : State) : Bool :=
  let x := s.nps.slice[sl]
  let trims (p : PathProt) : Bool := p.squall.value != 0 || p.overdrive.value != 0 || p.noise.value != 0 || p.emission.value != 0
  x.squallMute || x.emissionMute || x.donorLoss || x.tddTiming || trims x.a || trims x.b

/-- A sample of a slice with a move (R451, R452, R586): in the fatal state its moves are abandoned. Else a move in shadow compares the outputs: the engines
agree, and a sample that is poisoned is skipped. A run of 2,048 is a match, and the cutover follows at the next sample. -/
def shadowSample (sl : SliceId) (poisoned : Bool) (s : State) : State :=
  if !migrating sl s then s
  else if s.flt.fatal then dropMoves sl s
  else onPlc (fun p => { p with moves := p.moves.map fun m => m.map fun x =>
    if x.slice ≠ sl ∨ x.phase = .warmUp then x
    else
      let n := if poisoned then x.matched else min 8192 (x.matched + 1)
      { x with matched := n, shadowed := x.shadowed + 1, phase := if 2048 ≤ n then .cutover else .shadow } }) s

end Sys2Proof.Machine
end

