-- ==== Sys2Proof/Machine/UnitTests.lean ====
section
/-! DEFINITION. Retirement and targeted self-tests (R150, R558, R559, R578 to R582): what every unit kind shares. -/
namespace Sys2Proof.Machine
open Sys2Proof

/-- Every zone lies within −20 °C to +95 °C (R150, R631). -/
def flashInRange (s : State) : Bool := allOf s.thm.zone fun z => decide (-160 ≤ z.value) && decide (z.value ≤ 760)

/-- A flash write of a configuration change. -/
def isConfigItem : FlashItem → Bool
  | .slot _ _ => true
  | .directory _ => true
  | _ => false

/-- What a failure or a hold of writes leaves: a configuration change among them is persisted late. -/
def markLate (f : Flash) : Flash := if (f.held || f.failed) && f.queue.any isConfigItem then { f with late := true } else f

/-- A flash write finds the range failed, and writes are held from now on (R631). -/
def checkFlash (s : State) : State :=
  onFlash markLate (if s.flash.queue.isEmpty || flashInRange s then s else onFlash (fun f => { f with held := true }) s)

/-- Does a flash write take its contents when it is made, and not when it is asked for? -/
def isLateItem : FlashItem → Bool
  | .map => true
  | .ledger => true
  | .keys => true
  | _ => false

/-- A flash write joins those that wait, in the order in which they were asked for (R150, R151); one that takes its contents when it is made waits
once. -/
def queueFlash (i : FlashItem) (s : State) : State :=
  checkFlash (if isLateItem i && s.flash.queue.contains i then s else onFlash (fun f => { f with queue := f.queue ++ [i] }) s)

/-- A unit recorded in the retirement map's bits. -/
def markRetired (c : TargetClass) (i : Nat) (m : RetireMap) : RetireMap :=
  match c with
  | .engine => { m with engines := m.engines ||| BitVec.twoPow 64 i }
  | .bank => { m with banks := m.banks ||| BitVec.twoPow 48 i }
  | .lane => { m with lanes := m.lanes ||| BitVec.twoPow 64 i }
  | .rxPort => { m with rx := m.rx ||| BitVec.twoPow 32 i }
  | .txPort => { m with tx := m.tx ||| BitVec.twoPow 32 i }
  | .madc => { m with madcs := m.madcs ||| BitVec.twoPow 8 i }
  | _ => m

/-- A unit is retired: the map names it, its history takes an entry of at most 1,024, and the map waits to be written (R558, R559). -/
def retireUnit (c : TargetClass) (i source : Nat) (s : State) : State :=
  queueFlash .map (onMap (fun m =>
    let e : RetiredEntry := { unitClass := c, index := i, source := source, stamp := s.stamp }
    let m := markRetired c i m
    { m with updates := m.updates + 1, history := (if 1024 ≤ m.history.length then m.history.tail else m.history) ++ [e] }) s)

/-- The place of a unit kind's counts (FLT_UNIT_COUNT of R593): RX and TX ports share one. -/
def kindIdx : UnitKind → Fin 5
  | .engine => 0 | .bank => 1 | .lane => 2 | .rxPort => 3 | .txPort => 3 | .madc => 4

/-- The target class of a unit kind. -/
def kindClass : UnitKind → TargetClass
  | .engine => .engine | .bank => .bank | .lane => .lane | .rxPort => .rxPort | .txPort => .txPort | .madc => .madc

/-- A self-test is asked for by an error on its unit (R579, R580): one at a time, and a further error starts none. -/
def askTest (k : UnitKind) (i source : Nat) (injectedOnly : Bool) (hosts : List Issue) (s : State) : State :=
  match testOf k i s with
  | some _ =>
    onFlt (fun f => { f with selftests := f.selftests.map fun t =>
      if t.kind = k ∧ t.index = i then
        { t with hosts := t.hosts ++ hosts, injectedOnly := t.injectedOnly && (injectedOnly || !hosts.isEmpty) }
      else t }) s
  | none =>
    onFlt (fun f => { f with selftests := f.selftests ++
      [{ kind := k, index := i, source := source, injectedOnly := injectedOnly && hosts.isEmpty, hosts := hosts }] }) s

/-- The duration of a unit's self-test in µs (R579). -/
def testMicros : UnitKind → Nat
  | .engine => 40 | .bank => 6000 | .lane => 1000 | .rxPort => 2000 | .txPort => 2000 | .madc => 50

/-- The outcome of a self-test is counted: a pass as transient, a fail as lasting; a pass of a test that only injections caused
is not counted (R578, R580). -/
def countOutcome (k : UnitKind) (pass injectedOnly : Bool) (c : Collector) : Collector :=
  if pass then
    if injectedOnly then c else { c with unitCount := upd c.unitCount (kindIdx k) fun n => (satAdd 65535 n.1 1, n.2) }
  else { c with unitCount := upd c.unitCount (kindIdx k) fun n => (n.1, satAdd 65535 n.2 1) }

/-- A self-test ends (R580 to R582): its outcome is counted, FLT_ST_LAST and a record give it, and the SELFTEST commands that
wait complete OK; the first of them lends the record its sequence number. `note` is what else is recorded, with a code above the record's: before the
completions, which are numbered last, and after a record with a number of its own (R597, R598). -/
def endTest (k : UnitKind) (i : Nat) (pass : Bool) (note : State → State) (s : State) : State :=
  match testOf k i s with
  | none => note s
  | some t =>
    let host := !t.hosts.isEmpty
    let s := if host then note s else s
    let seq := s.evr.seqNext
    let s := onFlt (fun f => { countOutcome k pass t.injectedOnly f with
      selftests := f.selftests.filter fun x => !(x.kind == k && x.index == i)
      stLast := some { kind := k, index := i, pass := pass, host := host, injectedOnly := t.injectedOnly, source := t.source
                       seqLo := seq % 2 ^ 32 } }) s
    let s := completeAll t.hosts .ok s
    let p : Payload := .selftest (target (kindClass k) i) pass host t.injectedOnly t.source (testMicros k)
    let s := record p s.stamp s.time.epoch (if host then some seq else none) s
    if host then s else note s

end Sys2Proof.Machine
end

