-- ==== Sys2Proof/Machine/SliceOps.lean ====
section
/-! DEFINITION. What slice events share: restarts (R295), filling and going live of a pending set (R17, R18, R297, R298, R329), stops
and deletion (R297, R299, R460). -/
namespace Sys2Proof.Machine
open Sys2Proof

/-! ### Pending sets -/

/-- The set that a command on a slice changes: the pending one, else the base (R298). -/
def fillBase (sl : SliceId) (s : State) : Option SliceParams :=
  match (s.slices.slice[sl]).pending with
  | some p => some p.params
  | none => baseParams sl s

/-- A command fills the pending set; the command that filled it before completes SUPERSEDED (R18). `act` says which paths
are to be RESET as the set goes live (R319). -/
def fillPending (sl : SliceId) (params : SliceParams) (act : Nat × Nat) (moving : Bool) (iss : Issue) (s : State) : State :=
  let earlier := ((s.slices.slice[sl]).pending).map (·.issue)
  let s := onSlice sl (fun x => { x with
    pending := some { params := params, issue := iss, actA := act.1, actB := act.2, moving := moving } }) s
  completeOpt earlier .superseded s

/-- The RESET actions that a pending set already holds. -/
def pendingActs (sl : SliceId) (s : State) : Nat × Nat :=
  match (s.slices.slice[sl]).pending with
  | some p => (p.actA, p.actB)
  | none => (0, 0)

/-- A tap list of another length: taps of kept indices are kept, added ones are zero (R329). -/
def resizeTaps (n : Nat) (l : List Cplx) : List Cplx := l.take n ++ List.replicate (n - l.length) ⟨0, 0⟩

/-- A canceller after a class-A change from `old` to `new` (R329): a new length of taps and line; settled clears when the filter changes
or the taps decrease; a new margin or i_floor recomputes the ceiling at once; a new v restarts the window; RESET acts. -/
def changeCanceller (p : PathId) (old new : SliceParams) (act : Nat) (c : Canceller) : Canceller :=
  let x := canParams new p
  let y := canParams old p
  if !(pathsOf new.defn).contains p then c
  else if !hasCanceller new.defn p then
    { cancellerReset with iUsed := x.iFloor.toNat, raw := fixedCeiling x, ceiling := fixedCeiling x, limited := c.limited }
  else
    let n := new.defn.nFc
    let c := if !c.present then startCanceller new.defn p x c.loopExt
             else if n = old.defn.nFc then c
             else newWindow { c with
               wFg := resizeTaps n c.wFg, wBg := resizeTaps n c.wBg, delay := bulkDelay new.defn p c.loopExt
               line := c.line.take (bulkDelay new.defn p c.loopExt + n) }
    let c := if n < old.defn.nFc || new.defn.family != old.defn.family || new.defn.edge != old.defn.edge
                || new.defn.bandwidth != old.defn.bandwidth then unsettle x c else c
    let c := if x.v = y.v then c else newWindow c
    let c := if x.margin = y.margin ∧ x.iFloor = y.iFloor then c
             else lowerCeiling x.margin (if c.settled then c else { c with iUsed := x.iFloor.toNat })
    if act = 1 then resetCanceller x c else c

/-- A slice's pending set goes live at a sample boundary (R17, R297): the command that filled it completes OK. It waits while the
slice is restarting or a move that its cost needs is not done (R294, R299). -/
def pendingLive (sl : SliceId) (s : State) : State :=
  let x := s.slices.slice[sl]
  match x.pending, x.live with
  | some p, some old =>
    let waits := p.moving && (migrating sl s || s.plc.waiting.any fun w => w.slice == sl)
    if x.restart.isSome || x.deleting.isSome || waits then s
    else
      let s := onSlice sl (fun x => { x with live := some p.params, pending := none }) s
      let s := onCanceller sl .a (changeCanceller .a old p.params p.actA) s
      let s := onCanceller sl .b (changeCanceller .b old p.params p.actB) s
      let s := if ((s.plc.placed[sl]).next).isSome then takeReservation sl s else s
      complete p.issue .ok (placeLine sl .b (placeLine sl .a s))
  | _, _ => s

/-! ### Restarts (R295) -/

/-- A slice restarts with new parameters at the first strobe at or after `after` from now; capacity is reserved already. A capture of
the slice ends, and a move of it is abandoned (R299, R307). -/
def scheduleRestart (sl : SliceId) (params : SliceParams) (iss : Option Issue) (after : Nat) (keepShed : Bool) (s : State) : State :=
  let s := abandonMoves sl (endCaptures sl s)
  let r : Restart := { params := params, issue := iss, strobe := strobeAt (s.now + after), started := false, keepShed := keepShed }
  onSlice sl (fun x => { x with state := .restarting, restart := some r }) s

/-- Both cancellers of a slice start (R320). -/
def startCancellers (sl : SliceId) (x : SliceParams) (s : State) : State :=
  let one (p : PathId) (s : State) : State :=
    placeLine sl p (onCanceller sl p (fun _ => startCanceller x.defn p (canParams x p) (loopExtOf sl p s)) s)
  one .b (one .a s)

/-- A parameter set whose cancellers start as R320 says. -/
def withCancelStart (sl : SliceId) (x : SliceParams) (s : State) : SliceParams :=
  { x with canA := cancelStart sl .a s, canB := cancelStart sl .b s }

/-- A TDD slice that starts while the time error is out of bounds takes TDD_TIMING (R350). -/
def startTiming (sl : SliceId) (d : SliceDef) (s : State) : State :=
  if d.direction = .tdd ∧ s.time.errorOver = true then muteSlice false sl .tddTiming 0 s else s

/-- A slice leaves Overcast's shed list without restoring anything (R636). -/
def leaveShed (sl : SliceId) (s : State) : State :=
  onSlice sl (fun x => { x with shed := false })
    (onThm (fun t => { t with overcast := { t.overcast with shed := t.overcast.shed.filter (· != sl) } }) s)

/-- The slice streams that each TX port sums (TILE_DUC_CTL of R270). -/
def countStreams (s : State) : State :=
  onDfe (fun x => { x with duc := updAll x.duc fun m y =>
    { y with streams := countOf s.slices.slice fun z => z.live.any fun p => txUses m p.defn } }) s

/-- A definition starts on the engines reserved for it (R289, R295 step 2, R320). -/
def startDefinition (sl : SliceId) (params : SliceParams) (s : State) : State :=
  let params := withCancelStart sl params s
  let s := takeReservation sl s
  let s := onSlice sl (fun x => { x with
    live := some params, appliedA := -4000, appliedB := -4000, fadeA := 0, fadeB := 0, riseA := 0, riseB := 0
    inA := -32768, outA := -32768, inB := -32768, outB := -32768 }) s
  let s := countStreams (onChain sl .b (fun _ => chainReset) (onChain sl .a (fun _ => chainReset) s))
  startTiming sl params.defn (startCancellers sl params s)

/-- SLICE_RESTART_START (R295 steps 2 and 3): at R the old definition stops and the new one starts. -/
def restartStart (sl : SliceId) (s : State) : State :=
  let x := s.slices.slice[sl]
  match x.restart with
  | some r =>
    if r.started || x.state == .stopped then s
    else
      let s := startDefinition sl r.params (advanceTo r.strobe s)
      let s := if r.keepShed then s else leaveShed sl s
      settle (onSlice sl (fun x => { x with restart := some { r with started := true } }) s)
  | none => s

/-- Is a slice stopped now for a reason that a restart does not end: a retired port (R193, R299), or the thermal halt (R638)? -/
def mustStop (d : SliceDef) (s : State) : Bool := namesRetired d s || s.thm.halted

/-- SLICE_RESTART_DONE (R295 step 4): at R + L_new the output starts. -/
def restartDone (sl : SliceId) (s : State) : State :=
  let x := s.slices.slice[sl]
  match x.restart with
  | some r =>
    if !r.started then s
    else
      let s := advanceTo (r.strobe + latencyQ r.params.defn) s
      let s := onSlice sl (fun x => { x with
        restart := none, state := if mustStop r.params.defn s then .stopped else .running }) s
      completeOpt r.issue .ok (notify 96 (target .slice sl) 0 s)
  | none => s

/-- A slice's present definition restarts by steps 2 to 4 of R295, without a command: R is the first strobe from now on. -/
def restartPresent (keepShed : Bool) (sl : SliceId) (s : State) : State :=
  match baseParams sl s with
  | none => s
  | some x => scheduleRestart sl x (((s.slices.slice[sl]).restart).bind (·.issue)) 0 keepShed s

/-! ### Stops and deletion -/

/-- A slice reads STOPPED and emits poisoned samples from now on (R14); source 97 reports it (R308). -/
def stopSlice (sl : SliceId) (s : State) : State :=
  raise 97 (target .slice sl) 0 (onSlice sl (fun x => { x with state := .stopped }) s)

/-- A slice is stopped for capacity (R460): it releases engines, chains and pages. -/
def stopForCapacity (sl : SliceId) (s : State) : State :=
  let s := freePlaced sl (abandonMoves sl s)
  let s := onPlc (fun p => { p with placed := upd p.placed sl fun x => { x with stopped := true } }) s
  stopSlice sl (recordNow (.placement 4 0 sl 0 0 0 0 0 0) s)

/-- A slice is being deleted (R297, R299): a restart is abandoned, and what waits in its pending set is SUPERSEDED (DESIGN
CHOICE for the pending set). -/
def beginDelete (sl : SliceId) (iss : Issue) (s : State) : State :=
  let x := s.slices.slice[sl]
  let s := abandonMoves sl (endCaptures sl s)
  let s := unreserve sl s
  let s := onSlice sl (fun x => { x with state := .deleting, deleting := some iss, restart := none, pending := none }) s
  let s := completeOpt (x.restart.bind (·.issue)) .superseded s
  completeOpt (x.pending.map (·.issue)) .superseded s

/-- The index reads EMPTY (R297): engines, chains, buffers and streams are free, and the index leaves Overcast's shed list
(R636). Its rungs stay (R299). -/
def emptySlice (sl : SliceId) (s : State) : State :=
  let s := freePlaced sl s
  let s := onPlc (fun p => { p with placed := upd p.placed sl fun x => { x with stopped := false } }) s
  let gone := (s.lnk.streams.filter fun e => e.slice == sl && e.role != .forward).map (·.stream)
  let s := onLnk (fun l => { l with
    streams := l.streams.filter fun e => !(e.slice == sl && e.role != .forward)
    feeds := l.feeds.filter fun f => !gone.contains f.stream
    buffered := l.buffered.filter fun b => !gone.contains b.stream
    toSend := l.toSend.filter fun b => !gone.contains b.stream }) s
  let s := leaveShed sl s
  let s := onCanceller sl .a (fun _ => cancellerReset) (onCanceller sl .b (fun _ => cancellerReset) s)
  let s := onChain sl .b (fun _ => chainReset) (onChain sl .a (fun _ => chainReset) s)
  settle (countStreams (onSlice sl (fun _ => sliceReset) s))

end Sys2Proof.Machine
end

