-- ==== Sys2Proof/Machine/Thermal.lean ====
section
/-! DEFINITION. Thermal sensing and management (R113 to R115, R185, R624 to R645, R694): samples, thresholds and their dwells, Thaw, Overcast,
the thermal halt and the service-life ledger. Temperatures are in 1/8 °C. -/
namespace Sys2Proof.Machine
open Sys2Proof

/-! ### Sensors and zones (R624 to R626) -/

/-- The four sensors of a zone (R624). -/
def zoneSensors (z : Fin 6) : List (Fin 24) := (indices 24).filter fun i => i.val / 4 == z.val

/-- The zone of a sensor (R624). -/
def sensorZone (i : Fin 24) : Fin 6 := ⟨i.val / 4, by omega⟩

/-- Numbers, lowest first. -/
def sortInts : List Int → List Int := sortBy fun a b => decide (a ≤ b)

/-- The median of a list: of an even number of values the mean of the two middle ones, rounded down (R625, R626). -/
def median (l : List Int) : Int :=
  let v := sortInts l
  let n := v.length
  if n % 2 = 1 then v.getD (n / 2) 0 else (v.getD (n / 2 - 1) 0 + v.getD (n / 2) 0) / 2

/-- A sensor that is in use: not failed, and with the 8 samples of its filter taken (R625, R626). -/
def sensorValid (x : Sensor) : Bool := !x.failed && x.samples.length == 8

/-- A sensor after a raw sample (R625, R637). -/
def takeSample (v : Int) (x : Sensor) : Sensor :=
  let l := (v :: x.samples).take 8
  { x with
    samples := l
    value := if l.length = 8 then median l else x.value
    hot := if !x.failed && decide (920 ≤ v) then x.hot + 1 else 0 }

/-- Does a sensor lie more than 15 °C from the median of its zone's other valid sensors (R626)? -/
def farOff (i : Fin 24) (s : State) : Bool :=
  let x := s.thm.sensor[i]
  let others := (zoneSensors (sensorZone i)).filter fun j => j != i && sensorValid s.thm.sensor[j]
  match others.map fun j => (s.thm.sensor[j]).value with
  | [] => false
  | l => sensorValid x && decide (120 < (x.value - median l).natAbs)

/-- A change of one sensor. -/
def onSensor (i : Fin 24) (f : Sensor → Sensor) (s : State) : State := onThm (fun t => { t with sensor := upd t.sensor i f }) s

/-- A change of one zone. -/
def onZone (z : Fin 6) (f : Zone → Zone) (s : State) : State := onThm (fun t => { t with zone := upd t.zone z f }) s

/-- The detail of a thermal event: zone in byte 8, filtered value in bytes 10 and 11 (R644). -/
def zoneDetail (z : Fin 6) (s : State) : Nat := z.val + 65536 * unsigned 16 (zoneValue z s)

/-- A zone counts as having THROTTLE declared (R626, R627). -/
def throttleOf (z : Zone) : Bool := z.throttle || z.noSensor

/-- THROTTLE is declared for some zone. -/
def anyThrottle (s : State) : Bool := anyOf s.thm.zone throttleOf

/-- Overcast enters stage 1 at a first THROTTLE declaration (R626, R632). -/
def enterOvercast (z : Fin 6) (s : State) : State :=
  if s.thm.overcast.stage ≠ 0 then s
  else
    raise 274 0 (zoneDetail z s) (onThm (fun t => { t with
      overcast := { t.overcast with stage := 1, slow := true, last := s.time.mono } }) s)

/-- A sensor fails (R626): error 278, and error 279 when its zone has no valid sensor left. -/
def failSensor (i : Fin 24) (s : State) : State :=
  let z := sensorZone i
  let s := onSensor i (fun x => { x with failed := true, hot := 0 }) s
  let s := raise 278 0 (z.val + 256 * i.val + 65536 * unsigned 16 (s.thm.sensor[i]).value) s
  if (zoneSensors z).all fun j => (s.thm.sensor[j]).failed then
    enterOvercast z (raise 279 0 (zoneDetail z s) (onZone z (fun x => { x with noSensor := true }) s))
  else s

/-- A sensor's comparison with its zone, and its failure by either test (R626). -/
def judgeSensor (bad : BitVec 24) (s : State) (i : Fin 24) : State :=
  let x := s.thm.sensor[i]
  if x.failed then s
  else
    let since := if farOff i s then some (x.awaySince.getD s.time.mono) else none
    let s := onSensor i (fun x => { x with awaySince := since }) s
    if bad.getLsbD i || since.any fun t => qSecond ≤ s.time.mono - t then failSensor i s else s

/-- The highest filtered value among a zone's valid sensors; without one the zone keeps its value (R625). -/
def zoneHottest (z : Fin 6) (s : State) : Int :=
  match (zoneSensors z).filter fun i => sensorValid s.thm.sensor[i] with
  | [] => zoneValue z s
  | i :: l => l.foldl (fun v j => max v (s.thm.sensor[j]).value) (s.thm.sensor[i]).value

/-! ### Dwells (R627 to R629) -/

/-- A dwell in quarter-nanoseconds. -/
def dwellQ (z : Zone) : Nat := z.cfg.dwell * 4000000

/-- A zone's hysteresis in 1/8 °C. -/
def hystOf (z : Zone) : Int := (8 * z.cfg.hyst : Nat)

/-- A timer of a condition: it runs from when the condition began to hold (R628). -/
def runTimer (mono : Nat) (cond : Bool) (t : Option Nat) : Option Nat := if cond then some (t.getD mono) else none

/-- Is a threshold declared for a zone? -/
def declaredOf (z : Zone) : Threshold → Bool
  | .coldStart => z.cold
  | .lowWarn => z.lowWarn
  | .highWarn => z.highWarn
  | .throttle => z.throttle

/-- The value of a threshold, and whether it is a rising one (R627). -/
def thresholdOf (z : Zone) : Threshold → Int × Bool
  | .coldStart => (-320, false)
  | .lowWarn => (z.cfg.lowWarn, false)
  | .highWarn => (z.cfg.highWarn, true)
  | .throttle => (z.cfg.throttle, true)

/-- The condition that a threshold's dwell times: across it, or inside by the hysteresis while it is declared (R627, R628). -/
def timedCond (z : Zone) (k : Threshold) : Bool :=
  let t := thresholdOf z k
  match declaredOf z k, t.2 with
  | false, true => decide (t.1 ≤ z.value)
  | false, false => decide (z.value < t.1)
  | true, true => decide (z.value ≤ t.1 - hystOf z)
  | true, false => decide (t.1 + hystOf z ≤ z.value)

/-- The four band boundaries (R629). -/
def bandBound (b : Fin 4) : Int := #v[(-80 : Int), 200, 480, 680][b]

/-- The condition that a boundary's dwell times (R185): beyond it, by the hysteresis when the last crossing of it was the other way. -/
def bandCond (z : Zone) (b : Fin 4) : Bool :=
  match z.band with
  | none => false
  | some n =>
    if n ≤ b.val then decide (bandBound b + (if z.cross[b] = some false then hystOf z else 0) ≤ z.value)
    else if z.cross[b] = some true then decide (z.value ≤ bandBound b - hystOf z)
    else decide (z.value < bandBound b)

/-- A zone's timers brought up to date with its value at a monotonic instant. -/
def retimeZone (mono : Nat) (z : Zone) : Zone :=
  let t := z.timers
  { z with timers :=
    { cold := runTimer mono (timedCond z .coldStart) t.cold
      low := runTimer mono (timedCond z .lowWarn) t.low
      high := runTimer mono (timedCond z .highWarn) t.high
      throttle := runTimer mono (timedCond z .throttle) t.throttle
      thaw := runTimer mono (decide (-320 + hystOf z ≤ z.value)) t.thaw
      halt := runTimer mono (decide (z.value ≤ 920 - hystOf z)) t.halt
      flash := runTimer mono (decide (-160 + hystOf z ≤ z.value) && decide (z.value ≤ 760 - hystOf z)) t.flash
      bands := updAll t.bands fun b x => runTimer mono (bandCond z b) x } }

/-- The condition that the spread's dwell times (R462): at or above its limit, or, while it is declared, below the limit less the fabric zone's
hysteresis. -/
def spreadCond (s : State) : Bool :=
  let limit : Int := 8 * (s.plc.spreadLimit : Int)
  if s.plc.spread then decide (spreadOf s < limit - hystOf s.thm.zone[4]) else s.plc.thermalMoves && decide (limit ≤ spreadOf s)

/-- The spread's timer brought up to date (R629). -/
def retimeSpread (s : State) : State := onPlc (fun p => { p with spreadSince := runTimer s.time.mono (spreadCond s) p.spreadSince }) s

/-- A threshold's timer. -/
def timerOf (t : ZoneTimers) : Threshold → Option Nat
  | .coldStart => t.cold
  | .lowWarn => t.low
  | .highWarn => t.high
  | .throttle => t.throttle

/-- The timers with one threshold's timer stopped. -/
def stopTimer (k : Threshold) (t : ZoneTimers) : ZoneTimers :=
  match k with
  | .coldStart => { t with cold := none }
  | .lowWarn => { t with low := none }
  | .highWarn => { t with high := none }
  | .throttle => { t with throttle := none }

/-! ### Thaw (R113 to R115, R630) -/

/-- A TX port is in Transmit. -/
def anyTransmit (s : State) : Bool := anyOf s.tiles.tx fun x => x.radio.state == .active

/-- Thaw starts when COLD_START is declared for a zone and no TX port is in Transmit (R113, R630). -/
def enterThaw (s : State) : State :=
  match findIdx s.thm.zone (·.cold) with
  | none => s
  | some z =>
    if s.thm.thaw || anyTransmit s then s
    else raise 277 0 (zoneDetail z s) (onThm (fun t => { t with thaw := true }) s)

/-- COLD_START is declared for a zone: Thaw starts, or error 277 says that it is held off (R113, R630). -/
def declareCold (z : Fin 6) (s : State) : State :=
  let s := onZone z (fun x => { x with cold := true }) s
  if s.thm.thaw || anyTransmit s then raise 277 0 (zoneDetail z s) s else enterThaw s

/-- The COLD_START check that boot step 2 makes at every boot, for one zone (R104, R113, R694). -/
def checkCold (s : State) (z : Fin 6) : State := if zoneValue z s < -320 ∧ (s.thm.zone[z]).cold = false then declareCold z s else s

/-- What boot step 2 does with the first filtered values (R104, R113, R185, R195): a zone takes its band, and its tile that band's tables, and one
below COLD_START declares it. -/
def bootZone (s : State) (z : Fin 6) : State :=
  let v := zoneValue z s
  let b := ((indices 4).filter fun b => decide (bandBound b ≤ v)).length
  let s := onZone z (fun x => { x with band := some (x.band.getD b) }) s
  let s := match finOf 4 z.val with
    | some t => onTiles (fun x => { x with tile := upd x.tile t fun y => { y with appliedBand := b } }) s
    | none => s
  checkCold s z

/-! ### Samples -/

/-- The tile's deviation from its active calibration is timed, and without auto_cal it is overdue at once (R172). -/
def retimeTile (s : State) (t : Fin 4) : State :=
  let v := zoneValue (tileZone t) s
  onTiles (fun x => { x with tile := upd x.tile t fun y =>
    let far := y.state == .synthOn && decide (8 * y.calDelta ≤ (v - (y.syn[y.active]).calTemp).natAbs)
    { y with deltaSince := runTimer s.time.mono far y.deltaSince, calOverdue := y.calOverdue || (far && !y.autoCal) } }) s

/-- A zone after its sensors have been sampled: its value, its first band at boot step 2, and its timers (R625, R628). -/
def sampleZone (s : State) (z : Fin 6) : State :=
  let s := onZone z (fun x => { x with value := zoneHottest z s }) s
  let first := (s.thm.zone[z]).band.isNone && (zoneSensors z).any fun i => sensorValid s.thm.sensor[i]
  let s := if first then bootZone s z else s
  onZone z (retimeZone s.time.mono) s

/-- THERMAL_SAMPLE (R625, R626): a raw sample of every sensor, and the sensors whose oscillator runs outside its range. -/
def execThermalSample (samples : Vector Int 24) (bad : BitVec 24) (s : State) : Host.Outcome State Fault Refusal :=
  let s := onThm (fun t => { t with sensor := updAll t.sensor fun i x => takeSample samples[i] x }) s
  let s := (indices 24).foldl (judgeSensor bad) s
  let s := (indices 6).foldl sampleZone s
  .next (retimeSpread (checkFlash ((indices 4).foldl retimeTile s)))

/-! ### Thresholds -/

/-- The effect of a declaration (R627, R630, R632). -/
def declareThreshold (z : Fin 6) (k : Threshold) (s : State) : State :=
  match k with
  | .coldStart => declareCold z s
  | .lowWarn => raise 273 0 (zoneDetail z s) (onZone z (fun x => { x with lowWarn := true }) s)
  | .highWarn => raise 272 0 (zoneDetail z s) (onZone z (fun x => { x with highWarn := true }) s)
  | .throttle => enterOvercast z (onZone z (fun x => { x with throttle := true }) s)

/-- THRESHOLD_DECLARED (R628): a zone's value has stayed across a threshold for the dwell. -/
def execThresholdDeclared (zone : Fin 6) (threshold : Threshold) (s : State) : Host.Outcome State Fault Refusal :=
  let x := s.thm.zone[zone]
  match timerOf x.timers threshold with
  | none => .next s
  | some t =>
    if declaredOf x threshold then .next s
    else
      let s := declareThreshold zone threshold (advanceMono (t + dwellQ x) s)
      .next (onZone zone (fun x => retimeZone s.time.mono { x with timers := stopTimer threshold x.timers }) s)

/-- A threshold is no longer declared. -/
def undeclare (k : Threshold) (z : Zone) : Zone :=
  match k with
  | .coldStart => { z with cold := false }
  | .lowWarn => { z with lowWarn := false }
  | .highWarn => { z with highWarn := false }
  | .throttle => { z with throttle := false }

/-- THRESHOLD_CLEARED (R628): a zone's value has stayed inside by the hysteresis for the dwell. -/
def execThresholdCleared (zone : Fin 6) (threshold : Threshold) (s : State) : Host.Outcome State Fault Refusal :=
  let x := s.thm.zone[zone]
  match timerOf x.timers threshold with
  | none => .next s
  | some t =>
    if declaredOf x threshold then
      let s := advanceMono (t + dwellQ x) s
      .next (onZone zone (fun x => retimeZone s.time.mono { undeclare threshold x with timers := stopTimer threshold x.timers }) s)
    else .next s

/-- The instant at which every zone has held a condition for its dwell, none while a zone does not hold it. -/
def allHeld (f : ZoneTimers → Option Nat) (s : State) : Option Nat :=
  (indices 6).foldl (fun m z =>
    match m, f (s.thm.zone[z]).timers with
    | some m, some t => some (max m (t + dwellQ s.thm.zone[z]))
    | _, _ => none) (some 0)

/-- A TX port that waits for the end of Thaw begins its transition (R115). -/
def startDeferred (x : TxPort) : TxPort :=
  if x.radio.deferred then { x with radio := { x.radio with deferred := false, deferredCal := false, target := .active } } else x

/-- A tile's next entry into SynthOn is to calibrate fully when a transition that Thaw held back asks for it (R200, R209). -/
def deferredFullCal (t : Fin 4) (s : State) : Bool :=
  (portsOf t).any fun m =>
    ((s.tiles.tx[m]).radio.deferred && (s.tiles.tx[m]).radio.deferredCal) || ((s.tiles.rx[m]).radio.deferred && (s.tiles.rx[m]).radio.deferredCal)

/-- A zone whose COLD_START is cleared at a monotonic instant. -/
def endCold (mono : Nat) (z : Zone) : Zone :=
  retimeZone mono { z with cold := false, timers := { z.timers with cold := none } }

/-- THAW_END (R115): every zone has stayed at or above COLD_START plus its hysteresis for its dwell. -/
def execThawEnd (s : State) : Host.Outcome State Fault Refusal :=
  match allHeld (·.thaw) s with
  | none => .next s
  | some m =>
    if s.thm.thaw then
      let s := advanceMono m s
      let s := onThm (fun t => { t with thaw := false, zone := t.zone.map (endCold s.time.mono) }) s
      let s := onTiles (fun x => { x with
        tile := updAll x.tile fun t y => { y with fullCal := y.fullCal || deferredFullCal t s }
        tx := x.tx.map startDeferred
        rx := x.rx.map fun y =>
          if y.radio.deferred then { y with radio := { y.radio with deferred := false, deferredCal := false, target := .active } } else y }) s
      .next (settle s)
    else .next s

/-! ### Overcast (R632 to R636) -/

/-- The zones with THROTTLE declared that a slice touches (R634). -/
def throttledZones (d : SliceDef) (s : State) : List (Fin 6) :=
  (indices 6).filter fun z => throttleOf s.thm.zone[z] &&
    (if z.val < 4 then (indices 32).any fun m => m.val / 8 == z.val && usesIndex d m
     else if z.val = 4 then true
     else (pathsOf d).any fun p => srcOf d p == .fronthaul || sinkOf d p == .fronthaul)

/-- The slices that Overcast may still shed, of one priority, highest index first (R634). -/
def shedCandidates (prio : Nat) (s : State) : List SliceId :=
  (indices 256).reverse.filter fun sl => match liveDef sl s with
    | some d => d.priority == prio && !s.thm.overcast.shed.contains sl && !(throttledZones d s).isEmpty
    | none => false

/-- The next slice to shed: priority 7 first, and within a priority the highest index (R634). -/
def nextShed (s : State) : Option SliceId := [7, 6, 5, 4, 3, 2, 1, 0].findSome? fun p => (shedCandidates p s).head?

/-- The detail of a shed (R644). DEDUCED: it names the zone that made the slice a candidate. DESIGN CHOICE: of several, the lowest index. -/
def shedDetail (sl : SliceId) (s : State) : Nat :=
  (((liveDef sl s).bind fun d => (throttledZones d s).head?).map fun z => zoneDetail z s).getD 0

/-- Overcast stays in stage 3 and sheds one slice, or none when no candidate remains (R634). -/
def shedOne (s : State) : State :=
  let s := onThm (fun t => { t with overcast := { t.overcast with stage := 3 } }) s
  match nextShed s with
  | none => s
  | some sl =>
    let s := onThm (fun t => { t with overcast := { t.overcast with shed := sl :: t.overcast.shed } }) s
    raise 275 (target .slice sl) (shedDetail sl s) (onSlice sl (fun x => { x with shed := true }) s)

/-- A step of Overcast while THROTTLE is declared (R633, R634). -/
def overcastAdvance (s : State) : State :=
  if s.thm.overcast.request < 300 then
    onThm (fun t => { t with overcast := { t.overcast with stage := 2, request := t.overcast.request + 50 } }) s
  else shedOne s

/-- A step of Overcast's retreat (R635). -/
def overcastRetreat (s : State) : State :=
  match s.thm.overcast.shed with
  | sl :: rest =>
    onSlice sl (fun x => { x with shed := false }) (onThm (fun t => { t with
      overcast := { t.overcast with shed := rest, stage := if rest.isEmpty then 2 else 3 } }) s)
  | [] =>
    if s.thm.overcast.request ≠ 0 then
      onThm (fun t => { t with overcast := { t.overcast with
        request := t.overcast.request - 50, stage := if t.overcast.request ≤ 50 then 1 else 2 } }) s
    else onThm (fun t => { t with overcast := { t.overcast with stage := 0, slow := false } }) s

/-- OVERCAST_STEP (R632 to R635): one interval after its last step Overcast advances while THROTTLE is declared, or retreats. -/
def execOvercastStep (s : State) : Host.Outcome State Fault Refusal :=
  if s.thm.overcast.stage = 0 then .next s
  else
    let s := advanceMono (s.thm.overcast.last + s.thm.interval * 4000000) s
    let s := if anyThrottle s then overcastAdvance s else overcastRetreat s
    .next (onThm (fun t => { t with overcast := { t.overcast with last := s.time.mono } }) s)

/-! ### The thermal halt (R637 to R639) -/

/-- A slice is gated with its engine: it reads STOPPED, and source 97 is not raised (R638). -/
def gateSlice (x : Slice) : Slice :=
  match x.state with
  | .running => { x with state := .stopped }
  | .restarting => { x with state := .stopped }
  | _ => x

/-- The dwell that ends a thermal halt is timed anew (R639). DEDUCED: CRITICAL comes from raw samples, before the median follows, and a dwell that ran
out before the declaration ends nothing. -/
def restartHalt (mono : Nat) (z : Zone) : Zone := { z with timers := { z.timers with halt := z.timers.halt.map fun _ => mono } }

/-- CRITICAL is declared for a zone (R637, R638): the thermal halt. -/
def enterCritical (zone : Fin 6) (s : State) : State :=
  let s := onZone zone (fun z => { z with critical := true }) s
  let s := setHalt .thermal (onThm (fun t => { t with halted := true, zone := t.zone.map (restartHalt s.time.mono) }) s)
  let s := onSlices (fun x => { x with slice := x.slice.map gateSlice }) s
  raise 276 0 (zoneDetail zone s) s

/-- CRITICAL_DECLARED (R637, R638): a sensor of the zone has read 115 °C or more on 4 consecutive samples. -/
def execCriticalDeclared (zone : Fin 6) (s : State) : Host.Outcome State Fault Refusal :=
  if (s.thm.zone[zone]).critical || !((zoneSensors zone).any fun i => !(s.thm.sensor[i]).failed && decide (4 ≤ (s.thm.sensor[i]).hot))
  then .next s
  else .next (enterCritical zone s)

/-- Does a slice restart when the thermal halt ends: it is stopped, and not for capacity or a retired port? -/
def haltStopped (sl : SliceId) (s : State) : Bool :=
  (s.slices.slice[sl]).state == .stopped && !(s.plc.placed[sl]).stopped &&
    (match liveDef sl s with
     | some d => !namesRetired d s
     | none => (s.slices.slice[sl]).restart.isSome)

/-- THERMAL_HALT_END (R639): every zone has stayed at or below 115 °C less its hysteresis for its dwell. -/
def execThermalHaltEnd (s : State) : Host.Outcome State Fault Refusal :=
  match allHeld (·.halt) s with
  | none => .next s
  | some m =>
    if s.thm.halted then
      let s := advanceMono m s
      let s := onThm (fun t => { t with halted := false, zone := t.zone.map fun z => { z with critical := false } }) s
      let s := clearHalt .thermal s
      .next ((indices 256).foldl (fun s sl => if haltStopped sl s then restartPresent true sl s else s) s)
    else .next s

/-! ### The ledger (R641, R642) -/

/-- The bin of a value (R641). -/
def ledgerBin (v : Int) : Fin 7 :=
  if v < 200 then 0 else if v < 360 then 1 else if v < 520 then 2 else if v < 680 then 3 else if v < 760 then 4
  else if v < 840 then 5 else 6

/-- The exponent of af(T) at T eighths of a degree (R642), in fixed point: 8,123.5 × (1/368.15 − 1/(T/8 + 273.15)). -/
def ageExponent (v : Int) : Int := 16247 * 10 * fixOne / 7363 - 16247 * 20 * fixOne / max 1 (5 * v + 10926)

/-- The ageing of one second (R642), in parts of 2^-32 of a second at 95 °C: exactly one second's worth at 95 °C, and elsewhere within one part of af(T),
whose rounding is free. -/
def ageing (v : Int) : Nat := if v = 760 then 2 ^ 32 else (max 0 (near (fixRound 32 (expOf (ageExponent v))) (freeAgeing v))).toNat

/-- The hottest zone, the lowest index of several, by whose value the part ages (R642). -/
def hottestZone (s : State) : Fin 6 := (indices 6).foldl (fun m z => if zoneValue m s < zoneValue z s then z else m) 0

/-- LEDGER_SECOND (R641, R642, R644). -/
def execLedgerSecond (s : State) : Host.Outcome State Fault Refusal :=
  let hot := zoneValue (hottestZone s) s
  let full := 1262304000 * 2 ^ 32
  let s := onThm (fun t => { t with ledger :=
    { bins := updAll t.ledger.bins fun z b => upd b (ledgerBin (zoneValue z s)) (· + 1)
      life := t.ledger.life + ageing hot } }) s
  if s.thm.lifeFull = false ∧ full ≤ s.thm.ledger.life then
    .next (raise 280 0 (zoneDetail (hottestZone s) s) (onThm (fun t => { t with lifeFull := true }) s))
  else .next s

/-- LEDGER_PERSIST (R150, R641): the hourly write of the ledger waits for the flash. -/
def execLedgerPersist (s : State) : Host.Outcome State Fault Refusal := .next (queueFlash .ledger s)

end Sys2Proof.Machine
end

