-- ==== Sys2Proof/Machine/RadioBase.lean ====
section
/-! DEFINITION. What radio and synthesiser events share: the states that ports need of their tile (R197), requests and their completion
(R198 to R204), write lists (R220), entry into and exit from SynthOn (R28, R171, R183), and preparation of a twin (R173). -/
namespace Sys2Proof.Machine
open Sys2Proof

/-! ### Tiles and ports -/

/-- A change of one tile. -/
def onTile (t : Fin 4) (f : Tile → Tile) (s : State) : State := onTiles (fun x => { x with tile := upd x.tile t f }) s

/-- A change of one RX port. -/
def onRx (p : Fin 32) (f : RxPort → RxPort) (s : State) : State := onTiles (fun x => { x with rx := upd x.rx p f }) s

/-- A change of one TX port. -/
def onTx (p : Fin 32) (f : TxPort → TxPort) (s : State) : State := onTiles (fun x => { x with tx := upd x.tx p f }) s

/-- Port states in rising order (R196). -/
def portRank : PortState → Nat
  | .sleep => 0 | .standby => 1 | .synthOn => 2 | .active => 3

/-- Tile states in rising order (R196). -/
def tileRank : TileState → Nat
  | .sleep => 0 | .standby => 1 | .synthOn => 2

/-- The tile state of a rank; every rank above 1 is SynthOn. -/
def tileOfRank : Nat → TileState
  | 0 => .sleep
  | 1 => .standby
  | _ => .synthOn

/-- What a port needs of its tile, in its present state and towards its target (R197). -/
def radioNeed (r : Radio) : Nat := min 2 (max (portRank r.state) (portRank r.target))

/-- The state that a tile's floor and ports call for (R197). -/
def tileNeed (t : Fin 4) (s : State) : TileState :=
  tileOfRank ((portsOf t).foldl (fun n m => max n (max (radioNeed (s.tiles.rx[m]).radio) (radioNeed (s.tiles.tx[m]).radio)))
    (tileRank (s.tiles.tile[t]).floor))

/-- The radio of a port unit; a tile has none. -/
def radioOf (u : RadioUnit) (s : State) : Option Radio :=
  match u with
  | .rx p => some (s.tiles.rx[p]).radio
  | .tx p => some (s.tiles.tx[p]).radio
  | .tile _ => none

/-- A change of a port's radio; nothing for a tile. -/
def onRadio (u : RadioUnit) (f : Radio → Radio) (s : State) : State :=
  match u with
  | .rx p => onRx p (fun x => { x with radio := f x.radio }) s
  | .tx p => onTx p (fun x => { x with radio := f x.radio }) s
  | .tile _ => s

/-- The tile of a unit. -/
def unitTile : RadioUnit → Fin 4
  | .rx p => tileOf p
  | .tx p => tileOf p
  | .tile t => t

/-- A unit in target encoding (R68). -/
def unitTarget : RadioUnit → Nat
  | .rx p => target .rxPort p
  | .tx p => target .txPort p
  | .tile t => target .tile t

/-- The port units that a request to a port acts on: both members of a TDD pair (R198). -/
def membersOf (u : RadioUnit) (s : State) : List RadioUnit :=
  match u with
  | .rx p => if isPair p s then [.rx p, .tx p] else [u]
  | .tx p => if isPair p s then [.rx p, .tx p] else [u]
  | .tile _ => []

/-- Is a port in Transmit ramping up again, after a request that would have taken it out of Transmit was replaced (R167, R204)? -/
def rampsAgain (u : RadioUnit) (s : State) : Bool :=
  match u with
  | .tx m =>
    let d := (s.tiles.tx[m]).drive
    d.radioOn && d.long && d.ramp.up && ramping s.time.mono d.ramp
  | _ => false

/-- Does a port rest at its target? -/
def atTarget (u : RadioUnit) (s : State) : Bool :=
  match radioOf u s with
  | some r => r.state == r.target && !r.deferred && !rampsAgain u s
  | none => true

/-- The command that a port's radio answers is gone. -/
def dropIssue (u : RadioUnit) (s : State) : State := onRadio u (fun r => { r with issue := none }) s

/-- A command that waits on a port completes with a status (R203 to R208). -/
def endRequest (u : RadioUnit) (st : Status) (s : State) : State :=
  match (radioOf u s).bind (·.issue) with
  | some i => complete i st (dropIssue u s)
  | none => s

/-- The requests of a port and of its pair's other member complete OK once every port they act on rests at its target (R203). -/
def finishRequests (u : RadioUnit) (s : State) : State :=
  let l := membersOf u s
  if l.all fun v => atTarget v s then l.foldl (fun s v => endRequest v .ok s) s else s

/-- A tile's request completes OK once the tile is in the state that it asked for (R197, R203). -/
def finishTile (t : Fin 4) (s : State) : State :=
  let x := s.tiles.tile[t]
  if x.state = x.floor then completeOpt x.floorIssue .ok (onTile t (fun x => { x with floorIssue := none }) s) else s

/-! ### Write lists (R220) -/

/-- A change of one front-end link. -/
def onFem (n : Fin 16) (f : Fem → Fem) (s : State) : State := onFec (fun x => { x with fems := upd x.fems n f }) s

/-- The write-list entry as a command on its bus. -/
def writeCmd (now : Nat) (e : WriteEntry) : BusCmd :=
  { client := .writeList, command := e.command, usid := e.usid, addr := e.addr, count := e.count, data := e.data, since := now }

/-- The write list of a trigger of a bound link runs: its entries wait for the bus in order. An unbound link runs only HOST traffic (R210). -/
def runList (trigger : Nat) (n : Fin 16) (s : State) : State :=
  let l := s.fec.writes.filter fun e => e.trigger == trigger && e.link == n
  onFem n (fun f => if f.enable then { f with queue := f.queue ++ l.map (writeCmd s.time.mono) } else f) s

/-- The write lists of the links bound to a port index run (R210, R220). -/
def runLists (trigger : Nat) (m : Fin 32) (s : State) : State :=
  (indices 16).foldl (fun s n =>
    let f := s.fec.fems[n]
    if f.port = m then runList trigger n s else s) s

/-- The port index of a port unit. -/
def unitIndex : RadioUnit → Fin 32
  | .rx p => p
  | .tx p => p
  | .tile _ => 0

/-- The trigger of the write lists that run when a port enters a state (R220). -/
def listTrigger : PortState → Option Nat
  | .standby => some 1
  | .synthOn => some 2
  | .sleep => some 3
  | .active => none

/-- A link whose port leaves Sleep, or enters it: the strobes wait for the Sleep list, 50 µs at most, and are deasserted (R215, R220). -/
def markSleep (m : Fin 32) (new : PortState) (mono : Nat) (f : Fem) : Fem :=
  if f.enable ∧ f.port = m then
    if new = .sleep then { f with dropped := true, sleepUntil := some (mono + 200000) }
    else if new = .standby then { f with dropped := false, sleepUntil := none }
    else f
  else f

/-- A port enters a state, and the write lists of that state run. -/
def enterState (u : RadioUnit) (new : PortState) (s : State) : State :=
  match radioOf u s with
  | none => s
  | some r =>
    if r.state = new then s
    else
      let m := unitIndex u
      let s := onRadio u (fun r => { r with state := new, since := s.time.mono }) s
      let s := match listTrigger new with
        | some k => runLists k m s
        | none => s
      onFec (fun x => { x with fems := x.fems.map (markSleep m new s.time.mono) }) s

/-! ### Synthesisers -/

/-- The other synthesiser of a tile: the twin (R159). -/
def twinOf (x : Tile) : Fin 2 := if x.active = 0 then 1 else 0

/-- A change of one synthesiser. -/
def onSynth (t : Fin 4) (i : Fin 2) (f : Synth → Synth) (s : State) : State :=
  onTile t (fun x => { x with syn := upd x.syn i f }) s

/-- The declared band of a tile's zone (R185). -/
def tileBand (t : Fin 4) (s : State) : Nat := ((s.thm.zone[tileZone t]).band).getD 0

/-- The band whose tables a tile uses, once applied (R188). -/
def wantedBand (t : Fin 4) (s : State) : Nat :=
  let x := s.tiles.tile[t]
  if x.forceEnable then x.forceBand else tileBand t s

/-- A calibration within cal_delta of the zone's present value (R172). -/
def nearCal (t : Fin 4) (y : Synth) (s : State) : Bool :=
  decide ((zoneValue (tileZone t) s - y.calTemp).natAbs ≤ 8 * (s.tiles.tile[t]).calDelta)

/-- A prepared twin (R173). -/
def twinReady (t : Fin 4) (s : State) : Bool :=
  let x := s.tiles.tile[t]
  let y := x.syn[twinOf x]
  y.prepared && y.locked && nearCal t y s

/-- The preparation of a twin begins (R173): the twin leaves its idle state, and one that is prepared already keeps its calibration and skips
steps 2 to 5. -/
def startPrep (t : Fin 4) (handover : Bool) (issue : Option Issue) (instant : Option Nat) (again : Bool) (s : State) : State :=
  let x := s.tiles.tile[t]
  let i := twinOf x
  let y := x.syn[i]
  let ready := twinReady t s
  let p : Prep :=
    { handover := handover, issue := issue, instant := instant, step := .preparing, boundary := 0, again := again
      temp := if ready then y.calTemp else zoneValue (tileZone t) s, band := if ready then y.calBand else tileBand t s }
  let s := onTile t (fun x => { x with prep := some p, retryAt := none }) s
  onSynth t i (fun y => if ready then { y with state := .calibrating } else { y with state := .calibrating, locked := false, prepared := false }) s

/-- The source `i` of a tile (R194). -/
def tileSource (t : Fin 4) (i : Fin 8) : Fin 320 := ⟨32 + 8 * t.val + i.val, by omega⟩

/-- A synthesiser's code in a SYNTH record (R596). -/
def synCode (i : Fin 2) : Nat := i.val

/-- A handover is abandoned: its record and the tile's error 2 say so (R194, R596; DEDUCED for a handover that R183 abandons). -/
def abandonRecord (t : Fin 4) (s : State) : State :=
  let x := s.tiles.tile[t]
  raise (tileSource t 2) (target .tile t) 0 (recordNow (.synth t 2 (synCode x.active) x.appliedBand 0) s)

/-- Pending work of a tile's synthesisers is abandoned, and its command completes SUPERSEDED (R183). -/
def abandonPrep (t : Fin 4) (s : State) : State :=
  match (s.tiles.tile[t]).prep with
  | none => s
  | some p =>
    let s := onTile t (fun x => { x with prep := none }) s
    let s := if p.handover ∧ p.step ≠ .switched then abandonRecord t s else s
    completeOpt p.issue .superseded s

/-- Has a synthesiser failed three preparations in a row, so that it is Failed until a tile, warm or cold reset (R177)? -/
def hasFailed (y : Synth) : Bool := decide (3 ≤ y.failCount)

/-- A synthesiser switched off; its stored calibration stays. -/
def synthOff (y : Synth) : Synth :=
  { y with state := if hasFailed y then .failed else .off, locked := false, prepared := false }

/-- A calibration in Standby is abandoned (R204). -/
def abandonStandby (t : Fin 4) (s : State) : State :=
  match (s.tiles.tile[t]).standbyCal with
  | none => s
  | some c => complete c.issue .superseded (onSynth t c.syn synthOff (onTile t (fun x => { x with standbyCal := none }) s))

/-- A tile leaves SynthOn for a lower state: pending work is abandoned and both synthesisers are off (R183, R196). -/
def leaveSynthOn (t : Fin 4) (new : TileState) (s : State) : State :=
  let s := abandonPrep t s
  onTile t (fun x => { x with
    state := new, since := s.time.mono, syn := x.syn.map synthOff, queueAligned := false, deltaSince := none, retryAt := none }) s

/-- The queues of a tile are aligned (R28, R268, R269): they are empty until the next epoch strobe, and what the chains of the tile's ports held
before is gone. -/
def alignQueues (t : Fin 4) (s : State) : State :=
  let fresh (x : RxLine) : RxLine := { rxLineReset with acc := x.acc, bad := x.bad, retuned := x.retuned }
  let freshTx (x : TxLine) : TxLine := { txLineReset with acc := x.acc, word := x.word, change := x.change, after := x.after, bad := x.bad }
  let fed (i : Fin 512) : Bool := (liveDef (chainOwner i).1 s).any fun d => (rxOf (srcOf d (chainOwner i).2)).any fun m => tileOf m == t
  let s := onDfe (fun d => { d with queue := updAll d.queue fun m q => if tileOf m = t then { q with rxError := false, txError := false } else q }) s
  let s := onSig (fun g => { g with
    rx := updAll g.rx fun m x => if tileOf m = t then fresh x else x, tx := updAll g.tx fun m x => if tileOf m = t then freshTx x else x
    path := updAll g.path fun i x => if fed i then { x with down := [] } else x }) s
  onTile t (fun x => { x with queueAligned := true, poisoned := false }) s

/-- A tile enters SynthOn on a synthesiser (R28, R112, R171): from its stored calibration when its band is the zone's and no full calibration
was asked for (or at a relock, which always uses it), else by a full calibration. The twin is then prepared in the background, unless it is Failed. -/
def enterSynthOn (t : Fin 4) (i : Fin 2) (stored : Bool) (s : State) : State :=
  let x := s.tiles.tile[t]
  let y := x.syn[i]
  let band := tileBand t s
  let relock := stored || (y.stored && y.calBand == band && !x.fullCal)
  let s := onSynth t i (fun y =>
    if relock then { y with state := .active, locked := true, prepared := false }
    else { y with
      state := .active, locked := true, prepared := false, stored := true, calBand := band, calTemp := zoneValue (tileZone t) s }) s
  let s := onTile t (fun x => { x with
    state := .synthOn, since := s.time.mono, active := i, relock := false, resetDown := false, fullCal := x.fullCal && relock, deltaSince := none
    calOverdue := x.calOverdue && !nearCal t x.syn[i] s }) s
  let s := alignQueues t s
  let twin := (s.tiles.tile[t]).syn[twinOf s.tiles.tile[t]]
  if hasFailed twin then s else startPrep t false none none false s

end Sys2Proof.Machine
end

