-- ==== Sys2Proof/Machine/Radio.lean ====
section
/-! DEFINITION. Radio states (R196 to R209), loss of lock and relock (R178, R184, R205, R206), tile reset (R100), and the port events of the
converter tiles (R160, R162, R190 to R194). -/
namespace Sys2Proof.Machine
open Sys2Proof

/-! ### RADIO_STATE (R198 to R204) -/

/-- The state that a code asks of a port; 3 and 4 are Receive and Transmit (R200). -/
def portCode : Nat → PortState
  | 0 => .sleep
  | 1 => .standby
  | 2 => .synthOn
  | _ => .active

/-- The unit that a target names; a tile index with the synthesiser bit names none (R68, R200). -/
def radioUnit (t : Nat) : Option RadioUnit :=
  match targetOf .rxPort 32 t, targetOf .txPort 32 t, targetOf .tile 4 t with
  | some p, _, _ => some (.rx p)
  | _, some p, _ => some (.tx p)
  | _, _, some i => some (.tile i)
  | _, _, _ => none

/-- Does a unit take a state code (R201)? -/
def codeFits (u : RadioUnit) (code : Nat) (s : State) : Bool :=
  match u with
  | .tile _ => code ≤ 2
  | .rx p => code ≤ 3 || (code == 4 && isPair p s)
  | .tx p => code ≤ 2 || code == 4 || (code == 3 && isPair p s)

/-- Is a unit that a request acts on retired (R193)? -/
def anyRetired (u : RadioUnit) (s : State) : Bool :=
  (membersOf u s).any fun v => match v with
    | .rx p => rxRetired p s
    | .tx p => txRetired p s
    | .tile _ => false

/-- The checks of a request's parameters (R200, R201): a state code and the full_cal byte. -/
def radioChecks (u : RadioUnit) (code flags : Nat) (s : State) : Option Refuse :=
  firstFail [(4 < code, badParam 12), (!codeFits u code s, badParam 12), (code != 0 && anyRetired u s, badParam 12),
    (1 < flags, badParam 13), (flags == 1 && code < 2, badParam 13)]

/-- The state that a request gives each port it acts on: a pair's target Receive holds TX_m in SynthOn (R198). -/
def memberTarget (code : Nat) (u : RadioUnit) (pair : Bool) : PortState :=
  match u with
  | .tx _ => if pair && code == 3 then .synthOn else portCode code
  | _ => portCode code

/-- One port takes a new target; a request in progress completes SUPERSEDED (R204). -/
def retarget (u : RadioUnit) (target : PortState) (s : State) : State :=
  let mono := s.time.mono
  onRadio u (fun r => { r with
    target := target, asked := mono, since := if r.state = r.target then mono else r.since, before := none, deferred := false
    deferredCal := false }) (endRequest u .superseded s)

/-- A request acts on a unit, with the command that it answers, if there is one (R197, R198, R203, R204). -/
def request (u : RadioUnit) (code : Nat) (fullCal : Bool) (iss : Option Issue) (s : State) : State :=
  let t := unitTile u
  let s := if fullCal then onTile t (fun x => { x with fullCal := true }) s else s
  match u with
  | .tile _ =>
    let earlier := (s.tiles.tile[t]).floorIssue
    let s := onTile t (fun x => { x with floor := tileOfRank code, floorIssue := iss }) s
    finishTile t (completeOpt earlier .superseded s)
  | _ =>
    let l := membersOf u s
    let s := l.foldl (fun s v => retarget v (memberTarget code v (l.length == 2)) s) s
    settle (finishRequests u (settle (onRadio u (fun r => { r with issue := iss }) s)))

/-- RADIO_STATE (R200 to R204). -/
def execRadioState (d : Desc) (s : State) : Host.Outcome State Fault Refusal :=
  .next (hostCommand 0x10 (.radioState d) d (fun iss s =>
    match radioUnit d.tgt with
    | none => refuse iss (badParam 8) s
    | some u =>
      match radioChecks u (d.byte 12) (d.byte 13) s with
      | some r => refuse iss r s
      | none =>
        match firstFail [d.strayCheck [(12, 2)],
          (d.byte 12 == 4 && (thawing s || anyCritical s), refuseTarget .tempRange d.tgt)] with
        | some r => refuse iss r s
        | none => request u (d.byte 12) (d.byte 13 == 1) (some iss) s) s)

/-- A START_UP entry (R115, R138, R209): a port in Sleep begins its transition, a Transmit during Thaw waits for its end, and an entry that
fails the checks raises the radio transition failure error. -/
def startUp (e : StartEntry) (s : State) : State :=
  let unit : Option RadioUnit := match e.unitClass with
    | .rxPort => (finOf 32 e.index).map .rx
    | .txPort => (finOf 32 e.index).map .tx
    | .tile => (finOf 4 e.index).map .tile
    | _ => none
  match unit with
  | none => raise 88 0 0 s
  | some u =>
    if (radioChecks u e.state (bit e.fullCal) s).isSome then raise 88 (unitTarget u) 0 s
    else if ((radioOf u s).map (·.state)).getD .sleep ≠ .sleep then s
    else if e.state = 4 ∧ anyCritical s = true then raise 88 (unitTarget u) 0 s
    else if e.state = 4 ∧ thawing s = true then
      (membersOf u s).foldl (fun s v => onRadio v (fun r => { r with deferred := true, deferredCal := e.fullCal }) s) s
    else request u e.state e.fullCal none s

/-! ### Transitions (R196, R197, R203, R205) -/

/-- Outputs brought up to date, and Thaw where the end of the last Transmit lets it start (R113). -/
def calm (s : State) : State := enterThaw (settle s)

/-- May a port enter a state now: its tile is high enough, has lock for Receive and Transmit (R205), Thaw holds no Transmit (R114), and boot has
reached step 9 (R110)? -/
def mayReach (u : RadioUnit) (target : PortState) (s : State) : Bool :=
  let x := s.tiles.tile[unitTile u]
  let barred := match u with
    | .tx _ => thawing s || !stepNine s
    | _ => false
  match target with
  | .sleep => true
  | .standby => x.state != .sleep
  | .synthOn => x.state == .synthOn
  | .active => x.state == .synthOn && !barred

/-- The next state of a port on its way to a target: every state in between, and Sleep at once (R199). -/
def nextState (state target : PortState) : PortState :=
  match state, target with
  | _, .sleep => .sleep
  | .sleep, _ => .standby
  | .standby, .standby => .standby
  | .standby, _ => .synthOn
  | .synthOn, .standby => .standby
  | .synthOn, t => t
  | .active, .active => .active
  | .active, _ => .synthOn

/-- The monotonic count at which a ramp of a port, or the entry of its samples, is over (R164, R199). -/
def motionEnd (u : RadioUnit) (s : State) : Nat :=
  match u with
  | .rx m => ((s.tiles.rx[m]).due).getD 0
  | .tx m =>
    let x := s.tiles.tx[m]
    let length := if x.drive.long then 4000 * x.rampLong else 4 * x.rampShort
    if x.drive.ramp.up then rampEnd x.drive.ramp
    else match x.drive.due with
      | some t => if grantMissing m s then t else t + length
      | none => rampEnd x.drive.ramp
  | .tile _ => 0

/-- A port takes one state on its way to its target, once its ramp or the entry of its samples is over. -/
def passState (u : RadioUnit) (s : State) : State :=
  match radioOf u s with
  | none => s
  | some r =>
    let next := nextState r.state r.target
    if r.state = r.target ∨ mayReach u next s = false then s
    else
      let s := settle s
      settle (enterState u next (settle (advanceMono (motionEnd u s) s)))

/-- A port at its target: one that had lost its state to a lock loss raises notification 93 (R178, R238), and its request completes (R203). -/
def portRests (u : RadioUnit) (s : State) : State :=
  match radioOf u s with
  | none => s
  | some r =>
    let back := r.before == some r.state && r.state == r.target
    let s := if back then notify 93 (unitTarget u) 0 (onRadio u (fun r => { r with before := none }) s) else s
    calm (finishRequests u s)

/-- A port reaches its target (R203), through every state in between (R199). -/
def portDone (u : RadioUnit) (s : State) : State :=
  match radioOf u s with
  | none => s
  | some r =>
    if r.state = r.target then
      if rampsAgain u s then portRests u (settle (advanceMono (motionEnd u s) s)) else s
    else if mayReach u (nextState r.state r.target) s then portRests u (passState u (passState u (passState u s)))
    else s

/-- How long a port takes to a state in between, in quarter-nanoseconds (R199). DESIGN CHOICE: of the range that the table gives, the typical
value; the entry into SynthOn is the tile's. -/
def passTime (u : RadioUnit) (old new : PortState) (s : State) : Nat :=
  match old, new with
  | .sleep, .standby => 24000000
  | .synthOn, .standby => 20000
  | .active, .synthOn => match u with
    | .rx _ => 2000
    | _ => motionEnd u s - (((radioOf u s).map (·.since)).getD 0)
  | _, _ => 0

/-- A port that has stood long enough in its state passes on to a state in between; one at its target ends its request. -/
def passPort (s : State) (u : RadioUnit) : State :=
  match radioOf u s with
  | none => s
  | some r =>
    let next := nextState r.state r.target
    if r.state != r.target && next != r.target && decide (r.since + passTime u r.state next s ≤ s.time.mono) then passState u s
    else if r.issue.isSome && atTarget u s then finishRequests u s
    else s

/-- A tile on its way from Sleep to SynthOn passes through Standby (R199). -/
def passTile (s : State) (t : Fin 4) : State :=
  let x := s.tiles.tile[t]
  if x.state == .sleep && tileNeed t s == .synthOn && decide (x.since + 24000000 ≤ s.time.mono) then
    finishTile t (onTile t (fun x => { x with state := .standby, since := s.time.mono }) s)
  else s

/-- The states in between that tiles and ports take as time passes. -/
def passStates (s : State) : State :=
  (indices 32).foldl (fun s m => passPort (passPort s (.rx m)) (.tx m)) ((indices 4).foldl passTile s)

/-- A tile reaches the state that its floor and ports call for (R197). -/
def tileDone (t : Fin 4) (s : State) : State :=
  let x := s.tiles.tile[t]
  let new := tileNeed t s
  if new = x.state then s
  else if tileRank x.state < tileRank new then
    if new = .synthOn then
      if x.relock || x.standbyCal.isSome then s else finishTile t (enterSynthOn t x.active false s)
    else finishTile t (onTile t (fun x => { x with state := new, since := s.time.mono }) s)
  else
    let s := if x.state = .synthOn then leaveSynthOn t new s else onTile t (fun x => { x with state := new, since := s.time.mono }) s
    finishTile t (if new = .sleep then abandonStandby t s else s)

/-- RADIO_TRANSITION_DONE (R203): a port or a tile reaches its requested state. -/
def execRadioTransitionDone (unit : RadioUnit) (s : State) : Host.Outcome State Fault Refusal :=
  match unit with
  | .tile t => .next (settle (tileDone t s))
  | _ => .next (portDone unit s)

/-! ### Lock failures (R178, R184, R205, R206) -/

/-- The port units of a tile. -/
def tileUnits (t : Fin 4) : List RadioUnit := (portsOf t).flatMap fun m => [.rx m, .tx m]

/-- A port's request ends NOT_LOCKED, and the port takes another target. -/
def unlockRequest (target : PortState) (u : RadioUnit) (s : State) : State :=
  onRadio u (fun r => { r with target := target }) (endRequest u .notLocked s)

/-- A tile's floor falls to Standby, and a request for SynthOn ends NOT_LOCKED. DESIGN CHOICE: the floor falls, so that the entry ends. -/
def dropFloor (t : Fin 4) (s : State) : State :=
  let x := s.tiles.tile[t]
  if x.floor = .synthOn then
    completeOpt x.floorIssue .notLocked (onTile t (fun x => { x with floor := .standby, floorIssue := none }) s)
  else s

/-- TILE_LOCK_FAIL (R206): an entry from Standby failed; every request that waits on it completes NOT_LOCKED. -/
def execTileLockFail (tile : Fin 4) (s : State) : Host.Outcome State Fault Refusal :=
  let x := s.tiles.tile[tile]
  if x.state = .synthOn ∨ (tileNeed tile s ≠ .synthOn ∧ x.relock = false) then .next s
  else
    let waits (u : RadioUnit) (s : State) : Bool := (radioOf u s).any fun r => 2 ≤ portRank r.target && portRank r.state < 2
    let s := onTile tile (fun x => { x with state := .standby, since := s.time.mono, relock := false }) s
    let s := raise 88 (target .tile tile) 0 s
    let s := (tileUnits tile).foldl (fun s u =>
      if waits u s then (membersOf u s).foldl (fun s v => unlockRequest .standby v s) s else s) s
    .next (calm (finishTile tile (dropFloor tile s)))

/-- LOCK_TIMEOUT (R184, R205): a command that waits for lock after a lock loss reaches lock_timeout, from its execution. The port's target becomes
SynthOn. -/
def execLockTimeout (unit : RadioUnit) (s : State) : Host.Outcome State Fault Refusal :=
  match radioOf unit s with
  | none => .next s
  | some r =>
    if r.issue.isSome && r.target == .active && (s.tiles.tile[unitTile unit]).relock then
      let s := advanceMono (r.asked + 4000 * (s.tiles.tile[unitTile unit]).lockTimeout) s
      .next (settle ((membersOf unit s).foldl (fun s v => unlockRequest .synthOn v s) s))
    else .next s

/-- A port after its tile lost lock: it enters Standby, and keeps its target when the tile can re-enter SynthOn, else it stays there (R178). -/
def unclock (again : Bool) (u : RadioUnit) (s : State) : State :=
  match radioOf u s with
  | none => s
  | some r =>
    if portRank r.state < 2 then s
    else if again then onRadio u (fun x => { x with before := some r.state }) (enterState u .standby s)
    else onRadio u (fun r => { r with target := .standby, before := none }) (enterState u .standby (endRequest u .notLocked s))

/-- SYNTH_LOCK_LOST (R178): the active synthesiser loses lock; the tile drops to Standby and re-enters SynthOn on the twin, unless that is
Failed or also unlocked. -/
def execSynthLockLost (tile : Fin 4) (s : State) : Host.Outcome State Fault Refusal :=
  let x := s.tiles.tile[tile]
  if x.state = .synthOn then
    let twin := x.syn[twinOf x]
    let again := twin.locked && !hasFailed twin
    let s := raise (tileSource tile 1) (target .tile tile) 0 s
    let s := leaveSynthOn tile .standby s
    let s := onTile tile (fun x => { x with poisoned := true, relock := again }) s
    let s := (tileUnits tile).foldl (fun s u => unclock again u s) s
    .next (calm (if again then s else finishTile tile (dropFloor tile s)))
  else .next s

/-- TILE_RELOCK (R178): the tile re-enters SynthOn on the twin, from its stored calibration, and its queues realign; while a SYNTH_CAL calibrates in
Standby, the tile stays there (R180). -/
def execTileRelock (tile : Fin 4) (s : State) : Host.Outcome State Fault Refusal :=
  let x := s.tiles.tile[tile]
  if x.relock && x.standbyCal.isNone then .next (settle (finishTile tile (enterSynthOn tile (twinOf x) true s))) else .next s

/-! ### Tile reset (R100) -/

/-- A port goes to Sleep at once; its request completes SUPERSEDED (R208). -/
def portSleep (u : RadioUnit) (s : State) : State :=
  onRadio u (fun r => { r with target := .sleep, before := none, deferred := false, deferredCal := false })
    (enterState u .sleep (endRequest u .superseded s))

/-- A synthesiser after a tile reset: off, no longer Failed, its stored calibration kept (R95, R177). -/
def synthCleared (y : Synth) : Synth := { y with state := .off, locked := false, prepared := false, failCount := 0 }

/-- A tile and its ports go to Sleep (R100, R183, R208, R215). -/
def tileSleep (t : Fin 4) (s : State) : State :=
  let s := (tileUnits t).foldl (fun s u => portSleep u s) s
  let s := abandonStandby t (leaveSynthOn t .sleep s)
  completeOpt (s.tiles.tile[t]).floorIssue .superseded s

/-- The registers of a tile after its reset (R10, R94, R95, R195): at their reset values, but for the calibration, the count since cold reset, and
the tables in use, which follow the declared band (DESIGN CHOICE: the field has no reset value). -/
def tileCleared (t : Fin 4) (s : State) (x : Tile) : Tile :=
  { tileReset with
    since := s.time.mono, active := x.active, syn := x.syn.map synthCleared, handoverCount := x.handoverCount, appliedBand := tileBand t s }

/-- The registers of an RX port after a reset of its tile: what the map and a permanent replacement set stays (R192, R193). -/
def rxCleared (x : RxPort) : RxPort :=
  { rxReset with radio := x.radio, spareInUse := x.spareInUse, retired := x.retired, spare := x.spare, stopped := x.stopped }

/-- The registers of a TX port after a reset of its tile. -/
def txCleared (x : TxPort) : TxPort := { txReset with radio := x.radio, drive := x.drive, ungated := x.ungated, retired := x.retired }

/-- A DDC after a reset of its tile. DEDUCED: what the ACTIVE image gave it stays, since the image stays in RAM (R95). -/
def ddcCleared (x : Ddc) : Ddc := { ddcReset with zone := x.zone, station := x.station, word := x.word }

/-- A DUC after a reset of its tile: what the ACTIVE image, the slices and the bound loop gave it stays. -/
def ducCleared (x : Duc) : Duc :=
  { ducReset with
    droopComp := x.droopComp, station := x.station, streams := x.streams, droopEntry := x.droopEntry, word := x.word, gain := x.gain }

/-- A pair of tile queues that are not aligned (R270). -/
def queueReset : Queue := { rxOcc := 0, rxAligned := 0, txOcc := 0, txAligned := 0, rxError := false, txError := false }

/-- The registers of a tile, its ports, DDCs and DUCs after its reset (R94). -/
def clearTile (t : Fin 4) (s : State) : State :=
  let s := onDfe (fun d => { d with
    ddc := updAll d.ddc fun m x => if tileOf m = t then ddcCleared x else x
    duc := updAll d.duc fun m x => if tileOf m = t then ducCleared x else x
    queue := updAll d.queue fun m x => if tileOf m = t then queueReset else x
    residue := upd d.residue t fun _ => { ddcCorrected := 0, ducCorrected := 0, poisonedBlocks := 0, spareBusy := 0 } }) s
  onTiles (fun x => { x with
    tile := upd x.tile t (tileCleared t s)
    rx := updAll x.rx fun m y => if tileOf m = t then rxCleared y else y
    tx := updAll x.tx fun m y => if tileOf m = t then txCleared y else y }) s

/-- A tile is reset (R94, R100): it sleeps, and slices through its ports emit poisoned samples until it is up again. -/
def resetTile (t : Fin 4) (s : State) : State :=
  let s := onBoot (fun b => { b with cause := b.cause ||| BitVec.twoPow 10 (6 + t.val) }) s
  calm (onTile t (fun x => { x with resetDown := true }) (clearTile t (tileSleep t s)))

/-- TILE_RESET (R100, R118): a write of GLB_RESET_CTL with tile_reset; one with another key is ignored and counted, and a reset of wider scope
absorbs it (R101). -/
def execTileReset (tile : Fin 4) (key : Half) (s : State) : Host.Outcome State Fault Refusal :=
  .next (viaBar 0 (fun s =>
    if key ≠ 0x6144 then dropAccess 0 s
    else if s.boot.heldBy = .nothing then resetTile tile s
    else s) s)

/-! ### Port events (R160, R162, R190 to R194) -/

/-- SPARE_ROTATION (R160, R192): the spare replaces a sub-converter, which becomes the spare. `converged` says whether the table has converged
with this round; a frozen table does not change. A port whose spare is in use rotates no more. -/
def execSpareRotation (port : Fin 32) (next : Fin 17) (converged : Bool) (s : State) : Host.Outcome State Fault Refusal :=
  let x := s.tiles.rx[port]
  if x.spareInUse ∨ portRank x.radio.state < 2 then .next s
  else .next (onRx port (fun x => { x with spare := next, converged := if x.calFreeze then x.converged else converged }) s)

/-- CORRECTION_TIMEOUT (R187, R194): the correction has not converged within 100 ms. -/
def execCorrectionTimeout (port : Fin 32) (s : State) : Host.Outcome State Fault Refusal :=
  if (s.tiles.rx[port]).converged then .next s
  else .next (raise (tileSource (tileOf port) 5) (target .rxPort port) 0 s)

/-- RX_OVERRANGE (R162): the highest peak that the port holds reaches ovr_thresh. The supervisor counts the microseconds in which a sample reaches it as
they pass (R344). -/
def execRxOverrange (port : Fin 32) (s : State) : Host.Outcome State Fault Refusal :=
  let x := s.tiles.rx[port]
  if x.peak ≤ x.ovrThresh then
    let s := onRx port (fun x => { x with overrange := true }) s
    let s := pulse 0x0701 (target .rxPort port) 1 s
    .next (notify (tileSource (tileOf port) 6).val (target .rxPort port) 0 s)
  else .next s

/-- LOAD_FAULT (R190, R343): the internal load check of a transmitting port sees a reflection of 0.8 or more for 100 µs. -/
def execLoadFault (port : Fin 32) (s : State) : Host.Outcome State Fault Refusal :=
  let x := s.tiles.tx[port]
  if x.loadCheck && x.output != .off then
    let s := onTx port (fun x => { x with loadFault := true }) s
    let s := raise (tileSource (tileOf port) 3) (target .txPort port) 0 s
    .next (if (s.nps.port[port]).reflectedEnable then mutePort false port .reflected true 0 s else s)
  else .next s

/-- The slices whose ports include a retired one stop (R193). -/
def stopRetired (s : State) : State :=
  (indices 256).foldl (fun s sl => match liveDef sl s with
    | some d => if namesRetired d s && (s.slices.slice[sl]).state == .running then stopSlice sl s else s
    | none => s) s

/-- A port is retired: it goes to Sleep, the map names it, and its slices stop (R192, R193). -/
def retirePort (u : RadioUnit) (source : Nat) (s : State) : State :=
  let sleep (s : State) : State := portSleep u s
  match u with
  | .rx p => calm (stopRetired (sleep (retireUnit .rxPort p source (onRx p (fun x => { x with retired := true }) s))))
  | .tx p => calm (stopRetired (sleep (retireUnit .txPort p source (onTx p (fun x => { x with retired := true }) s))))
  | .tile _ => s

/-- PORT_SELFTEST_DONE (R191, R192, R267): `failures` counts the sub-converters, or the phases or residue vectors, that failed. One failed
sub-converter of an RX port is replaced by the spare for good; `replay` says that the DDC vector failed. -/
def portTested (u : RadioUnit) (failures : Nat) (replay : Bool) (s : State) : State :=
  let bad (s : State) : State := raise (tileSource (unitTile u) 4) (unitTarget u) 0 s
  match u with
  | .tile _ => s
  | .rx p =>
    let src := ((testOf .rxPort p s).map (·.source)).getD 0
    if failures = 0 ∧ replay = false then endTest .rxPort p true id s
    else
      let s := bad (endTest .rxPort p false id s)
      if failures = 1 ∧ replay = false ∧ (s.tiles.rx[p]).spareInUse = false then
        onRx p (fun x => { x with spareInUse := true, converged := false }) s
      else retirePort u src s
  | .tx p =>
    let src := ((testOf .txPort p s).map (·.source)).getD 0
    if failures = 0 ∧ replay = false then endTest .txPort p true id s else retirePort u src (bad (endTest .txPort p false id s))

/-- PORT_SELFTEST_DONE: nothing ends where no test of the port runs. -/
def execPortSelftestDone (unit : RadioUnit) (failures : Nat) (replay : Bool) (s : State) : Host.Outcome State Fault Refusal :=
  let runs := match unit with
    | .rx p => (testOf .rxPort p s).isSome
    | .tx p => (testOf .txPort p s).isSome
    | .tile _ => false
  if runs then .next (portTested unit failures replay s) else .next s

/-- QUEUE_ALIGNMENT_ERROR (R31, R269): at a strobe a queue of an aligned tile differs from its aligned value by more than one entry. It
poisons from then on. -/
def execQueueAlignmentError (port : Fin 32) (tx : Bool) (occupancy : Fin 33) (s : State) : Host.Outcome State Fault Refusal :=
  let q := s.dfe.queue[port]
  let aligned := if tx then q.txAligned else q.rxAligned
  if (s.tiles.tile[tileOf port]).queueAligned && decide (1 < max (occupancy.val - aligned) (aligned - occupancy.val)) then
    let s := onDfe (fun d => { d with queue := upd d.queue port fun q =>
      if tx then { q with txOcc := occupancy, txError := true } else { q with rxOcc := occupancy, rxError := true } }) s
    .next (raise (tileSource (tileOf port) 0) (if tx then target .txPort port else target .rxPort port) 0 s)
  else .next s

end Sys2Proof.Machine
end

