-- ==== Sys2Proof/Machine/FrontEnd.lean ====
section
/-! DEFINITION. Front-end links, RFFE buses, coexistence and blanking (R210 to R239). -/
namespace Sys2Proof.Machine
open Sys2Proof

/-! ### Fault inputs and line faults (R222 to R226) -/

/-- The fault source of a link (R238). -/
def femSource (n : Fin 16) : Fin 320 := ⟨64 + n.val, by omega⟩

/-- What a link's fault input shows, as far as it is in use (R222, R223): a fault raises the link's error, and places a FEM hold when fault_action
says so. An input that is not in use shows none. -/
def judgeFault (fem : Fin 16) (s : State) : State :=
  let f := s.fec.fems[fem]
  let shows := f.faultEnable && (f.fltT || !f.fltC)
  let s := if shows then
      onFem fem (fun f => { f with
        fault := true, railMismatch := f.railMismatch || f.fltT == f.fltC, hold := f.hold || f.faultAction }) s
    else s
  setCond (femSource fem) shows (target .fem fem) 0 s

/-- FEM_FAULT_INPUT (R222, R223): the pair as read after its filters. -/
def execFemFaultInput (fem : Fin 16) (t c : Bool) (s : State) : Host.Outcome State Fault Refusal :=
  .next (settle (judgeFault fem (onFem fem (fun f => { f with fltT := t, fltC := c }) s)))

/-- STROBE_SHORT (R224): a strobe reads high while driven low, or low while driven high, for 1 µs. TXEN and PAEN place a FEM hold. -/
def execStrobeShort (fem : Fin 16) (strobe : Fin 4) (high : Bool) (s : State) : Host.Outcome State Fault Refusal :=
  let s := onFem fem (fun f => { f with
    strobes := upd f.strobes strobe fun x => if high then { x with shortHi := true } else { x with shortLo := true }
    hold := f.hold || strobe == 0 || strobe == 3 }) s
  .next (settle (raise (femSource fem) (target .fem fem) 0 s))

/-- A mailbox command among those of a bus ends with a result. -/
def endMailbox (r : MailResult) (f : Fem) : Fem := { f with busy := false, result := r }

/-- RFFE_SHORT (R225, R239): SCLK or SDATA reads back wrong; the bus stops, and the commands waiting on it are discarded. Those of bias channels and
of the mailbox are counted. -/
def execRffeShort (fem : Fin 16) (s : State) : Host.Outcome State Fault Refusal :=
  let s := onFem fem (fun f =>
    let lost := (f.queue.filter fun c => c.client != .writeList).length
    let g := { f with rffeShort := true, stopped := true, queue := [], discards := (f.discards + lost) % 65536 }
    if f.busy then endMailbox .busFault g else g) s
  .next (settle (raise (femSource fem) (target .fem fem) 0 s))

/-- RFFE_BUS_RETEST (R225): a stopped bus resumes once its read-back agrees. -/
def execRffeBusRetest (fem : Fin 16) (agrees : Bool) (s : State) : Host.Outcome State Fault Refusal :=
  .next (onFem fem (fun f => { f with stopped := f.stopped && !agrees }) s)

/-- The slaves that a link's write lists name (R226); USID 0 takes broadcast writes and is never read (R218). -/
def listedSlaves (n : Fin 16) (s : State) : List (Fin 16) :=
  (indices 16).filter fun u => s.fec.writes.any fun e => u != 0 && e.link == n && e.usid == u.val

/-- One polled slave: a third successive parity failure sets slave_missing and raises the link's error (R226). -/
def pollSlave (n : Fin 16) (failed : BitVec 16) (s : State) (u : Fin 16) : State :=
  let misses := (s.fec.fems[n]).misses[u]
  if !failed.getLsbD u then onFem n (fun f => { f with misses := f.misses.set u 0 }) s
  else
    let s := onFem n (fun f => { f with misses := f.misses.set u (min 3 (misses + 1)) }) s
    if misses = 2 then
      raise (femSource n) (target .fem n) 0 (onFem n (fun f => { f with slaveMissing := true, missingUsid := u.val }) s)
    else s

/-- PRESENCE_POLL (R226): register 0x1D of each listed slave of a bound link is read (R210); `failed` names those whose read failed parity. -/
def execPresencePoll (fem : Fin 16) (failed : BitVec 16) (s : State) : Host.Outcome State Fault Refusal :=
  let f := s.fec.fems[fem]
  if f.enable && f.presencePoll && !f.stopped then .next ((listedSlaves fem s).foldl (pollSlave fem failed) s)
  else .next s

/-! ### The RFFE bus (R217 to R221) -/

/-- The command that a bus runs next: write lists, then bias channels, then the mailbox, each in order (R219). -/
def nextCmd (q : List BusCmd) : Option BusCmd :=
  match q.find? (·.client == .writeList), q.find? (·.client == .bias) with
  | some c, _ => some c
  | none, some c => some c
  | none, none => q.head?

/-- Is a command code a read (R217)? -/
def isRead (code : Nat) : Bool := code == 1 || code == 4 || code == 6

/-- Is a queued command a write of a bias channel (R220)? -/
def isBiasOf (b : BiasChannel) (c : BusCmd) : Bool := c.client == .bias && c.usid == b.usid && c.addr == b.addr && c.command == b.command

/-- A bias write that was sent is the value last sent on its channel (R482). -/
def noteBias (fem : Fin 16) (c : BusCmd) (s : State) : State :=
  onCen (fun x => { x with biasSent := updAll x.biasSent fun i v => match s.fec.bias[i.val]? with
    | some b => if b.link = fem ∧ isBiasOf b c = true then some c.data else v
    | none => v }) s

/-- RFFE_COMMAND_DONE (R219): the bus finishes its next command; a mailbox read returns `data`, unless its parity failed. -/
def execRffeCommandDone (fem : Fin 16) (data : Nat) (parityOk : Bool) (s : State) : Host.Outcome State Fault Refusal :=
  let f := s.fec.fems[fem]
  match nextCmd f.queue with
  | none => .next s
  | some c =>
    if f.stopped then .next s
    else
      let s := onFem fem (fun f => { f with queue := removeFirst (· == c) f.queue }) s
      let s := settle (emit (.rffe fem c.command c.usid c.addr c.count c.data) s)
      if c.client = .mailbox then
        .next (onFem fem (fun f =>
          if !isRead c.command then endMailbox .ok f
          else if parityOk then { endMailbox .ok f with data := data % 2 ^ (8 * c.count) } else endMailbox .readParity f) s)
      else if c.client = .bias then .next (noteBias fem c s)
      else .next s

/-- The result of a mailbox command discarded for waiting: a free value. -/
def freeResult (n : Nat) : MailResult :=
  match freeMailResult n % 5 with
  | 0 => .ok
  | 1 => .busyOwned
  | 2 => .badParam
  | 3 => .readParity
  | _ => .busFault

/-- RFFE_QUEUE_TIMEOUT (R219): the longest waiting bias or mailbox command has waited more than 10 ms and is discarded. -/
def execRffeQueueTimeout (fem : Fin 16) (s : State) : Host.Outcome State Fault Refusal :=
  match (s.fec.fems[fem]).queue.find? (·.client != .writeList) with
  | none => .next s
  | some c =>
    let s := advanceMono (c.since + 40000000) s
    let r := freeResult s.free
    let s := onFem fem (fun f =>
      let g := { f with queue := removeFirst (· == c) f.queue, discards := (f.discards + 1) % 65536 }
      if c.client = .mailbox then endMailbox r g else g) (takeFree s)
    .next (raise 91 (target .fem fem) 0 s)

/-- Does a command's address and number of bytes fit its code (R217)? Register Write and Read have a 5-bit address and one byte, Register 0 Write
register 0 and a 7-bit value, Masked Write a mask and data, and the extended forms 1 to 8 bytes. -/
def rffeFits (code addr count data : Nat) : Bool :=
  match code with
  | 0 => decide (addr < 32) && count == 1
  | 1 => decide (addr < 32) && count == 1
  | 2 => addr == 0 && count == 1 && decide (data % 256 < 128)
  | 3 => decide (addr < 256) && decide (1 ≤ count) && decide (count ≤ 8)
  | 4 => decide (addr < 256) && decide (1 ≤ count) && decide (count ≤ 8)
  | 5 => decide (1 ≤ count) && decide (count ≤ 8)
  | 6 => decide (1 ≤ count) && decide (count ≤ 8)
  | 7 => decide (addr < 256) && count == 2
  | _ => false

/-- Are a mailbox command's fields legal (R217, R218, R239)? Broadcast reads are not implemented. -/
def mailboxOk (usid code addr count data : Nat) : Bool := rffeFits code addr count data && (usid != 0 || !isRead code)

/-- RFFE_MAILBOX_GO (R221, R239): a write of FEC_RFFE_CMD_n with go. It is ignored while the mailbox is busy, and acts only on a bus that
HOST owns. -/
def execRffeMailboxGo (fem : Fin 16) (value : Word) (s : State) : Host.Outcome State Fault Refusal :=
  let v := value.toNat
  let f := s.fec.fems[fem]
  if f.busy then .next s
  else if !ownedBy 0x02 fem 0x09 s then
    .next (onFec (fun x => { x with busyOwned := true }) (onFem fem (fun f => { f with result := .busyOwned }) s))
  else if !mailboxOk (field v 3 0) (field v 7 4) (field v 23 8) (field v 27 24) f.data then
    .next (onFem fem (fun f => { f with result := .badParam }) s)
  else
    let c : BusCmd := { client := .mailbox, command := field v 7 4, usid := field v 3 0, addr := field v 23 8, count := field v 27 24
                        data := f.data, since := s.time.mono }
    .next (onFem fem (fun f => { f with queue := f.queue ++ [c], busy := true }) s)

/-- MANUAL_STROBE_WRITE (R237): the levels of the strobes that HOST owns; a bit written 1 for another sets busy_owned. -/
def execManualStrobeWrite (fem : Fin 16) (level : BitVec 4) (s : State) : Host.Outcome State Fault Refusal :=
  let stray := (indices 4).any fun i => level.getLsbD i && !ownedBy 0x01 (4 * fem.val + i.val) 0x09 s
  let s := onFem fem (fun f => { f with manual := level }) s
  .next (settle (onFec (fun x => { x with busyOwned := x.busyOwned || stray }) s))

/-! ### Coexistence (R227 to R230) -/

/-- A change of one coexistence pair. -/
def onCx (c : Fin 8) (f : CxPair → CxPair) (s : State) : State := onFec (fun x => { x with cx := upd x.cx c f }) s

/-- GRANT_CHANGE (R227, R229): an edge at CXG_c, which a requester obeys. -/
def execGrantChange (pair : Fin 8) (level : Bool) (s : State) : Host.Outcome State Fault Refusal :=
  .next (settle (onCx pair (fun c => { c with pinG := level, grant := if c.role = 2 then c.grant else level }) s))

/-- GRANT_TIMEOUT (R228): a bound port's wait for the grant exceeds grant_timeout; a wait counts once. -/
def execGrantTimeout (pair : Fin 8) (s : State) : Host.Outcome State Fault Refusal :=
  let c := s.fec.cx[pair]
  match c.waitSince with
  | none => .next s
  | some t =>
    if c.role = 1 ∧ c.grantTimeout ≠ 0 ∧ c.counted = false then
      let s := advanceMono (t + 4000 * c.grantTimeout) s
      .next (notify (80 + pair.val) 0 0 (onCx pair (fun c => { c with denied := satAdd 65535 c.denied 1, counted := true }) s))
    else .next s

/-- COEX_REQUEST_CHANGE (R227, R230): an edge at CXA_c, at which an arbiter raises or lowers the grant. -/
def execCoexRequestChange (pair : Fin 8) (level : Bool) (s : State) : Host.Outcome State Fault Refusal :=
  .next (settle (onCx pair (fun c => { c with pinA := level, request := if c.role = 1 then c.request else level }) s))

/-! ### Blanking (R231 to R235) -/

/-- A change of one blanking input. -/
def onBlank (b : Fin 8) (f : Blank → Blank) (s : State) : State := onFec (fun x => { x with blanks := upd x.blanks b f }) s

/-- BLANK_ASSERT (R231): an enabled input that rises counts, and notification 89 says so. -/
def execBlankAssert (blank : Fin 8) (s : State) : Host.Outcome State Fault Refusal :=
  let x := s.fec.blanks[blank]
  let s := onBlank blank (fun b => { b with level := true }) s
  if x.enable ∧ x.level = false then
    .next (settle (notify 89 0 0 (onBlank blank (fun b => { b with
      asserts := (b.asserts + 1) % 65536, since := some s.time.mono, overdue := false }) s)))
  else .next s

/-- BLANK_RELEASE (R234). -/
def execBlankRelease (blank : Fin 8) (s : State) : Host.Outcome State Fault Refusal :=
  let x := s.fec.blanks[blank]
  let s := onBlank blank (fun b => { b with level := false, since := none, overdue := false }) s
  if x.enable && x.level then .next (settle (notify 89 0 0 s)) else .next s

/-- BLANK_STUCK (R235): an asserted input has stayed so beyond blank_max, once per assertion; it is still obeyed. -/
def execBlankStuck (blank : Fin 8) (s : State) : Host.Outcome State Fault Refusal :=
  let x := s.fec.blanks[blank]
  match x.since with
  | none => .next s
  | some t =>
    if blankActive x && x.blankMax != 0 && !x.overdue then
      let s := advanceMono (t + 4000000 * x.blankMax) s
      .next (raise 90 0 0 (onBlank blank (fun b => { b with stuck := true, overdue := true }) s))
    else .next s

end Sys2Proof.Machine
end

