-- ==== Sys2Proof/Machine/Monitor.lean ====
section
/-! DEFINITION. The monitor converters (R510 to R538): passes and triggers, injections, system calibration, comparators, open inputs,
reference checks and self-test, and the commands MON_SEQ_SET, MON_INJECT and MON_CAL. -/
namespace Sys2Proof.Machine
open Sys2Proof

/-! ### Passes and triggers (R514 to R517) -/

/-- Is an input invalid for the loops that read it (R483)? DEDUCED from the reset value of MON_RESULT: also before its first result. -/
def senseInvalid (n : Fin 128) (s : State) : Bool :=
  let x := s.mon.sense[n]
  x.updates == 0 || x.isOpen || madcTesting (convOfSense n) s || madcRetired (convOfSense n) s

/-- A converter with a new entry; a reference that goes off is not ready any more (R513). A pass belongs to SCAN, and a
stream whose entry changes begins anew. -/
def takeConvEntry (cfg : ConvCfg) (x : Converter) : Converter :=
  let y := { x with cfg := cfg }
  { y with line := if cfg = x.cfg then x.line else { lineReset with output := x.line.output }
           refReady := x.refReady && refOn y && refOn x
           running := x.running && cfg.mode == .scan
           pending := x.pending && cfg.mode == .scan }

/-- A pass starts, with the entry of a MON_SEQ_SET that waits for it (R534). -/
def startPass (c : Fin 8) (s : State) : State :=
  let x := s.mon.conv[c]
  match x.next with
  | none => onConv c (fun x => { x with running := true }) s
  | some (cfg, iss) =>
    completeOpt iss .ok (onConv c (fun x => { takeConvEntry cfg x with
      running := decide (cfg.mode = .scan), next := none }) s)

/-- Is a converter unable to start a pass (R517)? -/
def convBusy (c : Fin 8) (s : State) : Bool :=
  let x := s.mon.conv[c]
  x.running || refWait x || madcTesting c s || measuring c s

/-- A trigger held pending starts its pass as soon as the converter is free (R517). -/
def resumeConv (c : Fin 8) (s : State) : State :=
  let x := s.mon.conv[c]
  if x.pending && !convBusy c s && !madcRetired c s then startPass c (onConv c (fun x => { x with pending := false }) s) else s

/-- A trigger is discarded (R517). -/
def discardTrigger (c : Fin 8) (s : State) : State :=
  let s := onConv c (fun x => { x with overrun := satAdd 65535 x.overrun 1 }) s
  pulse 0x0901 (target .madc c) 1 (raise 250 (target .madc c) 0 s)

/-- PASS_TRIGGER (R516, R517): the trigger of a SCAN converter occurs. -/
def execPassTrigger (conv : Fin 8) (s : State) : Host.Outcome State Fault Refusal :=
  let x := s.mon.conv[conv]
  if x.cfg.mode ≠ .scan || madcRetired conv s then .next s
  else if !convBusy conv s then .next (startPass conv s)
  else if x.cfg.policy = 1 then .next (discardTrigger conv s)
  else if x.cfg.policy = 2 && x.running && !madcTesting conv s && !measuring conv s then
    .next (startPass conv (onConv conv (fun x => { x with lastAborted := true, restarts := satAdd 65535 x.restarts 1 }) s))
  else if x.pending then .next (discardTrigger conv s)
  else .next (onConv conv (fun x => { x with pending := true }) s)

/-- PASS_COMPLETE (R515): the results of a pass, one raw average in 1/16 LSB for each step, are published together; a later step of the
same input takes the place of an earlier one. -/
def execPassComplete (conv : Fin 8) (averages : List Nat) (s : State) : Host.Outcome State Fault Refusal :=
  let x := s.mon.conv[conv]
  if !x.running || refWait x || madcTesting conv s || measuring conv s then .next s
  else
    let steps := x.cfg.steps.zip averages
    let last := steps.zipIdx.filter fun p => !(steps.drop (p.2 + 1)).any fun q => q.1.input == p.1.1.input
    let s := last.foldl (fun s p => publish (senseIdx conv p.1.1.input) p.1.2 s) s
    let s := conversions conv ((x.cfg.steps.map fun p => p.settle + 2 ^ p.avg).sum) s
    .next (resumeConv conv (onConv conv (fun x => { x with running := false }) s))

/-- REF_READY (R513): a converter leaves REF_WAIT. -/
def execRefReady (conv : Fin 8) (s : State) : Host.Outcome State Fault Refusal :=
  .next (resumeConv conv (onConv conv (fun x => if refOn x then { x with refReady := true } else x) s))

/-! ### Injections (R520 to R522, R526) -/

/-- The host injections that a converter holds (R520). -/
def hostInjections (x : Converter) : Nat := (x.queue.filter fun i => i.issue.isSome).length

/-- The checks of MON_INJECT (R520). -/
def monInjectCheck (d : Desc) (s : State) : Option Refuse :=
  firstFail
    [(!d.indirect, badParam 1),
     (d.length.toNat != 16, badParam 4),
     ((d.unit .madc 8).isNone, badParam 8),
     (15 < d.byte 20, badParam 20),
     (8 < d.byte 21, badParam 21),
     (15 < d.byte 22, badParam 22),
     d.strayCheck [(12, 11)],
     (match d.unit .madc 8 with
      | some c => decide (4 ≤ hostInjections (s.mon.conv[c]))
      | none => false, refuseTarget .rejectedBusy d.tgt)]

/-- MON_INJECT (R520, R521, R526): an injection that arrives while a calibration runs is held until the terms go live. -/
def execMonInject (d : Desc) (s : State) : Host.Outcome State Fault Refusal :=
  .next (hostCommand 0x31 (.monInject d) d (fun iss s =>
    match monInjectCheck d s, d.unit .madc 8, finOf 16 (d.byte 20) with
    | some r, _, _ => refuse iss r s
    | none, some c, some i =>
      onConv c (fun x => { x with queue := x.queue ++
        [{ issue := some iss, address := d.u 12 8, input := i, avg := d.byte 21, settle := d.byte 22
           blocked := x.cal.isSome, held := x.cal.isSome, newCal := false, since := s.time.mono }] }) s
    | none, _, _ => refuse iss (badParam 8) s) s)

/-- An automatic injection of an input, ahead of the host's; none while one of that input is pending (R521, R528). -/
def autoInject (n : Fin 128) (s : State) : State :=
  let c := convOfSense n
  let i : Fin 16 := ⟨n.val % 16, by omega⟩
  onConv c (fun x =>
    let autos := x.queue.filter fun q => q.issue.isNone
    if autos.any fun q => q.input == i then x
    else { x with
      queue := autos ++ [{ issue := none, address := 0, input := i, avg := 0, settle := 0, blocked := x.cal.isSome
                           held := x.cal.isSome, newCal := false, since := s.time.mono }] ++ x.queue.filter fun q => q.issue.isSome }) s

/-- The record of an injection (R522): the stamp of its first conversion, the value, the raw code and the flags. -/
def injectionRecord (n : Fin 128) (i : MonInjection) (stamp : Nat) (s : State) : List Nat :=
  let x := s.mon.sense[n]
  let flags := bit i.newCal + 2 * bit x.isOpen + 4 * bit i.held
  (toBytes 8 stamp ++ toBytes 4 (unsigned 32 x.value) ++ toBytes 2 x.raw ++ toBytes 2 flags).map (·.toNat)

/-- An injected conversion finishes: its result is published, and a host's one writes its record and completes OK (R521, R522). -/
def finishInjection (c : Fin 8) (i : MonInjection) (stamp average : Nat) (s : State) : State :=
  let n := senseIdx c i.input
  let s := onConv c (fun x => { x with queue := removeFirst (· == i) x.queue }) s
  let s := publish n average s
  let s := conversions c (i.settle + 2 ^ i.avg) (repeatSamples c (i.settle + 2 ^ i.avg) s)
  match i.issue with
  | none => s
  | some iss => complete iss .ok (emit (.hostWrite i.address (injectionRecord n i stamp s)) s)

/-- INJECTION_COMPLETE (R521, R522, R526): the next injection finishes with its raw average in 1/16 LSB, or the oldest host injection has
waited for inject_timeout. A converter that waits for its reference, or is under self-test or retired, converts nothing. -/
def execInjectionComplete (conv : Fin 8) (timeout : Bool) (stamp average : Nat) (s : State) : Host.Outcome State Fault Refusal :=
  let x := s.mon.conv[conv]
  if timeout then
    match x.queue.find? fun i => i.issue.isSome with
    | none => .next s
    | some i =>
      let s := advanceMono (i.since + 4000 * s.mon.timeout) s
      .next (completeOpt i.issue .timeout (onConv conv (fun x => { x with queue := removeFirst (· == i) x.queue }) s))
  else if refWait x || madcTesting conv s || madcRetired conv s then .next s
  else match nextInjection x with
    | none => .next s
    | some i => .next (finishInjection conv i stamp average s)

/-! ### System calibration (R523 to R526) -/

/-- A phase by its code (R523). -/
def calPhaseOf : Nat → CalPhase
  | 0 => .zero
  | 1 => .full
  | 2 => .offset
  | _ => .revert

/-- The checks of MON_CAL (R523, R525). -/
def monCalCheck (d : Desc) (s : State) : Option Refuse :=
  let a := d.byte 14
  let bad (f : Fin 8 → Bool) : Bool := (d.unit .madc 8).any f
  let sense (c : Fin 8) : Option Sense := (finOf 16 (d.byte 12)).map fun i => s.mon.sense[senseIdx c i]
  firstFail
    [(d.indirect, badParam 1),
     ((d.unit .madc 8).isNone, badParam 8),
     (bad fun c => madcRetired c s, badParam 8),
     (15 < d.byte 12, badParam 12),
     (bad fun c => (sense c).any (·.isOpen), badParam 12),
     (3 < d.byte 13, badParam 13),
     (bad fun c => d.byte 13 == 1 && (sense c).any (·.zero.isNone), badParam 13),
     (!(a == 0 || (4 ≤ a && a ≤ 12)), badParam 14),
     (15 < d.byte 15, badParam 15),
     d.strayCheck [(12, 8)],
     (bad fun c => (s.mon.conv[c]).cal.isSome, refuseTarget .rejectedBusy d.tgt)]

/-- MON_CAL (R523 to R526): the measurement starts once the injections queued before it have converted. -/
def execMonCal (d : Desc) (s : State) : Host.Outcome State Fault Refusal :=
  .next (hostCommand 0x32 (.monCal d) d (fun iss s =>
    match monCalCheck d s, d.unit .madc 8, finOf 16 (d.byte 12) with
    | some r, _, _ => refuse iss r s
    | none, some c, some i =>
      let phase := calPhaseOf (d.byte 13)
      onConv c (fun x => { x with
        cal := some { issue := iss, input := i, phase := phase, avg := if d.byte 14 = 0 then 8 else d.byte 14
                      settle := d.byte 15, expected := d.s 16 4 }
        calInput := i
        lastPhase := phase }) s
    | none, _, _ => refuse iss (badParam 8) s) s)

/-- The user terms (t, uo) are within R155. -/
def termsOk (t uo : Int) : Bool := -8192 ≤ t && t ≤ 8192 && -32768 ≤ uo && uo ≤ 32767

/-- The user offset that makes a raw average of m sixteenths read `expected` sixteenths with a trim of t (R524). -/
def offsetFor (n : Fin 128) (t expected m : Int) : Int :=
  roundEven (expected * 2 ^ 47 - factoryOffset n * 2 ^ 19 - (32768 + t) * factoryGain n * m) 51

/-- What a measured average m does to an input's terms and zero point (R524, R525); none when the command completes BAD_PARAM. -/
def calResult (n : Fin 128) (r : CalRun) (m : Int) (x : Sense) : Option Sense :=
  let put (t uo : Int) (zero : Option (Int × Int)) : Option Sense :=
    if termsOk t uo then some { x with trim := t, offset := uo, zero := zero } else none
  match r.phase with
  | .zero => some { x with zero := some (m, r.expected) }
  | .offset => put x.trim (offsetFor n x.trim r.expected m) x.zero
  | .revert => some { x with trim := x.imageTrim, offset := x.imageOffset, zero := none }
  | .full =>
    match x.zero with
    | none => none
    | some (m0, e0) =>
      let den := factoryGain n * (m - m0)
      if den = 0 then none
      else
        let t := roundRatio (((r.expected - e0) * 2 ^ 32 - den) * 2 ^ 15) den
        put t (offsetFor n t e0 m0) none

/-- Injections held by a measurement are released; they carry new_cal when terms changed (R526). -/
def releaseHeld (changed : Bool) (x : Converter) : Converter :=
  { x with queue := x.queue.map fun i => if i.blocked then { i with blocked := false, newCal := changed } else i }

/-- CAL_MEASUREMENT_DONE (R524 to R526): the terms are computed from the raw average in 1/16 LSB and go live. -/
def execCalMeasurementDone (conv : Fin 8) (average : Nat) (s : State) : Host.Outcome State Fault Refusal :=
  match (s.mon.conv[conv]).cal with
  | none => .next s
  | some r =>
    if !measuring conv s then .next s
    else
      let n := senseIdx conv r.input
      let x := s.mon.sense[n]
      let y := if x.isOpen || madcRetired conv s then none else calResult n r average x
      let changed := y.any fun y => y.trim != x.trim || y.offset != x.offset
      let s := match y with
        | some y => onSense n (fun _ => y) s
        | none => s
      let s := onConv conv (fun x => { releaseHeld changed x with cal := none }) s
      let s := conversions conv (r.settle + 2 ^ r.avg) (repeatSamples conv (r.settle + 2 ^ r.avg) s)
      let s := if y.isSome then complete r.issue .ok s else refuse r.issue (badParam 12) s
      .next (resumeConv conv s)

/-! ### Comparators (R527 to R529) -/

/-- A change of one comparator. -/
def onCmp (n : Fin 64) (f : Comparator → Comparator) (s : State) : State := onMon (fun m => { m with cmp := upd m.cmp n f }) s

/-- The TX port of a forward or reflected input (R511). -/
def cmpPort (n : Fin 64) : Fin 32 := ⟨n.val / 2, by omega⟩

/-- The sense input of a comparator. -/
def cmpSense (n : Fin 64) : Fin 128 := ⟨n.val, by omega⟩

/-- COMPARATOR_TRIP (R343, R527, R528): an enabled comparator trips at its upper or its lower threshold. -/
def execComparatorTrip (input : Fin 64) (high : Bool) (s : State) : Host.Outcome State Fault Refusal :=
  let x := s.mon.cmp[input]
  if !x.cfg.enable || (!high && x.cfg.lo == 0) then .next s
  else
    let s := autoInject (cmpSense input) (onCmp input (fun x => { x with tripped := true, latch := true }) s)
    let m := cmpPort input
    if high && input.val % 2 == 1 then
      let s := onPortProt m (fun p => { p with tripped := true }) s
      if (s.nps.port[m]).reflectedEnable then .next (mutePort false m .reflected false 0 s) else .next s
    else .next s

/-- COMPARATOR_RELEASE (R527): the input has stayed inside the window by hyst for 1 µs. -/
def execComparatorRelease (input : Fin 64) (s : State) : Host.Outcome State Fault Refusal :=
  let s := onCmp input (fun x => { x with tripped := false }) s
  if input.val % 2 = 1 then .next (onPortProt (cmpPort input) (fun p => { p with tripped := false }) s) else .next s

/-! ### Open inputs and reference checks (R530 to R532) -/

/-- Does a converter check an input: one of its steps, or its stream input (R530)? -/
def checksInput (x : Converter) (i : Fin 16) : Bool :=
  x.cfg.openCheck && match x.cfg.mode with
    | .off => false
    | .scan => x.cfg.steps.any fun p => p.input == i
    | .stream => x.cfg.streamInput == i

/-- OPEN_CHECK (R530, R531): by how many codes the test conversion exceeds the normal one. -/
def execOpenCheck (conv : Fin 8) (input : Fin 16) (difference : Int) (s : State) : Host.Outcome State Fault Refusal :=
  let x := s.mon.conv[conv]
  if !checksInput x input || refWait x || madcTesting conv s || madcRetired conv s then .next s
  else
    let n := senseIdx conv input
    let y := s.mon.sense[n]
    let o := if 2048 ≤ difference then min 3 (y.openRun + 1) else 0
    let k := if difference < 1024 then min 3 (y.clearRun + 1) else 0
    let declared := !y.isOpen && o == 3
    let s := onSense n (fun y => { y with
      openRun := o, clearRun := k, isOpen := if o = 3 then true else if k = 3 then false else y.isOpen }) s
    let s := conversions conv 1 (takeCheckSlot conv s)
    .next (if declared then raise 249 (target .madc conv) n.val s else s)

/-- The error source of a converter's reference check (R537). -/
def refSource (c : Fin 8) : Fin 320 := ⟨240 + c.val, by omega⟩

/-- REFERENCE_CHECK (R532): a result outside 8,192 ± 40 codes raises the error and starts the self-test. -/
def execReferenceCheck (conv : Fin 8) (code : Nat) (s : State) : Host.Outcome State Fault Refusal :=
  let x := s.mon.conv[conv]
  if refWait x || madcTesting conv s || madcRetired conv s then .next s
  else
    let s := conversions conv 1 (takeCheckSlot conv s)
    if 8192 - 40 ≤ code ∧ code ≤ 8192 + 40 then .next s
    else
      let src := refSource conv
      .next (askTest .madc conv src false [] (raise src (target .madc conv) code s))

/-- A calibration that waits on a converter that retires completes BAD_PARAM (R525). -/
def endCal (c : Fin 8) (s : State) : State :=
  match (s.mon.conv[c]).cal with
  | none => s
  | some r => refuse r.issue (badParam 8) (onConv c (fun x => { releaseHeld false x with cal := none }) s)

/-- MADC_SELFTEST_DONE (R532): a pass restores the converter, and a fail retires it. -/
def execMadcSelftestDone (conv : Fin 8) (pass : Bool) (s : State) : Host.Outcome State Fault Refusal :=
  match testOf .madc conv s with
  | none => .next s
  | some _ =>
    let s := endTest .madc conv pass id s
    if pass then .next (resumeConv conv s)
    else
      let s := onConv conv (fun x => { x with running := false, pending := false }) (retireUnit .madc conv 248 s)
      .next (endCal conv (raise 248 (target .madc conv) 0 s))

/-! ### MON_SEQ_SET (R534, R535) -/

/-- A step word (R535). -/
def stepOf (w : Nat) : Option ConvStep :=
  match finOf 16 (field w 3 0) with
  | some i => if w / 2 ^ 12 = 0 ∧ field w 7 4 ≤ 8 then some { input := i, avg := field w 7 4, settle := field w 11 8 } else none
  | none => none

/-- A mode by its code (R535). -/
def modeOf : Nat → Option ConvMode
  | 0 => some .off
  | 1 => some .scan
  | 2 => some .stream
  | _ => none

/-- Are param1 and param2 legal for a trigger (R516, R535)? -/
def triggerOk (trigger p1 p2 : Nat) : Bool :=
  match trigger with
  | 1 => 1000 ≤ p1 && p1 ≤ 1000000000 && 1000000000 % p1 == 0 && decide (p2 < p1)
  | 2 => p1 ≤ 5000
  | 3 => p1 < 8 && field p2 29 0 ≤ 1000000 && p2 / 2 ^ 30 ≤ 2
  | _ => true

/-- A converter entry of 80 bytes (R535); none when a field is out of range or an unused byte is not zero. -/
def convOf (bs : List Byte) : Option (Fin 8 × ConvCfg) :=
  let b (o : Nat) : Nat := leAt bs o 1
  let count := b 4
  let words := (List.range 16).map fun i => leAt bs (16 + 4 * i) 4
  let steps := ((words.take count).map stepOf).filterMap id
  let ok := b 2 ≤ 3 && b 3 ≤ 2 && 1 ≤ count && count ≤ 16 && b 5 < 128 && 8 ≤ field (b 5) 6 2 && field (b 5) 6 2 ≤ 24
    && b 7 < 8 && triggerOk (b 2) (leAt bs 8 4) (leAt bs 12 4) && (words.drop count).all (· == 0) && steps.length == count
  match finOf 8 (b 0), modeOf (b 1), finOf 16 (b 6) with
  | some c, some mode, some si =>
    if ok then
      some (c, { mode := mode, trigger := b 2, policy := b 3, steps := steps, preset := field (b 5) 1 0
                 dcShift := field (b 5) 6 2, streamInput := si, openCheck := bitOf (b 7) 0, dcBlock := bitOf (b 7) 1
                 refAlways := bitOf (b 7) 2, param1 := leAt bs 8 4, param2 := leAt bs 12 4 })
    else none
  | _, _, _ => none

/-- The checks of MON_SEQ_SET on its descriptor (R534). -/
def monSeqCheck (d : Desc) : Option Refuse :=
  firstFail
    [(!d.indirect, badParam 1),
     (d.length.toNat != 80, badParam 4),
     ((d.unit .madc 8).isNone, badParam 8),
     d.strayCheck [(12, 8)]]

/-- An entry waits for the next pass, or takes effect at once when it changes the mode (R534). DEDUCED: a converter that runs no passes
takes it at once too. -/
def installEntry (c : Fin 8) (cfg : ConvCfg) (iss : Issue) (s : State) : State :=
  let x := s.mon.conv[c]
  let s := match x.next with
    | some (_, old) => completeOpt old .superseded (onConv c (fun x => { x with next := none }) s)
    | none => s
  let s := addClaim 0x06 c s
  if x.cfg.mode = .scan ∧ cfg.mode = .scan then onConv c (fun x => { x with next := some (cfg, some iss) }) s
  else complete iss .ok (onConv c (takeConvEntry cfg) s)

/-- MON_SEQ_SET (R126, R534). -/
def execMonSeqSet (d : Desc) (s : State) : Host.Outcome State Fault Refusal :=
  .next (hostCommand 0x30 (.monSeqSet d) d (fun iss s =>
    match monSeqCheck d, d.unit .madc 8, d.bytes with
    | some r, _, _ => refuse iss r s
    | none, _, none => bufferError iss s
    | none, none, some _ => refuse iss (badParam 8) s
    | none, some c, some bs =>
      match convOf bs with
      | none => refuse iss (badParam 0xFFFF) s
      | some (e, cfg) =>
        if e ≠ c then refuse iss (badParam 0xFFFF) s
        else if ownedByOther 0x06 c s then refuse iss (refuseTarget .busyOwned d.tgt) s
        else installEntry c cfg iss s) s)

end Sys2Proof.Machine
end

