-- ==== Sys2Proof/Machine/LinkBase.lean ====
section
/-! DEFINITION. Lane capacity and feeds (R402, R422, R434 to R436, R449), which placement and Soldin Link share. -/
namespace Sys2Proof.Machine
open Sys2Proof

/-- A change of one lane. -/
def onLane (l : Fin 64) (f : Lane → Lane) (s : State) : State := onLnk (fun x => { x with lane := upd x.lane l f }) s

/-- A change of one link. -/
def onLink (g : Fin 16) (f : Link → Link) (s : State) : State := onLnk (fun x => { x with link := upd x.link g f }) s

/-- Words per frame of a lane's rate (R402). -/
def wordsPerFrame (c : LaneCfg) : Nat :=
  match c.rate with
  | 0 => 15625
  | 1 => 7812
  | 2 => if c.fecOff then 3906 else 3791
  | _ => if c.fecOff then 1562 else 1516

/-- The words a lane takes per tick (R422). -/
def laneCapacity (c : LaneCfg) : Nat := wordsPerFrame c / 10 - 8

/-- The mantissa width of a width code (R414). -/
def widthBits (w : Nat) : Nat := 8 + 2 * w

/-- The rate index of a stream: of its slice, or its own for FORWARD (R419). -/
def streamK (e : StreamEntry) (s : State) : Nat :=
  if e.role = .forward then e.k else ((liveDef e.slice s).map (·.k)).getD e.k

/-- The words per tick of a stream of rate index `k` and a width code (R422): f_s × 1 µs is 4,000 / 2^k samples. -/
def streamWords (k w : Nat) : Nat :=
  let blocks := (4000 + 16 * 2 ^ k - 1) / (16 * 2 ^ k)
  (blocks * (8 + 32 * widthBits w) + 63) / 64 + 1

/-- The words of a stream id's feed. -/
def feedWords (stream : Nat) (s : State) : Nat :=
  match s.lnk.streams.find? fun e => e.stream == stream with
  | some e => streamWords (streamK e s) e.width
  | none => 0

/-- The words that the feeds on a lane take. -/
def laneUsed (l : Fin 64) (s : State) : Nat :=
  (s.lnk.feeds.filter fun f => f.lane == some l).foldl (fun t f => t + feedWords f.stream s) 0

/-- The words per tick that are free on a lane. -/
def laneFree (l : Fin 64) (s : State) : Nat := laneCapacity (s.lnk.lane[l]).cfg - laneUsed l s

/-- Is a lane an UP data lane of a link, and not forbidden (R411, R443)? -/
def dataLane (g : Fin 16) (l : Fin 64) (s : State) : Bool :=
  let x := s.lnk.lane[l]
  x.cfg.link == some g && x.state == .up && x.data && !x.forbid

/-- Is a lane an UP spare of a link (R411, R435)? -/
def spareLane (g : Fin 16) (l : Fin 64) (s : State) : Bool :=
  let x := s.lnk.lane[l]
  x.cfg.link == some g && x.state == .up && !x.data && !x.forbid && !x.recovering

/-- Does a lane carry feeds (R441)? -/
def carryingLane (l : Fin 64) (s : State) : Bool := s.lnk.feeds.any fun f => f.lane == some l

/-- The lane pins of a feed (R465): kind 2, path in bit 0 and feed in bit 2. -/
def feedPins (stream feed : Nat) (s : State) : List Pin :=
  match s.lnk.streams.find? fun e => e.stream == stream && e.role != .forward with
  | some e => s.plc.pins.filter fun p =>
      p.slice == e.slice && p.kind == 2 && p.which == bit (decide (e.path = .b)) + 4 * (feed % 2)
  | none => []

/-- The data lane that a feed of `words` words takes: the one of its link with the most free words after placement; ties go to
the lowest index (R449). -/
def laneFor (g : Fin 16) (stream feed words : Nat) (skip : List (Fin 64)) (s : State) : Option (Fin 64) :=
  let pins := feedPins stream feed s
  let l := (indices 64).filter fun l => dataLane g l s && !skip.contains l && words ≤ laneFree l s
    && pins.all fun p => p.mask.getLsbD l
  match l with
  | [] => none
  | x :: xs => some (xs.foldl (fun m y => if laneFree m s < laneFree y s then y else m) x)

/-- The priority of a stream (R436): of its slice, or its own for FORWARD. -/
def streamPriority (stream : Nat) (s : State) : Nat :=
  match s.lnk.streams.find? fun e => e.stream == stream with
  | some e => if e.role = .forward then e.priority else ((liveDef e.slice s).map (·.priority)).getD 7
  | none => 7

/-- Every feed of a link loses its lane when the lane is no eligible data lane any more. -/
def dropLanes (s : State) : State :=
  onLnk (fun x => { x with feeds := x.feeds.map fun f =>
    match f.lane with
    | some l => if dataLane f.link l s then f else { f with lane := none }
    | none => f }) s

/-- The feeds without a lane in the order in which they are placed: priority 0 first, lowest stream id first (R436). -/
def unplaced (s : State) : List Feed :=
  let first (a b : Feed) : Bool :=
    let pa := streamPriority a.stream s
    let pb := streamPriority b.stream s
    decide (pa < pb) || (pa == pb && decide (a.stream ≤ b.stream))
  sortBy first (s.lnk.feeds.filter fun f => f.lane.isNone)

/-- A feed takes a lane when one can carry it. -/
def placeFeed (s : State) (f : Feed) : State :=
  match laneFor f.link f.stream f.feed (feedWords f.stream s) [] s with
  | none => s
  | some l => bumpGen (onLnk (fun x => { x with feeds := x.feeds.map fun y =>
      if y.stream = f.stream ∧ y.feed = f.feed ∧ y.link = f.link then { y with lane := some l } else y }) s)

/-- The feed that gives way to `f` (R436): the last in priority, then in stream id, on a lane of its link, when it comes after
`f` in that order. -/
def givesWay (f : Feed) (s : State) : Option Feed :=
  let after (a b : Feed) : Bool :=
    let pa := streamPriority a.stream s
    let pb := streamPriority b.stream s
    decide (pb < pa) || (pa == pb && decide (b.stream < a.stream))
  let l := s.lnk.feeds.filter fun x => x.link == f.link && x.lane.isSome && after x f
  match l with
  | [] => none
  | x :: xs => some (xs.foldl (fun m y => if after y m then y else m) x)

/-- Room for a feed made by shedding feeds that come after it, one at a time, `n` at most (R436). -/
def placeOver (f : Feed) : Nat → State → State
  | 0, s => s
  | n + 1, s =>
    let s' := placeFeed s f
    if s'.lnk.feeds != s.lnk.feeds then s'
    else match givesWay f s with
      | none => s
      | some x => placeOver f n (onLnk (fun y => { y with feeds := y.feeds.map fun z =>
          if z = x then { z with lane := none } else z }) s)

/-- The feeds brought onto lanes that can carry them, in order of priority; those that fit nowhere are shed, and every feed newly
shed raises source 197 (R435, R436). -/
def placeFeeds (s : State) : State :=
  let before := s.lnk.feeds
  let s := dropLanes s
  let s := (unplaced s).foldl (fun s f => placeOver f 64 s) s
  let s := (unplaced s).foldl placeFeed s
  let shed := s.lnk.feeds.filter fun f => f.lane.isNone && before.any fun b => b.stream == f.stream && b.feed == f.feed && b.lane.isSome
  shed.foldl (fun s f => raise 197 0 (f.stream + 65536 * f.feed) s) s

/-- Is a link up: has it a data lane UP (R411)? -/
def linkUp (g : Fin 16) (s : State) : Bool := (indices 64).any fun l => dataLane g l s

end Sys2Proof.Machine
end

