-- ==== Sys2Proof/Machine/SampleMemory.lean ====
section
/-! DEFINITION. Where the data of a buffer lies in SMEM (R430, R539, R545, R547): a buffer is a ring of containers over its pages in order,
two containers to a word. Writers write whole lines of eight words (R540). -/
namespace Sys2Proof.Machine
open Sys2Proof

/-- The pages of a mask, ascending. -/
def maskPages (m : BitVec 512) : List Nat := (List.range 512).filter fun i => m.getLsbD i

/-- The pages of a buffer in order, as bank × 512 + page. -/
def pageList (c : List (Fin 48 × BitVec 512)) : List Nat := c.flatMap fun x => (maskPages x.2).map fun i => x.1.val * 512 + i

/-- The location of word `w` of a list of pages (R539). -/
def wordLocation (pages : List Nat) (w : Nat) : Option Nat := (pages[w / 512]?).map fun g => g * 512 + w % 512

/-- The buffer that holds a location, with the word's place in it. -/
def wordOwner (loc : Nat) (s : State) : Option (BufKey × Nat) :=
  s.plc.buffers.findSome? fun b =>
    ((pageList b.chunks).findIdx? fun g => g == loc / 512).map fun i => (b.key, i * 512 + loc % 512)

/-- The stream entry whose playout a delay buffer serves. -/
def bufferEntry (k : BufKey) (s : State) : Option StreamEntry :=
  s.lnk.streams.find? fun e => e.slice == k.slice && e.path == k.path && e.role != .forward

/-- The containers that a buffer's ring holds: D + N_fc of a delay line (R314), f_s × delay_target of a delay buffer (R430). -/
def ringLength (k : BufKey) (s : State) : Nat :=
  if k.delay then
    match bufferEntry k s, liveDef k.slice s with
    | some e, some d => (4 * e.target + 2 ^ d.k - 1) / 2 ^ d.k
    | _, _ => 0
  else
    let c := s.can.path[canIdx k.slice k.path]
    c.delay + c.wFg.length

/-- A word is written whole: its poison or its parity error is gone (R551, R552). -/
def clearFault (loc : Nat) (m : Smem) : Smem := { m with faults := m.faults.filter fun f => f.1 != loc }

/-- A word takes a fault; the list stays sorted by location. -/
def setFault (loc : Nat) (f : WordFault) (m : Smem) : Smem :=
  { m with faults := ((m.faults.filter fun x => x.1 < loc) ++ [(loc, f)]) ++ m.faults.filter fun x => loc < x.1 }

/-- A page's written bit sets at its first write, which fills the page with zeros in valid code (R545, R547). -/
def setWritten (g : Nat) (m : Smem) : Smem :=
  match finOf 48 (g / 512) with
  | some b =>
    if (m.bank[b]).written.getLsbD (g % 512) then m
    else { m with
      bank := upd m.bank b fun x => { x with written := x.written ||| BitVec.twoPow 512 (g % 512) }
      faults := m.faults.filter fun f => f.1 / 512 != g }
  | none => m

/-- A line of a list of pages is read or written, which the performance counters count for its bank (R609). -/
def countLine (event : Nat) (pages : List Nat) (line : Nat) (s : State) : State :=
  match pages[line / 64]? with
  | some g => pulse event (target .bank (g / 512)) 1 s
  | none => s

/-- A line of a buffer is read. -/
def readLine (k : BufKey) (line : Nat) (s : State) : State :=
  match s.plc.buffers.find? fun b => b.key == k with
  | none => s
  | some b => countLine 0x0400 (pageList b.chunks) line s

/-- A line of eight words of a buffer is written: in its pages and, while it is being copied, in both copies (R455, R540). -/
def writeLine (k : BufKey) (line : Nat) (s : State) : State :=
  match s.plc.buffers.find? fun b => b.key == k with
  | none => s
  | some b =>
    let s := countLine 0x0401 (pageList (b.copy.getD [])) line (countLine 0x0401 (pageList b.chunks) line s)
    let one (pages : List Nat) (m : Smem) : Smem :=
      match pages[line / 64]? with
      | none => m
      | some g => (List.range 8).foldl (fun m i => clearFault (g * 512 + line % 64 * 8 + i) m) (setWritten g m)
    onMem (fun m => one (pageList (b.copy.getD [])) (one (pageList b.chunks) m)) s

/-- `n` containers from absolute number `first` on enter a buffer's ring: each line that they complete, or the ring's end, is written. A delay
line is read at the pace at which it is written (DEDUCED from R540). -/
def writeRing (k : BufKey) (first n : Nat) (s : State) : State :=
  let len := ringLength k s
  if len = 0 then s
  else (List.range n).foldl (fun s i =>
    let pos := (first + i) % len
    if pos % 16 = 15 ∨ pos + 1 = len then
      let s := writeLine k (pos / 16) s
      if k.delay then s else readLine k (pos / 16) s
    else s) s

/-- A buffered block loses the sample of a ring position, when it holds one. -/
def pierce (stream feed len pos : Nat) (b : HeldBlock) : HeldBlock :=
  if b.stream = stream ∧ b.feed = feed then
    match (List.range 16).find? (fun i => (16 * b.number + i) % len == pos) with
    | some i => if b.holes.contains i then b else { b with holes := b.holes ++ [i] }
    | none => b
  else b

/-- The containers of a ring position are lost to a memory error: poisoned in a delay line, a hole in a delay buffer's block (R549). -/
def loseContainer (k : BufKey) (pos : Nat) (s : State) : State :=
  let len := ringLength k s
  if len ≤ pos then s
  else if k.delay then
    match bufferEntry k s with
    | none => s
    | some e => onLnk (fun l => { l with buffered := l.buffered.map (pierce e.stream k.feed len pos) }) s
  else onCanceller k.slice k.path (fun c =>
    { c with line := c.line.set ((c.count + 2 * len - 1 - pos) % len) .poisoned }) s

/-- Both containers of a word, or those that a mask of failed bytes touches, are lost (R549, R550). -/
def loseWord (k : BufKey) (w : Nat) (bytes : Nat) (s : State) : State :=
  let s := if bytes % 16 ≠ 0 then loseContainer k (2 * w) s else s
  if bytes / 16 ≠ 0 then loseContainer k (2 * w + 1) s else s

/-- The fault of a word, when it has one. -/
def faultAt (loc : Nat) (m : Smem) : Option WordFault := (m.faults.find? fun f => f.1 == loc).map (·.2)

/-- Has a word's page been written, or was its bank zeroed at boot as far as the scrubber is concerned (R546, R547, R555)? -/
def readable (loc : Nat) (scrub : Bool) (s : State) : Bool :=
  match finOf 48 (loc / 2 ^ 18) with
  | none => false
  | some b =>
    let x := s.mem.bank[b]
    x.state != .retired && (x.written.getLsbD (loc % 2 ^ 18 / 512) || (scrub && x.zeroed))

/-- A page is copied (R553): its written bit and its poisoned words go along, and a parity error becomes lost containers. -/
def copyPage (k : BufKey) (i src dst : Nat) (s : State) : State :=
  if src = dst then s
  else
    let was := match finOf 48 (src / 512) with
      | some b => (s.mem.bank[b]).written.getLsbD (src % 512)
      | none => false
    let s := if was then onMem (setWritten dst) s else s
    let here := s.mem.faults.filter fun f => f.1 / 512 == src
    here.foldl (fun s f => match f.2 with
      | .poison => onMem (setFault (dst * 512 + f.1 % 512) .poison) s
      | .parity m => loseWord k (i * 512 + f.1 % 512) m s) s

end Sys2Proof.Machine
end

