-- ==== Sys2Proof/Machine/Weathervane.lean ====
section
/-! DEFINITION. Weathervane at work (R450 to R471, R557): evacuations, restarts for placement, moves, buffer copies, passes, pins,
forbids and bank retirement. -/
namespace Sys2Proof.Machine
open Sys2Proof

/-! ### What units hold -/

/-- An engine holds nothing. -/
def engineEmpty (e : Fin 64) (s : State) : Bool :=
  (onEngine (carried s) e).isEmpty && !((movesOf s).any fun m => m.src == e || m.dst == e)

/-- A bank holds nothing. -/
def bankEmpty (b : Fin 48) (s : State) : Bool := pagesIn b s == 0 && s.plc.stagedBank != some b

/-- A pin is met: the named work lies inside its mask and is in no move (R466). -/
def pinConforms (p : Pin) (s : State) : Bool :=
  match p.kind with
  | 0 => !migrating p.slice s && (((s.plc.placed[p.slice]).live).all fun h => h.engines.all fun e => p.mask.getLsbD e)
  | 1 => s.plc.buffers.all fun b => !((bufferPins b.key s).contains p) ||
      (b.copy.isNone && b.chunks.all fun c => p.mask.getLsbD c.1)
  | _ => s.lnk.feeds.all fun f => !((feedPins f.stream f.feed s).contains p) || f.lane.all fun l => p.mask.getLsbD l

/-- A host pass or a periodic one runs (R468). -/
def passRunning (s : State) : Bool :=
  ((movesOf s).any fun m => m.reason == .hostPass || m.reason == .periodic)
    || s.plc.waiting.any fun w => w.reason == .hostPass || w.reason == .periodic

/-- What a command waits for has come about (R466 to R468, R557). -/
def jobDone (j : PlaceJob) (s : State) : Bool :=
  match j with
  | .pin p => pinConforms p s
  | .forbidEngine e => (s.plc.engine[e]).state == .forbidden || (s.plc.engine[e]).state == .retired
  | .forbidBank b => (s.mem.bank[b]).state == .forbidden || (s.mem.bank[b]).state == .retired
  | .retireBank b => (s.mem.bank[b]).state == .retired
  | .pass => !passRunning s

/-- Commands whose work is done complete OK, in the order in which they came. -/
def settleWaits (s : State) : State :=
  let done := s.plc.waits.filter fun w => jobDone w.job s
  completeAll (done.map (·.issue)) .ok
    (onPlc (fun p => { p with waits := p.waits.filter fun w => !jobDone w.job s }) s)

/-- An engine that has become empty goes on: EVACUATING to TESTING, and a forbidden AVAILABLE one to FORBIDDEN (R459, R467). -/
def settleEngine (s : State) (e : Fin 64) : State :=
  let x := s.plc.engine[e]
  if x.state = .evacuating then if engineEmpty e s then setEngine e .testing s else s
  else if x.state = .available ∧ x.forbid = true then if engineEmpty e s then setEngine e .forbidden s else s
  else s

/-- A bank that has become empty goes on: EVACUATING to TESTING, one to retire to RETIRED with the map written, a forbidden
AVAILABLE one to FORBIDDEN, and a named buffer to OWNED (R443, R459, R467, R557). DEDUCED: source 261, whose name is that a bank is
retired, is raised for a retirement on command too (R561). -/
def settleBank (s : State) (b : Fin 48) : State :=
  let x := s.mem.bank[b]
  if x.state = .evacuating then if bankEmpty b s then setBank b .testing s else s
  else if x.state = .available ∧ x.retire = true then
    if bankEmpty b s then raise 261 (target .bank b) 0 (retireUnit .bank b 0 (setBank b .retired s)) else s
  else if x.state = .available ∧ bankOwned b s = true then if bankEmpty b s then setBank b .owned s else s
  else if x.state = .available ∧ x.forbid = true then if bankEmpty b s then setBank b .forbidden s else s
  else s

/-- The units and the waiting commands brought up to date after a change of the placement. -/
def settleUnits (s : State) : State :=
  let busy := (indices 64).filter fun e => (s.plc.engine[e]).state == .evacuating || (s.plc.engine[e]).forbid
  let s := busy.foldl settleEngine s
  let busy := (indices 48).filter fun b =>
    (s.mem.bank[b]).state == .evacuating || (s.mem.bank[b]).forbid || (s.mem.bank[b]).retire || bankOwned b s
  let s := busy.foldl settleBank s
  if s.plc.waits.isEmpty then s else settleWaits s

/-! ### Making room (R460) and restoring (R461) -/

/-- The slices that may be stopped to make room for a slice: placed, of a priority number above its own, in the order of R460. -/
def stopOrder (sl : SliceId) (s : State) : List SliceId :=
  let prio (x : SliceId) : Nat := ((baseParams x s).map (·.defn.priority)).getD 0
  let own := prio sl
  sortBy (fun a b => decide (prio b < prio a) || (prio a == prio b && decide (b ≤ a)))
    ((indices 256).filter fun x => x != sl && ((s.plc.placed[x]).live).isSome && own < prio x)

/-- Slices are stopped one at a time until `fits`; none left stops the slice itself (R460). -/
def makeRoomIn (sl : SliceId) (fits : State → Bool) : List SliceId → State → State
  | [], s => stopForCapacity sl s
  | x :: xs, s =>
    let s := stopForCapacity x s
    if fits s then s else makeRoomIn sl fits xs s

/-- Room is made for a slice's work, and the error names the unit that is being emptied (R460). -/
def makeRoom (sl : SliceId) (fits : State → Bool) (src : Fin 320) (unit : Nat) (s : State) : State :=
  raise src unit 0 (makeRoomIn sl fits (stopOrder sl s) s)

/-- A slice stopped for capacity is placed again if it fits, and restarts by steps 2 to 4 of R295 (R461). -/
def restoreSlice (s : State) (sl : SliceId) : State :=
  match baseParams sl s with
  | none => s
  | some x => match reserve sl x.defn s with
    | none => s
    | some s =>
      let s := onPlc (fun p => { p with placed := upd p.placed sl fun y => { y with stopped := false } }) s
      restartPresent false sl (recordNow (.placement 5 0 sl 0 0 0 0 0 0) s)

/-- The slices stopped for capacity, in ascending priority number, then ascending index (R461). -/
def restoreOrder (s : State) : List SliceId :=
  let prio (x : SliceId) : Nat := ((baseParams x s).map (·.defn.priority)).getD 0
  sortBy (fun a b => decide (prio a < prio b) || (prio a == prio b && decide (a ≤ b)))
    ((indices 256).filter fun x => (s.plc.placed[x]).stopped)

/-- Capacity has been freed: stopped slices that fit are restored (R461). -/
def restoreStopped (s : State) : State := (restoreOrder s).foldl restoreSlice s

/-- A slice is relocated by restart, causes kept (R456); `unit` is the unit being emptied. -/
def relocate (unit : Nat) (sl : SliceId) (s : State) : State :=
  match baseParams sl s with
  | none => s
  | some x =>
    let s := unreserve sl (abandonMoves sl s)
    let s := match reserve sl x.defn s with
      | some _ => s
      | none => makeRoom sl (fun s => (reserve sl x.defn s).isSome) 210 unit s
    if (s.plc.placed[sl]).stopped then s
    else match reserve sl x.defn s with
      | some s => restartPresent false sl s
      | none => s

/-- Relocation by restart of every slice of a list. -/
def relocateAll (unit : Nat) (l : List SliceId) (s : State) : State := l.foldl (fun s sl => relocate unit sl s) s

/-! ### Moves (R450 to R456) -/

/-- A move is asked for, once. -/
def askMove (r : MoveReq) (s : State) : State :=
  if ((movesOf s).any fun m => m.slice == r.slice && m.part == r.part)
      || s.plc.waiting.any fun w => w.slice == r.slice && w.part == r.part then
    onPlc (fun p => { p with waiting := p.waiting.map fun w =>
      if w.slice = r.slice ∧ w.part = r.part ∧ r.reason = .evacuation then r else w }) s
  else onPlc (fun p => { p with waiting := p.waiting ++ [r] }) s

/-- The moves that a reservation needs: parts whose engine changes (R294, R458). -/
def askCostMoves (sl : SliceId) (s : State) : State × Bool :=
  match (s.plc.placed[sl]).live, (s.plc.placed[sl]).next with
  | some h, some n =>
    if h.engines.length = n.engines.length then
      let l := (h.engines.zip n.engines).zipIdx.filter fun x => x.1.1 != x.1.2
      (l.foldl (fun s x => askMove { slice := sl, part := x.2, reason := .costRise, dst := some x.1.2 } s) s, !l.isEmpty)
    else (s, false)
  | _, _ => (s, false)

/-- The order of waiting moves (R454). -/
def moveClass : MoveReason → Nat
  | .evacuation => 0 | .pin => 1 | .costRise => 2 | .thermal => 3 | .periodic => 4 | .hostPass => 4

/-- The source engine of a waiting move. -/
def moveSource (r : MoveReq) (s : State) : Option (Fin 64) :=
  ((s.plc.placed[r.slice]).live).bind fun h => h.engines[r.part]?

/-- An engine that is in a move (R454). -/
def inMove (e : Fin 64) (s : State) : Bool := (movesOf s).any fun m => m.src == e || m.dst == e

/-- The target of a move among the engines outside a list (R445, R450): the named engine, or the one chosen with the part itself left out of its source's
load. -/
def targetBeside (busy : List (Fin 64)) (r : MoveReq) (s : State) : Option (Fin 64) :=
  match (s.plc.placed[r.slice]).live, moveSource r s with
  | some h, some src =>
    let l := (carried s).filter fun c => !(c.slice == r.slice && c.engine == src)
    let need : PartNeed :=
      { slice := r.slice, owner := ownerOf r.slice s, home := r.part == 0, cost := h.cost
        bytes := h.need + (if r.part = 0 then lineBytes h else 0), avoid := src :: (h.engines ++ busy) }
    match r.dst with
    | some e => if candidate l need s e then some e else none
    | none => choose l need s
  | _, _ => none

/-- The target of a move: an engine that is in no move (R454). -/
def moveTarget (r : MoveReq) (s : State) : Option (Fin 64) := targetBeside ((indices 64).filter fun e => inMove e s) r s

/-- May a waiting move start now (R362, R454)? A move of a slice on a rung waits, unless it is an evacuation, which relocates
the slice; so does one whose every target is in another move. -/
def mayStart (s : State) (r : MoveReq) : Bool :=
  (r.reason == .evacuation || !sliceOnRung r.slice s) && (match moveSource r s with
    | none => true
    | some e => !inMove e s && ((moveTarget r s).isSome || (targetBeside [] r s).isNone))

/-- The waiting move that starts next (R454). -/
def nextMove (s : State) : Option MoveReq :=
  let l := s.plc.waiting.filter (mayStart s)
  match l with
  | [] => none
  | x :: xs => some (xs.foldl (fun m y =>
      if moveClass y.reason < moveClass m.reason
        || (moveClass y.reason == moveClass m.reason && (y.slice < m.slice || (y.slice == m.slice && y.part < m.part)))
      then y else m) x)

/-- A waiting move leaves the queue. -/
def dropReq (r : MoveReq) (s : State) : State :=
  onPlc (fun p => { p with waiting := removeFirst (fun w => w == r) p.waiting }) s

/-- A move starts at S (R450 steps 1 and 2). -/
def startMove (r : MoveReq) (src dst : Fin 64) (s : State) : State :=
  match findIdx s.plc.moves (·.isNone) with
  | none => s
  | some i =>
    let s := advanceTo (strobeAt (s.now + 1)) s
    let m : Move := { slice := r.slice, part := r.part, src := src, dst := dst, reason := r.reason, phase := .warmUp
                      start := s.now, matched := 0, shadowed := 0 }
    moveRecord 0 m (bumpGen (onPlc (fun p => { p with moves := p.moves.set i (some m) }) (dropReq r s)))

/-- MOVE_START (R450, R454, R456, R460): the next waiting move starts while fewer than move_limit are in flight. An evacuation of a slice
on a rung, or one that finds no target, relocates or makes room; another move without a target is dropped. No move starts while the
supervisor restarts (R654). -/
def moveStart (s : State) : State :=
  if s.plc.moveLimit ≤ (movesOf s).length || s.flt.fatal || s.sec.restart.isSome then s
  else match nextMove s with
    | none => s
    | some r => match moveSource r s with
      | none => settleUnits (dropReq r s)
      | some src =>
        let unit := target .engine src
        if r.reason = .evacuation ∧ sliceOnRung r.slice s = true then settleUnits (relocate unit r.slice (dropReq r s))
        else match moveTarget r s with
          | some dst => startMove r src dst s
          | none =>
            if r.reason = .evacuation then
              settleUnits (makeRoom r.slice (fun s => (moveTarget r s).isSome) 210 unit s)
            else settleUnits (dropReq r s)


/-- A slot of PLC_MOVE_i becomes idle. -/
def clearMove (i : Fin 8) (s : State) : State := onPlc (fun p => { p with moves := p.moves.set i none }) s

/-- A move is abandoned: its target's reservation is freed (R452). -/
def abandonMove (i : Fin 8) (m : Move) (s : State) : State := bumpGen (moveRecord 2 m (clearMove i s))

/-- A move cuts over (R450 step 6): the part runs on its target and the source is free. -/
def cutOver (i : Fin 8) (m : Move) (s : State) : State :=
  let s := onPlc (fun p => { p with placed := upd p.placed m.slice fun x =>
    { x with live := x.live.map fun h => { h with engines := h.engines.set m.part m.dst } } }) (clearMove i s)
  settleUnits (moveRecord 1 m (bumpGen s))

/-- The warm-up time W in quarter-nanoseconds (R450). -/
def warmUp (d : SliceDef) : Nat := max 80000 ((d.nCh + 64) * samplePeriod d)

/-- A move that a protection cause ends (R362, R456): an evacuation relocates the slice by restart. -/
def causeAbandon (i : Fin 8) (m : Move) (s : State) : State :=
  let s := abandonMove i m s
  settleUnits (if m.reason = .evacuation then relocate (target .engine m.src) m.slice s else s)

/-- SHADOW_START (R450 step 4): at S + W both engines compute. -/
def execShadowStart (slot : Fin 8) (s : State) : Host.Outcome State Fault Refusal :=
  match s.plc.moves[slot], (s.plc.moves[slot]).bind fun m => liveDef m.slice s with
  | some m, some d =>
    if m.phase != .warmUp then .next s
    else
      let s := advanceTo (m.start + warmUp d) s
      if sliceOnRung m.slice s then .next (causeAbandon slot m s)
      else .next (onPlc (fun p => { p with moves := p.moves.set slot (some { m with phase := .shadow }) }) s)
  | _, _ => .next s

/-- MOVE_CUTOVER (R450 step 6, R451, R586): 2,048 agreeing samples have been seen, and the part is not in the fatal state. -/
def execMoveCutover (slot : Fin 8) (s : State) : Host.Outcome State Fault Refusal :=
  match s.plc.moves[slot] with
  | some m => if m.phase = .cutover ∧ s.flt.fatal = false then .next (cutOver slot m s) else .next s
  | none => .next s

/-- MOVE_ABANDON (R452): no match in 8,192 shadow samples, for samples were poisoned, or the engines disagreed and `matched` is the run since. An
evacuation cuts over and raises 209, naming its source; any other move is abandoned and raises 208, naming its target, which is then tested as
for an error on it (R459). -/
def execMoveAbandon (slot : Fin 8) (matched : Nat) (s : State) : Host.Outcome State Fault Refusal :=
  match s.plc.moves[slot] with
  | some m =>
    if m.phase = .warmUp ∨ m.shadowed < 8192 then .next s
    else
      let m := { m with matched := min 2047 (min m.matched matched) }
      if m.reason = .evacuation then .next (cutOver slot m (raise 209 (target .engine m.src) 0 s))
      else .next (settleUnits (raise 208 (target .engine m.dst) 0 (abandonMove slot m s)))
  | none => .next s

/-- A cause has become active on a slice (R362): its moves in shadow are abandoned. -/
def abandonShadow (sl : SliceId) (s : State) : State :=
  (indices 8).foldl (fun s i => match s.plc.moves[i] with
    | some m => if m.slice = sl ∧ m.phase ≠ .warmUp then causeAbandon i m s else s
    | none => s) s

/-- A commit changes a slice whose move is in shadow (R141, R456): the move is abandoned, the slice stays on its old engine, and an evacuation starts
again. -/
def commitAbandon (sl : SliceId) (s : State) : State :=
  (indices 8).foldl (fun s i => match s.plc.moves[i] with
    | some m =>
      if m.slice = sl ∧ m.phase ≠ .warmUp then
        let s := abandonMove i m s
        if m.reason = .evacuation then askMove { slice := sl, part := m.part, reason := .evacuation, dst := none } s else s
      else s
    | none => s) s

/-! ### Evacuation of an engine (R459, R460) -/

/-- The parts on an engine that are in force: slice and part. -/
def partsOn (e : Fin 64) (s : State) : List (SliceId × Nat) :=
  (indices 256).filterMap fun sl => match (s.plc.placed[sl]).live with
    | some h => if h.engines.contains e then some (sl, h.engines.idxOf e) else none
    | none => none

/-- A reservation that uses an engine is made anew elsewhere; where it cannot be, the command it serves completes NO_CAPACITY
(DESIGN CHOICE) and a restart's slice is stopped for capacity. -/
def remakeReservation (e : Fin 64) (s : State) (sl : SliceId) : State :=
  let x := s.slices.slice[sl]
  if !(((s.plc.placed[sl]).next).any fun h => h.engines.contains e) then s
  else
    let s := unreserve sl s
    match x.restart, x.pending, x.live with
    | some r, _, _ => match reserve sl r.params.defn s with
      | some s => s
      | none =>
        let s := onSlice sl (fun y => { y with restart := some { r with issue := none } }) s
        completeOpt r.issue .noCapacity (stopForCapacity sl s)
    | none, some p, some old => match reserveChange sl old.defn p.params.defn s with
      | some s => (askCostMoves sl s).1
      | none => complete p.issue .noCapacity (onSlice sl (fun y => { y with pending := none }) s)
    | _, _, _ => s

/-- The moves that an error on an engine touches: those towards it are abandoned and asked for again, those away from it
become evacuations (R456). -/
def redirectMoves (e : Fin 64) (s : State) : State :=
  (indices 8).foldl (fun s i => match s.plc.moves[i] with
    | some m =>
      if m.dst = e then
        let s := abandonMove i m s
        if m.reason = .evacuation ∨ m.reason = .pin then
          askMove { slice := m.slice, part := m.part, reason := m.reason, dst := none } s
        else s
      else if m.src = e then
        onPlc (fun p => { p with moves := p.moves.set i (some { m with reason := .evacuation }) }) s
      else s
    | none => s) s

/-- An engine is evacuated and then tested (R459): one that is RETIRED, EVACUATING or TESTING starts no second test (R580). -/
def evacuateEngine (e : Fin 64) (source : Nat) (injectedOnly : Bool) (hosts : List Issue) (s : State) : State :=
  let st := (s.plc.engine[e]).state
  if st = .retired then s
  else if st = .evacuating ∨ st = .testing then askTest .engine e source injectedOnly hosts s
  else
    let s := setEngine e .evacuating (askTest .engine e source injectedOnly hosts s)
    let s := redirectMoves e s
    let s := (indices 256).foldl (remakeReservation e) s
    let s := (partsOn e s).foldl (fun s x =>
      askMove { slice := x.1, part := x.2, reason := .evacuation, dst := none } s) s
    settleUnits s

/-! ### Buffers and banks (R455, R459, R460, R129) -/

/-- The bank of a STAGED copy: the lowest AVAILABLE SEC-DED bank without pages (R448). -/
def stagedChoice (s : State) : Option (Fin 48) :=
  (indices 48).find? fun b =>
    let x := s.mem.bank[b]
    x.state == .available && !x.forbid && !x.retire && !bankOwned b s && !x.parity && pagesIn b s == 0 && s.plc.stagedBank != some b

/-- A buffer's pages on a bank go to others, or those of its copy that is under way: the copy starts, or none when no bank can take them (R448,
R455). -/
def copyOff (b : Fin 48) (x : Buffer) (pins : List Pin) (s : State) : Option State :=
  let chunks := x.copy.getD x.chunks
  let rest := chunks.filter fun c => c.1 != b
  let here := chunks.foldl (fun n c => if c.1 = b then n + popCount 512 c.2 else n) 0
  (findPages pins s (4 - rest.length) here (b :: rest.map (·.1))).map fun c =>
    bumpGen (clearWritten c (onPlc (fun p => { p with buffers := p.buffers.map fun y =>
      if y.key = x.key then { y with copy := some (chunks.flatMap fun z => if z.1 = b then c else [z]) } else y }) s))

/-- One buffer of a bank in evacuation is copied off, or room is made for it (R460). -/
def evacuateBuffer (b : Fin 48) (s : State) (x : Buffer) : State :=
  let fits (s : State) : Bool := (copyOff b x (bufferPins x.key s) s).isSome
  let s := if fits s then s else makeRoom x.key.slice fits 211 (target .bank b) s
  (copyOff b x (bufferPins x.key s) s).getD s

/-- The STAGED copy leaves a bank: to another, or it is dropped with error 211 (R129). -/
def evacuateStaged (b : Fin 48) (s : State) : State :=
  if s.plc.stagedBank != some b then s
  else match stagedChoice s with
    | some x => bumpGen (onPlc (fun p => { p with stagedBank := some x }) s)
    | none => raise 211 (target .bank b) 0 (bumpGen (onPlc (fun p => { p with stagedBank := none }) s))

/-- The buffers with pages on a bank and no copy under way. -/
def buffersOn (b : Fin 48) (s : State) : List Buffer :=
  s.plc.buffers.filter fun x => x.copy.isNone && x.chunks.any fun c => c.1 == b

/-- All work of a bank starts to leave it. -/
def emptyBank (b : Fin 48) (s : State) : State := (buffersOn b s).foldl (evacuateBuffer b) (evacuateStaged b s)

/-- Buffers whose copies have ended leave the banks that are to become empty (R443, R459, R467, R557). -/
def leaveBanks (s : State) : State :=
  (indices 48).foldl (fun s b =>
    let x := s.mem.bank[b]
    let leaves := x.state == .evacuating || (x.state == .available && (x.forbid || x.retire || bankOwned b s))
    if leaves && !(buffersOn b s).isEmpty then emptyBank b s else s) s

/-- A bank is evacuated and then tested (R459, R556). -/
def evacuateBank (b : Fin 48) (source : Nat) (injectedOnly : Bool) (hosts : List Issue) (s : State) : State :=
  let st := (s.mem.bank[b]).state
  if st = .retired then s
  else if st = .evacuating ∨ (st = .testing ∧ (s.mem.bank[b]).recode = false) then askTest .bank b source injectedOnly hosts s
  else settleUnits (emptyBank b (setBank b .evacuating (askTest .bank b source injectedOnly hosts s)))

/-- BUFFER_COPY_DONE (R455, R553): every page has been copied, the readers switch at the next strobe and the old pages are freed. -/
def execBufferCopyDone (slice : SliceId) (path : PathId) (delay : Bool) (feed : Nat) (s : State) :
    Host.Outcome State Fault Refusal :=
  let k : BufKey := { slice := slice, path := path, delay := delay, feed := feed }
  match s.plc.buffers.find? fun b => b.key == k && b.copy.isSome with
  | none => .next s
  | some b =>
    let new := b.copy.getD []
    let s := advanceTo (strobeAt (s.now + 1)) s
    let s := ((pageList b.chunks).zip (pageList new)).zipIdx.foldl (fun s x => copyPage k x.2 x.1.1 x.1.2 s) s
    let s := clearWritten (b.chunks.filter fun c => !new.contains c) s
    let s := onPlc (fun p => { p with buffers := p.buffers.map fun x =>
      if x.key = k then { x with chunks := new, copy := none } else x }) s
    .next (settleUnits (leaveBanks (placeLine slice path (bumpGen s))))

/-! ### The end of a test (R459, R556, R558) -/

/-- The words of a bank without faults: its march test has overwritten them. -/
def cleanBank (b : Fin 48) (s : State) : State :=
  onMem (fun m => { m with
    faults := m.faults.filter fun f => f.1 / 2 ^ 18 != b.val
    bank := upd m.bank b fun x => { x with written := 0 } }) s

/-- The state of a bank that has passed its test: FORBIDDEN instead of AVAILABLE where it is forbidden and nothing else claims it (R467). -/
def bankPassed (b : Fin 48) (s : State) : UnitState :=
  let x := s.mem.bank[b]
  if x.forbid && !x.retire && !bankOwned b s then .forbidden else .available

/-- An engine's test ends: AVAILABLE on a pass, FORBIDDEN instead where it is forbidden (R467), RETIRED with source 104 on a fail. -/
def engineTested (e : Fin 64) (pass : Bool) (s : State) : State :=
  if (s.plc.engine[e]).state != .testing then s
  else
    let source := ((testOf .engine e s).map (·.source)).getD 0
    if pass then settleUnits (restoreStopped (endTest .engine e true id
      (setEngine e (if (s.plc.engine[e]).forbid = true then .forbidden else .available) s)))
    else
      let s := retireUnit .engine e source (setEngine e .retired s)
      settleUnits (restoreStopped (endTest .engine e false id (raise 104 (target .engine e) 0 s)))

/-- A bank's march test ends: in service with its bitmap clear and notification 262, or RETIRED with source 261. -/
def bankTested (b : Fin 48) (pass : Bool) (s : State) : State :=
  if (s.mem.bank[b]).state != .testing || (s.mem.bank[b]).recode then s
  else
    let source := ((testOf .bank b s).map (·.source)).getD 0
    if pass then
      let s := endTest .bank b true (notify 262 (target .bank b) 0) (cleanBank b (setBank b (bankPassed b s) s))
      settleUnits (restoreStopped s)
    else
      let s := retireUnit .bank b source (setBank b .retired s)
      settleUnits (restoreStopped (endTest .bank b false id (raise 261 (target .bank b) 0 s)))

/-- UNIT_SELFTEST_DONE (R459, R461, R467). -/
def execUnitSelftestDone (unit : FabricUnit) (pass : Bool) (s : State) : Host.Outcome State Fault Refusal :=
  .next (match unit with
    | .engine e => engineTested e pass s
    | .bank b => bankTested b pass s)

/-! ### Thermal moves and passes (R462, R463, R468) -/

/-- A planned move: its slice and engines. -/
abbrev Planned := SliceId × Fin 64 × Fin 64

/-- A part carried elsewhere, for planning. -/
def planCarried (p : Planned) (l : List Carried) : List Carried :=
  l.map fun c => if c.slice = p.1 ∧ c.engine = p.2.1 then { c with engine := p.2.2 } else c

/-- May a part be moved by a plan (R362): its slice is on no rung and in no move? -/
def mayPlan (c : Carried) (s : State) : Bool :=
  !sliceOnRung c.slice s && !migrating c.slice s && ((s.plc.placed[c.slice]).live).any fun h => h.engines.contains c.engine

/-- The largest part of a quadrant that meets a test once a target in quadrant `cold` is chosen, with that target. -/
def planOne (l : List Carried) (hot cold : Fin 4) (ok : Nat → Bool) (s : State) : Option Planned :=
  let parts := sortBy (fun a b => decide (b.cost ≤ a.cost)) (l.filter fun c => quadrant c.engine == hot && mayPlan c s)
  parts.findSome? fun c =>
    if !ok c.cost then none
    else
      let n : PartNeed := { slice := c.slice, owner := c.owner, home := c.home, cost := c.cost, bytes := c.bytes, avoid := [] }
      (prefer l s.plc.policy (choices l n s cold)).map fun e => (c.slice, c.engine, e)

/-- Thermal moves (R462): from the hottest into the coolest quadrant while the coolest one's score afterwards stays below the
hottest one's. -/
def planThermal (s : State) : Nat → List Carried → List Planned
  | 0, _ => []
  | n + 1, l =>
    let hot := quadExtreme false s
    let cold := quadExtreme true s
    match planOne l hot cold (fun c => scoreOf l s cold + c < scoreOf l s hot - c) s with
    | none => []
    | some p => p :: planThermal s n (planCarried p l)

/-- The moves of a pass (R463): from the highest to the lowest scoring quadrant while their scores differ by more than
rebalance_gap. -/
def planPass (s : State) : Nat → List Carried → List Planned
  | 0, _ => []
  | n + 1, l =>
    let order := quadOrder l s
    let lo := order.headD 0
    let hi := order.getLastD 0
    if scoreOf l s hi ≤ scoreOf l s lo + 2048 * s.plc.gap then []
    else
      match planOne l hi lo (fun c => scoreOf l s lo + c ≤ scoreOf l s hi - c) s with
      | none => []
      | some p => p :: planPass s n (planCarried p l)

/-- A planned move as a waiting one. -/
def askPlanned (r : MoveReason) (s : State) (p : Planned) : State :=
  match (s.plc.placed[p.1]).live with
  | none => s
  | some h => askMove { slice := p.1, part := h.engines.idxOf p.2.1, reason := r, dst := some p.2.2 } s

/-- Thermal moves are asked for while a spread is declared and they are enabled (R462). -/
def thermalMoves (s : State) : State :=
  if s.plc.spread && s.plc.thermalMoves then (planThermal s 256 (carried s)).foldl (askPlanned .thermal) s else s

/-- MOVE_START: while a spread is declared, parts of the hottest quadrant that now may move are asked for too (R462). -/
def execMoveStart (s : State) : Host.Outcome State Fault Refusal :=
  .next (moveStart (if s.plc.waiting.isEmpty then thermalMoves s else s))

/-- SPREAD_DECLARED (R462, R629): the spread has lasted for the fabric zone's dwell. Error 212 is raised, and thermal moves begin. -/
def execSpreadDeclared (s : State) : Host.Outcome State Fault Refusal :=
  let s := retimeSpread s
  match s.plc.spreadSince with
  | none => .next s
  | some t =>
    if s.plc.spread then .next s
    else
      let s := advanceMono (t + dwellQ s.thm.zone[4]) s
      .next (retimeSpread (thermalMoves (raise 212 0 0 (onPlc (fun p => { p with spread := true, spreadSince := none }) s))))

/-- SPREAD_CLEARED (R462, R629): the difference has stayed below the limit less the hysteresis for the dwell. Thermal moves that have not started are
given up. -/
def execSpreadCleared (s : State) : Host.Outcome State Fault Refusal :=
  let s := retimeSpread s
  match s.plc.spreadSince with
  | none => .next s
  | some t =>
    if s.plc.spread then
      let s := advanceMono (t + dwellQ s.thm.zone[4]) s
      .next (retimeSpread (settleUnits (onPlc (fun p => { p with
        spread := false, spreadSince := none, waiting := p.waiting.filter fun w => w.reason != .thermal }) s)))
    else .next s

/-- REBALANCE_PASS (R463): a periodic pass under SPREAD with an interval set. -/
def execRebalancePass (s : State) : Host.Outcome State Fault Refusal :=
  if s.plc.policy || s.plc.interval = 0 then .next s
  else
    let l := planPass s 256 (carried s)
    .next (l.foldl (askPlanned .periodic) (onPlc (fun p => { p with lastPass := min 1023 l.length }) s))

/-- PLACE_REBALANCE (R465, R468). -/
def execPlaceRebalance (d : Desc) (s : State) : Host.Outcome State Fault Refusal :=
  .next (hostCommand 0x42 (.placeRebalance d) d (fun iss s =>
    match firstFail [(d.indirect, badParam 1), (d.tgt ≠ 0, badParam 8), (1 < d.byte 12, badParam 12), (1 < d.byte 13, badParam 13),
        d.strayCheck [(12, 2)], (passRunning s, refusal .rejectedBusy)] with
    | some r => refuse iss r s
    | none =>
      let l := if d.byte 12 = 0 then planPass s 256 (carried s) else planThermal s 256 (carried s)
      let s := onPlc (fun p => { p with lastPass := min 1023 l.length }) s
      if d.byte 13 = 1 then complete iss .ok s
      else
        let s := l.foldl (askPlanned .hostPass) s
        settleUnits (onPlc (fun p => { p with waits := p.waits ++ [{ issue := iss, job := .pass }] }) s)) s)

/-! ### Pins (R465, R466) -/

/-- PLACE_PIN's parameter checks. -/
def pinCheck (d : Desc) (s : State) : Option Refuse :=
  match d.unit .slice 256 with
  | none => some (badParam 8)
  | some sl =>
    let kind := d.byte 13
    let which := d.byte 14
    let mask := d.u 16 8
    let path : PathId := if bitOf which 0 then .b else .a
    let exists' : Bool := match kind with
      | 0 => true
      | 1 => s.plc.buffers.any fun b => b.key.slice == sl && b.key.path == path && b.key.delay == bitOf which 1
               && b.key.feed == which / 4
      | _ => s.lnk.streams.any fun e => e.slice == sl && e.path == path && e.role != .forward
               && s.lnk.feeds.any fun f => f.stream == e.stream && f.feed == which / 4
    firstFail
      [(d.indirect, badParam 1), (!isDefined sl s, badParam 8), (1 < d.byte 12, badParam 12), (2 < kind, badParam 13),
       ((kind == 0 && which != 0) || (kind == 1 && 7 < which) || (kind == 2 && which % 4 / 2 != 0) || 7 < which, badParam 14),
       d.strayCheck [(12, 3), (16, 8)],
       (!exists', badParam 14),
       (d.byte 12 == 1 && (mask == 0 || (kind == 1 && 2 ^ 48 ≤ mask)), badParam 16)]

/-- A pin recorded in place of one for the same work. -/
def recordPin (p : Pin) (s : State) : State :=
  onPlc (fun x => { x with pins := (x.pins.filter fun q =>
    !(q.slice == p.slice && q.kind == p.kind && q.which == p.which)) ++ [p] }) s

/-- The parts of a slice outside its engine pins. -/
def strayParts (sl : SliceId) (s : State) : List Nat :=
  match (s.plc.placed[sl]).live with
  | none => []
  | some h => (h.engines.zipIdx.filter fun x => !inPins sl x.1 s).map (·.2)

/-- The work that a new pin concerns moves inside its mask; none when no conforming placement exists (R466). -/
def pinMoves (p : Pin) (s : State) : Option State :=
  match p.kind with
  | 0 => (strayParts p.slice s).foldl (fun o j => o.bind fun s =>
      let r : MoveReq := { slice := p.slice, part := j, reason := .pin, dst := none }
      if (moveTarget r s).isSome then some (askMove r s) else none) (some s)
  | 1 => (s.plc.buffers.filter fun b => (bufferPins b.key s).contains p).foldl (fun o b => o.bind fun s =>
      (b.chunks.filter fun c => !p.mask.getLsbD c.1).foldl (fun o c => o.bind fun s =>
        (s.plc.buffers.find? fun y => y.key == b.key).bind fun y => copyOff c.1 y (bufferPins b.key s) s) (some s)) (some s)
  | _ => (s.lnk.feeds.filter fun f => (feedPins f.stream f.feed s).contains p).foldl (fun o f => o.bind fun s =>
      match f.lane with
      | none => some s
      | some l =>
        if p.mask.getLsbD l then some s
        else (laneFor f.link f.stream f.feed (feedWords f.stream s) [l] s).map fun x =>
          bumpGen (onLnk (fun y => { y with feeds := y.feeds.map fun g => if g = f then { g with lane := some x } else g }) s)) (some s)

/-- PLACE_PIN (R465, R466). -/
def execPlacePin (d : Desc) (s : State) : Host.Outcome State Fault Refusal :=
  .next (hostCommand 0x40 (.placePin d) d (fun iss s =>
    match pinCheck d s, d.unit .slice 256 with
    | some r, _ => refuse iss r s
    | none, none => refuse iss (badParam 8) s
    | none, some sl =>
      let p : Pin := { slice := sl, kind := d.byte 13, which := d.byte 14, mask := BitVec.ofNat 64 (d.u 16 8) }
      if d.byte 12 = 0 then
        complete iss .ok (onPlc (fun x => { x with pins := x.pins.filter fun q =>
          !(q.slice == p.slice && q.kind == p.kind && q.which == p.which) }) s)
      else
        let s' := recordPin p s
        if pinConforms p s' then complete iss .ok s'
        else match pinMoves p s' with
          | none => refuse iss (refuseTarget .noCapacity d.tgt) s
          | some s'' =>
            if sliceOnRung sl s || migrating sl s then refuse iss (refuseTarget .rejectedBusy d.tgt) s
            else settleUnits (onPlc (fun x => { x with waits := x.waits ++ [{ issue := iss, job := .pin p }] }) s'')) s)

/-! ### Forbids (R465, R467) -/

/-- Can the work of an engine be placed elsewhere within every pin? The targets are chosen one after the other. -/
def canEmptyEngine (e : Fin 64) (s : State) : Bool :=
  let s0 := onPlc (fun p => { p with engine := upd p.engine e fun x => { x with forbid := true } }) s
  let go (o : Option (List Carried)) (x : SliceId × Nat) : Option (List Carried) :=
    o.bind fun l => match (s0.plc.placed[x.1]).live with
      | none => some l
      | some h =>
        let n : PartNeed :=
          { slice := x.1, owner := ownerOf x.1 s0, home := x.2 == 0, cost := h.cost
            bytes := h.need + (if x.2 = 0 then lineBytes h else 0), avoid := h.engines }
        let rest := l.filter fun c => !(c.slice == x.1 && c.engine == e)
        (choose rest n s0).map fun t => planCarried (x.1, e, t) l
  ((partsOn e s).foldl go (some (carried s))).isSome

/-- The work of an engine is asked to leave it, in the pin-or-forbid class (R454, R467). -/
def askLeave (e : Fin 64) (s : State) : State :=
  (partsOn e s).foldl (fun s x => askMove { slice := x.1, part := x.2, reason := .pin, dst := none } s) s

/-- Can the work of a bank be placed elsewhere under R448 and every pin? -/
def canEmptyBank (b : Fin 48) (s : State) : Bool :=
  let s0 := onMem (fun m => { m with bank := upd m.bank b fun x => { x with forbid := true } }) s
  (s.plc.stagedBank != some b || (stagedChoice s0).isSome)
    && ((buffersOn b s0).foldl (fun o x => o.bind fun s => copyOff b x (bufferPins x.key s) s) (some s0)).isSome

/-- A lane's feeds can all be carried by others of its links. -/
def canEmptyLane (l : Fin 64) (s : State) : Bool :=
  let s0 := onLane l (fun x => { x with forbid := true }) s
  let s1 := placeFeeds s0
  s1.lnk.feeds.all fun f => f.lane.isSome || !(s.lnk.feeds.any fun g => g.stream == f.stream && g.feed == f.feed && g.lane.isSome)

/-- A command waits for Weathervane. -/
def addWait (iss : Issue) (j : PlaceJob) (s : State) : State :=
  onPlc (fun p => { p with waits := p.waits ++ [{ issue := iss, job := j }] }) s

/-- An allow ends the forbids of a unit that still wait: they complete SUPERSEDED (DESIGN CHOICE). -/
def endForbidWaits (j : PlaceJob) (s : State) : State :=
  let gone := s.plc.waits.filter fun w => w.job == j
  completeAll (gone.map (·.issue)) .superseded (onPlc (fun p => { p with waits := p.waits.filter fun w => w.job != j }) s)

/-- PLACE_FORBID of an engine. -/
def forbidEngine (iss : Issue) (e : Fin 64) (on : Bool) (tgt : Nat) (s : State) : State :=
  let x := s.plc.engine[e]
  if !on then
    let s := onPlc (fun p => { p with engine := upd p.engine e fun y => { y with forbid := false } }) (endForbidWaits (.forbidEngine e) s)
    let s := if x.state = .forbidden then restoreStopped (setEngine e .available s) else s
    complete iss .ok (settleUnits s)
  else if x.state = .retired then complete iss .ok s
  else if x.state = .evacuating ∨ x.state = .testing ∨ canEmptyEngine e s = true then
    let s := onPlc (fun p => { p with engine := upd p.engine e fun y => { y with forbid := true } }) s
    let s := if x.state = .available then askLeave e (redirectMoves e s) else s
    settleUnits (addWait iss (.forbidEngine e) s)
  else refuse iss (refuseTarget .noCapacity tgt) s

/-- PLACE_FORBID of a bank. -/
def forbidBank (iss : Issue) (b : Fin 48) (on : Bool) (tgt : Nat) (s : State) : State :=
  let x := s.mem.bank[b]
  if x.state = .owned then refuse iss (refuseTarget .busyOwned tgt) s
  else if !on then
    let s := onMem (fun m => { m with bank := upd m.bank b fun y => { y with forbid := false } }) (endForbidWaits (.forbidBank b) s)
    let s := if x.state = .forbidden then restoreStopped (setBank b .available s) else s
    complete iss .ok (settleUnits s)
  else if x.state = .retired then complete iss .ok s
  else if x.state = .evacuating ∨ x.state = .testing ∨ canEmptyBank b s = true then
    let s := onMem (fun m => { m with bank := upd m.bank b fun y => { y with forbid := true } }) s
    let s := if x.state = .available then emptyBank b s else s
    settleUnits (addWait iss (.forbidBank b) s)
  else refuse iss (refuseTarget .noCapacity tgt) s

/-- PLACE_FORBID of a lane. -/
def forbidLane (iss : Issue) (l : Fin 64) (on : Bool) (tgt : Nat) (s : State) : State :=
  if ownedByOther 0x0B l s then refuse iss (refuseTarget .busyOwned tgt) s
  else if !on then complete iss .ok (placeFeeds (onLane l (fun x => { x with forbid := false }) s))
  else if (s.lnk.lane[l]).state = .retired then complete iss .ok s
  else if canEmptyLane l s then complete iss .ok (placeFeeds (onLane l (fun x => { x with forbid := true }) s))
  else refuse iss (refuseTarget .noCapacity tgt) s

/-- PLACE_FORBID (R465, R467). -/
def execPlaceForbid (d : Desc) (s : State) : Host.Outcome State Fault Refusal :=
  .next (hostCommand 0x41 (.placeForbid d) d (fun iss s =>
    match firstFail [(d.indirect, badParam 1), (1 < d.byte 12, badParam 12), d.strayCheck [(12, 1)]],
        d.unit .engine 64, d.unit .bank 48, d.unit .lane 64 with
    | some r, _, _, _ => refuse iss r s
    | none, some e, _, _ => forbidEngine iss e (d.byte 12 == 1) d.tgt s
    | none, _, some b, _ => forbidBank iss b (d.byte 12 == 1) d.tgt s
    | none, _, _, some l => forbidLane iss l (d.byte 12 == 1) d.tgt s
    | none, none, none, none => refuse iss (badParam 8) s) s)

/-! ### MEM_RETIRE (R557) -/

/-- MEM_RETIRE. -/
def execMemRetire (d : Desc) (s : State) : Host.Outcome State Fault Refusal :=
  .next (hostCommand 0x60 (.memRetire d) d (fun iss s =>
    match firstFail [(d.indirect, badParam 1), d.strayCheck []], d.unit .bank 48 with
    | some r, _ => refuse iss r s
    | none, none => refuse iss (badParam 8) s
    | none, some b =>
      let x := s.mem.bank[b]
      if x.state = .retired then complete iss .ok s
      else if x.state = .owned then refuse iss (refuseTarget .busyOwned d.tgt) s
      else if x.state = .evacuating ∨ x.state = .testing ∨ canEmptyBank b s = true then
        let s := onMem (fun m => { m with bank := upd m.bank b fun y => { y with retire := true } }) s
        let s := if x.state = .forbidden then setBank b .available s else s
        let s := if (s.mem.bank[b]).state = .available then emptyBank b s else s
        settleUnits (addWait iss (.retireBank b) s)
      else refuse iss (refuseTarget .noCapacity d.tgt) s) s)

end Sys2Proof.Machine
end

