-- ==== Sys2Proof/Machine/SliceChecks.lean ====
section
/-! DEFINITION. Reading and checking a slice definition (R161, R271 to R275, R292, R293, R389): the same for SLICE_SET and for the
slice entries of an image (R691). -/
namespace Sys2Proof.Machine
open Sys2Proof

/-- An endpoint word (R292). -/
def endpointOf (w : Nat) : Option Endpoint :=
  let i := w % 2 ^ 24
  match w / 2 ^ 24 with
  | 0x00 => if i = 0 then some .none else none
  | 0x02 => (finOf 32 i).map .rx
  | 0x03 => (finOf 32 i).map .tx
  | 0x10 => if i = 0 then some .fronthaul else none
  | _ => none

/-- An endpoint as its word (R309). -/
def endpointWord : Endpoint → Nat
  | .none => 0
  | .rx p => 0x02 * 2 ^ 24 + p
  | .tx p => 0x03 * 2 ^ 24 + p
  | .fronthaul => 0x10 * 2 ^ 24

/-- A direction's code (R292). -/
def directionOf : Nat → Option Direction
  | 0 => some .dl
  | 1 => some .ul
  | 2 => some .tdd
  | _ => none

/-- The definition of an empty index, before a creation fills every field. -/
def emptyDef : SliceDef :=
  { owner := 0, direction := .dl, srcA := .none, sinkA := .none, srcB := .none, sinkB := .none, pattern := none
    centre := 0, k := 0, bandwidth := 0, family := 0, edge := 0, nCh := 16, nFc := 0, priority := 0, gainA := 0
    gainB := 0, muteRamp := 0, gainRise := 0 }

/-- A definition with the fields of a SLICE_SET's mask written (R292). -/
def writeFields (d : Desc) (b : SliceDef) : SliceDef :=
  let m := d.u 12 2
  let b := if bitOf m 0 then
      { b with
        direction := (directionOf (d.byte 14)).getD .dl, owner := (finOf 8 (d.byte 22)).getD 0
        pattern := finOf 8 (d.byte 23), srcA := (endpointOf (d.u 32 4)).getD .none
        sinkA := (endpointOf (d.u 36 4)).getD .none, srcB := (endpointOf (d.u 40 4)).getD .none
        sinkB := (endpointOf (d.u 44 4)).getD .none } else b
  let b := if bitOf m 1 then { b with k := d.byte 15 } else b
  let b := if bitOf m 2 then
      { b with family := d.byte 16, edge := d.byte 17, nCh := 16 * d.byte 18, bandwidth := d.u 28 4 } else b
  let b := if bitOf m 3 then { b with centre := d.u 24 4 } else b
  let b := if bitOf m 4 then { b with nFc := d.u 20 2 } else b
  let b := if bitOf m 5 then { b with priority := d.byte 19 } else b
  let b := if bitOf m 6 then { b with gainA := d.s 48 2, gainB := d.s 50 2 } else b
  if bitOf m 7 then { b with muteRamp := d.byte 52, gainRise := d.byte 53 } else b

/-- A gain target in range (R288). -/
def gainOk (g : Int) : Bool := decide (-4000 ≤ g) && decide (g ≤ 8000)

/-- The range checks of a SLICE_SET in descriptor order (R271, R292, R293): a field inside the mask is in range, one outside is zero. -/
def fieldChecks (d : Desc) (b : SliceDef) : List (Bool × Refuse) :=
  let m := d.u 12 2
  let n := writeFields d b
  let tdd := n.direction == .tdd
  let chk (bit' off len : Nat) (ok : Bool) : Bool × Refuse :=
    (if bitOf m bit' then !ok else d.u off len != 0, badParam off)
  [(2 ^ 8 ≤ m, badParam 12),
   chk 0 14 1 (directionOf (d.byte 14)).isSome,
   chk 1 15 1 (d.byte 15 ≤ 13),
   chk 2 16 1 (d.byte 16 ≤ 15),
   chk 2 17 1 (d.byte 17 ≤ 7),
   chk 2 18 1 (1 ≤ d.byte 18 && d.byte 18 ≤ 8),
   chk 5 19 1 (d.byte 19 ≤ 7),
   chk 4 20 2 (d.u 20 2 % 16 == 0 && d.u 20 2 ≤ 1024),
   chk 0 22 1 (d.byte 22 ≤ 7),
   chk 0 23 1 (if tdd then d.byte 23 ≤ 7 else d.byte 23 == 0xFF),
   chk 3 24 4 (400000 ≤ d.u 24 4 && d.u 24 4 ≤ 14500000),
   chk 2 28 4 true,
   chk 0 32 4 (endpointOf (d.u 32 4)).isSome,
   chk 0 36 4 (endpointOf (d.u 36 4)).isSome,
   chk 0 40 4 ((endpointOf (d.u 40 4)).isSome && (tdd || d.u 40 4 == 0)),
   chk 0 44 4 ((endpointOf (d.u 44 4)).isSome && (tdd || d.u 44 4 == 0)),
   chk 6 48 2 (gainOk (d.s 48 2)),
   chk 6 50 2 (gainOk (d.s 50 2) && (tdd || d.u 50 2 == 0)),
   chk 7 52 1 true,
   chk 7 53 1 true,
   d.strayCheck [(12, 42)]]

/-- What a definition is checked against: port centres, the other definitions by index, and the tenants. -/
structure DefContext where
  rxCentre : Vector (Option Nat) 32
  txCentre : Vector (Option Nat) 32
  others   : List (SliceId × SliceDef)
  tenants  : Vector Tenant 8

/-- The context of the present state for one index. -/
def contextOf (sl : SliceId) (s : State) : DefContext :=
  { rxCentre := s.dfe.rxCentre, txCentre := s.dfe.txCentre, others := (allDefs s).filter fun x => x.1 != sl
    tenants := s.cfg.tenants }

/-- The function whose slice group holds a slice (R690). -/
def groupFn (t : Vector Tenant 8) (sl : SliceId) : Fn :=
  ((indices 8).find? fun (f : Fin 8) => f != 0 && (t[f]).group.getLsbD sl).getD 0

/-- Is a band inside a port's window (R274)? -/
def inWindow (d : SliceDef) (centre : Option Nat) : Bool :=
  match centre with
  | none => false
  | some c => 2 * (max c d.centre - min c d.centre) + d.bandwidth ≤ 3200000

/-- A range holds an RX port's receive window and its centre (R161): edges in halves of a kHz. -/
def rangeHolds (lo hi : Nat) (centre : Nat) (l : List SliceDef) : Bool :=
  lo ≤ centre && centre ≤ hi && l.all fun d =>
    2 * lo + d.bandwidth ≤ 2 * d.centre && 2 * d.centre + d.bandwidth ≤ 2 * hi

/-- The receive window and centre of an RX port follow R161. -/
def rxRangeOk (q : Fin 32) (c : DefContext) (l : List SliceDef) : Bool :=
  match c.rxCentre[q] with
  | none => false
  | some f => rangeHolds 400000 7600000 f l || rangeHolds 8400000 14500000 f l

/-- The RX ports of a definition. -/
def rxPorts (d : SliceDef) : List (Fin 32) := (pathsOf d).filterMap fun p => rxOf (srcOf d p)

/-- The TX ports of a definition. -/
def txPorts (d : SliceDef) : List (Fin 32) := (pathsOf d).filterMap fun p => txOf (sinkOf d p)

/-- A path's endpoints are of the right kinds, and not both fronthaul (R273). -/
def pathOk (d : SliceDef) (p : PathId) : Bool :=
  match srcOf d p, sinkOf d p with
  | .rx _, .tx _ => true
  | .rx _, .fronthaul => true
  | .fronthaul, .tx _ => true
  | _, _ => false

/-- The port indices that a definition uses. -/
def portIndices (d : SliceDef) : List (Fin 32) := rxPorts d ++ txPorts d

/-- All TDD slices whose ports share an index name the same timer (R389). -/
def timerAgrees (d : SliceDef) (c : DefContext) : Bool :=
  d.direction != .tdd || c.others.all fun x =>
    x.2.direction != .tdd || x.2.pattern == d.pattern || (portIndices x.2).all fun m => !(portIndices d).contains m

/-- A definition's endpoints in descriptor order, each with its byte offset (R271). -/
def endpoints (d : SliceDef) : List (Nat × Endpoint) :=
  if d.direction = .tdd then [(32, d.srcA), (36, d.sinkA), (40, d.srcB), (44, d.sinkB)] else [(32, d.srcA), (36, d.sinkA)]

/-- The offset of the first endpoint that fails a test; the first endpoint's where none does. -/
def endpointAt (fails : Endpoint → Bool) (d : SliceDef) : Nat := ((((endpoints d).find? fun x => fails x.2)).map (·.1)).getD 32

/-- Does an endpoint name a port without a centre frequency (R691)? -/
def untuned (c : DefContext) : Endpoint → Bool
  | .rx q => (c.rxCentre[q]).isNone
  | .tx q => (c.txCentre[q]).isNone
  | _ => false

/-- Does an endpoint name a retired port (R193)? -/
def onRetired (s : State) (e : Endpoint) : Bool := ((rxOf e).any fun q => rxRetired q s) || ((txOf e).any fun q => txRetired q s)

/-- Does an endpoint name a port of another index than the definition's first port (R275)? -/
def offIndex (d : SliceDef) (e : Endpoint) : Bool :=
  let index (e : Endpoint) : Option (Fin 32) := (rxOf e).or (txOf e)
  (index e).any fun m => ((endpoints d).findSome? fun x => index x.2).any fun n => m != n

/-- The field that a path's endpoints offend in: the source when it can be none, otherwise the sink. -/
def pathField (d : SliceDef) (p : PathId) (o : Nat) : Nat :=
  match srcOf d p with
  | .rx _ => o + 4
  | .fronthaul => o + 4
  | _ => o

/-- The BAD_PARAM checks on a whole definition (R161, R273 to R275, R293, R313, R389). -/
def defChecks (sl : SliceId) (d : SliceDef) (loopExt : PathId → Nat) (c : DefContext) (s : State) : List (Bool × Refuse) :=
  let defs := d :: c.others.map (·.2)
  let tdd := d.direction == .tdd
  [(d.owner != groupFn c.tenants sl, badParam 22),
   (!timerAgrees d c, badParam 23),
   (!pathOk d .a, badParam (pathField d .a 32)),
   (tdd && !pathOk d .b, badParam (pathField d .b 40)),
   (tdd && d.srcA == .fronthaul && d.srcB == .fronthaul, badParam 40),
   (tdd && d.sinkA == .fronthaul && d.sinkB == .fronthaul, badParam 44),
   ((endpoints d).any fun x => untuned c x.2, badParam (endpointAt (untuned c) d)),
   ((rxPorts d).any (fun q => !inWindow d c.rxCentre[q]) || (txPorts d).any (fun q => !inWindow d c.txCentre[q]), badParam 24),
   ((rxPorts d).any fun q => !rxRangeOk q c (defs.filter (rxUses q)), badParam 24),
   ((txPorts d).any fun _ => 2 * d.centre < 800000 + d.bandwidth || 29000000 < 2 * d.centre + d.bandwidth, badParam 24),
   (d.bandwidth * 10 * 2 ^ d.k < 4000000 || 32000000 < d.bandwidth * 10 * 2 ^ d.k, badParam 28),
   (tdd && (portIndices d).any (fun m => (portIndices d).any fun n => m != n), badParam (endpointAt (offIndex d) d)),
   (namesRetired d s, badParam (endpointAt (onRetired s) d)),
   ((pathsOf d).any fun p => hasCanceller d p && 1048575 < bulkDelay d p (loopExt p), badParam 20)]

/-- A port has no room for a definition (R255, R275). -/
def portsFull (d : SliceDef) (c : DefContext) : Bool :=
  (rxPorts d).any (fun q => 16 ≤ (c.others.filter fun x => rxUses q x.2).length)
    || (txPorts d).any (fun q => 8 ≤ (c.others.filter fun x => txUses q x.2).length)

/-- The total cost of a function's slice group with a definition in place (R89). -/
def groupCost (fn : Fn) (sl : SliceId) (d : SliceDef) (c : DefContext) : Nat :=
  ((sl, d) :: c.others).foldl (fun t x => if groupFn c.tenants x.1 = fn then t + costOf x.2 else t) 0

end Sys2Proof.Machine
end

