-- ==== Sys2Proof/Machine/Slices.lean ====
section
/-! DEFINITION. The slice commands and events (R271 to R309): SLICE_SET, SLICE_GAIN, SLICE_MUTE, SLICE_DELETE, restarts, meters and
captures. -/
namespace Sys2Proof.Machine
open Sys2Proof

/-! ### SLICE_SET (R292 to R295) -/

/-- Do two definitions differ beyond owner and priority (R294)? -/
def beyondImmediate (a b : SliceDef) : Bool := { a with owner := 0, priority := 0 } != { b with owner := 0, priority := 0 }

/-- Do two definitions differ in a class-B field (R294)? -/
def classB (a b : SliceDef) : Bool :=
  let strip (x : SliceDef) : SliceDef :=
    { x with
      owner := 0, priority := 0, gainA := 0, gainB := 0, muteRamp := 0, gainRise := 0, bandwidth := 0, edge := 0
      family := x.family / 8, nFc := 0 }
  strip a != strip b

/-- The owner and the priority of a definition take effect at once in every set of a slice (R294). -/
def setImmediate (sl : SliceId) (d : SliceDef) (s : State) : State :=
  let f (x : SliceParams) : SliceParams := { x with defn := { x.defn with owner := d.owner, priority := d.priority } }
  onSlice sl (fun x => { x with
    live := x.live.map f, pending := x.pending.map fun p => { p with params := f p.params }
    restart := x.restart.map fun r => { r with params := f r.params } }) s

/-- The parameters of a created slice: not muted, cancellers as R320 says. -/
def createParams (sl : SliceId) (d : SliceDef) (s : State) : SliceParams :=
  { defn := d, muteA := false, muteB := false, canA := cancelStart sl .a s, canB := cancelStart sl .b s }

/-- A class-B change or a creation (R279, R294, R295): capacity is reserved and the restart begins, or NO_CAPACITY changes nothing. What
waited in the pending set goes live with the restart, and its command completes SUPERSEDED (DESIGN CHOICE). -/
def runClassB (iss : Issue) (sl : SliceId) (params : SliceParams) (tgt : Nat) (s : State) : State :=
  match reserve sl params.defn (unreserve sl s) with
  | none => refuse iss (refuseTarget .noCapacity tgt) s
  | some s' =>
    let earlier := ((s.slices.slice[sl]).pending).map (·.issue)
    let s' := onPlc (fun p => { p with placed := upd p.placed sl fun x => { x with stopped := false } }) s'
    let s' := onSlice sl (fun x => { x with pending := none }) s'
    settleUnits (completeOpt earlier .superseded (scheduleRestart sl params (some iss) 4000000 false s'))

/-- A class-A change (R294): what a higher cost or a longer line needs is reserved, and the pending set is filled. While the slice
restarts nothing is reserved yet (R299). -/
def runClassA (iss : Issue) (sl : SliceId) (params : SliceParams) (tgt : Nat) (s : State) : State :=
  let x := s.slices.slice[sl]
  match x.restart, x.live with
  | none, some old =>
    match reserveChange sl old.defn params.defn (unreserve sl s) with
    | none => refuse iss (refuseTarget .noCapacity tgt) s
    | some s' =>
      let (s', moving) := askCostMoves sl s'
      fillPending sl params (pendingActs sl s) moving iss s'
  | _, _ => fillPending sl params (pendingActs sl s) false iss s

/-- What a tenant's SLICE_SET may not change (R88): the ports, the direction, the priority and the owner stay as the ACTIVE image sets them. An
index that the image leaves empty has none that a tenant could set. -/
def tenantKeeps (sl : SliceId) (d : Desc) (s : State) : Option Refuse :=
  let m := d.u 12 2
  let denied (o : Nat) : Refuse := { status := .denied, offset := o, resource := 0 }
  let image := (s.cfg.active.map (·.image.slices)).getD []
  match (image.find? fun x => x.1 == sl).map (·.2) with
  | none => if bitOf m 0 then some (denied 14) else if bitOf m 5 then some (denied 19) else none
  | some x =>
    firstFail
      [(bitOf m 0 && directionOf (d.byte 14) != some x.direction, denied 14),
       (bitOf m 5 && d.byte 19 != x.priority, denied 19),
       (bitOf m 0 && d.byte 22 != x.owner.val, denied 22),
       (bitOf m 0 && d.u 32 4 != endpointWord x.srcA, denied 32),
       (bitOf m 0 && d.u 36 4 != endpointWord x.sinkA, denied 36),
       (bitOf m 0 && d.u 40 4 != endpointWord x.srcB, denied 40),
       (bitOf m 0 && d.u 44 4 != endpointWord x.sinkB, denied 44)]

/-- SLICE_SET's checks up to NO_CAPACITY (R71, R88, R89, R275, R293). -/
def sliceSetCheck (iss : Issue) (sl : SliceId) (d : Desc) (s : State) : Option Refuse :=
  match (if iss.fn = 0 then none else tenantKeeps sl d s) with
  | some r => some r
  | none =>
  let base := ((baseParams sl s).map (·.defn)).getD emptyDef
  let cost := if isDefined sl s then costOf base else 0
  let new := writeFields d ((((fillBase sl s).map (·.defn)).getD emptyDef))
  let c := contextOf sl s
  let touched := d.u 12 2 != 0
  match firstFail ((d.indirect, badParam 1) :: fieldChecks d base) with
  | some r => some r
  | none =>
    if !isDefined sl s && d.u 12 2 != 0x00FF then some (badParam 12)
    else match if touched then firstFail (defChecks sl new (fun p => loopExtOf sl p s) c s) else none with
      | some r => some r
      | none =>
        if (s.slices.slice[sl]).state == .deleting then some (refuseTarget .rejectedBusy d.tgt)
        else if beyondImmediate base new && portsFull new c then some (refuseTarget .noCapacity d.tgt)
        else if iss.fn != 0 && cost < costOf new && (s.cfg.tenants[iss.fn]).quota < groupCost iss.fn sl new c then
          some (refuseTarget .noCapacity d.tgt)
        else none

/-- SLICE_SET sorted by class and run (R294). -/
def runSliceSet (iss : Issue) (sl : SliceId) (d : Desc) (s : State) : State :=
  match baseParams sl s, fillBase sl s with
  | some old, some fill =>
    let new := writeFields d old.defn
    let params : SliceParams := { fill with defn := writeFields d fill.defn }
    if new = old.defn then complete iss .ok s
    else if !beyondImmediate old.defn new then complete iss .ok (setImmediate sl new s)
    else if classB old.defn new then
      if ((s.slices.slice[sl]).restart).isSome then refuse iss (refuseTarget .rejectedBusy d.tgt) s
      else runClassB iss sl params d.tgt s
    else runClassA iss sl params d.tgt s
  | _, _ => runClassB iss sl (createParams sl (writeFields d emptyDef) s) d.tgt s

/-- SLICE_SET. -/
def execSliceSet (d : Desc) (s : State) : Host.Outcome State Fault Refusal :=
  .next (hostCommand 0x18 (.sliceSet d) d (fun iss s =>
    match d.unit .slice 256 with
    | none => refuse iss (badParam 8) s
    | some sl => match sliceSetCheck iss sl d s with
      | some r => refuse iss r s
      | none => runSliceSet iss sl d s) s)

/-- PENDING_SET_LIVE (R17, R18, R297). -/
def execPendingSetLive (slice : SliceId) (s : State) : Host.Outcome State Fault Refusal :=
  .next (settleUnits (settle (pendingLive slice s)))

/-- SLICE_RESTART_START (R295 step 2). -/
def execSliceRestartStart (slice : SliceId) (s : State) : Host.Outcome State Fault Refusal :=
  .next (settleUnits (restartStart slice s))

/-- A pending class-A change that waited for a restart now reserves what it needs, or completes NO_CAPACITY (R299). -/
def afterRestart (sl : SliceId) (s : State) : State :=
  let x := s.slices.slice[sl]
  match x.restart, x.pending, x.live with
  | none, some p, some old =>
    match reserveChange sl old.defn p.params.defn s with
    | none => complete p.issue .noCapacity (onSlice sl (fun y => { y with pending := none }) s)
    | some s' =>
      let (s', moving) := askCostMoves sl s'
      onSlice sl (fun y => { y with pending := some { p with moving := moving } }) s'
  | _, _, _ => s

/-- SLICE_RESTART_DONE (R295 step 4). -/
def execSliceRestartDone (slice : SliceId) (s : State) : Host.Outcome State Fault Refusal :=
  .next (settle (afterRestart slice (restartDone slice s)))

/-! ### SLICE_GAIN, SLICE_MUTE and SLICE_DELETE (R296, R297, R299) -/

/-- The paths that a `which` byte names: 0 the only or both, 1 downlink, 2 uplink, the last two for TDD only (R296). -/
def whichPaths (w : Nat) (d : SliceDef) : Option (List PathId) :=
  match w with
  | 0 => some (pathsOf d)
  | 1 => if d.direction = .tdd then some [.a] else none
  | 2 => if d.direction = .tdd then some [.b] else none
  | _ => none

/-- The checks of the slice commands that fill a pending set: their fields, the index, the paths, and DELETING (R296, R299). -/
def fillCheck (sl : SliceId) (d : Desc) (fields : List (Bool × Refuse)) (whichOff : Nat) (s : State) : Option Refuse :=
  match fillBase sl s with
  | none => firstFail (((d.indirect, badParam 1) :: fields) ++ [(true, badParam 8)])
  | some x => firstFail
      (((d.indirect, badParam 1) :: fields) ++
       [((whichPaths (d.byte whichOff) x.defn).isNone, badParam whichOff),
        ((s.slices.slice[sl]).state == .deleting, refuseTarget .rejectedBusy d.tgt)])

/-- A parameter set with the gain target of some paths changed (R297). -/
def setGain (ps : List PathId) (g : Int) (x : SliceParams) : SliceParams :=
  { x with defn := { x.defn with
      gainA := if ps.contains .a then g else x.defn.gainA, gainB := if ps.contains .b then g else x.defn.gainB } }

/-- A parameter set with the host mute of some paths changed (R297). -/
def setMute (ps : List PathId) (on : Bool) (x : SliceParams) : SliceParams :=
  { x with muteA := if ps.contains .a then on else x.muteA, muteB := if ps.contains .b then on else x.muteB }

/-- A command that fills the pending set by a change of parameters (R297, R298). -/
def runFill (iss : Issue) (sl : SliceId) (f : SliceParams → SliceParams) (s : State) : State :=
  match fillBase sl s with
  | none => s
  | some x =>
    let moving := (((s.slices.slice[sl]).pending).map (·.moving)).getD false
    fillPending sl (f x) (pendingActs sl s) moving iss s

/-- SLICE_GAIN (R288, R296, R297). -/
def execSliceGain (d : Desc) (s : State) : Host.Outcome State Fault Refusal :=
  .next (hostCommand 0x19 (.sliceGain d) d (fun iss s =>
    match d.unit .slice 256 with
    | none => refuse iss (badParam 8) s
    | some sl =>
      match fillCheck sl d [(!gainOk (d.s 12 2), badParam 12), d.strayCheck [(12, 3)]] 14 s, fillBase sl s with
      | some r, _ => refuse iss r s
      | none, none => refuse iss (badParam 8) s
      | none, some x => runFill iss sl (setGain ((whichPaths (d.byte 14) x.defn).getD []) (d.s 12 2)) s) s)

/-- SLICE_MUTE (R291, R296, R297). -/
def execSliceMute (d : Desc) (s : State) : Host.Outcome State Fault Refusal :=
  .next (hostCommand 0x1A (.sliceMute d) d (fun iss s =>
    match d.unit .slice 256 with
    | none => refuse iss (badParam 8) s
    | some sl =>
      match fillCheck sl d [(1 < d.byte 12, badParam 12), d.strayCheck [(12, 2)]] 13 s, fillBase sl s with
      | some r, _ => refuse iss r s
      | none, none => refuse iss (badParam 8) s
      | none, some x => runFill iss sl (setMute ((whichPaths (d.byte 13) x.defn).getD []) (d.byte 12 == 1)) s) s)

/-- SLICE_DELETE (R296, R297, R299). -/
def execSliceDelete (d : Desc) (s : State) : Host.Outcome State Fault Refusal :=
  .next (hostCommand 0x1B (.sliceDelete d) d (fun iss s =>
    match d.unit .slice 256 with
    | none => refuse iss (badParam 8) s
    | some sl =>
      match firstFail [(d.indirect, badParam 1), d.strayCheck [], (!isDefined sl s, badParam 8),
          ((s.slices.slice[sl]).state == .deleting, refuseTarget .rejectedBusy d.tgt)] with
      | some r => refuse iss r s
      | none => settle (settleUnits (beginDelete sl iss s))) s)

/-- SLICE_DELETE_DONE (R297, R461): the ramp has ended, the index reads EMPTY and the command completes OK. -/
def execSliceDeleteDone (slice : SliceId) (s : State) : Host.Outcome State Fault Refusal :=
  match (s.slices.slice[slice]).deleting with
  | none => .next s
  | some iss => .next (settleUnits (restoreStopped (placeFeeds (complete iss .ok (emptySlice slice s)))))

/-! ### Meters (R283) -/

/-- A meter reading as its 16-bit register holds it; −32,768 stands for no measurement. -/
def meterWord (x : Int) : Int := clampInt (-32767) 32767 x

/-- The reading of a window of n samples whose |x|² sum to `sum` in units of 2^-34 of full scale (R283); `k` numbers its free values. -/
def meterReading (w : Nat × Nat) (k : Nat) : Int := meterWord (centibels w.1 (w.2 * 2 ^ 34) k)

/-- The lowest reading of a path's output meter in a noise interval takes a reading (R345). -/
def keepLowest (sl : SliceId) (p : PathId) (v : Option Int) (s : State) : State :=
  match v with
  | none => s
  | some v => onPathProt sl p (fun x => { x with lowest := some (min v (x.lowest.getD v)) }) s

/-- METER_WINDOW_END (R283): the windows of a path's two meters that have ended are reported in 0.01 dBFS. -/
def execMeterWindowEnd (slice : SliceId) (path : PathId) (s : State) : Host.Outcome State Fault Refusal :=
  let x := s.sig.path[canIdx slice path]
  let n := s.free
  let read (m : Meter) (k : Nat) (old : Int) : Int := (m.ended.map fun w => meterReading w k).getD old
  let s := onSlice slice (fun y => match path with
    | .a => { y with inA := read x.meterIn n y.inA, outA := read x.meterOut (n + 1) y.outA }
    | .b => { y with inB := read x.meterIn n y.inB, outB := read x.meterOut (n + 1) y.outB }) { s with free := n + 2 }
  let s := keepLowest slice path (x.meterOut.ended.map fun w => meterReading w (n + 1)) s
  .next (onChain slice path (fun x => { x with meterIn := { x.meterIn with ended := none }, meterOut := { x.meterOut with ended := none } }) s)

/-! ### Captures (R80 to R83, R305 to R307) -/

/-- Container bytes per second of a slice, times 130 (R83). -/
def captureLoad (sl : SliceId) (s : State) : Nat :=
  match baseParams sl s with
  | some x => 130 * (16000000000 / 2 ^ x.defn.k)
  | none => 0

/-- 75% of the link's payload bandwidth in bytes per second, times 130 (R83). PRESUMED: generations 1 and 2 code 8 bits in 10. -/
def captureLimit (s : State) : Nat :=
  let w := s.hif.linkWidth
  match s.hif.linkRate with
  | 0 => 0
  | 1 => 2500000000 * w * 104 / 8 * 3 / 4
  | 2 => 5000000000 * w * 104 / 8 * 3 / 4
  | 3 => 8000000000 * w * 128 / 8 * 3 / 4
  | _ => 16000000000 * w * 128 / 8 * 3 / 4

/-- The load of the running captures (R83). -/
def capturesLoad (s : State) : Nat :=
  sumOf s.slices.capture fun c => match c with
    | some x => captureLoad x.slice s
    | none => 0

/-- CAPTURE's checks (R71, R83, R126, R299, R305, R306): a tenant names a ring of its own first (R88). -/
def captureCheck (iss : Issue) (d : Desc) (s : State) : Option Refuse :=
  let ring := finOf 8 (d.byte 12)
  let slice := (d.unit .slice 256).bind fun sl => (baseParams sl s).map fun x => (sl, x.defn)
  let start := d.byte 14 == 1
  let running := ring.bind fun r => s.slices.capture[r]
  firstFail
    [(iss.fn != 0 && !(ring.any fun r => (s.hif.caps[r]).owner == iss.fn), { status := .denied, offset := 12, resource := d.byte 12 }),
     (d.indirect, badParam 1), (slice.isNone, badParam 8), (ring.isNone, badParam 12), (4 < d.byte 13, badParam 13), (1 < d.byte 14, badParam 14),
     (slice.any fun x => if x.2.direction = .tdd then decide (1 < d.byte 15) else d.byte 15 != 0, badParam 15),
     d.strayCheck [(12, 16)],
     (!start && running.any fun c => slice.any fun x => c.slice != x.1, badParam 12),
     (ring.any fun r => ownedByOther 0x09 r s, { status := .busyOwned, offset := 12, resource := target .captureRing (d.byte 12) }),
     (slice.any fun x => (s.slices.slice[x.1]).state == .deleting, refuseTarget .rejectedBusy d.tgt),
     (start && running.isSome, { status := .rejectedBusy, offset := 12, resource := target .captureRing (d.byte 12) }),
     (start && slice.any fun x => captureLimit s < capturesLoad s + captureLoad x.1 s, refuseTarget .noCapacity d.tgt)]

/-- CAPTURE (R305 to R307): a start waits for its first sample; a stop ends the capture, and completes at once when none runs (DESIGN
CHOICE). -/
def execCapture (d : Desc) (s : State) : Host.Outcome State Fault Refusal :=
  .next (hostCommand 0x48 (.capture d) d (fun iss s =>
    match captureCheck iss d s, d.unit .slice 256, finOf 8 (d.byte 12) with
    | some r, _, _ => refuse iss r s
    | none, some sl, some r =>
      if d.byte 14 = 1 then
        let n := d.u 16 4
        let c : Capture :=
          { slice := sl, tap := d.byte 13, which := d.byte 15, left := if n = 0 then none else some n
            instant := instantOrNow (d.u 20 8) s, startIssue := some iss, stopIssue := none, ending := false, full := []
            fill := { stamp := 0, epoch := 0, samples := [] }, cut := false }
        onSlices (fun x => { x with
          capture := x.capture.set r (some c), capLast := x.capLast.set r (sl.val, c.tap, c.which) }) s
      else match s.slices.capture[r] with
        | none => complete iss .ok s
        | some c =>
          let s' := onSlices (fun x => { x with capture := x.capture.set r (some { c with stopIssue := some iss, ending := true }) }) s
          completeOpt c.stopIssue .superseded s'
    | none, _, _ => refuse iss (badParam 8) s) s)

/-- A capture block is written to its ring and the ring's block index behind it, or it is dropped and counted (R80 to R82). DESIGN CHOICE: a ring
that does not run, or that belongs to a function in D3hot, has no free block. -/
def writeBlock (r : Fin 8) (c : Capture) (b : CaptureFill) (last : Bool) (s : State) : State :=
  let x := s.hif.caps[r]
  if x.state == .running && !inD3hot x.owner s && (x.prod - x.cons).toNat < 2 ^ x.log2 then
    let flags := bit (x.dropped != 0) + 2 * bit (b.samples.any contBad) + 4 * bit last
    let s := emit (.captureBlock r (x.base + x.prod.toNat % 2 ^ x.log2 * 4096) (freeSequence s.free) (stampOf b.stamp) b.epoch c.slice
      flags x.dropped b.samples) (takeFree s)
    let s := onHif (fun h => { h with caps := upd h.caps r fun y => { y with prod := y.prod + 1, dropped := 0 } }) s
    let s := if x.wb = 0 then s else emit (.captureWriteBack r x.wb (x.prod + 1).toNat) s
    pulse 0x0503 (target .captureRing r) 1 (countEntry x.owner x.vector false s)
  else
    let s := onHif (fun h => { h with caps := upd h.caps r fun y => { y with dropped := y.dropped + 1 } }) s
    let s := onSlices (fun y => { y with capDropped := upd y.capDropped r fun n => satAdd 65535 n 1 }) s
    notify 98 (target .captureRing r) 0 (pulse 0x0504 (target .captureRing r) 1 s)

/-- A change of the capture on a ring. -/
def onCapture (r : Fin 8) (f : Capture → Option Capture) (s : State) : State :=
  onSlices (fun x => { x with capture := upd x.capture r fun c => c.bind f }) s

/-- The block of a capture that is to be written next, and the capture without it: the oldest that was closed, or the one that fills once it holds
1,008 containers and the capture does not end. -/
def nextBlock (c : Capture) : Option (CaptureFill × Capture) :=
  match c.full with
  | b :: l => some (b, { c with full := l })
  | [] => if c.fill.samples.length = 1008 ∧ c.ending = false then some (c.fill, { c with fill := { c.fill with samples := [] } }) else none

/-- CAPTURE_BLOCK (R81, R82, R306): a block that has filled, or that a segment's end closed (R307), is written. -/
def execCaptureBlock (ring : Fin 8) (s : State) : Host.Outcome State Fault Refusal :=
  match s.slices.capture[ring] with
  | none => .next s
  | some c =>
    match nextBlock c with
    | none => .next s
    | some (b, c') => .next (writeBlock ring c b false (onCapture ring (fun _ => some c') s))

/-- CAPTURE_END (R307): the blocks that wait are written, the last of them marked last, notification 99 is raised and a stop completes OK. DESIGN
CHOICE: a capture that holds no container then writes no block, and a start that never saw a sample completes SUPERSEDED. -/
def execCaptureEnd (ring : Fin 8) (s : State) : Host.Outcome State Fault Refusal :=
  match s.slices.capture[ring] with
  | none => .next s
  | some c =>
    if !c.ending then .next s
    else
      let s := onCapture ring (fun _ => none) s
      let blocks := c.full ++ (if c.fill.samples.isEmpty then [] else [c.fill])
      let s := blocks.zipIdx.foldl (fun s b => writeBlock ring c b.1 (b.2 + 1 == blocks.length) s) s
      let s := notify 99 (target .captureRing ring) 0 s
      .next (completeOpt c.stopIssue .ok (completeOpt c.startIssue .superseded s))

end Sys2Proof.Machine
end

