-- ==== Sys2Proof/Machine/Blocks.lean ====
section
/-! DEFINITION. Compressed blocks (R415 to R418) and the TDD gate (R388 to R390). -/
namespace Sys2Proof.Machine
open Sys2Proof

/-! ### Blocks (R416 to R418) -/

/-- Does a value fit a two's complement word of `w` bits? -/
def fits (w : Nat) (x : Int) : Bool := satWord w x == x

/-- The smallest exponent from `e` on, at most `top`, at which every value fits; `top` when none does (R417). -/
def findExponent (w top : Nat) (xs : List Int) : Nat → Nat → Nat
  | 0, _ => top
  | n + 1, e => if xs.all fun x => fits w (roundEven x e) then e else findExponent w top xs n (e + 1)

/-- A block's residue: the sum of the 16 samples' residues, modulo 15, over the restored values (R417). -/
def blockResidue : List Int → Nat
  | i :: q :: rest => (residueOf i q + blockResidue rest) % 15
  | _ => 0

/-- The 16 values, I before Q, of a list of containers. -/
def blockValues (cs : List Container) : List Int := cs.flatMap fun c => [contI c, contQ c]

/-- A block with a poisoned or missing container (R418). -/
def poisonBlock (w : Nat) : Block := { w := w, e := 15, residue := 15, mant := List.replicate 32 0 }

/-- Sixteen containers compressed with mantissas of `w` bits (R417, R418). -/
def compress (w : Nat) (cs : List Container) : Block :=
  if cs.length != 16 || cs.any contBad then poisonBlock w
  else
    let xs := blockValues cs
    let e := findExponent w (14 - w) xs (15 - w) 0
    let ms := xs.map fun x => satWord w (roundEven x e)
    { w := w, e := e, residue := blockResidue (ms.map (· * ((2 ^ e : Nat) : Int))), mant := ms }

/-- The containers of a list of values, I before Q. -/
def pairUp : List Int → List Container
  | i :: q :: rest => .valid i q :: pairUp rest
  | _ => []

/-- A block's 16 containers, and whether it is in error: a residue that does not match, or an exponent out of range (R418). -/
def decompress (b : Block) : List Container × Bool :=
  let bad : List Container := List.replicate 16 .poisoned
  if b.e = 15 then (bad, false)
  else if 14 - b.w < b.e then (bad, true)
  else
    let xs := b.mant.map (· * ((2 ^ b.e : Nat) : Int))
    if blockResidue xs = b.residue ∧ xs.length = 32 then (pairUp xs, false) else (bad, true)

/-- The bytes of a block of mantissas of `w` bits (R416). -/
def blockLength (w : Nat) : Nat := (8 + 32 * w) / 8

/-- A block as its bytes: exponent, residue and mantissas, every field most significant bit first (R416). -/
def blockBytes (b : Block) : List Byte :=
  (toBytes (blockLength b.w) (b.mant.foldl (fun v m => v * 2 ^ b.w + unsigned b.w m) (b.e * 16 + b.residue))).reverse

/-- The block that bytes hold (R416). -/
def blockOf (w : Nat) (bs : List Byte) : Block :=
  let v := leNat (bs.take (blockLength w)).reverse
  { w := w, e := v / 2 ^ (32 * w + 4), residue := v / 2 ^ (32 * w) % 16
    mant := (List.range 32).map fun i => signed w (v / 2 ^ ((31 - i) * w) % 2 ^ w) }

/-- The number of the block that a sample of stamp `q` belongs to (R416). -/
def blockNumber (k q : Nat) : Nat := q / 2 ^ (k + 4)

/-! ### The TDD gate (R388 to R390) -/

/-- The direction of a path as a segment type: path A downlink, path B uplink (R271). -/
def pathSegment : PathId → SegType
  | .a => .dl
  | .b => .ul

/-- The TDD gate of a path passes a sample taken at an instant (R389). -/
def gatePasses (d : SliceDef) (p : PathId) (t : Nat) (s : State) : Bool :=
  if d.direction ≠ .tdd then true
  else match srcOf d p with
    | .rx m => pairSegment m t s == some (pathSegment p)
    | _ => true

/-- The samples of a path since its segment began, none outside its own segments (R318). -/
def segmentAge (d : SliceDef) (p : PathId) (t : Nat) (s : State) : Option Nat :=
  if d.direction ≠ .tdd then some 32
  else match rxOf (srcOf d p) with
    | none => some 32
    | some m =>
      match pairTimer m s, pairView m s with
      | some i, some (_, shift) =>
        match (s.tdd.timers[i]).pattern with
        | none => none
        | some pat =>
          let ph := phaseAt pat (shiftTime t (-shift))
          let seg := segmentAt pat.segs 0 ph
          let start := (pat.segs.take seg.1).foldl (fun n g => n + 4 * g.dur) 0
          if seg.2 = pathSegment p then some ((ph - start) / samplePeriod d) else none
      | _, _ => none

end Sys2Proof.Machine
end

