-- ==== Sys2Proof/Machine/Residue.lean ====
section
/-! DEFINITION. Residue checks and recompute (R261, R263 to R267): a mismatch in a stage of a DDC, a DUC or an engine's chain, the spares, and the
outputs that are released poisoned. -/
namespace Sys2Proof.Machine
open Sys2Proof

/-! ### A block's outputs (R264, R265) -/

/-- A quotient rounded up; `b` above zero. -/
def ceilDiv (a b : Nat) : Nat := (a + b - 1) / b

/-- The outputs of a block from the failed one on. -/
def outputsLeft (index : Fin 32) : Nat := 32 - index.val

/-- The run of containers that a DDC stage's failed output and the rest of its block poison (R262, R265): the stages are the DC block, the mix, the
zone correction, HB_M, HB_F, the gain and the rounding. DEDUCED: the failed output was computed two tile digital cycles ago (R263), and a
container is poisoned by the output that its own instant lies nearest to. -/
def ddcRun (stage : Nat) (index : Fin 32) (mono : Nat) : PoisonRun :=
  let n := outputsLeft index
  if stage < 3 then { first := mono - 8, count := ceilDiv n 4 }
  else if stage = 3 then { first := mono - 10, count := ceilDiv n 2 }
  else { first := mono - 25, count := n }

/-- The run of DAC samples that a DUC stage's failed output and the rest of its block leave at zero (R262, R265): the stages are the sum, the port
gain, the droop equaliser, HB_F, HB_M, HB_E, the mix, and the real part with its rounding. -/
def ducRun (stage : Nat) (index : Fin 32) (mono : Nat) : PoisonRun :=
  let n := outputsLeft index
  if stage < 2 then { first := 8 * (mono - 8), count := 8 * n }
  else if stage = 2 then { first := 8 * (mono - 15), count := 8 * n }
  else if stage = 3 then { first := 8 * mono - 232, count := 4 * n }
  else if stage = 4 then { first := 8 * mono - 252, count := 2 * n }
  else { first := 8 * mono - 258, count := n }

/-- How many outputs of a stage of a DDC or DUC come in a quarter-nanosecond. -/
def stageRate (tx : Bool) (stage : Nat) : Nat :=
  if tx then (if stage < 3 then 1 else if stage = 3 then 2 else if stage = 4 then 4 else 8)
  else if stage < 3 then 4 else if stage = 3 then 2 else 1

/-- The instant at which the last output of a block whose failed output was computed two tile digital cycles ago is released (R263, R264): until
then a recompute holds the spare. -/
def tileSpareUntil (tx : Bool) (stage : Nat) (index : Fin 32) (mono : Nat) : Nat :=
  mono - 8 + (outputsLeft index - 1) / stageRate tx stage + 32

/-! ### Counts and reports (R266, R267, R270) -/

/-- A block whose spare recomputed every failed output, or one that was poisoned, perhaps because the spare was held (R264, R265). -/
def countResidue (tx : Bool) (corrected spareHeld : Bool) (x : TileResidue) : TileResidue :=
  if corrected then
    if tx then { x with ducCorrected := satAdd 255 x.ducCorrected 1 } else { x with ddcCorrected := satAdd 255 x.ddcCorrected 1 }
  else
    { x with poisonedBlocks := satAdd 255 x.poisonedBlocks 1, spareBusy := if spareHeld then satAdd 255 x.spareBusy 1 else x.spareBusy }

/-- A residue error of a port's DDC or DUC (R266, R267): it names the port and stage, and the port's self-test follows. -/
def reportResidue (inj : Bool) (tx : Bool) (m : Fin 32) (stage : Nat) (corrected : Bool) (s : State) : State :=
  let src : Fin 320 := if corrected then 304 else 305
  let s := raiseBy inj src (if tx then target .txPort m else target .rxPort m) stage s
  if (if tx then txRetired m s else rxRetired m s) then s
  else askTest (if tx then .txPort else .rxPort) m src.val inj [] s

/-- A DDC's or DUC's mismatch is counted and reported (R266, R270). -/
def portResidue (inj : Bool) (tx : Bool) (m : Fin 32) (stage : Nat) (corrected spareHeld : Bool) (s : State) : State :=
  reportResidue inj tx m stage corrected
    (onDfe (fun d => { d with residue := upd d.residue (tileOf m) (countResidue tx corrected spareHeld) }) s)

/-- Containers whose check failed on receipt are reported (R261): DEGRADED, for the receiving block put a poisoned one in their place. -/
def reportWrong (s : State) : State :=
  if allOf s.dfe.wrong fun b => b == (false, false) then s
  else
    let old := s.dfe.wrong
    (indices 32).foldl (fun s m =>
      let s := if (old[m]).1 then reportResidue false false m 0 false s else s
      if (old[m]).2 then reportResidue false true m 0 false s else s) (onDfe (fun d => { d with wrong := Vector.replicate 32 (false, false) }) s)

/-! ### The spares (R263 to R265) -/

/-- A mismatch in a stage of a DDC or DUC. `recomputed` says that the recompute on the spare passes its check. -/
def tileMismatch (tx : Bool) (m : Fin 32) (stage : Nat) (index : Fin 32) (recomputed : Bool) (s : State) : State :=
  let t := tileOf m
  let mono := s.time.mono
  let held := decide (mono < if tx then s.sig.spareDuc[t] else s.sig.spareDdc[t])
  let corrected := recomputed && !held
  let until' := tileSpareUntil tx stage index mono
  let s := onSig (fun g =>
    let g := if held then g
      else if tx then { g with spareDuc := g.spareDuc.set t until' } else { g with spareDdc := g.spareDdc.set t until' }
    if corrected then g
    else if tx then { g with tx := upd g.tx m fun x => { x with bad := x.bad ++ [ducRun stage index mono] } }
    else { g with rx := upd g.rx m fun x => { x with bad := x.bad ++ [ddcRun stage index mono] } }) s
  portResidue false tx m stage corrected held s

/-- The group delay of the decimation stages up to stage `j` of a chain of `k`, in quarter-nanoseconds (R302). -/
def stagesDelay (k j : Nat) : Nat := ((List.range k).filter (· ≤ j)).foldl (fun t i => t + halfBand k i * 2 ^ i) 0

/-- The group delay of the interpolation stages after the `j`-th of a chain of `k`, narrowest first, in quarter-nanoseconds. -/
def laterDelay (k j : Nat) : Nat := ((List.range k).filter (· + 1 < k - j)).foldl (fun t i => t + halfBand k i * 2 ^ i) 0

/-- The outputs of a path's chain that a failed output and the rest of its block poison (R262, R265): stages 0 to k − 1 are the decimation stages, k
the channel filter and gain, and k + 1 to 2k the interpolation stages. DEDUCED, as for a DDC: the failed output was computed two fabric cycles
ago. -/
def poisonChain (d : SliceDef) (stage : Nat) (index : Fin 32) (mono : Nat) (x : Chain) : Chain :=
  let n := outputsLeft index
  let k := d.k
  if stage < k then
    { x with badDown := x.badDown ++
        [{ first := (mono - 230 - stagesDelay k stage) / 2 ^ k, count := ceilDiv (n * 2 ^ (stage + 1)) (2 ^ k) }] }
  else if stage = k then
    { x with badMid := x.badMid ++ [{ first := (mono - 6 - (2816 + chainDelay k) / 10) / 2 ^ k, count := n }] }
  else
    let j := stage - k - 1
    { x with badUp := x.badUp ++ [{ first := mono + 52 + laterDelay k j, count := n * 2 ^ (k - 1 - j) }] }

/-- The quarter-nanoseconds between two outputs of a stage of a path's chain. -/
def chainStep (k stage : Nat) : Nat := if stage < k then 2 ^ (stage + 1) else if stage = k then 2 ^ k else 2 ^ (2 * k - stage)

/-- A mismatch in a chain of a slice path, on the slice's home engine (R253, R263): the engine's reserve recomputes one at a time. The engine's
self-test is started by the collector (R459). -/
def engineMismatch (sl : SliceId) (p : PathId) (stage : Nat) (index : Fin 32) (recomputed : Bool) (s : State) : State :=
  match liveDef sl s, ((s.plc.placed[sl]).live).bind (·.engines.head?) with
  | some d, some e =>
    let mono := s.time.mono
    let held := decide (mono < s.sig.spareEngine[e])
    let corrected := recomputed && !held
    let s := if held then s else onSig (fun g => { g with
      spareEngine := g.spareEngine.set e (mono - 6 + (outputsLeft index - 1) * chainStep d.k stage + 52) }) (pulse 0x0201 (target .engine e) 1 s)
    let s := if corrected then s else onChain sl p (poisonChain d stage index mono) s
    raise (if corrected then 101 else 102) (target .engine e) stage s
  | _, _ => s

/-- RESIDUE_MISMATCH (R264 to R267): output `index` of a block of a stage fails its check. `corrected` says that every recomputed output passes. -/
def execResidueMismatch (site : ResidueSite) (stage : Nat) (index : Fin 32) (corrected : Bool) (s : State) :
    Host.Outcome State Fault Refusal :=
  match site with
  | .ddc m => .next (tileMismatch false m stage index corrected s)
  | .duc m => .next (tileMismatch true m stage index corrected s)
  | .engine sl p => .next (engineMismatch sl p stage index corrected s)

end Sys2Proof.Machine
end

