-- ==== Sys2Proof/Machine/Canceller.lean ====
section
/-! DEFINITION. A sample of a slice path (R280, R289 to R291, R316, R318, R336), the evaluation window of its canceller (R317, R322 to
R326), and CANCEL_CTL (R330 to R332). -/
namespace Sys2Proof.Machine
open Sys2Proof

/-! ### Gain and mute ramps -/

/-- A path's gain target (R288). -/
def gainTarget (d : SliceDef) (p : PathId) : Int :=
  match p with
  | .a => d.gainA
  | .b => d.gainB

/-- The applied gain after one sample, and the part of a 0.01 dB step it has gained (R289): it falls at once, and rises by at most
gain_rise per millisecond. -/
def stepGain (d : SliceDef) (goal applied : Int) (acc : Nat) : Int × Nat :=
  if goal ≤ applied then (goal, 0)
  else if d.gainRise = 0 then (goal, 0)
  else
    let acc := acc + 10 * d.gainRise * samplePeriod d
    let up := applied + ((acc / 4000000 : Nat) : Int)
    if goal ≤ up then (goal, 0) else (up, acc % 4000000)

/-- Does a mute without a ramp hold a slice's output at zero: SQUALL_MUTE, TDD_TIMING (R341, R350), or step 3 of a restart (R295)? -/
def silentNow (sl : SliceId) (s : State) : Bool :=
  let x := s.slices.slice[sl]
  (s.nps.slice[sl]).squallMute || (s.nps.slice[sl]).tddTiming || (x.restart.any fun r => r.started)

/-- Does something ramp a path's output to zero: a host mute, an Overcast mute, EMISSION_MUTE, DONOR_LOSS, deletion, or step 1 of a
restart (R291, R295, R297, R347, R348)? -/
def rampedDown (sl : SliceId) (p : PathId) (s : State) : Bool :=
  let x := s.slices.slice[sl]
  let host := x.live.any fun y => match p with
    | .a => y.muteA
    | .b => y.muteB
  host || x.shed || (s.nps.slice[sl]).emissionMute || (s.nps.slice[sl]).donorLoss || x.deleting.isSome || x.restart.isSome

/-- The samples that a path's ramp has come up, after one more sample (R291). -/
def stepFade (ramp fade : Nat) (silent down : Bool) : Nat :=
  if silent then 0 else if down then min ramp fade - 1 else min ramp (fade + 1)

/-- The factor of a ramp in parts of 2^-16 (R291): the raised cosine between zero and one. -/
def fadeWord (ramp fade : Nat) (silent down : Bool) : Nat :=
  if silent then 0
  else if fade = 0 then (if ramp = 0 ∧ down = false then 65536 else 0)
  else if ramp ≤ fade then 65536
  else rampWord fade ramp

/-! ### The canceller's arithmetic (R312, R316)

Samples are in units of 2^-17 at the subtraction point and of 2^-13 in the delay line; w_fg in 2^-22, w_bg in 2^-30. -/

/-- Complex sum. -/
def cAdd (a b : Cplx) : Cplx := ⟨a.re + b.re, a.im + b.im⟩

/-- Complex difference. -/
def cSub (a b : Cplx) : Cplx := ⟨a.re - b.re, a.im - b.im⟩

/-- Complex product. -/
def cMul (a b : Cplx) : Cplx := ⟨a.re * b.re - a.im * b.im, a.re * b.im + a.im * b.re⟩

/-- A product with a conjugate. -/
def cMulConj (a b : Cplx) : Cplx := ⟨a.re * b.re + a.im * b.im, a.im * b.re - a.re * b.im⟩

/-- A whole number times a complex one. -/
def cScale (k : Int) (a : Cplx) : Cplx := ⟨k * a.re, k * a.im⟩

/-- A container as a complex number; poisoned counts as zero (R262). -/
def cOf (c : Container) : Cplx := ⟨contI c, contQ c⟩

/-- The references r[n − D − j] for j from 0 (R312): the line is newest first and starts at r[n − 1]. DESIGN CHOICE: with D = 0, tap 0 would
see the sample of this very instant, which is computed from it; it sees zero. -/
def tapWindow (dly n : Nat) (line : List Container) : List Container :=
  let w := if dly = 0 then Container.valid 0 0 :: line.take (n - 1) else (line.drop (dly - 1)).take n
  w ++ List.replicate (n - w.length) (.valid 0 0)

/-- Σ w[j] × x(j). -/
def tapSum (w : List Cplx) (x : List Container) : Cplx := (w.zip x).foldl (fun t y => cAdd t (cMul y.1 (cOf y.2))) ⟨0, 0⟩

/-- The estimate ŷ rounded convergently to 18 bits (R316). -/
def estimateWord (w : List Cplx) (x : List Container) : Cplx :=
  let t := tapSum w x
  ⟨roundEven t.re 18, roundEven t.im 18⟩

/-- A background tap after an update (R316): w × (1 − 2^−l) + 2^−m × e × conj(x) / (p + N_fc × 2^−23). -/
def updateTap (m l q : Nat) (w ec : Cplx) : Cplx :=
  let keep : Int := if l = 0 then 1 else ((2 ^ l - 1 : Nat) : Int)
  let den : Int := ((2 ^ (if l = 0 then 0 else l) : Nat) : Int)
  let scale : Int := ((2 ^ m * q : Nat) : Int)
  let one (a b : Int) : Int := tapRound (a * keep * scale + b * den) (den * scale)
  ⟨one w.re ec.re, one w.im ec.im⟩

/-- A correlation sample that is not suspended (R316): both residuals are correlated, the background adapts in ADAPT and SHADOW, and the
estimator terms are summed. -/
def correlate (x : CancelParams) (y z yhat : Cplx) (w : List Container) (c : Canceller) : Canceller :=
  let n := c.wFg.length
  let p := w.foldl (fun t r => t + cNorm (cOf r)) 0
  let e := cSub (cScale (2 ^ 26) y) (tapSum c.wBg w)
  let add (g : List Cplx) (a : Cplx) : List Cplx := (g.zip w).map fun v => cAdd v.1 (cMulConj a (cOf v.2))
  let adapt := x.mode = 0 ∨ x.mode = 3
  { c with
    gFg := add c.gFg z, gBg := add c.gBg e
    wBg := if adapt then (c.wBg.zip w).map fun v => updateTap x.m x.l (p + 8 * n) v.1 (cMulConj e (cOf v.2)) else c.wBg
    kk := c.kk + 1, pr := c.pr + p, py := c.py + cNorm yhat, suspended := false }

/-- Is adaptation suspended at a correlation sample (R318, R329)? -/
def adaptSuspended (d : SliceDef) (p : PathId) (t : Nat) (bad : Bool) (w : List Container) (c : Canceller) (s : State) : Bool :=
  bad || w.any contBad || decide ((w.foldl (fun t r => t + cNorm (cOf r)) 0) < 8 * c.wFg.length)
    || decide (s.time.mono < c.suspendUntil)
    || (match segmentAge d p t s with
        | none => true
        | some a => decide (a < 32))

/-- How many slice samples lie between correlation samples: 16, and 64 while Overcast slows the cancellers (R315, R633). -/
def correlationStep (s : State) : Nat := if s.thm.overcast.slow then 64 else 16

/-! ### The end of a path: delay line, fronthaul, pulses -/

/-- The delay line after a new output: D + N_fc containers are kept, newest first (R314). -/
def pushLine (r : Container) (c : Canceller) : Canceller :=
  { c with line := (r :: c.line).take (c.delay + c.wFg.length) }

/-- The stream entry that a path sends its output to (R420, R423). -/
def sendEntry (sl : SliceId) (p : PathId) (s : State) : Option StreamEntry :=
  s.lnk.streams.find? fun e => e.slice == sl && e.path == p && (e.role == .originate || e.role == .addForward)

/-- The stream entry that a path takes its input from (R420, R423). -/
def takeEntry (sl : SliceId) (p : PathId) (s : State) : Option StreamEntry :=
  s.lnk.streams.find? fun e => e.slice == sl && e.path == p && (e.role == .terminate || e.role == .dropForward)

/-- A finished block leaves the compressor (R415 to R418): an ORIGINATE sends it on its feeds, with this node as contributor; an
ADD_FORWARD keeps it, as feed 2, until its playout instant (R429). -/
def blockDone (e : StreamEntry) (f : Filling) (s : State) : State :=
  let b := compress (widthBits e.width) f.samples
  let held (feed : Nat) : HeldBlock :=
    { stream := e.stream, feed := feed, number := f.number, contrib := 2 ^ s.lnk.node, origin := s.lnk.node, block := b
      holes := [] }
  if e.role = .addForward then onLnk (fun l => { l with buffered := l.buffered ++ [held 2] }) s
  else onLnk (fun l => { l with toSend := l.toSend ++ (if e.ring then [held 0, held 1] else [held 0]) }) s

/-- A sample of a path with a fronthaul sink enters the block of its slice-output stamp (R415, R416); a block that a gap leaves unfilled
is sent poisoned (R418). Without an entry it is discarded (R423). -/
def fillBlock (d : SliceDef) (sl : SliceId) (p : PathId) (stamp : Nat) (c : Container) (s : State) : State :=
  match sendEntry sl p s with
  | none => s
  | some e =>
    let b := blockNumber d.k stamp
    let mine (f : Filling) : Bool := f.slice == sl && f.path == p
    let old := s.lnk.filling.find? mine
    let s := match old with
      | some f => if f.number = b then s else blockDone e f s
      | none => s
    let before := match old with
      | some f => if f.number = b then f.samples else []
      | none => []
    let f : Filling := { slice := sl, path := p, number := b, samples := before ++ [c] }
    let rest := s.lnk.filling.filter fun g => !mine g
    if f.samples.length = 16 then blockDone e f (onLnk (fun l => { l with filling := rest }) s)
    else onLnk (fun l => { l with filling := rest ++ [f] }) s

/-- The container that a path with a fronthaul source takes (R423, R426): none where it has no stream entry; a missing one is poisoned
(R14). -/
def takePlayed (sl : SliceId) (p : PathId) (s : State) : Option Container × State :=
  match takeEntry sl p s with
  | none => (none, s)
  | some _ =>
    match s.lnk.played.find? fun x => x.slice == sl && x.path == p with
    | some x =>
      (some (x.samples.headD .poisoned), onLnk (fun l => { l with played := l.played.map fun y =>
        if y.slice = sl ∧ y.path = p then { y with samples := y.samples.drop 1 } else y }) s)
    | none => (some .poisoned, s)

/-! ### Into a path: decimated or played samples and the channel filter (R280, R286, R423) -/

/-- An instant on the monotonic count as station time now has it. -/
def stationOf (m : Nat) (s : State) : Nat := m + s.time.q - s.time.mono

/-- The sample that a path takes next, with its number and its slice-output instant (R14, R280, R303, R423): from its decimation chain, poisoned
where that has none; or from its fronthaul stream, zero without a stream entry. Of a fronthaul source the channel filter to the end of the work
frame lies between (R303). -/
def nextSample (d : SliceDef) (sl : SliceId) (p : PathId) (s : State) : Nat × Nat × Sample × State :=
  if srcOf d p = .fronthaul then
    let r := takePlayed sl p s
    let made := s.time.mono + 602
    (made / 2 ^ d.k, made, sampleOf (r.1.getD (.valid 0 0)), r.2)
  else
    match (s.sig.path[canIdx sl p]).taken with
    | x :: rest => (x.1, x.1 * 2 ^ d.k + outputDelay d, x.2, onChain sl p (fun c => { c with taken := rest }) s)
    | [] =>
      let n := (s.time.mono - outputDelay d) / 2 ^ d.k
      (n, n * 2 ^ d.k + outputDelay d, none, s)

/-- The channel filter over its last inputs, newest first (R262, R286). -/
def channelFilter (d : SliceDef) (h : List Sample) : Sample :=
  let y := round18 17 (firSum (coefficients d.k d.bandwidth d.family d.edge d.nCh) h)
  (sampleAt h (delayCeil d)).map fun _ => y

/-- Does a path's source port have been retuned so lately that the slice's output is still zero (R246)? -/
def retuneZero (d : SliceDef) (p : PathId) (made : Nat) (s : State) : Bool :=
  (rxOf (srcOf d p)).any fun m => ((s.sig.rx[m]).retuned).any fun t => decide (t ≤ made) && decide (made < t + receiveLatency d)

/-! ### Out of a path: meters, captures, interpolation (R280, R283, R305 to R307) -/

/-- A meter takes a sample (R283). -/
def meterStep (w : Nat) (v : Cplx) (m : Meter) : Meter :=
  let sum := m.sum + cNorm v
  if 2 ^ w ≤ m.count + 1 then { sum := 0, count := 0, ended := some (sum, m.count + 1) } else { m with sum := sum, count := m.count + 1 }

/-- A sample of a path as its five capture taps see it (R305), with the instant at which it passes each. DEDUCED: the tap after the filter lies
6.4 ns, and the one after cancellation 7.2 ns, behind the decimated input; the slice output's is the slice-output instant (R303). -/
structure Tapped where
  input    : Sample
  filtered : Sample
  clean    : Sample
  output   : Sample
  estimate : Sample
  made     : Nat
  deriving DecidableEq, Repr

/-- The container and the instant of a tap. -/
def tapOf (t : Tapped) (tap : Nat) : Container × Nat :=
  match tap with
  | 0 => (sampleContainer t.input, t.made - 602)
  | 1 => (sampleContainer t.filtered, t.made - 576)
  | 2 => (sampleContainer t.clean, t.made - 573)
  | 3 => (sampleContainer t.output, t.made)
  | _ => (sampleContainer t.estimate, t.made - 576)

/-- A container enters the block that fills (R81, R307): a block that is full, or that a segment has ended, is closed first. -/
def fillCapture (stamp epoch : Nat) (x : Container) (c : Capture) : Capture :=
  let close := decide (1008 ≤ c.fill.samples.length) || (c.cut && !c.fill.samples.isEmpty)
  let full := if close then c.full ++ [c.fill] else c.full
  let old := if close then [] else c.fill.samples
  let left := c.left.map (· - 1)
  { c with
    full := full, cut := false, left := left, ending := c.ending || left == some 0
    fill := if old.isEmpty then { stamp := stamp, epoch := epoch, samples := [x] } else { c.fill with samples := old ++ [x] } }

/-- A sample passes the tap of the capture on a ring (R306, R307): the first one at or after its instant completes the start, and the last one that
is asked for ends it. A sample outside the captured direction's segments is not written. -/
def captureSample (sl : SliceId) (p : PathId) (inside : Bool) (t : Tapped) (s : State) (r : Fin 8) : State :=
  match s.slices.capture[r] with
  | none => s
  | some c =>
    if c.slice ≠ sl ∨ (c.which = 1) ≠ (p = .b) ∨ c.ending = true then s
    else if !inside then onCapture r (fun c => some { c with cut := true }) s
    else
      let x := tapOf t c.tap
      let stamp := stationOf x.2 s
      if stamp < c.instant then s
      else
        let s := onCapture r (fun c => some (fillCapture stamp s.time.epoch x.1 { c with startIssue := none })) s
        match c.startIssue with
        | some i => completeAt (stampOf stamp) i (refusal .ok) s
        | none => s

/-- A sample after the TDD gate goes up the interpolation chain to its sink's DUC (R273, R280 steps 8 and 9). -/
def sendUp (d : SliceDef) (n made : Nat) (v : Sample) (c : Chain) : Chain :=
  let r := interpolate (chainHalves d.k).reverse c.up (n, v)
  let first := made + mixDelay d + ((r.2.map (·.1)).headD 0) - n * 2 ^ d.k
  { c with up := r.1, sent := c.sent ++ r.2.map (·.2), due := if c.sent.isEmpty then max c.due first else c.due, fresh := false }

/-- The gain, mute and trim counters of a sample (R290, R609). -/
def samplePulses (sl : SliceId) (sat limited trimmed poisoned : Bool) (s : State) : State :=
  let u := target .slice sl
  let s := pulse 0x0100 u 1 s
  let s := if sat then notify 100 u 0 (pulse 0x0101 u 1 s) else s
  let s := if poisoned then pulse 0x0102 u 1 s else s
  let s := if limited then pulse 0x0103 u 1 s else s
  if trimmed then pulse 0x0104 u 1 s else s

/-- A slice's gain and ramp state of one path after a sample. -/
def setPathGain (p : PathId) (applied : Int) (rise fade : Nat) (sat : Bool) (x : Slice) : Slice :=
  let x := { x with satCount := if sat then satAdd 255 x.satCount 1 else x.satCount }
  match p with
  | .a => { x with appliedA := applied, riseA := rise, fadeA := fade }
  | .b => { x with appliedB := applied, riseB := rise, fadeB := fade }

/-- A complex word through a factor in parts of 2^-w, rounded convergently. -/
def through (w k : Nat) (v : Cplx) : Cplx := ⟨roundEven (v.re * k) w, roundEven (v.im * k) w⟩

/-- Does a path go through a port of a tile that was reset and is not up again (R100)? -/
def throughReset (d : SliceDef) (p : PathId) (s : State) : Bool :=
  ((rxOf (srcOf d p)).any fun m => (s.tiles.tile[tileOf m]).resetDown) || ((txOf (sinkOf d p)).any fun m => (s.tiles.tile[tileOf m]).resetDown)

/-- What a path sends on to its sink (R14, R246, R280 steps 6 and 7, R389): poisoned while the slice is stopped or its tile is down; zero while it is
muted, after a retune and outside its segments; poisoned where its input or its block is. -/
def gateSample (sl : SliceId) (p : PathId) (d : SliceDef) (made taken n factor : Nat) (bad : Bool) (v : Cplx) (s : State) : Sample :=
  if (s.slices.slice[sl]).state == .stopped || s.thm.halted || throughReset d p s then none
  else if factor = 0 || retuneZero d p made s || !gatePasses d p taken s then some ⟨0, 0⟩
  else if bad || inRun (s.sig.path[canIdx sl p]).badMid n then none
  else some v

/-- The slice samples of a Squall window: max(ceil(2 µs × f_s), 4) (R339). -/
def squallLength (d : SliceDef) : Nat := max ((8000 + samplePeriod d - 1) / samplePeriod d) 4

/-- Does a sample leave its window untested (R339): its input poisoned, its output muted or on a ramp, or its TX port off or ramping? -/
def squallBlind (d : SliceDef) (p : PathId) (factor : Nat) (bad : Bool) (s : State) : Bool :=
  bad || factor != 65536 || (txOf (sinkOf d p)).any fun m => (s.tiles.tx[m]).output != .on

/-- A residual sample joins its Squall window (R339); outside the path's segments there is none, and the next window is a segment's first. -/
def watchSquall (len : Nat) (inside blind : Bool) (z : Cplx) (w : SquallWatch) : SquallWatch :=
  if !inside then { w with window := [], spoilt := true }
  else
    let l := z :: w.window
    let spoilt := w.spoilt || blind
    if len ≤ l.length then { window := [], spoilt := false, ended := some (l, spoilt) } else { w with window := l, spoilt := spoilt }

/-- A power joins the bin that an instant of an observation lies in (R396); `start` is its first instant and `len` the bins' length. -/
def addBin (start len t v : Nat) (bins : List (Nat × Nat)) : List (Nat × Nat) :=
  let i := (t - start) / len
  let l := List.replicate (i + 1 - bins.length) (0, 0) ++ bins
  match l with
  | b :: rest => if l.length = i + 1 then (b.1 + v, b.2 + 1) :: rest else l
  | [] => []

/-- A decimated input of path A joins the observation of its slice (R395, R396), until that ends. -/
def observeInput (sl : SliceId) (d : SliceDef) (t : Nat) (v : Sample) (s : State) : State :=
  match s.tdd.infer with
  | none => s
  | some x =>
    let start := x.start.getD t
    if x.slice ≠ sl ∨ start + 4000000 * x.observe ≤ t then s
    else onTdd (fun y => { y with infer := some { x with
      start := some start, bins := addBin start (4 * inferBin d.k) t (cNorm (valueOf v)) x.bins } }) s

/-- One sample of a path (R280, R289 to R291, R316, R336), from the channel filter to the interpolation chain or the
compressor. The background step of R315 follows every 16th sample. While the slice engines are gated (R638) the output is poisoned. -/
def sampleStep (sl : SliceId) (p : PathId) (params : SliceParams) (s : State) : State :=
  let d := params.defn
  let x := s.slices.slice[sl]
  let c := s.can.path[canIdx sl p]
  let cp := canParams params p
  -- steps 1 to 3
  let (n, made, input, s) := nextSample d sl p s
  let history := (input :: (s.sig.path[canIdx sl p]).filter).take 128
  let y := channelFilter d history
  let s := if p = .a then observeInput sl d (stationOf (made - outputDelay d) s) input s else s
  let taken := stationOf (made - outputDelay d - filterDelay d / 10) s
  -- gain and ramp
  let applied := match p with
    | .a => x.appliedA
    | .b => x.appliedB
  let rise := match p with
    | .a => x.riseA
    | .b => x.riseB
  let fade := match p with
    | .a => x.fadeA
    | .b => x.fadeB
  let goal := min (gainTarget d p) c.ceiling
  let (applied, rise) := stepGain d goal applied rise
  let silent := silentNow sl s
  let down := rampedDown sl p s
  let fade := stepFade d.muteRamp fade silent down
  let factor := fadeWord d.muteRamp fade silent down
  let limited := decide (c.ceiling < gainTarget d p) && decide (c.ceiling ≤ applied)
  -- steps 4 to 7
  let w := tapWindow c.delay c.wFg.length c.line
  let yhat := estimateWord c.wFg w
  let z := if c.present then sat18 (cSub (valueOf y) yhat) else valueOf y
  let v := through 24 (gainWord applied) z
  let sat := sat18 v != v
  let trim := totalTrim sl p s
  let v := if trim = 0 then sat18 v else through 24 (gainWord (-(trim : Int))) (sat18 v)
  let v := through 16 factor v
  let out := gateSample sl p d made taken n factor y.isNone v s
  let r := sampleContainer out
  -- the canceller's background
  let here := c.present && c.count % correlationStep s == 0
  let off := adaptSuspended d p taken y.isNone w c s
  let c := if !here then c else if off then { c with suspended := true } else correlate cp (valueOf y) z yhat w c
  let c := { c with count := c.count + 1, limited := c.limited || limited }
  let s := if c.present then writeRing (lineKey sl p false) (c.count - 1) 1 (onCanceller sl p (fun _ => pushLine r c) s)
           else onCanceller sl p (fun _ => c) s
  let s := onSlice sl (setPathGain p applied rise fade sat) s
  -- the meters, the captures and the sink
  let inside := gatePasses d p taken s
  let blind := squallBlind d p factor (y.isNone || (s.slices.slice[sl]).state == .stopped) s
  let meter (v : Cplx) (m : Meter) : Meter := if inside then meterStep s.slices.window v m else m
  let s := onChain sl p (fun h =>
    let h := { h with
      filter := history, meterIn := meter z h.meterIn, meterOut := meter (valueOf out) h.meterOut, badMid := laterRuns h.badMid n
      squall := watchSquall (squallLength d) inside blind z h.squall }
    if (txOf (sinkOf d p)).isSome then sendUp d n made out h else h) s
  let t : Tapped := { input := input, filtered := y, clean := y.map fun _ => z, output := out, estimate := some yhat, made := made }
  let s := if p = .a then shadowSample sl (contBad r) s else s
  let s := (indices 8).foldl (captureSample sl p inside t) s
  let s := if sinkOf d p = .fronthaul then fillBlock d sl p (stationOf made s) r s else s
  emit (.sample sl.val p r) (samplePulses sl sat limited (trim != 0) (contBad r) s)

/-- A parity error in the local memory of a slice's home engine (R560): a delay-line container counts as poisoned, a tap as zero from then on, a
coefficient is synthesised again, and any other word poisons the rest of its block. Source 103 names the engine, which the collector sends
through its test (R459). -/
def localError (sl : SliceId) (p : PathId) (d : SliceDef) (w : LocalWord) (s : State) : State :=
  match ((s.plc.placed[sl]).live).bind (·.engines.head?) with
  | none => s
  | some e =>
    let s := match w with
      | .delayLine age => onCanceller sl p (fun c => if c.inSmem then c else { c with line := c.line.set age .poisoned }) s
      | .tap true i => onCanceller sl p (fun c => { c with wFg := c.wFg.set i ⟨0, 0⟩, settled := false }) s
      | .tap false i => onCanceller sl p (fun c => { c with wBg := c.wBg.set i ⟨0, 0⟩, settled := false }) s
      | .coefficient => s
      | .other stage index => onChain sl p (poisonChain d stage index s.time.mono) s
    raise 103 (target .engine e) 0 s

/-- SLICE_SAMPLE_BOUNDARY (R280, R289, R560): a sample of a path of a defined slice; `wrong` is the word of local memory that fails its parity. -/
def execSliceSampleBoundary (slice : SliceId) (path : PathId) (wrong : Option LocalWord) (s : State) : Host.Outcome State Fault Refusal :=
  match (s.slices.slice[slice]).live with
  | none => .next s
  | some x =>
    if (pathsOf x.defn).contains path then
      let s := match wrong with
        | some w => localError slice path x.defn w s
        | none => s
      .next (sampleStep slice path x s)
    else .next s

/-! ### The evaluation window -/

/-- A background tap as a foreground tap, rounded convergently (R317, R334). -/
def foreground (w : Cplx) : Cplx := ⟨satWord 24 (roundEven w.re 8), satWord 24 (roundEven w.im 8)⟩

/-- The window's copy rule (R317) and the count of windows without a copy that makes a path settled (R323). -/
def endWindowCopy (copy : Bool) (c : Canceller) : Canceller :=
  if copy then { c with wFg := c.wBg.map foreground, copies := (c.copies + 1) % 65536, copied := true, copyFree := 0 }
  else
    let free := min 4 (c.copyFree + 1)
    { c with copyFree := free, settled := c.settled || (c.copied && decide (4 ≤ free)) }

/-- The used values (R324). Taps that are all zero have no isolation to measure; DEDUCED: the clamp of R322 then gives 150.00 dB. -/
def usedValues (x : CancelParams) (c : Canceller) : Canceller :=
  if c.settled then { c with iUsed := c.iMeas.getD 15000, cUsed := min c.cMeas 3500 }
  else { c with iUsed := x.iFloor.toNat, cUsed := 0 }

/-- The sum of the squared magnitudes. -/
def powerOf (w : List Cplx) : Nat := w.foldl (fun t x => t + cNorm x) 0

/-- A depth in 0.01 dB (R322): the ratio of the estimate's power to the residual's. With no residual it is at its limit. -/
def depthOf (estimate residual k : Nat) : Nat :=
  if residual = 0 ∧ estimate ≠ 0 then 6000
  else if estimate = 0 ∧ residual ≠ 0 then 0
  else (clampInt 0 6000 (centibels estimate residual k)).toNat

/-- The estimates of a window with kk above zero (R322), from its accumulators; `k` numbers their free values. DESIGN CHOICE: a residual beyond the
range of SLC_CAN_RESID_s_p reads as its limit. -/
def estimates (k : Nat) (c : Canceller) : Canceller :=
  let n := c.wFg.length
  let p := c.kk * c.pr
  let fg := powerOf c.gFg * n
  { c with
    resFg := some (clampInt (-32767) 32767 (centibels fg (p * 2 ^ 34) k))
    resBg := some (clampInt (-32767) 32767 (centibels (powerOf c.gBg * n) (p * 2 ^ 86) (k + 1)))
    iMeas := if powerOf c.wFg = 0 then none else some (clampInt 0 15000 (centibels (2 ^ 44) (powerOf c.wFg) (k + 2))).toNat
    cMeas := depthOf (c.py * c.pr) fg (k + 3) }

/-- Does the background beat the foreground by 0.50 dB or more at a window's end (R317)? -/
def copyWins (c : Canceller) : Bool := tenBelow 50 (powerOf c.gFg * 2 ^ 52) (powerOf c.gBg)

/-- A window's end (R317, R322 to R326), and whether it copies. With kk = 0 there is no new estimate and no copy (R318). -/
def windowEnd (x : CancelParams) (k : Nat) (c : Canceller) : Canceller × Bool :=
  if c.kk = 0 then (raiseCeiling x.margin x.ceilRise (usedValues x (endWindowCopy false (newWindow c))), false)
  else
    let copy := x.mode == 0 && copyWins c
    (raiseCeiling x.margin x.ceilRise (usedValues x (newWindow (endWindowCopy copy (estimates k c)))), copy)

/-- CANCEL_WINDOW_END (R317, R322 to R326). -/
def execCancelWindowEnd (slice : SliceId) (path : PathId) (s : State) : Host.Outcome State Fault Refusal :=
  let c := s.can.path[canIdx slice path]
  if c.present then
    let r := windowEnd (liveCan slice path s) s.free c
    let s := onCanceller slice path (fun _ => r.1) { s with free := s.free + 4 }
    .next (if r.2 then pulse 0x0105 (target .slice slice) 1 s else s)
  else .next s

/-! ### CANCEL_CTL -/

/-- A byte field of CANCEL_CTL in range when its mask bit is set, and zero otherwise. -/
def maskedOk (d : Desc) (b o n : Nat) (ok : Nat → Bool) : Bool × Refuse :=
  (if bitOf (d.u 13 1) b then !ok (d.u o n) else d.u o n != 0, badParam o)

/-- The field checks of CANCEL_CTL (R330, R331). -/
def cancelCtlFields (d : Desc) : List (Bool × Refuse) :=
  let range (lo hi v : Nat) : Bool := decide (lo ≤ v) && decide (v ≤ hi)
  [(decide (2 < d.u 12 1), badParam 12), (bitOf (d.u 13 1) 7, badParam 13), maskedOk d 0 14 1 (range 0 3), maskedOk d 1 15 1 (range 4 20),
   maskedOk d 2 16 1 (fun v => v == 0 || range 8 31 v), maskedOk d 3 17 1 (range 12 24), maskedOk d 4 18 1 (range 1 255),
   maskedOk d 5 20 2 (range 600 3000), maskedOk d 6 22 2 (range 0 15000), d.strayCheck [(12, 7), (20, 4)]]

/-- CANCEL_CTL's parameters written into a path's (R330). RESET acts as the set goes live, and the path then runs ADAPT (R319). -/
def writeCancel (d : Desc) (x : CancelParams) : CancelParams :=
  let has (b : Nat) : Bool := bitOf (d.u 13 1) b
  { mode := if has 0 then (if d.u 14 1 = 2 then 0 else d.u 14 1) else x.mode
    m := if has 1 then d.u 15 1 else x.m
    l := if has 2 then d.u 16 1 else x.l
    v := if has 3 then d.u 17 1 else x.v
    ceilRise := if has 4 then d.u 18 1 else x.ceilRise
    margin := if has 5 then (d.u 20 2 : Int) else x.margin
    iFloor := if has 6 then (d.u 22 2 : Int) else x.iFloor }

/-- CANCEL_CTL (R330 to R332): a tenant may not set margin or i_floor; mode, m, l, v and ceil_rise need a canceller. -/
def execCancelCtl (d : Desc) (s : State) : Host.Outcome State Fault Refusal :=
  .next (hostCommand 0x1C (.cancelCtl d) d (fun iss s =>
    match d.unit .slice 256 with
    | none => refuse iss (badParam 8) s
    | some sl =>
      if iss.fn ≠ 0 ∧ d.u 13 1 / 32 % 4 ≠ 0 then refuse iss { status := .denied, offset := 13, resource := d.tgt } s
      else
        match fillCheck sl d (cancelCtlFields d) 12 s with
        | some r => refuse iss r s
        | none =>
          match fillBase sl s with
          | none => refuse iss (badParam 8) s
          | some base =>
            let ps := (whichPaths (d.u 12 1) base.defn).getD []
            if d.u 13 1 % 32 ≠ 0 ∧ !(ps.all fun p => hasCanceller base.defn p) then refuse iss (badParam 13) s
            else
              let new := ps.foldl (fun x p => setCanParams p (writeCancel d) x) base
              let reset := bitOf (d.u 13 1) 0 && d.u 14 1 == 2
              let old := pendingActs sl s
              let actOf (p : PathId) (o : Nat) : Nat := if bitOf (d.u 13 1) 0 && ps.contains p then bit reset else o
              let act := (actOf .a old.1, actOf .b old.2)
              let moving := ((s.slices.slice[sl]).pending).any (·.moving)
              fillPending sl new act moving iss s) s)

end Sys2Proof.Machine
end

