-- ==== Sys2Proof/Machine/Protection.lean ====
section
/-! DEFINITION. The network protection supervisor (R335 to R369): Squall, overdrive, noise, emission, donor loss, trim release, and the
commands PROTECT_HALT and PROTECT_CLEAR. -/
namespace Sys2Proof.Machine
open Sys2Proof

/-! ### Causes that abandon a shadow run (R362) -/

/-- A trim component of a path takes a value, and the slice's shadow runs are abandoned (R336, R362). -/
def raiseTrim (inj : Bool) (sl : SliceId) (p : PathId) (k : TrimKind) (value : Nat) (present : Bool) (fresh : Option Int)
    (s : State) : State :=
  let unit := target .slice sl
  let src (s : State) : State := match k with
    | .squall => raiseBy inj 128 unit 0 s
    | .overdrive => s
    | .noise => raiseBy inj 133 unit 0 s
    | .emission => raiseBy inj 134 unit 0 s
  abandonShadow sl (setTrimValue sl p k value present fresh src s)

/-- A mute cause on a slice that also abandons its shadow runs (R362). -/
def causeMute (inj : Bool) (sl : SliceId) (k : SliceMute) (value : Int) (s : State) : State :=
  abandonShadow sl (muteSlice inj sl k value s)

/-- The value of a trim component of a path. -/
def trimValue (sl : SliceId) (p : PathId) (k : TrimKind) (s : State) : Nat := (trimOf (pathProt (s.nps.slice[sl]) p) k).value

/-- The condition of a trim component is absent (R352). -/
def trimAbsent (sl : SliceId) (p : PathId) (k : TrimKind) (s : State) : State :=
  onPathProt sl p (setTrim k fun t => { t with present := false }) s

/-! ### Squall (R339 to R342) -/

/-- SQUALL_PORT on every TX port that a slice sends to, once three slices on it hold a Squall cause (R342). -/
def squallPorts (inj : Bool) (sl : SliceId) (value : Int) (s : State) : State :=
  match liveDef sl s with
  | none => s
  | some d => (txPorts d).foldl (fun s m => if 3 ≤ squallSlices m s then mutePort inj m .squall false value s else s) s

/-- A detecting window acts (R340, R341): SQUALL_TRIM of exactly 10.00 dB, whose hold time restarts, and settled clears with the ceiling at
i_floor − margin (R329). `again` says that the window before was detecting too. -/
def squallActs (inj : Bool) (sl : SliceId) (p : PathId) (growth : Int) (again : Bool) (s : State) : State :=
  let s := unsettlePath sl p s
  let s := onCanceller sl p (fun c => { c with squallSeen := c.squallSeen || c.present }) s
  let s := raiseTrim inj sl p .squall 1000 false (if inj then none else some growth) s
  let s := if again then causeMute inj sl .squall growth s else s
  squallPorts inj sl growth s

/-- Does Squall watch a path: its source is an RX port and its PROTECT entry enables it (R339)? -/
def squallWatches (sl : SliceId) (p : PathId) (s : State) : Bool :=
  match liveDef sl s with
  | none => false
  | some d => (pathsOf d).contains p && srcIsRx d p && (s.nps.slice[sl]).guard.squall

/-- What a Squall window measures (R339): the sum of |z|² in units of 2^-34 of full scale, its samples, and the powers of its 64 bins. -/
def squallReading (w : List Cplx) : Nat × Nat × List Nat := (powerOf w, w.length, (List.range 64).map (squallBin w))

/-- The place and the power of the largest of some bins. DESIGN CHOICE: of equal bins, the first. -/
def largestBin (l : List Nat) : Nat × Nat := l.zipIdx.foldl (fun m x => if m.2 < x.1 then (x.2, x.1) else m) (0, l.headD 0)

/-- The peak test of R339: the largest bin stands squall_peak above the mean of the others and has grown by squall_growth. -/
def peakDetects (g : GuardConfig) (last now : List Nat) : Bool :=
  let x := largestBin now
  tenBelow g.squallPeak (x.2 * 63) (now.foldl (· + ·) 0 - x.2) && tenBelow g.squallGrowth x.2 (last.getD x.1 0)

/-- Do the tests of R339 pass for a window after another? -/
def squallDetects (g : GuardConfig) (k : Nat) (last now : Nat × Nat × List Nat) : Bool :=
  tenBelow (-(g.squallFloor : Int)) now.1 (now.2.1 * 2 ^ 34)
    && (tenBelow g.squallGrowth (now.1 * last.2.1) (last.1 * now.2.1) || (decide (k ≤ 6) && peakDetects g last.2.2 now.2.2))

/-- A Squall window that was tested, or that serves as a predecessor alone (R339 to R342); `n` numbers its free values. -/
def testWindow (sl : SliceId) (p : PathId) (k : Nat) (r : Nat × Nat × List Nat) (n : Nat) (s : State) : State :=
  let x := pathProt (s.nps.slice[sl]) p
  match x.last with
  | none => onPathProt sl p (fun x => { x with last := some r, previous := false }) s
  | some last =>
    let hit := squallDetects s.nps.cfg k last r
    let s := onPathProt sl p (fun x => { x with last := some r, detecting := hit, previous := hit }) s
    if hit then
      let s := onSliceProt sl (fun y => { y with squallCount := (y.squallCount + 1) % 65536 }) s
      squallActs false sl p (centibels (r.1 * last.2.1) (last.1 * r.2.1) n) x.previous s
    else s

/-- SQUALL_WINDOW_END (R339 to R342): the window of a watched path that has ended is tested. An untested one is no predecessor. -/
def execSquallWindowEnd (slice : SliceId) (path : PathId) (s : State) : Host.Outcome State Fault Refusal :=
  match ((s.sig.path[canIdx slice path]).squall).ended with
  | none => .next s
  | some (w, spoilt) =>
    let s := onChain slice path (fun x => { x with squall := { x.squall with ended := none } }) s
    if !squallWatches slice path s then .next s
    else if spoilt then .next (onPathProt slice path (fun x => { x with last := none, previous := false }) s)
    else .next (testWindow slice path (((liveDef slice s).map (·.k)).getD 0) (squallReading w) s.free { s with free := s.free + 1 })

/-! ### Overdrive, noise, emission (R344 to R347) -/

/-- A further 10 µs of overdrive at an RX port: the OVERDRIVE component of every path from it rises (R344). -/
def overdriveStep (inj : Bool) (rx : Fin 32) (s : State) : State :=
  let s := (pathsFromRx rx s).foldl (fun s x =>
    raiseTrim inj x.1 x.2 .overdrive (trimValue x.1 x.2 .overdrive s + s.nps.cfg.overdriveStep) true none s) s
  raiseBy inj 132 (target .rxPort rx) 0 s

/-- OVERDRIVE_INTERVAL (R344): 10 µs end in which every microsecond had an overrange, or in which one had none. -/
def execOverdriveInterval (rx : Fin 32) (s : State) : Host.Outcome State Fault Refusal :=
  let present := decide (10 ≤ (s.sig.rx[rx]).loudRun)
  let s := onNps (fun n => { n with overdriven := n.overdriven.set rx present }) s
  if present then .next (overdriveStep false rx (onSig (fun g => { g with rx := upd g.rx rx fun x => { x with loudRun := x.loudRun - 10 } }) s))
  else .next ((pathsFromRx rx s).foldl (fun s x => trimAbsent x.1 x.2 .overdrive s) s)

/-- The uplink path of a definition with a TX port sink (R345). -/
def uplinkPath (d : SliceDef) : Option PathId :=
  let p := if d.direction = .ul then some PathId.a else if d.direction = .tdd then some PathId.b else none
  p.filter fun p => (txOf (sinkOf d p)).isSome

/-- A noise density in 0.01 dBFS/Hz is compared with the limits of a path (R345). -/
def noiseActs (sl : SliceId) (p : PathId) (density : Int) (s : State) : State :=
  let g := (s.nps.slice[sl]).guard
  let s := onPathProt sl p (fun x => { x with noiseHigh := decide (g.noiseLimit - 100 < density) }) s
  if g.noiseLimit < density then raiseTrim false sl p .noise (trimValue sl p .noise s + 50) true none s
  else if density ≤ g.noiseLimit - 100 then trimAbsent sl p .noise s
  else s

/-- NOISE_INTERVAL_END (R345): the lowest output-meter reading of 100 ms less 10 log10(B in Hz). DESIGN CHOICE: an interval without a reading says
nothing. -/
def execNoiseIntervalEnd (slice : SliceId) (s : State) : Host.Outcome State Fault Refusal :=
  match liveDef slice s, (liveDef slice s).bind uplinkPath with
  | some d, some p =>
    let low := (pathProt (s.nps.slice[slice]) p).lowest
    let s' := onPathProt slice p (fun x => { x with lowest := none }) s
    match low with
    | some v =>
      if (s.nps.slice[slice]).guard.noise then
        .next (noiseActs slice p (v - centibels (d.bandwidth * 1000) 1 s.free) { s' with free := s'.free + 1 })
      else .next s'
    | none => .next s'
  | _, _ => .next s

/-- Does a bin lie within centre ± 0.6 B of a slice (R346)? Frequencies in kHz. -/
def nearBand (d : SliceDef) (f : Nat) : Bool := decide (10 * (max f d.centre - min f d.centre) ≤ 6 * d.bandwidth)

/-- Twice the distance of a frequency from the nearer edge of a slice's band. -/
def edgeDistance (d : SliceDef) (f : Nat) : Nat :=
  let off := 2 * (max f d.centre - min f d.centre)
  max off d.bandwidth - min off d.bandwidth

/-- The slice on a port whose band edge is nearest to a frequency (R346). DESIGN CHOICE: a tie goes to the lowest index. -/
def nearestSlice (l : List (SliceId × SliceDef)) (f : Nat) : Option SliceId :=
  match l with
  | [] => none
  | x :: xs => some (xs.foldl (fun m y => if edgeDistance y.2 f < edgeDistance m.2 f then y else m) x).1

/-- The path of a slice with its sink on a TX port. -/
def pathTo (d : SliceDef) (m : Fin 32) : PathId := if txOf d.sinkA = some m then .a else .b

/-- A visit's result for one slice (R347): EMISSION_TRIM rises, and a path that stood at max_trim already takes EMISSION_MUTE. -/
def emissionActs (inj : Bool) (sl : SliceId) (p : PathId) (power : Int) (s : State) : State :=
  let full := decide (s.nps.cfg.maxTrim ≤ totalTrim sl p s)
  let s := onPathProt sl p (fun x => { x with exceeds := true }) s
  let s := raiseTrim inj sl p .emission (trimValue sl p .emission s + s.nps.cfg.emissionStep) true none s
  if full then causeMute inj sl .emission power s else s

/-- EMISSION_VISIT_END (R346, R347): the bins of a port's output by centre in kHz and power in 0.01 dBFS per MHz. A bin exceeds when it was
above the mask on the visit before too. -/
def execEmissionVisitEnd (tx : Fin 32) (bins : List (Nat × Int)) (s : State) : Host.Outcome State Fault Refusal :=
  let x := s.nps.port[tx]
  if !x.emissionEnable || (s.tiles.tx[tx]).radio.state != .active then .next s
  else
    let here := (slicesOnTx tx s).filterMap fun sl => (liveDef sl s).map fun d => (sl, d)
    let above := bins.filter fun b => decide (x.emissionMask < b.2) && !(here.any fun y => nearBand y.2 b.1)
    let loud := above.filter fun b => x.aboveLast.contains b.1
    let s := onPortProt tx (fun x => { x with aboveLast := above.map (·.1), exceeds := !loud.isEmpty }) s
    .next (here.foldl (fun s y =>
      let p := pathTo y.2 tx
      match loud.filter fun b => nearestSlice here b.1 == some y.1 with
      | [] => trimAbsent y.1 p .emission (onPathProt y.1 p (fun x => { x with exceeds := false }) s)
      | b :: bs => emissionActs false y.1 p (bs.foldl (fun m c => max m c.2) b.2) s) s)

/-! ### Donor loss (R348, R349) -/

/-- The slices that a donor reference covers: itself, and those that name it (R348). -/
def donorGroup (ref : SliceId) (s : State) : List SliceId :=
  (indices 256).filter fun sl => sl == ref || ((s.nps.slice[sl]).guard.donor && (s.nps.slice[sl]).guard.donorRef == ref)

/-- Does some slice name a donor reference? -/
def donorNamed (ref : SliceId) (s : State) : Bool :=
  anyOf s.nps.slice fun x => x.guard.donor && x.guard.donorRef == ref

/-- The donor power of a reference: the input meter of its path A (R348). -/
def donorPower (ref : SliceId) (s : State) : Int := (s.slices.slice[ref]).inA

/-- A reference's donor_floor (R348). -/
def donorFloor (ref : SliceId) (s : State) : Int := (s.nps.slice[ref]).guard.donorFloor

/-- The donor references of a slice that are lost now. -/
def donorStillLow (sl : SliceId) (s : State) : Bool :=
  let x := s.nps.slice[sl]
  x.donorLow || (x.guard.donor && (s.nps.slice[x.guard.donorRef]).donorLow)

/-- DONOR_LOSS_TIMEOUT (R348): the donor power has been below donor_floor for donor_time. -/
def execDonorLossTimeout (ref : SliceId) (s : State) : Host.Outcome State Fault Refusal :=
  if donorNamed ref s && decide (donorPower ref s < donorFloor ref s) then
    let v := donorPower ref s
    let s := onSliceProt ref (fun x => { x with donorLow := true }) s
    .next ((donorGroup ref s).foldl (fun s sl => if isDefined sl s then causeMute false sl .donorLoss v s else s) s)
  else .next s

/-- DONOR_RECOVER (R349): the donor power has been at or above donor_floor + donor_hyst for donor_recover. -/
def execDonorRecover (ref : SliceId) (s : State) : Host.Outcome State Fault Refusal :=
  if donorFloor ref s + s.nps.cfg.donorHyst ≤ donorPower ref s then
    let s := onSliceProt ref (fun x => { x with donorLow := false }) s
    .next ((donorGroup ref s).foldl (fun s sl => if donorStillLow sl s then s else unmuteSlice sl .donorLoss s) s)
  else .next s

/-! ### TDD timing (R350, R351) -/

/-- TDD_TIMING on every TDD slice (R350). -/
def timingMute (inj : Bool) (s : State) : State :=
  (indices 256).foldl (fun s sl => match liveDef sl s with
    | some d => if d.direction = .tdd then causeMute inj sl .tddTiming 0 s else s
    | none => s) s

/-- TDD_TIMING released on the slices of a timer at its period start, once the time error is within bounds (R351). -/
def timingRelease (timer : Fin 8) (s : State) : State :=
  if s.time.errorOver then s
  else (indices 256).foldl (fun s sl => match liveDef sl s with
    | some d => if d.direction = .tdd ∧ d.pattern = some timer then unmuteSlice sl .tddTiming s else s
    | none => s) s

/-! ### Trim release (R352) -/

/-- TRIM_HOLD_EXPIRY (R352): the condition has been absent for trim_hold, and the release begins with its first 0.50 dB (DEDUCED from the
times of the chapter's worked example). -/
def execTrimHoldExpiry (slice : SliceId) (path : PathId) (kind : TrimKind) (s : State) : Host.Outcome State Fault Refusal :=
  let t := trimOf (pathProt (s.nps.slice[slice]) path) kind
  if t.value ≠ 0 ∧ !t.present ∧ !t.releasing then
    .next (lowerTrim slice path kind (onPathProt slice path (setTrim kind fun t => { t with releasing := true }) s))
  else .next s

/-- TRIM_RELEASE_STEP (R352, R360). -/
def execTrimReleaseStep (slice : SliceId) (path : PathId) (kind : TrimKind) (s : State) : Host.Outcome State Fault Refusal :=
  if (trimOf (pathProt (s.nps.slice[slice]) path) kind).releasing then .next (lowerTrim slice path kind s) else .next s

/-! ### Commands (R358 to R360) -/

/-- PROTECT_HALT (R354, R355, R358): outputs are off as the halt is set, and the command completes OK. -/
def execProtectHalt (d : Desc) (s : State) : Host.Outcome State Fault Refusal :=
  .next (hostCommand 0x21 (.protectHalt d) d (fun iss s =>
    match firstFail [(d.indirect, badParam 1), (d.tgt != 0, badParam 8), (decide (1 < d.u 12 1), badParam 12), d.strayCheck [(12, 1)]] with
    | some r => refuse iss r s
    | none => complete iss .ok (if d.u 12 1 = 1 then setHalt .host s else clearHalt .host s)) s)

/-- Does the condition of a trim cause persist on a path (R360)? -/
def trimPersists (sl : SliceId) (p : PathId) (k : TrimKind) (s : State) : Bool :=
  let x := pathProt (s.nps.slice[sl]) p
  match k with
  | .squall => x.detecting
  | .overdrive => ((liveDef sl s).bind fun d => rxOf (srcOf d p)).any fun m => s.nps.overdriven[m]
  | .noise => x.noiseHigh
  | .emission => x.exceeds

/-- Does the condition of a mute cause persist on the chosen paths of a slice (R360)? -/
def mutePersists (sl : SliceId) (ps : List PathId) (k : SliceMute) (s : State) : Bool :=
  let x := s.nps.slice[sl]
  let ref := if x.guard.donor then x.guard.donorRef else sl
  match k with
  | .squall => ps.any fun p => (pathProt x p).detecting
  | .emission => ps.any fun p => (pathProt x p).exceeds
  | .donorLoss => decide (donorPower ref s < donorFloor ref s + s.nps.cfg.donorHyst)
  | .tddTiming => s.time.errorOver

/-- Does the condition of a port mute persist (R360)? -/
def portPersists (m : Fin 32) (k : PortMute) (s : State) : Bool :=
  match k with
  | .squall => decide (3 ≤ squallSlices m s)
  | .reflected => (s.nps.port[m]).tripped || (s.tiles.tx[m]).loadFault

/-- One named trim cause on one path: ignored, kept, or released at 0.50 dB per millisecond (R360). The flag says that it stays. -/
def clearTrim (sl : SliceId) (k : TrimKind) (acc : Bool × State) (p : PathId) : Bool × State :=
  let (stays, s) := acc
  if trimValue sl p k s = 0 then (stays, s)
  else if trimPersists sl p k s then (true, s)
  else (stays, lowerTrim sl p k (onPathProt sl p (setTrim k fun t => { t with present := false, releasing := true, fast := true }) s))

/-- One named mute cause of a slice (R360). -/
def clearMute (sl : SliceId) (ps : List PathId) (k : SliceMute) (acc : Bool × State) : Bool × State :=
  let (stays, s) := acc
  if !muteOf (s.nps.slice[sl]) k then (stays, s)
  else if mutePersists sl ps k s then (true, s)
  else (stays, unmuteSlice sl k s)

/-- One named port cause (R360). -/
def clearPort (m : Fin 32) (k : PortMute) (acc : Bool × State) : Bool × State :=
  let (stays, s) := acc
  let active := match k with
    | .reflected => (s.nps.port[m]).reflected
    | .squall => (s.nps.port[m]).squall
  if !active then (stays, s) else if portPersists m k s then (true, s) else (stays, unmutePort m k s)

/-- PROTECT_CLEAR on a slice: the named causes in code order. -/
def clearSlice (sl : SliceId) (mask : Nat) (ps : List PathId) (s : State) : Bool × State :=
  let trim (k : TrimKind) (a : Bool × State) : Bool × State := if bitOf mask (trimCause k) then ps.foldl (clearTrim sl k) a else a
  let mute (k : SliceMute) (a : Bool × State) : Bool × State := if bitOf mask (muteCause k) then clearMute sl ps k a else a
  mute .tddTiming (mute .donorLoss (mute .emission (trim .emission (trim .noise (trim .overdrive (mute .squall (trim .squall (false, s))))))))

/-- PROTECT_CLEAR on a TX port. -/
def clearTxPort (m : Fin 32) (mask : Nat) (s : State) : Bool × State :=
  let port (k : PortMute) (a : Bool × State) : Bool × State := if bitOf mask (portCause k) then clearPort m k a else a
  port .reflected (port .squall (false, s))

/-- The causes a slice target may name: 1, 2 and 5 to 10; a port target names 3 and 4 (R337, R359). -/
def clearable (c : TargetClass) (mask : Nat) : Bool :=
  (List.range 16).all fun i => !bitOf mask i ||
    (match c with
     | .slice => i == 1 || i == 2 || (5 ≤ i && i ≤ 10)
     | _ => i == 3 || i == 4)

/-- PROTECT_CLEAR (R359, R360). -/
def execProtectClear (d : Desc) (s : State) : Host.Outcome State Fault Refusal :=
  .next (hostCommand 0x20 (.protectClear d) d (fun iss s =>
    let mask := d.u 12 2
    let fields (c : TargetClass) : List (Bool × Refuse) :=
      [(d.indirect, badParam 1), (mask == 0 || !clearable c mask, badParam 12), (decide (2 < d.u 14 1), badParam 14), d.strayCheck [(12, 3)]]
    let answer (r : Bool × State) : State :=
      if r.1 then refuse iss (refuseTarget .stillActive d.tgt) r.2 else complete iss .ok r.2
    match d.unit .slice 256, d.unit .txPort 32 with
    | some sl, _ => match firstFail (fields .slice) with
      | some r => refuse iss r s
      | none => answer (clearSlice sl mask (match d.u 14 1 with
          | 1 => [.a]
          | 2 => [.b]
          | _ => [.a, .b]) s)
    | none, some m => match firstFail (fields .txPort) with
      | some r => refuse iss r s
      | none => answer (clearTxPort m mask s)
    | none, none => refuse iss (if d.indirect then badParam 1 else badParam 8) s) s)

/-! ### Commits and injections -/

/-- What an image's PROTECT section changes at T (R361): an automatically released cause whose trigger it disables is released. The rungs of an index
without a definition stay (R299). -/
def dropDisabled (sl : SliceId) (s : State) : State :=
  let x := s.nps.slice[sl]
  let tdd := (liveDef sl s).all fun d => d.direction == .tdd
  let both (k : TrimKind) (s : State) : State := dropTrim sl .b k (dropTrim sl .a k s)
  let s := if x.guard.squall then s else both .squall s
  let s := if x.guard.noise then s else both .noise s
  let s := if x.guard.donor || donorNamed sl s then s else unmuteSlice sl .donorLoss s
  let watched (p : PathId) : Bool := (liveDef sl s).all fun d => (txOf (sinkOf d p)).any fun m => (s.nps.port[m]).emissionEnable
  let s := if watched .a then s else dropTrim sl .a .emission s
  let s := if watched .b then s else dropTrim sl .b .emission s
  if tdd then s else unmuteSlice sl .tddTiming s

/-- The reaction to an injected detection at a protection source (R365, R576). DESIGN CHOICE: a slice source acts on path A, or on the
uplink path for noise; sources 138 and 139 have no trigger of their own and reach the collector alone. -/
def injectProtection (src : Nat) (unit : Nat) (s : State) : State :=
  match targetOf .slice 256 unit, targetOf .txPort 32 unit, targetOf .rxPort 32 unit with
  | some sl, _, _ =>
    match src with
    | 128 => squallActs true sl .a 0 false s
    | 129 => causeMute true sl .squall 0 s
    | 133 => match (liveDef sl s).bind uplinkPath with
      | some p => raiseTrim true sl p .noise (trimValue sl p .noise s + 50) false none s
      | none => raiseBy true 133 unit 0 s
    | 134 => raiseTrim true sl .a .emission (trimValue sl .a .emission s + s.nps.cfg.emissionStep) false none s
    | 135 => causeMute true sl .emission 0 s
    | 136 => causeMute true sl .donorLoss 0 s
    | _ => s
  | none, some m, _ =>
    match src with
    | 130 => mutePort true m .squall false 0 s
    | 131 => mutePort true m .reflected false 0 s
    | _ => s
  | none, none, some m => if src = 132 then overdriveStep true m s else s
  | none, none, none => if src = 137 then timingMute true s else s

end Sys2Proof.Machine
end

