-- ==== Sys2Proof/Machine/Memory.lean ====
section
/-! DEFINITION. Events of shared sample memory (R544 to R556, R562). -/
namespace Sys2Proof.Machine
open Sys2Proof

/-- MEM_ERR_LOC and MEM_ERR_TIME take an error (R562). -/
def noteError (loc syndrome kind : Nat) (scrub : Bool) (s : State) : State :=
  onMem (fun m => { m with errLoc :=
    { word := loc % 2 ^ 18, bank := loc / 2 ^ 18, syndrome := syndrome, kind := kind, scrub := scrub, stamp := s.stamp } }) s

/-- A bank's counts after an error (R562). -/
def countError (b : Fin 48) (f : Bank → Bank) (s : State) : State := onMem (fun m => { m with bank := upd m.bank b f }) s

/-- A word becomes unreadable: it is rewritten with the poison code, and its containers are lost to their reader (R548, R549). -/
def poisonWord (loc : Nat) (s : State) : State :=
  let s := onMem (setFault loc .poison) s
  match wordOwner loc s with
  | some (k, w) => loseWord k w 255 s
  | none => s

/-- A SECDED word meets a new uncorrectable or address error (R548, R551). A refused partial write has kind 5. -/
def secdedFails (src : Fin 320) (loc : Nat) (b : Fin 48) (syndrome kind : Nat) (r : Reader) (s : State) : State :=
  let s := poisonWord loc s
  let s := countError b (fun x => { x with uncorrectable := satAdd 255 x.uncorrectable 1 }) s
  raise src (target .bank b) 0 (noteError loc syndrome (if r = .partialWrite then 5 else kind) (decide (r = .scrub)) s)

/-- A read of a written word of a bank in its code (R548, R550, R551). -/
def readWord (loc : Nat) (b : Fin 48) (r : Reader) (e : ReadError) (s : State) : State :=
  let scrub := decide (r = .scrub)
  if (s.mem.bank[b]).parity then
    match e with
    | .parity m =>
      if m % 256 = 0 ∨ r = .partialWrite then s
      else
        let s := onMem (setFault loc (.parity (m % 256))) s
        let s := countError b (fun x => { x with uncorrectable := satAdd 255 x.uncorrectable 1 }) s
        let s := raise 258 (target .bank b) 0 (noteError loc (m % 256) 3 scrub s)
        if scrub then s
        else match wordOwner loc s with
          | some (k, w) => loseWord k w (m % 256) s
          | none => s
    | _ => s
  else if faultAt loc s.mem = some .poison then
    countError b (fun x => { x with poisonReads := satAdd 255 x.poisonReads 1 }) s
  else match e with
    | .single syn =>
      let s := countError b (fun x => { x with corrected := satAdd 65535 x.corrected 1 }) s
      raise 256 (target .bank b) 0 (pulse 0x0402 (target .bank b) 1 (noteError loc syn 1 scrub s))
    | .uncorrectable syn => secdedFails 257 loc b syn 2 r s
    | .address syn => secdedFails 259 loc b syn 4 r s
    | .poisoned => countError b (fun x => { x with poisonReads := satAdd 255 x.poisonReads 1 }) s
    | .parity _ => s

/-- SMEM_READ_ERROR (R546 to R553): a word of a page that nothing has written is not checked. -/
def execSmemReadError (location : Fin 16777216) (reader : Reader) (error : ReadError) (s : State) : Host.Outcome State Fault Refusal :=
  match finOf 48 (location.val / 2 ^ 18) with
  | none => .next s
  | some b => if readable location (decide (reader = .scrub)) s then .next (readWord location b reader error s) else .next s

/-- Is a scrub pass in progress (R555, R562)? DEDUCED: the scrubber runs once boot step 5 has zeroed the banks, and passes follow one another. -/
def scrubbing (s : State) : Bool := s.mem.period != 0 && pastFwRun s

/-- SCRUB_PASS_END (R555). -/
def execScrubPassEnd (s : State) : Host.Outcome State Fault Refusal := if scrubbing s then .next (notify 260 0 0 s) else .next s

/-- May a bank's code bit be written (R544): it is AVAILABLE and empty? -/
def codeWritable (b : Fin 48) (s : State) : Bool :=
  (s.mem.bank[b]).state == .available && bankEmpty b s && !(s.mem.bank[b]).recode

/-- CODE_SEL_WRITE (R544): the bank is zeroed in the other code, or the write is ignored and flagged. -/
def execCodeSelWrite (bank : Fin 48) (parity : Bool) (s : State) : Host.Outcome State Fault Refusal :=
  if (s.mem.bank[bank]).parity = parity then .next s
  else if codeWritable bank s then
    let s := setBank bank .testing s
    .next (onMem (fun m => { m with bank := upd m.bank bank fun x => { x with parity := parity, recode := true } }) s)
  else .next (onMem (fun m => { m with codeIgnored := true }) s)

/-- CODE_SEL_ZERO_DONE (R544): the bank holds zeros in its new code and is AVAILABLE. -/
def execCodeSelZeroDone (bank : Fin 48) (s : State) : Host.Outcome State Fault Refusal :=
  if (s.mem.bank[bank]).recode then
    let s := onMem (fun m => { m with bank := upd m.bank bank fun x => { x with recode := false, zeroed := true } }) (cleanBank bank s)
    .next (settleUnits (restoreStopped (setBank bank .available s)))
  else .next s

end Sys2Proof.Machine
end

