-- ==== Sys2Proof/Machine/Control.lean ====
section
/-! DEFINITION. The arithmetic and the tick of the closed-loop control engine (R474 to R490, R497 to R500, R504 to R507). -/
namespace Sys2Proof.Machine
open Sys2Proof

/-! ### Coefficient banks (R492, R493) -/

/-- Word `w` of a bank. -/
def wordAt (bank : List Int) (w : Nat) : Int := bank.getD w 0

/-- The shift of coefficient word `w`: byte w mod 4 of word 256 + floor(w / 4) (R492, R493). -/
def shiftOf (bank : List Int) (w : Nat) : Nat := field (unsigned 32 (wordAt bank (256 + w / 4)) / 2 ^ (8 * (w % 4))) 4 0

/-- Words of a bank that are always zero (R492). -/
def zeroWord (w : Nat) : Bool := (228 ≤ w && w ≤ 255) || (313 ≤ w && w ≤ 319) || 340 ≤ w

/-- Is a shift word legal: bits [7:5] of its bytes are zero (R493)? -/
def shiftWordOk (x : Int) : Bool := (List.range 4).all fun i => field (unsigned 32 x) (8 * i + 7) (8 * i + 5) == 0

/-- A bank is legal (R492, R493). -/
def bankOk (bank : List Int) : Bool :=
  bank.length == 512
    && ((List.range 512).all fun w => !zeroWord w || wordAt bank w == 0)
    && ((List.range 57).all fun i => shiftWordOk (wordAt bank (256 + i)))
    && ((List.range 4).all fun i => wordAt bank (320 + i) ≤ wordAt bank (324 + i) && wordAt bank (328 + i) ≤ wordAt bank (332 + i))

/-- A row of coefficients: each word with its shift. -/
def rowOf (bank : List Int) (first n : Nat) : List (Int × Nat) :=
  (List.range n).map fun j => (wordAt bank (first + j), shiftOf bank (first + j))

/-! ### Weighted sums (R484) -/

/-- One coefficient times one signal, in units of 2^-8 (R484). -/
def dotTerm (c : Int) (s : Nat) (x : Int) : Int :=
  if s ≤ 8 then c * x * ((2 ^ (8 - s) : Nat) : Int) else roundEven (c * x) (s - 8)

/-- The 72-bit accumulator over a list of coefficients and signals, and whether it saturated (R484). -/
def accumulate : List ((Int × Nat) × Int) → Int → Bool → Int × Bool
  | [], acc, sat => (acc, sat)
  | ((c, s), x) :: rest, acc, sat =>
    let t := acc + dotTerm c s x
    accumulate rest (satWord 72 t) (sat || satWord 72 t != t)

/-- A weighted sum saturated to 32 bits, and whether its accumulator saturated (R484). -/
def dotProduct (row : List (Int × Nat)) (xs : List Int) : Int × Bool :=
  let r := accumulate (row.zip xs) 0 false
  (satWord 32 (roundEven r.1 8), r.2)

/-! ### One evaluation (R485) -/

/-- Element `i` of a signal vector. -/
def sigAt (l : List Int) (i : Nat) : Int := l.getD i 0

/-- A set-point ramp makes one step (R485, R490). -/
def rampStep (rt : Int) (slew : Nat) (r : Int) : Int :=
  if slew = 0 then rt else if r < rt then min (r + slew) rt else max (r - slew) rt

/-- The outputs before limits: the control law of R485 over one bank. -/
def controlLaw (bank : List Int) (cfg : LoopCfg) (xc r q : List Int) : List (Int × Bool) :=
  (List.range cfg.no).map fun j =>
    dotProduct (rowOf bank (160 + 8 * j) cfg.ns ++ rowOf bank (192 + 4 * j) cfg.ni ++ rowOf bank (208 + 4 * j) cfg.ni)
      (xc ++ r ++ q)

/-- An output within its step limit, then within its output limits, then within the cap of an integrator hold (R485, R489). -/
def limitOutput (bank : List Int) (j : Nat) (up : Int) (cap : Option Int) (ur : Int) : Int :=
  let du : Int := (unsigned 32 (wordAt bank (336 + j)) : Nat)
  let u := if du = 0 then ur else max (min ur (up + du)) (up - du)
  let u := min (max u (wordAt bank (320 + j))) (wordAt bank (324 + j))
  match cap with
  | some c => min u c
  | none => u

/-- The sign of a number. -/
def signOf (x : Int) : Int := if x < 0 then -1 else if x = 0 then 0 else 1

/-- The result of an evaluation: the signals, which integrators were held, and whether an accumulator saturated. -/
structure Evaluated where
  sig  : LoopSignals
  held : List Bool
  sat  : Bool
  deriving DecidableEq, Repr

/-- An integrator's next value and whether it was held (R485, R486). -/
def integrate (bank : List Int) (intHold first : Bool) (was : Bool) (i : Nat) (r y q : Int) (u ur : List Int) :
    (Int × Bool) × Bool :=
  let d := dotProduct (rowOf bank (224 + i) 1) [satWord 32 (r - y)]
  let deeper := (List.range ur.length).any fun j =>
    sigAt u j != sigAt ur j
      && signOf (wordAt bank (208 + 4 * j + i)) * signOf d.1 == signOf (sigAt ur j - sigAt u j)
  let held := intHold || (first && was) || deeper
  ((if held then q else clampInt (wordAt bank (328 + i)) (wordAt bank (332 + i)) (satWord 32 (q + d.1)), held), d.2)

/-- An evaluation of a slot over its active bank and, in a fade, the bank that it fades from (R485). `first` is the first evaluation
after a swap. -/
def evaluate (l : Loop) (bank : List Int) (old : Option (List Int × Nat × Nat)) (first : Bool) (y : List Int) : Evaluated :=
  let c := l.cfg
  let g := l.sig
  let ni := List.range c.ni
  let ns := List.range c.ns
  let r := ni.map fun i => rampStep (sigAt g.rt i) (g.slew.getD i 0) (sigAt g.r i)
  let est := ni.map fun i => dotProduct (rowOf bank (96 + 8 * i) c.ns) g.xh
  let v := ni.map fun i => satWord 32 (sigAt y i - (est.getD i (0, false)).1)
  let cor := ns.map fun s => dotProduct (rowOf bank (128 + 4 * s) c.ni) v
  let xc := ns.map fun s => satWord 32 (sigAt g.xh s + (cor.getD s (0, false)).1)
  let un := controlLaw bank c xc r g.q
  let uo := match old with
    | some (o, _, _) => controlLaw o c xc r g.q
    | none => []
  let ur := (List.range c.no).map fun j =>
    let n := (un.getD j (0, false)).1
    match old with
    | some (_, f, step) =>
      let o := (uo.getD j (0, false)).1
      satWord 32 (o + roundEven ((n - o) * step) f)
    | none => n
  let u := (List.range c.no).map fun j =>
    limitOutput bank j (sigAt g.up j) (if l.intHold then some (sigAt l.cap j) else none) (sigAt ur j)
  let ints := ni.map fun i =>
    integrate bank l.intHold first (l.wasHeld.getD i false) i (sigAt r i) (sigAt y i) (sigAt g.q i) u ur
  let pred := ns.map fun s => dotProduct (rowOf bank (8 * s) c.ns ++ rowOf bank (64 + 4 * s) c.no) (xc ++ u)
  { sig := { rt := g.rt, slew := g.slew, r := r, xh := pred.map (·.1), q := ints.map (·.1.1), up := u, ur := ur, y := y, v := v }
    held := ints.map (·.1.2)
    sat := (est ++ cor ++ un ++ uo ++ pred).any (·.2) || ints.any (·.2) }

/-! ### The tick grid (R475 to R477) -/

/-- Grid instant n in quarter-nanoseconds: n × 15,625 / 3 ns, at the fabric cycle of 0.8 ns at or before it (R475). -/
def gridInstant (n : Nat) : Nat := n * 625000 / 96 * 16 / 5

/-- The next base tick at or after an instant that is not the last one (R476, R477). -/
def nextTick (c : Control) (now : Nat) : Nat :=
  let step := 2 ^ c.baseLog2
  let near := now * 3 / 62500
  let k := ceilTo step near
  let n := if gridInstant k < now then k + step else k
  if n = c.tick ∧ gridInstant n ≤ now then n + step else n

/-- Is a slot due at base tick n (R476)? -/
def due (base n : Nat) (cfg : LoopCfg) : Bool := !cfg.outer || n / 2 ^ base % 2 ^ cfg.m == 0

/-! ### Inputs (R479, R483) -/

/-- A slot, when it is enabled. -/
def loopAt (i : Fin 64) (s : State) : Option Loop := s.cen.slot[i]

/-- A change of an enabled slot. -/
def onLoop (i : Fin 64) (f : Loop → Loop) (s : State) : State :=
  onCen (fun c => { c with slot := upd c.slot i fun x => x.map f }) s

/-- What a source code names (R479): none where no source has that code. -/
inductive LoopSource where
  | none | sense (n : Fin 128) | zone (z : Fin 6) | overcast | loopOut (l : Fin 64) (j : Nat) | power (m : Fin 32)
  deriving DecidableEq, Repr

/-- The source that a code names (R479). -/
def sourceOf (code : Nat) : Option LoopSource :=
  let lo := code % 256
  match code / 256 with
  | 0 => if lo = 0 then some .none else none
  | 1 => (finOf 128 lo).map .sense
  | 2 => if lo = 0x10 then some .overcast else (finOf 6 lo).map .zone
  | 3 => (finOf 64 (lo / 4)).map fun l => .loopOut l (lo % 4)
  | 4 => (finOf 32 lo).map .power
  | _ => none

/-- The mean power of a TX port's DUC sum over the base tick interval that ends, in 0.01 dBFS (R479); `k` numbers its free value. -/
def portPower (m : Fin 32) (k : Nat) (s : State) : Int :=
  let x := s.sig.tx[m]
  centibels x.power (x.summed * 2 ^ 34) k

/-- The value of a source at a tick (R479); `power` is the mean power of each TX port's DUC sum. -/
def sourceValue (power : Vector Int 32) (s : State) (code : Nat) : Int :=
  match sourceOf code with
  | some (.sense n) => (s.mon.sense[n]).value
  | some (.zone z) => zoneValue z s
  | some .overcast => s.thm.overcast.request
  | some (.loopOut l j) => ((loopAt l s).map fun x => sigAt x.sig.up j).getD 0
  | some (.power m) => power[m]
  | _ => 0

/-- The SENSE input that a code names. -/
def senseOf (code : Nat) : Option (Fin 128) :=
  match sourceOf code with
  | some (.sense n) => some n
  | _ => none

/-- Is an input stale or invalid (R483)? -/
def inputBad (l : Loop) (s : State) (i : Nat) : Bool :=
  match senseOf (l.cfg.src.getD i 0) with
  | none => false
  | some n => senseInvalid n s || l.cfg.stale ≤ l.staleRun.getD i 0

/-- The inputs' counts of evaluations without a new conversion, brought up to this tick (R483). -/
def countStale (s : State) (l : Loop) : Loop :=
  let now (i : Nat) : Nat := match senseOf (l.cfg.src.getD i 0) with
    | some n => (s.mon.sense[n]).updates
    | none => 0
  { l with
    staleRun := (List.range l.cfg.ni).map fun i => if now i = l.seen.getD i 0 then l.staleRun.getD i 0 + 1 else 0
    seen := (List.range l.cfg.ni).map now }

/-! ### Outputs (R480 to R482) -/

/-- What a destination code names (R480). -/
inductive Dest where
  | none | gain (m : Fin 32) | bias (c : Fin 64) | setpoint (l : Fin 64) (j : Nat)
  deriving DecidableEq, Repr

/-- The destination that a code names (R480). -/
def destOf (code : Nat) : Option Dest :=
  let lo := code % 256
  match code / 256 with
  | 0 => if lo = 0 then some .none else none
  | 1 => (finOf 32 lo).map .gain
  | 2 => (finOf 64 lo).map .bias
  | 3 => (finOf 64 (lo / 4)).map fun l => .setpoint l (lo % 4)
  | _ => none

/-- The destinations of a slot's outputs. -/
def destsOf (cfg : LoopCfg) : List Dest := (cfg.dst.take cfg.no).filterMap destOf

/-- The command that writes a bias channel (R480, R482): the low bytes, first byte in [7:0]. -/
def biasCmd (now : Nat) (b : BiasChannel) (value : Nat) : BusCmd :=
  { client := .bias, command := b.command, usid := b.usid, addr := b.addr, count := b.count, data := value, since := now }

/-- A bias channel takes a value (R482): a queued write is replaced, and a value that was sent last is not sent again. A channel of an unbound link
sends nothing (R210). -/
def writeBias (c : Fin 64) (value : Int) (s : State) : State :=
  match s.fec.bias[c.val]? with
  | none => s
  | some b =>
    let v := unsigned (8 * b.count) value
    let q := (s.fec.fems[b.link]).queue
    if !(s.fec.fems[b.link]).enable then s
    else if q.any (isBiasOf b) then
      onFem b.link (fun f => { f with queue := f.queue.map fun x => if isBiasOf b x then { x with data := v } else x }) s
    else if s.cen.biasSent[c] = some v then s
    else onFem b.link (fun f => { f with queue := f.queue ++ [biasCmd s.time.mono b v] }) s

/-- An output is applied at its destination (R480). -/
def applyOutput (s : State) (x : Nat × Int) : State :=
  match destOf x.1 with
  | some (.gain m) => onDfe (fun d => { d with duc := upd d.duc m fun u => { u with gain := (clampInt 0 0x3FFFF x.2).toNat } }) s
  | some (.bias c) => writeBias c x.2 s
  | some (.setpoint l j) => onLoop l (fun y => { y with sig := { y.sig with rt := y.sig.rt.set j x.2 } }) s
  | _ => s

/-! ### Holds (R487 to R489) -/

/-- The TX ports that a slot's outputs act on: port gains, and bias channels on a link bound to a port (R363). -/
def actedPorts (cfg : LoopCfg) (s : State) : List (Fin 32) :=
  (destsOf cfg).filterMap fun d => match d with
    | .gain m => some m
    | .bias c => (s.fec.bias[c.val]?).map fun b => (s.fec.fems[b.link]).port
    | _ => none

/-- The hold condition of a slot without DOWNSTREAM, the lowest code first (R363, R487). -/
def holdCode (l : Loop) (s : State) : Nat :=
  let port (p : Fin 32 → Bool) : Bool := l.cfg.hold.any p
  if port (fun m => gateWord m s != 0) || (actedPorts l.cfg s).any (fun m => haltAsserted s || portMuted m s) then 1
  else if port fun m => (s.tiles.tx[m]).radio.state != .active || (s.tiles.tx[m]).output == .rampingUp
      || (s.tiles.tx[m]).output == .rampingDown then 2
  else if port fun m => isPair m s && !(s.tdd.pairs[m]).transmitting then 3
  else if (List.range l.cfg.ni).any (inputBad l s) then 4
  else if l.parity.any fun p => p.1 == l.active then 6
  else 0

/-- The slots whose set-points a slot drives (R487). -/
def drivenBy (cfg : LoopCfg) : List (Fin 64) :=
  (destsOf cfg).filterMap fun d => match d with
    | .setpoint l _ => some l
    | _ => none

/-- Does a slot hold because every slot that it drives is held (R487)? -/
def downstream (codes : Vector Nat 64) (l : Loop) : Bool :=
  let d := drivenBy l.cfg
  !d.isEmpty && d.all fun i => codes[i] != 0

/-- The codes with DOWNSTREAM added once more; a chain has no cycle (R481), so 64 rounds settle it. -/
def addDownstream (dues : Vector Bool 64) (s : State) (codes : Vector Nat 64) : Vector Nat 64 :=
  updAll codes fun i x => match loopAt i s with
    | some l => if dues[i] && (x == 0 || x == 6) && downstream codes l then 5 else x
    | none => x

/-- `n` rounds of DOWNSTREAM. -/
def settleCodes (dues : Vector Bool 64) (s : State) : Nat → Vector Nat 64 → Vector Nat 64
  | 0, codes => codes
  | n + 1, codes => settleCodes dues s n (addDownstream dues s codes)

/-- Does a slice whose sink is a port hold a cause, a host mute or an Overcast shed (R489)? -/
def sliceRestrains (m : Fin 32) (s : State) : Bool :=
  (slicesOnTx m s).any fun sl =>
    let x := s.slices.slice[sl]
    causeBits (s.nps.slice[sl]) != 0 || x.shed || (x.live.any fun p =>
      match pathTo p.defn m with
      | .a => p.muteA
      | .b => p.muteB)

/-- The integrator hold of a slot at this tick, with its caps (R489). -/
def setIntHold (s : State) (l : Loop) : Loop :=
  let on := l.cfg.hold.any fun m => sliceRestrains m s
  { l with intHold := on, cap := if on && !l.intHold then l.sig.up else l.cap }

/-! ### Swaps and fades (R497 to R500) -/

/-- A bank by its name: true for B. -/
def bankOf (l : Loop) (b : Bool) : List Int := if b then l.b else l.a

/-- Does a pending swap take its boundary at this evaluation (R497, R500)? -/
def swapDue (l : Loop) (now : Nat) : Bool := l.fade.isNone && l.swap.any fun w => decide (w.instant ≤ now)

/-- The swap boundary (R498, R499): the other bank becomes active and the integrators are clamped to its limits. -/
def takeSwap (stamp : Nat) (l : Loop) : Loop × Option SwapReq :=
  match l.swap with
  | none => (l, none)
  | some w =>
    let bank := bankOf l (!l.active)
    let q := l.sig.q.zipIdx.map fun x => clampInt (wordAt bank (328 + x.2)) (wordAt bank (332 + x.2)) x.1
    ({ l with
       active := !l.active, swap := none, sig := { l.sig with q := q }
       clamped := l.clamped || q != l.sig.q, swapTime := stamp
       fade := if w.f = 0 then none else some { f := w.f, step := 0, issue := w.issue } }, some w)

/-! ### Trace buffers (R504 to R507) -/

/-- The value of a trace channel (R504). -/
def channelValue (l : Loop) (sel : Nat) : Int :=
  let i := field sel 5 3
  match sel % 8 with
  | 1 => sigAt l.sig.y i
  | 2 => sigAt l.sig.xh i
  | 3 => sigAt l.sig.up i
  | 4 => sigAt l.sig.ur i
  | 5 => sigAt l.sig.q i
  | 6 => sigAt l.sig.r i
  | 7 => sigAt l.sig.v i
  | _ => 0

/-- Bits from a list, the first in bit 0. -/
def bitsOf (l : List Bool) : Nat := l.foldr (fun b n => bit b + 2 * n) 0

/-- The entry of a slot at a tick (R504). -/
def traceEntry (stamp n : Nat) (l : Loop) (sel : List Nat) : TraceEntry :=
  { stamp := stamp, tick := n % 2 ^ 32
    flags := bit l.active + 2 * bit l.fade.isSome + 4 * bit (l.hold != 0) + 8 * bit l.intHold + 16 * bitsOf l.outSat
      + 256 * bitsOf l.wasHeld
    values := (sel.take 4).map (channelValue l) }

/-- A trace entry as bytes (R504). -/
def traceBytes (e : TraceEntry) : List Nat :=
  (toBytes 8 e.stamp ++ toBytes 4 e.tick ++ toBytes 2 e.flags ++ toBytes 2 0 ++
    e.values.flatMap fun v => toBytes 4 (unsigned 32 v)).map (·.toNat)

/-- What happened to a slot at a tick: whether it was held, entered a hold, swapped or had an output limited. -/
structure TickEvents where
  held    : Bool
  entered : Bool
  swapped : Bool
  limited : Bool
  deriving DecidableEq, Repr

/-- Does an arming's trigger occur (R506)? -/
def traceFires (t : Trace) (now : Nat) (e : TickEvents) : Bool :=
  match t.trigger with
  | 0 => true
  | 1 => decide (t.instant ≤ now)
  | 2 => e.swapped
  | 3 => e.limited
  | 4 => e.entered
  | _ => false

/-- An entry joins a continuous ring (R505). -/
def ringEntry (t : Trace) (e : TraceEntry) : Trace :=
  let l := if t.next < t.entries.length then t.entries.set t.next e else t.entries ++ [e]
  { t with entries := l, next := (t.next + 1) % 4096 }

/-- A tick of a traced slot (R504 to R507): a held slot records at each of its ticks, an evaluated one at every decimation-th
evaluation. DESIGN CHOICE: a trigger is taken once the entries before it are held, and its evaluation is recorded whatever the
decimation. -/
def traceStep (now : Nat) (ev : TickEvents) (e : TraceEntry) (t : Trace) : Trace :=
  let fires := t.armed.isSome && !t.triggered && decide (512 * t.pre ≤ t.entries.length) && traceFires t now ev
  let take := ev.held || fires || t.decim ≤ t.skip + 1
  let t := { t with skip := if take then 0 else t.skip + 1, triggered := t.triggered || fires }
  if !take then t
  else if t.continuous then ringEntry t e
  else if t.triggered then { t with entries := t.entries ++ [e] }
  else { t with entries := if 512 * t.pre ≤ t.entries.length then t.entries.tail ++ [e] else t.entries ++ [e] }

/-- The traces of a slot record its tick (R504 to R507); a buffer that becomes full answers its command. -/
def recordTraces (i : Fin 64) (n : Nat) (ev : TickEvents) (s : State) : State :=
  match loopAt i s with
  | none => s
  | some l => (indices 16).foldl (fun (s : State) (b : Fin 16) =>
    let t := s.cen.trace[b]
    if t.slot ≠ i ∨ (t.armed.isNone ∧ !t.continuous) then s
    else
      let t := traceStep s.now ev (traceEntry s.stamp n l t.sel) t
      let full := t.armed.isSome && t.triggered && t.entries.length == 4096
      let t' := if full then { t with armed := none } else t
      let s := onCen (fun c => { c with trace := c.trace.set b t' }) s
      if !full then s
      else match t.armed with
        | none => s
        | some iss =>
          let s := match t.address with
            | some a => emit (.hostWrite a (t.entries.flatMap traceBytes)) s
            | none => s
          complete iss .ok s) s

/-! ### Writes that land between evaluations (R495) -/

/-- Words written to a bank from a start word on; a word that is rewritten passes its parity check again (R487). -/
def putWords (bank : Bool) (start : Nat) (words : List Int) (l : Loop) : Loop :=
  let put (x : List Int) : List Int := x.zipIdx.map fun p => if start ≤ p.2 then words.getD (p.2 - start) p.1 else p.1
  let l := { l with parity := l.parity.filter fun p => !(p.1 == bank && start ≤ p.2 && p.2 < start + words.length) }
  if bank then { l with b := put l.b } else { l with a := put l.a }

/-- The next group of the slot's oldest long write lands, and its last group completes the command (R495). -/
def landGroup (i : Fin 64) (s : State) : State :=
  match (loopAt i s).bind (·.writes.head?) with
  | none => s
  | some w =>
    let s := onLoop i (putWords w.bank w.start (w.words.take 8)) s
    match w.words.drop 8 with
    | [] => complete w.issue .ok (onLoop i (fun l => { l with writes := l.writes.tail }) s)
    | rest => onLoop i (fun l => { l with writes := { w with start := w.start + 8, words := rest } :: l.writes.tail }) s

/-! ### The tick (R478, R485 to R489) -/

/-- The slot after an evaluation: its signals, the outputs' limits and counts (R486, R509). -/
def afterEvaluation (e : Evaluated) (l : Loop) : Loop :=
  let sat := (e.sig.up.zip e.sig.ur).map fun p => p.1 != p.2
  { l with
    sig := e.sig
    wasHeld := e.held
    outSat := sat
    limRun := sat.zipIdx.map fun p => if p.1 then l.limRun.getD p.2 0 + 1 else 0
    limited := if sat.any id then satAdd 65535 l.limited 1 else l.limited
    accSat := l.accSat || e.sat }

/-- The errors of an evaluation (R484, R486, R498), naming the slot. -/
def evaluationErrors (i : Fin 64) (e : Evaluated) (clamped : Bool) (l : Loop) (s : State) : State :=
  let unit := target .loop i
  let s := if clamped then raise 224 unit 0 s else s
  let s := if e.sat then raise 225 unit 0 s else s
  if l.limRun.any (· == 65536) then raise 228 unit 0 s else s

/-- The last evaluation of a fade ends it and completes its command (R499). -/
def endFade (i : Fin 64) (s : State) : State :=
  match (loopAt i s).bind (·.fade) with
  | none => s
  | some f =>
    if f.step < 2 ^ f.f then s else completeOpt f.issue .ok (onLoop i (fun l => { l with fade := none }) s)

/-- A due slot that is held at this tick (R487). -/
def holdSlot (i : Fin 64) (n code : Nat) (l : Loop) (s : State) : State :=
  let s := onLoop i (fun _ => { l with hold := code }) s
  let s := pulse 0x0801 (target .loop i) 1 s
  let s := if code = 4 ∧ l.hold ≠ 4 then raise 226 (target .loop i) 0 s else s
  recordTraces i n { held := true, entered := l.hold == 0, swapped := false, limited := false } s

/-- A due slot that is evaluated at this tick over the inputs that were latched (R485, R497 to R500). -/
def runSlot (i : Fin 64) (n : Nat) (y : List Int) (l : Loop) (s : State) : State :=
  let swap := swapDue l s.now
  let x : Loop × Option SwapReq := if swap then takeSwap s.stamp l else (l, none)
  let l' := { x.1 with hold := 0, fade := x.1.fade.map fun f => { f with step := f.step + 1 } }
  let old := l'.fade.map fun f => (bankOf l' (!l'.active), f.f, f.step)
  let e := evaluate l' (bankOf l' l'.active) old swap y
  let z := afterEvaluation e l'
  let s := onLoop i (fun _ => z) s
  let s := if swap then onCen (fun c => { c with swaps := upd c.swaps i fun n => (n + 1) % 65536 }) s else s
  let s := evaluationErrors i e (swap && x.1.sig.q != l.sig.q) z s
  let s := pulse 0x0800 (target .loop i) 1 s
  let lim := z.outSat.any id
  let s := if lim then pulse 0x0802 (target .loop i) 1 s else s
  let s := recordTraces i n { held := false, entered := false, swapped := swap, limited := lim } s
  let s := match x.2 with
    | some w => if w.f = 0 then completeOpt w.issue .ok s else s
    | none => s
  landGroup i (endFade i s)

/-- One slot at a base tick: nothing when it is not due. -/
def tickSlot (n : Nat) (codes : Vector Nat 64) (dues : Vector Bool 64) (inputs : Vector (List Int) 64) (s : State) (i : Fin 64) :
    State :=
  match loopAt i s with
  | none => s
  | some l => if !dues[i] then s else if codes[i] = 0 then runSlot i n inputs[i] l s else holdSlot i n codes[i] l s

/-- The set-points that LOOP_SETPOINT set take effect, and the commands complete OK (R491). -/
def takeSetpoints (s : State) (i : Fin 64) : State :=
  match loopAt i s with
  | none => s
  | some l =>
    let set' (g : LoopSignals) (r : SetRequest) : LoopSignals :=
      { g with rt := g.rt.set r.j r.target, slew := match r.slew with
        | some v => g.slew.set r.j v
        | none => g.slew }
    let s := onLoop i (fun l => { l with sig := l.sets.foldl set' l.sig, sets := [] }) s
    completeAll (l.sets.map (·.issue)) .ok s

/-- Coefficient words of active banks whose byte parity check failed (R487). -/
def takeParity (s : State) (x : Fin 64 × Fin 512) : State :=
  match loopAt x.1 s with
  | none => s
  | some l =>
    if l.parity.contains (l.active, x.2.val) then s
    else raise 227 (target .loop x.1) x.2.val (onLoop x.1 (fun l => { l with parity := l.parity ++ [(l.active, x.2.val)] }) s)

/-- The outputs of a slot that was evaluated are applied (R478, R480). -/
def applySlot (codes : Vector Nat 64) (dues : Vector Bool 64) (s : State) (i : Fin 64) : State :=
  match loopAt i s with
  | none => s
  | some l => if dues[i] && codes[i] == 0 then ((l.cfg.dst.take l.cfg.no).zip l.sig.up).foldl applyOutput s else s

/-- LOOP_TICK (R475 to R490): the next base tick. Every due slot latches its inputs, is evaluated or held, and then the outputs are
applied. `parity` are the words that fail their parity now. -/
def execLoopTick (parity : List (Fin 64 × Fin 512)) (s : State) : Host.Outcome State Fault Refusal :=
  let n := nextTick s.cen s.now
  let s := onCen (fun c => { c with tick := n }) (advanceTo (gridInstant n) s)
  let k := s.free
  let power : Vector Int 32 := Vector.ofFn fun m => portPower m (k + m.val) s
  let s := onSig (fun g => { g with tx := g.tx.map fun x => { x with power := 0, summed := 0 } }) { s with free := k + 32 }
  let s := parity.foldl takeParity ((indices 64).foldl takeSetpoints s)
  let dues : Vector Bool 64 := s.cen.slot.map fun x => x.any fun l => due s.cen.baseLog2 n l.cfg
  let s := (indices 64).foldl (fun s i => if dues[i] then onLoop i (fun l => setIntHold s (countStale s l)) s else s) s
  let first : Vector Nat 64 := updAll s.cen.slot fun i x => match x with
    | some l => if dues[i] then holdCode l s else l.hold
    | none => 0
  let codes := settleCodes dues s 64 first
  let inputs : Vector (List Int) 64 := s.cen.slot.map fun x => match x with
    | some l => (l.cfg.src.take l.cfg.ni).map (sourceValue power s)
    | none => []
  let s := (indices 64).foldl (tickSlot n codes dues inputs) s
  .next ((indices 64).foldl (applySlot codes dues) s)

end Sys2Proof.Machine
end

