-- ==== Sys2Proof/Machine/ControlCommands.lean ====
section
/-! DEFINITION. The commands of the control engine (R491, R494 to R500, R506, R507), and the LOOPS section taking effect (R501 to R503). -/
namespace Sys2Proof.Machine
open Sys2Proof

/-! ### LOOP_WRITE (R494 to R496) -/

/-- The first byte of the parameters: 12, or 20 behind an indirect address (R64, R494). -/
def paramStart (d : Desc) : Nat := if d.indirect then 20 else 12

/-- The bytes that an indirect address takes. -/
def addressBytes (d : Desc) : List (Nat × Nat) := if d.indirect then [(12, 8)] else []

/-- The enabled slot that a target names. -/
def loopTarget (d : Desc) (s : State) : Option (Fin 64 × Loop) :=
  (d.unit .loop 64).bind fun i => (loopAt i s).map fun l => (i, l)

/-- The checks of LOOP_WRITE on its descriptor (R494). -/
def loopWriteCheck (d : Desc) (s : State) : Option Refuse :=
  let p := paramStart d
  let start := d.u (p + 2) 2
  let count := d.u (p + 4) 2
  let most := if d.indirect then 512 else 8
  firstFail
    [(d.indirect && d.length.toNat != 4 * count, badParam 4),
     ((loopTarget d s).isNone, badParam 8),
     (1 < d.byte p, badParam p),
     (511 < start, badParam (p + 2)),
     (count = 0 || most < count || 512 < start + count, badParam (p + 4)),
     d.strayCheck (addressBytes d ++ [(p, 1), (p + 2, 4)] ++ if d.indirect then [] else [(p + 12, 4 * count)])]

/-- The data words of a LOOP_WRITE: from the descriptor, or from its buffer (R494). -/
def loopWords (d : Desc) (bs : List Byte) : List Int :=
  let p := paramStart d
  let count := d.u (p + 4) 2
  (List.range count).map fun i => if d.indirect then signed 32 (leAt bs (4 * i) 4) else d.s (p + 12 + 4 * i) 4

/-- A write that is legal and may land (R495): whole, or its first group now and the rest between later evaluations. -/
def startWrite (i : Fin 64) (bank : Bool) (start : Nat) (words : List Int) (iss : Issue) (l : Loop) (s : State) : State :=
  if bank ≠ l.active ∨ words.length ≤ 8 then complete iss .ok (onLoop i (putWords bank start words) s)
  else
    onLoop i (fun l =>
      { putWords bank start (words.take 8) l with
        writes := l.writes ++ [{ bank := bank, start := start + 8, words := words.drop 8, issue := iss }] }) s

/-- LOOP_WRITE (R493 to R496). -/
def execLoopWrite (d : Desc) (s : State) : Host.Outcome State Fault Refusal :=
  .next (hostCommand 0x28 (.loopWrite d) d (fun iss s =>
    match loopWriteCheck d s, loopTarget d s, if d.indirect then d.bytes else some [] with
    | some r, _, _ => refuse iss r s
    | none, _, none => bufferError iss s
    | none, none, some _ => refuse iss (badParam 8) s
    | none, some (i, l), some bs =>
      let bank := d.byte (paramStart d) == 1
      let start := d.u (paramStart d + 2) 2
      let words := loopWords d bs
      if !bankOk (bankOf (putWords bank start words l) bank) then refuse iss (badParam 0xFFFF) s
      else if l.fade.isSome || l.swap.isSome then refuse iss (refuseTarget .rejectedBusy d.tgt) s
      else startWrite i bank start words iss l s) s)

/-! ### LOOP_SWAP (R497, R500) -/

/-- The checks of LOOP_SWAP. -/
def loopSwapCheck (d : Desc) (s : State) : Option Refuse :=
  firstFail
    [(d.indirect, badParam 1),
     ((loopTarget d s).isNone, badParam 8),
     (8 < d.byte 20, badParam 20),
     d.strayCheck [(12, 9)],
     ((loopTarget d s).any fun x => x.2.swap.isSome, refuseTarget .rejectedBusy d.tgt)]

/-- LOOP_SWAP (R497, R500): the swap waits for its boundary; one that arrives during a fade waits for its end. -/
def execLoopSwap (d : Desc) (s : State) : Host.Outcome State Fault Refusal :=
  .next (hostCommand 0x29 (.loopSwap d) d (fun iss s =>
    match loopSwapCheck d s, d.unit .loop 64 with
    | some r, _ => refuse iss r s
    | none, none => refuse iss (badParam 8) s
    | none, some i =>
      let req : SwapReq := { instant := instantOrNow (d.u 12 8) s, f := d.byte 20, issue := some iss }
      onLoop i (fun l => { l with swap := some req }) s) s)

/-! ### LOOP_SETPOINT (R480, R491) -/

/-- Does a loop output drive a set-point (R480)? -/
def setpointDriven (i : Fin 64) (j : Nat) (s : State) : Bool :=
  anyOf s.cen.slot fun x => x.any fun l => (destsOf l.cfg).any fun d => d == .setpoint i j

/-- The checks of LOOP_SETPOINT. -/
def loopSetpointCheck (d : Desc) (s : State) : Option Refuse :=
  firstFail
    [(d.indirect, badParam 1),
     ((loopTarget d s).isNone, badParam 8),
     ((loopTarget d s).any fun x => decide (x.2.cfg.ni ≤ d.byte 12), badParam 12),
     (1 < d.byte 13, badParam 13),
     (d.byte 13 == 0 && d.u 20 4 != 0, badParam 20),
     d.strayCheck [(12, 2), (16, 8)],
     ((d.unit .loop 64).any fun i => setpointDriven i (d.byte 12) s, refuseTarget .busyOwned d.tgt)]

/-- LOOP_SETPOINT (R491): the target takes effect at the next base tick, where the command completes OK. -/
def execLoopSetpoint (d : Desc) (s : State) : Host.Outcome State Fault Refusal :=
  .next (hostCommand 0x2A (.loopSetpoint d) d (fun iss s =>
    match loopSetpointCheck d s, d.unit .loop 64 with
    | some r, _ => refuse iss r s
    | none, none => refuse iss (badParam 8) s
    | none, some i =>
      let req : SetRequest :=
        { j := d.byte 12, target := d.s 16 4, slew := if d.byte 13 = 1 then some (d.u 20 4) else none, issue := iss }
      onLoop i (fun l => { l with sets := l.sets ++ [req] }) s) s)

/-! ### TRACE_ARM (R506, R507) -/

/-- The checks of TRACE_ARM. -/
def traceArmCheck (d : Desc) (s : State) : Option Refuse :=
  let p := paramStart d
  firstFail
    [(d.indirect && d.length.toNat != 131072, badParam 4),
     ((d.unit .loop 64).isNone || (d.byte (p + 1) != 5 && (loopTarget d s).isNone), badParam 8),
     (15 < d.byte p, badParam p),
     (5 < d.byte (p + 1), badParam (p + 1)),
     (7 < d.byte (p + 2), badParam (p + 2)),
     (63 < d.byte (p + 4), badParam (p + 4)),
     (63 < d.byte (p + 5), badParam (p + 5)),
     (63 < d.byte (p + 6), badParam (p + 6)),
     (63 < d.byte (p + 7), badParam (p + 7)),
     (d.byte (p + 1) != 1 && d.u (p + 8) 8 != 0, badParam (p + 8)),
     (d.u (p + 16) 2 == 0, badParam (p + 16)),
     d.strayCheck (addressBytes d ++ [(p, 3), (p + 4, 14)]),
     (ownedByOther 0x0A (d.byte p) s, refuseTarget .busyOwned d.tgt)]

/-- A change of one trace buffer. -/
def onTrace (b : Fin 16) (f : Trace → Trace) (s : State) : State := onCen (fun c => { c with trace := upd c.trace b f }) s

/-- The buffer as an arming leaves it (R506). -/
def armedTrace (d : Desc) (slot : Fin 64) (iss : Issue) (now : Nat) : Trace :=
  let p := paramStart d
  { armed := some iss
    address := if d.indirect then some (d.u 12 8) else none
    continuous := false
    slot := slot
    sel := [d.byte (p + 4), d.byte (p + 5), d.byte (p + 6), d.byte (p + 7)]
    decim := d.u (p + 16) 2
    trigger := d.byte (p + 1)
    pre := d.byte (p + 2)
    instant := instantOf now (d.u (p + 8) 8)
    triggered := false, skip := 0, entries := [], next := 0 }

/-- TRACE_ARM (R506, R507): the earlier arming of the buffer is superseded. -/
def execTraceArm (d : Desc) (s : State) : Host.Outcome State Fault Refusal :=
  .next (hostCommand 0x2B (.traceArm d) d (fun iss s =>
    match traceArmCheck d s, d.unit .loop 64, finOf 16 (d.byte (paramStart d)) with
    | some r, _, _ => refuse iss r s
    | none, some i, some b =>
      let s := completeOpt (s.cen.trace[b]).armed .superseded s
      if d.byte (paramStart d + 1) = 5 then complete iss .ok (onTrace b (fun t => { t with armed := none }) s)
      else onTrace b (fun _ => armedTrace d i iss s.now) s
    | none, _, _ => refuse iss (badParam 8) s) s)

/-! ### The LOOPS section takes effect (R501 to R503) -/

/-- The commands that wait on a slot complete with a status, and nothing of them remains. -/
def endLoopCommands (i : Fin 64) (swaps fades : Bool) (s : State) : State :=
  match loopAt i s with
  | none => s
  | some l =>
    let s := completeAll ((l.sets.map (·.issue)) ++ l.writes.map (·.issue)) .superseded s
    let s := if swaps then completeOpt (l.swap.bind (·.issue)) .superseded s else s
    let s := if fades then completeOpt (l.fade.bind (·.issue)) .superseded s else s
    onLoop i (fun l => { l with
      sets := [], writes := [], swap := if swaps then none else l.swap, fade := if fades then none else l.fade }) s

/-- The traces of a slot that stops or restarts: an armed one completes TIMEOUT, and its entries remain (R507). -/
def endTraces (i : Fin 64) (s : State) : State :=
  (indices 16).foldl (fun (s : State) (b : Fin 16) =>
    let t := s.cen.trace[b]
    if t.slot = i ∧ t.armed.isSome then completeOpt t.armed .timeout (onTrace b (fun t => { t with armed := none }) s) else s) s

/-- Do two entries have the same structure (R502)? -/
def sameStructure (a b : LoopCfg) : Bool :=
  a.outer == b.outer && a.m == b.m && a.ns == b.ns && a.ni == b.ni && a.no == b.no && a.src == b.src && a.dst == b.dst
    && a.hold == b.hold

/-- The present value of a destination (R502). -/
def presentOutput (s : State) (code : Nat) : Int :=
  match destOf code with
  | some (.gain m) => ((s.dfe.duc[m]).gain : Nat)
  | some (.bias c) => (((s.cen.biasSent[c]).getD 0 : Nat) : Int)
  | some (.setpoint l j) => ((loopAt l s).map fun x => sigAt x.sig.rt j).getD 0
  | _ => 0

/-- A new slot, or one whose structure changed (R502). Where its ramped set-points start is not stated: they are free values. -/
def freshLoop (e : LoopEntry) (s : State) : Loop :=
  let c := e.cfg
  let zeros (n : Nat) : List Int := List.replicate n 0
  { cfg := c, a := e.bank, b := zeros 512, active := false
    sig := { rt := e.targets.take c.ni, slew := e.slews.take c.ni, r := (List.range c.ni).map fun j => freeRamp (s.free + j)
             xh := zeros c.ns
             q := ((e.qInit.take c.ni).zipIdx).map fun x =>
               clampInt (wordAt e.bank (328 + x.2)) (wordAt e.bank (332 + x.2)) x.1
             up := (c.dst.take c.no).map (presentOutput s), ur := zeros c.no, y := zeros c.ni, v := zeros c.ni }
    wasHeld := List.replicate c.ni false, hold := 0, intHold := false, cap := zeros c.no
    staleRun := List.replicate c.ni 0, seen := List.replicate c.ni 0, limRun := List.replicate c.no 0
    outSat := List.replicate c.no false, fade := none, swap := none, sets := [], writes := [], parity := []
    limited := 0, accSat := false, clamped := false, swapTime := 0 }

/-- A slot that keeps running takes its new entry (R502, R503): the bank goes to the inactive bank and is swapped in at T. -/
def keepLoop (e : LoopEntry) (t : Nat) (l : Loop) : Loop :=
  let l := putWords (!l.active) 0 e.bank l
  { l with
    cfg := e.cfg
    sig := { l.sig with rt := e.targets.take e.cfg.ni, slew := e.slews.take e.cfg.ni }
    swap := some { instant := t, f := e.cfg.fade, issue := none } }

/-- One slot at a commit's T (R502). -/
def installSlot (sec : LoopsSection) (t : Nat) (s : State) (i : Fin 64) : State :=
  match sec.slots.find? (fun e => e.slot == i), loopAt i s with
  | none, none => s
  | none, some _ => onCen (fun c => { c with slot := c.slot.set i none }) (endTraces i (endLoopCommands i true true s))
  | some e, some l =>
    if sameStructure e.cfg l.cfg then onLoop i (keepLoop e t) (endLoopCommands i true false s)
    else
      let s := endTraces i (endLoopCommands i true true s)
      let x := freshLoop e s
      onCen (fun c => { c with slot := c.slot.set i (some x) }) { s with free := s.free + 4 }
  | some e, none => onCen (fun c => { c with slot := c.slot.set i (some (freshLoop e s)) }) { s with free := s.free + 4 }

/-- A trace buffer at a commit's T (R505): an entry makes it a continuous ring; a ring without an entry stops. -/
def installTrace (sec : LoopsSection) (s : State) (b : Fin 16) : State :=
  match sec.traces.find? fun e => e.buffer == b with
  | some e =>
    let s := completeOpt (s.cen.trace[b]).armed .superseded s
    onTrace b (fun t => { t with
      armed := none, address := none, continuous := true, slot := e.slot, sel := e.sel, decim := e.decim, triggered := false
      skip := 0, entries := [], next := 0 }) s
  | none => onTrace b (fun t => { t with continuous := false }) s

/-- The LOOPS section takes effect at T (R501 to R503). -/
def installLoops (sec : LoopsSection) (t : Nat) (s : State) : State :=
  let s := onCen (fun c => { c with baseLog2 := sec.baseLog2 }) s
  let s := (indices 64).foldl (installSlot sec t) s
  (indices 16).foldl (installTrace sec) s

end Sys2Proof.Machine
end

