-- ==== Sys2Proof/Machine/TimeEvents.lean ====
section
/-! DEFINITION. Commands and events of station time, the pattern timers and pattern inference (R370 to R401). -/
namespace Sys2Proof.Machine
open Sys2Proof

/-! ### Reading time, sources and loss (R371, R372, R378) -/

/-- Bits [31:0] of R370: ns and fraction. -/
def nowNs (s : State) : Nat := s.now % qSecond

/-- TIM_NOW_NS_READ (R371): the seconds of the same instant are latched. -/
def execTimNowNsRead (fn : Fn) (s : State) : Host.Outcome State Fault Refusal :=
  .next (viaBar fn (fun s =>
    emit (.readData fn (nowNs s)) (onTime (fun t => { t with latchedSec := t.q / qSecond }) s)) s)

/-- An ALIGNED part enters HOLDOVER, which raises source 163 (R372, R378, R434). -/
def enterHoldover (s : State) : State :=
  if s.time.state = .aligned then raise 163 0 0 (onTime (fun t => { t with state := .holdover }) s) else s

/-- TIME_SOURCE_CHANGE (R372). -/
def execTimeSourceChange (source : Bool) (s : State) : Host.Outcome State Fault Refusal :=
  if s.time.source = source then .next s
  else .next (enterHoldover (onTime (fun t => { t with source := source }) s))

/-- PPS_LOSS (R378): 1.1 s after the last accepted edge. -/
def execPpsLoss (s : State) : Host.Outcome State Fault Refusal :=
  if s.time.state = .aligned then
    .next (enterHoldover (elapse (s.time.lastEdge + 4400000000 - s.time.mono) s))
  else .next s

/-! ### Pulses (R375 to R377, R384) -/

/-- PPS_EDGE (R375 to R377): a pulse whose timing edge is captured at `capture`, `width` ns wide, with its active time in ns. A pulse below
100 ns counts as a stray; a toggle of the polarity takes the pulse's other edge. -/
def execPpsEdge (capture width active : Nat) (s : State) : Host.Outcome State Fault Refusal :=
  if s.time.source then .next s
  else
    let s := advanceTo capture s
    if width < 100 then .next (raise 165 0 0 (onTime (fun t => { t with strays := satAdd 255 t.strays 1 }) s))
    else
      let s := takeEdge capture s.time.ppsDelay .ppsAlign (onTime (fun t => { t with linkAccuracy := none }) s)
      let (t, toggled) := judgePolarity active s.time
      let s := onTime (fun _ => t) s
      if toggled then
        let s := advanceTo (capture + 4 * active) (raise 162 0 0 s)
        .next (takeEdge (capture + 4 * active) s.time.ppsDelay .ppsAlign s)
      else .next s

/-- The next instant that is a whole second plus an offset in ns. -/
def nextSecond (offset : Int) (t : Nat) : Nat :=
  let base := (t : Int) - 4 * offset
  let k := (base + (qSecond - 1 : Nat)) / (qSecond : Int)
  (k * (qSecond : Int) + 4 * offset).toNat

/-- Does PPS_OUT pulse now (R384)? DEDUCED: the bound of 1.5 µs is on HOLDOVER. -/
def ppsOutRuns (t : StationTime) : Bool :=
  match t.outMode with
  | 0 => false
  | 1 => (match t.state with
    | .unaligned => false
    | .holdover => !estimateOver (estimateOf t)
    | _ => true)
  | 2 => true
  | _ => false

/-- PPS_OUT_PULSE (R384): the next whole second plus offset comes. -/
def execPpsOutPulse (s : State) : Host.Outcome State Fault Refusal :=
  let s := advanceTo (nextSecond s.time.outOffset s.now) s
  if ppsOutRuns s.time then .next (emit (.ppsPulse s.time.outPolarity s.time.outWidth) s) else .next s

/-- The longest switch time of the pairs bound to a timer (R387). -/
def timerSwitch (i : Fin 8) (s : State) : Nat :=
  (indices 32).foldl (fun n m => if pairTimer m s = some i then max n (switchTime m s) else n) 0

/-- Every pair in the phase that its pattern demands now, and outputs and strobes with them. -/
def settlePairs (s : State) : State :=
  settle (onTdd (fun t => { t with pairs := updAll t.pairs fun m x => { x with transmitting := transmitPhase m s.now s } }) s)

/-- TDD_SWITCH (R213, R391): the pair switches; leads, lags and the ramp follow by timing. -/
def execTddSwitch (pair : Fin 32) (s : State) : Host.Outcome State Fault Refusal :=
  match nextSwitch pair s with
  | none => .next s
  | some t =>
    let s := advanceTo t s
    .next (settle (onTdd (fun x => { x with pairs := upd x.pairs pair fun y => { y with transmitting := transmitPhase pair t s } }) s))

/-! ### Pattern timers (R390, R393) -/

/-- A change of one timer. -/
def onTimer (i : Fin 8) (f : PatternTimer → PatternTimer) (s : State) : State :=
  onTdd (fun t => { t with timers := upd t.timers i f }) s

/-- A pair takes the side and shift that wait for its timer. -/
def takeSide (x : TddPair) : TddPair :=
  match x.next with
  | some n => { x with side := n.1, shift := n.2, next := none }
  | none => x

/-- The pairs bound to a timer take the sides and shifts that wait for its start (R394). -/
def takeSides (i : Fin 8) (s : State) : State :=
  onTdd (fun t => { t with pairs := updAll t.pairs fun m x => if pairTimer m s = some i then takeSide x else x }) s

/-- A period of a timer starts (R351, R390, R394). -/
def periodStarts (i : Fin 8) (s : State) : State :=
  timingRelease i (settlePairs (takeSides i (onTimer i (fun x => { x with state := .running }) s)))

/-- The new pattern of a change goes live (R393); without one the timer has no pattern. -/
def patternLive (i : Fin 8) (c : PatternChange) (s : State) : State :=
  let s := onTimer i (fun x => { x with incoming := none, pattern := c.pattern }) s
  let s := match c.pattern with
    | some _ => periodStarts i s
    | none => settlePairs (onTimer i (fun x => { x with state := .none }) s)
  completeOpt c.issue .ok s

/-- A change reaches X: the old pattern ends, and the transition gap lasts until the new one's first period start (R393). -/
def reachX (i : Fin 8) (c : PatternChange) (s : State) : State :=
  let starts := match c.pattern with
    | some p => nextStart p s.now == s.now
    | none => true
  if starts then patternLive i c (onTimer i (fun x => { x with change := none }) s)
  else settlePairs (onTimer i (fun x => { x with state := .transition, change := none, incoming := some c }) s)

/-- PATTERN_PERIOD_START (R393): the timer's next start, or the X of a change on a timer without a pattern. -/
def execPatternPeriodStart (timer : Fin 8) (s : State) : Host.Outcome State Fault Refusal :=
  let x := s.tdd.timers[timer]
  match x.incoming, x.pattern, x.change with
  | some c, _, _ =>
    match c.pattern with
    | some p => .next (patternLive timer c (advanceTo (nextStart p (max s.now c.x)) s))
    | none => .next (patternLive timer c s)
  | none, some p, c =>
    let t := nextStart p s.now
    let s := advanceTo t s
    match c with
    | some c => if c.x ≤ t then .next (reachX timer c s) else .next (periodStarts timer s)
    | none => .next (periodStarts timer s)
  | none, none, some c => .next (reachX timer c (advanceTo c.x s))
  | none, none, none => .next s

/-- A pattern change is asked for a timer (R393): it replaces one that has not reached X, which completes SUPERSEDED. -/
def askPattern (i : Fin 8) (p : Option Pattern) (instant : Nat) (iss : Option Issue) (s : State) : State :=
  let old := (s.tdd.timers[i]).change
  let c : PatternChange := { pattern := p, x := max instant (s.now + 4000000), issue := iss }
  let s := onTimer i (fun x => { x with change := some c }) s
  completeOpt (old.bind (·.issue)) .superseded s

/-- TDD_PATTERN_SET's checks (R387, R392, R394). A buffer that holds no valid entry names no descriptor field. -/
def patternSetCheck (d : Desc) (bs : List Byte) (s : State) : Option Refuse :=
  match firstFail [(!d.indirect, badParam 1), (d.tgt != 0, badParam 8), (decide (7 < d.u 20 1), badParam 20),
      d.strayCheck [(12, 9), (24, 8)]], patternOf bs with
  | some r, _ => some r
  | none, none => some (badParam 0xFFFF)
  | none, some (i, p) =>
    if i.val ≠ d.u 20 1 then some (badParam 20)
    else if bs.length ≠ patternLength p.segs.length ∨ !patternValid p (timerSwitch i s) then some (badParam 0xFFFF)
    else if s.cfg.owners.any fun o => o.cls == 0x07 && o.index == i.val && o.feature != 0x03 then some (refuseTarget .busyOwned 0)
    else none

/-- TDD_PATTERN_SET (R392, R393). -/
def execTddPatternSet (d : Desc) (s : State) : Host.Outcome State Fault Refusal :=
  .next (hostCommand 0x09 (.tddPatternSet d) d (fun iss s =>
    match d.bytes with
    | none => if d.indirect then bufferError iss s else refuse iss (badParam 1) s
    | some bs =>
      match patternSetCheck d bs s, patternOf bs with
      | some r, _ => refuse iss r s
      | none, some (i, p) => askPattern i (some p) (instantOrNow (d.u 24 8) s) (some iss) s
      | none, none => refuse iss (badParam 0xFFFF) s) s)

/-! ### Steps (R379 to R383, R390, R692) -/

/-- TIME_SET's parameter checks (R382, R383, R692). -/
def timeSetCheck (d : Desc) : Option Refuse :=
  let mode := d.u 12 1
  firstFail
    [(d.indirect, badParam 1), (d.tgt != 0, badParam 8), (decide (2 < mode), badParam 12), d.strayCheck [(12, 1), (16, 10), (28, 4)],
     (mode == 0 && decide (1000000000 ≤ d.u 16 4 / 4), badParam 16), (mode == 1 && d.u 16 4 != 0, badParam 16),
     (mode == 2 && d.u 24 2 != 0, badParam 24), (mode == 1 && d.u 28 4 != 0, badParam 28), (decide (1000000 < d.u 28 4), badParam 28)]

/-- The step that TIME_SET mode 0 decides: the counter takes a value at the first strobe after execution. -/
def setStep (iss : Issue) (value accuracy : Nat) (s : State) : PendingStep :=
  let strobe := strobeAt (s.now + 1)
  { delta := (value : Int) - strobe, toValue := some value, strobe := strobe, cause := .setMode0, newState := .set
    baseError := 4 * accuracy, edge := none, issue := some iss }

/-- The step that TIME_SET mode 2 decides. -/
def relStep (iss : Issue) (delta : Int) (accuracy : Nat) (s : State) : PendingStep :=
  { delta := delta, toValue := none, strobe := stepStrobe s.tdd delta s.now, cause := .setMode2, newState := .set
    baseError := 4 * accuracy, edge := none, issue := some iss }

/-- TIME_SET with valid fields (R383). A set while another step is pending completes REJECTED_BUSY (DESIGN CHOICE). -/
def timeSet (iss : Issue) (d : Desc) (s : State) : State :=
  let busy := s.time.step.isSome
  let put (p : PendingStep) : State := onTime (fun t => { t with step := some p }) s
  match d.u 12 1 with
  | 1 =>
    let old := (s.time.seconds).map (·.issue)
    completeOpt old .superseded (onTime (fun t => { t with seconds := some { seconds := d.u 20 6, issue := iss } }) s)
  | 0 =>
    if s.time.state = .aligned then refuse iss (refusal .busyOwned) s
    else if busy then refuse iss (refusal .rejectedBusy) s
    else put (setStep iss (d.u 20 6 * qSecond + d.u 16 4) (d.u 28 4) s)
  | _ =>
    let p := relStep iss (d.s 16 8) (d.u 28 4) s
    if (p.strobe : Int) + p.delta < 0 then refuse iss (badParam 16) s
    else if s.time.state = .aligned then refuse iss (refusal .busyOwned) s
    else if busy then refuse iss (refusal .rejectedBusy) s
    else put p

/-- TIME_SET (R382, R383). -/
def execTimeSet (d : Desc) (s : State) : Host.Outcome State Fault Refusal :=
  .next (hostCommand 0x08 (.timeSet d) d (fun iss s =>
    match timeSetCheck d with
    | some r => refuse iss r s
    | none => timeSet iss d s) s)

/-- TIME_SET_TIMEOUT (R383): no edge was accepted within 2 s. -/
def execTimeSetTimeout (s : State) : Host.Outcome State Fault Refusal :=
  match s.time.seconds with
  | none => .next s
  | some p => .next (refuse p.issue (refusal .timeout) (onTime (fun t => { t with seconds := none }) s))

/-- The timers after a step (R390): below 1 µs they continue, otherwise each enters a re-phase gap. -/
def timersStep (d : Int) (s : State) : State :=
  if d.natAbs < 4000 then s
  else settlePairs (onTdd (fun t => { t with timers := t.timers.map fun x =>
    if x.pattern.isSome && x.state == .running then { x with state := .rephase } else x }) s)

/-- Do a path's two ports run STATION NCOs, or share a centre (R329)? DESIGN CHOICE: of a path with a fronthaul sink, only the RX port
counts. -/
def tapsHold (d : SliceDef) (p : PathId) (s : State) : Bool :=
  match rxOf (srcOf d p), txOf (sinkOf d p) with
  | some r, some t =>
    ((s.dfe.ddc[r]).station && (s.dfe.duc[t]).station) || ((s.dfe.rxCentre[r]).isSome && s.dfe.rxCentre[r] == s.dfe.txCentre[t])
  | some r, none => (s.dfe.ddc[r]).station
  | none, _ => true

/-- The canceller of a path after a step (R329): suspended for L_loop + N_fc × T_s, and reset unless its taps hold. -/
def cancellerStep (d : SliceDef) (p : PathId) (x : CancelParams) (s : State) (c : Canceller) : Canceller :=
  if !c.present then c
  else
    let c := { c with suspendUntil := s.time.mono + (loopLatency d p c.loopExt + 9) / 10 + d.nFc * samplePeriod d }
    if tapsHold d p s then c else resetCanceller x c

/-- Every canceller after a step. -/
def cancellersStep (s : State) : State :=
  (indices 256).foldl (fun s sl => match (s.slices.slice[sl]).live with
    | none => s
    | some x => onCanceller sl .b (cancellerStep x.defn .b x.canB s) (onCanceller sl .a (cancellerStep x.defn .a x.canA s) s)) s

/-- A decided step is applied (R379 to R381): the counter moves, the epoch may advance, the record carries both, source 161 reports it,
and 160 reports an alignment. -/
def applyStep (p : PendingStep) (s : State) : State :=
  let s := advanceTo p.strobe s
  let old := s.time.q
  let new := p.toValue.getD (shiftTime old p.delta)
  let d : Int := (new : Int) - old
  let epoch := if epochMoves d then (s.time.epoch + 1) % 65536 else s.time.epoch
  let oldEpoch := s.time.epoch
  let aligned := p.newState == .aligned && s.time.state != .aligned
  let s := onTime (fun t => { t with
    q := new, epoch := epoch, state := p.newState, baseError := p.baseError, lastEdge := p.edge.getD t.mono, step := none
    linkAccuracy := if p.newState = .set then none else t.linkAccuracy }) s
  let code : Nat := match p.cause with
    | .ppsAlign => 0
    | .setMode0 => 1
    | .setMode1 => 2
    | .setMode2 => 3
    | .fronthaul => 4
  let s := notify 161 0 0 (recordNow (.timeStep old oldEpoch new epoch code) s)
  let s := if aligned then notify 160 0 0 s else s
  completeOpt p.issue .ok (cancellersStep (timersStep d s))

/-- TIME_STEP (R379). -/
def execTimeStep (s : State) : Host.Outcome State Fault Refusal :=
  match s.time.step with
  | none => .next s
  | some p => .next (applyStep p s)

/-- The estimate brought up to date (R374): a rise above 1.5 µs raises source 164, but not while UNALIGNED, and TDD_TIMING follows
(R350). -/
def updateError (s : State) : State :=
  let e := estimateOf s.time
  let beyond := estimateOver e
  let rose := beyond && !s.time.errorOver && s.time.state != .unaligned
  let s := onTime (fun t => { t with estimate := e, errorOver := beyond }) s
  let s := if rose then raise 164 0 0 s else s
  if beyond then timingMute false s else s

/-- ERROR_UPDATE (R374): the next millisecond of station time comes. -/
def execErrorUpdate (s : State) : Host.Outcome State Fault Refusal := .next (updateError (advanceTo (ceilTo 4000000 s.now) s))

/-! ### Inference (R395 to R398) -/

/-- May a slice be observed (R395): DL or TDD, with an RX port as path A's source? -/
def observable (sl : SliceId) (s : State) : Bool :=
  match liveDef sl s with
  | none => false
  | some d => d.direction != .ul && srcIsRx d .a

/-- TDD_INFER's checks (R395). -/
def inferCheck (d : Desc) (s : State) : Option Refuse :=
  let range (lo hi v : Nat) : Bool := v == 0 || (decide (lo ≤ v) && decide (v ≤ hi))
  match firstFail [(d.indirect, badParam 1), (!((d.unit .slice 256).any fun sl => observable sl s), badParam 8),
      (decide (7 < d.u 12 1), badParam 12), (!range 20 2000 (d.u 14 2), badParam 14), (!range 100 10000 (d.u 16 2), badParam 16),
      d.strayCheck [(12, 1), (14, 4)]] with
  | some r => some r
  | none => if s.tdd.infer.isSome then some (refusal .rejectedBusy) else none

/-- TDD_INFER (R395). -/
def execTddInfer (d : Desc) (s : State) : Host.Outcome State Fault Refusal :=
  .next (hostCommand 0x0A (.tddInfer d) d (fun iss s =>
    match inferCheck d s, d.unit .slice 256, finOf 8 (d.u 12 1) with
    | some r, _, _ => refuse iss r s
    | none, some sl, some i =>
      let x : Inference :=
        { issue := some iss, slice := sl, timer := i, gap := if d.u 16 2 = 0 then 1000 else d.u 16 2
          observe := if d.u 14 2 = 0 then 200 else d.u 14 2, start := none, bins := [] }
      onTdd (fun t => { t with infer := some x }) s
    | none, _, _ => refuse iss (badParam 8) s) s)

/-- INFER_INTERVAL (R398): a periodic inference starts with the defaults, unless one runs or its slice cannot be observed. -/
def execInferInterval (timer : Fin 8) (s : State) : Host.Outcome State Fault Refusal :=
  match (s.tdd.timers[timer]).pattern with
  | none => .next s
  | some p =>
    if p.inferInterval = 0 ∨ s.tdd.infer.isSome = true ∨ observable p.inferSlice s = false then .next s
    else
      let x : Inference := { issue := none, slice := p.inferSlice, timer := timer, gap := 1000, observe := 200, start := none, bins := [] }
      .next (onTdd (fun t => { t with infer := some x }) s)

/-- The edges of a list of segments from an offset, in ns. -/
def segmentEdges (offset : Nat) (l : List Segment) : List (Nat × SegType) :=
  (l.foldl (fun (a : Nat × List (Nat × SegType)) g => (a.1 + g.dur, a.2 ++ [(a.1, g.typ)])) (offset, [])).2

/-- Do two proposals agree to within one bin at every edge (R398)? -/
def proposalsAgree (a b : Proposal) : Bool :=
  let x := segmentEdges a.offset a.segs
  let y := segmentEdges b.offset b.segs
  let bin := max a.binLen b.binLen
  a.period == b.period && x.length == y.length
    && (x.zip y).all fun p => p.1.2 == p.2.2 && decide (max p.1.1 p.2.1 - min p.1.1 p.2.1 ≤ bin)

/-- A proposal as a pattern; what it does not say is kept from the running one. -/
def proposedPattern (x : Proposal) (old : Pattern) : Pattern := { old with period := x.period, offset := x.offset, segs := x.segs }

/-- Two successive proposals that agree and differ from the running pattern are applied when auto_adopt is 1 (R398). -/
def adopts (x : Proposal) (s : State) : Option Pattern :=
  let t := s.tdd.timers[x.timer]
  match t.pattern, t.lastProposal with
  | some p, some last =>
    let new := proposedPattern x p
    if p.autoAdopt && proposalsAgree x last && (new != p) then some new else none
  | _, _ => none

/-- A valid proposal is published (R397, R398): notification 166 says by its detail whether it was adopted. -/
def publishProposal (periodic : Bool) (x : Proposal) (s : State) : State :=
  let take := if periodic then adopts x s else none
  let s := onTdd (fun t => { t with proposal := some x, adopted := take.isSome }) s
  let s := if periodic then onTimer x.timer (fun t => { t with lastProposal := some x }) s else s
  let s := match take with
    | some p => askPattern x.timer (some p) s.now none s
    | none => s
  notify 166 0 (bit take.isSome) s

/-- INFER_DONE (R396, R397): the observation ends, and what its bins give is proposed. -/
def execInferDone (s : State) : Host.Outcome State Fault Refusal :=
  match s.tdd.infer with
  | none => .next s
  | some x =>
    let k := ((liveDef x.slice s).map (·.k)).getD 0
    let s := onTdd (fun t => { t with infer := none }) s
    let found := (inferProposal x.timer x.gap (inferBin k) (x.start.getD 0 / 4) x.bins.reverse).filter fun y =>
      patternValid { period := y.period, offset := y.offset, segs := y.segs, autoAdopt := false, inferSlice := 0, inferInterval := 0 }
        (timerSwitch x.timer s)
    match found with
    | some y => .next (completeOpt x.issue .ok (publishProposal x.issue.isNone y s))
    | none =>
      let s := onTdd (fun t => { t with proposal := none }) s
      .next (match x.issue with
        | some i => refuse i (refusal .timeout) s
        | none => s)

end Sys2Proof.Machine
end

