-- ==== Sys2Proof/Machine/Lanes.lean ====
section
/-! DEFINITION. Lanes and links (R402 to R413, R432 to R439). -/
namespace Sys2Proof.Machine
open Sys2Proof

/-! ### Failover and the time-source link -/

/-- Has a link a lane UP? -/
def anyLaneUp (g : Fin 16) (s : State) : Bool :=
  (indices 64).any fun l => (s.lnk.lane[l]).cfg.link == some g && (s.lnk.lane[l]).state == .up

/-- The time-source link (R434): the lowest-index one with time_source set that has a lane UP. -/
def timeLinkChoice (s : State) : Option (Fin 16) :=
  (indices 16).find? fun g => (s.lnk.link[g]).cfg.timeSource && anyLaneUp g s

/-- The time-source link brought up to date (R434): when it changes or none remains, errors 163 and 200 are raised and station time that
follows it enters HOLDOVER. -/
def settleTimeLink (s : State) : State :=
  let c := timeLinkChoice s
  let old := s.lnk.timeLink
  if c = old then s
  else
    let s := onLnk (fun x => { x with timeLink := c }) s
    if old.isNone ∨ s.time.source = false then s
    else
      let s := raise 200 0 0 s
      if s.time.state = .aligned then enterHoldover s else raise 163 0 0 s

/-- An UP spare of a link that can take a lane's feeds; the lowest index (DESIGN CHOICE). -/
def spareOf (g : Fin 16) (s : State) : Option (Fin 64) := (indices 64).find? fun l => spareLane g l s

/-- A feed of lane `l` moves to lane `x` when it may. -/
def moveFeed (fits : Bool) (l x : Fin 64) (f : Feed) : Feed := if f.lane = some l ∧ fits = true then { f with lane := some x } else f

/-- A lane's feeds move to a spare of its link, which becomes a data lane (R435, notification 193); feeds that do not fit go to the other data
lanes or are shed (R436). -/
def failover (l : Fin 64) (s : State) : State :=
  match (s.lnk.lane[l]).cfg.link with
  | none => s
  | some g =>
    let s := match carryingLane l s, spareOf g s with
      | true, some x =>
        let s := onLane x (fun y => { y with data := true }) s
        let fits := decide (laneUsed l s ≤ laneCapacity (s.lnk.lane[x]).cfg)
        let s := onLnk (fun y => { y with feeds := y.feeds.map (moveFeed fits l x) }) s
        notify 193 (target .lane l) 0 s
      | _, _ => s
    placeFeeds s

/-- A lane of a link without a data lane UP becomes the link's data lane (R435). -/
def becomeData (l : Fin 64) (s : State) : State :=
  match (s.lnk.lane[l]).cfg.link with
  | none => s
  | some g =>
    if linkUp g s || (s.lnk.lane[l]).state != .up then s
    else placeFeeds (onLane l (fun x => { x with data := true, recovering := false }) s)

/-- A lane starts training at step 1 (R404, R407). -/
def trainLane (l : Fin 64) (s : State) : State :=
  onLane l (fun x => { x with
    state := .training, band := ((s.thm.zone[5]).band).getD 0, absent := 0, arrival := none, peerArrival := none, peerLane := none, above := 0,
    below := 0, badFrames := [] }) s

/-- A lane is no longer UP: it loses the data role, its feeds move or are shed, its link may be down, which raises error 194, and the
time-source link may change. -/
def laneDown (l : Fin 64) (state : LaneState) (s : State) : State :=
  let before := ((s.lnk.lane[l]).cfg.link).any fun g => linkUp g s
  let s := onLane l (fun x => { x with state := state, recovering := x.recovering || x.data, data := false }) s
  let s := failover l s
  let s := match (s.lnk.lane[l]).cfg.link with
    | some g => if before && !linkUp g s then
        let s := raise 194 0 g s
        match (indices 64).find? fun x => (s.lnk.lane[x]).cfg.link == some g && (s.lnk.lane[x]).state == .up with
        | some x => becomeData x s
        | none => s
      else s
    | none => s
  settleTimeLink s

/-- The flags of LNK_LANE_STATUS_l that a failure sets (R441). -/
def faultFlags (r : LaneFault) (x : Lane) : Lane :=
  match r with
  | .signal => { x with los := true }
  | .alignment => { x with loa := true }
  | .fec => { x with fecFail := true }
  | _ => x

/-- A lane becomes FAILED (R408, R409): error 176 + g names it, its feeds move, and its self-test follows. -/
def failLane (inj : Bool) (l : Fin 64) (r : LaneFault) (s : State) : State :=
  let src : Fin 320 := match (s.lnk.lane[l]).cfg.link with
    | some g => ⟨176 + g.val, by omega⟩
    | none => 192
  let s := if (s.lnk.lane[l]).cfg.link.isSome then raiseBy inj src (target .lane l) 0 s else s
  let s := onLane l (fun x => { faultFlags r x with recovering := true }) s
  askTest .lane l src.val inj [] (laneDown l .failed s)

/-! ### LANE_CTL (R438, R439) -/

/-- LANE_CTL's parameter checks. -/
def laneCtlCheck (d : Desc) : List (Bool × Refuse) :=
  let enable := d.u 12 1 == 1
  [(d.indirect, badParam 1), ((d.unit .lane 64).isNone, badParam 8), (decide (2 < d.u 12 1), badParam 12),
   (if enable then decide (3 < d.u 13 1) else d.u 13 1 != 0, badParam 13),
   (if enable then decide (3 < d.u 14 1) || (bitOf (d.u 14 1) 0 && decide (d.u 13 1 < 2)) else d.u 14 1 != 0, badParam 14),
   d.strayCheck [(12, 3)]]

/-- A lane's earlier LANE_CTL is answered SUPERSEDED (DESIGN CHOICE), and a new one waits. -/
def waitLane (l : Fin 64) (iss : Option Issue) (retrain : Bool) (s : State) : State :=
  let old := (s.lnk.lane[l]).issue
  completeOpt old .superseded (onLane l (fun x => { x with issue := iss, retrain := retrain }) s)

/-- LANE_CTL with valid fields. A RETIRED lane never trains again, and an OFF lane has nothing to retrain: BAD_PARAM (DESIGN CHOICE). -/
def laneCtl (iss : Issue) (l : Fin 64) (d : Desc) (s : State) : State :=
  let x := s.lnk.lane[l]
  match d.u 12 1 with
  | 2 =>
    if x.state = .retired ∨ x.state = .off then refuse iss (badParam 8) s
    else if carryingLane l s ∧ !((x.cfg.link).any fun g => (spareOf g s).isSome) then refuse iss (refuseTarget .noCapacity d.tgt) s
    else
      let s := if x.state = .up then laneDown l .training s else s
      trainLane l (waitLane l (some iss) true s)
  | 1 =>
    if x.state = .retired then refuse iss (badParam 8) s
    else if ownedByOther 0x0B l s then refuse iss (refuseTarget .busyOwned d.tgt) s
    else
      let c : LaneCfg := { x.cfg with rate := d.u 13 1, fecOff := bitOf (d.u 14 1) 0, txInvert := bitOf (d.u 14 1) 1 }
      let s := addClaim 0x0B l s
      if x.state = .up ∧ c = x.cfg then complete iss .ok s
      else
        let s := if x.state = .up then laneDown l .training s else s
        trainLane l (waitLane l (some iss) false (onLane l (fun y => { y with cfg := c, enabled := true }) s))
  | _ =>
    if ownedByOther 0x0B l s then refuse iss (refuseTarget .busyOwned d.tgt) s
    else
      let s := waitLane l none false s
      let s := if x.state = .up then laneDown l .off s else s
      let s := onLane l (fun y => { y with state := if y.state = .retired then .retired else .off, enabled := false, recovering := false }) s
      complete iss .ok (dropClaim 0x0B l s)

/-- LANE_CTL. -/
def execLaneCtl (d : Desc) (s : State) : Host.Outcome State Fault Refusal :=
  .next (hostCommand 0x38 (.laneCtl d) d (fun iss s =>
    match firstFail (laneCtlCheck d), d.unit .lane 64 with
    | some r, _ => refuse iss r s
    | none, some l => laneCtl iss l d s
    | none, none => refuse iss (badParam 8) s) s)

/-! ### Lane events (R404, R405, R408, R409) -/

/-- Lanes of a link whose self-test waits for a spare (R409). -/
def pendingTests (g : Fin 16) (s : State) : List (Fin 64) :=
  (indices 64).filter fun l => (s.lnk.lane[l]).cfg.link == some g && (s.lnk.lane[l]).testPending

/-- A degraded lane leaves its feeds and runs its self-test (R409). -/
def testDegraded (l : Fin 64) (s : State) : State :=
  laneDown l .testing (onLane l (fun x => { x with testPending := false, recovering := true }) s)

/-- A spare has become available: a self-test that waited for it starts (R409). -/
def offerSpare (g : Fin 16) (s : State) : State :=
  match pendingTests g s with
  | [] => s
  | l :: _ => if (spareOf g s).isSome then testDegraded l s else s

/-- LANE_UP (R404 step 6, R405, R439): `inverted` says that the patterns were found only inverted. A lane becomes a data lane when its
link has none UP; otherwise the image's role holds, unless it still recovers. -/
def execLaneUp (lane : Fin 64) (inverted : Bool) (s : State) : Host.Outcome State Fault Refusal :=
  let x := s.lnk.lane[lane]
  if x.state != .training then .next s
  else
    let iss := x.issue
    let s := onLane lane (fun y => { y with
      state := .up, rxInverted := inverted, issue := none, retrain := false, degraded := false
      data := !y.cfg.spare && !y.recovering && y.cfg.link.isSome }) s
    let s := if inverted then notify 195 (target .lane lane) 0 s else s
    let s := notify 199 (target .lane lane) 0 s
    let s := placeFeeds (becomeData lane s)
    let s := settleTimeLink (completeOpt iss .ok s)
    .next (match x.cfg.link with
      | some g => offerSpare g s
      | none => s)

/-- LANE_TRAIN_TIMEOUT (R404, R439): training starts again, and a waiting enable completes TIMEOUT. -/
def execLaneTrainTimeout (lane : Fin 64) (s : State) : Host.Outcome State Fault Refusal :=
  let x := s.lnk.lane[lane]
  if x.state != .training then .next s
  else
    let s := trainLane lane s
    match x.issue with
    | some i => if x.retrain then .next s
                else .next (refuse i (refuseTarget .timeout (target .lane lane)) (onLane lane (fun y => { y with issue := none }) s))
    | none => .next s

/-- Has a lane the health that a fault names (R408)? The receiver's signal and alignment come from outside; uncorrectable codewords are counted with
the frames. A peer mismatch and a remote defect are seen in the header that shows them. -/
def laneFaulty (r : LaneFault) (x : Lane) : Bool :=
  match r with
  | .signal | .alignment => true
  | .fec => decide (3 ≤ (x.badFrames.filter id).length)
  | .peer | .remote => false

/-- LANE_FAIL (R408). -/
def execLaneFail (lane : Fin 64) (reason : LaneFault) (s : State) : Host.Outcome State Fault Refusal :=
  let x := s.lnk.lane[lane]
  if x.state = .up ∧ laneFaulty reason x = true then .next (failLane false lane reason s) else .next s

/-- A lane is declared degraded (R408, R409): error 192, and its self-test runs at once when it carries nothing or when a spare can take its
feeds; otherwise the test waits. -/
def degradeLane (inj : Bool) (l : Fin 64) (s : State) : State :=
  let x := s.lnk.lane[l]
  let s := raiseBy inj 192 (target .lane l) 0 (onLane l (fun y => { y with degraded := true }) s)
  let s := askTest .lane l 192 inj [] s
  if carryingLane l s && !((x.cfg.link).any fun g => (spareOf g s).isSome) then onLane l (fun y => { y with testPending := true }) s
  else testDegraded l s

/-- LANE_DEGRADED (R408): declared after 3 superframes above deg_ser, or cleared after 1 s below half of it. -/
def execLaneDegraded (lane : Fin 64) (s : State) : Host.Outcome State Fault Refusal :=
  let x := s.lnk.lane[lane]
  if x.state != .up then .next s
  else if !x.degraded && decide (3 ≤ x.above) then .next (degradeLane false lane s)
  else if x.degraded && decide (1000 ≤ x.below) then .next (onLane lane (fun y => { y with degraded := false }) s)
  else .next s

/-- LANE_SELFTEST_DONE (R409, R580): a pass retrains an enabled lane; a fail retires the lane with error 202. -/
def execLaneSelftestDone (lane : Fin 64) (pass : Bool) (s : State) : Host.Outcome State Fault Refusal :=
  let x := s.lnk.lane[lane]
  if (testOf .lane lane s).isNone || (x.state != .failed && x.state != .testing) then .next s
  else
    let source := ((testOf .lane lane s).map (·.source)).getD 0
    let s := onLane lane (fun y => { y with testPending := false }) s
    if pass then
      let s := endTest .lane lane true id s
      .next (if x.enabled then trainLane lane s else onLane lane (fun y => { y with state := .off }) s)
    else
      let s := retireUnit .lane lane source (onLane lane (fun y => { y with state := .retired, enabled := false }) s)
      .next (completeOpt x.issue .timeout (onLane lane (fun y => { y with issue := none })
        (endTest .lane lane false id (raise 202 (target .lane lane) 0 s))))

/-- LANE_SPARE_READY (R409): UP and healthy for 1 s, the lane is a spare. -/
def execLaneSpareReady (lane : Fin 64) (s : State) : Host.Outcome State Fault Refusal :=
  let x := s.lnk.lane[lane]
  if x.state == .up && x.recovering then
    let s := onLane lane (fun y => { y with recovering := false }) s
    .next (match x.cfg.link with
      | some g => offerSpare g s
      | none => s)
  else .next s

/-! ### Frame headers (R406, R408, R432, R433, R441) -/

/-- The lowest-index UP lane of a link (R432). -/
def leadLane (g : Fin 16) (s : State) : Option (Fin 64) :=
  (indices 64).find? fun l => (s.lnk.lane[l]).cfg.link == some g && (s.lnk.lane[l]).state == .up

/-- The round trip a_local + a_peer of a link, in quarter-nanoseconds (R432). -/
def roundTrip (g : Fin 16) (s : State) : Option Int :=
  (leadLane g s).bind fun l => match (s.lnk.lane[l]).arrival, (s.lnk.lane[l]).peerArrival with
    | some a, some b => some (a + b)
    | _, _ => none

/-- θ of a link in quarter-nanoseconds (R432). DEDUCED: a half is dropped towards minus infinity. -/
def linkOffset (g : Fin 16) (s : State) : Int :=
  ((leadLane g s).bind fun l => match (s.lnk.lane[l]).arrival, (s.lnk.lane[l]).peerArrival with
    | some a, some b => some ((a - b - 4 * (s.lnk.link[g]).cfg.asym) / 2)
    | _, _ => none).getD 0

/-- The 10-bit symbols that a lane of a rate code carries in a superframe (R402, R408). -/
def superframeSymbols (rate : Nat) : Nat := [10625000, 5312500, 2578125, 1031250].getD rate 0

/-- A superframe ends: its corrected symbols are held, and it counts above deg_ser or below half of it, in parts per million of all symbols
(R408, R441). -/
def closeSuperframe (deg : Nat) (x : Lane) : Lane :=
  let n := superframeSymbols x.cfg.rate
  { x with
    ser := x.serNow, serNow := 0
    above := if deg * n < x.serNow * 1000000 then x.above + 1 else 0, below := if x.serNow * 2000000 < deg * n then x.below + 1 else 0 }

/-- The FEC counts of a frame (R408, R441, R609): 40 and 24 bits wide; a superframe is closed at frame 0. -/
def countFec (l : Fin 64) (frame : Nat) (c : FecCounts) (s : State) : State :=
  let deg := s.lnk.degSer
  let s := onLane l (fun x =>
    let x := if frame = 0 then closeSuperframe deg x else x
    { x with
      corrected := (x.corrected + c.corrected) % 2 ^ 40, uncorrectable := (x.uncorrectable + c.uncorrectable) % 2 ^ 24
      serNow := x.serNow + c.corrected, badFrames := (decide (c.uncorrectable ≠ 0) :: x.badFrames).take 8 }) s
  let u := target .lane l
  pulse 0x0302 u c.uncorrectable (pulse 0x0301 u c.corrected (pulse 0x0300 u c.codewords s))

/-- One UP lane of a link against a lane-up mask. -/
def markAbsent (g : Fin 16) (m : BitVec 64) (l : Fin 64) (y : Lane) : Lane :=
  if y.cfg.link = some g ∧ y.state = .up then { y with absent := if m.getLsbD l then 0 else y.absent + 1 } else y

/-- The lane-up mask of a header (R408): an UP lane of the link that two headers in a row omit has a remote defect. -/
def checkMask (g : Fin 16) (m : BitVec 64) (s : State) : State :=
  let s := onLnk (fun x => { x with lane := updAll x.lane (markAbsent g m) }) s
  let l := (indices 64).filter fun l => (s.lnk.lane[l]).cfg.link == some g && (s.lnk.lane[l]).state == .up && 2 ≤ (s.lnk.lane[l]).absent
  l.foldl (fun s l => failLane false l .remote s) s

/-- The edge of a second over the time-source link (R433): offset e = θ, error the sender's plus 2 ns. -/
def linkEdge (g : Fin 16) (h : Header) (s : State) : State :=
  let n := (s.now + qSecond / 2) / qSecond
  let s := onTime (fun t => { t with linkAccuracy := some (h.error + 2) }) s
  takeEdge (shiftTime (n * qSecond) (linkOffset g s)) 0 .fronthaul s

/-! ### Headers as words (R413) -/

/-- A header that eight words hold (R413). -/
def headerOf (w : List Nat) : Header :=
  let at' (i hi lo : Nat) : Nat := field (w.getD i 0) hi lo
  { seconds := at' 0 47 0, superframe := at' 0 57 48, frame := at' 1 6 0, unlinked := bitOf (w.getD 1 0) 7, node := at' 1 11 8
    link := at' 1 15 12, lane := at' 1 21 16, site := at' 1 63 32
    arrival := if at' 2 31 0 = 0x80000000 then none else some (signed 32 (at' 2 31 0))
    timeState := at' 2 33 32, error := at' 3 31 0, laneUp := BitVec.ofNat 64 (w.getD 4 0) }

/-- A header as its eight words (R413). -/
def headerWords (h : Header) : List Nat :=
  [h.seconds % 2 ^ 48 + h.superframe * 2 ^ 48,
   h.frame + bit h.unlinked * 128 + h.node % 16 * 256 + h.link % 16 * 4096 + h.lane % 64 * 65536 + h.site % 2 ^ 32 * 2 ^ 32,
   (h.arrival.map (unsigned 32)).getD 0x80000000 + h.timeState * 2 ^ 32, h.error % 2 ^ 32, h.laneUp.toNat, 0, 0, 0]

/-- The peer's lanes that a link receives as UP (R413). -/
def peerMask (g : Fin 16) (s : State) : BitVec 64 :=
  (indices 64).foldl (fun m (l : Fin 64) =>
    let x := s.lnk.lane[l]
    match x.peerLane with
    | some i => if x.cfg.link == some g && x.state == .up then m ||| BitVec.twoPow 64 i else m
    | none => m) 0

/-- The header that a lane sends at a frame start (R413). -/
def sentHeader (l : Fin 64) (s : State) : Header :=
  let x := s.lnk.lane[l]
  { seconds := s.now / qSecond % 2 ^ 48, superframe := s.now % qSecond / 4000000, frame := s.now % 4000000 / 40000
    unlinked := x.cfg.link.isNone, node := s.lnk.node, link := (x.cfg.link.map (·.val)).getD 0, lane := l, site := s.lnk.site
    arrival := x.arrival, timeState := alignCode s.time.state, error := errorWord s.time.estimate
    laneUp := (x.cfg.link.map fun g => peerMask g s).getD 0 }

/-- At a frame start every lane that trains or is UP sends its marker and header (R404, R412, R413). -/
def sendFrames (s : State) : State :=
  if s.now % 40000 = 0 then
    (indices 64).foldl (fun s l =>
      let x := (s.lnk.lane[l]).state
      if x = .training ∨ x = .up then emit (.frame l (headerWords (sentHeader l s))) s else s) s
  else s

/-- FRAME_HEADER (R406, R408, R432, R433): `offset` is the capture minus the nominal frame start, in quarter-nanoseconds, `words` the header's eight
words, and `fec` what the FEC counted in the frame before. -/
def execFrameHeader (lane : Fin 64) (offset : Int) (words : List Nat) (fec : FecCounts) (s : State) : Host.Outcome State Fault Refusal :=
  let x := s.lnk.lane[lane]
  let h := headerOf words
  if x.state != .up && x.state != .training then .next s
  else
    let s := onLane lane (fun y => { y with arrival := some offset, peerArrival := h.arrival, peerLane := some h.lane }) (countFec lane h.frame fec s)
    match x.cfg.link with
    | none => .next s
    | some g =>
      let s := onLink g (fun y => { y with peerSeen := h.node }) s
      if h.site != s.lnk.site || h.node != (s.lnk.link[g]).cfg.peer then
        .next (failLane false lane .peer (onLink g (fun y => { y with peerMismatch := true }) s))
      else
        let s := checkMask g h.laneUp s
        let edge := s.time.source && s.lnk.timeLink == some g && h.frame == 0 && h.superframe == 0 && h.timeState != 0
          && leadLane g s == some lane
        .next (if edge then linkEdge g h s else s)

end Sys2Proof.Machine
end

