-- ==== Sys2Proof/Machine/Streams.lean ====
section
/-! DEFINITION. Streams, delay buffers and ticks of Soldin Link (R414 to R431), and LINK_MAP. -/
namespace Sys2Proof.Machine
open Sys2Proof

/-! ### Stream entries (R419 to R421) -/

/-- A role's code (R420). -/
def roleOf : Nat → Option Role
  | 0 => some .none
  | 1 => some .originate
  | 2 => some .terminate
  | 3 => some .dropForward
  | 4 => some .addForward
  | 5 => some .forward
  | _ => none

/-- A link byte: an index, 0xFF for none, or out of range. -/
def linkByte (v : Nat) : Option (Option (Fin 16)) := if v = 0xFF then some none else (finOf 16 v).map some

/-- A 16-byte stream entry (R419); none when a field is out of range. -/
def streamOf (bs : List Byte) : Option StreamEntry :=
  let u (o n : Nat) : Nat := leAt bs o n
  match roleOf (u 2 1), finOf 256 (u 0 1), linkByte (u 6 1), linkByte (u 7 1) with
  | some role, some slice, some li, some lo =>
    let fwd := role == .forward
    let target := u 8 4
    let plays := role == .terminate || role == .dropForward || role == .addForward
    let pathOk := if fwd then u 1 1 == 0xFF && u 0 1 == 0 else decide (u 1 1 ≤ 1) || (role == .none && u 1 1 == 0xFF)
    let targetOk := if plays then decide (1000 ≤ target) && decide (target ≤ 250000) else target == 0
    let kOk := if fwd then decide (u 12 1 % 16 ≤ 13) && decide (u 12 1 < 128) else u 12 1 == 0
    if pathOk && decide (u 3 1 ≤ 3) && targetOk && kOk && decide (u 13 1 < 8) && decide (u 14 2 < 512)
        && (role == .terminate || u 14 2 == 0) then
      some { slice := slice, path := if u 1 1 = 1 then .b else .a, role := role, width := u 3 1, stream := u 4 2, linkIn := li
             linkOut := lo, target := target, k := u 12 1 % 16, priority := u 12 1 / 16, ring := bitOf (u 13 1) 0
             noUp0 := bitOf (u 13 1) 1, noUp1 := bitOf (u 13 1) 2, expected := u 14 2 }
    else none
  | _, _, _, _ => none

/-- The entries of a buffer of `n` entries; none when one is out of range. -/
def streamsOf : Nat → List Byte → Option (List StreamEntry)
  | 0, _ => some []
  | n + 1, bs =>
    match streamOf (bs.take 16), streamsOf n (bs.drop 16) with
    | some e, some l => some (e :: l)
    | _, _ => none

/-- The ring link of a kind: 2 ring-east, 3 ring-west (R410). -/
def ringLink (links : Fin 16 → LinkCfg) (kind : Nat) : Option (Fin 16) := (indices 16).find? fun g => (links g).kind == kind

/-- Does an entry need an incoming, and an outgoing link (R420)? -/
def needsIn (r : Role) : Bool := r == .terminate || r == .dropForward || r == .addForward || r == .forward

/-- Does an entry send (R420)? -/
def needsOut (r : Role) : Bool := r == .originate || r == .dropForward || r == .addForward || r == .forward

/-- The links of an entry are defined and of the right kind for its flags (R421). -/
def linksOk (links : Fin 16 → LinkCfg) (e : StreamEntry) : Bool :=
  let ofKind (x : Option (Fin 16)) (ok : Nat → Bool) : Bool := x.all fun g => ok (links g).kind
  if e.role == .none then true
  else if e.ring then
    (ringLink links 2).isSome && (ringLink links 3).isSome && ofKind e.linkIn (fun k => k == 2 || k == 3)
      && ofKind e.linkOut (fun k => k == 2 || k == 3)
  else
    (e.linkIn.isSome == needsIn e.role) && (e.linkOut.isSome == needsOut e.role) && ofKind e.linkIn (· != 0) && ofKind e.linkOut (· != 0)

/-- The path of an entry has the fronthaul endpoint that its role needs (R421). -/
def endpointOk (defs : SliceId → Option SliceDef) (e : StreamEntry) : Bool :=
  match e.role with
  | .none => true
  | .forward => true
  | _ => match defs e.slice with
    | none => false
    | some d => (pathsOf d).contains e.path &&
        (if e.role = .terminate ∨ e.role = .dropForward then srcOf d e.path == .fronthaul else sinkOf d e.path == .fronthaul)

/-- Is every entry allowed (R421)? -/
def entriesOk (links : Fin 16 → LinkCfg) (defs : SliceId → Option SliceDef) (l : List StreamEntry) : Bool :=
  l.all fun e => linksOk links e && endpointOk defs e

/-- Have two entries the same key (R420)? -/
def sameKey (a b : StreamEntry) : Bool :=
  if a.role = .forward ∨ b.role = .forward then a.stream == b.stream && (a.role == b.role || a.role == .none || b.role == .none)
  else a.slice == b.slice && a.path == b.path

/-- The stream list after a map: each entry replaces the one with its key, and NONE removes it (R420). -/
def mergeEntries (old new : List StreamEntry) : List StreamEntry :=
  new.foldl (fun l e => (l.filter fun x => !sameKey x e) ++ (if e.role = .none then [] else [e])) old

/-- No stream id stands in two entries (R421). -/
def streamsDistinct : List StreamEntry → Bool
  | [] => true
  | e :: l => (l.all fun x => x.stream != e.stream) && streamsDistinct l

/-! ### Feeds and capacity (R422, R430) -/

/-- The feeds that an entry sends, each with its link (R420): feed 0 leaves ring-east and feed 1 ring-west. -/
def feedsOf (links : Fin 16 → LinkCfg) (e : StreamEntry) : List Feed :=
  if !needsOut e.role then []
  else
    let one (f : Nat) (g : Option (Fin 16)) : List Feed := match g with
      | some g => [{ stream := e.stream, feed := f, link := g, lane := none }]
      | none => []
    if e.ring then one 0 (ringLink links 2) ++ one 1 (ringLink links 3) else one 0 e.linkOut

/-- The link a feed arrives on (R420): feed 0 from ring-west, feed 1 from ring-east. -/
def arrivalLink (links : Fin 16 → LinkCfg) (e : StreamEntry) (feed : Nat) : Option (Fin 16) :=
  if e.ring then ringLink links (if feed = 0 then 3 else 2) else e.linkIn

/-- The rate index of an entry's stream, given the slices. -/
def entryK (defs : SliceId → Option SliceDef) (e : StreamEntry) : Nat :=
  if e.role = .forward then e.k else ((defs e.slice).map (·.k)).getD 0

/-- One feed takes the lane of its link with the most free words, of those that remain; none when it fits nowhere. -/
def takeWords (g : Fin 16) (words : Nat) (free : List (Fin 16 × Nat)) : Option (List (Fin 16 × Nat)) :=
  let mine := free.filter fun x => x.1 == g && words ≤ x.2
  match mine with
  | [] => none
  | x :: xs =>
    let best := xs.foldl (fun m y => if m.2 < y.2 then y else m) x
    some (removeFirst (· == best) free ++ [(best.1, best.2 - words)])

/-- Do all feeds of a stream list fit with every data lane UP (R422)? The feeds are placed in order of size, largest first. -/
def feedsFit (links : Fin 16 → LinkCfg) (lanes : Fin 64 → LaneCfg) (defs : SliceId → Option SliceDef) (l : List StreamEntry) : Bool :=
  let feeds := l.flatMap fun e => (feedsOf links e).map fun f => (f.link, streamWords (entryK defs e) e.width)
  let sorted := sortBy (fun a b => decide (b.2 ≤ a.2)) feeds
  let free := (indices 64).filterMap fun i => if (lanes i).spare then none else ((lanes i).link).map fun g => (g, laneCapacity (lanes i))
  (sorted.foldl (fun r f => r.bind (takeWords f.1 f.2)) (some free)).isSome

/-- The feeds that an entry receives and plays out, and so buffers (R429, R430). -/
def bufferedFeeds (e : StreamEntry) : List Nat :=
  let plays := e.role == .terminate || e.role == .dropForward || e.role == .addForward
  if !plays then []
  else
    let here (f : Nat) (off : Bool) : List Nat := if e.role == .addForward && off then [] else [f]
    if e.ring then here 0 e.noUp0 ++ here 1 e.noUp1 else here 0 e.noUp0

/-- The pages of a feed's delay buffer: 4 bytes × f_s × delay_target, rounded up to 4 KiB (R430). -/
def delayPages (k target : Nat) : Nat := (16 * target + 4096 * 2 ^ k - 1) / (4096 * 2 ^ k)

/-- The delay buffers of a stream list, each with its pages. -/
def delayBuffers (defs : SliceId → Option SliceDef) (l : List StreamEntry) : List (BufKey × Nat) :=
  l.flatMap fun e => (bufferedFeeds e).map fun f =>
    ({ slice := e.slice, path := e.path, delay := true, feed := f }, delayPages (entryK defs e) e.target)

/-- The pages of a buffer. -/
def bufferPages (b : Buffer) : Nat := b.chunks.foldl (fun n c => n + popCount 512 c.2) 0

/-- Has a buffer of the right size been placed already? -/
def bufferHeld (k : BufKey) (pages : Nat) (s : State) : Bool := s.plc.buffers.any fun b => b.key == k && bufferPages b == pages

/-- A delay buffer's key while it waits for its map to take effect. -/
def nextKey (k : BufKey) : BufKey := { k with feed := k.feed + 4 }

/-- The delay buffers that a stream list needs and that are not held are placed, or none when one cannot be (R430). All of them together take
at most 12,800 pages. -/
def reserveDelays (defs : SliceId → Option SliceDef) (l : List StreamEntry) (s : State) : Option State :=
  let need := delayBuffers defs l
  if 12800 < need.foldl (fun n x => n + x.2) 0 then none
  else need.foldl (fun r x => r.bind fun s => if bufferHeld x.1 x.2 s then some s else allocBuffer (nextKey x.1) (x.2 * 4096) s) (some s)

/-- The delay buffers that waited for a map are freed. -/
def dropDelays (s : State) : State := freeBuffers (fun k => k.delay && 4 ≤ k.feed) s

/-- The delay buffers of a stream list come into use, and those that it does not need are freed. -/
def takeDelays (defs : SliceId → Option SliceDef) (l : List StreamEntry) (s : State) : State :=
  let need := (delayBuffers defs l).map (·.1)
  let waiting := (s.plc.buffers.filter fun b => b.key.delay && 4 ≤ b.key.feed).map fun b => { b.key with feed := b.key.feed - 4 }
  let s := freeBuffers (fun k => k.delay && decide (k.feed < 4) && (!need.contains k || waiting.contains k)) s
  onPlc (fun p => { p with buffers := p.buffers.map fun b =>
                      if b.key.delay ∧ 4 ≤ b.key.feed then { b with key := { b.key with feed := b.key.feed - 4 } } else b }) s

/-! ### A stream list takes effect (R424, R425) -/

/-- The definition in force at an index, as a function. -/
def defsNow (s : State) (sl : SliceId) : Option SliceDef := liveDef sl s

/-- The links' and lanes' set-up in force. -/
def linksNow (s : State) (g : Fin 16) : LinkCfg := (s.lnk.link[g]).cfg

/-- The lanes' set-up in force. -/
def lanesNow (s : State) (l : Fin 64) : LaneCfg := (s.lnk.lane[l]).cfg

/-- Two entries that differ in delay_target at most. -/
def sameBut (a b : StreamEntry) : Bool := { a with target := 0 } == { b with target := 0 }

/-- Containers put behind those that path p of slice sl already plays out. -/
def addPlayed (sl : SliceId) (p : PathId) (c : List Container) (l : List Played) : List Played :=
  let mine (x : Played) : Bool := x.slice == sl && x.path == p
  if l.any mine then l.map fun x => if mine x then { x with samples := x.samples ++ c } else x
  else l ++ [{ slice := sl, path := p, samples := c }]

/-- A path whose delay_target grows takes zero-valued, valid samples for the difference, and one whose delay_target falls drops the samples that are
then overdue (R425): those that wait here, and those of the blocks that play out late. -/
def stretchDelay (old : StreamEntry) (new : StreamEntry) (s : State) : State :=
  if !needsIn new.role ∨ new.role = .addForward then s
  else
    let n := 4 * (max new.target old.target - min new.target old.target) / 2 ^ entryK (defsNow s) new
    if old.target ≤ new.target then
      onLnk (fun l => { l with played := addPlayed new.slice new.path (List.replicate n (.valid 0 0)) l.played }) s
    else onLnk (fun l => { l with played := l.played.map fun x =>
      if x.slice = new.slice ∧ x.path = new.path then { x with samples := x.samples.drop n } else x }) s

/-- A feed keeps its lane when the old list held it. -/
def keepLane (old : List Feed) (f : Feed) : Feed :=
  match old.find? fun x => x.stream == f.stream && x.feed == f.feed && x.link == f.link with
  | some x => x
  | none => f

/-- A stream list takes effect (R424, R425): what changed loses what it had buffered, unchanged entries run on, and the feeds are placed. -/
def applyStreams (new : List StreamEntry) (s : State) : State :=
  let old := s.lnk.streams
  let s := new.foldl (fun s e => match old.find? fun x => sameBut x e with
    | some x => stretchDelay x e s
    | none => s) s
  let gone := (old.filter fun x => !(new.any fun e => sameBut x e))
  let ids := gone.map (·.stream)
  let left (sl : SliceId) (p : PathId) : Bool := gone.any fun e => e.role != .forward && e.slice == sl && e.path == p
  let s := onLnk (fun l => { l with
    streams := new
    buffered := l.buffered.filter fun b => !ids.contains b.stream
    toSend := l.toSend.filter fun b => !ids.contains b.stream
    filling := l.filling.filter fun f => !left f.slice f.path
    played := l.played.filter fun f => !left f.slice f.path }) s
  let s := takeDelays (defsNow s) new s
  let feeds := (new.flatMap (feedsOf (linksNow s))).map (keepLane s.lnk.feeds)
  bumpGen (placeFeeds (onLnk (fun l => { l with feeds := feeds }) s))

/-- The next superframe start at or after an instant (R412). -/
def superframeAt (t : Nat) : Nat := ceilTo 4000000 t

/-- A LINK_MAP that waits is given up: it completes SUPERSEDED (R424). -/
def dropMap (s : State) : State :=
  match s.lnk.pending with
  | none => s
  | some p => completeOpt p.issue .superseded (dropDelays (onLnk (fun l => { l with pending := none }) s))

/-- LINK_MAP's field checks (R424). -/
def linkMapCheck (d : Desc) : Option Refuse :=
  firstFail [(!d.indirect, badParam 1), (d.length.toNat % 16 != 0 || d.length == 0 || decide (4096 < d.length.toNat), badParam 4), (d.tgt != 0, badParam 8),
    d.strayCheck [(12, 16)]]

/-- LINK_MAP with a readable buffer: the entries are checked, buffers are placed, and the map waits for its superframe (R421, R422, R424,
R430). `commit` says that a commit is pending. -/
def linkMap (iss : Issue) (d : Desc) (bs : List Byte) (commit : Bool) (s : State) : State :=
  match streamsOf (bs.length / 16) bs with
  | none => refuse iss (badParam 0xFFFF) s
  | some l =>
    let new := mergeEntries s.lnk.streams l
    if !entriesOk (linksNow s) (defsNow s) l || !streamsDistinct new then refuse iss (badParam 0xFFFF) s
    else if s.lnk.pending.isSome || commit then refuse iss (refusal .rejectedBusy) s
    else if !feedsFit (linksNow s) (lanesNow s) (defsNow s) new then refuse iss (refusal .noCapacity) s
    else match reserveDelays (defsNow s) new s with
      | none => refuse iss (refusal .noCapacity) s
      | some s =>
        let t := superframeAt (max (instantOrNow (d.u 20 8) s) (s.now + 4000000))
        onLnk (fun x => { x with pending := some { entries := new, at' := t, issue := some iss, linkPart := none } }) s

/-- A lane takes its set-up from a LINK section (R437): one whose rate, flags or link change moves its feeds and trains. One without an entry is
OFF, unless HOST has enabled it (R438). -/
def installLane (sec : LinkSection) (s : State) (l : Fin 64) : State :=
  let x := s.lnk.lane[l]
  match (sec.lanes.find? fun y => y.1 == l).map (·.2) with
  | none =>
    if s.cfg.claims.contains (0x0B, l.val) || (x.cfg == laneReset.cfg && x.state == .off) then s
    else
      let s := waitLane l none false (if x.state = .up then laneDown l .off s else s)
      onLane l (fun y => { y with
        cfg := laneReset.cfg, state := if y.state = .retired then .retired else .off, enabled := false, recovering := false
        testPending := false }) s
  | some c =>
    if x.cfg = c ∧ x.state ≠ .off then s
    else if x.state = .retired then onLane l (fun y => { y with cfg := c }) s
    else if x.state ≠ .off ∧ { x.cfg with spare := c.spare } = c then
      onLane l (fun y => { y with cfg := c, data := y.state == .up && !c.spare && !y.recovering && c.link.isSome }) s
    else
      let s := waitLane l none false (if x.state = .up then laneDown l .training s else s)
      trainLane l (onLane l (fun y => { y with cfg := c, enabled := false, recovering := false, testPending := false }) s)

/-- A LINK section comes into force at its superframe (R138, R410, R437). -/
def installLink (sec : LinkSection) (s : State) : State :=
  let cfg (g : Fin 16) : LinkCfg := ((sec.links.find? fun x => x.1 == g).map (·.2)).getD linkReset.cfg
  let s := onLnk (fun l => { l with
    node := sec.node, site := sec.site
    link := updAll l.link fun g x =>
      if x.cfg = cfg g then x else { x with cfg := cfg g, peerSeen := 0, peerMismatch := false } }) s
  settleTimeLink ((indices 64).foldl (installLane sec) s)

/-- LINK_MAP_EFFECT (R138, R424). -/
def execLinkMapEffect (s : State) : Host.Outcome State Fault Refusal :=
  match s.lnk.pending with
  | none => .next s
  | some p =>
    let s := onLnk (fun l => { l with pending := none }) (advanceTo p.at' s)
    let s := match p.linkPart with
      | some sec => installLink sec s
      | none => s
    .next (settleUnits (completeOpt p.issue .ok (applyStreams p.entries s)))

/-! ### Ticks and segments (R415) -/

/-- The lane of a feed that is sent. -/
def feedLane (stream feed : Nat) (s : State) : Option (Fin 64) :=
  (s.lnk.feeds.find? fun f => f.stream == stream && f.feed == feed).bind (·.lane)

/-- May a block stand in one segment behind another (R414): of one stream and feed, with the next number, the same width, origin and mask? -/
def follows (a b : HeldBlock) : Bool :=
  b.stream == a.stream && b.feed == a.feed && b.number == a.number + 1 && b.block.w == a.block.w && b.origin == a.origin && b.contrib == a.contrib

/-- Blocks cut into segments of at most 255 (R414). -/
def segmentsOf : List HeldBlock → List (List HeldBlock)
  | [] => []
  | b :: l => match segmentsOf l with
    | (c :: g) :: rest => if follows b c && decide (g.length < 254) then (b :: c :: g) :: rest else [b] :: (c :: g) :: rest
    | rest => [b] :: rest

/-- A tick's segments in ascending stream id and then feed, the blocks of each in the order of their numbers (R415). -/
def tickSegments (l : List HeldBlock) : List (List HeldBlock) :=
  let before (a b : HeldBlock) : Bool :=
    decide (a.stream < b.stream) || (a.stream == b.stream && (decide (a.feed < b.feed) || (a.feed == b.feed && decide (a.number ≤ b.number))))
  segmentsOf (sortBy before l)

/-- A segment's descriptor word (R414). -/
def segmentHeadWord (h : SegmentHead) : Nat :=
  h.stream % 2 ^ 16 + h.count % 256 * 2 ^ 16 + h.width % 4 * 2 ^ 24 + h.feed % 2 * 2 ^ 26 + h.origin % 16 * 2 ^ 27 + h.contrib % 512 * 2 ^ 31
    + h.number % 2 ^ 24 * 2 ^ 40

/-- The descriptor that a word holds (R414). -/
def segmentHeadOf (v : Nat) : SegmentHead :=
  { stream := field v 15 0, count := field v 23 16, width := field v 25 24, feed := field v 26 26, origin := field v 30 27
    contrib := field v 39 31, number := field v 63 40 }

/-- The descriptor of the segment of some blocks, the first of them `b` (R414). -/
def headOf (b : HeldBlock) (count : Nat) : SegmentHead :=
  { stream := b.stream, count := count, width := (b.block.w - 8) / 2, feed := b.feed, origin := b.origin, contrib := b.contrib
    number := b.number % 2 ^ 24 }

/-- The bytes of a segment's blocks, packed back to back and padded with zeros to a whole word (R414). -/
def segmentBytes (l : List HeldBlock) : List Byte :=
  let bs := l.flatMap fun b => blockBytes b.block
  bs ++ List.replicate (ceilTo 8 bs.length - bs.length) 0

/-- A segment goes out on the lane of its feed; a shed feed sends nothing (R415, R436). -/
def sendSegment (s : State) (l : List HeldBlock) : State :=
  match l.head? with
  | none => s
  | some b => match feedLane b.stream b.feed s with
    | some x => emit (.segment x (segmentHeadWord (headOf b l.length)) (segmentBytes l)) s
    | none => s

/-- TICK_SEND (R409, R412, R415): the next tick comes, and with it the frame that starts there; a FAILED lane, whose feeds have moved, starts its
self-test. -/
def execTickSend (s : State) : Host.Outcome State Fault Refusal :=
  let s := sendFrames (advanceTo (ceilTo 4000 s.now) s)
  let s := (tickSegments s.lnk.toSend).foldl sendSegment s
  .next (onLnk (fun l => { l with
    toSend := [], lane := l.lane.map fun x => if x.state = .failed then { x with state := .testing } else x }) s)

/-- The number nearest to `cur` whose low 24 bits are `low` (R415). -/
def fullNumber (cur low : Nat) : Nat :=
  let base := cur / 2 ^ 24
  let at' (h : Nat) : Nat := h * 2 ^ 24 + low % 2 ^ 24
  let dist (x : Nat) : Nat := max x cur - min x cur
  let best := if dist (at' (base + 1)) < dist (at' base) then at' (base + 1) else at' base
  if base = 0 then best else if dist (at' (base - 1)) < dist best then at' (base - 1) else best

/-- A late or early block is counted on its link, and error 196 names the link (R427). -/
def countMiss (g : Option (Fin 16)) (late : Bool) (s : State) : State :=
  match g with
  | none => s
  | some g =>
    raise 196 0 g.val (onLink g (fun x => if late then { x with late := satAdd 65535 x.late 1 } else { x with early := satAdd 65535 x.early 1 }) s)

/-- A block enters the delay buffer of its feed, unless it is early, overdue or there already (R426, R427); a bad residue or exponent raises
error 203 (R418). -/
def storeBlock (e : StreamEntry) (g : Fin 16) (b : HeldBlock) (s : State) : State :=
  let k := entryK (defsNow s) e
  let tb := b.number * 2 ^ (k + 4)
  let s := if (decompress b.block).2 then raise 203 0 g.val s else s
  if s.now < tb then countMiss (some g) false s
  else if tb + 4 * e.target < s.now then s
  else if s.lnk.buffered.any fun x => x.stream == b.stream && x.feed == b.feed && x.number == b.number then s
  else
    let s := onLnk (fun l => { l with buffered := l.buffered ++ [b] }) s
    writeRing { slice := e.slice, path := e.path, delay := true, feed := b.feed } (16 * b.number) 16 s

/-- One block of a received segment: it is buffered where it plays out, and it is sent on where the role says so (R415, R420). -/
def takeBlock (e : StreamEntry) (g : Fin 16) (b : HeldBlock) (s : State) : State :=
  let s := if e.role = .dropForward ∨ e.role = .forward then onLnk (fun l => { l with toSend := l.toSend ++ [b] }) s else s
  if e.role = .forward then s else storeBlock e g b s

/-- The blocks of a segment (R414, R416). -/
def segmentBlocks (h : SegmentHead) (bs : List Byte) : List Block :=
  let n := blockLength (widthBits h.width)
  (List.range h.count).map fun i => blockOf (widthBits h.width) (bs.drop (i * n))

/-- SEGMENT_RECEIVE (R414, R415): a feed is discarded when its origin is this node, when no entry takes it, or when it arrives on another
link. -/
def execSegmentReceive (lane : Fin 64) (descriptor : Nat) (bytes : List Byte) (s : State) : Host.Outcome State Fault Refusal :=
  let h := segmentHeadOf descriptor
  match (s.lnk.lane[lane]).cfg.link, s.lnk.streams.find? fun e => e.stream == h.stream && needsIn e.role with
  | some g, some e =>
    if (s.lnk.lane[lane]).state != .up || h.origin == s.lnk.node || arrivalLink (linksNow s) e h.feed != some g then .next s
    else
      let first := fullNumber (blockNumber (entryK (defsNow s) e) s.now) h.number
      .next ((segmentBlocks h bytes).zipIdx.foldl (fun s x => takeBlock e g
        { stream := h.stream, feed := h.feed, number := first + x.2, contrib := h.contrib, origin := h.origin, block := x.1, holes := [] } s) s)
  | _, _ => .next s

/-! ### Playout (R426 to R429) -/

/-- A buffered block of a feed. -/
def heldBlock (stream feed number : Nat) (s : State) : Option HeldBlock :=
  s.lnk.buffered.find? fun b => b.stream == stream && b.feed == feed && b.number == number

/-- A block's containers; the samples that the buffer lost are poisoned (R549). -/
def blockSamples (b : HeldBlock) : List Container :=
  (decompress b.block).1.zipIdx.map fun x => if b.holes.contains x.2 then .poisoned else x.1

/-- Sixteen poisoned containers. -/
def poisonedBlock : List Container := List.replicate 16 .poisoned

/-- A feed's block at its playout instant: its containers and its mask, poisoned with mask 0 when it is absent or a poisoned block. -/
def feedBlock (e : StreamEntry) (feed number : Nat) (s : State) : List Container × Nat :=
  match heldBlock e.stream feed number s with
  | none => (poisonedBlock, 0)
  | some b =>
    let c := blockSamples b
    if c.all contBad then (poisonedBlock, 0) else (c, b.contrib)

/-- The sum of two lists of containers, saturating to 14 bits, a poisoned one contributing zero, with the number of saturations. -/
def sumBlocks (a b : List Container) : List Container × Nat :=
  let l := (a.zip b).map fun x =>
    let i := contI x.1 + contI x.2
    let q := contQ x.1 + contQ x.2
    (Container.valid (satWord 14 i) (satWord 14 q), (if fits 14 i then 0 else 1) + (if fits 14 q then 0 else 1))
  (l.map (·.1), l.foldl (fun n x => n + x.2) 0)

/-- The choice of R428 for a combined stream: the containers, and whether the mask falls short of the expected one. -/
def chooseCombined (expected : Nat) (f0 f1 : List Container × Nat) : List Container × Bool :=
  let m0 := f0.2
  let m1 := f1.2
  if m0 = expected then (f0.1, false)
  else if m1 = expected then (f1.1, false)
  else if m0 &&& m1 = 0 ∧ m0 ≠ 0 ∧ m1 ≠ 0 then ((sumBlocks f0.1 f1.1).1, (m0 ||| m1) != expected)
  else if popCount 512 (BitVec.ofNat 512 m0) < popCount 512 (BitVec.ofNat 512 m1) then (f1.1, true)
  else if m0 ≠ 0 then (f0.1, true)
  else (poisonedBlock, true)

/-- The instant at which a block plays out (R426). -/
def playInstant (e : StreamEntry) (number : Nat) (s : State) : Nat := number * 2 ^ (entryK (defsNow s) e + 4) + 4 * e.target

/-- A block's containers enter a path (R426), without those whose own instant has passed (R425). -/
def playOut (e : StreamEntry) (number : Nat) (c : List Container) (s : State) : State :=
  let n := (s.now - playInstant e number s) / 2 ^ entryK (defsNow s) e
  onLnk (fun l => { l with played := addPlayed e.slice e.path (c.drop n) l.played }) s

/-- The feeds of an entry at a playout instant: a block that is there is read from its buffer, and one that is not is counted late (R427). -/
def countLate (e : StreamEntry) (number : Nat) (s : State) : State :=
  (bufferedFeeds e).foldl (fun s f =>
    let k : BufKey := { slice := e.slice, path := e.path, delay := true, feed := f }
    if (heldBlock e.stream f number s).isNone then countMiss (arrivalLink (linksNow s) e f) true s
    else readLine k (16 * number % max 1 (ringLength k s) / 16) s) s

/-- A TERMINATE or DROP_FORWARD plays a block (R428). -/
def playTerminate (e : StreamEntry) (number : Nat) (s : State) : State :=
  let f0 := feedBlock e 0 number s
  let f1 := if e.ring then feedBlock e 1 number s else (poisonedBlock, 0)
  if e.role = .terminate ∧ e.expected ≠ 0 then
    let (c, short) := chooseCombined e.expected f0 f1
    let s := if short then
        raise 198 0 (((arrivalLink (linksNow s) e 0).map fun g => g.val).getD 0) s
      else s
    playOut e number c s
  else playOut e number (if (heldBlock e.stream 0 number s).isSome ∧ f0.1.all contBad = false then f0.1 else f1.1) s

/-- An ADD_FORWARD adds its path's block to a received feed's, and the sum is sent from the next tick (R429). -/
def addFeed (e : StreamEntry) (number feed : Nat) (s : State) : State :=
  let up := feedBlock e feed number s
  let here := feedBlock e 2 number s
  let local' := !here.1.all contBad
  let (c, sats) := sumBlocks up.1 here.1
  let s := if sats = 0 then s else notify 201 0 sats s
  let b : HeldBlock :=
    { stream := e.stream, feed := feed, number := number, contrib := up.2 ||| (if local' then 2 ^ s.lnk.node else 0), origin := s.lnk.node
      block := compress (widthBits e.width) c, holes := [] }
  onLnk (fun l => { l with toSend := l.toSend ++ [b] }) s

/-- BLOCK_PLAYOUT (R426 to R429): block `number` of a stream comes to its playout instant, t_b + delay_target. -/
def execBlockPlayout (stream number : Nat) (s : State) : Host.Outcome State Fault Refusal :=
  match s.lnk.streams.find? fun e => e.stream == stream && (e.role == .terminate || e.role == .dropForward || e.role == .addForward) with
  | none => .next s
  | some e =>
    let s := countLate e number (advanceTo (playInstant e number s) s)
    let s := if e.role = .addForward then (if e.ring then [0, 1] else [0]).foldl (fun s f => addFeed e number f s) s
             else playTerminate e number s
    .next (onLnk (fun l => { l with buffered := l.buffered.filter fun b => b.stream != stream || number < b.number }) s)

end Sys2Proof.Machine
end

