-- ==== Sys2Proof/Machine/Sections.lean ====
section
/-! DEFINITION. Reading the sections of a configuration image (R123, R209, R220, R333, R366, R394, R469, R501, R535, R643, R690, R691). Each reader
answers none where the section has a field out of range, which fails step 1 of R122. -/
namespace Sys2Proof.Machine
open Sys2Proof

/-- `n` entries of `size` bytes, each read by `f`. -/
def entriesOf {α : Type} (f : List Byte → Option α) (size : Nat) : Nat → List Byte → Option (List α)
  | 0, _ => some []
  | n + 1, bs =>
    match f (bs.take size), entriesOf f size n (bs.drop size) with
    | some a, some l => some (a :: l)
    | _, _ => none

/-- No two numbers of a list are equal. -/
def distinctNats : List Nat → Bool
  | [] => true
  | a :: l => !l.contains a && distinctNats l

/-- A number in a range. -/
def inRange (lo hi v : Nat) : Bool := lo ≤ v && v ≤ hi

/-- A number in a range, where 0 selects a default (R366, R643). -/
def orDefault (lo hi dflt v : Nat) : Option Nat := if v = 0 then some dflt else if inRange lo hi v then some v else none

/-! ### START_UP (R209) -/

/-- A START_UP entry. What no RADIO_STATE allows is kept as an entry for no unit: it fails when it is applied. -/
def startEntryOf (bs : List Byte) : Option StartEntry :=
  let c : TargetClass := match leAt bs 0 1 with
    | 2 => .rxPort
    | 3 => .txPort
    | 4 => .tile
    | _ => .device
  let flags := leAt bs 3 1
  some { unitClass := if flags ≤ 1 then c else .device, index := leAt bs 1 1, state := leAt bs 2 1, fullCal := flags == 1 }

/-! ### SLICES (R691) and CANCEL (R333) -/

/-- A port entry. -/
def portEntryOf (bs : List Byte) : Option PortEntry :=
  let cls := leAt bs 0 1
  let flags := leAt bs 2 1
  let tx := cls == 3
  match finOf 32 (leAt bs 1 1) with
  | none => none
  | some p =>
    if (cls == 2 || cls == 3) && flags < (if tx then 4 else 2) && leAt bs 3 1 == 0 && inRange 400000 14500000 (leAt bs 4 4)
        && (if tx then leAt bs 8 4 ≤ 0x3FFFF else leAt bs 8 4 == 0) && zeroAt bs 12 4 then
      some { tx := tx, index := p, station := bitOf flags 0, droop := bitOf flags 1, centre := leAt bs 4 4, gain := leAt bs 8 4 }
    else none

/-- A slice entry's definition as a SLICE_SET carries it. -/
def sliceDesc (bs : List Byte) : Desc :=
  { ring := 0, flags := 0, tag := 0, length := 0, target := 0, params := (bs.drop 12).take 52, buf := .error }

/-- A slice entry: its fields are those of a creation (R292, R691). -/
def sliceEntryOf (bs : List Byte) : Option (SliceId × SliceDef) :=
  let d := sliceDesc bs
  match finOf 256 (leAt bs 0 1) with
  | none => none
  | some sl =>
    if zeroAt bs 1 11 && d.u 12 2 == 0x00FF && (firstFail (fieldChecks d emptyDef)).isNone then some (sl, writeFields d emptyDef) else none

/-- The SLICES section: ports and slices, no entry twice. -/
def slicesSection (bs : List Byte) : Option (List PortEntry × List (SliceId × SliceDef)) :=
  let n := leAt bs 0 2
  let m := leAt bs 2 2
  if n ≤ 256 && m ≤ 64 && zeroAt bs 4 4 && 8 + 16 * m + 64 * n ≤ bs.length then
    match entriesOf portEntryOf 16 m (bs.drop 8), entriesOf sliceEntryOf 64 n (bs.drop (8 + 16 * m)) with
    | some ps, some ss =>
      if distinctNats (ps.map fun p => p.index.val + 32 * bit p.tx) && distinctNats (ss.map fun x => x.1.val) then some (ps, ss) else none
    | _, _ => none
  else none

/-- The definition of a slice in an image. -/
def imageDef (l : List (SliceId × SliceDef)) (sl : SliceId) : Option SliceDef := (l.find? fun x => x.1 == sl).map (·.2)

/-- A CANCEL entry, given the slices of its image: one for a path without a canceller carries zeros. -/
def cancelEntryOf (l : List (SliceId × SliceDef)) (bs : List Byte) : Option CancelEntry :=
  let u (o n : Nat) : Nat := leAt bs o n
  match finOf 256 (u 0 1) with
  | none => none
  | some sl =>
    let p : PathId := if u 1 1 = 1 then .b else .a
    let has := (imageDef l sl).any fun d => hasCanceller d p
    let fields := if has then u 2 1 ≤ 3 && inRange 4 20 (u 3 1) && (u 4 1 == 0 || inRange 8 31 (u 4 1)) && inRange 12 24 (u 5 1)
                      && 1 ≤ u 6 1
                    else zeroAt bs 2 5
    if u 1 1 ≤ 1 && fields && u 7 1 == 0 && inRange 600 3000 (u 8 2) && u 10 2 ≤ 15000 && u 12 4 ≤ 500000 then
      some { slice := sl, path := p, loopExt := u 12 4
             params := { mode := u 2 1, m := u 3 1, l := u 4 1, v := u 5 1, ceilRise := u 6 1, margin := (u 8 2 : Nat)
                         iFloor := (u 10 2 : Nat) } }
    else none

/-- The CANCEL section of `n` entries, no path twice. -/
def cancelSection (l : List (SliceId × SliceDef)) (n : Nat) (bs : List Byte) : Option (List CancelEntry) :=
  if 16 * n ≤ bs.length then
    (entriesOf (cancelEntryOf l) 16 n bs).bind fun es =>
      if distinctNats (es.map fun e => (canIdx e.slice e.path).val) then some es else none
  else none

/-- The loop_ext that a CANCEL section gives a path (R313). -/
def imageExt (c : List CancelEntry) (sl : SliceId) (p : PathId) : Nat :=
  ((c.find? fun e => e.slice == sl && e.path == p).map (·.loopExt)).getD 0

/-- Port centres as an image sets them (R244, R691). -/
def imageCentres (ps : List PortEntry) (tx : Bool) : Vector (Option Nat) 32 :=
  Vector.ofFn fun p => (ps.find? fun e => e.tx == tx && e.index == p).map (·.centre)

/-- The slices of an image are checked as creations, with the owners of its TENANTS section (R690, R691), and no port takes more than it may
(R255, R275). -/
def slicesOk (ps : List PortEntry) (l : List (SliceId × SliceDef)) (c : List CancelEntry) (t : Vector Tenant 8) (s : State) : Bool :=
  l.all fun x =>
    let ctx : DefContext := { rxCentre := imageCentres ps false, txCentre := imageCentres ps true, others := l.filter fun y => y.1 != x.1
                              tenants := t }
    (firstFail (defChecks x.1 x.2 (imageExt c x.1) ctx s)).isNone && !portsFull x.2 ctx

/-! ### TENANTS (R690) -/

/-- A tenant entry: its function, quota and group. -/
def tenantEntryOf (bs : List Byte) : Option (Fin 8 × Tenant) :=
  match finOf 8 (leAt bs 0 1) with
  | none => none
  | some f =>
    if f != 0 && zeroAt bs 1 3 && leAt bs 4 4 ≤ 146800640 then some (f, { quota := leAt bs 4 4, group := BitVec.ofNat 256 (leAt bs 8 32) })
    else none

/-- Do two groups share no slice? -/
def groupsApart : List (Fin 8 × Tenant) → Bool
  | [] => true
  | a :: l => (l.all fun b => a.1 != b.1 && (a.2.group &&& b.2.group) == 0) && groupsApart l

/-- No tenant has anything. -/
def noTenants : Vector Tenant 8 := Vector.replicate 8 { quota := 0, group := 0 }

/-- The TENANTS section. -/
def tenantsSection (bs : List Byte) : Option (Vector Tenant 8) :=
  let n := leAt bs 0 1
  if n ≤ 7 && zeroAt bs 1 7 && 8 + 40 * n ≤ bs.length then
    (entriesOf tenantEntryOf 40 n (bs.drop 8)).bind fun l =>
      if groupsApart l then some (l.foldl (fun (v : Vector Tenant 8) (x : Fin 8 × Tenant) => v.set x.1 x.2) noTenants) else none
  else none

/-! ### PROTECT (R366, R367) -/

/-- A slice entry, given the slices of the image. -/
def guardEntryOf (l : List (SliceId × SliceDef)) (bs : List Byte) : Option (Fin 256 × SliceGuard) :=
  let flags := leAt bs 1 1
  match finOf 256 (leAt bs 0 1), finOf 256 (leAt bs 2 1) with
  | some sl, some ref =>
    let donorOk := !bitOf flags 1 || (imageDef l ref).any fun d => d.direction != .ul
    let noiseOk := !bitOf flags 2 || (imageDef l sl).any fun d => (uplinkPath d).any fun p => (txOf (sinkOf d p)).isSome
    if flags < 8 && leAt bs 3 1 == 0 && donorOk && noiseOk then
      some (sl, { squall := bitOf flags 0, donor := bitOf flags 1, noise := bitOf flags 2, donorRef := ref
                  donorFloor := signed 16 (leAt bs 4 2), noiseLimit := signed 16 (leAt bs 6 2) })
    else none
  | _, _ => none

/-- A port entry. -/
def portGuardOf (bs : List Byte) : Option (Fin 32 × Bool × Bool × Int) :=
  let flags := leAt bs 1 1
  match finOf 32 (leAt bs 0 1) with
  | none => none
  | some m => if flags < 4 && zeroAt bs 2 2 && zeroAt bs 6 2 then some (m, bitOf flags 0, bitOf flags 1, signed 16 (leAt bs 4 2)) else none

/-- The header's settings. -/
def guardConfigOf (bs : List Byte) : Option GuardConfig :=
  let u (o : Nat) : Nat := leAt bs o 2
  match orDefault 1 60000 1000 (u 4), orDefault 1 10000 100 (u 6), orDefault 1000 4000 2000 (u 8), orDefault 100 1000 300 (u 10),
      orDefault 1 6000 3000 (u 12), orDefault 600 3000 1500 (u 14) with
  | some hold, some rel, some mx, some gr, some fl, some pk =>
    match orDefault 25 300 100 (u 16), orDefault 25 300 100 (u 18), orDefault 100 1000 300 (u 20), orDefault 100 60000 1000 (u 22),
        orDefault 100 60000 1000 (u 24) with
    | some od, some em, some dh, some dt, some dr =>
      if zeroAt bs 26 6 then
        some { trimHold := hold, trimRelease := rel, maxTrim := mx, squallGrowth := gr, squallFloor := fl, squallPeak := pk
               overdriveStep := od, emissionStep := em, donorHyst := dh, donorTime := dt, donorRecover := dr }
      else none
    | _, _, _, _, _ => none
  | _, _, _, _, _, _ => none

/-- The PROTECT section. -/
def protectSection (l : List (SliceId × SliceDef)) (bs : List Byte) : Option ProtectSection :=
  let n := leAt bs 0 2
  let m := leAt bs 2 2
  if n ≤ 256 && m ≤ 32 && 32 + 8 * n + 8 * m ≤ bs.length then
    match guardConfigOf bs, entriesOf (guardEntryOf l) 8 n (bs.drop 32), entriesOf portGuardOf 8 m (bs.drop (32 + 8 * n)) with
    | some c, some ss, some ps =>
      if distinctNats (ss.map fun x => x.1.val) && distinctNats (ps.map fun x => x.1.val) then some { cfg := c, slices := ss, ports := ps }
      else none
    | _, _, _ => none
  else none

/-! ### FRONT_END (R213, R220, R239) -/

/-- A FEC register that the image sets (R239). -/
inductive FecReg where
  | femCtl (n : Fin 16) | strobe (n : Fin 16) (i : Fin 4) | cxCtl (c : Fin 8) | cxPorts (c : Fin 8) | blankCtl (b : Fin 8)
  | blankRx (b : Fin 8) | blankTx (b : Fin 8)
  deriving DecidableEq, Repr

/-- The register at an offset, when it is marked as an image register. -/
def fecRegOf (o : Nat) : Option FecReg :=
  if 0x100 ≤ o ∧ o < 0x500 then
    let n := (o - 0x100) / 0x40
    match finOf 16 n, (o - 0x100) % 0x40 with
    | some n, 0x00 => some (.femCtl n)
    | some n, 0x10 => some (.strobe n 0)
    | some n, 0x14 => some (.strobe n 1)
    | some n, 0x18 => some (.strobe n 2)
    | some n, 0x1C => some (.strobe n 3)
    | _, _ => none
  else if 0x800 ≤ o ∧ o < 0x880 then
    match finOf 8 ((o - 0x800) / 0x10), (o - 0x800) % 0x10 with
    | some c, 0x0 => some (.cxCtl c)
    | some c, 0x4 => some (.cxPorts c)
    | _, _ => none
  else if 0x900 ≤ o ∧ o < 0x980 then
    match finOf 8 ((o - 0x900) / 0x10), (o - 0x900) % 0x10 with
    | some b, 0x0 => some (.blankCtl b)
    | some b, 0x8 => some (.blankRx b)
    | some b, 0xC => some (.blankTx b)
    | _, _ => none
  else none

/-- Is a value legal for a register: its fields are in range and its reserved bits zero? -/
def fecValueOk (r : FecReg) (v : Nat) : Bool :=
  match r with
  | .femCtl _ => v < 2 ^ 11
  | .strobe _ _ => v < 2 ^ 16 && field v 8 2 ≤ 75 && field v 15 9 ≤ 75
  | .cxCtl _ => v < 2 ^ 26 && field v 1 0 ≤ 2
  | .cxPorts _ => true
  | .blankCtl _ => v < 2 ^ 17
  | .blankRx _ => true
  | .blankTx _ => true

/-- A register image. -/
def regImageOf (bs : List Byte) : Option RegImage :=
  let r : RegImage := { offset := leAt bs 0 4, value := leAt bs 4 4 }
  match fecRegOf r.offset with
  | some x => if fecValueOk x r.value then some r else none
  | none => none

/-- A write-list entry. -/
def writeEntryOf (bs : List Byte) : Option WriteEntry :=
  let u (o n : Nat) : Nat := leAt bs o n
  match finOf 16 (u 1 1) with
  | none => none
  | some n =>
    if u 0 1 ≤ 3 && u 2 1 ≤ 15 && !isRead (u 3 1) && mailboxOk (u 2 1) (u 3 1) (u 4 2) (u 6 1) (u 8 8) && u 7 1 == 0 then
      some { trigger := u 0 1, link := n, usid := u 2 1, command := u 3 1, addr := u 4 2, count := u 6 1, data := u 8 8 }
    else none

/-- A bias channel. -/
def biasOf (bs : List Byte) : Option BiasChannel :=
  let u (o n : Nat) : Nat := leAt bs o n
  match finOf 16 (u 0 1) with
  | none => none
  | some n =>
    if u 1 1 ≤ 15 && !isRead (u 2 1) && mailboxOk (u 1 1) (u 2 1) (u 4 2) (u 3 1) 0 && zeroAt bs 6 2 then
      some { link := n, usid := u 1 1, command := u 2 1, count := u 3 1, addr := u 4 2 }
    else none

/-- Is the write list of every link and trigger within its length: 64 entries at Standby, 16 at Sleep? -/
def listsFit (w : List WriteEntry) : Bool :=
  (indices 16).all fun n => (w.filter fun e => e.link == n && e.trigger == 1).length ≤ 64
    && (w.filter fun e => e.link == n && e.trigger == 3).length ≤ 16

/-- A strobe's default on a bound link (R216): TXEN and BYP, PAEN, RXEN. -/
def strobeDefault (i : Fin 4) : Strobe :=
  let v := #v[(50, 30), (20, 0), (50, 30), (40, 10)][i]
  { mode := 1, lead := v.1, lag := v.2, asserted := false, shortHi := false, shortLo := false }

/-- A strobe's set-up from a register value. -/
def strobeOf (v : Nat) (x : Strobe) : Strobe := { x with mode := field v 1 0, lead := field v 8 2, lag := field v 15 9 }

/-- A link's set-up from FEC_FEM_CTL. -/
def femOf (v : Nat) (f : Fem) : Fem :=
  { f with enable := bitOf v 0, port := (finOf 32 (field v 5 1)).getD 0, faultEnable := bitOf v 6, faultAction := bitOf v 7
           sclk := field v 9 8, presencePoll := bitOf v 10 }

/-- The value that a section lists for a register; the last one counts. -/
def listed (regs : List RegImage) (r : FecReg) : Option Nat := (regs.reverse.find? fun x => fecRegOf x.offset == some r).map (·.value)

/-- A link after a commit (R216): its control register, and every strobe as listed, or at its default where the link is bound, or 0. -/
def commitFem (regs : List RegImage) (n : Fin 16) (f : Fem) : Fem :=
  let f := femOf ((listed regs (.femCtl n)).getD 0x100) f
  { f with strobes := updAll f.strobes fun i x => match listed regs (.strobe n i) with
                | some v => strobeOf v x
                | none => if f.enable then strobeOf (1 + 4 * (strobeDefault i).lead + 512 * (strobeDefault i).lag) x else strobeOf 0 x }

/-- A coexistence pair after a commit. -/
def commitCx (regs : List RegImage) (c : Fin 8) (x : CxPair) : CxPair :=
  let v := (listed regs (.cxCtl c)).getD 0
  { x with role := field v 1 0, lead := field v 9 2, lag := field v 17 10, grantTimeout := field v 25 18
           ports := BitVec.ofNat 32 ((listed regs (.cxPorts c)).getD 0) }

/-- A blanking input after a commit. -/
def commitBlank (regs : List RegImage) (b : Fin 8) (x : Blank) : Blank :=
  let v := (listed regs (.blankCtl b)).getD 0
  { x with enable := bitOf v 0, blankMax := field v 16 1, rxMask := BitVec.ofNat 32 ((listed regs (.blankRx b)).getD 0)
           txMask := BitVec.ofNat 32 ((listed regs (.blankTx b)).getD 0) }

/-- The front-end registers after a commit of a section. DESIGN CHOICE: an image register that the section does not list takes its reset value. -/
def commitFec (sec : FrontEndSection) (x : FrontEnd) : FrontEnd :=
  { x with fems := updAll x.fems (commitFem sec.regs), cx := updAll x.cx (commitCx sec.regs), blanks := updAll x.blanks (commitBlank sec.regs)
           writes := sec.writes, bias := sec.bias }

/-- Is no port index bound by two links (R210)? -/
def femsApart (fems : Vector Fem 16) : Bool :=
  distinctNats (((indices 16).filter fun n => (fems[n]).enable).map fun n => (fems[n]).port.val)

/-- The FRONT_END section. -/
def frontEndSection (bs : List Byte) : Option FrontEndSection :=
  let a := leAt bs 0 4
  let b := leAt bs 4 4
  let c := leAt bs 8 4
  if zeroAt bs 12 4 && c ≤ 64 && 16 + 8 * a + 16 * b + 8 * c ≤ bs.length then
    match entriesOf regImageOf 8 a (bs.drop 16), entriesOf writeEntryOf 16 b (bs.drop (16 + 8 * a)),
        entriesOf biasOf 8 c (bs.drop (16 + 8 * a + 16 * b)) with
    | some rs, some ws, some bi =>
      let sec : FrontEndSection := { regs := rs, writes := ws, bias := bi }
      if listsFit ws && femsApart (commitFec sec frontEndReset).fems then some sec else none
    | _, _, _ => none
  else none

/-! ### TDD (R213, R214, R394) -/

/-- A number of pattern entries, and the bytes after them. -/
def patternsOf : Nat → List Byte → Option (List (Fin 8 × Pattern) × List Byte)
  | 0, bs => some ([], bs)
  | n + 1, bs =>
    match patternOf bs with
    | none => none
    | some p => (patternsOf n (bs.drop (patternLength p.2.segs.length))).map fun x => (p :: x.1, x.2)

/-- A pair entry. -/
def pairEntryOf (bs : List Byte) : Option PairEntry :=
  let shift := signed 32 (leAt bs 4 4)
  match finOf 32 (leAt bs 0 1) with
  | none => none
  | some m =>
    if leAt bs 1 1 ≤ 1 && zeroAt bs 2 2 && -250000 ≤ shift && shift ≤ 250000 then
      some { port := m, side := if leAt bs 1 1 = 1 then .service else .donor, shift := shift }
    else none

/-- The slices of an image as a state would hold them: what the binding of pairs and timers is read from. -/
def previewSlices (l : List (SliceId × SliceDef)) : Vector Slice 256 :=
  Vector.ofFn fun sl => match imageDef l sl with
    | some d => { sliceReset with live := some { defn := d, muteA := false, muteB := false, canA := cancelDefaults, canB := cancelDefaults } }
    | none => sliceReset

/-- The present state with an image's slices and front-end registers. -/
def preview (l : List (SliceId × SliceDef)) (fe : FrontEndSection) (s : State) : State :=
  { s with slices := { s.slices with slice := previewSlices l }, fec := commitFec fe s.fec }

/-- Every TDD pair keeps its sums, less ramp_short, at 700 ns or below (R213). -/
def sumsOk (l : List (SliceId × SliceDef)) (fe : FrontEndSection) (s : State) : Bool :=
  let s := preview l fe s
  (indices 32).all fun m => !isPair m s || switchSum s.fec.fems m ≤ 700

/-- The TDD section, with the guard periods that the image's pairs need (R214). -/
def tddSection (l : List (SliceId × SliceDef)) (fe : FrontEndSection) (s : State) (bs : List Byte) :
    Option (List (Fin 8 × Pattern) × List PairEntry) :=
  let n := leAt bs 0 1
  let m := leAt bs 1 1
  if n ≤ 8 && m ≤ 32 && zeroAt bs 2 6 then
    match patternsOf n (bs.drop 8) with
    | none => none
    | some (ps, rest) =>
      let s := preview l fe s
      if 8 * m ≤ rest.length && distinctNats (ps.map fun x => x.1.val) && ps.all (fun x => patternValid x.2 (timerSwitch x.1 s)) then
        (entriesOf pairEntryOf 8 m rest).bind fun pairs =>
          if distinctNats (pairs.map fun x => x.port.val) then some (ps, pairs) else none
      else none
  else none

/-! ### LOOPS (R479 to R481, R501, R505) -/

/-- `n` signed words. -/
def wordsOf (bs : List Byte) : Nat → Nat → List Int
  | _, 0 => []
  | o, n + 1 => signed 32 (leAt bs o 4) :: wordsOf bs (o + 4) n

/-- A slot entry (R501). -/
def loopEntryOf (bs : List Byte) : Option LoopEntry :=
  let b (o : Nat) : Nat := leAt bs o 1
  let outer := b 1 == 1
  let hold : Option (Option (Fin 32)) := if b 6 = 0xFF then some none else (finOf 32 (b 6)).map some
  match finOf 64 (b 0), hold with
  | some slot, some hold =>
    let ok := b 1 ≤ 1 && (if outer then inRange 1 8 (b 2) else b 2 == 0) && b 3 ≤ 8 && b 4 ≤ 4 && b 5 ≤ 4 && b 7 ≤ 8 && 1 ≤ b 24
      && zeroAt bs 25 3 && zeroAt bs 76 20
    let bank := wordsOf bs 96 512
    if ok && bankOk bank then
      some { slot := slot
             cfg := { outer := outer, m := b 2, ns := b 3, ni := b 4, no := b 5, hold := hold, fade := b 7
                      src := (List.range 4).map fun i => leAt bs (8 + 2 * i) 2
                      dst := (List.range 4).map fun i => leAt bs (16 + 2 * i) 2, stale := b 24 }
             targets := wordsOf bs 28 4, slews := (List.range 4).map fun i => leAt bs (44 + 4 * i) 4, qInit := wordsOf bs 60 4
             bank := bank }
    else none
  | _, _ => none

/-- A trace entry (R505). -/
def traceEntryOf (bs : List Byte) : Option TraceCfg :=
  match finOf 16 (leAt bs 0 1), finOf 64 (leAt bs 1 1) with
  | some b, some i =>
    let sel := (List.range 4).map fun j => leAt bs (2 + j) 1
    if sel.all (· < 64) && 1 ≤ leAt bs 6 2 then some { buffer := b, slot := i, sel := sel, decim := leAt bs 6 2 } else none
  | _, _ => none

/-- The entry of a slot. -/
def slotEntry (l : List LoopEntry) (i : Fin 64) : Option LoopEntry := l.find? fun e => e.slot == i

/-- Does a source exist (R479)? An output of a loop exists on an enabled slot that has it. -/
def sourceExists (l : List LoopEntry) (code : Nat) : Bool :=
  match sourceOf code with
  | none => false
  | some (.loopOut i j) => (slotEntry l i).any fun e => decide (j < e.cfg.no)
  | some _ => true

/-- Does a destination exist (R480, R481)? `bias` is the number of bias channels, `m` the writer's rate exponent, an inner slot's being 0. -/
def destExists (l : List LoopEntry) (bias m code : Nat) : Bool :=
  match destOf code with
  | none => false
  | some (.bias c) => decide (c.val < bias)
  | some (.setpoint i j) => (slotEntry l i).any fun e => decide (j < e.cfg.ni) && decide (e.cfg.m ≤ m)
  | some _ => true

/-- The destination codes that an image's slots drive, NONE left out. -/
def drivenCodes (l : List LoopEntry) : List Nat := (l.flatMap fun e => e.cfg.dst.take e.cfg.no).filter (· != 0)

/-- The slots left after those without a SETPOINT destination among `slots` are taken away, `n` times. -/
def prune (l : List LoopEntry) : Nat → List (Fin 64) → List (Fin 64)
  | 0, slots => slots
  | n + 1, slots => prune l n (slots.filter fun i => (slotEntry l i).any fun e => (drivenBy e.cfg).any fun x => slots.contains x)

/-- The chain of SETPOINT destinations has no cycle (R481). -/
def noCycle (l : List LoopEntry) : Bool := (prune l 64 (l.map (·.slot))).isEmpty

/-- The LOOPS section; `bias` is the number of bias channels of the image. -/
def loopsSection (bias : Nat) (bs : List Byte) : Option LoopsSection :=
  let n := leAt bs 0 1
  let m := leAt bs 1 1
  let base := leAt bs 2 1
  if n ≤ 64 && m ≤ 16 && base ≤ 6 && zeroAt bs 3 5 && 8 + 2144 * n + 8 * m ≤ bs.length then
    match entriesOf loopEntryOf 2144 n (bs.drop 8), entriesOf traceEntryOf 8 m (bs.drop (8 + 2144 * n)) with
    | some ls, some ts =>
      let ok := distinctNats (ls.map fun e => e.slot.val) && distinctNats (ts.map fun t => t.buffer.val)
        && (ls.all fun e => (e.cfg.src.take e.cfg.ni).all (sourceExists ls) && (e.cfg.dst.take e.cfg.no).all (destExists ls bias e.cfg.m))
        && distinctNats (drivenCodes ls) && noCycle ls && ts.all fun t => (slotEntry ls t.slot).isSome
      if ok then some { baseLog2 := base, slots := ls, traces := ts } else none
    | _, _ => none
  else none

/-! ### MONITOR (R535) -/

/-- A comparator entry. -/
def cmpEntryOf (bs : List Byte) : Option (Fin 64 × CmpCfg) :=
  match finOf 64 (leAt bs 0 1) with
  | none => none
  | some i =>
    if leAt bs 1 1 ≤ 1 && leAt bs 2 2 ≤ 1023 then
      some (i, { enable := leAt bs 1 1 == 1, hyst := leAt bs 2 2, hi := leAt bs 4 2, lo := leAt bs 6 2 })
    else none

/-- The MONITOR section. -/
def monitorSection (bs : List Byte) : Option MonitorSection :=
  let n := leAt bs 0 1
  let m := leAt bs 1 1
  if n ≤ 8 && m ≤ 64 && zeroAt bs 2 6 && 8 + 80 * n + 8 * m ≤ bs.length then
    match entriesOf convOf 80 n (bs.drop 8), entriesOf cmpEntryOf 8 m (bs.drop (8 + 80 * n)) with
    | some cs, some ps =>
      if distinctNats (cs.map fun x => x.1.val) && distinctNats (ps.map fun x => x.1.val) then some { convs := cs, cmps := ps } else none
    | _, _ => none
  else none

/-! ### PLACEMENT (R465, R469) -/

/-- A pin entry, given the slices of the image. -/
def pinEntryOf (l : List (SliceId × SliceDef)) (bs : List Byte) : Option Pin :=
  let which := leAt bs 2 1
  let kind := leAt bs 1 1
  let mask := leAt bs 8 8
  match finOf 256 (leAt bs 0 1) with
  | none => none
  | some sl =>
    let whichOk := (kind == 0 && which == 0) || (kind == 1 && which ≤ 7) || (kind == 2 && which ≤ 5 && which / 2 % 2 == 0)
    if (imageDef l sl).isSome && whichOk && zeroAt bs 3 5 && mask != 0 && (kind != 1 || mask < 2 ^ 48) then
      some { slice := sl, kind := kind, which := which, mask := BitVec.ofNat 64 mask }
    else none

/-- A forbid entry. -/
def forbidEntryOf (bs : List Byte) : Option (TargetClass × Nat) :=
  let i := leAt bs 2 2
  if leAt bs 1 1 ≠ 0 then none
  else match leAt bs 0 1 with
    | 0x05 => if i < 64 then some (.lane, i) else none
    | 0x0A => if i < 48 then some (.bank, i) else none
    | 0x0B => if i < 64 then some (.engine, i) else none
    | _ => none

/-- The PLACEMENT section of an image without one: no pins and no forbids, and the registers' reset values (R473). -/
def placementDefault : PlacementSection :=
  { policy := false, ownerSeparate := true, thermalMoves := true, thermalWeight := 64, spreadLimit := 8, moveLimit := 4, interval := 60
    gap := 2240, pins := [], forbids := [] }

/-- The PLACEMENT section; that its pins and forbids have a placement is checked beside the slices. -/
def placementSection (l : List (SliceId × SliceDef)) (bs : List Byte) : Option PlacementSection :=
  let u (o n : Nat) : Nat := leAt bs o n
  let n := u 10 2
  let m := u 12 2
  let ok := u 0 1 ≤ 1 && u 1 1 < 4 && u 2 2 ≤ 1023 && inRange 2 20 (u 4 1) && inRange 1 8 (u 5 1) && u 6 2 ≤ 3600
    && inRange 1120 17920 (u 8 2) && n ≤ 1024 && m ≤ 176 && zeroAt bs 14 2 && 16 + 16 * n + 4 * m ≤ bs.length
    && zeroAt bs (16 + 16 * n + 4 * m) (4 * (m % 2))
  if ok then
    match entriesOf (pinEntryOf l) 16 n (bs.drop 16), entriesOf forbidEntryOf 4 m (bs.drop (16 + 16 * n)) with
    | some ps, some fs =>
      if distinctNats (ps.map fun p => p.slice.val + 256 * p.kind + 1024 * p.which) && distinctNats (fs.map fun x => target x.1 x.2) then
        some { policy := u 0 1 == 1, ownerSeparate := bitOf (u 1 1) 0, thermalMoves := bitOf (u 1 1) 1, thermalWeight := u 2 2
               spreadLimit := u 4 1, moveLimit := u 5 1, interval := u 6 2, gap := u 8 2, pins := ps, forbids := fs }
      else none
    | _, _ => none
  else none

/-! ### THERMAL (R627, R628, R643) -/

/-- A zone entry. -/
def zoneEntryOf (bs : List Byte) : Option (Fin 6 × ZoneCfg) :=
  let low := signed 16 (leAt bs 4 2)
  let high := signed 16 (leAt bs 6 2)
  let thr := signed 16 (leAt bs 8 2)
  match finOf 6 (leAt bs 0 1) with
  | none => none
  | some z =>
    if inRange 1 8 (leAt bs 1 1) && inRange 1 1000 (leAt bs 2 2) && -320 ≤ low && low ≤ 0 && 480 ≤ high && high ≤ 800 && 560 ≤ thr
        && thr ≤ 840 && high ≤ thr && zeroAt bs 10 2 then
      some (z, { lowWarn := low, highWarn := high, throttle := thr, hyst := leAt bs 1 1, dwell := leAt bs 2 2 })
    else none

/-- The THERMAL section. -/
def thermalSection (bs : List Byte) : Option ThermalSection :=
  let n := leAt bs 0 1
  let used := 8 + 12 * n
  match orDefault 10 60 40 (leAt bs 2 1), orDefault 100 60000 1000 (leAt bs 4 2) with
  | some power, some interval =>
    if n ≤ 6 && leAt bs 1 1 == 0 && leAt bs 3 1 == 0 && zeroAt bs 6 2 && used ≤ bs.length && zeroAt bs used (4 * (n % 2)) then
      (entriesOf zoneEntryOf 12 n (bs.drop 8)).bind fun zs =>
        if distinctNats (zs.map fun x => x.1.val) then some { thawPower := power, interval := interval, zones := zs } else none
    else none
  | _, _ => none

/-! ### LINK (R410, R419 to R421) -/

/-- A part without a LINK section: no links and no lanes. -/
def linkDefault : LinkSection := { node := 0, site := 0, links := [], lanes := [], streams := [] }

/-- The links of a section. -/
def sectionLinks (sec : LinkSection) (g : Fin 16) : LinkCfg := ((sec.links.find? fun x => x.1 == g).map (·.2)).getD linkReset.cfg

/-- The lanes of a section. -/
def sectionLanes (sec : LinkSection) (l : Fin 64) : LaneCfg := ((sec.lanes.find? fun x => x.1 == l).map (·.2)).getD laneReset.cfg

/-- Are the entries of a section allowed (R421), given the slices of the image? -/
def linkSectionOk (l : List (SliceId × SliceDef)) (sec : LinkSection) : Bool :=
  entriesOk (sectionLinks sec) (imageDef l) sec.streams && streamsDistinct sec.streams

/-! ### OWNERSHIP (R124, R125) -/

/-- The number of resources of a class (R124); no other code is a class. -/
def classCount : Nat → Nat
  | 0x01 => 64 | 0x02 => 16 | 0x03 => 8 | 0x04 => 8 | 0x05 => 128 | 0x06 => 8 | 0x07 => 8 | 0x08 => 48 | 0x09 => 8 | 0x0A => 16
  | 0x0B => 64 | 0x0C => 256 | 0x0D => 1 | _ => 0

/-- An ownership entry: a class and a feature of R124 and an index of the class. -/
def ownerEntryOf (bs : List Byte) : Option Owner :=
  let u (o n : Nat) : Nat := leAt bs o n
  if u 2 2 < classCount (u 0 1) && inRange 1 9 (u 1 1) && zeroAt bs 6 2 then
    some { cls := u 0 1, feature := u 1 1, index := u 2 2, inst := u 4 2 }
  else none

/-- The OWNERSHIP section of `n` entries. -/
def ownershipSection (n : Nat) (bs : List Byte) : Option (List Owner) := if 8 * n ≤ bs.length then entriesOf ownerEntryOf 8 n bs else none

/-- What a section uses: a class, an index, the feature that uses it, and whether that feature is its owner without an entry (R236, R505,
R533). -/
structure Use where
  cls     : Nat
  index   : Nat
  feature : Nat
  dflt    : Bool
  deriving DecidableEq, Repr

/-- The resources that an image's sections use (R125). DEDUCED: a listed strobe with a mode other than 0, a bus with a write or a bias channel, a
pair with a role, an enabled blanking input, a timer with a pattern, a converter with an entry, a trace ring, and a lane of a link. -/
def usesOf (fe : FrontEndSection) (ps : List (Fin 8 × Pattern)) (mon : MonitorSection) (loops : LoopsSection) (link : LinkSection) : List Use :=
  (fe.regs.filterMap fun r => match fecRegOf r.offset with
    | some (.strobe n i) => if r.value % 4 = 0 then none else some { cls := 0x01, index := 4 * n.val + i.val, feature := 0x02, dflt := true }
    | some (.cxCtl c) => if r.value % 4 = 0 then none else some { cls := 0x03, index := c.val, feature := 0x06, dflt := true }
    | some (.blankCtl b) => if r.value % 2 = 0 then none else some { cls := 0x04, index := b.val, feature := 0x07, dflt := true }
    | _ => none)
  ++ (fe.writes.map fun w => { cls := 0x02, index := w.link.val, feature := 0x02, dflt := true })
  ++ (fe.bias.map fun b => { cls := 0x02, index := b.link.val, feature := 0x02, dflt := true })
  ++ (ps.map fun x => { cls := 0x07, index := x.1.val, feature := 0x03, dflt := true })
  ++ (mon.convs.map fun x => { cls := 0x06, index := x.1.val, feature := 0x05, dflt := true })
  ++ (loops.traces.map fun t => { cls := 0x0A, index := t.buffer.val, feature := 0x04, dflt := true })
  ++ (link.lanes.map fun x => { cls := 0x0B, index := x.1.val, feature := 0x08, dflt := false })

/-- The entry of a resource. -/
def ownerOfRes (l : List Owner) (cls index : Nat) : Option Owner := l.find? fun o => o.cls == cls && o.index == index

/-- The first resource that stands in two entries. -/
def doubleOwner : List Owner → Option (Nat × Nat)
  | [] => none
  | o :: l => if (ownerOfRes l o.cls o.index).isSome then some (o.cls, o.index) else doubleOwner l

/-- Does a use agree with the table? -/
def useOk (l : List Owner) (u : Use) : Bool :=
  match ownerOfRes l u.cls u.index with
  | some o => o.feature == u.feature
  | none => u.dflt

/-- The resource over which a table is inconsistent, if there is one (R125). -/
def ownerConflict (l : List Owner) (uses : List Use) : Option (Nat × Nat) :=
  match doubleOwner l with
  | some x => some x
  | none => (uses.find? fun u => !useOk l u).map fun u => (u.cls, u.index)

/-- A resource in target encoding, where R68 has a class for it; else 0 (DESIGN CHOICE). -/
def resourceTarget (cls index : Nat) : Nat :=
  match cls with
  | 0x01 => target .fem (index / 4)
  | 0x02 => target .fem index
  | 0x06 => target .madc index
  | 0x08 => target .bank index
  | 0x09 => target .captureRing index
  | 0x0B => target .lane index
  | 0x0C => target .counter index
  | _ => 0

/-- The owners in force with a table: the entries, and the owners by default of converters and trace rings (R505, R533). -/
def effectiveOwners (l : List Owner) (uses : List Use) : List Owner :=
  l ++ (uses.filter fun u => (u.cls == 0x06 || u.cls == 0x0A) && (ownerOfRes l u.cls u.index).isNone).map fun u =>
    { cls := u.cls, feature := u.feature, index := u.index, inst := u.index }

end Sys2Proof.Machine
end

