-- ==== Sys2Proof/Machine/ImageRead.lean ====
section
/-! DEFINITION. Reading and verifying a Flegen image (R120 to R125), and placing what it asks for on the fabric (R447, R469, R470). -/
namespace Sys2Proof.Machine
open Sys2Proof

/-! ### Placement for an image -/

/-- The PLACEMENT section in force, with the units that it forbids and those that it does not forbid any more (R470). -/
def withPlacement (sec : PlacementSection) (s : State) : State :=
  let bans (c : TargetClass) (i : Nat) : Bool := sec.forbids.contains (c, i)
  let next (st : UnitState) (on : Bool) : UnitState := if st = .forbidden ∧ on = false then .available else st
  let s := onPlc (fun p => { p with
    policy := sec.policy, ownerSeparate := sec.ownerSeparate, thermalMoves := sec.thermalMoves, thermalWeight := sec.thermalWeight
    spreadLimit := sec.spreadLimit, moveLimit := sec.moveLimit, interval := sec.interval, gap := sec.gap, pins := sec.pins
    engine := updAll p.engine fun e x => { state := next x.state (bans .engine e), forbid := bans .engine e } }) s
  let s := onMem (fun m => { m with
    bank := updAll m.bank fun b x => { x with state := next x.state (bans .bank b), forbid := bans .bank b } }) s
  onLnk (fun l => { l with lane := updAll l.lane fun i x => { x with forbid := bans .lane i } }) s

/-- The slices of an image in the order in which they are placed (R447): falling part cost, then rising index. -/
def placeOrder (l : List (SliceId × SliceDef)) : List (SliceId × SliceDef) :=
  let cost (d : SliceDef) : Nat := costOf d / spanOf (costOf d)
  sortBy (fun a b => decide (cost b.2 < cost a.2) || (cost a.2 == cost b.2 && decide (a.1 ≤ b.1))) l

/-- Nothing placed, and every unit that is not retired AVAILABLE. -/
def emptyFabric (s : State) : State :=
  let free (st : UnitState) : UnitState := if st = .retired then .retired else .available
  let s := onPlc (fun p => { p with
    placed := Vector.replicate 256 { live := none, next := none, stopped := false }, moves := Vector.replicate 8 none, waiting := []
    buffers := [], stagedBank := none, engine := p.engine.map fun x => { x with state := free x.state } }) s
  onMem (fun m => { m with bank := m.bank.map fun x => { x with state := free x.state, retire := false } }) s

/-- Reservations for a list of slices, one after the other, or none when one cannot be placed. -/
def reserveAll (l : List (SliceId × SliceDef)) (s : State) : Option State := l.foldl (fun o x => o.bind (reserve x.1 x.2)) (some s)

/-- Have an image's pins and forbids a placement (R469)? DEDUCED: what no placement on an empty fabric could carry without them either is left to
the check of capacity (R134). -/
def placementOk (sec : PlacementSection) (l : List (SliceId × SliceDef)) (c : List CancelEntry) (s : State) : Bool :=
  let base := emptyFabric (onCfg (fun x => { x with cancel := c }) s)
  let fits (sec : PlacementSection) : Bool := (reserveAll (placeOrder l) (withPlacement sec base)).isSome
  fits sec || !fits { sec with pins := [], forbids := [] }

/-! ### The image (R120, R122, R123) -/

/-- A directory entry: type, offset, length and entry count. -/
structure DirEntry where
  kind  : Nat
  off   : Nat
  len   : Nat
  count : Nat
  deriving DecidableEq, Repr

/-- The bytes of a section. -/
def DirEntry.bytes (e : DirEntry) (bs : List Byte) : List Byte := (bs.drop e.off).take e.len

/-- A directory entry of an image, whose section lies between the directory and the signature. -/
def dirEntryOf (total first : Nat) (bs : List Byte) : Option DirEntry :=
  let e : DirEntry := { kind := leAt bs 0 2, off := leAt bs 4 4, len := leAt bs 8 4, count := leAt bs 12 4 }
  if first ≤ e.off && e.off + e.len + 384 ≤ total then some e else none

/-- The header's checks of step 1 and the section directory (R120, R122). -/
def directoryOf (bs : List Byte) : Option (List DirEntry) :=
  let u (o n : Nat) : Nat := leAt bs o n
  let total := u 12 4
  let n := u 26 2
  let first := 256 + 16 * n
  if u 0 4 == 0x4E474C46 && u 4 2 == 1 && u 6 2 == 256 && total == bs.length && inRange 1024 2097152 total && total % 8 == 0
      && inRange 1 64 n && (u 24 2 == 0 || inRange 10 3600 (u 24 2)) && first + 384 ≤ total then
    entriesOf (dirEntryOf total first) 16 n (bs.drop 256)
  else none

/-- What one section reads as, with its value when it is absent. -/
def sectionAs {α : Type} (bs : List Byte) (dir : List DirEntry) (kind : Nat) (absent : α) (f : Nat → List Byte → Option α) : Option α :=
  match dir.find? fun e => e.kind == kind with
  | none => some absent
  | some e => f e.count (e.bytes bs)

/-- The terms of a CALIBRATION section are in range, and no input stands twice (R155). -/
def calOk (l : List CalEntry) : Bool :=
  distinctNats (l.map fun e => e.sense.val) && l.all fun e => decide (-8192 ≤ e.trim) && decide (e.trim ≤ 8192)
    && decide (-32768 ≤ e.offset) && decide (e.offset ≤ 32767)

/-- What reading an image gives: the image, the section types in their order, and the resource over which its ownership table is
inconsistent. -/
structure ReadImage where
  image    : Image
  types    : List Nat
  conflict : Option (Nat × Nat)
  deriving DecidableEq, Repr

/-- The defaults of a part without a PROTECT, LOOPS, MONITOR, FRONT_END or THERMAL section. -/
def protectDefault : ProtectSection := { cfg := guardDefaults, slices := [], ports := [] }
/-- No loops. -/
def loopsDefault : LoopsSection := { baseLog2 := 0, slots := [], traces := [] }
/-- No converters, and the comparators of R529. -/
def monitorDefault : MonitorSection := { convs := [], cmps := [] }
/-- Every register at its reset value, and no lists. -/
def frontEndDefault : FrontEndSection := { regs := [], writes := [], bias := [] }
/-- The defaults of R643. -/
def thermalDefault : ThermalSection := { thawPower := 40, interval := 1000, zones := [] }

/-- An image read from its bytes, or none when it fails step 1 of R122: the header, the directory, or a section's content. -/
def readImage (bs : List Byte) (s : State) : Option ReadImage := do
  let dir ← directoryOf bs
  let startUp ← sectionAs bs dir 0x1 [] fun n b => if 4 * n ≤ b.length then entriesOf startEntryOf 4 n b else none
  let (ports, slices) ← sectionAs bs dir 0x2 ([], []) fun _ b => slicesSection b
  let cancel ← sectionAs bs dir 0x3 [] (cancelSection slices)
  let protect ← sectionAs bs dir 0x4 protectDefault fun _ b => protectSection slices b
  let frontEnd ← sectionAs bs dir 0x9 frontEndDefault fun _ b => frontEndSection b
  let (patterns, pairs) ← sectionAs bs dir 0x5 ([], []) fun _ b => tddSection slices frontEnd s b
  let link ← sectionAs bs dir 0x6 linkDefault fun _ b => linkSectionOf b
  let loops ← sectionAs bs dir 0x7 loopsDefault fun _ b => loopsSection frontEnd.bias.length b
  let monitor ← sectionAs bs dir 0x8 monitorDefault fun _ b => monitorSection b
  let placement ← sectionAs bs dir 0xA placementDefault fun _ b => placementSection slices b
  let tenants ← sectionAs bs dir 0xB noTenants fun _ b => tenantsSection b
  let calibration ← sectionAs bs dir 0xC [] fun _ b => calibrationOf b
  let thermal ← sectionAs bs dir 0xD thermalDefault fun _ b => thermalSection b
  let owners ← sectionAs bs dir 0xE [] ownershipSection
  let uses := usesOf frontEnd patterns monitor loops link
  let image : Image :=
    { version := leAt bs 8 4, window := if leAt bs 24 2 = 0 then 120 else leAt bs 24 2, binding := leAt bs 16 8, digest := leAt bs 32 32
      startUp := startUp, ports := ports, slices := slices, cancel := cancel, protect := protect, patterns := patterns, pairs := pairs
      link := link, loops := loops, monitor := monitor, frontEnd := frontEnd, placement := placement, tenants := tenants
      calibration := calibration, thermal := thermal, owners := effectiveOwners owners uses }
  if slicesOk ports slices cancel tenants s && sumsOk slices frontEnd s && linkSectionOk slices link && calOk calibration
      && placementOk placement slices cancel s then
    some { image := image, types := dir.map (·.kind), conflict := ownerConflict owners uses }
  else none

/-- Does an image's content still pass step 1 (R108, R129)? What of it depends on the part, its retired ports and units, is checked anew. -/
def contentOk (i : Image) (s : State) : Bool :=
  slicesOk i.ports i.slices i.cancel i.tenants s && placementOk i.placement i.slices i.cancel s

/-- An image is for any part, or for this one (R122 step 4). -/
def bindingOk (i : Image) : Bool := i.binding == 0 || i.binding == identityHash % 2 ^ 64

/-- The section types are known, none stands twice, and OWNERSHIP is among them (R122 step 6). -/
def typesOk (l : List Nat) : Bool := (l.all fun t => inRange 1 14 t) && distinctNats l && l.contains 0xE

/-- An owner key that signs images: programmed, not revoked, and not found corrupt (R648). -/
def validKey (k : OwnerSlot) : Bool := k.programmed && !k.revoked && k.usable

/-- Has the part an owner key, without which no image verifies (R121, R648)? -/
def ownedPart (s : State) : Bool := anyOf s.sec.owner validKey

/-- The verification of R122 in its order. -/
def verifyImage (bs : List Byte) (sigOk digestOk : Bool) (s : State) : Except Refuse Image :=
  match readImage bs s with
  | none => .error (badParam 0xFFFF)
  | some r =>
    if !sigOk || !ownedPart s || !digestOk then .error (refusal .sigFail)
    else if !bindingOk r.image || r.image.version ≤ s.cfg.high || !typesOk r.types then .error (badParam 0xFFFF)
    else match r.conflict with
      | some (c, i) => .error { status := .conflict, offset := 0xFFFF, resource := resourceTarget c i }
      | none => .ok r.image

end Sys2Proof.Machine
end

