-- ==== Sys2Proof/Machine/Arrange.lean ====
section
/-! DEFINITION. Making room for an image: what a commit checks before T and what Weathervane starts before it (R134, R137, R447, R470). -/
namespace Sys2Proof.Machine
open Sys2Proof

/-- Does a slice run on at T, with its parameters exchanged (R137), and not restart (R301)? -/
def runsOn (sl : SliceId) (d : SliceDef) (s : State) : Bool :=
  let x := s.slices.slice[sl]
  match x.live with
  | some old => x.state == .running && x.restart.isNone && x.deleting.isNone && !classB old.defn d
  | none => false

/-- A slice gives up its engines and its delay lines. -/
def releaseHost (sl : SliceId) (s : State) : State :=
  freeBuffers (fun k => k.slice == sl && !k.delay)
    (onPlc (fun p => { p with placed := upd p.placed sl fun x => { x with live := none, next := none } }) s)

/-- What runs on under an image keeps its place; reservations, and the place of all other slices, are given up. -/
def releaseFor (l : List (SliceId × SliceDef)) (s : State) : State :=
  (indices 256).foldl (fun s sl =>
    let p := s.plc.placed[sl]
    if (imageDef l sl).any fun d => runsOn sl d s then (if p.next.isSome then unreserve sl s else s)
    else if p.live.isSome || p.next.isSome then releaseHost sl s else s) s

/-- Room for one slice of an image (R447): one that runs on keeps its engines when neither its cost nor its lines change. `before` are the
CANCEL entries that the present lines follow. -/
def arrangeOne (before : List CancelEntry) (s : State) (x : SliceId × SliceDef) : Option State :=
  match (s.plc.placed[x.1]).live, (s.slices.slice[x.1]).live with
  | some h, some old =>
    let was := linesOf x.1 old.defn (onCfg (fun c => { c with cancel := before }) s)
    if costOf old.defn = costOf x.2 ∧ was = linesOf x.1 x.2 s then some s
    else (hostChange x.1 x.2 h s).bind fun y => reserveHost x.1 y.1 y.2 s
  | _, _ => reserve x.1 x.2 s

/-- The state in which an image's slices are placed: its pins, forbids, named buffers and CANCEL entries, and room given up. -/
def withImagePlaces (i : Image) (s : State) : State :=
  releaseFor i.slices (onCfg (fun c => { c with cancel := i.cancel, owners := i.owners }) (withPlacement i.placement s))

/-- Every slice of an image has room, one after the other, or none. -/
def trialPlace (i : Image) (s : State) : Option State :=
  (placeOrder i.slices).foldl (fun o x => o.bind fun t => arrangeOne s.cfg.cancel t x) (some (withImagePlaces i s))

/-- The parts in force on engines that they must leave: forbidden ones, or ones outside their pins. -/
def mustLeave (s : State) : List (SliceId × Nat) :=
  (indices 256).flatMap fun sl => match (s.plc.placed[sl]).live with
    | none => []
    | some h => (h.engines.zipIdx.filter fun x => (s.plc.engine[x.1]).forbid || !inPins sl x.1 s).map fun x => (sl, x.2)

/-- The parts that must leave find engines, chosen one after the other. -/
def partsFit (s : State) : Bool :=
  let go (o : Option (List Carried)) (x : SliceId × Nat) : Option (List Carried) :=
    o.bind fun l => match (s.plc.placed[x.1]).live, moveSource { slice := x.1, part := x.2, reason := .pin, dst := none } s with
      | some h, some e =>
        let n : PartNeed :=
          { slice := x.1, owner := ownerOf x.1 s, home := x.2 == 0, cost := h.cost
            bytes := h.need + (if x.2 = 0 then lineBytes h else 0), avoid := h.engines }
        (choose (l.filter fun c => !(c.slice == x.1 && c.engine == e)) n s).map fun t => planCarried (x.1, e, t) l
      | _, _ => some l
  ((mustLeave s).foldl go (some (carried s))).isSome

/-- The banks that an image forbids or gives away, and that hold pages. -/
def banksToEmpty (s : State) : List (Fin 48) :=
  (indices 48).filter fun b => ((s.mem.bank[b]).forbid || bankOwned b s) && (s.mem.bank[b]).state == .available && pagesIn b s != 0

/-- One bank's buffers are copied off as far as pages are found, or none when one finds no pages. -/
def moveBuffers (b : Fin 48) (s : State) : Option State :=
  (buffersOn b s).foldl (fun o x => o.bind fun s => copyOff b x (bufferPins x.key s) s) (some s)

/-- The delay buffers that a stream list does not need are freed, for a trial. -/
def keepDelays (need : List (BufKey × Nat)) (s : State) : State :=
  let keep := (s.plc.buffers.filter fun b => need.any fun x => x.1 == b.key && x.2 == bufferPages b).map (·.key)
  freeBuffers (fun k => k.delay && !keep.contains k) s

/-- The slice groups of an image stay inside their quotas (R134, R690). -/
def quotasOk (i : Image) : Bool :=
  (indices 8).all fun (f : Fin 8) =>
    f == 0 || decide ((i.slices.foldl (fun t x => if groupFn i.tenants x.1 = f then t + costOf x.2 else t) 0) ≤ (i.tenants[f]).quota)

/-- Can the fabric, the tenant quotas and the lanes carry an image (R134, R422, R430, R437)? -/
def imageFits (i : Image) (s : State) : Bool :=
  let defs := imageDef i.slices
  match trialPlace i s with
  | none => false
  | some t =>
    quotasOk i && partsFit t && ((banksToEmpty t).foldl (fun o b => o.bind (moveBuffers b)) (some t)).isSome
      && feedsFit (sectionLinks i.link) (sectionLanes i.link) defs i.link.streams
      && (reserveDelays defs i.link.streams (keepDelays (delayBuffers defs i.link.streams) t)).isSome

/-! ### Before T (R470) -/

/-- The moves off units that the image forbids start when the commit executes: parts, each to a target that the image allows, and buffers. -/
def startLeaving (i : Image) (s : State) : State :=
  let t := withImagePlaces i s
  let s := (mustLeave t).foldl (fun s x =>
    let r : MoveReq := { slice := x.1, part := x.2, reason := .pin, dst := none }
    match moveTarget r t with
    | some e => askMove { r with dst := some e } s
    | none => s) s
  let forbids := s.mem.bank.map (·.forbid)
  let marked := onMem (fun m => { m with bank := updAll m.bank fun b x => { x with forbid := (t.mem.bank[b]).forbid || bankOwned b t } }) s
  let s := (banksToEmpty t).foldl (fun s b => (moveBuffers b s).getD s) marked
  onMem (fun m => { m with bank := updAll m.bank fun b x => { x with forbid := forbids[b] } }) s

end Sys2Proof.Machine
end

