-- ==== Sys2Proof/Machine/Apply.lean ====
section
/-! DEFINITION. An image takes effect: at a commit's T, at a return and at boot (R137 to R141, R146, R147, R301, R361, R470). -/
namespace Sys2Proof.Machine
open Sys2Proof

/-! ### Claims (R126, R134, R146) -/

/-- The run-time claims: those made by commands, running captures, and armed traces. -/
def claimsNow (s : State) : List (Nat × Nat) :=
  s.cfg.claims
    ++ ((indices 8).filter fun r => (s.slices.capture[r]).isSome).map (fun r => (0x09, r.val))
    ++ ((indices 16).filter fun b => (s.cen.trace[b]).armed.isSome).map (fun b => (0x0A, b.val))

/-- The claims that an ownership table does not allow. -/
def claimsAgainst (owners : List Owner) (s : State) : List (Nat × Nat) :=
  (claimsNow s).filter fun c => owners.any fun o => o.cls == c.1 && o.index == c.2 && o.feature != 0x09

/-- A claim is released with its record (R146). A capture and an armed trace that end with it complete SUPERSEDED (DESIGN CHOICE). -/
def releaseClaim (s : State) (c : Nat × Nat) : State :=
  let s := match c.1, finOf 8 c.2, finOf 16 c.2 with
    | 0x09, some r, _ => match s.slices.capture[r] with
      | some x =>
        let s := onSlices (fun y => { y with capture := y.capture.set r none }) s
        completeOpt x.stopIssue .superseded (completeOpt x.startIssue .superseded s)
      | none => s
    | 0x0A, _, some b => completeOpt (s.cen.trace[b]).armed .superseded (onTrace b (fun t => { t with armed := none }) s)
    | _, _, _ => dropClaim c.1 c.2 s
  recordNow (.ownerRelease (c.1 + 256 * 0x09 + 65536 * c.2)) s

/-! ### Ports (R244, R256, R257, R691) -/

/-- The DDC's zone: a centre in the second range (R161, R244). -/
def zoneOf (f : Nat) : Bool := 8400000 ≤ f

/-- A DDC word for a centre in kHz. -/
def ddcWord (f : Nat) : Nat :=
  let g := if zoneOf f then 16000000 - f else f
  (2 * g * 2 ^ 48 + 16000000) / 32000000

/-- A DUC word for a centre in kHz. -/
def ducWord (f : Nat) : Nat := (2 * f * 2 ^ 48 + 32000000) / 64000000

/-- The droop entry of a centre (R257). -/
def droopOf (f : Nat) : Nat := min 56 ((f + 125000 - 500000) / 250000)

/-- The TX ports whose gain a loop drives that runs on under the LOOPS section (R256). -/
def gainKept (sec : LoopsSection) (m : Fin 32) (s : State) : Bool :=
  sec.slots.any fun e => (loopAt e.slot s).any fun l => sameStructure e.cfg l.cfg &&
    (destsOf e.cfg).any fun d => match d with
      | .gain p => p == m
      | _ => false

/-- The sample path hears of new frequency words (R245, R246): an RX port's slices output zero for the receive path latency from now on, and a
DUC takes its new word with the first container of a slice-output instant from now on. -/
def retuneLines (before after : State) : State :=
  let mono := after.time.mono
  onSig (fun g => { g with
    rx := updAll g.rx fun p x =>
      let a := before.dfe.ddc[p]
      let b := after.dfe.ddc[p]
      if a.word = b.word ∧ a.zone = b.zone then x else { x with retuned := some mono }
    tx := updAll g.tx fun p x =>
      let w := (after.dfe.duc[p]).word
      if w = (before.dfe.duc[p]).word then x
      else { x with word := ducWordAt x (8 * mono), change := some (w, mono), after := none } }) after

/-- The ports take their centres, words, modes and gains. -/
def installPorts (i : Image) (s : State) : State :=
  let entry (tx : Bool) (p : Fin 32) : Option PortEntry := i.ports.find? fun e => e.tx == tx && e.index == p
  retuneLines s (onDfe (fun x => { x with
    rxCentre := imageCentres i.ports false
    txCentre := imageCentres i.ports true
    ddc := updAll x.ddc fun p y => match entry false p with
      | some e => { y with zone := zoneOf e.centre, station := e.station, word := ddcWord e.centre }
      | none => { y with zone := false, station := false, word := 0 }
    duc := updAll x.duc fun p y =>
      let gain (g : Nat) : Nat := if gainKept i.loops p s then y.gain else g
      match entry true p with
      | some e => { y with
          droopComp := e.droop, station := e.station, word := ducWord e.centre, droopEntry := droopOf e.centre, gain := gain e.gain }
      | none => { y with droopComp := false, station := false, word := 0, droopEntry := 0, gain := gain 0x10000 } }) s)

/-- Does a commit change the centre of a path's source or sink port (R319)? -/
def retuned (before after : State) (d : SliceDef) (p : PathId) : Bool :=
  ((rxOf (srcOf d p)).any fun q => before.dfe.rxCentre[q] != after.dfe.rxCentre[q])
    || (txOf (sinkOf d p)).any fun q => before.dfe.txCentre[q] != after.dfe.txCentre[q]

/-! ### Slices (R137, R301, R447) -/

/-- The commands that wait on a slice complete SUPERSEDED (R299): what is pending, a restart, and (DESIGN CHOICE) a deletion. -/
def endSliceCommands (s : State) (sl : SliceId) : State :=
  let x := s.slices.slice[sl]
  if x.pending.isNone && x.restart.isNone && x.deleting.isNone then s
  else
    let s := completeOpt (x.pending.map (·.issue)) .superseded s
    let s := completeOpt (x.restart.bind (·.issue)) .superseded s
    let s := completeOpt x.deleting .superseded s
    onSlice sl (fun x => { x with
      pending := none, deleting := none
      state := if x.restart.isSome || x.deleting.isSome then .restarting else x.state
      restart := x.restart.map fun r => { r with issue := none } }) s

/-- A path's canceller parameters at T, and whether it is RESET (R319): a changed CANCEL entry goes live, and a change of loop_ext or of a
port centre resets. -/
def cancelAtT (before : State) (sl : SliceId) (p : PathId) (d : SliceDef) (old : SliceParams) (s : State) : CancelParams × Bool :=
  let was := cancelEntry sl p before
  let now := cancelEntry sl p s
  let asked := (now.map fun e => e.params.mode == 2).getD false
  (if was = now then canParams old p else cancelStart sl p s,
   (was != now && asked) || loopExtOf sl p before != loopExtOf sl p s || retuned before s d p)

/-- A slice that runs on takes the image's parameters at T; host mutes end (R300). -/
def carryOn (before : State) (sl : SliceId) (d : SliceDef) (s : State) : State :=
  match (s.slices.slice[sl]).live with
  | none => s
  | some old =>
    let a := cancelAtT before sl .a d old s
    let b := cancelAtT before sl .b d old s
    let new : SliceParams := { defn := d, muteA := false, muteB := false, canA := a.1, canB := b.1 }
    let path (p : PathId) (reset : Bool) (c : Canceller) : Canceller :=
      let ext := loopExtOf sl p s
      let c := if c.present && c.loopExt != ext then
          { c with loopExt := ext, delay := bulkDelay d p ext, line := c.line.take (bulkDelay d p ext + d.nFc) }
        else c
      changeCanceller p old new (bit reset) { c with loopExt := if c.present then c.loopExt else ext }
    let s := if new = old then s else commitAbandon sl s
    let s := onSlice sl (fun x => { x with live := some new }) s
    let s := onCanceller sl .b (path .b b.2) (onCanceller sl .a (path .a a.2) s)
    let s := if ((s.plc.placed[sl]).next).isSome then takeReservation sl s else s
    placeLine sl .b (placeLine sl .a s)

/-- A slice starts at T without a ramp (R301): its output starts at T + L_new. One on Overcast's list stays or comes up shed (R636, R694). One that names a
retired port, or that has found no room, is STOPPED with source 97 raised (R308, R460); one under the thermal halt without it (R638). -/
def startAtT (t : Nat) (sl : SliceId) (d : SliceDef) (s : State) : State :=
  let x := createParams sl d s
  let s := abandonMoves sl (endCaptures sl s)
  let roomless := ((s.plc.placed[sl]).next).isNone
  let s := startDefinition sl x s
  let s := onSlice sl (fun y => { y with shed := s.thm.overcast.shed.contains sl }) s
  if roomless then stopForCapacity sl (onSlice sl (fun y => { y with restart := none }) s)
  else if namesRetired d s then stopSlice sl (onSlice sl (fun y => { y with restart := none }) s)
  else if s.thm.halted then onSlice sl (fun y => { y with restart := none, state := .stopped }) s
  else onSlice sl (fun y => { y with
    state := .restarting, restart := some { params := x, issue := none, strobe := t, started := true, keepShed := true } }) s

/-- The slices of an image take effect at T. `before` is the state in which its placement and ports were the old ones. -/
def installSlices (i : Image) (t : Nat) (before s : State) : State :=
  let keeps := (indices 256).filter fun sl => (imageDef i.slices sl).any fun d => runsOn sl d s
  let s := (indices 256).foldl (fun s sl =>
    if isDefined sl s && (imageDef i.slices sl).isNone then emptySlice sl (abandonMoves sl (endCaptures sl s)) else s) s
  let s := releaseFor i.slices s
  let s := (placeOrder i.slices).foldl (fun s x => (arrangeOne before.cfg.cancel s x).getD s) s
  let s := i.slices.foldl (fun s x => if keeps.contains x.1 then carryOn before x.1 x.2 s else startAtT t x.1 x.2 s) s
  countStreams s

/-! ### The other sections -/

/-- Weathervane's settings and units under an image (R470): what it no longer forbids becomes AVAILABLE, pins and forbids of the host end, and
what must leave its unit is asked to move. Waiting PLACE_PIN and PLACE_FORBID commands complete SUPERSEDED (DESIGN CHOICE). -/
def installUnits (i : Image) (s : State) : State :=
  let isHost (w : PlaceWait) : Bool := match w.job with
    | .pin _ => true
    | .forbidEngine _ => true
    | .forbidBank _ => true
    | _ => false
  let gone := s.plc.waits.filter isHost
  let s := onPlc (fun p => { p with
    waits := p.waits.filter fun w => !isHost w, waiting := p.waiting.filter fun w => w.reason != .pin }) s
  let s := completeAll (gone.map (·.issue)) .superseded s
  let t := withPlacement i.placement s
  let t := bumpGen t
  let t := (indices 64).foldl (fun (t : State) (e : Fin 64) =>
    if (s.plc.engine[e]).state = (t.plc.engine[e]).state then t else unitRecord .available (target .engine e) t) t
  (indices 48).foldl (fun (t : State) (b : Fin 48) =>
    let x := t.mem.bank[b]
    if x.state = .owned ∧ bankOwned b t = false then setBank b .available t
    else if (s.mem.bank[b]).state = x.state then t else unitRecord .available (target .bank b) t) t

/-- What stands on a unit that it must leave moves off, now that the slices are in place. -/
def leaveUnits (s : State) : State :=
  let s := (mustLeave s).foldl (fun s x => askMove { slice := x.1, part := x.2, reason := .pin, dst := none } s) s
  (banksToEmpty s).foldl (fun s b => emptyBank b s) s

/-- The PROTECT section at T (R361, R366, R367). -/
def installProtect (sec : ProtectSection) (s : State) : State :=
  let guard (sl : SliceId) : SliceGuard :=
    ((sec.slices.find? fun x => x.1 == sl).map (·.2)).getD { sliceGuardReset with squall := true }
  let port (m : Fin 32) : Bool × Bool × Int := ((sec.ports.find? fun x => x.1 == m).map (·.2)).getD (true, false, 0)
  let s := onNps (fun n => { n with
    cfg := sec.cfg
    slice := updAll n.slice fun sl x => { x with guard := guard sl, a := { x.a with lowest := none }, b := { x.b with lowest := none } }
    port := updAll n.port fun m x => { x with reflectedEnable := (port m).1, emissionEnable := (port m).2.1, emissionMask := (port m).2.2 } }) s
  let s := (indices 256).foldl (fun s sl => dropDisabled sl s) s
  if s.time.errorOver then timingMute false s else s

/-- One pattern timer at T (R138, R393): a change that has not reached X completes SUPERSEDED, and another pattern comes at the next period
start. -/
def installTimer (i : Image) (t : Nat) (s : State) (n : Fin 8) : State :=
  let want := (i.patterns.find? fun x => x.1 == n).map (·.2)
  let x := s.tdd.timers[n]
  let s := completeOpt (x.change.bind (·.issue)) .superseded (onTimer n (fun x => { x with change := none }) s)
  match x.incoming with
  | some c =>
    if c.pattern = want then s
    else completeOpt c.issue .superseded (onTimer n (fun x => { x with incoming := some { pattern := want, x := t, issue := none } }) s)
  | none => if x.pattern = want then s else onTimer n (fun x => { x with change := some { pattern := want, x := t, issue := none } }) s

/-- The TDD section at T: timers, and the side and shift of each pair, which wait for the start of their timer (R138, R394). -/
def installTdd (i : Image) (t : Nat) (s : State) : State :=
  let s := (indices 8).foldl (installTimer i t) s
  let want (m : Fin 32) : Option Side × Int := match i.pairs.find? fun e => e.port == m with
    | some e => (some e.side, e.shift)
    | none => (none, 0)
  let idle (m : Fin 32) : Bool := match pairTimer m s with
    | some n => (s.tdd.timers[n]).pattern.isNone && (s.tdd.timers[n]).change.isNone && (s.tdd.timers[n]).incoming.isNone
    | none => true
  let one (m : Fin 32) (y : TddPair) : TddPair :=
    if y.side = (want m).1 ∧ y.shift = (want m).2 then { y with next := none }
    else if idle m then { y with side := (want m).1, shift := (want m).2, next := none }
    else { y with next := some (want m) }
  onTdd (fun x => { x with pairs := updAll x.pairs one }) s

/-- The LINK section waits for its superframe (R138, R424). -/
def installLinkAt (sec : LinkSection) (t : Nat) (s : State) : State :=
  let s := dropMap s
  let s := (reserveDelays (defsNow s) sec.streams s).getD s
  onLnk (fun l => { l with pending := some { entries := sec.streams, at' := superframeAt t, issue := none, linkPart := some sec } }) s

/-- A converter at T (R138, R525, R534): MON_CAL and a waiting MON_SEQ_SET complete SUPERSEDED, and the entry takes effect at the start of the
next sequence. -/
def installConv (sec : MonitorSection) (s : State) (c : Fin 8) : State :=
  let cfg := ((sec.convs.find? fun x => x.1 == c).map (·.2)).getD converterReset.cfg
  let x := s.mon.conv[c]
  let s := completeOpt (x.next.bind (·.2)) .superseded (onConv c (fun x => { x with next := none }) s)
  let s := match x.cal with
    | some r => complete r.issue .superseded (onConv c (fun x => { releaseHeld false x with cal := none }) s)
    | none => s
  if x.cfg.mode = .scan ∧ cfg.mode = .scan then onConv c (fun x => { x with next := some (cfg, none) }) s
  else onConv c (takeConvEntry cfg) s

/-- A comparator without an entry (R529): the reflected ones are enabled. -/
def cmpDefault (n : Fin 64) : CmpCfg :=
  if n.val % 2 = 1 then { enable := true, hyst := 256, hi := 14745, lo := 0 } else { enable := false, hyst := 0, hi := 0, lo := 0 }

/-- The MONITOR section at T. A comparator that is not in use is not tripped. -/
def installMonitor (sec : MonitorSection) (s : State) : State :=
  let s := (indices 8).foldl (installConv sec) s
  onMon (fun m => { m with cmp := updAll m.cmp fun n x =>
    let c := ((sec.cmps.find? fun y => y.1 == n).map (·.2)).getD (cmpDefault n)
    { x with cfg := c, tripped := x.tripped && c.enable } }) s

/-- The CALIBRATION section at T: the user terms, and no zero point (R154, R156, R525). -/
def installTerms (l : List CalEntry) (s : State) : State :=
  onMon (fun m => { m with sense := updAll m.sense fun n x =>
    let e := l.find? fun e => e.sense == n
    let t := (e.map (·.trim)).getD 0
    let o := (e.map (·.offset)).getD 0
    { x with trim := t, offset := o, imageTrim := t, imageOffset := o, zero := none } }) s

/-- A blanking input after a commit: one that is asserted and obeyed now has been so since it was, or since this commit (R231, R235). -/
def blankSince (old : Vector Blank 8) (mono : Nat) (b : Fin 8) (x : Blank) : Blank :=
  if x.enable && x.level then { x with since := some (((old[b]).since).getD mono) } else { x with since := none, overdue := false }

/-- The FRONT_END section at T: registers, what the inputs show under them, and the commit lists in link order (R138, R216, R220, R223). -/
def installFrontEnd (sec : FrontEndSection) (s : State) : State :=
  let old := s.fec.bias
  let blanks := s.fec.blanks
  let s := onFec (commitFec sec) s
  let s := onFec (fun x => { x with blanks := updAll x.blanks (blankSince blanks s.time.mono) }) s
  let s := (indices 16).foldl (fun s n => judgeFault n s) s
  let s := onCen (fun c => { c with biasSent := updAll c.biasSent fun n x => if old[n.val]? = sec.bias[n.val]? then x else none }) s
  (indices 16).foldl (fun s n => runList 0 n s) s

/-- The THERMAL section at T: the dwell timers in progress restart (R138, R636, R643). -/
def installThermal (sec : ThermalSection) (s : State) : State :=
  let s := onThm (fun t => { t with
    thawPower := sec.thawPower, interval := sec.interval
    zone := updAll t.zone fun z x =>
      let c := ((sec.zones.find? fun y => y.1 == z).map (·.2)).getD zoneCfgDefault
      retimeZone s.time.mono { x with cfg := c, timers := zoneTimersReset } }) s
  retimeSpread (onPlc (fun p => { p with spreadSince := none }) s)

/-! ### An image takes effect -/

/-- The image of the empty configuration (R147). -/
def emptyImage : Image :=
  { version := 0, window := 120, binding := 0, digest := 0, startUp := [], ports := [], slices := [], cancel := [], protect := protectDefault
    patterns := [], pairs := [], link := linkDefault, loops := loopsDefault, monitor := monitorDefault, frontEnd := frontEndDefault
    placement := placementDefault, tenants := noTenants, calibration := [], thermal := thermalDefault, owners := [] }

/-- An image takes effect at T, which is now (R137 to R141, R146, R361, R470). Claims that its table does not allow are released. -/
def applyImage (i : Image) (s : State) : State :=
  let t := s.now
  let s := (claimsAgainst i.owners s).foldl releaseClaim s
  let s := (indices 256).foldl endSliceCommands s
  let before := s
  let s := onCfg (fun c => { c with cancel := i.cancel, tenants := i.tenants, owners := i.owners }) s
  let s := installUnits i (installPorts i s)
  let s := installProtect i.protect (installSlices i t before s)
  let s := installLinkAt i.link t (installTdd i t s)
  let s := installLoops i.loops t s
  let s := installTerms i.calibration (installMonitor i.monitor s)
  let s := installThermal i.thermal (installFrontEnd i.frontEnd s)
  let s := i.startUp.foldl (fun s e => startUp e s) s
  settleUnits (restoreStopped (leaveUnits (settlePairs s)))

/-- The empty configuration takes effect (R147): nothing is defined, and every port and tile is taken to Sleep. -/
def applyEmpty (s : State) : State :=
  let s := applyImage emptyImage s
  let s := (indices 32).foldl (fun s p => request (.tx p) 0 false none (request (.rx p) 0 false none s)) s
  (indices 4).foldl (fun s t => request (.tile t) 0 false none s) s

/-- An image, or the empty configuration, takes effect. -/
def applyConfig (i : Option Image) (s : State) : State :=
  match i with
  | some i => applyImage i s
  | none => applyEmpty s

end Sys2Proof.Machine
end

