-- ==== Sys2Proof/Machine/Images.lean ====
section
/-! DEFINITION. The configuration commands, the fallback window, returns, and what is written to flash (R127 to R153, R424). -/
namespace Sys2Proof.Machine
open Sys2Proof

/-! ### Slots and the directory (R127, R128) -/

/-- The version in a slot; 0 when the role is empty. -/
def slotVersion (x : Option Slot) : Nat := (x.map (·.image.version)).getD 0

/-- The slot directory as it stands. -/
def directoryNow (c : Config) : SlotDir :=
  { active := c.active.map (·.area), previous := c.previous.map (·.area), staged := c.staged.map (·.area), confirmed := c.confirmed
    returned := c.returned, high := c.high }

/-- The directory waits to be written (R150). -/
def writeDirectory (s : State) : State := queueFlash (.directory (directoryNow s.cfg)) s

/-- The area that a new STAGED image is written to: one that no role uses, else that of the STAGED image which it replaces (DESIGN CHOICE). -/
def freeArea (c : Config) : Fin 3 :=
  let uses (r : Option Slot) (a : Fin 3) : Bool := r.any fun x => x.area == a
  let free := (indices 3).filter fun a => !uses c.active a && !uses c.previous a
  ((free.find? fun a => !uses c.staged a).orElse fun _ => free.head?).getD 0

/-- The SMEM bank of the STAGED copy is released (R129). -/
def dropCopy (s : State) : State :=
  if s.plc.stagedBank.isNone then s else settleUnits (bumpGen (onPlc (fun p => { p with stagedBank := none }) s))

/-- A record of a configuration event (R596): kind, old and new version. -/
def cfgRecord (kind old new : Nat) (s : State) : State := recordNow (.cfgEvent kind old new) s

/-- 20 ms in quarter-nanoseconds: the lead of R133. -/
abbrev qLead : Nat := 80000000

/-- T of an instant (R132, R133): rounded up to a strobe, at least 20 ms ahead; none when the instant is too early. -/
def commitInstant (stamp : Nat) (s : State) : Option Nat :=
  if stamp = 0 then some (strobeAt (s.now + qLead))
  else
    let t := strobeAt (instantOf s.now stamp)
    if t < s.now + qLead then none else some t

/-! ### CFG_STAGE (R130, R131) -/

/-- CFG_STAGE's own parameter checks. -/
def stageCheck (d : Desc) : Option Refuse :=
  firstFail [(!d.indirect, badParam 1), (d.tgt ≠ 0x0C000002, badParam 8), d.strayCheck [(12, 8)]]

/-- A verified image replaces STAGED, when a bank is free for its copy (R129, R131). The bank of the copy it replaces counts as free (DESIGN
CHOICE). -/
def stageImage (iss : Issue) (i : Image) (s : State) : State :=
  match stagedChoice (onPlc (fun p => { p with stagedBank := none }) s) with
  | none => refuse iss (refusal .noCapacity) s
  | some b =>
    let area := freeArea s.cfg
    let s := bumpGen (onPlc (fun p => { p with stagedBank := some b }) s)
    let s := onCfg (fun c => { c with staged := some { area := area, image := i }, returned := false }) s
    settleUnits (complete iss .ok (writeDirectory (queueFlash (.slot area i) s)))

/-- CFG_STAGE; `sigOk` and `digestOk` say what the signature and digest checks find (R121, R122). -/
def execCfgStage (d : Desc) (sigOk digestOk : Bool) (s : State) : Host.Outcome State Fault Refusal :=
  .next (hostCommand 0x02 (.cfgStage d sigOk digestOk) d (fun iss s =>
    match stageCheck d, d.bytes with
    | some r, _ => refuse iss r s
    | none, none => bufferError iss s
    | none, some bs =>
      if leAt bs 12 4 ≠ d.length.toNat then refuse iss (badParam 4) s
      else if s.cfg.commit.isSome then refuse iss (refusal .rejectedBusy) s
      else match verifyImage bs sigOk digestOk s with
        | .error r => refuse iss r s
        | .ok i => stageImage iss i s) s)

/-! ### CFG_COMMIT (R130 to R137, R142, R554) -/

/-- CFG_COMMIT's parameter checks. -/
def commitFields (d : Desc) : List (Bool × Refuse) :=
  [(d.indirect, badParam 1), (d.tgt ≠ 0x0C000002, badParam 8), (d.u 20 2 != 0 && !inRange 10 3600 (d.u 20 2), badParam 20),
   (1 < d.byte 22, badParam 22), d.strayCheck [(12, 11), (24, 4)]]

/-- A commit, a rollback or a fallback window is in the way (R135). -/
def commitBusy (c : Config) : Bool := c.commit.isSome || c.rollback.isSome || c.window.isSome || c.autoReturn.isSome

/-- The checks of R134 and R554 on the STAGED image. `copyUe` says that the read of its copy met an uncorrectable word. -/
def commitCheck (d : Desc) (copyUe : Bool) (s : State) : Option Refuse :=
  match s.cfg.staged with
  | none => some (badParam 24)
  | some x =>
    firstFail
      [(copyUe && s.plc.stagedBank.isSome, refusal .memUe),
       (x.image.version != d.u 24 4 || decide (x.image.version ≤ s.cfg.high), badParam 24),
       (!(claimsAgainst x.image.owners s).isEmpty,
         { status := .conflict, offset := 0xFFFF
           resource := ((claimsAgainst x.image.owners s).head?.map fun c => resourceTarget c.1 c.2).getD 0 }),
       (s.plc.stagedBank.isNone || !imageFits x.image s, refusal .noCapacity),
       ((commitInstant (d.u 12 8) s).isNone, refusal .timeout)]

/-- A pending commit is withdrawn (R136). DESIGN CHOICE: CFG_COMMIT_TIME keeps its T. -/
def cancelCommit (s : State) : State :=
  match s.cfg.commit with
  | none => s
  | some p => complete p.issue .superseded (onCfg (fun c => { c with commit := none }) s)

/-- A commit whose checks pass is held pending, and what the image forbids starts to empty (R134, R470). -/
def holdCommit (iss : Issue) (d : Desc) (x : Slot) (t : Nat) (s : State) : State :=
  let w := if d.u 20 2 = 0 then x.image.window else d.u 20 2
  let s := onCfg (fun c => { c with commit := some { issue := iss, instant := t, window := w, area := x.area, image := x.image }, commitTime := stampOf t }) s
  settleUnits (startLeaving x.image s)

/-- CFG_COMMIT. -/
def execCfgCommit (d : Desc) (copyUe : Bool) (s : State) : Host.Outcome State Fault Refusal :=
  .next (hostCommand 0x03 (.cfgCommit d copyUe) d (fun iss s =>
    match firstFail (commitFields d) with
    | some r => refuse iss r s
    | none =>
      if d.byte 22 = 1 then complete iss .ok (cancelCommit s)
      else if commitBusy s.cfg then refuse iss (refusal .rejectedBusy) s
      else match commitCheck d copyUe s, s.cfg.staged, commitInstant (d.u 12 8) s with
        | some r, _, _ => refuse iss r s
        | none, some x, some t => holdCommit iss d x t s
        | none, _, _ => refuse iss (badParam 24) s) s)

/-- The slots and the window after a commit (R139, R142). -/
def commitSlots (p : PendingCommit) (c : Config) : Config :=
  { c with
    active := some { area := p.area, image := p.image }
    previous := c.active, staged := none, returned := false, confirmed := false, high := max c.high p.image.version
    window := some (p.instant + p.window * qSecond), windowEnd := stampOf (p.instant + p.window * qSecond)
    commitTime := stampOf p.instant }

/-- COMMIT_APPLY (R9, R137 to R139, R598): the record comes first; at T the image takes effect, the slots rotate, the window opens, and the RWL registers lock. -/
def execCommitApply (s : State) : Host.Outcome State Fault Refusal :=
  match s.cfg.commit with
  | none => .next s
  | some p =>
    let old := slotVersion s.cfg.active
    let s := onCfg (fun c => { c with commit := none }) (advanceTo p.instant s)
    let s := dropCopy (onCfg (commitSlots p) (applyImage p.image (cfgRecord 0 old p.image.version s)))
    let s := onBoot (fun b => { b with locked := true, stage := if b.stage = .noConfig then .ready else b.stage }) s
    .next (completeAt (stampOf p.instant) p.issue (refusal .ok) (writeDirectory s))

/-! ### Confirmation, rollback and the return (R143 to R149) -/

/-- CFG_CONFIRM (R143): E has passed while the return waits, or is reached now. -/
def confirmLate (s : State) : Bool := s.cfg.autoReturn.isSome || s.cfg.window.any fun e => decide (e ≤ s.now)

/-- CFG_CONFIRM. -/
def execCfgConfirm (d : Desc) (s : State) : Host.Outcome State Fault Refusal :=
  .next (hostCommand 0x04 (.cfgConfirm d) d (fun iss s =>
    match firstFail [(d.indirect, badParam 1), (d.tgt ≠ 0x0C000000, badParam 8), d.strayCheck [(12, 4)], (confirmLate s, refusal .timeout),
        (s.cfg.active.isNone || slotVersion s.cfg.active != d.u 12 4, badParam 12)] with
    | some r => refuse iss r s
    | none =>
      if s.cfg.window.isNone then complete iss .ok s
      else complete iss .ok (writeDirectory (onCfg (fun c => { c with window := none, confirmed := true }) s))) s)

/-- CFG_ROLLBACK (R148). -/
def execCfgRollback (d : Desc) (s : State) : Host.Outcome State Fault Refusal :=
  .next (hostCommand 0x05 (.cfgRollback d) d (fun iss s =>
    match firstFail [(d.indirect, badParam 1), (d.tgt ≠ 0x0C000001, badParam 8), d.strayCheck [(12, 8)],
        (s.cfg.previous.isNone, badParam 8), (s.cfg.commit.isSome || s.cfg.rollback.isSome, refusal .rejectedBusy)],
        commitInstant (d.u 12 8) s with
    | some r, _ => refuse iss r s
    | none, none => refuse iss (refusal .timeout) s
    | none, some t => onCfg (fun c => { c with rollback := some (iss, t) }) s) s)

/-- The instant of the automatic return that follows E (R144). -/
def returnAt (e : Nat) : Nat := strobeAt (e + qLead)

/-- WINDOW_END (R144): E passes unconfirmed, and the return waits for its instant. -/
def execWindowEnd (s : State) : Host.Outcome State Fault Refusal :=
  match s.cfg.window with
  | none => .next s
  | some e => .next (onCfg (fun c => { c with window := none, autoReturn := some (returnAt e) }) (advanceTo e s))

/-- The slots after a return to PREVIOUS (R145): the replaced image goes to STAGED, unless the host has staged another. -/
def returnSlots (c : Config) : Config :=
  let keeps := c.staged.isSome && !c.returned
  { c with
    active := c.previous, previous := none, confirmed := true, window := none, autoReturn := none, rollback := none
    staged := if keeps then c.staged else if c.active.isSome then c.active else c.staged
    returned := if keeps then false else c.active.isSome || c.returned }

/-- The return is made now (R144 to R147). -/
def makeReturn (kind : Nat) (s : State) : State :=
  let old := slotVersion s.cfg.active
  let new := s.cfg.previous
  let s := onCfg returnSlots (applyConfig (new.map (·.image)) (cfgRecord kind old (slotVersion new) s))
  let s := if s.cfg.returned then dropCopy s else s
  let s := onBoot (fun b => { b with stage := if new.isNone && b.stage == .ready then .noConfig else b.stage }) s
  writeDirectory s

/-- FALLBACK_RETURN (R144 to R149): at the earlier of the rollback's instant and the automatic one. -/
def execFallbackReturn (s : State) : Host.Outcome State Fault Refusal :=
  let auto := s.cfg.autoReturn.orElse fun _ => s.cfg.window.map returnAt
  match s.cfg.rollback, auto with
  | some (iss, t), some a =>
    if t < a then .next (completeAt (stampOf t) iss (refusal .ok) (makeReturn 2 (advanceTo t s)))
    else .next (complete iss .superseded (makeReturn 1 (advanceTo a s)))
  | some (iss, t), none => .next (completeAt (stampOf t) iss (refusal .ok) (makeReturn 2 (advanceTo t s)))
  | none, some a => if s.cfg.autoReturn.isNone then .next s else .next (makeReturn 1 (advanceTo a s))
  | none, none => .next s

/-! ### The STAGED copy (R129) -/

/-- STAGED is emptied because its image in flash does not verify (R129): error 291. -/
def emptyStaged (s : State) : State :=
  raise 291 0 0 (writeDirectory (dropCopy (onCfg (fun c => { c with staged := none, returned := false }) s)))

/-- STAGED_COPY_REBUILD (R129): a bank is free, and the copy is built again from flash, where `verified` says what the signature and digest
checks find. An image that fails is emptied with error 291. -/
def execStagedCopyRebuild (verified : Bool) (s : State) : Host.Outcome State Fault Refusal :=
  match s.cfg.staged, s.plc.stagedBank, stagedChoice s with
  | some x, none, some b =>
    if s.cfg.returned || (s.flash.area[x.area]).isNone then .next s
    else if verified && ownedPart s && contentOk x.image s && bindingOk x.image && decide (s.cfg.high < x.image.version) then
      .next (bumpGen (onPlc (fun p => { p with stagedBank := some b }) s))
    else .next (emptyStaged s)
  | _, _, _ => .next s

/-! ### Flash writes (R150 to R153) -/

/-- GLB_BOOT_STATUS.persist_pending (R118, R150): a configuration change, a map write or a ledger write waits for the flash. -/
def persistPending (s : State) : Bool :=
  s.flash.queue.any fun i => match i with
    | .keys => false
    | .firmware _ _ => false
    | _ => true

/-- Two copies written alternately: the older is replaced (R103). -/
def writeOlder {α : Type} (age : α → Nat) (x : α) (v : Vector α 2) : Vector α 2 := if age v[0] ≤ age v[1] then v.set 0 x else v.set 1 x

/-- A write that has been verified is in flash. A firmware load completes OK (R653). -/
def storeItem (i : FlashItem) (s : State) : State :=
  match i with
  | .slot a x => onFlash (fun f => { f with area := f.area.set a (some x) }) s
  | .directory d => onFlash (fun f => { f with dirs := writeOlder (·.1) (max f.dirs[0].1 f.dirs[1].1 + 1, d) f.dirs }) s
  | .map => onFlash (fun f => { f with maps := writeOlder (·.updates) s.map f.maps }) s
  | .ledger => onFlash (fun f => { f with ledgers := writeOlder (·.1) (max f.ledgers[0].1 f.ledgers[1].1 + 1, s.thm.ledger) f.ledgers }) s
  | .keys => s
  | .firmware b x =>
    let s := onSec (fun y => { y with fw := y.fw.set (bit b) (some x) (by unfold bit; split <;> omega) }) s
    match s.sec.load with
    | some (iss, _) => complete iss .ok (onSec (fun y => { y with load := none }) s)
    | none => s

/-- A flash write may be under way now: one waits, and neither the temperature nor a failure holds it (R150, R153). -/
def flashBusy (s : State) : Bool := !s.flash.queue.isEmpty && !s.flash.held && !s.flash.failed

/-- The first write ends well. The last configuration change that had been held back is recorded as persisted (R596). -/
def flashDone (i : FlashItem) (rest : List FlashItem) (s : State) : State :=
  let s := storeItem i (onFlash (fun f => { f with queue := rest, tries := 0 }) s)
  if isConfigItem i && s.flash.late && !rest.any isConfigItem then
    cfgRecord 4 (slotVersion s.cfg.active) (slotVersion s.cfg.active) (onFlash (fun f => { f with late := false }) s)
  else s

/-- The first write fails (R153): the third failure raises error 292, and writing waits 10 s. -/
def flashFails (i : FlashItem) (s : State) : State :=
  let n := s.flash.tries + 1
  let s := onFlash (fun f => { f with tries := n }) s
  if n < 3 then s
  else
    let s := onFlash (fun f => markLate { f with failed := true, retryAt := s.time.mono + 10 * qSecond }) s
    if n ≠ 3 then s
    else
      let s := raise 292 0 0 s
      if isConfigItem i then cfgRecord 5 (slotVersion s.cfg.active) (slotVersion s.cfg.active) s else s

/-- FLASH_WRITE_DONE (R153). -/
def execFlashWriteDone (ok : Bool) (s : State) : Host.Outcome State Fault Refusal :=
  match s.flash.queue with
  | [] => .next s
  | i :: rest => if !flashBusy s then .next s else .next (if ok then flashDone i rest s else flashFails i s)

/-- FLASH_RETRY (R153). -/
def execFlashRetry (s : State) : Host.Outcome State Fault Refusal :=
  if s.flash.failed then .next (onFlash (fun f => { f with failed := false }) (advanceMono s.flash.retryAt s)) else .next s

/-- PERSIST_FLUSH (R151): every zone has been back in range for its dwell, and the writes go on in their order. -/
def execPersistFlush (s : State) : Host.Outcome State Fault Refusal :=
  match allHeld (·.flash) s with
  | some m => if s.flash.held then .next (onFlash (fun f => { f with held := false }) (advanceMono m s)) else .next s
  | none => .next s

/-! ### LINK_MAP (R424) -/

/-- LINK_MAP. -/
def execLinkMap (d : Desc) (s : State) : Host.Outcome State Fault Refusal :=
  .next (hostCommand 0x39 (.linkMap d) d (fun iss s =>
    match linkMapCheck d, d.bytes with
    | some r, _ => refuse iss r s
    | none, none => bufferError iss s
    | none, some bs => linkMap iss d bs s.cfg.commit.isSome s) s)

end Sys2Proof.Machine
end

