-- ==== Sys2Proof/Machine/Boot.lean ====
section
/-! DEFINITION. Resets of the whole part and the boot order (R94 to R112, R118, R358, R646 to R648, R673, R682). -/
namespace Sys2Proof.Machine
open Sys2Proof

/-! ### What a reset takes along (R95, R102, R103, R208) -/

/-- Every RADIO_STATE in progress completes SUPERSEDED (R208). -/
def dropRadioStates (s : State) : State :=
  let s := (indices 32).foldl (fun s p => endRequest (.tx p) .superseded (endRequest (.rx p) .superseded s)) s
  (indices 4).foldl (fun s t => completeOpt (s.tiles.tile[t]).floorIssue .superseded
    (onTile t (fun x => { x with floorIssue := none }) s)) s

/-- The flash after a cold or warm reset (R95, R103, R152): the writes that waited are lost, and the slot of one under way is invalid. -/
def flashKept (s : State) : Flash :=
  let f := s.flash
  let area := match f.queue with
    | .slot a _ :: _ => if flashBusy s then f.area.set a none else f.area
    | _ => f.area
  { f with queue := [], tries := 0, failed := false, retryAt := 0, held := false, late := false, area := area }

/-- The firmware slots after a cold or warm reset (R103). -/
def firmwareKept (s : State) : Vector (Option Firmware) 2 :=
  match s.flash.queue with
  | .firmware b _ :: _ => if flashBusy s then upd s.sec.fw (if b then 1 else 0) (fun _ => none) else s.sec.fw
  | _ => s.sec.fw

/-- The front end's inputs, which follow their pins through a reset. -/
def pinsKept (old : FrontEnd) (counts : Bool) (new : FrontEnd) : FrontEnd :=
  { new with
    fems := updAll new.fems fun n x => { x with fltT := (old.fems[n]).fltT, fltC := (old.fems[n]).fltC }
    cx := updAll new.cx fun c x =>
      let y := old.cx[c]
      { x with pinA := y.pinA, pinG := y.pinG, request := y.pinA, grant := y.pinG }
    blanks := updAll new.blanks fun b x =>
      { x with level := (old.blanks[b]).level, asserts := if counts then (old.blanks[b]).asserts else 0 } }

/-- A cold reset (R94, R95): everything takes its reset value but OTP, the flash, the pins, and the queue of what comes from outside. -/
def coldReset (s : State) : State :=
  let s := dropRadioStates s
  let r := State.reset
  { r with
    pending := s.pending, out := s.out, free := s.free
    flash := flashKept s
    fec := pinsKept s.fec false r.fec
    hif := { r.hif with perstLow := s.hif.perstLow, rings := s.hif.rings.map fun (x : Ring) => { ringReset with era := x.era + 1 } }
    sec := { r.sec with owner := s.sec.owner, minSvn := s.sec.minSvn, fw := firmwareKept s, addr := s.sec.addr, nonces := s.sec.nonces } }

/-! ### Power and the reset ball (R94, R673, R675, R682) -/

/-- POWER_GOOD (R671, R673): the rails are good, power-on reset is released, and the address straps are sampled. -/
def execPowerGood (straps : BitVec 2) (refclkSel : Bool) (s : State) : Host.Outcome State Fault Refusal :=
  if s.boot.heldBy = .power then
    .next (onSec (fun x => { x with addr := straps })
      (onBoot (fun b => { b with powerGood := true, heldBy := .nothing, refclkSel := refclkSel }) s))
  else .next s

/-- POWER_FAIL (R675): power-on reset is held; of the causes, only power_on is set by it, and the others are lost. -/
def execPowerFail (s : State) : Host.Outcome State Fault Refusal :=
  let s := coldReset s
  .next (onBoot (fun b => { b with heldBy := .power, cause := 1, powerGood := false, refclk := false }) s)

/-- SYS_RESET (R94, R118): the pulse on the ball has ended; a cold reset that power holds goes on. -/
def execSysReset (straps : BitVec 2) (refclkSel : Bool) (s : State) : Host.Outcome State Fault Refusal :=
  let cause := s.boot.cause ||| 2
  let held := s.boot.heldBy == .power
  let s := coldReset s
  .next (onSec (fun x => { x with addr := straps })
    (onBoot (fun b => { b with
      heldBy := if held then .power else .nothing, cause := cause, powerGood := !held, refclkSel := refclkSel }) s))

/-- The frequency of REFCLK that REFCLK_SEL selects, in Hz (R681). -/
def refclkHz (sel : Bool) : Nat := if sel then 122880000 else 245760000

/-- Is a frequency in Hz within ±1,000 ppm of the selected one (R682)? -/
def refclkOk (sel : Bool) (hz : Nat) : Bool :=
  decide (999 * refclkHz sel ≤ 1000 * hz) && decide (1000 * hz ≤ 1001 * refclkHz sel)

/-- REFCLK_QUALIFIED (R681, R682): with REFCLK within ±1,000 ppm of the selected frequency boot goes on past step 3, and the boot ROM runs. -/
def execRefclkQualified (hz : Nat) (s : State) : Host.Outcome State Fault Refusal :=
  if s.boot.powerGood && s.boot.heldBy == .nothing && s.boot.stage == .reset && refclkOk s.boot.refclkSel hz then
    .next (onBoot (fun b => { b with refclk := true, stage := .rom }) s)
  else .next s

/-- PLL_LOCK_LOST (R682): after boot, source 310 is raised, which is FATAL. DESIGN CHOICE: boot is over for it once FW_RUN is reached. -/
def execPllLockLost (s : State) : Host.Outcome State Fault Refusal :=
  if pastFwRun s then .next (raise 310 0 0 (onBoot (fun b => { b with refclk := false }) s)) else .next s

/-! ### Warm reset (R94 to R98, R102, R103) -/

/-- May a warm reset start? A reset that runs and has not reached FW_RUN absorbs it (R101). -/
def mayWarm (s : State) : Bool := s.boot.heldBy == .nothing && pastFwRun s

/-- A warm reset is asked for (R94, R97, R118): its cause is recorded and the halt path is asserted before any block is reinitialised. -/
def startWarm (cause : BitVec 10) (watchdog : Bool) (s : State) : State :=
  if mayWarm s then
    setHalt .reset (onBoot (fun b => { b with cause := b.cause ||| cause, heldBy := if watchdog then .watchdog else .warm }) s)
  else s

/-- GLB_RESET_WARM (R118): a write with another key is ignored and counted. -/
def execGlbResetWarm (key : Half) (s : State) : Host.Outcome State Fault Refusal :=
  .next (viaBar 0 (fun s => if key = 0x6144 then startWarm 4 false s else dropAccess 0 s) s)

/-- WATCHDOG_EXPIRY (R94, R587): in the fatal state, only once the dump has ended and with fatal_reset set. -/
def execWatchdogExpiry (s : State) : Host.Outcome State Fault Refusal :=
  if s.flt.fatal && !(s.flt.fatalReset && s.flt.dump.phase == .done) then .next s
  else .next (startWarm 16 true s)

/-- A source after a warm reset: an injected hold is gone (R102), and of the conditions only the halt's persists. -/
def sourceKept (i : Fin 320) (x : Source) : Source := { x with hold := false, cond := x.cond && i == 138 }

/-- The fault collector after a warm reset (R95, R102, R589, R590). -/
def collectorKept (c : Collector) : Collector :=
  { c with
    fatal := false, sources := updAll c.sources sourceKept, injections := [], selftests := []
    dump := { c.dump with registered := none, phase := .idle, current := none, waiting := [] } }

/-- A synthesiser after a warm reset: its stored calibration is kept (R95, R112). -/
def synthKept (y : Synth) : Synth := { synthReset with stored := y.stored, calTemp := y.calTemp, calBand := y.calBand }

/-- The tiles after a warm reset: in Sleep, with their calibration (R95, R96). -/
def tilesKept (x : Tiles) : Tiles :=
  { tilesReset with tile := updAll tilesReset.tile fun t y =>
      { y with
        syn := (x.tile[t]).syn.map synthKept, active := (x.tile[t]).active, handoverCount := (x.tile[t]).handoverCount
        appliedBand := (x.tile[t]).appliedBand } }

/-- The supervisor after a warm reset: the halt sources and the counts since cold reset are kept (R354, R369). -/
def protectKept (n : Protect) : Protect :=
  { protectReset with
    slice := updAll protectReset.slice fun i x => { x with squallCount := (n.slice[i]).squallCount }
    port := updAll protectReset.port fun i x => { x with muteCount := (n.port[i]).muteCount }
    haltHost := n.haltHost, haltMgmt := n.haltMgmt, haltReset := n.haltReset, haltThermal := n.haltThermal, haltTime := n.haltTime }

/-- The lanes after a warm reset: their counts since cold reset are kept (R441). -/
def linksKept (l : LinkBlock) : LinkBlock :=
  { linkBlockReset with lane := updAll linkBlockReset.lane fun i x =>
      { x with corrected := (l.lane[i]).corrected, uncorrectable := (l.lane[i]).uncorrectable } }

/-- Security and management after a warm reset (R664, R668, R669, R671): OTP, the firmware slots, and what the always-on domain keeps. -/
def securityKept (s : State) : Security :=
  { securityReset with
    debug := s.sec.debug, owner := s.sec.owner, minSvn := s.sec.minSvn, fw := firmwareKept s, failures := s.sec.failures
    lockedOut := s.sec.lockedOut, nonce := s.sec.nonce, nonces := s.sec.nonces, eid := s.sec.eid, addr := s.sec.addr
    pecErrors := s.sec.pecErrors }

/-- The blocks are reinitialised by a warm reset; the always-on domain is not (R94, R95, R98, R621, R694). -/
def warmReset (s : State) : State :=
  let s := dropRadioStates s
  let r := State.reset
  { r with
    pending := s.pending, out := s.out, free := s.free, evr := s.evr, thm := s.thm
    time := { s.time with step := none, seconds := none }
    boot := { r.boot with
      stage := .rom, heldBy := .nothing, cause := s.boot.cause, powerGood := s.boot.powerGood, refclk := s.boot.refclk, refclkSel := s.boot.refclkSel
      cold := false, skipped := BitVec.allOnes 48 }
    hif := { hifReset with perstLow := s.hif.perstLow, rings := s.hif.rings.map fun (x : Ring) => { ringReset with era := x.era + 1 } }
    flt := collectorKept s.flt
    flash := flashKept s
    lnk := linksKept s.lnk
    tiles := tilesKept s.tiles
    fec := pinsKept s.fec true r.fec
    cen := { r.cen with swaps := s.cen.swaps }
    nps := protectKept s.nps
    sec := securityKept s }

/-- WARM_RESET_SEQUENCE (R97, R587): with every output off, the blocks are reinitialised and boot begins, with its COLD_START check (R113, R694). A
watchdog's expiry is reported after the reset. -/
def execWarmResetSequence (s : State) : Host.Outcome State Fault Refusal :=
  let booted := (indices 6).foldl checkCold (calm (warmReset s))
  match s.boot.heldBy with
  | .warm => .next booted
  | .watchdog => .next (raise 312 0 0 booted)
  | _ => .next s

/-! ### Firmware runs (R104 to R107, R559, R641, R647) -/

/-- A firmware slot that the boot ROM may boot (R105, R650): its image verifies, and its svn is not below min_svn. -/
def bootable (ok : Bool) (f : Option Firmware) (s : State) : Option Firmware := f.filter fun x => ok && decide (s.sec.minSvn ≤ x.svn)

/-- Of two copies written alternately, the one with the higher count among those whose digest verifies (R559). -/
def newerCopy {α : Type} (age : α → Nat) (v : Vector α 2) (ok : Vector Bool 2) : Option α :=
  if ok[0] && (!ok[1] || decide (age v[1] ≤ age v[0])) then some v[0] else if ok[1] then some v[1] else none

/-- Error 297, once for every copy that failed its check (R647, R670). -/
def reportCopies {n : Nat} (ok : Vector Bool n) (s : State) : State := (indices n).foldl (fun s i => if ok[i] then s else raise 297 0 0 s) s

/-- The retirement map takes effect (R10, R558): every unit it names is RETIRED. -/
def applyMap (s : State) : State :=
  let m := s.map
  { s with
    plc := { s.plc with engine := updAll s.plc.engine fun e x => if m.engines.getLsbD e then { x with state := .retired } else x }
    mem := { s.mem with bank := updAll s.mem.bank fun b x => if m.banks.getLsbD b then { x with state := .retired } else x }
    lnk := { s.lnk with lane := updAll s.lnk.lane fun l x => if m.lanes.getLsbD l then { x with state := .retired } else x }
    tiles := { s.tiles with
      rx := updAll s.tiles.rx fun p x => { x with retired := m.rx.getLsbD p }
      tx := updAll s.tiles.tx fun p x => { x with retired := m.tx.getLsbD p } } }

/-- The owner keys after the check of the key record (R647): a modulus that fails makes its key unusable. -/
def checkKeys (keys : Vector Bool 4) (s : State) : State :=
  let bad := updAll s.sec.owner fun i k => k.programmed && !keys[i]
  let s := reportCopies (bad.map fun b => !b) s
  onSec (fun x => { x with
    owner := updAll x.owner fun i k => { k with usable := k.programmed && keys[i] }, keyBad := anyOf bad fun b => b }) s

/-- Step 5 of the boot (R104, R107): banks outside the skip mask are zeroed after a cold reset, and after a warm one none is. -/
def zeroBanks (skip : BitVec 48) (s : State) : State :=
  let skipped := if s.boot.cold then skip else BitVec.allOnes 48
  let s := onBoot (fun b => { b with skipped := skipped }) s
  onMem (fun m => { m with bank := updAll m.bank fun b x => { x with zeroed := !skipped.getLsbD b } }) s

/-- The firmware of a slot runs (R104 steps 5 and 7): the map, the ledger and the key record are loaded. -/
def runFirmware (slot : Bool) (f : Firmware) (maps ledgers : Vector Bool 2) (keys : Vector Bool 4) (skip : BitVec 48) (s : State) : State :=
  let fall := slot != s.flash.boot
  let s := onBoot (fun b => { b with stage := .fwRun, fwSlot := slot, fwFallback := fall }) (zeroBanks skip s)
  let s := onSec (fun x => { x with running := some f, slot := slot }) s
  let s := if fall then raise 288 0 0 s else s
  let s := applyMap (onMap (fun m => (newerCopy (·.updates) s.flash.maps maps).getD m) (reportCopies maps s))
  let s := if s.boot.cold then
      onThm (fun t => { t with ledger := ((newerCopy (·.1) s.flash.ledgers ledgers).map (·.2)).getD t.ledger }) (reportCopies ledgers s)
    else s
  checkKeys keys s

/-- FW_RUN (R104 to R107): the current slot boots, or the other, or neither does and the part enters RECOVERY. `okA` and `okB` say what the
verification of the slots finds; `maps`, `ledgers` and `keys` what the checks of the flash records find. DESIGN CHOICE: `skip` is the skip mask of
the firmware header (R107), of which R649 says not where it lies: the command carries it, and nothing binds it to the slot's image. -/
def execFwRun (okA okB : Bool) (maps ledgers : Vector Bool 2) (keys : Vector Bool 4) (skip : BitVec 48) (s : State) :
    Host.Outcome State Fault Refusal :=
  if s.boot.stage != .rom && s.boot.stage != .fwVerify then .next s
  else
    let a := bootable okA s.sec.fw[0] s
    let b := bootable okB s.sec.fw[1] s
    let first := if s.flash.boot then b else a
    let other := if s.flash.boot then a else b
    match first, other with
    | some f, _ => .next (runFirmware s.flash.boot f maps ledgers keys skip s)
    | none, some f => .next (runFirmware (!s.flash.boot) f maps ledgers keys skip s)
    | none, none => .next (onBoot (fun b => { b with stage := .recovery }) (zeroBanks skip s))

/-! ### The configuration of the boot (R108, R129, R147, R149) -/

/-- A role as flash holds it. -/
def roleSlot (r : Option (Fin 3)) (s : State) : Option Slot := r.bind fun a => (s.flash.area[a]).map fun i => { area := a, image := i }

/-- The slot directory that flash holds: the newer of its copies. -/
def flashDirectory (s : State) : SlotDir := if s.flash.dirs[0].1 < s.flash.dirs[1].1 then s.flash.dirs[1].2 else s.flash.dirs[0].2

/-- The roles are read from flash. -/
def loadSlots (s : State) : State :=
  let d := flashDirectory s
  onCfg (fun _ => { configReset with
    active := roleSlot d.active s, previous := roleSlot d.previous s, staged := roleSlot d.staged s, confirmed := d.confirmed
    returned := d.returned, high := d.high }) s

/-- Does a slot's image verify at boot (R108)? `verified` says, by area, what the signature and digest checks find. -/
def bootVerifies (verified : Vector Bool 3) (s : State) (x : Slot) : Bool :=
  verified[x.area] && ownedPart s && contentOk x.image s && bindingOk x.image && decide (x.image.version ≤ s.cfg.high)

/-- The image of a slot is applied as the first commit (R104 step 8, R108, R118). -/
def bootApply (source : Nat) (x : Slot) (s : State) : State :=
  let s := applyImage x.image s
  onBoot (fun b => { b with stage := .ready, cfgSource := source, cfgVersion := x.image.version }) s

/-- No image is applied: the empty configuration stands, and the part waits for the host (R108). -/
def bootNothing (s : State) : State :=
  onBoot (fun b => { b with stage := .noConfig, cfgSource := 0, cfgVersion := 0 }) (settleUnits (countStreams s))

/-- The automatic return made by the boot (R108, R145, R149): PREVIOUS is applied, when it verifies. `fails` says that ACTIVE failed its
verification. -/
def bootReturn (verified : Vector Bool 3) (fails : Bool) (s : State) : State :=
  let old := slotVersion s.cfg.active
  let new := s.cfg.previous.filter (bootVerifies verified s)
  let s := if fails then raise 291 0 0 s else s
  let s := onCfg (fun c => returnSlots { c with previous := new }) s
  let s := match new with
    | some x => bootApply 2 x s
    | none => bootNothing s
  writeDirectory (cfgRecord 3 old (slotVersion new) s)

/-- A STAGED image that is not returned is verified and its copy is built again, or it is emptied (R129). -/
def bootStaged (verified : Vector Bool 3) (s : State) : State :=
  match s.cfg.staged with
  | some x =>
    if s.cfg.returned then s
    else if verified[x.area] && ownedPart s && contentOk x.image s && bindingOk x.image && decide (s.cfg.high < x.image.version) then
      match stagedChoice s with
      | some b => bumpGen (onPlc (fun p => { p with stagedBank := some b }) s)
      | none => s
    else emptyStaged s
  | none => if (flashDirectory s).staged.isSome && !s.cfg.returned then emptyStaged s else s

/-- The shed list names defined slices only (R636). -/
def trimShed (s : State) : State :=
  onThm (fun t => { t with overcast := { t.overcast with shed := t.overcast.shed.filter fun sl => (liveDef sl s).isSome } }) s

/-- READY (R104 steps 8 and 9, R108, R119, R355): the configuration, whose verification stage CFG_LOAD shows, is selected and applied, and
HALT_RESET is released. -/
def execReady (verified : Vector Bool 3) (s : State) : Host.Outcome State Fault Refusal :=
  if s.boot.stage != .fwRun && s.boot.stage != .cfgLoad then .next s
  else
    let named := (flashDirectory s).active.isSome
    let s := loadSlots s
    let s := match s.cfg.active with
      | some x =>
        let ok := bootVerifies verified s x
        if ok && s.cfg.confirmed then bootApply 1 x s else bootReturn verified (!ok) s
      | none => if named then bootReturn verified true s else bootNothing s
    .next (clearHalt .reset (trimShed (bootStaged verified s)))

/-! ### Reads with an effect (R5, R195) -/

/-- TILE_RX_STATUS_p as it reads (R195). -/
def rxStatusWord (x : RxPort) : Nat :=
  bit x.overrange + 2 * bit x.converged + 4 * bit x.spareInUse + 8 * bit x.retired + 256 * x.peak

/-- PEAK_READ (R195): the peak is returned and goes back to 255. -/
def execPeakRead (port : Fin 32) (s : State) : Host.Outcome State Fault Refusal :=
  .next (viaBar 0 (fun s => onRx port (fun x => { x with peak := 255 }) (emit (.readData 0 (rxStatusWord s.tiles.rx[port])) s)) s)

end Sys2Proof.Machine
end

