-- ==== Sys2Proof/Machine/Collector.lean ====
section
/-! DEFINITION. The fault collector's cycle: dual-rail sampling and broken pairs (R566 to R568), the order of assertions,
first-fault capture and history (R569 to R572, R577). What follows an assertion in the blocks is in `Machine/Faults.lean`. -/
namespace Sys2Proof.Machine
open Sys2Proof

/-- An always-on cycle of 40 ns in quarter-nanoseconds (R567). -/
abbrev qCycle : Nat := 160

/-- Does a source's pair read asserting (R566)? -/
def asserting (x : Source) : Bool := x.cond || x.hold || 0 < x.events || 0 < x.injEvents

/-- An assertion that the collector takes in a cycle (R569, R577). -/
structure Assertion where
  source : Fin 320
  real   : Bool
  inj    : Bool
  count  : Nat
  injCount : Nat
  unit   : Nat
  also   : List Nat
  detail : Nat
  capture : Bool
  stamp  : Nat
  epoch  : Nat
  deriving DecidableEq, Repr

/-- The assertion of a pair that reads validly: a change from quiet to asserting, or acknowledged single events. -/
def assertionOf (i : Fin 320) (x : Source) : Option Assertion :=
  let rise := !x.level
  let real := (x.cond && rise) || 0 < x.events
  let inj := (x.hold && rise) || 0 < x.injEvents
  if real || inj then
    some { source := i, real := real, inj := inj, count := max x.events (bit (x.cond && rise))
           injCount := x.injEvents + bit (x.hold && rise), unit := if real then x.unit else x.injUnit
           also := if real then x.also else []
           detail := if real then x.detail else x.injDetail, capture := x.injCapture, stamp := x.stamp, epoch := x.epoch }
  else none

/-- A pair after a valid reading that is accepted: single events are acknowledged, and the level is what persists. -/
def acknowledge (x : Source) : Source :=
  { x with level := x.cond || x.hold, events := 0, injEvents := 0, also := [], injCapture := false, badCycles := 0, goodCycles := 0 }

/-- Cycles of 40 ns in the 1 ms that a broken pair must read validly (R568). -/
abbrev healCycles : Nat := 25000

/-- One cycle of one pair (R568): its state after, its assertion, and whether it has just been declared broken. `bad` is a
reading of 0 and 0 or 1 and 1. -/
def samplePair (i : Fin 320) (bad : Bool) (x : Source) : Source × Option Assertion × Bool :=
  if bad then
    let n := x.badCycles + 1
    ({ x with badCycles := min 2 n, goodCycles := 0, broken := x.broken || 2 ≤ n }, none, !x.broken && 2 ≤ n)
  else if x.broken then
    if healCycles ≤ x.goodCycles + 1 then
      let y := { x with broken := false, badCycles := 0, goodCycles := 0, level := asserting x }
      if asserting x && !x.level then (acknowledge y, assertionOf i x, false) else (y, none, false)
    else ({ x with goodCycles := x.goodCycles + 1, badCycles := 0 }, none, false)
  else (acknowledge x, assertionOf i x, false)

/-- The order of one cycle's assertions (R570): real before injected, higher severity first, lower index first. -/
def orderAssertions (l : List Assertion) : List Assertion :=
  let pick (real : Bool) (sev : Severity) : List Assertion :=
    l.filter fun a => a.real == real && severityOf a.source == sev
  pick true .fatal ++ pick true .degraded ++ pick true .corrected ++ pick false .fatal ++ pick false .degraded
    ++ pick false .corrected

/-- The assertion that takes first-fault capture when the capture is empty (R571). -/
def captureOf (l : List Assertion) : Option Assertion :=
  match l.find? (·.real) with
  | some a => some a
  | none => l.find? (·.capture)

/-- A history entry joins the queue of 32; the oldest goes when it is full (R572). -/
def pushHistory (h : HistEntry) (c : Collector) : Collector :=
  if 32 ≤ c.history.length then
    { c with history := c.history.tail ++ [h], histOverwrites := satAdd 65535 c.histOverwrites 1 }
  else { c with history := c.history ++ [h] }

/-- The collector's work on one assertion (R569, R572, R577): latched status, counts, record and history entry. -/
def takeAssertion (cycleStamp : Nat) (first? coincident : Bool) (a : Assertion) (s : State) : State :=
  let sev := severityOf a.source
  let flags := bit coincident + 2 * bit (!a.real) + 4 * bit (a.real && a.inj) + 8 * bit first?
  let n := if a.real then a.count else a.injCount
  let payload : Payload := .event a.source a.unit (min 65535 n) (severityCode sev) flags a.detail
  let seq := recordNumber payload s
  let s := record payload a.stamp a.epoch none s
  let entry : HistEntry :=
    { stamp := cycleStamp, sequence := seq, epoch := s.time.epoch, source := a.source, severity := sev
      coincident := coincident, injected := !a.real, injectionCoincident := a.real && a.inj, tookFirst := first?
      repeats := min 65535 n, unit := a.unit }
  let mark (x : Source) : Source :=
    { x with
      latched := true, count := satAdd 65535 x.count a.count, injected := satAdd 65535 x.injected a.injCount }
  onFlt (fun c => { pushHistory entry c with sources := upd c.sources a.source mark }) s

/-- First-fault capture at a cycle's assertions, when it is empty (R571). -/
def takeFirst (cycleStamp : Nat) (l : List Assertion) (s : State) : State :=
  match s.flt.first, captureOf l with
  | none, some a =>
    let f : FirstFault :=
      { source := a.source, severity := severityOf a.source, injected := !a.real
        coincident := decide (1 < l.length), epoch := s.time.epoch, stamp := cycleStamp }
    onFlt (fun c => { c with first := some f }) s
  | _, _ => s

/-- Does an assertion take the capture, given what the capture held before the cycle? -/
def tookCapture (held : Bool) (l : List Assertion) (a : Assertion) : Bool :=
  !held && (captureOf l).any fun x => x.source == a.source

/-- The pairs after a cycle's samples. -/
def samplePairs (bad : List (Fin 320)) (s : State) : State :=
  { s with flt := { s.flt with sources := updAll s.flt.sources fun i x => (samplePair i (bad.contains i) x).1 } }

/-- The assertions of a cycle, ordered (R570). -/
def cycleAssertions (bad : List (Fin 320)) (s : State) : List Assertion :=
  orderAssertions ((indices 320).filterMap fun i => (samplePair i (bad.contains i) s.flt.sources[i]).2.1)

/-- The pairs declared broken in a cycle (R568). -/
def newlyBroken (bad : List (Fin 320)) (s : State) : List (Fin 320) :=
  (indices 320).filter fun i => (samplePair i (bad.contains i) s.flt.sources[i]).2.2

/-- Source 306 names a broken pair; a break of its own pair is reported on source 311 (R566, R568). -/
def reportBroken (i : Fin 320) (s : State) : State :=
  if i = 306 then raise 311 (target .errorSource i) i s else raise 306 (target .errorSource i) i s

/-- The assertions of a cycle recorded in order; every one after the first is coincident (R570). -/
def takeAll (cycleStamp : Nat) (held : Bool) (l : List Assertion) (s : State) : State :=
  (l.zipIdx).foldl (fun s p => takeAssertion cycleStamp (tookCapture held l p.1) (p.2 != 0) p.1 s) s

/-- A cycle of the collector (R567 to R572): the pairs are sampled, broken pairs are reported, the assertions are recorded, and
source 307 is raised once when the history queue overwrote an entry. -/
def collect (bad : List (Fin 320)) (s : State) : State :=
  let stamp := stampOf (s.now / qCycle * qCycle)
  let l := cycleAssertions bad s
  let broken := newlyBroken bad s
  let held := s.flt.first.isSome
  let full := 32 < s.flt.history.length + l.length
  let s := samplePairs bad s
  let s := takeAll stamp held l (takeFirst stamp l s)
  let s := broken.foldl (fun s i => reportBroken i s) s
  if full then raise 307 0 0 s else s

end Sys2Proof.Machine
end

