-- ==== Sys2Proof/Machine/Synths.lean ====
section
/-! DEFINITION. Synthesiser calibration and handover (R169 to R183) and temperature bands (R185 to R188). -/
namespace Sys2Proof.Machine
open Sys2Proof

/-! ### Commands (R179 to R182) -/

/-- The tile and synthesiser that a target names (R68, R179). -/
def synthUnit (t : Nat) : Option (Fin 4 × Fin 2) :=
  if t / 2 ^ 24 = classCode .tile ∧ targetIdx t < 512 ∧ targetIdx t % 256 < 4 then
    match finOf 4 (targetIdx t % 256), finOf 2 (targetIdx t / 256) with
    | some i, some y => some (i, y)
    | _, _ => none
  else none

/-- Is a preparation, a handover or a calibration pending on a tile (R182)? -/
def synthBusy (t : Fin 4) (s : State) : Bool := (s.tiles.tile[t]).prep.isSome || (s.tiles.tile[t]).standbyCal.isSome

/-- Is a tile's twin Failed, so that it makes no further handover (R177)? DESIGN CHOICE: a command that needs it completes NOT_LOCKED. -/
def twinFailed (t : Fin 4) (s : State) : Bool :=
  let x := s.tiles.tile[t]
  hasFailed x.syn[twinOf x]

/-- SYNTH_CAL (R179, R180, R182). -/
def execSynthCal (d : Desc) (s : State) : Host.Outcome State Fault Refusal :=
  .next (hostCommand 0x11 (.synthCal d) d (fun iss s =>
    match synthUnit d.tgt with
    | none => refuse iss (badParam 8) s
    | some (t, i) =>
      let x := s.tiles.tile[t]
      match firstFail [(x.state == .sleep, badParam 8), (1 < d.byte 12, badParam 12), d.strayCheck [(12, 1)],
          (synthBusy t s, refuseTarget .rejectedBusy d.tgt),
          (x.state == .synthOn && twinFailed t s, refuseTarget .notLocked d.tgt)] with
      | some r => refuse iss r s
      | none =>
        if x.state = .standby then
          onSynth t i (fun y => { y with state := .calibrating })
            (onTile t (fun x => { x with standbyCal := some { issue := iss, syn := i } }) s)
        else startPrep t (i == x.active || d.byte 12 == 1) (some iss) none (i == x.active) s) s)

/-- SYNTH_CAL_DONE (R180): a calibration in Standby ends; the tile's next SynthOn entry uses the synthesiser, also one that would have re-entered on
the twin after a lock loss. A Failed synthesiser stays Failed (R177). -/
def execSynthCalDone (tile : Fin 4) (s : State) : Host.Outcome State Fault Refusal :=
  match (s.tiles.tile[tile]).standbyCal with
  | none => .next s
  | some c =>
    let s := onSynth tile c.syn (fun y => { y with
      state := if hasFailed y then .failed else .off, stored := true, calTemp := zoneValue (tileZone tile) s, calBand := tileBand tile s }) s
    let s := onTile tile (fun x => { x with active := c.syn, standbyCal := none, relock := false }) s
    let s := onTile tile (fun x => { x with calOverdue := x.calOverdue && !nearCal tile x.syn[x.active] s }) s
    .next (finishTile tile (complete c.issue .ok s))

/-- SYNTH_HANDOVER (R179, R181, R182). -/
def execSynthHandover (d : Desc) (s : State) : Host.Outcome State Fault Refusal :=
  .next (hostCommand 0x12 (.synthHandover d) d (fun iss s =>
    match d.unit .tile 4 with
    | none => refuse iss (badParam 8) s
    | some t =>
      let stamp := d.u 12 8
      let at' := instantOf s.now stamp
      match firstFail [((s.tiles.tile[t]).state != .synthOn, badParam 8), d.strayCheck [(12, 8)],
          (synthBusy t s, refuseTarget .rejectedBusy d.tgt), (twinFailed t s, refuseTarget .notLocked d.tgt),
          (stamp != 0 && decide (at' < s.now + 80000000), refusal .timeout)] with
      | some r => refuse iss r s
      | none => startPrep t true (some iss) (if stamp = 0 then none else some at') false s) s)

/-- TEMP_HANDOVER_TRIGGER (R172, R182): the zone has differed from the active calibration by cal_delta for its dwell. A pending command's
work absorbs the trigger; a preparation in the background becomes a handover (DESIGN CHOICE). -/
def execTempHandoverTrigger (tile : Fin 4) (s : State) : Host.Outcome State Fault Refusal :=
  let x := s.tiles.tile[tile]
  match x.deltaSince with
  | none => .next s
  | some t =>
    if x.state ≠ .synthOn then .next s
    else
      let s := advanceMono (t + dwellQ s.thm.zone[tileZone tile]) s
      if !x.autoCal || twinFailed tile s then .next (onTile tile (fun x => { x with calOverdue := true }) s)
      else match x.prep with
        | some p =>
          if p.issue.isSome then .next s
          else .next (onTile tile (fun x => { x with prep := some { p with handover := true } }) s)
        | none => .next (startPrep tile true none none false s)

/-! ### Preparation and handover (R173, R174, R177) -/

/-- The patterns of the timers bound to a tile's ports (R174, R186). -/
def tilePatterns (t : Fin 4) (s : State) : List Pattern :=
  (portsOf t).filterMap fun m => (pairTimer m s).bind fun i => (s.tdd.timers[i]).pattern

/-- Does a port of a tile carry a TDD slice (R174, R186)? -/
def tileTdd (t : Fin 4) (s : State) : Bool := (portsOf t).any fun m => isPair m s

/-- An instant inside a switching gap of every pattern. -/
def inAllGaps (l : List Pattern) (t : Nat) : Bool := l.all fun p => (segmentAt p.segs 0 (phaseAt p t)).2 == .gap

/-- The first strobe from `t` on inside a gap of every pattern, looking at `n` strobes. -/
def gapStrobe (l : List Pattern) : Nat → Nat → Option Nat
  | 0, _ => none
  | n + 1, t => if inAllGaps l t then some t else gapStrobe l n (t + qStrobe)

/-- The handover boundary of a twin that is prepared now (R174). -/
def handoverBoundary (t : Fin 4) (instant : Option Nat) (s : State) : Nat :=
  match instant with
  | some i => strobeAt (max i s.now)
  | none =>
    if tileTdd t s ∧ (s.tiles.tile[t]).tddGapAlign = true then
      (gapStrobe (tilePatterns t s) 625000 (strobeAt s.now)).getD (strobeAt (s.now + 80000000))
    else strobeAt s.now

/-- TWIN_PREPARED (R173 step 6, R180): the twin is calibrated and its phase slaved. A handover waits for its boundary. -/
def execTwinPrepared (tile : Fin 4) (s : State) : Host.Outcome State Fault Refusal :=
  let x := s.tiles.tile[tile]
  match x.prep with
  | none => .next s
  | some p =>
    if p.step ≠ .preparing then .next s
    else
      let s := onSynth tile (twinOf x) (fun y => { y with
        state := .idleLocked, locked := true, calTemp := p.temp, calBand := p.band, stored := true, prepared := true, failCount := 0 }) s
      if p.handover then
        let b := handoverBoundary tile p.instant s
        .next (onTile tile (fun x => { x with prep := some { p with step := .waiting, boundary := b } }) s)
      else .next (completeOpt p.issue .ok (onTile tile (fun x => { x with prep := none }) s))

/-- The shadow table of a tile becomes the table in use (R186, R187): the correction of its RX ports has to converge anew. -/
def applyBand (t : Fin 4) (s : State) : State :=
  let band := wantedBand t s
  let s := onTile t (fun x => { x with appliedBand := band, applyPending := false }) s
  onTiles (fun x => { x with rx := updAll x.rx fun m y => if tileOf m = t then { y with converged := false } else y }) s

/-- HANDOVER_BOUNDARY (R173 step 7, R186): the selector switches to the twin, and a pending band table applies at the same edge. The former active
synthesiser becomes the twin and stays locked: it is a prepared twin while the zone is within cal_delta of its calibration. -/
def execHandoverBoundary (tile : Fin 4) (s : State) : Host.Outcome State Fault Refusal :=
  let x := s.tiles.tile[tile]
  match x.prep with
  | none => .next s
  | some p =>
    if p.step ≠ .waiting then .next s
    else
      let s := advanceTo p.boundary s
      let twin := twinOf x
      let s := onSynth tile x.active (fun y => { y with state := .idleLocked, prepared := true }) s
      let s := onSynth tile twin (fun y => { y with state := .active }) s
      let s := onTile tile (fun x => { x with
        active := twin, handoverCount := (x.handoverCount + 1) % 65536, handoverTime := stampOf p.boundary, deltaSince := none
        prep := some { p with step := .switched }, calOverdue := x.calOverdue && !nearCal tile x.syn[twin] s }) s
      .next (if x.applyPending then applyBand tile s else s)

/-- HANDOVER_RECORD (R173 step 8): 1 µs after the boundary the phase step, in fs, is measured and recorded, and the command completes with the
stamp of the boundary, at which it took effect (R59). -/
def execHandoverRecord (tile : Fin 4) (phaseStep : Int) (s : State) : Host.Outcome State Fault Refusal :=
  let x := s.tiles.tile[tile]
  match x.prep with
  | none => .next s
  | some p =>
    if p.step ≠ .switched then .next s
    else
      let s := onTile tile (fun x => { x with prep := none }) (advanceTo (p.boundary + 4000) s)
      let s := recordNow (.synth tile 0 (synCode x.active) x.appliedBand phaseStep) s
      let s := notify (tileSource tile 7).val (target .tile tile) 0 s
      let s := match p.issue with
        | some i => completeAt (stampOf p.boundary) i (refusal .ok) s
        | none => s
      .next (if p.again then startPrep tile false none none false s else s)

/-- TWIN_FAILED (R177): the twin did not lock or exceeds the residual; its work is abandoned, and after three failures in a row it is
Failed. DESIGN CHOICE: R195 lets cal_overdue stand for 'Delta reached with auto_cal 0, or twin Failed', which is read as: the delta is reached while
auto_cal is 0 or the twin is Failed; so it is not set here. -/
def execTwinFailed (tile : Fin 4) (s : State) : Host.Outcome State Fault Refusal :=
  let x := s.tiles.tile[tile]
  match x.prep with
  | none => .next s
  | some p =>
    if p.step = .switched then .next s
    else
      let i := twinOf x
      let n := (x.syn[i]).failCount + 1
      let s := onTile tile (fun x => { x with prep := none, retryAt := if n < 3 then some (s.time.mono + 400000000) else none }) s
      let s := onSynth tile i (fun y => { y with
        state := if n < 3 then .off else .failed, locked := false, prepared := false, failCount := min 3 n }) s
      let s := if p.handover then abandonRecord tile s
               else if n < 3 then s else raise (tileSource tile 2) (target .tile tile) 0 s
      .next (completeOpt p.issue .notLocked s)

/-- TWIN_RETRY (R177): 100 ms after a failure the twin is prepared again. -/
def execTwinRetry (tile : Fin 4) (s : State) : Host.Outcome State Fault Refusal :=
  match (s.tiles.tile[tile]).retryAt with
  | none => .next s
  | some t =>
    let s := onTile tile (fun x => { x with retryAt := none }) (advanceMono t s)
    if (s.tiles.tile[tile]).prep.isSome || (s.tiles.tile[tile]).state != .synthOn then .next s
    else .next (startPrep tile false none none false s)

/-! ### Bands (R185 to R188) -/

/-- A tile loads the shadow table of the band it wants (R186): without TDD slices it applies at the first strobe at or after 50 ms. -/
def loadShadow (t : Fin 4) (s : State) : State :=
  onTile t (fun x => { x with applyPending := true, applyAt := strobeAt (s.now + 200000000) }) s

/-- A zone's band moves across a boundary, upwards or not. -/
def crossBand (b : Fin 4) (up : Bool) (z : Zone) : Zone :=
  { z with
    band := some (if up then b.val + 1 else b.val), cross := z.cross.set b (some up)
    timers := { z.timers with bands := z.timers.bands.set b none } }

/-- BAND_DECLARED (R185, R188): a zone's value has stayed beyond a band boundary for the dwell. A tile's zone loads its shadow table, unless
the band is forced. -/
def execBandDeclared (zone : Fin 6) (up : Bool) (s : State) : Host.Outcome State Fault Refusal :=
  let x := s.thm.zone[zone]
  let bound : Option (Fin 4) := x.band.bind fun n => if up then finOf 4 n else if n = 0 then none else finOf 4 (n - 1)
  match bound with
  | none => .next s
  | some b =>
    match x.timers.bands[b] with
    | none => .next s
    | some t =>
      let s := advanceMono (t + dwellQ x) s
      let s := onZone zone (fun z => retimeZone s.time.mono (crossBand b up z)) s
      match finOf 4 zone.val with
      | none => .next s
      | some tile => if (s.tiles.tile[tile]).forceEnable then .next s else .next (loadShadow tile s)

/-- BAND_TABLE_APPLY (R186): the shadow table applies at the first safe point, which is a gap of every bound pattern on a tile with TDD
slices. DESIGN CHOICE: that holds whatever tdd_gap_align is, of which R195 says that it places band changes in gaps too. -/
def execBandTableApply (tile : Fin 4) (s : State) : Host.Outcome State Fault Refusal :=
  let x := s.tiles.tile[tile]
  let at' := if tileTdd tile s then gapStrobe (tilePatterns tile s) 1875000 (strobeAt s.now) else some x.applyAt
  match x.applyPending, at' with
  | true, some t =>
    let s := applyBand tile (advanceTo t s)
    let s := recordNow (.synth tile 1 (synCode x.active) (s.tiles.tile[tile]).appliedBand 0) s
    .next (notify (tileSource tile 7).val (target .tile tile) 0 s)
  | _, _ => .next s

end Sys2Proof.Machine
end

