-- ==== Sys2Proof/Machine/Injection.lean ====
section
/-! DEFINITION. Fault injection (R574 to R578, R693): what a source covers, and the reaction of the block whose detector an injection
makes report. -/
namespace Sys2Proof.Machine
open Sys2Proof

/-! ### What a source covers (R693) -/

/-- What the injection of a source must name: nothing, a unit of one of some classes, or an instance below a bound. -/
inductive InjectScope where
  | nothing
  | unit (classes : List TargetClass)
  | inst (bound : Nat)
  deriving DecidableEq, Repr

/-- The table of R693. -/
def injectScope (src : Nat) : InjectScope :=
  if src = 0 then .inst 73
  else if 32 ≤ src && src < 64 then
    match src % 8 with
    | 0 => .unit [.rxPort, .txPort]
    | 3 => .unit [.txPort]
    | 4 => .unit [.rxPort, .txPort]
    | 5 => .unit [.rxPort, .txPort]
    | _ => .nothing
  else if src = 88 then .unit [.rxPort, .txPort, .tile]
  else if src = 90 then .inst 8
  else if src = 91 then .unit [.fem]
  else if [97, 128, 129, 133, 134, 135, 136, 139].contains src then .unit [.slice]
  else if [101, 102, 103, 104, 208, 209, 210].contains src then .unit [.engine]
  else if src = 130 || src = 131 then .unit [.txPort]
  else if src = 132 then .unit [.rxPort]
  else if (176 ≤ src && src ≤ 192) || src = 202 then .unit [.lane]
  else if [194, 196, 197, 198, 203].contains src then .inst 16
  else if [211, 256, 257, 258, 259, 261].contains src then .unit [.bank]
  else if 224 ≤ src && src ≤ 228 then .unit [.loop]
  else if src = 248 || src = 250 then .unit [.madc]
  else if src = 249 then .inst 128
  else if (272 ≤ src && src ≤ 277) || src = 279 then .inst 6
  else if src = 278 then .inst 24
  else if src = 304 || src = 305 then .unit [.rxPort, .txPort]
  else if src = 306 then .unit [.errorSource]
  else .nothing

/-- Is a unit in target encoding retired (R575)? -/
def unitRetired (t : Nat) (s : State) : Bool :=
  match targetClass t with
  | some .engine => (finOf 64 (targetIdx t)).any fun e => (s.plc.engine[e]).state == .retired
  | some .bank => (finOf 48 (targetIdx t)).any fun b => (s.mem.bank[b]).state == .retired
  | some .lane => (finOf 64 (targetIdx t)).any fun l => (s.lnk.lane[l]).state == .retired
  | some .rxPort => (finOf 32 (targetIdx t)).any fun p => rxRetired p s
  | some .txPort => (finOf 32 (targetIdx t)).any fun p => txRetired p s
  | some .madc => (finOf 8 (targetIdx t)).any fun c => madcRetired c s
  | _ => false

/-- Does a unit fit a source beyond its class: in range, of the source's tile, and for 176 + g a lane of LINK_g (R693)? -/
def unitFits (src unit : Nat) (s : State) : Bool :=
  match targetClass unit with
  | none => false
  | some c =>
    targetIdx unit < classSize c && !unitRetired unit s
      && (!(32 ≤ src && src < 64) || targetIdx unit / 8 == (src - 32) / 8)
      && (!(176 ≤ src && src < 192) || (finOf 64 (targetIdx unit)).any fun l =>
            ((s.lnk.lane[l]).cfg.link).any fun g => g.val == src - 176)
      && (c != .errorSource || !isNotification (targetIdx unit))

/-- The offending field of an injection's unit and instance, if any (R575). -/
def injectFault (src unit inst : Nat) (s : State) : Option Nat :=
  match injectScope src with
  | .nothing => if unit ≠ 0 then some 24 else if inst ≠ 0 then some 28 else none
  | .unit cs =>
    if !((targetClass unit).any cs.contains && unitFits src unit s) then some 24 else if inst ≠ 0 then some 28 else none
  | .inst n => if unit ≠ 0 then some 24 else if n ≤ inst then some 28 else none

/-! ### The reactions (R365, R576) -/

/-- The state that an outcome leaves. -/
def leaves (o : Host.Outcome State Fault Refusal) (s : State) : State :=
  match o with
  | .next t => t
  | _ => s

/-- Any ring enters Error by injection; its code is a free value. -/
def injectRing (n : Nat) (s : State) : State :=
  let e : RingError := match freeRingError s.free % 4 with
    | 0 => .dbOverrun
    | 1 => .fetchError
    | 2 => .cplWriteError
    | _ => .badConfig
  let s := takeFree s
  match finOf 64 n, finOf 8 (n - 65) with
  | some r, _ => if (s.hif.rings[r]).state = .running then ringFail r e s else s
  | none, some c =>
    if n = 64 then
      if s.hif.evr.state = .running then
        ringErrorEvent 64 e 0 s.hif.evr.vector (onHif (fun h => { h with evr := { h.evr with state := .error, error := e } }) s)
      else s
    else
      let x := s.hif.caps[c]
      if x.state = .running then
        ringErrorEvent n e x.owner x.vector (onHif (fun h => { h with caps := upd h.caps c fun x => { x with state := .error, error := e } }) s)
      else s
  | none, none => s

/-- The reactions of the tiles (R31, R177, R178, R190). -/
def injectTile (src unit : Nat) (s : State) : State :=
  let t : Fin 4 := ⟨(src - 32) / 8 % 4, by omega⟩
  match src % 8, targetOf .rxPort 32 unit, targetOf .txPort 32 unit with
  | 0, some p, _ => onDfe (fun d => { d with queue := upd d.queue p fun q => { q with rxError := true } }) s
  | 0, _, some p => onDfe (fun d => { d with queue := upd d.queue p fun q => { q with txError := true } }) s
  | 1, _, _ => leaves (execSynthLockLost t s) s
  | 2, _, _ => leaves (execTwinFailed t s) s
  | 3, _, some p =>
    let s := onTx p (fun x => { x with loadFault := true }) s
    if (s.nps.port[p]).reflectedEnable then mutePort true p .reflected true 0 s else s
  | _, _, _ => s

/-- The reactions of the front end and of time (R223, R225, R235, R350, R376 to R378). -/
def injectSite (src inst : Nat) (s : State) : State :=
  if 64 ≤ src && src < 80 then
    match finOf 16 (src - 64) with
    | some n => settle (onFem n (fun f => { f with fault := true, hold := f.hold || (f.faultEnable && f.faultAction) }) s)
    | none => s
  else match src, finOf 8 inst with
    | 4, _ => if s.hif.evr.state = .running then onEvr (fun r => { r with mirrorPaused := true }) s else s
    | 90, some b => onBlank b (fun x => { x with stuck := true }) s
    | 162, _ => onTime (fun t => { t with inverted := !t.inverted }) s
    | 163, _ => enterHoldover s
    | 164, _ => timingMute true s
    | 165, _ => onTime (fun t => { t with strays := satAdd 255 t.strays 1 }) s
    | 200, _ => if s.time.source then enterHoldover s else s
    | _, _ => s

/-- The reactions of the slice fabric, Soldin Link, Weathervane and the memory (R408, R460, R462, R548, R562). -/
def injectFabric (src unit : Nat) (s : State) : State :=
  match targetOf .slice 256 unit, targetOf .lane 64 unit, targetOf .bank 48 unit with
  | some sl, _, _ =>
    if src = 97 ∧ isDefined sl s = true ∧ (s.slices.slice[sl]).state ≠ .stopped then stopForCapacity sl s else s
  | none, some l, _ =>
    if (s.lnk.lane[l]).state ≠ .up then s
    else if 176 ≤ src ∧ src < 192 then failLane true l .remote s
    else if src = 192 then degradeLane true l s
    else s
  | none, none, some b =>
    if src = 256 then pulse 0x0402 (target .bank b) 1 (countError b (fun x => { x with corrected := satAdd 65535 x.corrected 1 }) s)
    else if 257 ≤ src ∧ src ≤ 259 then countError b (fun x => { x with uncorrectable := satAdd 255 x.uncorrectable 1 }) s
    else s
  | none, none, none => if src = 212 then leaves (execSpreadDeclared s) s else s

/-- The reactions of the loops and the converters (R484, R487, R517, R531, R532). DESIGN CHOICE: a parity error is that of word 0 of the
active bank. -/
def injectAnalog (src unit inst : Nat) (s : State) : State :=
  match targetOf .loop 64 unit, targetOf .madc 8 unit, finOf 128 inst with
  | some l, _, _ =>
    if src = 224 then onLoop l (fun x => { x with clamped := true }) s
    else if src = 225 then onLoop l (fun x => { x with accSat := true }) s
    else if src = 227 then takeParity s (l, 0)
    else s
  | none, some c, _ => if src = 250 then discardTrigger c s else s
  | none, none, n =>
    if src = 249 then
      match n with
      | some n => onSense n (fun y => { y with isOpen := true, openRun := 3, clearRun := 0 }) s
      | none => s
    else if 240 ≤ src ∧ src < 248 then
      match finOf 8 (src - 240) with
      | some c => askTest .madc c src true [] s
      | none => s
    else s

/-- The reactions of the thermal block (R626 to R638). -/
def injectThermal (src inst : Nat) (s : State) : State :=
  match src, finOf 6 inst, finOf 24 inst with
  | 272, some z, _ => declareThreshold z .highWarn s
  | 273, some z, _ => declareThreshold z .lowWarn s
  | 274, some z, _ => declareThreshold z .throttle s
  | 275, some _, _ => if (nextShed s).isSome then shedOne s else s
  | 276, some z, _ => enterCritical z s
  | 277, some z, _ => declareCold z s
  | 278, _, some i => failSensor i s
  | 279, some z, _ => enterOvercast z (onZone z (fun x => { x with noSensor := true }) s)
  | 280, _, _ => onThm (fun t => { t with lifeFull := true }) s
  | _, _, _ => s

/-- A residue mismatch of a DDC or DUC (R264 to R267), whose outputs it poisons when the recompute fails. DESIGN CHOICE: it is that of the first output of
stage 0. -/
def injectResidue (src unit : Nat) (s : State) : State :=
  let mono := s.time.mono
  match targetOf .rxPort 32 unit, targetOf .txPort 32 unit with
  | some p, _ =>
    let s := if src = 304 then s else onSig (fun g => { g with rx := upd g.rx p fun x => { x with bad := x.bad ++ [ddcRun 0 0 mono] } }) s
    portResidue true false p 0 (src == 304) false s
  | none, some p =>
    let s := if src = 304 then s else onSig (fun g => { g with tx := upd g.tx p fun x => { x with bad := x.bad ++ [ducRun 0 0 mono] } }) s
    portResidue true true p 0 (src == 304) false s
  | none, none => s

/-- A poisoned block of an engine (R265). DESIGN CHOICE: it is the first block of stage 0 of path A of the lowest slice at home there. -/
def injectBlock (e : Fin 64) (s : State) : State :=
  match (indices 256).find? fun sl => (((s.plc.placed[sl]).live).bind (·.engines.head?)) == some e with
  | none => s
  | some sl => match liveDef sl s with
    | none => s
    | some d => onChain sl .a (poisonChain d 0 0 s.time.mono) s

/-- The reaction of the block to an injected detection (R365, R576). A source that is not named here has none beyond its report, or one that
the collector starts. -/
def injectReaction (src unit inst : Nat) (s : State) : State :=
  if src = 0 then injectRing inst s
  else if 32 ≤ src && src < 64 then injectTile src unit s
  else if 128 ≤ src && src < 138 then injectProtection src unit s
  else if src = 304 || src = 305 then injectResidue src unit s
  else if src = 102 then ((targetOf .engine 64 unit).map fun e => injectBlock e s).getD s
  else if 272 ≤ src && src ≤ 280 then injectThermal src inst s
  else if 224 ≤ src && src ≤ 250 then injectAnalog src unit inst s
  else injectFabric src unit (injectSite src inst s)

/-- A source that is quiet and has counted nothing since its last acknowledgement. -/
def quietSource (x : Source) : Source := { x with cond := false, hold := false, events := 0, injEvents := 0 }

/-- What a source names after its detector has reported: the detail that a real detection would name, its unit, and the injected tag (R576). -/
def tagSource (before after : Source) (hold capture : Bool) (unit stamp epoch : Nat) : Source :=
  let quiet := before.events + before.injEvents = 0 && !before.cond && !before.hold
  { before with
    hold := before.hold || hold
    injEvents := if hold then before.injEvents else before.injEvents + 1
    injUnit := unit
    injDetail := if after.events ≠ 0 || after.cond then after.detail else after.injDetail
    injCapture := before.injCapture || capture
    stamp := if quiet then stamp else before.stamp
    epoch := if quiet then epoch else before.epoch }

/-- The detector of a source reports by injection (R576): the block reacts as for a real detection, and the source asserts with the injected
tag. -/
def fireInjection (x : Injection) (s : State) : State :=
  let before := s.flt.sources[x.source]
  let s := onFlt (fun c => { c with sources := upd c.sources x.source quietSource }) s
  let s := injectReaction x.source x.unit x.inst s
  onFlt (fun c => { c with
    sources := upd c.sources x.source fun y => tagSource before y x.isHold x.capture x.unit s.stamp s.time.epoch
    injTotal := (c.injTotal + 1) % 65536 }) s

/-! ### The commands (R574, R575) -/

/-- FAULT_INJECT's checks. -/
def injectCheck (d : Desc) (s : State) : Option Refuse :=
  if !s.flt.injectEnable then some (refusal .denied)
  else match d.unit .errorSource 320 with
    | none => firstFail [(d.indirect, badParam 1), (true, badParam 8)]
    | some src =>
      let fault := injectFault src (d.u 24 4) (d.u 28 2) s
      firstFail
        [(d.indirect, badParam 1), (isNotification src || isReserved src, badParam 8), (1 < d.byte 12, badParam 12),
         (3 < d.byte 13 || (isFatal src && !bitOf (d.byte 13) 1), badParam 13), ((d.byte 12 == 1) == (d.u 14 2 == 0), badParam 14),
         (fault.isSome, badParam (fault.getD 0)), d.strayCheck [(12, 18)],
         ((s.flt.injections.any fun x => x.source == src) || 16 ≤ s.flt.injections.length, refusal .rejectedBusy)]

/-- FAULT_INJECT. -/
def execFaultInject (d : Desc) (s : State) : Host.Outcome State Fault Refusal :=
  .next (hostCommand 0x52 (.faultInject d) d (fun iss s =>
    match injectCheck d s, d.unit .errorSource 320 with
    | some r, _ => refuse iss r s
    | none, none => refuse iss (badParam 8) s
    | none, some src =>
      let x : Injection :=
        { issue := iss, source := src, isHold := d.byte 12 == 1, capture := bitOf (d.byte 13) 0, duration := d.u 14 2
          instant := if d.u 16 8 = 0 then s.now else instantOf s.now (d.u 16 8), unit := d.u 24 4, inst := d.u 28 2, fired := false }
      onFlt (fun c => { c with injections := c.injections ++ [x] }) s) s)

/-- INJECTION_FIRE (R575, R576): the instant of a source's injection comes. -/
def execInjectionFire (source : Fin 320) (s : State) : Host.Outcome State Fault Refusal :=
  match s.flt.injections.find? fun x => x.source == source && !x.fired with
  | none => .next s
  | some x =>
    let s := advanceTo x.instant s
    let until' := s.time.mono + 4000 * x.duration
    let s := onFlt (fun c => { c with injections := c.injections.map fun y =>
      if y.source = source then { y with fired := true, instant := until' } else y }) s
    .next (fireInjection x s)

/-- INJECTION_HOLD_END (R575): a hold's duration ends, and its command completes. -/
def execInjectionHoldEnd (source : Fin 320) (s : State) : Host.Outcome State Fault Refusal :=
  match s.flt.injections.find? fun x => x.source == source && x.fired && x.isHold with
  | none => .next s
  | some x =>
    let s := advanceMono x.instant s
    let s := onFlt (fun c => { c with
      injections := c.injections.filter fun y => y.source != source
      sources := upd c.sources source fun y => { y with hold := false } }) s
    .next (complete x.issue .ok s)

end Sys2Proof.Machine
end

