-- ==== Sys2Proof/Machine/Faults.lean ====
section
/-! DEFINITION. What follows an assertion (R459, R575, R579), the fatal state and its dump (R586 to R592), self-tests on command (R582), and
the clearing of faults (R583 to R585). -/
namespace Sys2Proof.Machine
open Sys2Proof

/-! ### The fatal state (R586, R587, R591) -/

/-- FLT_FIRST as it reads (R593). -/
def firstWord (c : Collector) : Nat :=
  match c.first with
  | some f =>
    f.source + 2 ^ 9 * severityCode f.severity + 2 ^ 11 + 2 ^ 12 * bit f.injected + 2 ^ 13 * bit f.coincident + 2 ^ 16 * (f.epoch % 2 ^ 16)
  | none => 0

/-- Boot stage codes (R119). -/
def stageCode : Stage → Nat
  | .reset => 0 | .rom => 1 | .fwVerify => 2 | .fwRun => 3 | .cfgLoad => 4 | .ready => 6 | .noConfig => 7 | .recovery => 14 | .fatal => 15

/-- The header fields of a dump that are fixed at entry (R591). `kept` says that retained SRAM holds an earlier dump. -/
def dumpHeader (stamp : Nat) (kept : Bool) (s : State) : DumpHeader :=
  { toSram := !kept, toHost := false, previousKept := kept
    fwVersion := (s.sec.running.map (·.version)).getD 0, fwSlot := s.boot.fwSlot, stage := stageCode s.boot.stage
    cfgVersion := slotVersion s.cfg.active, sequence := s.evr.seqNext, epoch := s.time.epoch, stamp := stamp, first := firstWord s.flt
    resetCause := s.boot.cause.toNat, sections := [] }

/-- The fatal state is entered (R586 to R588): nothing changes when it holds already. -/
def enterFatal (stamp : Nat) (s : State) : State :=
  if s.flt.fatal then s
  else
    let kept := s.flt.dump.retained.isSome
    let h := dumpHeader stamp kept s
    let s := onFlt (fun c => { c with
      fatal := true, dump := { c.dump with phase := if kept then .writing else .assembling, current := some h } }) s
    let s := signalNumber 0 0 (onBoot (fun b => { b with stage := .fatal }) s)
    if kept then raise 313 0 0 s else s

/-! ### The collection cycle (R459, R567, R575, R580) -/

/-- The sources whose errors send an engine, a bank, a port or a converter through its self-test by way of the collector (R459, R579). The
others that belong to a unit start the test themselves, or report its outcome. -/
def testsUnit (src : Nat) : Bool :=
  [101, 102, 103, 104, 208, 209, 210, 211, 248, 256, 257, 258, 259, 261].contains src
    || (32 ≤ src && src < 64 && [0, 3, 5].contains (src % 8))

/-- The self-test of a unit that an assertion names (R459, R578 to R580). -/
def testNamed (a : Assertion) (s : State) (unit : Nat) : State :=
  match targetOf .engine 64 unit, targetOf .bank 48 unit, targetOf .rxPort 32 unit, targetOf .txPort 32 unit, targetOf .madc 8 unit with
  | some e, _, _, _, _ => evacuateEngine e a.source (!a.real) [] s
  | none, some b, _, _, _ => evacuateBank b a.source (!a.real) [] s
  | none, none, some p, _, _ => if rxRetired p s then s else askTest .rxPort p a.source (!a.real) [] s
  | none, none, none, some p, _ => if txRetired p s then s else askTest .txPort p a.source (!a.real) [] s
  | none, none, none, none, some c => if madcRetired c s then s else askTest .madc c a.source (!a.real) [] s
  | none, none, none, none, none => s

/-- The self-tests that follow an assertion: of the unit of its first event, and of the units that its further events name (R566). -/
def testFor (a : Assertion) (s : State) : State := if testsUnit a.source then (a.unit :: a.also).foldl (testNamed a) s else s

/-- A pulse that the collector has acknowledged completes its FAULT_INJECT (R575). -/
def pulsesDone (s : State) : State :=
  let done (x : Injection) : Bool := x.fired && !x.isHold && (s.flt.sources[x.source]).injEvents == 0
  let l := s.flt.injections.filter done
  completeAll (l.map (·.issue)) .ok (onFlt (fun c => { c with injections := c.injections.filter fun x => !done x }) s)

/-- COLLECTION_CYCLE (R566 to R572, R586): `bad` names the pairs that read 0 and 0, or 1 and 1, in this cycle. -/
def execCollectionCycle (bad : List (Fin 320)) (s : State) : Host.Outcome State Fault Refusal :=
  let bad := bad.filter fun (i : Fin 320) => !isNotification i
  let l := cycleAssertions bad s
  let s := collect bad s
  let s := if l.any fun a => isFatal a.source then enterFatal (stampOf (s.now / qCycle * qCycle)) s else s
  .next (pulsesDone (l.foldl (fun s a => testFor a s) s))

/-! ### SELFTEST (R582) -/

/-- SELFTEST of a bank. -/
def selftestBank (iss : Issue) (b : Fin 48) (tgt : Nat) (s : State) : State :=
  let x := s.mem.bank[b]
  if x.state = .retired then refuse iss (badParam 8) s
  else if x.state = .owned then refuse iss (refuseTarget .busyOwned tgt) s
  else if x.state = .evacuating ∨ x.state = .testing ∨ canEmptyBank b s = true then evacuateBank b 0 false [iss] s
  else refuse iss (refuseTarget .noCapacity tgt) s

/-- SELFTEST of an engine. -/
def selftestEngine (iss : Issue) (e : Fin 64) (tgt : Nat) (s : State) : State :=
  let x := s.plc.engine[e]
  if x.state = .retired then refuse iss (badParam 8) s
  else if x.state = .evacuating ∨ x.state = .testing ∨ canEmptyEngine e s = true then evacuateEngine e 0 false [iss] s
  else refuse iss (refuseTarget .noCapacity tgt) s

/-- SELFTEST of a lane: one that carries feeds needs a spare that is UP. -/
def selftestLane (iss : Issue) (l : Fin 64) (tgt : Nat) (s : State) : State :=
  let x := s.lnk.lane[l]
  if x.state = .retired then refuse iss (badParam 8) s
  else if (testOf .lane l s).isSome then askTest .lane l 0 false [iss] s
  else if carryingLane l s && !((x.cfg.link).any fun g => (spareOf g s).isSome) then refuse iss (refuseTarget .noCapacity tgt) s
  else testDegraded l (askTest .lane l 0 false [iss] s)

/-- SELFTEST of a port or a converter, which stays in service or suspends its sequence. -/
def selftestPort (iss : Issue) (k : UnitKind) (p : Fin 32) (retired : Bool) (s : State) : State :=
  if retired ∨ (s.tiles.tile[tileOf p]).state ≠ .synthOn then refuse iss (badParam 8) s else askTest k p 0 false [iss] s

/-- SELFTEST. -/
def execSelftest (d : Desc) (s : State) : Host.Outcome State Fault Refusal :=
  .next (hostCommand 0x50 (.selftest d) d (fun iss s =>
    match firstFail [(d.indirect, badParam 1)], firstFail [d.strayCheck []] with
    | some r, _ => refuse iss r s
    | none, stray =>
      let body : Option (State → State) :=
        if let some e := d.unit .engine 64 then some (selftestEngine iss e d.tgt)
        else if let some b := d.unit .bank 48 then some (selftestBank iss b d.tgt)
        else if let some l := d.unit .lane 64 then some (selftestLane iss l d.tgt)
        else if let some p := d.unit .rxPort 32 then some (selftestPort iss .rxPort p (rxRetired p s))
        else if let some p := d.unit .txPort 32 then some (selftestPort iss .txPort p (txRetired p s))
        else if let some c := d.unit .madc 8 then
          some (fun s => if madcRetired c s then refuse iss (badParam 8) s else askTest .madc c 0 false [iss] s)
        else none
      match body, stray with
      | none, _ => refuse iss (badParam 8) s
      | some _, some r => refuse iss r s
      | some f, none => f s) s)

/-! ### FAULT_CLEAR (R223, R583 to R585) -/

/-- May a source's status be cleared: its pair is quiet and not broken, and a front-end link's input shows no fault (R223, R583)? -/
def clearableSource (i : Fin 320) (s : State) : Bool :=
  let x := s.flt.sources[i]
  let shows := (finOf 16 (i.val - 64)).any fun n =>
    64 ≤ i.val && (s.fec.fems[n]).faultEnable && ((s.fec.fems[n]).fltT || !(s.fec.fems[n]).fltC)
  !asserting x && !x.broken && !shows

/-- A source's status is cleared, which releases a FEM hold (R223, R585). -/
def clearSource (i : Fin 320) (s : State) : State :=
  let s := onFlt (fun c => { c with sources := upd c.sources i fun x => { x with latched := false } }) s
  match finOf 16 (i.val - 64) with
  | some n => if 64 ≤ i.val then settle (onFem n (fun f => { f with hold := false }) s) else s
  | none => s

/-- FAULT_CLEAR of one source. -/
def clearOne (iss : Issue) (i : Fin 320) (s : State) : State :=
  if clearableSource i s then complete iss .ok (clearSource i s) else refuse iss (refusal .stillActive) s

/-- FAULT_CLEAR of the device, with its mask (R584). -/
def clearDevice (iss : Issue) (mask : Nat) (s : State) : State :=
  let s := if bitOf mask 1 then onFlt (fun c => { c with first := none }) s else s
  let s := if bitOf mask 2 then onFlt (fun c => { c with history := [] }) s else s
  if bitOf mask 0 then
    let s := (indices 320).foldl (fun s i => if (s.flt.sources[i]).latched && clearableSource i s then clearSource i s else s) s
    if anyOf s.flt.sources (·.latched) then refuse iss (refusal .stillActive) s else complete iss .ok s
  else complete iss .ok s

/-- FAULT_CLEAR. -/
def execFaultClear (d : Desc) (s : State) : Host.Outcome State Fault Refusal :=
  .next (hostCommand 0x51 (.faultClear d) d (fun iss s =>
    if d.indirect then refuse iss (badParam 1) s
    else match d.unit .errorSource 320 with
      | some i =>
        match firstFail [(isNotification i, badParam 8), d.strayCheck []] with
        | some r => refuse iss r s
        | none => clearOne iss i s
      | none =>
        match firstFail [(d.tgt ≠ 0, badParam 8), (!inRange 1 7 (d.byte 12), badParam 12), d.strayCheck [(12, 1)]] with
        | some r => refuse iss r s
        | none => clearDevice iss (d.byte 12) s) s)

end Sys2Proof.Machine
end

