-- ==== Sys2Proof/Machine/StatusWords.lean ====
section
/-! DEFINITION. Status registers as words, where a message of the management port or a 256-bit register shows them (R157, R504, R572, R593, R646,
R671). -/
namespace Sys2Proof.Machine
open Sys2Proof

/-- A list of bits as a number, bit 0 first. -/
def bitsNat : List Bool → Nat
  | [] => 0
  | b :: bs => bit b + 2 * bitsNat bs

/-- FLT_STATUS (R593). -/
def faultStatusWord (c : Collector) : Nat :=
  bit c.fatal + 2 * bit c.first.isSome + 4 * c.history.length + 2 ^ 16 * c.histOverwrites

/-- FLT_FIRST_TIME (R593). -/
def firstTime (c : Collector) : Nat := (c.first.map (·.stamp)).getD 0

/-- A bit of a bitmap over the sources; a notification's bit reads 0 (R593). -/
def sourceBit (f : Source → Bool) (c : Collector) (i : Nat) : Bool := (finOf 320 i).any fun (j : Fin 320) => f c.sources[j] && !isNotification j

/-- Word w of a bitmap over the sources (R593). -/
def sourceWord (f : Source → Bool) (c : Collector) (w : Nat) : Nat :=
  bitsNat ((List.range 32).map fun b => sourceBit f c (32 * w + b))

/-- FLT_LATCHED_w (R593). -/
def latchedWord (c : Collector) (w : Nat) : Nat := sourceWord (·.latched) c w

/-- A history entry as its 32 bytes (R572). -/
def histBytes (h : HistEntry) : List Byte :=
  toBytes 8 h.stamp ++ toBytes 8 h.sequence ++ toBytes 2 h.epoch ++ toBytes 2 h.source ++ toBytes 1 (severityCode h.severity) ++
    toBytes 1 (bit h.coincident + 2 * bit h.injected + 4 * bit h.injectionCoincident + 8 * bit h.tookFirst) ++
    toBytes 2 h.repeats ++ toBytes 4 h.unit ++ toBytes 4 0

/-- History entry k, 0 the oldest: 32 zero bytes beyond the entries held (R593). -/
def historyEntry (c : Collector) (k : Nat) : List Byte := (c.history[k]?.map histBytes).getD (toBytes 32 0)

/-- Is a return of the configuration waiting for its instant (R157)? -/
def returnPending (c : Config) : Bool := c.rollback.isSome || c.autoReturn.isSome

/-- CFG_STATUS (R157). -/
def configStatusWord (s : State) : Nat :=
  bitsNat [s.cfg.commit.isSome, s.cfg.window.isSome, persistPending s, s.cfg.returned, returnPending s.cfg]

/-- The image of a role: 0 ACTIVE, 1 PREVIOUS, 2 STAGED (R127). -/
def roleImage (k : Nat) (c : Config) : Option Slot :=
  if k = 0 then c.active else if k = 1 then c.previous else if k = 2 then c.staged else none

/-- CFG_DIGEST_s (R157). DESIGN CHOICE: s counts the roles ACTIVE, PREVIOUS and STAGED; the rule does not say whether s counts roles or areas. -/
def configDigest (k : Nat) (c : Config) : Nat := ((roleImage k c).map (·.image.digest)).getD 0

/-- SEC_OWNER_HASH_k (R671): an unprogrammed slot reads 0. -/
def ownerHash (k : OwnerSlot) : Nat := if k.programmed then k.hash else 0

/-- CEN_TRACE_DATA (R504, R509): the entry that CEN_TRACE_SEL selects, or 0 where none has been written. -/
def traceData (c : Control) : Nat :=
  let b : Fin 16 := ⟨c.traceSel % 16, by omega⟩
  ((c.trace[b]).entries[c.traceSel / 16 % 4096]?.map fun e => leNat ((traceBytes e).map (BitVec.ofNat 8))).getD 0

/-- Is the image that runs activated and not confirmed (R671)? -/
def unconfirmed (s : State) : Bool := s.sec.windowEnd.isSome

/-- life_used in 0.001%, of the ageing seconds that the ledger holds (R642, R645). -/
def lifeUsed (t : Thermal) : Nat := t.ledger.life * 100000 / (1262304000 * 2 ^ 32)

end Sys2Proof.Machine
end

