-- ==== Sys2Proof/Machine/Registers.lean ====
section
/-! DEFINITION. Register writes and reads of PF0's BAR0 and of a VF's view of the HIF region (R5, R7 to R9, R44, R45, R93 and the register tables of
each block). A field that has a row of its own (ring enables, resets and owners, TIM_CTL.source, MEM_CODE_SEL, the manual strobes, the RFFE
mailbox, the dump's release, GLB_RESET_CTL) is left to that row. -/
namespace Sys2Proof.Machine
open Sys2Proof

/-! ### Access codes (R7) -/

/-- Bits written 1 are cleared (RW1C). -/
def clearOnes (old v : Nat) : Nat := old ^^^ (old &&& v)

/-- A flag in bit i of a word (RW1C). -/
def clearFlag (old : Bool) (v i : Nat) : Bool := old && !bitOf v i

/-- The low or the high half of a 64-bit register is written. -/
def putHalf (high : Bool) (old v : Nat) : Nat := if high then old % 2 ^ 32 + v * 2 ^ 32 else old / 2 ^ 32 * 2 ^ 32 + v

/-- Element and offset within it of an array of n elements, `stride` bytes apart from `base`. -/
def arrayAt (n base stride off : Nat) : Option (Fin n × Nat) :=
  if base ≤ off then (finOf n ((off - base) / stride)).map fun i => (i, (off - base) % stride) else none

/-- A write to an element of an array, when the offset lies in it. -/
def inArray (n base stride off : Nat) (f : Fin n → Nat → State → State) (s : State) : State :=
  match arrayAt n base stride off with
  | some (i, r) => f i r s
  | none => s

/-- A signed value of a 32-bit register held within ±`top`. -/
def signedField (top : Int) (v : Nat) : Int := clampInt (-top) top (signed 32 v)

/-! ### GLB, HIF and TIM (R93, R118, R385, R401) -/

/-- GLB. -/
def writeGlb (off v : Nat) (s : State) : State :=
  if off = 0x10 then onBoot (fun b => { b with cause := b.cause &&& ~~~BitVec.ofNat 10 v }) s else s

/-- The set-up of a ring pair, within its block. -/
def writePair (n : RingId) (off v : Nat) (s : State) : State :=
  let page (x : Nat) : Nat := x / 4096 * 4096
  onRing n (fun x =>
    if off = 0x08 ∨ off = 0x0C then { x with cmdBase := page (putHalf (off == 0x0C) x.cmdBase v) }
    else if off = 0x10 ∨ off = 0x14 then { x with cplBase := page (putHalf (off == 0x14) x.cplBase v) }
    else if off = 0x18 then { x with cmdLog2 := field v 12 8, cplLog2 := field v 17 13, vector := field v 23 18 }
    else if off = 0x20 ∨ off = 0x24 then { x with wb := putHalf (off == 0x24) x.wb v / 64 * 64 }
    else x) s

/-- The set-up of the event ring. -/
def writeEventRing (off v : Nat) (s : State) : State :=
  onHif (fun h => { h with evr :=
    let x := h.evr
    if off = 0x00 ∨ off = 0x04 then { x with base := putHalf (off == 0x04) x.base v / 4096 * 4096 }
    else if off = 0x08 then { x with log2 := field v 12 8, vector := field v 18 13 }
    else if off = 0x10 ∨ off = 0x14 then { x with wb := putHalf (off == 0x14) x.wb v / 8 * 8 }
    else x }) s

/-- The set-up of a capture ring; only PF0 writes its owner (R80, R93). -/
def writeCapRing (pf : Bool) (c : Fin 8) (off v : Nat) (s : State) : State :=
  onHif (fun h => { h with caps := upd h.caps c fun x =>
    if off = 0x00 ∨ off = 0x04 then { x with base := putHalf (off == 0x04) x.base v / 4096 * 4096 }
    else if off = 0x08 then
      { x with log2 := field v 12 8, vector := field v 18 13, owner := if pf then ⟨field v 21 19 % 8, by omega⟩ else x.owner }
    else if off = 0x10 ∨ off = 0x14 then { x with wb := putHalf (off == 0x14) x.wb v / 8 * 8 }
    else x }) s

/-- What every function has of its own in the HIF region: status, drop counts, moderation, and the mask bits of its MSI-X table. PRESUMED (PCI
Express): an MSI-X table entry has 16 bytes, and bit 0 of its last word masks it. Clearing it is MSIX_UNMASK. -/
def writeOwnHif (fn : Fn) (off v : Nat) (s : State) : State :=
  let vec (f : Vec → Vec) (i : Fin 64) (s : State) : State :=
    if i.val < vectorCount fn then onFn fn (fun x => { x with vecs := upd x.vecs i f }) s else s
  if off = 0x04 then onFn fn (fun f => { f with ownerWriteIgnored := clearFlag f.ownerWriteIgnored v 10 }) s
  else if off = 0x08 then onFn fn (fun f => { f with dbDrop := clearOnes f.dbDrop v }) s
  else if off = 0x0C then onFn fn (fun f => { f with accessDrop := clearOnes f.accessDrop v }) s
  else if off < 0x8000 then
    inArray 64 0x3000 4 off (fun i _ => vec (fun x => { x with count := field v 7 0, timer := field v 17 8 }) i) s
  else inArray 64 0x8000 16 off (fun i r => vec (fun x =>
      if r = 0 ∨ r = 4 then { x with address := putHalf (r == 4) x.address v / 4 * 4 }
      else if r = 8 then { x with data := v }
      else if r = 12 ∧ bitOf v 0 then { x with masked := true } else x) i) s

/-- HIF, of PF0. -/
def writeHif (off v : Nat) (s : State) : State :=
  if 0x1000 ≤ off ∧ off < 0x2000 then inArray 64 0x1000 0x40 off (fun n r => writePair n r v) s
  else if 0x2000 ≤ off ∧ off < 0x2018 then writeEventRing (off - 0x2000) v s
  else if 0x2100 ≤ off ∧ off < 0x2200 then inArray 8 0x2100 0x20 off (fun c r => writeCapRing true c r v) s
  else writeOwnHif 0 off v s

/-- A VF's view of HIF (R93): its own rings, by their local indices. -/
def writeVf (fn : Fn) (off v : Nat) (s : State) : State :=
  if 0x1000 ≤ off ∧ off < 0x1400 then
    match (ownedOf s.hif.rings (·.owner) fn)[(off - 0x1000) / 0x40]? with
    | some n => writePair n ((off - 0x1000) % 0x40) v s
    | none => s
  else if 0x2100 ≤ off ∧ off < 0x2140 then
    match (ownedOf s.hif.caps (·.owner) fn)[(off - 0x2100) / 0x20]? with
    | some c => writeCapRing false c ((off - 0x2100) % 0x20) v s
    | none => s
  else if 0x1000 ≤ off ∧ off < 0x3000 then s
  else writeOwnHif fn off v s

/-- TIM. PPS_OUT's registers are ignored while another feature than HOST owns it (R385). -/
def writeTim (off v : Nat) (s : State) : State :=
  let taken := ownedByOther 0x0D 0 s
  if off = 0x00 then onTime (fun t => { t with strays := clearOnes t.strays (field v 15 8) }) s
  else if off = 0x04 then onTime (fun t => { t with
    ppsPolarity := bitOf v 1, autoPolarity := bitOf v 2, ppsWindow := clampNat 1 1023 (field v 13 4)
    stepCount := clampNat 1 15 (field v 17 14) }) s
  else if off = 0x08 then onTime (fun t => { t with ppsDelay := signedField 100000 v }) s
  else if off = 0x0C then onTime (fun t => { t with ppsAccuracy := field v 15 0, holdoverRate := clampNat 1 65535 (field v 31 16) }) s
  else if off = 0x28 ∧ taken = false then onTime (fun t => { t with
    outMode := min 2 (field v 1 0), outPolarity := bitOf v 2, outWidth := clampNat 1 500000 (field v 22 4) }) s
  else if off = 0x2C ∧ taken = false then onTime (fun t => { t with outOffset := signedField 100000 v }) s
  else s

/-! ### THM, FLT, EVR, PMC and MEM (R562, R593, R605, R607, R622, R623, R645) -/

/-- THM. -/
def writeThm (off v : Nat) (s : State) : State :=
  if off = 0x200 then onThm (fun t => { t with ledgerSel := BitVec.ofNat 6 (min 5 (field v 2 0) + 8 * min 6 (field v 5 3)) }) s else s

/-- FLT. -/
def writeFlt (off v : Nat) (s : State) : State :=
  onFlt (fun c =>
    if off = 0x00 then { c with histOverwrites := clearOnes c.histOverwrites (field v 31 16) }
    else if off = 0x04 then { c with fatalReset := bitOf v 0, injectEnable := bitOf v 1 }
    else if off = 0x18 then { c with histSel := field v 4 0 }
    else match arrayAt 5 0x40 4 off, arrayAt 320 0x400 4 off with
      | some (k, _), _ => { c with unitCount := upd c.unitCount k fun x => (clearOnes x.1 (field v 15 0), x.2) }
      | none, some (n, _) => { c with sources := upd c.sources n fun x =>
          { x with count := clearOnes x.count (field v 15 0), injected := clearOnes x.injected (field v 31 16) } }
      | none, none => c) s

/-- Is a record code never rate-limited, so that its rate and burst are fixed (R607)? -/
def exemptCode (code : Nat) : Bool := [1, 2, 4, 5, 6, 8, 0xFFFF].contains code || (0x1000 ≤ code && isFatal (code - 0x1000))

/-- The rate and the burst of a code (R605, R622): its bucket fills at the old rate until now, and holds no more than the new burst. -/
def setRate (rate burst mono : Nat) (b : Bucket) : Bucket :=
  let b := refill mono b
  { b with rate := rate, burst := burst, parts := min (burst * qSecond) b.parts }

/-- EVR. -/
def writeEvr (off v : Nat) (s : State) : State :=
  let mono := s.time.mono
  onEvr (fun e =>
    if off = 0x04 then { e with mirrorStart := bitOf v 0 }
    else if off = 0x20 then
      { e with stagingLost := clearOnes e.stagingLost (field v 15 0), storeLost := clearOnes e.storeLost (field v 31 16) }
    else if off = 0x24 then { e with winBase := field v 19 15 }
    else if off = 0x28 then { e with rateSel := field v 15 0 }
    else if off = 0x30 then
      match bucketIndex e.rateSel with
      | some i =>
        if exemptCode e.rateSel then e
        else { e with buckets := upd e.buckets i (setRate (max 1 (field v 15 0)) (max 1 (field v 23 16)) mono) }
      | none => e
    else e) s

/-- PMC: PMC_STICKY_w clears the sticky bits of 32 counters. -/
def writePmc (off v : Nat) (s : State) : State :=
  onPmc (fun p =>
    if off = 0x00 then { p with snapshotError := clearFlag p.snapshotError v 10 }
    else match arrayAt 8 0x100 4 off with
      | some (w, _) => { p with cnt := updAll p.cnt fun n x =>
          if n.val / 32 = w.val then { x with sticky := clearFlag x.sticky v (n.val % 32) } else x }
      | none => p) s

/-- MEM. -/
def writeMem (off v : Nat) (s : State) : State :=
  onMem (fun m =>
    if off = 0x00 then { m with codeIgnored := clearFlag m.codeIgnored v 7 }
    else if off = 0x04 then { m with period := min 168 (field v 7 0) }
    else if off = 0x20 then { m with bitmapSel := BitVec.ofNat 9 (min 47 (field v 5 0) + 64 * field v 8 6) }
    else match arrayAt 48 0x100 8 off with
      | some (b, r) => if r ≠ 0 then m else { m with bank := upd m.bank b fun x =>
          { x with corrected := clearOnes x.corrected (field v 15 0), uncorrectable := clearOnes x.uncorrectable (field v 23 16)
                   poisonReads := clearOnes x.poisonReads (field v 31 24) } }
      | none => m) s

/-! ### TILE (R186, R188, R195, R270) -/

/-- A port of a tile, by its local index. -/
def tilePort (t : Fin 4) (p : Fin 8) : Fin 32 := ⟨8 * t.val + p.val, by omega⟩

/-- A change of force_enable or force_band: another band that the tile then wants is applied under R186 (R188). -/
def writeForce (t : Fin 4) (enable : Bool) (band : Nat) (s : State) : State :=
  let old := wantedBand t s
  let s := onTile t (fun x => { x with forceEnable := enable, forceBand := min 4 band }) s
  if wantedBand t s = old then s else loadShadow t s

/-- The control words of a tile and its RX and TX ports. -/
def writeTilePorts (t : Fin 4) (off v : Nat) (s : State) : State :=
  match arrayAt 8 0x100 0x10 off, arrayAt 8 0x200 0x10 off with
  | some (p, r), _ => onRx (tilePort t p) (fun x =>
      if r = 0 then { x with ovrThresh := field v 7 0, calFreeze := bitOf v 8 }
      else if r = 4 then { x with overrange := clearFlag x.overrange v 0 }
      else x) s
  | none, some (p, r) => onTx (tilePort t p) (fun x =>
      if r = 0 then
        { x with rampLong := clampNat 1 20 (field v 4 0), rampShort := clampNat 25 400 (field v 13 5), loadCheck := bitOf v 14 }
      else if r = 4 then { x with loadFault := clearFlag x.loadFault v 2 }
      else x) s
  | none, none => s

/-- The DDCs, the DUCs and the residue counts of a tile. -/
def writeTileDfe (t : Fin 4) (off v : Nat) (s : State) : State :=
  onDfe (fun x =>
    if off = 0x840 then { x with residue := upd x.residue t fun y =>
      { ddcCorrected := clearOnes y.ddcCorrected (field v 7 0), ducCorrected := clearOnes y.ducCorrected (field v 15 8)
        poisonedBlocks := clearOnes y.poisonedBlocks (field v 23 16), spareBusy := clearOnes y.spareBusy (field v 31 24) } }
    else match arrayAt 8 0x400 0x20 off, arrayAt 8 0x600 0x20 off with
      | some (p, r), _ => { x with ddc := upd x.ddc (tilePort t p) fun y =>
          if r = 0 then { y with dcEnable := bitOf v 0, dcShift := clampNat 8 24 (field v 5 1), dcFreeze := bitOf v 6 }
          else if r = 0x10 then { y with satCount := clearOnes y.satCount (field v 31 18) }
          else y }
      | none, some (p, r) => { x with duc := upd x.duc (tilePort t p) fun y =>
          if r = 0x14 then
            { y with satCount := clearOnes y.satCount (field v 15 0), poisonedCount := clearOnes y.poisonedCount (field v 31 16) }
          else y }
      | none, none => x) s

/-- TILE, of tile t. -/
def writeTile (t : Fin 4) (off v : Nat) (s : State) : State :=
  if off = 0x04 then onTile t (fun x => { x with
    autoCal := bitOf v 0, calDelta := clampNat 2 20 (field v 5 1), tddGapAlign := bitOf v 6, lockTimeout := clampNat 1 4095 (field v 19 8) }) s
  else if off = 0x10 then writeForce t (bitOf v 7) (field v 10 8) s
  else if off < 0x400 then writeTilePorts t off v s
  else writeTileDfe t off v s

/-! ### SLC, CEN, LNK, FEC, MON, PLC and SEC (R239, R309, R334, R441, R473, R509, R538, R671) -/

/-- The slice and path of a canceller's block. -/
def pathOfBlock (i : Fin 512) : SliceId × PathId := (⟨i.val / 2, by omega⟩, if i.val % 2 = 0 then .a else .b)

/-- SLC, with the canceller's registers. -/
def writeSlc (off v : Nat) (s : State) : State :=
  if off = 0x08 then onSlices (fun x => { x with window := clampNat 4 15 (field v 3 0) }) s
  else if off = 0x10 then onSlices (fun x => { x with coefSel := field v 14 0 }) s
  else if off = 0x8000 then onCan (fun x => { x with tapSel := field v 19 0 }) s
  else if off < 0x1000 then
    inArray 8 0x100 4 off (fun c _ => onSlices fun x => { x with capDropped := upd x.capDropped c fun n => clearOnes n (field v 31 16) }) s
  else if off < 0x5000 then
    inArray 256 0x1000 0x40 off (fun sl r s =>
      if r = 0 then onSlice sl (fun x => { x with satCount := clearOnes x.satCount (field v 23 16) }) s else s) s
  else inArray 512 0x9000 0x40 off (fun i r s =>
      if r = 4 then onCanceller (pathOfBlock i).1 (pathOfBlock i).2 (fun x =>
        { x with limited := clearFlag x.limited v 2, squallSeen := clearFlag x.squallSeen v 3 }) s
      else s) s

/-- CEN. -/
def writeCen (off v : Nat) (s : State) : State :=
  if off = 0x3100 then onCen (fun c => { c with traceSel := field v 15 0 }) s
  else inArray 64 0x1000 0x80 off (fun l r s =>
    if r = 0x04 then onLoop l (fun x => { x with accSat := clearFlag x.accSat v 24, clamped := clearFlag x.clamped v 25 }) s
    else if r = 0x70 then onLoop l (fun x => { x with limited := clearOnes x.limited (field v 31 16) }) s
    else s) s

/-- LNK. -/
def writeLnk (off v : Nat) (s : State) : State :=
  if off = 0x04 then onLnk (fun x => { x with degSer := max 1 (field v 15 0) }) s
  else if off < 0x1000 then inArray 16 0x100 0x20 off (fun g r s =>
    onLink g (fun x =>
      if r = 0x04 then { x with peerMismatch := clearFlag x.peerMismatch v 6 }
      else if r = 0x10 then { x with late := clearOnes x.late (field v 15 0), early := clearOnes x.early (field v 31 16) }
      else x) s) s
  else inArray 64 0x1000 0x20 off (fun l r s =>
    if r = 0x04 then onLane l (fun x => { x with
      los := clearFlag x.los v 5, loa := clearFlag x.loa v 6, fecFail := clearFlag x.fecFail v 7, degraded := clearFlag x.degraded v 8 }) s
    else s) s

/-- FEC, within a front-end link's block. -/
def writeFem (n : Fin 16) (off v : Nat) (s : State) : State :=
  onFem n (fun f =>
    if off = 0x04 then
      { f with fault := clearFlag f.fault v 2, railMismatch := clearFlag f.railMismatch v 3, rffeShort := clearFlag f.rffeShort v 13
               slaveMissing := clearFlag f.slaveMissing v 14, strobes := updAll f.strobes fun i x =>
                 { x with shortHi := clearFlag x.shortHi v (5 + i.val), shortLo := clearFlag x.shortLo v (9 + i.val) } }
    else if off = 0x28 ∨ off = 0x2C then { f with data := putHalf (off == 0x2C) f.data v }
    else f) s

/-- FEC. -/
def writeFec (off v : Nat) (s : State) : State :=
  if off = 0x00 then onFec (fun x => { x with busyOwned := clearFlag x.busyOwned v 17 }) s
  else if off < 0x800 then inArray 16 0x100 0x40 off (fun n r => writeFem n r v) s
  else if off < 0x900 then inArray 8 0x800 0x10 off (fun c r s =>
    if r = 0x08 then onFec (fun x => { x with cx := upd x.cx c fun y => { y with denied := clearOnes y.denied (field v 31 16) } }) s else s) s
  else inArray 8 0x900 0x10 off (fun b r s =>
    if r = 0x04 then onFec (fun x => { x with blanks := upd x.blanks b fun y => { y with stuck := clearFlag y.stuck v 1 } }) s else s) s

/-- MON. -/
def writeMon (off v : Nat) (s : State) : State :=
  if off = 0x04 then onMon (fun m => { m with timeout := max 10 (field v 15 0) }) s
  else if off = 0x20 ∨ off = 0x24 then onMon (fun m => { m with cmp := updAll m.cmp fun n x =>
    if n.val / 32 = (off - 0x20) / 4 then { x with latch := clearFlag x.latch v (n.val % 32) } else x }) s
  else inArray 8 0x100 0x40 off (fun c r s =>
    onConv c (fun x =>
      if r = 0x04 then { x with lastAborted := clearFlag x.lastAborted v 4 }
      else if r = 0x10 then { x with overrun := clearOnes x.overrun (field v 15 0), restarts := clearOnes x.restarts (field v 31 16) }
      else x) s) s

/-- PLC. -/
def writePlc (off v : Nat) (s : State) : State :=
  onPlc (fun p =>
    if off = 0x04 then { p with
      policy := bitOf v 0, ownerSeparate := bitOf v 1, thermalMoves := bitOf v 2, thermalWeight := field v 13 4
      spreadLimit := clampNat 2 20 (field v 18 14), moveLimit := clampNat 1 8 (field v 22 19) }
    else if off = 0x08 then { p with interval := min 3600 (field v 11 0), gap := clampNat 1120 17920 (field v 26 12) }
    else if off = 0x20 then { p with pinSel := BitVec.ofNat 13 v }
    else p) s

/-- SEC: mgmt_fw keeps its value once the RWL lock is set (R9). -/
def writeSec (off v : Nat) (s : State) : State :=
  let locked := s.boot.locked
  onSec (fun x =>
    if off = 0x04 then { x with fwWindow := clampNat 60 3600 (field v 11 0), mgmtFw := if locked then x.mgmtFw else bitOf v 12 }
    else if off = 0x100 then { x with pecErrors := clearOnes x.pecErrors (field v 23 16) }
    else x) s

/-! ### Access (R44, R45) -/

/-- An element of an array of `n` words of 64 bits, `stride` bytes apart. -/
def wideIn (n base stride off : Nat) : Bool := base ≤ off && off < base + n * stride && (off - base) % stride == 0

/-- The registers of PF0's BAR0 that are 64 bits wide, and the 64-bit words of those of 256 bits (R45). -/
def wideRegister (a : Nat) : Bool :=
  let one (l : List Nat) (o : Nat) : Bool := l.contains o
  let o (base : Nat) : Nat := a - base
  if a < 0x10000 then one [0x28] a
  else if a < 0x20000 then
    let o := o 0x10000
    wideIn 64 0x1008 0x40 o || wideIn 64 0x1010 0x40 o || wideIn 64 0x1020 0x40 o || one [0x2000, 0x2010] o || wideIn 8 0x2100 0x20 o ||
      wideIn 8 0x2110 0x20 o
  else if a < 0x30000 then one [0x18] (o 0x20000)
  else if a < 0x40000 then wideIn 6 0x40 8 (o 0x30000) || one [0x208] (o 0x30000)
  else if a < 0x50000 then one [0x10, 0x20, 0x28, 0x30, 0x38, 0x58, 0x70] (o 0x40000)
  else if a < 0x60000 then one [0x08, 0x18, 0x30] (o 0x50000)
  else if a < 0x80000 then one [0x08] (o 0x60000) || wideIn 256 0x1000 8 (o 0x60000) || wideIn 256 0x2000 0x10 (o 0x60000)
  else if a < 0x100000 then one [0x08, 0x10, 0x18, 0x28] (o 0x80000)
  else if a < 0x200000 then
    let o := (a - 0x100000) % 0x40000
    one [0x18] o || wideIn 8 0x408 0x20 o || wideIn 8 0x608 0x20 o
  else if a < 0x300000 then
    let o := o 0x200000
    wideIn 256 0x1008 0x40 o || wideIn 256 0x1030 0x40 o || wideIn 256 0x1038 0x40 o || one [0x8008] o
  else if a < 0x380000 then
    let o := o 0x300000
    one [0x08, 0x3120, 0x3128, 0x3130, 0x3138] o || wideIn 64 0x1008 0x80 o || wideIn 64 0x1010 0x80 o || wideIn 64 0x1018 0x80 o
  else if a < 0x400000 then one [0x18] (o 0x380000) || wideIn 256 0x1000 8 (o 0x380000) || wideIn 256 0x2000 8 (o 0x380000)
  else if a < 0x480000 then wideIn 64 0x1008 0x20 (o 0x400000)
  else if a < 0x500000 then wideIn 16 0x128 0x40 (o 0x480000) || wideIn 8 0x908 0x10 (o 0x480000)
  else if a < 0x580000 then
    let o := o 0x500000
    one [0x08, 0x10, 0x18, 0x20] o || wideIn 8 0x108 0x40 o || wideIn 128 0x800 0x10 o || wideIn 64 0x1000 8 o
  else if a < 0x600000 then one [0x28] (o 0x580000) || wideIn 8 0x300 8 (o 0x580000) || wideIn 256 0x800 8 (o 0x580000)
  else if a < 0x700000 then one [0x10] (o 0x600000) || wideIn 24 0x20 8 (o 0x600000)
  else one [0x18, 0x20] (o 0x700000) || wideIn 12 0x40 8 (o 0x700000)

/-- The address in PF0's map that a function's BAR0 offset stands for (R93). -/
def barAddress (fn : Fn) (off : Nat) : Nat := if fn = 0 then off else 0x10000 + off

/-- Does BAR0 accept an access of a size at an offset (R45)? -/
def accessOk (fn : Fn) (off size : Nat) : Bool :=
  (size == 4 && off % 4 == 0) || (size == 8 && off % 8 == 0 && wideRegister (barAddress fn off))

/-- The region that an address lies in, as its block's write (R44). -/
def writeRegion (a v : Nat) (s : State) : State :=
  if a < 0x10000 then writeGlb a v s
  else if a < 0x20000 then writeHif (a - 0x10000) v s
  else if a < 0x30000 then writeTim (a - 0x20000) v s
  else if a < 0x40000 then writeThm (a - 0x30000) v s
  else if a < 0x50000 then writeFlt (a - 0x40000) v s
  else if a < 0x60000 then writeEvr (a - 0x50000) v s
  else if a < 0x80000 then writePmc (a - 0x60000) v s
  else if a < 0x100000 then writeMem (a - 0x80000) v s
  else if a < 0x200000 then inArray 4 0x100000 0x40000 a (fun t r => writeTile t r v) s
  else if a < 0x300000 then writeSlc (a - 0x200000) v s
  else if a < 0x380000 then writeCen (a - 0x300000) v s
  else if a < 0x400000 then s
  else if a < 0x480000 then writeLnk (a - 0x400000) v s
  else if a < 0x500000 then writeFec (a - 0x480000) v s
  else if a < 0x580000 then writeMon (a - 0x500000) v s
  else if a < 0x600000 then writePlc (a - 0x580000) v s
  else if a < 0x700000 then writeSec (a - 0x600000) v s
  else s

/-- A 32-bit word is written. -/
def writeWord (fn : Fn) (off v : Nat) (s : State) : State := if fn = 0 then writeRegion off v s else writeVf fn off v s

/-- REGISTER_WRITE (R7, R45): a 64-bit write is its two words. -/
def execRegisterWrite (fn : Fn) (offset size value : Nat) (s : State) : Host.Outcome State Fault Refusal :=
  let v := value % 2 ^ (8 * size)
  .next (viaBar fn (fun s =>
    if accessOk fn offset size then
      if size = 4 then writeWord fn offset v s else writeWord fn (offset + 4) (v / 2 ^ 32) (writeWord fn offset (v % 2 ^ 32) s)
    else dropAccess fn s) s)

/-! ### Registers of 256 bits (R5) -/

/-- The value of the 256-bit register at an address of PF0's BAR0, none where no such register begins. -/
def wideValue (a : Nat) (s : State) : Option Nat :=
  if a = 0x40020 then some (leNat (historyEntry s.flt s.flt.histSel))
  else if a = 0x303120 then some (traceData s.cen)
  else if a = 0x600020 then some identityHash
  else if a = 0x600040 then some rootHash
  else if 0x600060 ≤ a ∧ a < 0x6000E0 ∧ a % 32 = 0 then (finOf 4 ((a - 0x600060) / 32)).map fun (k : Fin 4) => ownerHash s.sec.owner[k]
  else if 0x700040 ≤ a ∧ a < 0x7000A0 ∧ a % 32 = 0 then some (configDigest ((a - 0x700040) / 32) s.cfg)
  else none

end Sys2Proof.Machine
end

