-- ==== Sys2Proof/Machine/ReadHost.lean ====
section
/-! DEFINITION. What reads of the GLB and HIF registers return (R7, R93, R118): the fields of each register word at their bits, as PF0's BAR0 and a VF's
BAR0 show them. -/
namespace Sys2Proof.Machine
open Sys2Proof

/-- A register word from its fields, each with the place of its lowest bit; a reserved field reads 0 (R7). -/
def word (fields : List (Nat × Nat)) : Nat := fields.foldl (fun t x => t + x.2 * 2 ^ x.1) 0

/-- The low or the high 32 bits of a 64-bit register. -/
def halfOf (high : Bool) (v : Nat) : Nat := if high then v / 2 ^ 32 % 2 ^ 32 else v % 2 ^ 32

/-- A read of an element of an array, 0 where the offset lies outside it. -/
def readArray (n base stride off : Nat) (f : Fin n → Nat → Nat) : Nat :=
  match arrayAt n base stride off with
  | some (i, r) => f i r
  | none => 0

/-- GLB (R118). -/
def readGlb (off : Nat) (s : State) : Nat :=
  if off = 0x10 then s.boot.cause.toNat
  else if off = 0x18 then word [(0, stageCode s.boot.stage), (4, bit s.boot.fwSlot), (5, bit s.boot.fwFallback), (6, s.boot.cfgSource),
    (8, bit s.thm.thaw), (9, bit (persistPending s))]
  else if off = 0x1C then s.boot.cfgVersion
  else if off = 0x28 ∨ off = 0x2C then halfOf (off == 0x2C) s.boot.skipped.toNat
  else 0

/-- The code of a ring state (R93). -/
def ringStateCode : RingState → Nat
  | .disabled => 0 | .running => 1 | .error => 2

/-- A word of a ring pair's block. -/
def readPair (n : RingId) (off : Nat) (s : State) : Nat :=
  let x := s.hif.rings[n]
  if off = 0x00 then x.owner
  else if off = 0x08 ∨ off = 0x0C then halfOf (off == 0x0C) x.cmdBase
  else if off = 0x10 ∨ off = 0x14 then halfOf (off == 0x14) x.cplBase
  else if off = 0x18 then word [(0, bit x.enable), (8, x.cmdLog2), (13, x.cplLog2), (18, x.vector)]
  else if off = 0x1C then word [(0, ringStateCode x.state), (4, ringErrorCode x.error), (8, x.inFlight % 65536)]
  else if off = 0x20 ∨ off = 0x24 then halfOf (off == 0x24) x.wb
  else if off = 0x28 then x.cmdCI.toNat
  else if off = 0x2C then x.cplPI.toNat
  else 0

/-- A word of the event ring's registers. -/
def readEventRing (off : Nat) (s : State) : Nat :=
  let x := s.hif.evr
  if off = 0x00 ∨ off = 0x04 then halfOf (off == 0x04) x.base
  else if off = 0x08 then
    word [(0, bit x.enable), (2, ringStateCode x.state), (4, ringErrorCode x.error), (8, x.log2), (13, x.vector)]
  else if off = 0x10 ∨ off = 0x14 then halfOf (off == 0x14) x.wb
  else 0

/-- A word of a capture ring's registers. -/
def readCapRing (c : Fin 8) (off : Nat) (s : State) : Nat :=
  let x := s.hif.caps[c]
  if off = 0x00 ∨ off = 0x04 then halfOf (off == 0x04) x.base
  else if off = 0x08 then
    word [(0, bit x.enable), (2, ringStateCode x.state), (4, ringErrorCode x.error), (8, x.log2), (13, x.vector), (19, x.owner)]
  else if off = 0x10 ∨ off = 0x14 then halfOf (off == 0x14) x.wb
  else 0

/-- A word of an entry of the MSI-X table. PRESUMED (PCI Express): address, data and vector control in 16 bytes. -/
def readVector (x : Vec) (off : Nat) : Nat :=
  if off = 0 ∨ off = 4 then halfOf (off == 4) x.address
  else if off = 8 then x.data
  else if off = 12 then bit x.masked
  else 0

/-- What every function has of its own in the HIF region: identity, status, drop counts, moderation, MSI-X. -/
def readOwnHif (fn : Fn) (off : Nat) (s : State) : Nat :=
  let f := s.hif.fns[fn]
  if off = 0x00 then word [(0, 0x6144), (16, 0xB0), (24, fn)]
  else if off = 0x04 then
    word [(0, s.hif.linkRate), (3, s.hif.linkWidth), (8, bit f.busMaster), (9, bit s.flt.fatal), (10, bit f.ownerWriteIgnored)]
  else if off = 0x08 then f.dbDrop
  else if off = 0x0C then f.accessDrop
  else if off < 0x8000 then
    readArray 64 0x3000 4 off fun i _ => if i.val < vectorCount fn then word [(0, (f.vecs[i]).count), (8, (f.vecs[i]).timer)] else 0
  else if off < 0x9000 then readArray 64 0x8000 16 off fun i r => if i.val < vectorCount fn then readVector f.vecs[i] r else 0
  else if off = 0x9000 then bitsNat ((indices 64).map fun i => i.val < 32 && (f.vecs[i]).pending)
  else if off = 0x9004 then bitsNat (((indices 64).filter (32 ≤ ·.val)).map fun i => (f.vecs[i]).pending)
  else 0

/-- HIF, of PF0. -/
def readHif (off : Nat) (s : State) : Nat :=
  if 0x1000 ≤ off ∧ off < 0x2000 then readArray 64 0x1000 0x40 off fun n r => readPair n r s
  else if 0x2000 ≤ off ∧ off < 0x2018 then readEventRing (off - 0x2000) s
  else if 0x2100 ≤ off ∧ off < 0x2200 then readArray 8 0x2100 0x20 off fun c r => readCapRing c r s
  else readOwnHif 0 off s

/-- A VF's view of HIF (R93): its own rings, by their local indices. -/
def readVf (fn : Fn) (off : Nat) (s : State) : Nat :=
  if 0x1000 ≤ off ∧ off < 0x1400 then
    match (ownedOf s.hif.rings (·.owner) fn)[(off - 0x1000) / 0x40]? with
    | some n => readPair n ((off - 0x1000) % 0x40) s
    | none => 0
  else if 0x2100 ≤ off ∧ off < 0x2140 then
    match (ownedOf s.hif.caps (·.owner) fn)[(off - 0x2100) / 0x20]? with
    | some c => readCapRing c ((off - 0x2100) % 0x20) s
    | none => 0
  else if 0x1000 ≤ off ∧ off < 0x3000 then 0
  else readOwnHif fn off s

end Sys2Proof.Machine
end

