-- ==== Sys2Proof/Machine/ReadTime.lean ====
section
/-! DEFINITION. What reads of the TIM, THM, FLT, EVR, PMC and MEM registers return (R401, R562, R593, R622, R623, R645). -/
namespace Sys2Proof.Machine
open Sys2Proof

/-! ### TIM (R401) -/

/-- The state code of a pattern timer. -/
def timerCode : TimerState → Nat
  | .none => 0 | .running => 1 | .transition => 2 | .rephase => 3

/-- The unshifted segment in progress of a timer that runs (R401). -/
def timerSegment (x : PatternTimer) (now : Nat) : Nat :=
  match x.pattern with
  | some p => if x.state = .running then (segmentAt p.segs 0 (phaseAt p now)).1 else 0
  | none => 0

/-- A word of a pattern timer's block; without a pattern its image fields read 0. -/
def readTimer (i : Fin 8) (off : Nat) (s : State) : Nat :=
  let x := s.tdd.timers[i]
  if off = 0x00 then ((x.pattern).map fun p => word [(0, p.period), (4, p.segs.length), (10, bit p.autoAdopt), (11, p.inferSlice),
    (19, p.inferInterval)]).getD 0
  else if off = 0x04 then ((x.pattern).map (·.offset)).getD 0
  else if off = 0x08 then word [(0, timerCode x.state), (2, timerSegment x s.now), (7, bit (x.change.any fun c => c.issue.isSome))]
  else 0

/-- A segment word of a list, 0 beyond its end. -/
def segmentWordAt (l : List Segment) (i : Nat) : Nat := ((l[i]?).map segmentWord).getD 0

/-- TIM_INFER_STATUS. -/
def inferStatus (s : State) : Nat :=
  word [(0, bit s.tdd.infer.isSome), (1, bit s.tdd.proposal.isSome), (2, bit s.tdd.adopted)] +
    ((s.tdd.proposal).map fun p => word [(3, p.period), (7, p.segs.length), (13, p.agreement), (23, p.timer)]).getD 0

/-- TIM. -/
def readTim (off : Nat) (s : State) : Nat :=
  let t := s.time
  if off = 0x00 then word [(0, alignCode t.state), (2, bit t.inverted), (3, bit t.ambiguous), (4, bit t.errorOver), (5, bit t.seconds.isSome),
    (8, t.strays), (16, t.epoch)]
  else if off = 0x04 then word [(0, bit t.source), (1, bit t.ppsPolarity), (2, bit t.autoPolarity), (4, t.ppsWindow), (14, t.stepCount)]
  else if off = 0x08 then unsigned 32 t.ppsDelay
  else if off = 0x0C then word [(0, t.ppsAccuracy), (16, t.holdoverRate)]
  else if off = 0x10 then nowNs s
  else if off = 0x18 ∨ off = 0x1C then halfOf (off == 0x1C) (t.latchedSec % 2 ^ 48)
  else if off = 0x20 then unsigned 32 t.ppsOffset
  else if off = 0x24 then errorWord t.estimate
  else if off = 0x28 then word [(0, t.outMode), (2, bit t.outPolarity), (4, t.outWidth)]
  else if off = 0x2C then unsigned 32 t.outOffset
  else if 0x100 ≤ off ∧ off < 0x180 then readArray 8 0x100 0x10 off fun i r => readTimer i r s
  else if 0x400 ≤ off ∧ off < 0x800 then
    readArray 8 0x400 0x80 off fun i r => (((s.tdd.timers[i]).pattern).map fun p => segmentWordAt p.segs (r / 4)).getD 0
  else if off = 0x800 then inferStatus s
  else if off = 0x804 then ((s.tdd.proposal).map (·.offset)).getD 0
  else if 0x880 ≤ off ∧ off < 0x900 then ((s.tdd.proposal).map fun p => segmentWordAt p.segs ((off - 0x880) / 4)).getD 0
  else 0

/-! ### THM (R645) -/

/-- The zones of which a condition holds, as bits. -/
def zoneBits (f : Zone → Bool) (s : State) : Nat := bitsNat ((indices 6).map fun z => f s.thm.zone[z])

/-- THM_ZONE_CFG_z. -/
def zoneCfgWord (c : ZoneCfg) : Nat :=
  word [(0, unsigned 16 c.lowWarn), (16, unsigned 16 c.highWarn), (32, unsigned 16 c.throttle), (48, c.hyst), (52, c.dwell)]

/-- The seconds of the zone and bin that THM_LEDGER_SEL selects. -/
def ledgerSeconds (t : Thermal) : Nat :=
  let v := t.ledgerSel.toNat
  match finOf 6 (v % 8), finOf 7 (v / 8) with
  | some z, some b => ((t.ledger.bins[z])[b]) % 2 ^ 48
  | _, _ => 0

/-- THM. -/
def readThm (off : Nat) (s : State) : Nat :=
  let t := s.thm
  if off = 0x00 then word [(0, zoneBits (·.highWarn) s), (6, zoneBits (·.lowWarn) s), (12, zoneBits throttleOf s), (18, zoneBits (·.critical) s),
    (24, zoneBits (·.cold) s), (30, bit t.thaw), (31, bit (allOf t.zone (fun z => z.band.isSome) && !s.flash.held))]
  else if off = 0x04 then word [(0, t.overcast.stage), (2, t.overcast.request), (11, t.overcast.shed.length)]
  else if off = 0x08 then word [(0, t.thawPower), (6, t.interval)]
  else if 0x10 ≤ off ∧ off < 0x28 then readArray 6 0x10 4 off fun z _ =>
    let x := t.zone[z]
    word [(0, unsigned 12 (zoneValue z s)), (12, x.band.getD 0), (15, ((zoneSensors z).filter fun i => sensorValid t.sensor[i]).length),
      (18, bit x.noSensor)]
  else if 0x40 ≤ off ∧ off < 0x70 then readArray 6 0x40 8 off fun z r => halfOf (r == 4) (zoneCfgWord (t.zone[z]).cfg)
  else if 0x100 ≤ off ∧ off < 0x160 then readArray 24 0x100 4 off fun i _ =>
    let x := t.sensor[i]
    word [(0, unsigned 12 x.value), (12, bit (sensorValid x)), (13, bit x.failed)]
  else if off = 0x200 then t.ledgerSel.toNat
  else if off = 0x208 ∨ off = 0x20C then halfOf (off == 0x20C) (ledgerSeconds t)
  else if off = 0x210 then lifeUsed t % 2 ^ 24
  else 0

/-! ### FLT (R593) -/

/-- The code of a self-test's kind. -/
def kindCode : UnitKind → Nat
  | .engine => 0 | .bank => 1 | .lane => 2 | .rxPort => 3 | .txPort => 4 | .madc => 5

/-- FLT_ST_LAST. -/
def lastTestWord (t : SelfTestLast) : Nat :=
  word [(0, kindCode t.kind), (3, t.index), (9, 1), (10, bit t.pass), (11, bit t.host), (12, bit t.injectedOnly), (13, t.source), (32, t.seqLo)]

/-- FLT_DUMP_STATUS. -/
def dumpStatus (d : Dump) : Nat :=
  word [(0, bit d.registered.isSome), (1, bit d.retained.isSome), (2, bit d.lastToHost), (3, bit d.truncated), (8, d.retainedLen)]

/-- FLT, but for the 256-bit FLT_HIST_DATA. -/
def readFlt (off : Nat) (s : State) : Nat :=
  let c := s.flt
  if off = 0x00 then faultStatusWord c
  else if off = 0x04 then word [(0, bit c.fatalReset), (1, bit c.injectEnable)]
  else if off = 0x08 then firstWord c
  else if off = 0x10 ∨ off = 0x14 then halfOf (off == 0x14) (firstTime c)
  else if off = 0x18 then c.histSel
  else if 0x40 ≤ off ∧ off < 0x54 then readArray 5 0x40 4 off fun k _ => word [(0, (c.unitCount[k]).1), (16, (c.unitCount[k]).2)]
  else if off = 0x58 ∨ off = 0x5C then halfOf (off == 0x5C) ((c.stLast.map lastTestWord).getD 0)
  else if off = 0x60 then word [(0, c.injections.length), (16, c.injTotal)]
  else if off = 0x68 then dumpStatus c.dump
  else if off = 0x70 ∨ off = 0x74 then halfOf (off == 0x74) ((c.dump.registered.map (·.1)).getD 0)
  else if off = 0x78 then (c.dump.registered.map (·.2)).getD 0
  else if 0x100 ≤ off ∧ off < 0x128 then latchedWord c ((off - 0x100) / 4)
  else if 0x140 ≤ off ∧ off < 0x168 then sourceWord (·.level) c ((off - 0x140) / 4)
  else if 0x180 ≤ off ∧ off < 0x1A8 then sourceWord (·.broken) c ((off - 0x180) / 4)
  else readArray 320 0x400 4 off fun n _ => word [(0, (c.sources[n]).count), (16, (c.sources[n]).injected)]

/-! ### EVR (R601, R622) -/

/-- The store's byte at place p of its ring (R601): of the record that lies there, of the padding that fills the end of the ring, or what was left
there. The newest free-running offset that stands at p is `x`. -/
def storeByte (e : Recorder) (p : Nat) : Byte :=
  let x := e.head - 1 - (e.head + storeSize - 1 - p) % storeSize
  let left := BitVec.ofNat 8 (freeStoreByte x)
  match e.store.find? fun o => decide (o.offset ≤ x) && decide (x < o.offset + o.entry.size) with
  | some o => (o.entry.bytes).getD (x - o.offset) left
  | none =>
    match (e.store.zip e.store.tail).find? fun y => decide (y.1.offset + y.1.entry.size ≤ x) && decide (x < y.2.offset) with
    | some (a, b) => (paddingBytes (b.offset - (a.offset + a.entry.size))).getD (x - (a.offset + a.entry.size)) left
    | none => left

/-- EVR_RATE_DATA for the code that EVR_RATE_SEL selects: an unused code reads 0; the bucket of PADDING stays as at reset (R607). -/
def rateData (s : State) : Nat :=
  let read (b : Bucket) : Nat :=
    word [(0, b.rate), (16, b.burst), (24, b.parts / qSecond), (32, min 65535 b.pending), (48, bit (exemptCode s.evr.rateSel))]
  match bucketIndex s.evr.rateSel with
  | some i => read (refill s.time.mono s.evr.buckets[i])
  | none => if s.evr.rateSel = 0xFFFF then read bucketReset else 0

/-- EVR. -/
def readEvr (off : Nat) (s : State) : Nat :=
  let e := s.evr
  if off = 0x00 then word [(0, e.staging.length), (7, bit e.mirrorPaused)]
  else if off = 0x04 then bit e.mirrorStart
  else if off = 0x08 ∨ off = 0x0C then halfOf (off == 0x0C) e.seqNext
  else if off = 0x10 then e.head % 2 ^ 32
  else if off = 0x14 then e.tail % 2 ^ 32
  else if off = 0x18 ∨ off = 0x1C then halfOf (off == 0x1C) e.mirrorSeq
  else if off = 0x20 then word [(0, e.stagingLost), (16, e.storeLost)]
  else if off = 0x24 then e.winBase * 2 ^ 15
  else if off = 0x28 then e.rateSel
  else if off = 0x30 ∨ off = 0x34 then halfOf (off == 0x34) (rateData s)
  else if 0x8000 ≤ off ∧ off < 0x10000 then
    leNat ((List.range 4).map fun i => storeByte e (e.winBase * 2 ^ 15 + (off - 0x8000) / 4 * 4 + i))
  else 0

/-! ### PMC (R616, R623) -/

/-- PMC_CFG_n. -/
def counterCfgWord (c : Counter) : Nat := word [(0, c.event), (16, c.mode), (18, bit c.enable), (19, bit c.wrapRecord), (32, c.unit)]

/-- PMC. -/
def readPmc (off : Nat) (s : State) : Nat :=
  let p := s.pmc
  if off = 0x00 then word [(0, countOf p.cnt (·.enable)), (9, bit p.periodic.isSome), (10, bit p.snapshotError)]
  else if off = 0x08 ∨ off = 0x0C then halfOf (off == 0x0C) ((p.periodic.map (·.address)).getD 0)
  else if off = 0x10 then ((p.periodic).map fun x => word [(0, x.period), (16, x.slots), (27, bit x.clear)]).getD 0
  else if 0x100 ≤ off ∧ off < 0x120 then
    bitsNat (((indices 256).filter fun n => n.val / 32 == (off - 0x100) / 4).map fun n => (p.cnt[n]).sticky)
  else if 0x1000 ≤ off ∧ off < 0x1800 then readArray 256 0x1000 8 off fun n r => halfOf (r == 4) (counterWord p.cnt[n])
  else readArray 256 0x2000 0x10 off fun n r =>
    if r = 0 ∨ r = 4 then halfOf (r == 4) (counterCfgWord p.cnt[n]) else if r = 8 then (p.cnt[n]).threshold else 0

/-- BAR4 of PF0 (R616): counter n in page n div 16. -/
def readCounters (off : Nat) (s : State) : Nat :=
  match finOf 256 (off / 0x1000 * 16 + off % 0x1000 / 8) with
  | some n => if off % 0x1000 < 0x80 then halfOf (off % 8 == 4) (counterWord s.pmc.cnt[n]) else 0
  | none => 0

/-! ### MEM (R562) -/

/-- MEM_ERR_LOC. -/
def errLocWord (x : ErrLoc) : Nat := word [(0, x.word), (18, x.bank), (24, x.syndrome), (32, x.kind), (35, bit x.scrub)]

/-- The written bits that MEM_BITMAP_SEL selects. -/
def bitmapData (m : Smem) : Nat :=
  match finOf 48 (m.bitmapSel.toNat % 64) with
  | some b => (m.bank[b]).written.toNat / 2 ^ (64 * (m.bitmapSel.toNat / 64)) % 2 ^ 64
  | none => 0

/-- MEM. -/
def readMem (off : Nat) (s : State) : Nat :=
  let m := s.mem
  if off = 0x00 then word [(0, countOf m.bank fun b => b.state == .retired), (6, bit (scrubbing s)), (7, bit m.codeIgnored)]
  else if off = 0x04 then m.period
  else if off = 0x08 ∨ off = 0x0C then halfOf (off == 0x0C) (bitsNat ((indices 48).map fun b => (m.bank[b]).parity))
  else if off = 0x10 ∨ off = 0x14 then halfOf (off == 0x14) (errLocWord m.errLoc)
  else if off = 0x18 ∨ off = 0x1C then halfOf (off == 0x1C) m.errLoc.stamp
  else if off = 0x20 then m.bitmapSel.toNat
  else if off = 0x28 ∨ off = 0x2C then halfOf (off == 0x2C) (bitmapData m)
  else readArray 48 0x100 8 off fun b r =>
    let x := m.bank[b]
    if r = 0 then word [(0, x.corrected), (16, x.uncorrectable), (24, x.poisonReads)] else 0

end Sys2Proof.Machine
end

