-- ==== Sys2Proof/Machine/ReadTile.lean ====
section
/-! DEFINITION. What reads of the TILE and SLC registers return (R195, R270, R309, R334). -/
namespace Sys2Proof.Machine
open Sys2Proof

/-! ### TILE (R195, R270) -/

/-- The state code of a synthesiser. -/
def synthCode : SynState → Nat
  | .off => 0 | .calibrating => 1 | .idleLocked => 2 | .active => 3 | .failed => 4

/-- The code of an output state. -/
def outputCode : TxOutput → Nat
  | .off => 0 | .rampingUp => 1 | .on => 2 | .rampingDown => 3

/-- TILE_SYN_STATUS. -/
def synthStatus (y : Synth) : Nat :=
  word [(0, synthCode y.state), (3, bit y.locked), (4, unsigned 12 y.calTemp), (16, y.calBand), (19, y.failCount)]

/-- Are the queues of a tile aligned and within one entry (R195)? -/
def queuesGood (t : Fin 4) (s : State) : Bool :=
  (s.tiles.tile[t]).queueAligned && (portsOf t).all fun m => !(s.dfe.queue[m]).rxError && !(s.dfe.queue[m]).txError

/-- The status and control words of a tile, and its ports. -/
def readTilePorts (t : Fin 4) (off : Nat) (s : State) : Nat :=
  let x := s.tiles.tile[t]
  if off = 0x00 then word [(0, tileRank x.state), (2, x.active), (3, bit (queuesGood t s)), (4, bit (twinReady t s)), (5, bit x.prep.isSome),
    (6, bit x.calOverdue), (16, x.handoverCount)]
  else if off = 0x04 then word [(0, bit x.autoCal), (1, x.calDelta), (6, bit x.tddGapAlign), (8, x.lockTimeout)]
  else if off = 0x08 then synthStatus x.syn[(0 : Fin 2)]
  else if off = 0x0C then synthStatus x.syn[(1 : Fin 2)]
  else if off = 0x10 then word [(0, tileBand t s), (3, x.appliedBand), (6, bit x.applyPending), (7, bit x.forceEnable), (8, x.forceBand)]
  else if off = 0x18 ∨ off = 0x1C then halfOf (off == 0x1C) x.handoverTime
  else match arrayAt 8 0x100 0x10 off, arrayAt 8 0x200 0x10 off with
    | some (p, r), _ =>
      let y := s.tiles.rx[tilePort t p]
      if r = 0 then word [(0, y.ovrThresh), (8, bit y.calFreeze)] else if r = 4 then rxStatusWord y else 0
    | none, some (p, r) =>
      let y := s.tiles.tx[tilePort t p]
      if r = 0 then word [(0, y.rampLong), (5, y.rampShort), (14, bit y.loadCheck)]
      else if r = 4 then word [(0, outputCode y.output), (2, bit y.loadFault), (3, bit y.retired)]
      else 0
    | none, none => 0

/-- The digital front end of a tile. The DC estimate reads in units of 1/4 LSB. -/
def readTileDfe (t : Fin 4) (off : Nat) (s : State) : Nat :=
  if 0x800 ≤ off ∧ off < 0x820 then readArray 8 0x800 4 off fun p _ =>
    let q := s.dfe.queue[tilePort t p]
    word [(0, q.rxOcc), (6, q.rxAligned), (12, q.txOcc), (18, q.txAligned), (24, bit q.rxError), (25, bit q.txError)]
  else if off = 0x840 then
    let y := s.dfe.residue[t]
    word [(0, y.ddcCorrected), (8, y.ducCorrected), (16, y.poisonedBlocks), (24, y.spareBusy)]
  else match arrayAt 8 0x400 0x20 off, arrayAt 8 0x600 0x20 off with
    | some (p, r), _ =>
      let y := s.dfe.ddc[tilePort t p]
      if r = 0 then word [(0, bit y.dcEnable), (1, y.dcShift), (6, bit y.dcFreeze), (7, bit y.zone), (8, bit y.station)]
      else if r = 8 ∨ r = 0xC then halfOf (r == 0xC) y.word
      else if r = 0x10 then word [(0, bit (dcFrozen (tilePort t p) s)), (2, unsigned 16 (asr y.estimate 28)), (18, y.satCount)]
      else 0
    | none, some (p, r) =>
      let y := s.dfe.duc[tilePort t p]
      if r = 0 then word [(0, bit y.droopComp), (1, bit y.station), (2, y.streams), (6, y.droopEntry)]
      else if r = 8 ∨ r = 0xC then halfOf (r == 0xC) y.word
      else if r = 0x10 then y.gain
      else if r = 0x14 then word [(0, y.satCount), (16, y.poisonedCount)]
      else 0
    | none, none => 0

/-- TILE, of tile t. -/
def readTile (t : Fin 4) (off : Nat) (s : State) : Nat := if off < 0x400 then readTilePorts t off s else readTileDfe t off s

/-! ### SLC (R309) -/

/-- The definition that the registers of an index show: the one in force, or the first one while it is being placed. -/
def shownParams (sl : SliceId) (s : State) : Option SliceParams := ((s.slices.slice[sl]).live).or (baseParams sl s)

/-- The code of a slice's state. -/
def sliceCode : SliceState → Nat
  | .empty => 0 | .placing => 1 | .running => 2 | .restarting => 3 | .deleting => 4 | .stopped => 5

/-- The code of a direction. -/
def directionCode : Direction → Nat
  | .dl => 0 | .ul => 1 | .tdd => 2

/-- The whole work units that the costs of the defined slices come to. -/
def totalLoad (s : State) : Nat :=
  (((indices 256).foldl (fun t sl => t + ((shownParams sl s).map fun x => costOf x.defn).getD 0) 0) + 2047) / 2048

/-- SLC_STATE_s. -/
def sliceStateWord (sl : SliceId) (s : State) : Nat :=
  let x := s.slices.slice[sl]
  let engines := (((s.plc.placed[sl]).live).map (·.engines)).getD []
  word [(0, sliceCode x.state), (3, bit (migrating sl s)), (4, bit ((shownParams sl s).any fun y => y.muteA || y.muteB)), (5, bit x.shed),
    (6, (engines.head?.map (·.val)).getD 0), (12, engines.length), (16, x.satCount)]

/-- SLC_DEF_s. -/
def sliceDefWord (d : SliceDef) : Nat :=
  word [(0, directionCode d.direction), (2, d.k), (6, d.family), (10, d.edge), (13, d.nCh / 16 - 1), (16, d.priority), (19, d.owner),
    (22, (d.pattern.map (·.val)).getD 0xFF), (32, d.nFc), (43, d.muteRamp), (51, d.gainRise)]

/-- A gain register: target and applied gain of a path. -/
def gainRegister (target applied : Int) : Nat := word [(0, unsigned 16 target), (16, unsigned 16 applied)]

/-- A power register: input and output meter of a path. -/
def powerRegister (inp out : Int) : Nat := word [(0, unsigned 16 inp), (16, unsigned 16 out)]

/-- A word of a slice's block: all but the power registers read 0 for an empty index. -/
def readSliceBlock (sl : SliceId) (off : Nat) (s : State) : Nat :=
  let x := s.slices.slice[sl]
  if off = 0x00 then sliceStateWord sl s
  else if off = 0x28 then powerRegister x.inA x.outA
  else match shownParams sl s with
    | none => if off = 0x2C then powerRegister x.inB x.outB else 0
    | some y =>
      let d := y.defn
      let tdd := d.direction == .tdd
      if off = 0x08 ∨ off = 0x0C then halfOf (off == 0x0C) (sliceDefWord d)
      else if off = 0x10 then d.centre
      else if off = 0x14 then d.bandwidth
      else if off = 0x18 then costOf d
      else if off = 0x1C then latencyOf d
      else if off = 0x20 then gainRegister d.gainA x.appliedA
      else if off = 0x24 then if tdd then gainRegister d.gainB x.appliedB else 0
      else if off = 0x2C then powerRegister x.inB x.outB
      else if off = 0x30 then endpointWord d.srcA
      else if off = 0x34 then endpointWord d.sinkA
      else if off = 0x38 then endpointWord d.srcB
      else if off = 0x3C then endpointWord d.sinkB
      else 0

/-- SLC_COEF_DATA: the live coefficient that SLC_COEF_SEL selects. -/
def coefData (s : State) : Nat :=
  match finOf 256 (s.slices.coefSel % 256) with
  | some sl => ((liveDef sl s).map fun d =>
      unsigned 18 ((coefficients d.k d.bandwidth d.family d.edge d.nCh).getD (s.slices.coefSel / 256) 0)).getD 0
  | none => 0

/-- SLC_CAP_STATUS_c: what it captures, or captured last. -/
def captureStatus (c : Fin 8) (s : State) : Nat :=
  let x := s.slices.capLast[c]
  word [(0, bit (s.slices.capture[c]).isSome), (1, x.1), (9, x.2.1), (12, x.2.2), (16, s.slices.capDropped[c])]

/-! ### The cancellers (R334) -/

/-- SLC_CAN_TAP_DATA: the tap that SLC_CAN_TAP_SEL selects, a background tap rounded to Q2.22; 0 beyond N_fc. -/
def tapData (s : State) : Nat :=
  let v := s.can.tapSel
  match finOf 512 (v % 256 * 2 + v / 256 % 2) with
  | some i =>
    let c := s.can.path[i]
    let n := v / 1024
    let w := if bitOf v 9 then (c.wBg[n]?).map foreground else c.wFg[n]?
    if c.present then (w.map fun x => unsigned 24 x.re + 2 ^ 32 * unsigned 24 x.im).getD 0 else 0
  | none => 0

/-- An estimate that may be missing, as a signed register field. -/
def estimateField (x : Option Int) : Nat := (x.map (unsigned 16)).getD 0x8000

/-- A word of a canceller's block; it reads 0 for a path without one. -/
def readCanceller (i : Fin 512) (off : Nat) (s : State) : Nat :=
  let c := s.can.path[i]
  let (sl, p) := pathOfBlock i
  if !c.present then 0
  else
    let x := liveCan sl p s
    if off = 0x00 then word [(0, x.mode), (2, x.m), (7, x.l), (12, x.v), (17, x.ceilRise), (25, 1)]
    else if off = 0x04 then word [(0, bit c.settled), (1, bit c.suspended), (2, bit c.limited), (3, bit c.squallSeen), (16, c.copies)]
    else if off = 0x08 then word [(0, unsigned 16 x.margin), (16, unsigned 16 x.iFloor)]
    else if off = 0x0C then word [(0, c.delay), (20, bit c.inSmem), (21, c.bank)]
    else if off = 0x10 then c.loopExt
    else if off = 0x14 then word [(0, c.iMeas.getD 0xFFFF), (16, c.iUsed)]
    else if off = 0x18 then word [(0, c.cMeas), (16, c.cUsed)]
    else if off = 0x1C then word [(0, estimateField c.resFg), (16, estimateField c.resBg)]
    else if off = 0x20 then word [(0, unsigned 16 c.ceiling), (16, unsigned 16 c.raw)]
    else 0

/-- SLC, with the canceller's registers. -/
def readSlc (off : Nat) (s : State) : Nat :=
  if off = 0x00 then countOf s.slices.slice fun x => x.live.isSome || x.restart.isSome
  else if off = 0x04 then totalLoad s
  else if off = 0x08 then s.slices.window
  else if off = 0x10 then s.slices.coefSel
  else if off = 0x14 then coefData s
  else if off = 0x8000 then s.can.tapSel
  else if off = 0x8008 ∨ off = 0x800C then halfOf (off == 0x800C) (tapData s)
  else if off < 0x1000 then readArray 8 0x100 4 off fun c _ => captureStatus c s
  else if off < 0x5000 then readArray 256 0x1000 0x40 off fun sl r => readSliceBlock sl r s
  else readArray 512 0x9000 0x40 off fun i r => readCanceller i r s

end Sys2Proof.Machine
end

