-- ==== Sys2Proof/Machine/ReadNodes.lean ====
section
/-! DEFINITION. What reads of the CEN, NPS, LNK, FEC, PLC, SEC and CFG registers return (R157, R239, R369, R441, R473, R509, R671). -/
namespace Sys2Proof.Machine
open Sys2Proof

/-- Does HOST own a resource (R124, R126)? -/
def hostOwns (cls idx : Nat) (s : State) : Bool := s.cfg.claims.contains (cls, idx) || ownedBy cls idx 0x09 s

/-! ### CEN (R509) -/

/-- Codes of 16 bits in the positions of CEN_LOOP_SRC and CEN_LOOP_DST. -/
def codesWord (l : List Nat) : Nat := word ((l.take 4).zipIdx.map fun x => (16 * x.2, x.1))

/-- CEN_LOOP_STATUS_l. -/
def loopStatus (l : Loop) : Nat :=
  let g := l.sig
  let moving (f : Int → Int → Bool) : Nat := bitsNat ((List.range 4).map fun j => f (sigAt g.rt j) (sigAt g.r j))
  word [(0, bit l.active), (1, bit l.fade.isSome), (2, bit l.swap.isSome), (3, bit (l.hold != 0)), (4, l.hold), (7, bit l.intHold),
    (8, bitsOf l.outSat), (12, bitsOf l.wasHeld), (16, moving fun t r => t != r), (20, moving fun t r => decide (t < r)),
    (24, bit l.accSat), (25, bit l.clamped)]

/-- CEN_LOOP_CFG_l. -/
def loopCfgWord (c : LoopCfg) : Nat :=
  word [(0, 1), (1, bit c.outer), (2, c.m), (6, c.ns), (10, c.ni), (13, c.no), (16, (c.hold.map (·.val)).getD 0), (21, bit c.hold.isSome),
    (22, c.fade)]

/-- A word of a slot's block: all but the count of swaps reads 0 for a disabled slot. -/
def readLoop (i : Fin 64) (off : Nat) (s : State) : Nat :=
  match loopAt i s with
  | none => if off = 0x70 then s.cen.swaps[i] else 0
  | some l =>
    let g := l.sig
    let j := off % 0x10 / 4
    if off = 0x00 then loopCfgWord l.cfg
    else if off = 0x04 then loopStatus l
    else if off = 0x08 ∨ off = 0x0C then halfOf (off == 0x0C) (codesWord l.cfg.src)
    else if off = 0x10 ∨ off = 0x14 then halfOf (off == 0x14) (codesWord l.cfg.dst)
    else if off = 0x18 ∨ off = 0x1C then halfOf (off == 0x1C) l.swapTime
    else if off < 0x20 then 0
    else if off < 0x30 then unsigned 32 (sigAt g.rt j)
    else if off < 0x40 then unsigned 32 (sigAt g.r j)
    else if off < 0x50 then g.slew.getD j 0
    else if off < 0x60 then unsigned 32 (sigAt g.ur j)
    else if off < 0x70 then unsigned 32 (sigAt g.q j)
    else if off = 0x70 then word [(0, s.cen.swaps[i]), (16, l.limited)]
    else if off = 0x74 then l.cfg.stale
    else 0

/-- A word of a coefficient bank. -/
def readCoefficient (off : Nat) (s : State) : Nat :=
  readArray 64 0x40000 0x1000 off fun i r => ((loopAt i s).map fun l => unsigned 32 (wordAt (bankOf l (decide (0x800 ≤ r))) (r % 0x800 / 4))).getD 0

/-- CEN_TRACE_STATUS_b. -/
def traceStatus (t : Trace) : Nat :=
  word [(0, bit t.armed.isSome), (1, bit t.triggered), (2, bit (t.entries.length == 4096)), (3, bit t.continuous), (4, t.slot),
    (10, if t.continuous then t.next else t.entries.length)]

/-- CEN, but for the 256-bit CEN_TRACE_DATA. -/
def readCen (off : Nat) (s : State) : Nat :=
  let c := s.cen
  if off = 0x00 then word [(0, countOf c.slot (·.isSome)), (7, countOf c.slot fun x => x.any fun l => l.hold != 0)]
  else if off = 0x04 then c.baseLog2
  else if off = 0x08 ∨ off = 0x0C then halfOf (off == 0x0C) c.tick
  else if off = 0x3100 then c.traceSel
  else if off < 0x3000 then readArray 64 0x1000 0x80 off fun i r => readLoop i r s
  else if off < 0x3100 then readArray 16 0x3000 0x10 off fun b r => if r = 0 then traceStatus c.trace[b] else 0
  else if 0x40000 ≤ off then readCoefficient off s
  else 0

/-! ### NPS (R369) -/

/-- NPS_PORT_m. -/
def protectedPort (m : Fin 32) (s : State) : Nat :=
  let x := s.nps.port[m]
  word [(0, bit (portMuted m s)), (1, bit x.reflected), (2, bit x.squall), (3, bit x.fromLoad), (4, squallSlices m s), (8, bit x.exceeds),
    (16, x.muteCount)]

/-- NPS_SLICE_s. -/
def protectedSlice (sl : SliceId) (s : State) : Nat :=
  let x := s.nps.slice[sl]
  word [(0, causeBits x), (16, trimSum x.a), (28, trimSum x.b), (40, bit (sliceMuted x)), (48, x.squallCount)]

/-- NPS_SLICE_CFG_s. -/
def guardWord (g : SliceGuard) : Nat :=
  word [(0, bit g.squall), (1, bit g.donor), (2, bit g.noise), (8, g.donorRef), (16, unsigned 16 g.donorFloor), (32, unsigned 16 g.noiseLimit)]

/-- NPS. -/
def readNps (off : Nat) (s : State) : Nat :=
  let n := s.nps
  let g := n.cfg
  if off = 0x00 then word [(0, bit (haltAsserted s)), (1, bit n.haltHost), (2, bit n.haltMgmt), (3, bit n.haltReset), (4, bit n.haltThermal),
    (8, ((indices 256).filter fun sl => sliceOnRung sl s).length), (17, ((indices 32).filter fun m => portMuted m s).length)]
  else if off = 0x04 then word [(0, g.trimHold), (16, g.trimRelease)]
  else if off = 0x08 then word [(0, g.maxTrim), (12, g.squallGrowth)]
  else if off = 0x0C then word [(0, g.squallFloor), (13, g.squallPeak)]
  else if off = 0x10 then word [(0, g.overdriveStep), (9, g.emissionStep), (18, g.donorHyst)]
  else if off = 0x14 then word [(0, g.donorTime), (16, g.donorRecover)]
  else if off = 0x18 ∨ off = 0x1C then halfOf (off == 0x1C) n.haltTime
  else if 0x100 ≤ off ∧ off < 0x180 then readArray 32 0x100 4 off fun m _ => protectedPort m s
  else if 0x180 ≤ off ∧ off < 0x200 then readArray 32 0x180 4 off fun m _ =>
    let x := n.port[m]
    word [(0, bit x.reflectedEnable), (1, bit x.emissionEnable), (16, unsigned 16 x.emissionMask)]
  else if 0x1000 ≤ off ∧ off < 0x1800 then readArray 256 0x1000 8 off fun sl r => halfOf (r == 4) (protectedSlice sl s)
  else readArray 256 0x2000 8 off fun sl r => halfOf (r == 4) (guardWord (n.slice[sl]).guard)

/-! ### LNK (R441) -/

/-- The feeds of a link that are shed. -/
def shedFeeds (g : Fin 16) (s : State) : List Feed := s.lnk.feeds.filter fun f => f.link == g && f.lane.isNone

/-- The state code of a link. -/
def linkState (g : Fin 16) (s : State) : Nat :=
  if (s.lnk.link[g]).cfg.kind = 0 then 0 else if linkUp g s then (if (shedFeeds g s).isEmpty then 2 else 3) else 1

/-- The lanes of a link that are UP, as data lanes or as spares. -/
def lanesUp (g : Fin 16) (data : Bool) (s : State) : Nat := countOf s.lnk.lane fun x => x.cfg.link == some g && x.state == .up && x.data == data

/-- A word of a link's block. -/
def readLink (g : Fin 16) (off : Nat) (s : State) : Nat :=
  let x := s.lnk.link[g]
  if off = 0x00 then word [(0, x.cfg.kind), (2, x.cfg.peer), (6, bit x.cfg.timeSource), (8, unsigned 24 x.cfg.asym)]
  else if off = 0x04 then word [(0, linkState g s), (2, x.peerSeen), (6, bit x.peerMismatch), (7, lanesUp g true s), (13, lanesUp g false s)]
  else if off = 0x08 then ((roundTrip g s).map (unsigned 32)).getD 0xFFFFFFFF
  else if off = 0x0C then unsigned 32 (linkOffset g s)
  else if off = 0x10 then word [(0, x.late), (16, x.early)]
  else 0

/-- The code of a lane's state. -/
def laneCode : LaneState → Nat
  | .off => 0 | .training => 1 | .up => 2 | .failed => 3 | .testing => 4 | .retired => 5

/-- A word of a lane's block. -/
def readLane (l : Fin 64) (off : Nat) (s : State) : Nat :=
  let x := s.lnk.lane[l]
  if off = 0x00 then word [(0, x.cfg.rate), (2, bit x.cfg.fecOff), (3, bit x.cfg.txInvert), (4, (x.cfg.link.map (·.val)).getD 0),
    (8, bit x.cfg.link.isSome), (9, bit x.cfg.spare), (10, bit (hostOwns 0x0B l s))]
  else if off = 0x04 then word [(0, laneCode x.state), (3, bit (carryingLane l s)), (4, bit x.rxInverted), (5, bit x.los), (6, bit x.loa),
    (7, bit x.fecFail), (8, bit x.degraded), (9, x.band), (12, bit (s.map.lanes.getLsbD l)), (13, bit x.testPending)]
  else if off = 0x08 ∨ off = 0x0C then halfOf (off == 0x0C) (word [(0, x.corrected), (40, x.uncorrectable)])
  else if off = 0x10 then x.ser
  else 0

/-- LNK. -/
def readLnk (off : Nat) (s : State) : Nat :=
  let x := s.lnk
  if off = 0x00 then word [(0, x.node), (4, bitsNat ((indices 16).map fun g => linkUp g s)), (20, bit x.timeLink.isSome),
    (21, (x.timeLink.map (·.val)).getD 0), (25, min 127 (x.feeds.filter fun f => f.lane.isNone).length)]
  else if off = 0x04 then x.degSer
  else if off = 0x08 then (s.plc.buffers.filter fun b => b.key.delay).foldl (fun t b => t + bufferPages b) 0
  else if off < 0x1000 then readArray 16 0x100 0x20 off fun g r => readLink g r s
  else readArray 64 0x1000 0x20 off fun l r => readLane l r s

/-! ### FEC (R239) -/

/-- The code of an RX port's state. -/
def rxStateCode : PortState → Nat
  | .sleep => 0 | .standby => 1 | .synthOn => 2 | .active => 3

/-- The code of a TX port's state. -/
def txStateCode : PortState → Nat
  | .sleep => 0 | .standby => 1 | .synthOn => 2 | .active => 4

/-- FEC_PORT_STATE_m. -/
def portStateWord (m : Fin 32) (s : State) : Nat :=
  let r := (s.tiles.rx[m]).radio
  let t := (s.tiles.tx[m]).radio
  word [(0, rxStateCode r.state), (3, rxStateCode r.target), (6, txStateCode t.state), (9, txStateCode t.target), (12, bit (isPair m s)),
    (13, bit (isPair m s && (s.tdd.pairs[m]).transmitting)), (14, bit (r.state != r.target || t.state != t.target)), (16, gateWord m s)]

/-- The code of a mailbox result. -/
def mailCode : MailResult → Nat
  | .ok => 0 | .busyOwned => 1 | .badParam => 2 | .readParity => 3 | .busFault => 4

/-- A word of a front-end link's block. -/
def readFem (n : Fin 16) (off : Nat) (s : State) : Nat :=
  let f := s.fec.fems[n]
  let strobes (p : Strobe → Bool) : Nat := bitsNat ((indices 4).map fun i => p f.strobes[i])
  if off = 0x00 then word [(0, bit f.enable), (1, f.port), (6, bit f.faultEnable), (7, bit f.faultAction), (8, f.sclk), (10, bit f.presencePoll)]
  else if off = 0x04 then word [(0, bit f.fltT), (1, bit f.fltC), (2, bit f.fault), (3, bit f.railMismatch), (4, bit f.hold),
    (5, strobes (·.shortHi)), (9, strobes (·.shortLo)), (13, bit f.rffeShort), (14, bit f.slaveMissing), (15, f.missingUsid)]
  else if off = 0x08 then f.manual.toNat
  else if 0x10 ≤ off ∧ off < 0x20 then readArray 4 0x10 4 off fun i _ => word [(0, (f.strobes[i]).mode), (2, (f.strobes[i]).lead), (9, (f.strobes[i]).lag)]
  else if off = 0x28 ∨ off = 0x2C then halfOf (off == 0x2C) f.data
  else if off = 0x30 then word [(0, bit f.busy), (1, mailCode f.result), (16, f.discards)]
  else 0

/-- A word of a coexistence pair's block. -/
def readCx (c : Fin 8) (off : Nat) (s : State) : Nat :=
  let x := s.fec.cx[c]
  if off = 0x00 then word [(0, x.role), (2, x.lead), (10, x.lag), (18, x.grantTimeout)]
  else if off = 0x04 then x.ports.toNat
  else if off = 0x08 then word [(0, bit x.request), (1, bit x.grant), (2, bit x.gating), (16, x.denied)]
  else 0

/-- A word of a blanking input's block. -/
def readBlank (b : Fin 8) (off : Nat) (s : State) : Nat :=
  let x := s.fec.blanks[b]
  if off = 0x00 then word [(0, bit x.enable), (1, x.blankMax)]
  else if off = 0x04 then word [(0, bit (blankActive x)), (1, bit x.stuck), (16, x.asserts)]
  else if off = 0x08 then x.rxMask.toNat
  else if off = 0x0C then x.txMask.toNat
  else 0

/-- FEC. DESIGN CHOICE: the cx_in bit of a pair without a role reads 0. -/
def readFec (off : Nat) (s : State) : Nat :=
  let x := s.fec
  if off = 0x00 then word [(0, bitsNat ((indices 8).map fun b => (x.blanks[b]).level)),
    (8, bitsNat ((indices 8).map fun c => if (x.cx[c]).role = 1 then (x.cx[c]).pinG else (x.cx[c]).role == 2 && (x.cx[c]).pinA)),
    (16, bit (haltAsserted s)), (17, bit x.busyOwned)]
  else if 0x40 ≤ off ∧ off < 0xC0 then readArray 32 0x40 4 off fun m _ => portStateWord m s
  else if 0x100 ≤ off ∧ off < 0x500 then readArray 16 0x100 0x40 off fun n r => readFem n r s
  else if 0x800 ≤ off ∧ off < 0x880 then readArray 8 0x800 0x10 off fun c r => readCx c r s
  else readArray 8 0x900 0x10 off fun b r => readBlank b r s

/-! ### PLC (R473) -/

/-- The phase code of a move. -/
def phaseCode : MovePhase → Nat
  | .warmUp => 1 | .shadow => 2 | .cutover => 3

/-- A load in whole work units. DESIGN CHOICE: rounded up, as SLC_LOAD is (R309). -/
def wholeUnits (v : Nat) : Nat := (v + 2047) / 2048

/-- PLC_MOVE_i. -/
def moveWord (m : Option Move) : Nat :=
  (m.map fun m => word [(0, m.slice), (8, m.part), (11, m.src), (17, m.dst), (23, phaseCode m.phase), (26, reasonCode m.reason),
    (32, m.matched)]).getD 0

/-- PLC_PARTS_s. -/
def partsWord (x : Placed) : Nat :=
  let engines := (x.live.map (·.engines)).getD []
  word (engines.zipIdx.map fun e => (6 * e.2, e.1.val)) + word [(48, 2 ^ engines.length - 1), (56, bit x.stopped)]

/-- The mask of the pin that PLC_PIN_SEL selects; all ones where no pin exists. -/
def pinMask (p : Placement) : Nat :=
  let v := p.pinSel.toNat
  ((p.pins.find? fun x => x.slice.val == v % 256 && x.kind == v / 256 % 4 && x.which == v / 1024).map (·.mask.toNat)).getD (2 ^ 64 - 1)

/-- PLC. -/
def readPlc (off : Nat) (s : State) : Nat :=
  let p := s.plc
  let l := carried s
  if off = 0x00 then word [(0, (movesOf s).length), (4, bit (passRunning s)), (5, bit p.spread), (6, countOf p.placed (·.stopped)), (15, p.lastPass)]
  else if off = 0x04 then word [(0, bit p.policy), (1, bit p.ownerSeparate), (2, bit p.thermalMoves), (4, p.thermalWeight), (14, p.spreadLimit),
    (19, p.moveLimit)]
  else if off = 0x08 then word [(0, p.interval), (12, p.gap)]
  else if off = 0x0C then p.mapGen
  else if 0x10 ≤ off ∧ off < 0x20 then readArray 4 0x10 4 off fun q _ =>
    word [(0, wholeUnits (quadLoad l q)), (15, availIn l q s), (20, unsigned 12 (quadTemp q s))]
  else if off = 0x20 then p.pinSel.toNat
  else if off = 0x28 ∨ off = 0x2C then halfOf (off == 0x2C) (pinMask p)
  else if 0x100 ≤ off ∧ off < 0x200 then readArray 64 0x100 4 off fun e _ =>
    let on := onEngine l e
    word [(0, unitCode (p.engine[e]).state), (3, wholeUnits (loadOf l e)), (14, (on.filter (·.home)).length), (19, on.length)]
  else if 0x200 ≤ off ∧ off < 0x2C0 then readArray 48 0x200 4 off fun b _ =>
    word [(0, unitCode (s.mem.bank[b]).state), (3, pageCount b s), (13, bit (p.stagedBank == some b))]
  else if 0x300 ≤ off ∧ off < 0x340 then readArray 8 0x300 8 off fun i r => halfOf (r == 4) (moveWord p.moves[i])
  else readArray 256 0x800 8 off fun sl r => halfOf (r == 4) (partsWord p.placed[sl])

/-! ### SEC and CFG (R157, R671) -/

/-- SEC, but for its 256-bit registers; the SMBus address is 0x48 with the straps below it (R661). -/
def readSec (off : Nat) (s : State) : Nat :=
  let x := s.sec
  let slots (p : OwnerSlot → Bool) : Nat := bitsNat ((indices 4).map fun k => p x.owner[k])
  if off = 0x00 then word [(0, x.debug), (2, slots (·.programmed)), (6, slots (·.revoked)), (10, x.minSvn),
    (16, (x.running.map (·.svn)).getD 0), (22, bit (unconfirmed s)), (23, bit x.lockedOut), (24, bit x.keyBad)]
  else if off = 0x04 then word [(0, x.fwWindow), (12, bit x.mgmtFw)]
  else if off = 0x08 then ((x.fw[(0 : Fin 2)]).map (·.version)).getD 0
  else if off = 0x0C then ((x.fw[(1 : Fin 2)]).map (·.version)).getD 0
  else if off = 0x10 ∨ off = 0x14 then halfOf (off == 0x14) x.windowStamp
  else if off = 0x100 then word [(0, x.eid), (8, 0x48 + x.addr.toNat), (16, x.pecErrors)]
  else 0

/-- CFG, but for its 256-bit registers. -/
def readCfg (off : Nat) (s : State) : Nat :=
  let c := s.cfg
  if off = 0x00 then configStatusWord s
  else if off = 0x04 then slotVersion c.active
  else if off = 0x08 then slotVersion c.previous
  else if off = 0x0C then slotVersion c.staged
  else if off = 0x10 then c.high
  else if off = 0x18 ∨ off = 0x1C then halfOf (off == 0x1C) c.commitTime
  else if off = 0x20 ∨ off = 0x24 then halfOf (off == 0x24) c.windowEnd
  else 0

end Sys2Proof.Machine
end

