-- ==== Sys2Proof/Machine/ReadMonitor.lean ====
section
/-! DEFINITION. What reads of the MON registers return (R538). -/
namespace Sys2Proof.Machine
open Sys2Proof

/-- The code of a converter's mode (R535). -/
def convModeCode : ConvMode → Nat
  | .off => 0 | .scan => 1 | .stream => 2

/-- The code of a phase of MON_CAL (R523). -/
def calPhaseCode : CalPhase → Nat
  | .zero => 0 | .full => 1 | .offset => 2 | .revert => 3

/-- The state that MON_ADC_STATUS_c shows. DEDUCED: the later codes go first, since a converter under test or retired keeps its mode. -/
def convStateCode (c : Fin 8) (s : State) : Nat :=
  let x := s.mon.conv[c]
  if madcRetired c s then 6
  else if madcTesting c s then 5
  else if refWait x then 1
  else match x.cfg.mode with
    | .off => 0
    | .stream => 4
    | .scan => if x.running then 3 else 2

/-- A step word (R535). -/
def stepWord (p : ConvStep) : Nat := word [(0, p.input), (4, p.avg), (8, p.settle)]

/-- MON_ADC_CTL_c. -/
def convCtlWord (c : Fin 8) (s : State) : Nat :=
  let x := (s.mon.conv[c]).cfg
  word [(0, convModeCode x.mode), (2, x.trigger), (4, x.policy), (6, x.steps.length), (11, x.preset), (13, x.streamInput), (17, x.dcShift),
    (22, bit x.dcBlock), (23, bit x.openCheck), (24, bit x.refAlways), (25, bit (hostOwns 0x06 c s))]

/-- A word of a converter's block. -/
def readConverter (c : Fin 8) (off : Nat) (s : State) : Nat :=
  let x := s.mon.conv[c]
  let n := senseIdx c x.calInput
  if off = 0x00 then convCtlWord c s
  else if off = 0x04 then
    word [(0, convStateCode c s), (3, bit x.pending), (4, bit x.lastAborted), (5, hostInjections x), (8, bit x.next.isSome)]
  else if off = 0x08 then x.cfg.param1
  else if off = 0x0C then x.cfg.param2
  else if off = 0x10 then word [(0, x.overrun), (16, x.restarts)]
  else if off = 0x14 then
    word [(0, x.calInput), (4, bit (s.mon.sense[n]).zero.isSome), (5, bit x.cal.isSome), (6, calPhaseCode x.lastPhase)]
  else if off = 0x18 then unsigned 32 x.line.output
  else 0

/-- A word of a sense input's result. -/
def readResult (n : Fin 128) (off : Nat) (s : State) : Nat :=
  let x := s.mon.sense[n]
  if off = 0x0 then unsigned 32 x.value
  else if off = 0x4 then
    word [(0, x.raw % 16384), (16, x.updates % 256), (24, bit (senseInvalid n s)), (25, bit x.isOpen), (26, bit x.stream)]
  else if off = 0x8 then word [(0, unsigned 16 x.trim), (16, unsigned 16 x.offset)]
  else 0

/-- Thirty-two bits of the open inputs, from input `i` on. -/
def openBits (i : Nat) (s : State) : Nat := bitsNat (((indices 128).filter fun n => n.val / 32 == i / 32).map fun n => (s.mon.sense[n]).isOpen)

/-- Thirty-two bits of the comparators. -/
def cmpBits (high : Bool) (f : Comparator → Bool) (s : State) : Nat :=
  bitsNat (((indices 64).filter fun n => decide (32 ≤ n.val) == high).map fun n => f s.mon.cmp[n])

/-- MON (R538). -/
def readMon (off : Nat) (s : State) : Nat :=
  let each (f : Fin 8 → Bool) : Nat := bitsNat ((indices 8).map f)
  if off = 0x00 then
    word [(0, each fun c => (s.mon.conv[c]).refReady), (8, each fun c => madcRetired c s), (16, each fun c => (s.mon.conv[c]).cal.isSome)]
  else if off = 0x04 then s.mon.timeout
  else if 0x08 ≤ off ∧ off < 0x18 then openBits ((off - 8) * 8) s
  else if off = 0x18 ∨ off = 0x1C then cmpBits (off == 0x1C) (·.tripped) s
  else if off = 0x20 ∨ off = 0x24 then cmpBits (off == 0x24) (·.latch) s
  else if off < 0x400 then readArray 8 0x100 0x40 off fun c r => readConverter c r s
  else if off < 0x800 then readArray 8 0x400 0x40 off fun c r => (((s.mon.conv[c]).cfg.steps[r / 4]?).map stepWord).getD 0
  else if off < 0x1000 then readArray 128 0x800 0x10 off fun n r => readResult n r s
  else readArray 64 0x1000 8 off fun n r =>
    let x := (s.mon.cmp[n]).cfg
    if r = 0 then word [(0, bit x.enable), (1, x.hyst)] else word [(0, x.hi), (16, x.lo)]

end Sys2Proof.Machine
end

