-- ==== Sys2Proof/Machine/RegisterRead.lean ====
section
/-! DEFINITION. Reads of the BARs (R5, R7, R44 to R47): the register words by their regions, 256-bit registers, and reads that have an effect. -/
namespace Sys2Proof.Machine
open Sys2Proof

/-- The word of the region that an address of PF0's BAR0 lies in (R44): 0 between regions. -/
def readRegion (a : Nat) (s : State) : Nat :=
  if a < 0x10000 then readGlb a s
  else if a < 0x20000 then readHif (a - 0x10000) s
  else if a < 0x30000 then readTim (a - 0x20000) s
  else if a < 0x40000 then readThm (a - 0x30000) s
  else if a < 0x50000 then readFlt (a - 0x40000) s
  else if a < 0x60000 then readEvr (a - 0x50000) s
  else if a < 0x80000 then readPmc (a - 0x60000) s
  else if a < 0x100000 then readMem (a - 0x80000) s
  else if a < 0x200000 then readArray 4 0x100000 0x40000 a fun t r => readTile t r s
  else if a < 0x300000 then readSlc (a - 0x200000) s
  else if a < 0x380000 then readCen (a - 0x300000) s
  else if a < 0x400000 then readNps (a - 0x380000) s
  else if a < 0x480000 then readLnk (a - 0x400000) s
  else if a < 0x500000 then readFec (a - 0x480000) s
  else if a < 0x580000 then readMon (a - 0x500000) s
  else if a < 0x600000 then readPlc (a - 0x580000) s
  else if a < 0x700000 then readSec (a - 0x600000) s
  else readCfg (a - 0x700000) s

/-- A 32-bit word as a function's BAR0 shows it (R93). -/
def shownWord (fn : Fn) (off : Nat) (s : State) : Nat := if fn = 0 then readRegion off s else readVf fn off s

/-- The word or the two words of an access. -/
def shownWords (fn : Fn) (off size : Nat) (s : State) : Nat :=
  if size = 8 then shownWord fn off s + 2 ^ 32 * shownWord fn (off + 4) s else shownWord fn off s

/-- The bytes of a 256-bit value from byte `i` on. -/
def wideBytes (v i size : Nat) : Nat := v / 2 ^ (8 * i) % 2 ^ (8 * size)

/-- A word of the 256-bit register at `base` whose value is now `v` (R5): a read of the lowest word captures all of it for the reading function, and
the other words come from what it captured. DEDUCED from R7: with no capture of this register, they read its current value. -/
def readWide (fn : Fn) (base v i size : Nat) (s : State) : Nat × State :=
  let f := s.hif.fns[fn]
  if i = 0 then (wideBytes v 0 size, onFn fn (fun f => { f with wideBuf := v, wideAt := some base }) s)
  else (wideBytes (if f.wideAt = some base then f.wideBuf else v) i size, s)

/-- What a read of a register leaves behind: the seconds of TIM_NOW_NS's instant are latched (R371), and the peak of TILE_RX_STATUS_p goes back to 255
(R195). -/
def readEffect (a : Nat) (s : State) : State :=
  if a = 0x20010 then onTime (fun t => { t with latchedSec := t.q / qSecond }) s
  else
    match arrayAt 4 0x100000 0x40000 a with
    | some (t, r) => match arrayAt 8 0x100 0x10 r with
      | some (p, 4) => onRx (tilePort t p) (fun x => { x with peak := 255 }) s
      | _ => s
    | none => s

/-- A permitted read of BAR0: the value, and the state after it. -/
def readBar0 (fn : Fn) (off size : Nat) (s : State) : Nat × State :=
  let base := off / 32 * 32
  match if fn = 0 then wideValue base s else none with
  | some v => readWide fn base v (off % 32) size s
  | none => (shownWords fn off size s, if fn = 0 then readEffect off s else s)

/-- A BAR of a function (R43). -/
def readBar (fn : Fn) (bar : BarId) (off size : Nat) (s : State) : Nat × State :=
  match bar with
  | .bar0 => if accessOk fn off size then readBar0 fn off size s else (0, dropAccess fn s)
  | .bar2 => (0, s)
  | .bar4 =>
    if (size = 4 ∨ size = 8) ∧ off % size = 0 then
      (if size = 8 then readCounters off s + 2 ^ 32 * readCounters (off + 4) s else readCounters off s, s)
    else (0, dropAccess fn s)

/-- WIDE_REGISTER_CAPTURE (R5, R7, R44 to R47): a read of a BAR. DESIGN CHOICE: the table has no row for the read of any other register, so this
command is the read of every one. PRESUMED (PCI Express): a request to a BAR that a function has not is unsupported. -/
def execWideRegisterCapture (fn : Fn) (bar : BarId) (offset size : Nat) (s : State) : Host.Outcome State Fault Refusal :=
  if fn ≠ 0 ∧ bar = .bar4 then .next (emit (.unsupported fn) s)
  else .next (viaBar fn (fun s =>
    let r := readBar fn bar offset size s
    emit (.readData fn r.1) r.2) s)

end Sys2Proof.Machine
end

