-- ==== Sys2Proof/Machine/RegisterMap.lean ====
section
/-! DEFINITION. The registers of each region in offset order (R93, R118, R157, R195, R239, R270, R309, R334, R369, R401, R441, R473, R509, R538, R562,
R593, R622, R623, R645, R671), as a dump reads them (R592). A register with no readable field is not listed. -/
namespace Sys2Proof.Machine
open Sys2Proof

/-- An array of blocks of registers: its base, its stride and the number of blocks, with each register's offset in a block and its bytes. -/
structure RegArray where
  base   : Nat
  stride : Nat
  count  : Nat
  regs   : List (Nat × Nat)
  deriving DecidableEq, Repr

/-- Registers that stand alone. -/
def lone (regs : List (Nat × Nat)) : RegArray := { base := 0, stride := 0, count := 1, regs := regs }

/-- An array of registers of a width in bytes. -/
def array (base count bytes : Nat) : RegArray := { base := base, stride := bytes, count := count, regs := [(0, bytes)] }

/-- FLT (R593). -/
def fltRegs : List RegArray :=
  [lone [(0x00, 4), (0x04, 4), (0x08, 4), (0x10, 8), (0x18, 4), (0x20, 32)], array 0x40 5 4,
   lone [(0x58, 8), (0x60, 4), (0x68, 4), (0x70, 8), (0x78, 4)], array 0x100 10 4, array 0x140 10 4, array 0x180 10 4, array 0x400 320 4]

/-- GLB (R118). -/
def glbRegs : List RegArray := [lone [(0x10, 4), (0x18, 4), (0x1C, 4), (0x28, 8)]]

/-- NPS (R369). -/
def npsRegs : List RegArray :=
  [lone [(0x00, 4), (0x04, 4), (0x08, 4), (0x0C, 4), (0x10, 4), (0x14, 4), (0x18, 8)], array 0x100 32 4, array 0x180 32 4, array 0x1000 256 8,
   array 0x2000 256 8]

/-- CFG (R157). -/
def cfgRegs : List RegArray := [lone [(0x00, 4), (0x04, 4), (0x08, 4), (0x0C, 4), (0x10, 4), (0x18, 8), (0x20, 8)], array 0x40 3 32]

/-- HIF, as PF0 sees it (R93). -/
def hifRegs : List RegArray :=
  [lone [(0x00, 4), (0x04, 4), (0x08, 4), (0x0C, 4)],
   { base := 0x1000, stride := 0x40, count := 64
     regs := [(0x00, 4), (0x08, 8), (0x10, 8), (0x18, 4), (0x1C, 4), (0x20, 8), (0x28, 4), (0x2C, 4)] },
   lone [(0x2000, 8), (0x2008, 4), (0x2010, 8)], { base := 0x2100, stride := 0x20, count := 8, regs := [(0x00, 8), (0x08, 4), (0x10, 8)] },
   array 0x3000 64 4, array 0x8000 256 4, lone [(0x9000, 8)]]

/-- TIM (R401). -/
def timRegs : List RegArray :=
  [lone [(0x00, 4), (0x04, 4), (0x08, 4), (0x0C, 4), (0x10, 4), (0x18, 8), (0x20, 4), (0x24, 4), (0x28, 4), (0x2C, 4)],
   { base := 0x100, stride := 0x10, count := 8, regs := [(0x0, 4), (0x4, 4), (0x8, 4)] }, array 0x400 256 4, lone [(0x800, 4), (0x804, 4)],
   array 0x880 32 4]

/-- THM (R645). -/
def thmRegs : List RegArray :=
  [lone [(0x00, 4), (0x04, 4), (0x08, 4)], array 0x10 6 4, array 0x40 6 8, array 0x100 24 4, lone [(0x200, 4), (0x208, 8), (0x210, 4)]]

/-- PLC (R473). -/
def plcRegs : List RegArray :=
  [lone [(0x00, 4), (0x04, 4), (0x08, 4), (0x0C, 4)], array 0x10 4 4, lone [(0x20, 4), (0x28, 8)], array 0x100 64 4, array 0x200 48 4,
   array 0x300 8 8, array 0x800 256 8]

/-- SLC (R309), with the canceller's (R334). -/
def slcRegs : List RegArray :=
  [lone [(0x00, 4), (0x04, 4), (0x08, 4), (0x10, 4), (0x14, 4)], array 0x100 8 4,
   { base := 0x1000, stride := 0x40, count := 256
     regs := [(0x00, 4), (0x08, 8), (0x10, 4), (0x14, 4), (0x18, 4), (0x1C, 4), (0x20, 4), (0x24, 4), (0x28, 4), (0x2C, 4), (0x30, 8),
              (0x38, 8)] },
   lone [(0x8000, 4), (0x8008, 8)],
   { base := 0x9000, stride := 0x40, count := 512
     regs := [(0x00, 4), (0x04, 4), (0x08, 4), (0x0C, 4), (0x10, 4), (0x14, 4), (0x18, 4), (0x1C, 4), (0x20, 4)] }]

/-- CEN (R509). -/
def cenRegs : List RegArray :=
  [lone [(0x00, 4), (0x04, 4), (0x08, 8)],
   { base := 0x1000, stride := 0x80, count := 64
     regs := [(0x00, 4), (0x04, 4), (0x08, 8), (0x10, 8), (0x18, 8)] ++ (List.range 22).map fun i => (0x20 + 4 * i, 4) },
   { base := 0x3000, stride := 0x10, count := 16, regs := [(0x0, 4)] }, lone [(0x3100, 4), (0x3120, 32)],
   { base := 0x40000, stride := 0x1000, count := 64, regs := (List.range 1024).map fun i => (4 * i, 4) }]

/-- The registers of one tile (R195, R270). -/
def tileRegs : List RegArray :=
  [lone [(0x00, 4), (0x04, 4), (0x08, 4), (0x0C, 4), (0x10, 4), (0x18, 8)],
   { base := 0x100, stride := 0x10, count := 8, regs := [(0x0, 4), (0x4, 4)] },
   { base := 0x200, stride := 0x10, count := 8, regs := [(0x0, 4), (0x4, 4)] },
   { base := 0x400, stride := 0x20, count := 8, regs := [(0x00, 4), (0x08, 8), (0x10, 4)] },
   { base := 0x600, stride := 0x20, count := 8, regs := [(0x00, 4), (0x08, 8), (0x10, 4), (0x14, 4)] }, array 0x800 8 4, lone [(0x840, 4)]]

/-- LNK (R441). -/
def lnkRegs : List RegArray :=
  [lone [(0x00, 4), (0x04, 4), (0x08, 4)],
   { base := 0x100, stride := 0x20, count := 16, regs := [(0x00, 4), (0x04, 4), (0x08, 4), (0x0C, 4), (0x10, 4)] },
   { base := 0x1000, stride := 0x20, count := 64, regs := [(0x00, 4), (0x04, 4), (0x08, 8), (0x10, 4)] }]

/-- FEC (R239). -/
def fecRegs : List RegArray :=
  [lone [(0x00, 4)], array 0x40 32 4,
   { base := 0x100, stride := 0x40, count := 16
     regs := [(0x00, 4), (0x04, 4), (0x08, 4), (0x10, 4), (0x14, 4), (0x18, 4), (0x1C, 4), (0x28, 8), (0x30, 4)] },
   { base := 0x800, stride := 0x10, count := 8, regs := [(0x0, 4), (0x4, 4), (0x8, 4)] },
   { base := 0x900, stride := 0x10, count := 8, regs := [(0x0, 4), (0x4, 4), (0x8, 8)] }]

/-- MON (R538). -/
def monRegs : List RegArray :=
  [lone [(0x00, 4), (0x04, 4), (0x08, 8), (0x10, 8), (0x18, 8), (0x20, 8)],
   { base := 0x100, stride := 0x40, count := 8, regs := [(0x00, 4), (0x04, 4), (0x08, 8), (0x10, 4), (0x14, 4), (0x18, 4)] }, array 0x400 128 4,
   { base := 0x800, stride := 0x10, count := 128, regs := [(0x0, 8), (0x8, 4)] }, array 0x1000 64 8]

/-- MEM (R562). -/
def memRegs : List RegArray :=
  [lone [(0x00, 4), (0x04, 4), (0x08, 8), (0x10, 8), (0x18, 8), (0x20, 4), (0x28, 8)],
   { base := 0x100, stride := 8, count := 48, regs := [(0, 4)] }]

/-- PMC (R623). -/
def pmcRegs : List RegArray :=
  [lone [(0x00, 4), (0x08, 8), (0x10, 4)], array 0x100 8 4, array 0x1000 256 8,
   { base := 0x2000, stride := 0x10, count := 256, regs := [(0x0, 8), (0x8, 4)] }]

/-- SEC: its status registers only, and no key material (R592, R671). DEDUCED: the digests of keys are none of them. -/
def secRegs : List RegArray := [lone [(0x00, 4), (0x08, 4), (0x0C, 4), (0x10, 8), (0x100, 4)]]

/-- EVR (R622). -/
def evrRegs : List RegArray :=
  [lone [(0x00, 4), (0x04, 4), (0x08, 8), (0x10, 4), (0x14, 4), (0x18, 8), (0x20, 4), (0x24, 4), (0x28, 4), (0x30, 8)]]

/-- The width in bytes and the value of each register of a region, read without an effect. -/
def regWords (region : Nat) (l : List RegArray) (s : State) : List (Nat × Nat) :=
  l.flatMap fun a => (List.range a.count).flatMap fun i => a.regs.map fun r =>
    let x := region + a.base + i * a.stride + r.1
    (r.2, if r.2 = 32 then (wideValue x s).getD 0 else if r.2 = 8 then readRegion x s + 2 ^ 32 * readRegion (x + 4) s else readRegion x s)

end Sys2Proof.Machine
end

