-- ==== Sys2Proof/Machine/Dump.lean ====
section
/-! DEFINITION. The fatal dump: what it holds (R591, R592), and its way to retained SRAM and to the host (R587 to R590). -/
namespace Sys2Proof.Machine
open Sys2Proof

/-! ### Contents (R591, R592) -/

/-- A register section of a block at its region base. -/
def regSection (region : Nat) (l : List RegArray) (s : State) : DumpSection :=
  { block := region / 0x10000, words := regWords region l s, history := [], store := none, trace := 0, length := 0, cut := false }

/-- The sections in their order (R592). DEDUCED: the four tiles share the section of the TILE region. -/
def dumpSections (sequence : Nat) (s : State) : List DumpSection :=
  let tiles := (List.range 4).flatMap fun t => regWords (0x100000 + 0x40000 * t) tileRegs s
  [{ regSection 0x40000 fltRegs s with history := s.flt.history }, regSection 0 glbRegs s, regSection 0x380000 npsRegs s,
   regSection 0x700000 cfgRegs s, regSection 0x10000 hifRegs s, regSection 0x20000 timRegs s, regSection 0x30000 thmRegs s,
   regSection 0x580000 plcRegs s, regSection 0x200000 slcRegs s, regSection 0x300000 cenRegs s,
   { regSection 0x100000 [] s with words := tiles }, regSection 0x400000 lnkRegs s, regSection 0x480000 fecRegs s,
   regSection 0x500000 monRegs s, regSection 0x80000 memRegs s, regSection 0x60000 pmcRegs s, regSection 0x600000 secRegs s,
   { regSection 0x50000 evrRegs s with store := some s.evr }, { regSection 0 [] s with block := 0xFFFF, trace := freeTraceLength sequence }]

/-- The length of a section that nothing cuts. -/
def sectionSize (x : DumpSection) : Nat :=
  x.words.foldl (fun n w => n + w.1) 0 + 32 * x.history.length + (if x.store.isSome then storeSize else 0) + x.trace

/-- The sections in a number of bytes, each a multiple of 8 (R591): what does not fit is cut, and what follows it (R592). -/
def fitSections : Nat → List DumpSection → List DumpSection
  | _, [] => []
  | room, x :: l =>
    let n := min (sectionSize x) (room / 8 * 8)
    { x with length := n, cut := decide (n < sectionSize x) } :: fitSections (room - ceilTo 8 n) l

/-- What a dump holds beside its sections: the header, the directory and the digest (R591). -/
def dumpFrame (n : Nat) : Nat := 128 + 16 * n + 32

/-- A dump cut to a destination of `room` bytes (R592). -/
def fitDump (room : Nat) (d : DumpHeader) : DumpHeader := { d with sections := fitSections (room - dumpFrame d.sections.length) d.sections }

/-- Is a part of a dump cut (R591)? -/
def dumpCut (d : DumpHeader) : Bool := d.sections.any (·.cut)

/-- The whole length of a dump (R591). -/
def dumpLength (d : DumpHeader) : Nat := dumpFrame d.sections.length + d.sections.foldl (fun n x => n + ceilTo 8 x.length) 0

/-- A section's bytes (R592), filled up to eight. -/
def sectionBytes (sequence : Nat) (x : DumpSection) : List Byte :=
  let all := (x.words.flatMap fun w => toBytes w.1 w.2) ++ (x.history.flatMap histBytes) ++
    ((x.store.map fun e => (List.range storeSize).map (storeByte e)).getD []) ++
    (List.range x.trace).map fun i => BitVec.ofNat 8 (freeDumpByte sequence i)
  let kept := all.take x.length
  kept ++ List.replicate (ceilTo 8 x.length - x.length) 0

/-- The directory (R591): each section's block, flags, offset and length. -/
def directoryBytes : Nat → List DumpSection → List Byte
  | _, [] => []
  | offset, x :: l =>
    toBytes 2 x.block ++ toBytes 2 (bit x.cut) ++ toBytes 4 offset ++ toBytes 4 x.length ++ toBytes 4 0 ++
      directoryBytes (offset + ceilTo 8 x.length) l

/-- The header (R591). -/
def dumpHeaderBytes (h : DumpHeader) : List Byte :=
  toBytes 4 0x504D5544 ++ toBytes 2 1 ++ toBytes 2 128 ++ toBytes 4 (dumpLength h) ++ toBytes 2 h.sections.length ++
    toBytes 2 (bitsNat [dumpCut h, h.toSram, h.toHost, h.previousKept]) ++ toBytes 8 identityHash ++ toBytes 4 h.fwVersion ++
    toBytes 1 (bit h.fwSlot) ++ toBytes 1 h.stage ++ toBytes 2 0 ++ toBytes 4 h.cfgVersion ++ toBytes 8 h.sequence ++
    toBytes 2 h.epoch ++ toBytes 2 0 ++ toBytes 8 h.stamp ++ toBytes 4 h.first ++ toBytes 4 h.resetCause ++ toBytes 64 0

/-- A dump's bytes (R591): the digest covers every byte before it. -/
def dumpBytes (h : DumpHeader) : List Byte :=
  let body := dumpHeaderBytes h ++ directoryBytes (128 + 16 * h.sections.length) h.sections ++ h.sections.flatMap (sectionBytes h.sequence)
  body ++ toBytes 32 (sha256 (body.map (·.toNat)))

/-! ### The way of a dump (R587 to R590) -/

/-- The size of retained SRAM (R587). -/
abbrev dumpRoom : Nat := 4194304

/-- Is the host reachable for a dump (R588)? -/
def dumpReachable (s : State) : Bool :=
  (s.hif.fns[(0 : Fn)]).busMaster && s.hif.linkWidth != 0 && s.flt.dump.registered.isSome

/-- Step 3 of R587 ends: FLT_DUMP_STATUS is updated, and vector 0 signals again. -/
def dumpEnds (toHost cut : Bool) (s : State) : State :=
  signalNumber 0 0 (onFlt (fun c => { c with dump := { c.dump with phase := .done, lastToHost := toHost, truncated := cut } }) s)

/-- DUMP_ASSEMBLED (R587): the dump stands in retained SRAM, cut to its 4 MiB. With no buffer registered, step 3 ends at once. -/
def execDumpAssembled (s : State) : Host.Outcome State Fault Refusal :=
  match s.flt.dump.phase, s.flt.dump.current with
  | .assembling, some h =>
    let h := fitDump dumpRoom { h with sections := dumpSections h.sequence s }
    let s := onFlt (fun c => { c with dump := { c.dump with
      phase := .writing, retained := some h, retainedLen := (dumpLength h + 4095) / 4096, current := some h } }) s
    .next (if s.flt.dump.registered.isSome then s else dumpEnds false (dumpCut h) s)
  | _, _ => .next s

/-- The dump that a host buffer of `n` bytes takes: what stands in retained SRAM, or the registers as they are now where the SRAM is held (R588). -/
def hostDump (n : Nat) (h : DumpHeader) (s : State) : DumpHeader :=
  if h.previousKept then fitDump n { h with toHost := true, sections := dumpSections h.sequence s }
  else fitDump (min n dumpRoom) { h with toHost := true }

/-- DUMP_WRITTEN (R587, R588, R590): the dump write ends. `ok` says that it met no error and no time-out of 100 ms. -/
def execDumpWritten (ok : Bool) (s : State) : Host.Outcome State Fault Refusal :=
  match s.flt.dump.phase, s.flt.dump.current with
  | .writing, some h =>
    match s.flt.dump.registered with
    | some (a, n) =>
      if ok && dumpReachable s then
        let d := hostDump n h s
        let gone := s.flt.dump.waiting
        .next (completeAll gone .ok (onFlt (fun c => { c with dump := { c.dump with waiting := [] } })
          (dumpEnds true (dumpCut d) (emit (.dump a d) s))))
      else .next (dumpEnds false (dumpCut h) s)
    | none => .next (dumpEnds false (dumpCut h) s)
  | _, _ => .next s

/-- DUMP_REGISTER's checks (R590). An unregistration needs no buffer. -/
def dumpCheck (d : Desc) : Option Refuse :=
  let off := bitOf (d.byte 24) 0
  let n := d.u 20 4
  firstFail
    [(d.indirect, badParam 1), (d.tgt ≠ 0, badParam 8), (!off && d.u 12 8 % 4096 != 0, badParam 12),
     (!off && (n % 4096 != 0 || !inRange 1048576 33554432 n), badParam 20), (1 < d.byte 24, badParam 24), d.strayCheck [(12, 13)]]

/-- A buffer is registered: a retained dump is copied to it, and in the fatal state the command waits for the dump that is being made. -/
def registerDump (iss : Issue) (a n : Nat) (s : State) : State :=
  let s := onFlt (fun c => { c with dump := { c.dump with registered := some (a, n) } }) s
  let busy := match s.flt.dump.phase with
    | .assembling => true
    | .writing => true
    | _ => false
  if busy then onFlt (fun c => { c with dump := { c.dump with waiting := c.dump.waiting ++ [iss] } }) s
  else match s.flt.dump.retained with
    | some h =>
      let d := fitDump (min n dumpRoom) { h with toHost := true }
      complete iss .ok (onFlt (fun c => { c with dump := { c.dump with lastToHost := true, truncated := dumpCut d } }) (emit (.dump a d) s))
    | none => complete iss .ok s

/-- DUMP_REGISTER (R589, R590). -/
def execDumpRegister (d : Desc) (s : State) : Host.Outcome State Fault Refusal :=
  .next (hostCommand 0x68 (.dumpRegister d) d (fun iss s =>
    match dumpCheck d with
    | some r => refuse iss r s
    | none =>
      if bitOf (d.byte 24) 0 then complete iss .ok (onFlt (fun c => { c with dump := { c.dump with registered := none } }) s)
      else registerDump iss (d.u 12 8) (d.u 20 4) s) s)

/-- DUMP_RELEASE (R589): 1 is written to FLT_DUMP_STATUS.release. -/
def execDumpRelease (s : State) : Host.Outcome State Fault Refusal :=
  .next (viaBar 0 (onFlt (fun c => { c with dump := { c.dump with retained := none, retainedLen := 0 } })) s)

end Sys2Proof.Machine
end

