-- ==== Sys2Proof/Machine/Security.lean ====
section
/-! DEFINITION. Firmware images, FW_ACTIVATE, the supervisor restart and the activation window (R649 to R657). -/
namespace Sys2Proof.Machine
open Sys2Proof

/-- A firmware image's header as its first 1,024 bytes give it, none when a field or a length is invalid (R649, R650 step 1). -/
def firmwareOf (bs : List Byte) : Option Firmware :=
  let total := leAt bs 12 4
  let fields := leAt bs 0 4 == 0x57465A44 && leAt bs 4 2 == 1 && leAt bs 6 2 == 1024 && leAt bs 16 1 ≤ 63
  let zeros := leAt bs 17 7 == 0 && leAt bs 440 584 == 0
  if fields && zeros && 65536 ≤ total && total ≤ 8388608 && total % 8 == 0 then
    some { version := leAt bs 8 4, svn := leAt bs 16 1, digest := leAt bs 24 32, length := total }
  else none

/-- The verification of an image (R650), whose proofs are checked elsewhere: the status of the first check that fails. -/
def verifyFirmware (f : Option Firmware) (p : FwProof) (s : State) : Except Status Firmware :=
  match f with
  | none => .error .badParam
  | some x => if p.key && p.sig && p.digest && decide (s.sec.minSvn ≤ x.svn) then .ok x else .error .sigFail

/-- The slot that does not run: with no firmware running, the one that the boot record does not name (R653, R663). -/
def idleSlot (s : State) : Bool := if s.sec.running.isSome then !s.sec.slot else !s.flash.boot

/-- The index of a slot. -/
def slotIdx (b : Bool) : Fin 2 := if b then 1 else 0

/-- The image in a slot. -/
def slotImage (b : Bool) (s : State) : Option Firmware := s.sec.fw[slotIdx b]

/-- A slot takes an image, or loses it. -/
def setSlot (b : Bool) (f : Option Firmware) (s : State) : State := onSec (fun x => { x with fw := upd x.fw (slotIdx b) fun _ => f }) s

/-- Is a restart asked for or under way? -/
def restarting (s : State) : Bool := s.sec.restart.isSome || s.sec.asked.isSome

/-! ### FW_ACTIVATE (R651 to R655, R657) -/

/-- FW_ACTIVATE's fields (R652). The action stands in the first parameter byte, which follows the buffer address when there is a buffer
(R64). -/
def activateCheck (d : Desc) : Option Refuse :=
  let p := paramStart d
  let action := d.byte p
  firstFail [
    (action ≤ 2 && d.indirect != (action == 0), badParam 1), (d.tgt ≠ 0, badParam 8), (2 < action, badParam p),
    (1 < d.byte (p + 1) || (d.byte (p + 1) == 1 && action != 2), badParam (p + 1)),
    d.strayCheck (if d.indirect then [(12, 10)] else [(12, 2)])]

/-- LOAD (R653): the image is verified and written to the slot that is not running. -/
def loadFirmware (iss : Issue) (d : Desc) (bs : List Byte) (proof : FwProof) (s : State) : State :=
  match verifyFirmware (firmwareOf bs) proof s with
  | .error .badParam => refuse iss (badParam 0xFFFF) s
  | .error st => refuse iss (refusal st) s
  | .ok f =>
    match firstFail [
      (f.length ≠ d.length.toNat, badParam 4), (!flashInRange s, refusal .tempRange),
      (unconfirmed s || s.sec.writes.isSome || s.sec.load.isSome || restarting s, refusal .rejectedBusy)] with
    | some r => refuse iss r s
    | none => queueFlash (.firmware (idleSlot s) f) (setSlot (idleSlot s) none (onSec (fun x => { x with load := some (iss, f) }) s))

/-- Does the fallback window end within 60 s (R655)? -/
def windowClose (s : State) : Bool := s.cfg.window.any fun e => decide (e ≤ s.now + 60 * qSecond)

/-- ACTIVATE (R654, R655): the restart waits until every command in flight has completed. -/
def activateFirmware (iss : Issue) (s : State) : State :=
  match firstFail [
    ((slotImage (idleSlot s) s).isNone, badParam (12)),
    (unconfirmed s || s.cfg.commit.isSome || returnPending s.cfg || windowClose s || restarting s, refusal .rejectedBusy)] with
  | some r => refuse iss r s
  | none => startRestart (onSec (fun x => { x with asked := some (.activate iss) }) s)

/-- CONFIRM (R651, R657): the running slot becomes current and the window closes; min_svn may rise, and never falls. -/
def confirmFirmware (iss : Issue) (raiseSvn : Bool) (s : State) : State :=
  match firstFail [(!unconfirmed s, badParam 12), (!flashInRange s, refusal .tempRange)] with
  | some r => refuse iss r s
  | none =>
    let svn := (s.sec.running.map (·.svn)).getD 0
    let s := onFlash (fun f => { f with boot := s.sec.slot }) s
    complete iss .ok (onSec (fun x => { x with
      windowEnd := none, windowStamp := 0, minSvn := if raiseSvn then max x.minSvn svn else x.minSvn }) s)

/-- FW_ACTIVATE; `proof` says what the checks of a LOAD's image find. -/
def execFwActivate (d : Desc) (proof : FwProof) (s : State) : Host.Outcome State Fault Refusal :=
  .next (hostCommand 0x70 (.fwActivate d proof) d (fun iss s =>
    match activateCheck d with
    | some r => refuse iss r s
    | none =>
      if d.indirect then
        match d.bytes with
        | none => bufferError iss s
        | some bs => loadFirmware iss d bs proof s
      else if d.byte 12 = 1 then activateFirmware iss s
      else confirmFirmware iss (d.byte 13 == 1) s) s)

/-! ### The supervisor restart (R94, R654, R656, R657) -/

/-- A slot runs. -/
def runFirmwareSlot (b : Bool) (s : State) : State :=
  let s := onBoot (fun x => { x with fwSlot := b }) s
  onSec (fun x => { x with slot := b, running := slotImage b s, restart := none }) s

/-- The activated firmware runs (R654): ACTIVATE completes OK and the activation window opens. -/
def activated (iss : Issue) (s : State) : State :=
  let s := runFirmwareSlot (!s.sec.slot) s
  let w := s.sec.fwWindow * qSecond
  complete iss .ok (onSec (fun x => { x with windowEnd := some (s.time.mono + w), windowStamp := stampOf (s.now + w) }) s)

/-- The activated firmware fails (R656): the supervisor restarts into the previous slot. -/
def activationFails (iss : Issue) (st : Status) (s : State) : State :=
  complete iss st (raise 289 0 0 (onSec (fun x => { x with restart := some .failed }) s))

/-- SUPERVISOR_RESTART_DONE (R654, R656, R657). The restart reads the slot again, so an image below min_svn fails. A restart into the previous
slot goes on until that slot's firmware runs. -/
def execSupervisorRestartDone (fin : RestartEnd) (s : State) : Host.Outcome State Fault Refusal :=
  let valid := (slotImage (!s.sec.slot) s).any fun f => decide (s.sec.minSvn ≤ f.svn)
  .next (match s.sec.restart, fin with
    | some (.activate iss), .running => if valid then activated iss s else activationFails iss .sigFail s
    | some (.activate iss), .badImage => activationFails iss .sigFail s
    | some (.activate iss), .late => activationFails iss .timeout s
    | some .failed, .running => runFirmwareSlot s.sec.slot s
    | some .expired, .running => runFirmwareSlot (!s.sec.slot) s
    | _, _ => s)

/-- FW_WINDOW_EXPIRY (R657): the window has ended unconfirmed. -/
def execFwWindowExpiry (s : State) : Host.Outcome State Fault Refusal :=
  match s.sec.windowEnd with
  | none => .next s
  | some e =>
    let s := raise 290 0 0 (advanceMono e s)
    .next (startRestart (onSec (fun x => { x with windowEnd := none, windowStamp := 0, asked := some .expired }) s))

end Sys2Proof.Machine
end

