-- ==== Sys2Proof/Machine/Management.lean ====
section
/-! DEFINITION. The management port: MCTP control messages, the vendor messages, and debug unlock (R661 to R664, R666, R668, R669). -/
namespace Sys2Proof.Machine
open Sys2Proof

/-! ### Answers (R661, R662) -/

/-- Does the SMBus port answer: from boot step 4 on (R104)? -/
def portAnswers (s : State) : Bool := s.boot.heldBy != .power && s.boot.stage != .reset

/-- The bytes of an answer. -/
def asData (bs : List Byte) : List Nat := bs.map (·.toNat)

/-- A vendor message's response (R662): the vendor ID, command | 0x80, the instance, and the payload; the status is its code. -/
def respond (cmd : Nat) (inst : Byte) (st : Status) (payload : List Byte) (s : State) : State :=
  emit (.answer { code := statusCode st, data := vendorId :: (0x80 + cmd) :: inst.toNat :: asData payload }) s

/-- Does the supervisor's firmware run and serve messages: not before FW_RUN, in RECOVERY or during a restart (R654, R666)? -/
def serving (s : State) : Bool := pastFwRun s && s.boot.stage != .recovery && s.sec.restart.isNone

/-- A message that is not always-on (R654, R662, R666): FATAL_STATE in the fatal state, REJECTED_BUSY while no firmware serves it. -/
def messageGate (recovery : Bool) (s : State) : Option Status :=
  if s.flt.fatal then some .fatalState
  else if serving s || (recovery && s.boot.stage == .recovery) then none
  else some .rejectedBusy

/-- An always-on message. -/
def alwaysOn (body : State → State) (s : State) : State := if portAnswers s then body s else s

/-- Another message: answered with the gate's status, or run. -/
def gated (recovery : Bool) (cmd : Nat) (inst : Byte) (body : State → State) (s : State) : State :=
  if !portAnswers s then s
  else match messageGate recovery s with
    | some st => respond cmd inst st [] s
    | none => body s

/-! ### Always-on messages (R354, R355, R662) -/

/-- HALT (R354). -/
def execHalt (inst : Byte) (s : State) : Host.Outcome State Fault Refusal :=
  .next (alwaysOn (fun s => respond 0x01 inst .ok [] (setHalt .mgmt s)) s)

/-- RELEASE (R355). -/
def execRelease (inst : Byte) (s : State) : Host.Outcome State Fault Refusal :=
  .next (alwaysOn (fun s => respond 0x02 inst .ok [] (clearHalt .host (clearHalt .mgmt s))) s)

/-- WARM_RESET (R94, R662): the response goes out before the reset. -/
def execWarmReset (inst : Byte) (payload : Half) (s : State) : Host.Outcome State Fault Refusal :=
  .next (alwaysOn (fun s =>
    if payload = 0x6144 then startWarm 8 false (respond 0x03 inst .ok [] s) else respond 0x03 inst .badParam [] s) s)

/-- FAULT_READ (R662): the collector's status, or a history entry. -/
def execFaultRead (inst : Byte) (selector : Byte) (s : State) : Host.Outcome State Fault Refusal :=
  .next (alwaysOn (fun s =>
    let c := s.flt
    let n := selector.toNat
    if n = 0 then
      respond 0x04 inst .ok (toBytes 4 (faultStatusWord c) ++ toBytes 4 (firstWord c) ++ toBytes 8 (firstTime c) ++
        (List.range 10).flatMap fun w => toBytes 4 (latchedWord c w)) s
    else if n ≤ 32 then respond 0x04 inst .ok (historyEntry c (n - 1)) s
    else respond 0x04 inst .badParam [] s) s)

/-- CFG_INFO (R662). -/
def execCfgInfo (inst : Byte) (s : State) : Host.Outcome State Fault Refusal :=
  .next (alwaysOn (fun s =>
    respond 0x05 inst .ok (toBytes 4 (configStatusWord s) ++
      ([slotVersion s.cfg.active, slotVersion s.cfg.previous, slotVersion s.cfg.staged, s.cfg.high].flatMap fun v => toBytes 4 v) ++
      (List.range 3).flatMap fun k => toBytes 32 (configDigest k s.cfg)) s) s)

/-- DUMP_READ (R662): a range of the retained dump. -/
def execDumpRead (inst : Byte) (offset : Word) (length : Half) (s : State) : Host.Outcome State Fault Refusal :=
  .next (alwaysOn (fun s =>
    let o := offset.toNat
    let n := length.toNat
    match s.flt.dump.retained with
    | some h =>
      if 1 ≤ n ∧ n ≤ 1024 ∧ o + n ≤ s.flt.dump.retainedLen * 4096 then
        respond 0x06 inst .ok (((dumpBytes h).drop o ++ List.replicate n 0).take n) s
      else respond 0x06 inst .badParam [] s
    | none => respond 0x06 inst .badParam [] s) s)

/-! ### Firmware over MCTP (R106, R663) -/

/-- What FW_WRITE and FW_FINISH need first (R150, R663): RECOVERY or mgmt_fw, no LOAD and no activation, and the flash's temperature. -/
def managementFw (s : State) : Option Status :=
  if s.boot.stage != .recovery && !s.sec.mgmtFw then some .denied
  else if s.sec.load.isSome || unconfirmed s || restarting s then some .rejectedBusy
  else if !flashInRange s then some .tempRange
  else none

/-- Byte i of what a sequence of writes has written, the newest first; an erased byte where none has. -/
def writtenByte (ws : List (Nat × List Byte)) (i : Nat) : Byte :=
  match ws.find? fun w => w.1 ≤ i && i < w.1 + w.2.length with
  | some w => w.2.getD (i - w.1) 0xFF
  | none => 0xFF

/-- The header that a sequence of writes has written. -/
def writtenHeader (ws : List (Nat × List Byte)) : List Byte := (List.range 1024).map (writtenByte ws)

/-- FW_WRITE (R662, R663): bytes go to the slot that does not run, which holds no valid image from then on. -/
def execFwWrite (inst : Byte) (offset : Word) (bytes : List Byte) (s : State) : Host.Outcome State Fault Refusal :=
  .next (gated true 0x07 inst (fun s =>
    match managementFw s with
    | some st => respond 0x07 inst st [] s
    | none =>
      if bytes.length < 1 ∨ 1024 < bytes.length ∨ 8388608 < offset.toNat + bytes.length then respond 0x07 inst .badParam [] s
      else
        let s := setSlot (idleSlot s) none s
        respond 0x07 inst .ok [] (onSec (fun x => { x with writes := some ((offset.toNat, bytes) :: x.writes.getD []) }) s)) s)

/-- FW_FINISH (R662, R663): the slot is verified, made current, and the part warm-resets; `proof` says what the checks of its image find. -/
def execFwFinish (inst : Byte) (proof : FwProof) (s : State) : Host.Outcome State Fault Refusal :=
  .next (gated true 0x08 inst (fun s =>
    match managementFw s with
    | some st => respond 0x08 inst st [] s
    | none =>
      let slot := idleSlot s
      let image := match s.sec.writes with
        | some ws => firmwareOf (writtenHeader ws)
        | none => slotImage slot s
      let s := onSec (fun x => { x with writes := none }) s
      match verifyFirmware image proof s with
      | .error st => respond 0x08 inst st [] s
      | .ok f =>
        let s := onFlash (fun x => { x with boot := slot }) (setSlot slot (some f) s)
        startWarm 8 false (respond 0x08 inst .ok [] s)) s)

/-! ### Owner keys (R646 to R648, R664) -/

/-- A modulus is programmed into the first free slot, and its record is written to flash. -/
def programKey (i : Fin 4) (hash : Nat) (s : State) : State :=
  queueFlash .keys (onSec (fun x => { x with
    owner := x.owner.set i { hash := hash, programmed := true, revoked := false, usable := true } }) s)

/-- What OWNER_KEY finds and does (R664), or the status that it completes with; `sigOk` says that a valid owner key, for a revocation a
different one, has signed. -/
def keyChange (op : KeyOp) (sigOk : Bool) (s : State) : Except Status State :=
  let keys := s.sec.owner
  let cold : Bool := !flashInRange s
  match op with
  | .provision hash =>
    if anyOf keys (·.programmed) then .error .denied else if cold then .error .tempRange else .ok (programKey 0 hash s)
  | .add hash =>
    if !(sigOk && anyOf keys validKey) then .error .sigFail
    else match findIdx keys fun k => !k.programmed with
      | none => .error .noCapacity
      | some i => if cold then .error .tempRange else .ok (programKey i hash s)
  | .revoke i =>
    if !(keys[i]).programmed || (keys[i]).revoked then .error .badParam
    else if countOf keys validKey = bit (validKey keys[i]) then .error .badParam
    else if !sigOk then .error .sigFail
    else if cold then .error .tempRange
    else .ok (onSec (fun x => { x with owner := upd x.owner i fun k => { k with revoked := true } }) s)

/-- OWNER_KEY (R664): each change raises error 293. -/
def execOwnerKey (inst : Byte) (op : KeyOp) (sigOk : Bool) (s : State) : Host.Outcome State Fault Refusal :=
  .next (gated false 0x09 inst (fun s =>
    match keyChange op sigOk s with
    | .error st => respond 0x09 inst st [] s
    | .ok t => respond 0x09 inst .ok [] (raise 293 0 0 t)) s)

/-! ### Debug unlock (R668) -/

/-- How long a nonce serves (R668). -/
abbrev nonceLife : Nat := 60 * qSecond

/-- DEBUG_CHALLENGE (R662, R668): a new nonce, with which an earlier one lapses, and the identity hash. -/
def execDebugChallenge (inst : Byte) (s : State) : Host.Outcome State Fault Refusal :=
  .next (gated false 0x0A inst (fun s =>
    let n := s.sec.nonces
    let s := onSec (fun x => { x with nonce := some (n, s.time.mono), nonces := n + 1 }) s
    respond 0x0A inst .ok (toBytes 32 (freeNonce n) ++ toBytes 32 identityHash) s) s)

/-- Is there a nonce that still serves? -/
def nonceLive (s : State) : Bool := s.sec.nonce.any fun n => decide (s.time.mono < n.2 + nonceLife)

/-- A failed unlock (R668): error 295, and after the third in succession no unlock until cold reset. -/
def unlockFails (s : State) : State :=
  raise 295 0 0 (onSec (fun x => { x with nonce := none, failures := x.failures + 1, lockedOut := x.lockedOut || 3 ≤ x.failures + 1 }) s)

/-- DEBUG_UNLOCK (R668): level 1 verifies against the owner keys, level 2 against the root key. -/
def execDebugUnlock (inst : Byte) (level : Byte) (sigOk : Bool) (s : State) : Host.Outcome State Fault Refusal :=
  .next (gated false 0x0B inst (fun s =>
    let n := level.toNat
    if s.sec.lockedOut then respond 0x0B inst .denied [] s
    else if n ≠ 1 ∧ n ≠ 2 then respond 0x0B inst .badParam [] s
    else if nonceLive s && sigOk && (n == 2 || anyOf s.sec.owner validKey) then
      respond 0x0B inst .ok [] (raise 294 0 0 (onSec (fun x => { x with nonce := none, failures := 0, debug := max x.debug n }) s))
    else respond 0x0B inst .sigFail [] (unlockFails s)) s)

/-- NONCE_EXPIRY (R668). -/
def execNonceExpiry (s : State) : Host.Outcome State Fault Refusal :=
  match s.sec.nonce with
  | none => .next s
  | some n => .next (onSec (fun x => { x with nonce := none }) (advanceMono (n.2 + nonceLife) s))

/-! ### MCTP control (R661) and the bus -/

/-- A control message's answer (R661), in the completion codes of DSP0236. -/
def controlAnswer (data : List Nat) (s : State) : Host.Outcome State Fault Refusal :=
  .next (alwaysOn (emit (.answer { code := 0, data := data })) s)

/-- SET_ENDPOINT_ID (R661). PRESUMED (DSP0236): 0x00 and 0xFF are refused as invalid data. -/
def execSetEndpointId (eid : Byte) (s : State) : Host.Outcome State Fault Refusal :=
  .next (alwaysOn (fun s =>
    if eid = 0 ∨ eid = 0xFF then emit (.answer { code := 2, data := [] }) s
    else emit (.answer { code := 0, data := [eid.toNat] }) (onSec (fun x => { x with eid := eid.toNat }) s)) s)

/-- GET_ENDPOINT_ID (R661). -/
def execGetEndpointId (s : State) : Host.Outcome State Fault Refusal := controlAnswer [s.sec.eid] s

/-- GET_MCTP_VERSION_SUPPORT (R661): the version numbers are the standard's. -/
def execGetMctpVersionSupport (s : State) : Host.Outcome State Fault Refusal := controlAnswer [freeAnswer 0x04 0] s

/-- GET_MESSAGE_TYPE_SUPPORT (R661). -/
def execGetMessageTypeSupport (s : State) : Host.Outcome State Fault Refusal := controlAnswer [0x00, 0x01, 0x05, 0x7E] s

/-- GET_VENDOR_DEFINED_MESSAGE_SUPPORT (R661, R662): vendor-defined PCI messages, with Druzar's ID. -/
def execGetVendorDefinedMessageSupport (s : State) : Host.Outcome State Fault Refusal := controlAnswer [vendorId] s

/-- MCTP_PEC_DROP (R661). -/
def execMctpPecDrop (s : State) : Host.Outcome State Fault Refusal :=
  .next (alwaysOn (fun s => raise 296 0 0 (onSec (fun x => { x with pecErrors := satAdd 255 x.pecErrors 1 }) s)) s)

/-- SMBUS_TIMEOUT (R685): the port releases its lines and resets its interface, which holds no state that the model keeps. -/
def execSmbusTimeout (s : State) : Host.Outcome State Fault Refusal := .next s

end Sys2Proof.Machine
end

