-- ==== Sys2Proof/Machine/Attest.lean ====
section
/-! DEFINITION. PLDM monitoring and the SPDM responder (R658 to R660, R665, R669). PRESUMED: the codes of the answers are those of DSP0240, DSP0248
and DSP0274. -/
namespace Sys2Proof.Machine
open Sys2Proof

/-! ### PLDM (R665) -/

/-- A PLDM request's answer: ERROR_NOT_READY (4) while no firmware serves it (R654), FATAL_STATE in the fatal state (R666). -/
def pldm (body : State → Answer) (s : State) : Host.Outcome State Fault Refusal :=
  .next (alwaysOn (fun s => emit (.answer (match messageGate false s with
    | some .fatalState => { code := statusCode .fatalState, data := [] }
    | some _ => { code := 4, data := [] }
    | none => body s)) s) s)

/-- An answer whose contents the standard or the factory gives: field `k` of them. -/
def standardAnswer (code k : Nat) : Answer := { code := code, data := [freeAnswer code k] }

/-- GETTID (R665). -/
def execGettid (s : State) : Host.Outcome State Fault Refusal := pldm (fun _ => standardAnswer 0 0x02) s

/-- GETPLDMVERSION (R665). -/
def execGetpldmversion (s : State) : Host.Outcome State Fault Refusal := pldm (fun _ => standardAnswer 0 0x03) s

/-- GETPLDMTYPES (R665): types 0 and 2. -/
def execGetpldmtypes (s : State) : Host.Outcome State Fault Refusal := pldm (fun _ => { code := 0, data := [0, 2] }) s

/-- GETPLDMCOMMANDS (R665): the commands of type 0 and of type 2, by the codes of DSP0240 and DSP0248. -/
def execGetpldmcommands (type : Nat) (s : State) : Host.Outcome State Fault Refusal :=
  pldm (fun _ =>
    if type = 0 then { code := 0, data := [0x02, 0x03, 0x04, 0x05] }
    else if type = 2 then { code := 0, data := [0x11, 0x21, 0x50, 0x51] }
    else { code := 0x83, data := [] }) s

/-- GETPDRREPOSITORYINFO (R665): the layout is the standard's. -/
def execGetpdrrepositoryinfo (s : State) : Host.Outcome State Fault Refusal := pldm (fun _ => standardAnswer 0 0x50) s

/-- GETPDR (R665): the layout is the standard's. -/
def execGetpdr (record : Nat) (s : State) : Host.Outcome State Fault Refusal := pldm (fun _ => standardAnswer 0 (0x10000 + record)) s

/-- The reading of a numeric sensor (R665). -/
def numericSensor (n : Nat) (s : State) : Option Int :=
  if 1 ≤ n ∧ n ≤ 6 then (finOf 6 (n - 1)).map fun z => zoneValue z s
  else if n = 7 then some (lifeUsed s.thm)
  else if n = 8 then some s.time.ppsOffset
  else if n = 9 then some (errorWord s.time.estimate)
  else if 10 ≤ n ∧ n ≤ 25 then (finOf 128 (n + 86)).map fun (i : Fin 128) => (s.mon.sense[i]).value
  else none

/-- The readings of a state sensor (R665): of the halt, whether it is asserted, and its sources in the order of R354. -/
def stateSensor (n : Nat) (s : State) : Option (List Nat) :=
  if n = 26 then some [stageCode s.boot.stage]
  else if n = 27 then
    some [bit (haltAsserted s), bit s.nps.haltHost, bit s.nps.haltMgmt, bit s.nps.haltReset, bit s.nps.haltThermal]
  else if n = 28 then some [bit s.flt.fatal]
  else if n = 29 then some [alignCode s.time.state]
  else if n = 30 then some [s.thm.overcast.stage]
  else none

/-- GETSENSORREADING (R665): a reading as 32 bits, two's complement; another sensor is INVALID_SENSOR_ID. -/
def execGetsensorreading (sensor : Nat) (s : State) : Host.Outcome State Fault Refusal :=
  pldm (fun s => match numericSensor sensor s with
    | some v => { code := 0, data := [unsigned 32 v] }
    | none => { code := 0x80, data := [] }) s

/-- GETSTATESENSORREADINGS (R665). -/
def execGetstatesensorreadings (sensor : Nat) (s : State) : Host.Outcome State Fault Refusal :=
  pldm (fun s => match stateSensor sensor s with
    | some l => { code := 0, data := l }
    | none => { code := 0x80, data := [] }) s

/-! ### SPDM (R658 to R660, R669) -/

/-- Codes of an SPDM ERROR response. -/
inductive SpdmError where
  | invalidRequest | busy | unexpectedRequest | unspecified | unsupportedRequest
  deriving DecidableEq, Repr

/-- Their numbers. PRESUMED (DSP0274). -/
def spdmErrorCode : SpdmError → Nat
  | .invalidRequest => 0x01 | .busy => 0x03 | .unexpectedRequest => 0x04 | .unspecified => 0x05 | .unsupportedRequest => 0x07

/-- An ERROR response. -/
def spdmError (e : SpdmError) (s : State) : State := emit (.answer { code := 0x7F, data := [spdmErrorCode e] }) s

/-- A response. -/
def spdmResponse (code : Nat) (data : List Nat) (s : State) : State := emit (.answer { code := code, data := data }) s

/-- A transport's negotiation. -/
def negotiation (t : Transport) (s : State) : Negotiation :=
  match t with
  | .mctp => s.sec.spdmMctp
  | .doe => s.sec.spdmDoe

/-- A change of a transport's negotiation. -/
def onNegotiation (t : Transport) (f : Negotiation → Negotiation) (s : State) : State :=
  match t with
  | .mctp => onSec (fun x => { x with spdmMctp := f x.spdmMctp }) s
  | .doe => onSec (fun x => { x with spdmDoe := f x.spdmDoe }) s

/-- Does a request reach the responder: through the port, or through PF0's mailbox while configuration requests are answered (R39, R109)? -/
def reaches (t : Transport) (s : State) : Bool :=
  match t with
  | .mctp => portAnswers s
  | .doe => !s.hif.perstLow && pastFwRun s

/-- A request: ERROR Busy while no firmware serves it (R654), FATAL_STATE in the fatal state (R666), or its effect. -/
def spdm (t : Transport) (body : State → State) (s : State) : Host.Outcome State Fault Refusal :=
  .next (if !reaches t s then s
    else match messageGate false s with
      | some .fatalState => emit (.answer { code := statusCode .fatalState, data := [] }) s
      | some _ => spdmError .busy s
      | none => body s)

/-- A request that a condition on the transport's negotiation must hold for. -/
def negotiated (t : Transport) (need : Negotiation → Bool) (body : State → State) (s : State) : Host.Outcome State Fault Refusal :=
  spdm t (fun s => if need (negotiation t s) then body s else spdmError .unexpectedRequest s) s

/-- GET_VERSION (R659): SPDM 1.2; it begins a negotiation. -/
def execGetVersion (t : Transport) (s : State) : Host.Outcome State Fault Refusal :=
  spdm t (fun s => spdmResponse 0x04 [0x12]
    (onNegotiation t (fun _ => { version := true, capabilities := false, algorithms := false }) s)) s

/-- GET_CAPABILITIES (R659): CERT_CAP, CHAL_CAP and MEAS_CAP with signatures. -/
def execGetCapabilities (t : Transport) (s : State) : Host.Outcome State Fault Refusal :=
  negotiated t (·.version) (fun s => spdmResponse 0x61 [0x02 + 0x04 + 0x10]
    (onNegotiation t (fun n => { n with capabilities := true }) s)) s

/-- NEGOTIATE_ALGORITHMS (R659): TPM_ALG_RSASSA_3072 and TPM_ALG_SHA_256 are the only algorithms; `offered` says that the requester offers
them. -/
def execNegotiateAlgorithms (t : Transport) (offered : Bool) (s : State) : Host.Outcome State Fault Refusal :=
  negotiated t (·.capabilities) (fun s =>
    if offered then
      spdmResponse 0x63 [freeAnswer 0x63 0, freeAnswer 0x63 1] (onNegotiation t (fun n => { n with algorithms := true }) s)
    else spdmError .invalidRequest s) s

/-- GET_DIGESTS (R658, R659): the digest of the chain in slot 0. -/
def execGetDigests (t : Transport) (s : State) : Host.Outcome State Fault Refusal :=
  negotiated t (·.algorithms) (fun s => spdmResponse 0x01 [freeAnswer 0x01 0] s) s

/-- GET_CERTIFICATE (R658): the chain stands in slot 0 only. -/
def execGetCertificate (t : Transport) (slot : Nat) (offset length : Half) (s : State) : Host.Outcome State Fault Refusal :=
  negotiated t (·.algorithms) (fun s =>
    if slot = 0 then spdmResponse 0x02 ((List.range length.toNat).map fun i => freeAnswer 0x02 (offset.toNat + i)) s
    else spdmError .invalidRequest s) s

/-- A signature by the identity key, which nothing outside can compute: a free value. -/
def withSignature (code : Nat) (data : List Nat) (s : State) : State :=
  takeFree (spdmResponse code (data ++ [freeAnswer code s.free]) s)

/-- CHALLENGE (R659, R669): at level 2 the identity key signs nothing. -/
def execChallenge (t : Transport) (slot : Nat) (s : State) : Host.Outcome State Fault Refusal :=
  negotiated t (·.algorithms) (fun s =>
    if s.sec.debug = 2 then spdmError .unspecified s
    else if slot = 0 then withSignature 0x03 [slot] s
    else spdmError .invalidRequest s) s

/-- What measurement 3 is the digest of (R660): min_svn, the owner hash slots and revoke bits, and the bitmaps of the retirement map. -/
def hardwareBytes (s : State) : List Nat :=
  asData (toBytes 1 s.sec.minSvn ++ (s.sec.owner.toList.flatMap fun k => toBytes 32 (ownerHash k)) ++
    toBytes 1 (bitsNat (s.sec.owner.toList.map (·.revoked))) ++ toBytes 8 s.map.engines.toNat ++ toBytes 8 s.map.banks.toNat ++
    toBytes 8 s.map.lanes.toNat ++ toBytes 4 s.map.rx.toNat ++ toBytes 4 s.map.tx.toNat ++ toBytes 1 s.map.madcs.toNat)

/-- A measurement block (R660): the digest, or block 5's four bytes. -/
def measurement (i : Nat) (s : State) : List Nat :=
  if i = 1 then [romDigest]
  else if i = 2 then [(s.sec.running.map (·.digest)).getD 0]
  else if i = 3 then [sha256 (hardwareBytes s)]
  else if i = 4 then [configDigest 0 s.cfg]
  else [s.sec.debug, stageCode s.boot.stage, bit s.sec.slot, bit (unconfirmed s)]

/-- GET_MEASUREMENTS (R660, R669): index 0 asks for the number of blocks and 255 for all of them. -/
def execGetMeasurements (t : Transport) (index : Nat) (signed : Bool) (s : State) : Host.Outcome State Fault Refusal :=
  negotiated t (·.algorithms) (fun s =>
    if signed && s.sec.debug == 2 then spdmError .unspecified s
    else
      let answer (data : List Nat) : State := if signed then withSignature 0x60 data s else spdmResponse 0x60 data s
      if index = 0 then answer [5]
      else if index ≤ 5 then answer (index :: measurement index s)
      else if index = 255 then answer ((List.range 5).flatMap fun i => (i + 1) :: measurement (i + 1) s)
      else spdmError .invalidRequest s) s

/-- SPDM_UNSUPPORTED_REQUEST (R659). -/
def execSpdmUnsupportedRequest (t : Transport) (s : State) : Host.Outcome State Fault Refusal :=
  spdm t (spdmError .unsupportedRequest) s

end Sys2Proof.Machine
end

