-- ==== Sys2Proof/Machine/Jtag.lean ====
section
/-! DEFINITION. JTAG (R667 to R669): the public instructions, and the private ones at an unlocked debug level. -/
namespace Sys2Proof.Machine
open Sys2Proof

/-- A read through JTAG (R668), as a read of PF0's BAR0; an access that BAR0 does not accept does nothing (DEDUCED). -/
def jtagRead (off size : Nat) (s : State) : State :=
  if accessOk 0 off size then
    let r := readBar0 0 off size s
    emit (.readData 0 r.1) r.2
  else s

/-- A write through JTAG, as a write of PF0's BAR0. -/
def jtagWrite (off size value : Nat) (s : State) : State :=
  let v := value % 2 ^ (8 * size)
  if !accessOk 0 off size then s
  else if size = 4 then writeWord 0 off v s
  else writeWord 0 (off + 4) (v / 2 ^ 32) (writeWord 0 off (v % 2 ^ 32) s)

/-- The supervisor's trace, whose contents are not given: a free value. -/
def jtagTrace (s : State) : State := takeFree (emit (.answer { code := 0, data := [freeAnswer 0x668 s.free] }) s)

/-- JTAG_INSTRUCTION (R667 to R669). A public instruction changes no state of the device. A private one acts at an unlocked level only: level 1 gives register
access and the supervisor's trace, and level 2 adds scan and supervisor debug, whose effect is not given. -/
def execJtagInstruction (op : JtagOp) (s : State) : Host.Outcome State Fault Refusal :=
  match op with
  | .readRegister off size => if s.sec.debug = 0 then .next s else .next (jtagRead off size s)
  | .writeRegister off size v => if s.sec.debug = 0 then .next s else .next (jtagWrite off size v s)
  | .trace => if s.sec.debug = 0 then .next s else .next (jtagTrace s)
  | .inner => if s.sec.debug = 2 then .refused .privateJtag else .next s
  | _ => .next s

end Sys2Proof.Machine
end

