-- ==== Sys2Proof/Machine/Dispatch.lean ====
section
/-! DEFINITION. The dispatch of a command to its meaning, one arm for each constructor of `Instr`. -/
namespace Sys2Proof.Machine
open Sys2Proof

/-- The effect of a command on everything but the queue. -/
def exec (i : Instr) (s : State) : Host.Outcome State Fault Refusal :=
  match i with
  | .powerGood straps refclkSel => Sys2Proof.Machine.execPowerGood straps refclkSel s
  | .powerFail => Sys2Proof.Machine.execPowerFail s
  | .sysReset straps refclkSel => Sys2Proof.Machine.execSysReset straps refclkSel s
  | .refclkQualified hz => Sys2Proof.Machine.execRefclkQualified hz s
  | .fwRun okA okB maps ledgers keys skip => Sys2Proof.Machine.execFwRun okA okB maps ledgers keys skip s
  | .ready verified => Sys2Proof.Machine.execReady verified s
  | .watchdogExpiry => Sys2Proof.Machine.execWatchdogExpiry s
  | .glbResetWarm key => Sys2Proof.Machine.execGlbResetWarm key s
  | .warmResetSequence => Sys2Proof.Machine.execWarmResetSequence s
  | .tileReset tile key => Sys2Proof.Machine.execTileReset tile key s
  | .perstAssert => Sys2Proof.Machine.execPerstAssert s
  | .perstDeassert => Sys2Proof.Machine.execPerstDeassert s
  | .pcieLinkUp rate width => Sys2Proof.Machine.execPcieLinkUp rate width s
  | .flr fn => Sys2Proof.Machine.execFlr fn s
  | .pcieConfigRequest fn change => Sys2Proof.Machine.execPcieConfigRequest fn change s
  | .barAccessDrop fn read => Sys2Proof.Machine.execBarAccessDrop fn read s
  | .registerWrite fn offset size value => Sys2Proof.Machine.execRegisterWrite fn offset size value s
  | .wideRegisterCapture fn bar offset size => Sys2Proof.Machine.execWideRegisterCapture fn bar offset size s
  | .timNowNsRead fn => Sys2Proof.Machine.execTimNowNsRead fn s
  | .peakRead port => Sys2Proof.Machine.execPeakRead port s
  | .timeSourceChange source => Sys2Proof.Machine.execTimeSourceChange source s
  | .codeSelWrite bank parity => Sys2Proof.Machine.execCodeSelWrite bank parity s
  | .codeSelZeroDone bank => Sys2Proof.Machine.execCodeSelZeroDone bank s
  | .dumpRelease => Sys2Proof.Machine.execDumpRelease s
  | .ringOwnerWrite ring owner => Sys2Proof.Machine.execRingOwnerWrite ring owner s
  | .ringEnable fn sel => Sys2Proof.Machine.execRingEnable fn sel s
  | .ringDisable fn sel => Sys2Proof.Machine.execRingDisable fn sel s
  | .ringDrained ring => Sys2Proof.Machine.execRingDrained ring s
  | .ringReset fn sel => Sys2Proof.Machine.execRingReset fn sel s
  | .msixUnmask fn vector => Sys2Proof.Machine.execMsixUnmask fn vector s
  | .doorbellProducer fn page offset size value => Sys2Proof.Machine.execDoorbellProducer fn page offset size value s
  | .doorbellConsumer fn page value => Sys2Proof.Machine.execDoorbellConsumer fn page value s
  | .descriptorFetch ring fetch => Sys2Proof.Machine.execDescriptorFetch ring fetch s
  | .cplWriteError sel => Sys2Proof.Machine.execCplWriteError sel s
  | .vectorTimer fn vector => Sys2Proof.Machine.execVectorTimer fn vector s
  | .nop d => Sys2Proof.Machine.execNop d s
  | .cfgStage d sigOk digestOk => Sys2Proof.Machine.execCfgStage d sigOk digestOk s
  | .cfgCommit d copyUe => Sys2Proof.Machine.execCfgCommit d copyUe s
  | .commitApply => Sys2Proof.Machine.execCommitApply s
  | .cfgConfirm d => Sys2Proof.Machine.execCfgConfirm d s
  | .cfgRollback d => Sys2Proof.Machine.execCfgRollback d s
  | .windowEnd => Sys2Proof.Machine.execWindowEnd s
  | .fallbackReturn => Sys2Proof.Machine.execFallbackReturn s
  | .stagedCopyRebuild verified => Sys2Proof.Machine.execStagedCopyRebuild verified s
  | .persistFlush => Sys2Proof.Machine.execPersistFlush s
  | .flashRetry => Sys2Proof.Machine.execFlashRetry s
  | .timeSet d => Sys2Proof.Machine.execTimeSet d s
  | .timeSetTimeout => Sys2Proof.Machine.execTimeSetTimeout s
  | .tddPatternSet d => Sys2Proof.Machine.execTddPatternSet d s
  | .patternPeriodStart timer => Sys2Proof.Machine.execPatternPeriodStart timer s
  | .tddSwitch pair => Sys2Proof.Machine.execTddSwitch pair s
  | .tddInfer d => Sys2Proof.Machine.execTddInfer d s
  | .inferDone => Sys2Proof.Machine.execInferDone s
  | .inferInterval timer => Sys2Proof.Machine.execInferInterval timer s
  | .ppsEdge capture width active => Sys2Proof.Machine.execPpsEdge capture width active s
  | .ppsLoss => Sys2Proof.Machine.execPpsLoss s
  | .timeStep => Sys2Proof.Machine.execTimeStep s
  | .errorUpdate => Sys2Proof.Machine.execErrorUpdate s
  | .ppsOutPulse => Sys2Proof.Machine.execPpsOutPulse s
  | .radioState d => Sys2Proof.Machine.execRadioState d s
  | .radioTransitionDone unit => Sys2Proof.Machine.execRadioTransitionDone unit s
  | .tileLockFail tile => Sys2Proof.Machine.execTileLockFail tile s
  | .lockTimeout unit => Sys2Proof.Machine.execLockTimeout unit s
  | .synthCal d => Sys2Proof.Machine.execSynthCal d s
  | .synthHandover d => Sys2Proof.Machine.execSynthHandover d s
  | .tempHandoverTrigger tile => Sys2Proof.Machine.execTempHandoverTrigger tile s
  | .twinPrepared tile => Sys2Proof.Machine.execTwinPrepared tile s
  | .handoverBoundary tile => Sys2Proof.Machine.execHandoverBoundary tile s
  | .handoverRecord tile phaseStep => Sys2Proof.Machine.execHandoverRecord tile phaseStep s
  | .twinFailed tile => Sys2Proof.Machine.execTwinFailed tile s
  | .twinRetry tile => Sys2Proof.Machine.execTwinRetry tile s
  | .synthLockLost tile => Sys2Proof.Machine.execSynthLockLost tile s
  | .tileRelock tile => Sys2Proof.Machine.execTileRelock tile s
  | .bandDeclared zone up => Sys2Proof.Machine.execBandDeclared zone up s
  | .bandTableApply tile => Sys2Proof.Machine.execBandTableApply tile s
  | .spareRotation port next converged => Sys2Proof.Machine.execSpareRotation port next converged s
  | .correctionTimeout port => Sys2Proof.Machine.execCorrectionTimeout port s
  | .rxOverrange port => Sys2Proof.Machine.execRxOverrange port s
  | .loadFault port => Sys2Proof.Machine.execLoadFault port s
  | .portSelftestDone unit failures replay => Sys2Proof.Machine.execPortSelftestDone unit failures replay s
  | .queueAlignmentError port tx occupancy => Sys2Proof.Machine.execQueueAlignmentError port tx occupancy s
  | .residueMismatch site stage index corrected => Sys2Proof.Machine.execResidueMismatch site stage index corrected s
  | .femFaultInput fem t c => Sys2Proof.Machine.execFemFaultInput fem t c s
  | .strobeShort fem strobe high => Sys2Proof.Machine.execStrobeShort fem strobe high s
  | .rffeShort fem => Sys2Proof.Machine.execRffeShort fem s
  | .rffeBusRetest fem agrees => Sys2Proof.Machine.execRffeBusRetest fem agrees s
  | .presencePoll fem failed => Sys2Proof.Machine.execPresencePoll fem failed s
  | .rffeCommandDone fem data parityOk => Sys2Proof.Machine.execRffeCommandDone fem data parityOk s
  | .rffeQueueTimeout fem => Sys2Proof.Machine.execRffeQueueTimeout fem s
  | .rffeMailboxGo fem value => Sys2Proof.Machine.execRffeMailboxGo fem value s
  | .manualStrobeWrite fem level => Sys2Proof.Machine.execManualStrobeWrite fem level s
  | .grantChange pair level => Sys2Proof.Machine.execGrantChange pair level s
  | .grantTimeout pair => Sys2Proof.Machine.execGrantTimeout pair s
  | .coexRequestChange pair level => Sys2Proof.Machine.execCoexRequestChange pair level s
  | .blankAssert blank => Sys2Proof.Machine.execBlankAssert blank s
  | .blankRelease blank => Sys2Proof.Machine.execBlankRelease blank s
  | .blankStuck blank => Sys2Proof.Machine.execBlankStuck blank s
  | .sliceSet d => Sys2Proof.Machine.execSliceSet d s
  | .pendingSetLive slice => Sys2Proof.Machine.execPendingSetLive slice s
  | .sliceRestartStart slice => Sys2Proof.Machine.execSliceRestartStart slice s
  | .sliceRestartDone slice => Sys2Proof.Machine.execSliceRestartDone slice s
  | .sliceGain d => Sys2Proof.Machine.execSliceGain d s
  | .sliceMute d => Sys2Proof.Machine.execSliceMute d s
  | .sliceDelete d => Sys2Proof.Machine.execSliceDelete d s
  | .sliceDeleteDone slice => Sys2Proof.Machine.execSliceDeleteDone slice s
  | .meterWindowEnd slice path => Sys2Proof.Machine.execMeterWindowEnd slice path s
  | .capture d => Sys2Proof.Machine.execCapture d s
  | .captureBlock ring => Sys2Proof.Machine.execCaptureBlock ring s
  | .captureEnd ring => Sys2Proof.Machine.execCaptureEnd ring s
  | .cancelCtl d => Sys2Proof.Machine.execCancelCtl d s
  | .cancelWindowEnd slice path => Sys2Proof.Machine.execCancelWindowEnd slice path s
  | .squallWindowEnd slice path => Sys2Proof.Machine.execSquallWindowEnd slice path s
  | .overdriveInterval rx => Sys2Proof.Machine.execOverdriveInterval rx s
  | .noiseIntervalEnd slice => Sys2Proof.Machine.execNoiseIntervalEnd slice s
  | .emissionVisitEnd tx bins => Sys2Proof.Machine.execEmissionVisitEnd tx bins s
  | .donorLossTimeout ref => Sys2Proof.Machine.execDonorLossTimeout ref s
  | .donorRecover ref => Sys2Proof.Machine.execDonorRecover ref s
  | .trimHoldExpiry slice path kind => Sys2Proof.Machine.execTrimHoldExpiry slice path kind s
  | .trimReleaseStep slice path kind => Sys2Proof.Machine.execTrimReleaseStep slice path kind s
  | .protectHalt d => Sys2Proof.Machine.execProtectHalt d s
  | .protectClear d => Sys2Proof.Machine.execProtectClear d s
  | .loopTick parity => Sys2Proof.Machine.execLoopTick parity s
  | .loopWrite d => Sys2Proof.Machine.execLoopWrite d s
  | .loopSwap d => Sys2Proof.Machine.execLoopSwap d s
  | .loopSetpoint d => Sys2Proof.Machine.execLoopSetpoint d s
  | .traceArm d => Sys2Proof.Machine.execTraceArm d s
  | .monSeqSet d => Sys2Proof.Machine.execMonSeqSet d s
  | .passTrigger conv => Sys2Proof.Machine.execPassTrigger conv s
  | .passComplete conv averages => Sys2Proof.Machine.execPassComplete conv averages s
  | .monInject d => Sys2Proof.Machine.execMonInject d s
  | .injectionComplete conv timeout stamp average => Sys2Proof.Machine.execInjectionComplete conv timeout stamp average s
  | .monCal d => Sys2Proof.Machine.execMonCal d s
  | .calMeasurementDone conv average => Sys2Proof.Machine.execCalMeasurementDone conv average s
  | .refReady conv => Sys2Proof.Machine.execRefReady conv s
  | .comparatorTrip input high => Sys2Proof.Machine.execComparatorTrip input high s
  | .comparatorRelease input => Sys2Proof.Machine.execComparatorRelease input s
  | .openCheck conv input difference => Sys2Proof.Machine.execOpenCheck conv input difference s
  | .referenceCheck conv code => Sys2Proof.Machine.execReferenceCheck conv code s
  | .madcSelftestDone conv pass => Sys2Proof.Machine.execMadcSelftestDone conv pass s
  | .laneCtl d => Sys2Proof.Machine.execLaneCtl d s
  | .laneUp lane inverted => Sys2Proof.Machine.execLaneUp lane inverted s
  | .laneTrainTimeout lane => Sys2Proof.Machine.execLaneTrainTimeout lane s
  | .laneFail lane reason => Sys2Proof.Machine.execLaneFail lane reason s
  | .laneDegraded lane => Sys2Proof.Machine.execLaneDegraded lane s
  | .laneSelftestDone lane pass => Sys2Proof.Machine.execLaneSelftestDone lane pass s
  | .laneSpareReady lane => Sys2Proof.Machine.execLaneSpareReady lane s
  | .frameHeader lane offset words fec => Sys2Proof.Machine.execFrameHeader lane offset words fec s
  | .tickSend => Sys2Proof.Machine.execTickSend s
  | .segmentReceive lane descriptor bytes => Sys2Proof.Machine.execSegmentReceive lane descriptor bytes s
  | .blockPlayout stream number => Sys2Proof.Machine.execBlockPlayout stream number s
  | .linkMap d => Sys2Proof.Machine.execLinkMap d s
  | .linkMapEffect => Sys2Proof.Machine.execLinkMapEffect s
  | .placePin d => Sys2Proof.Machine.execPlacePin d s
  | .placeForbid d => Sys2Proof.Machine.execPlaceForbid d s
  | .placeRebalance d => Sys2Proof.Machine.execPlaceRebalance d s
  | .moveStart => Sys2Proof.Machine.execMoveStart s
  | .shadowStart slot => Sys2Proof.Machine.execShadowStart slot s
  | .moveCutover slot => Sys2Proof.Machine.execMoveCutover slot s
  | .moveAbandon slot matched => Sys2Proof.Machine.execMoveAbandon slot matched s
  | .bufferCopyDone slice path delay feed => Sys2Proof.Machine.execBufferCopyDone slice path delay feed s
  | .unitSelftestDone unit pass => Sys2Proof.Machine.execUnitSelftestDone unit pass s
  | .spreadDeclared => Sys2Proof.Machine.execSpreadDeclared s
  | .rebalancePass => Sys2Proof.Machine.execRebalancePass s
  | .smemReadError location reader error => Sys2Proof.Machine.execSmemReadError location reader error s
  | .scrubPassEnd => Sys2Proof.Machine.execScrubPassEnd s
  | .memRetire d => Sys2Proof.Machine.execMemRetire d s
  | .collectionCycle bad => Sys2Proof.Machine.execCollectionCycle bad s
  | .dumpAssembled => Sys2Proof.Machine.execDumpAssembled s
  | .dumpWritten ok => Sys2Proof.Machine.execDumpWritten ok s
  | .faultInject d => Sys2Proof.Machine.execFaultInject d s
  | .injectionFire source => Sys2Proof.Machine.execInjectionFire source s
  | .injectionHoldEnd source => Sys2Proof.Machine.execInjectionHoldEnd source s
  | .selftest d => Sys2Proof.Machine.execSelftest d s
  | .faultClear d => Sys2Proof.Machine.execFaultClear d s
  | .dumpRegister d => Sys2Proof.Machine.execDumpRegister d s
  | .recordPublish => Sys2Proof.Machine.execRecordPublish s
  | .recordMirror => Sys2Proof.Machine.execRecordMirror s
  | .counterCfg d => Sys2Proof.Machine.execCounterCfg d s
  | .counterWrap counter amount => Sys2Proof.Machine.execCounterWrap counter amount s
  | .counterSnapshot d => Sys2Proof.Machine.execCounterSnapshot d s
  | .snapshotCapture periodic ok => Sys2Proof.Machine.execSnapshotCapture periodic ok s
  | .thermalSample samples bad => Sys2Proof.Machine.execThermalSample samples bad s
  | .thresholdDeclared zone threshold => Sys2Proof.Machine.execThresholdDeclared zone threshold s
  | .thresholdCleared zone threshold => Sys2Proof.Machine.execThresholdCleared zone threshold s
  | .thawEnd => Sys2Proof.Machine.execThawEnd s
  | .overcastStep => Sys2Proof.Machine.execOvercastStep s
  | .criticalDeclared zone => Sys2Proof.Machine.execCriticalDeclared zone s
  | .thermalHaltEnd => Sys2Proof.Machine.execThermalHaltEnd s
  | .ledgerSecond => Sys2Proof.Machine.execLedgerSecond s
  | .ledgerPersist => Sys2Proof.Machine.execLedgerPersist s
  | .fwActivate d proof => Sys2Proof.Machine.execFwActivate d proof s
  | .supervisorRestartDone fin => Sys2Proof.Machine.execSupervisorRestartDone fin s
  | .fwWindowExpiry => Sys2Proof.Machine.execFwWindowExpiry s
  | .halt inst => Sys2Proof.Machine.execHalt inst s
  | .release inst => Sys2Proof.Machine.execRelease inst s
  | .warmReset inst payload => Sys2Proof.Machine.execWarmReset inst payload s
  | .faultRead inst selector => Sys2Proof.Machine.execFaultRead inst selector s
  | .cfgInfo inst => Sys2Proof.Machine.execCfgInfo inst s
  | .dumpRead inst offset length => Sys2Proof.Machine.execDumpRead inst offset length s
  | .fwWrite inst offset bytes => Sys2Proof.Machine.execFwWrite inst offset bytes s
  | .fwFinish inst proof => Sys2Proof.Machine.execFwFinish inst proof s
  | .ownerKey inst change sigOk => Sys2Proof.Machine.execOwnerKey inst change sigOk s
  | .debugChallenge inst => Sys2Proof.Machine.execDebugChallenge inst s
  | .debugUnlock inst level sigOk => Sys2Proof.Machine.execDebugUnlock inst level sigOk s
  | .nonceExpiry => Sys2Proof.Machine.execNonceExpiry s
  | .setEndpointId eid => Sys2Proof.Machine.execSetEndpointId eid s
  | .getEndpointId => Sys2Proof.Machine.execGetEndpointId s
  | .getMctpVersionSupport => Sys2Proof.Machine.execGetMctpVersionSupport s
  | .getMessageTypeSupport => Sys2Proof.Machine.execGetMessageTypeSupport s
  | .getVendorDefinedMessageSupport => Sys2Proof.Machine.execGetVendorDefinedMessageSupport s
  | .mctpPecDrop => Sys2Proof.Machine.execMctpPecDrop s
  | .smbusTimeout => Sys2Proof.Machine.execSmbusTimeout s
  | .gettid => Sys2Proof.Machine.execGettid s
  | .getpldmversion => Sys2Proof.Machine.execGetpldmversion s
  | .getpldmtypes => Sys2Proof.Machine.execGetpldmtypes s
  | .getpldmcommands type => Sys2Proof.Machine.execGetpldmcommands type s
  | .getpdrrepositoryinfo => Sys2Proof.Machine.execGetpdrrepositoryinfo s
  | .getpdr record => Sys2Proof.Machine.execGetpdr record s
  | .getsensorreading sensor => Sys2Proof.Machine.execGetsensorreading sensor s
  | .getstatesensorreadings sensor => Sys2Proof.Machine.execGetstatesensorreadings sensor s
  | .getVersion transport => Sys2Proof.Machine.execGetVersion transport s
  | .getCapabilities transport => Sys2Proof.Machine.execGetCapabilities transport s
  | .negotiateAlgorithms transport offered => Sys2Proof.Machine.execNegotiateAlgorithms transport offered s
  | .getDigests transport => Sys2Proof.Machine.execGetDigests transport s
  | .getCertificate transport slot offset length => Sys2Proof.Machine.execGetCertificate transport slot offset length s
  | .challenge transport slot => Sys2Proof.Machine.execChallenge transport slot s
  | .getMeasurements transport index signed => Sys2Proof.Machine.execGetMeasurements transport index signed s
  | .spdmUnsupportedRequest transport => Sys2Proof.Machine.execSpdmUnsupportedRequest transport s
  | .pcieLinkDown => Sys2Proof.Machine.execPcieLinkDown s
  | .aerError fn correctable => Sys2Proof.Machine.execAerError fn correctable s
  | .pllLockLost => Sys2Proof.Machine.execPllLockLost s
  | .doeDiscovery => Sys2Proof.Machine.execDoeDiscovery s
  | .jtagInstruction instruction => Sys2Proof.Machine.execJtagInstruction instruction s
  | .flashWriteDone ok => Sys2Proof.Machine.execFlashWriteDone ok s
  | .spreadCleared => Sys2Proof.Machine.execSpreadCleared s
  | .sliceSampleBoundary slice path wrong => Sys2Proof.Machine.execSliceSampleBoundary slice path wrong s
  | .synthCalDone tile => Sys2Proof.Machine.execSynthCalDone tile s
  | .unsupportedRequest fn => Sys2Proof.Machine.execUnsupportedRequest fn s

end Sys2Proof.Machine
end

