-- ==== Sys2Proof/Machine/Tick.lean ====
section
/-! DEFINITION. One fabric cycle, which passes while no command waits: time, the counter clock, and what the parts do by themselves at once (R25, R370,
R608 to R611, R654). -/
namespace Sys2Proof.Machine
open Sys2Proof

/-- Words queued for the present tick on a lane, of the segments that will take it (R414, R609). -/
def queuedWords (l : Fin 64) (s : State) : Nat :=
  (tickSegments s.lnk.toSend).foldl (fun t x => match x.head? with
    | some b => if feedLane b.stream b.feed s = some l then t + (segmentBytes x).length / 8 + 1 else t
    | none => t) 0

/-- The value that a level event presents for a unit, or, for DEVICE, the sum over the units of its class (R609). -/
def levelOf (event unit : Nat) (s : State) : Nat :=
  if event = 0x0200 then
    let l := carried s
    match targetOf .engine 64 unit with
    | some e => loadOf l e
    | none => (indices 64).foldl (fun t e => t + loadOf l e) 0
  else if event = 0x0303 then
    match targetOf .lane 64 unit with
    | some l => queuedWords l s
    | none => (indices 64).foldl (fun t l => t + queuedWords l s) 0
  else if event = 0x0502 then sumOf s.hif.rings (·.inFlight)
  else s.evr.staging.length

/-- Is the unit of a level event retired, so that the counter counts nothing (R615)? -/
def levelRetired (event unit : Nat) (s : State) : Bool :=
  if event = 0x0200 then (targetOf .engine 64 unit).any fun e => (s.plc.engine[e]).state == .retired
  else event == 0x0303 && (targetOf .lane 64 unit).any fun l => (s.lnk.lane[l]).state == .retired

/-- A counter at a counter clock (R609, R610, R615): FABRIC_CYCLES adds one, and a level event its mode's amount. -/
def clockCounter (s : State) (c : Counter) : Counter :=
  if !c.enable || levelRetired c.event c.unit s then c
  else if c.event = 0x0001 then addTo 1 c
  else match counterEvent c.event with
    | some (.level, _) => levelTick (levelOf c.event c.unit s) c
    | _ => c

/-- All counters at a counter clock. -/
def clockCounters (s : State) : State := onPmc (fun p => { p with cnt := p.cnt.map (clockCounter s) }) s

/-- The quarter-nanoseconds of a fabric cycle: 0.8 ns is 3.2 of them, so that five cycles take 16 (R370). -/
def cycleQuarters (phase : Fin 5) : Nat := if phase = 4 then 4 else 3

/-- Does station time run: not before the REFCLK of the first boot is qualified (R104 step 3, R682)? -/
def timeRuns (s : State) : Bool := s.boot.stage != .reset

/-- The boot ROM verifies the firmware next (R104 step 6), and the firmware that runs the configuration image (R104 step 8, R119). -/
def bootOn (s : State) : State :=
  if s.boot.heldBy ≠ .nothing then s
  else if s.boot.stage = .rom then onBoot (fun b => { b with stage := .fwVerify }) s
  else if s.boot.stage = .fwRun then onBoot (fun b => { b with stage := .cfgLoad }) s
  else s

/-- Indices that wait for their write-back go out once 250 ns have passed (R93). -/
def writeIndices (s : State) : State :=
  (indices 64).foldl (fun s r =>
    let x := s.hif.rings[r]
    if x.wbDue && mayWriteBack x s then sendIndices r s else s) s

/-- One fabric cycle. Station time's seconds field never wraps (R692): at its end the machine stops. -/
def tick (s : State) : Host.Outcome State Fault Refusal :=
  if !timeRuns s then .next s
  else
    let dq := cycleQuarters s.time.phase
    if 2 ^ 48 * qSecond ≤ s.time.q + dq then .fault .timeExhausted
    else
      let s := onTime (fun t => { t with phase := t.phase + 1 }) (elapse dq s)
      .next (startRestart (bootOn (writeIndices (clockCounters (reportWrong (calm (passStates s)))))))

end Sys2Proof.Machine
end

