-- ==== Sys2Proof/Machine/Idle.lean ====
section
/-! DEFINITION. What the block does while no command waits in its queue: a command that a fence holds starts once it may (R66), or else one fabric cycle
passes. -/
namespace Sys2Proof.Machine
open Sys2Proof

/-- May a held command start: no earlier command of its ring is held, so that a ring's commands start in ring order (R72), and, with its own
fence, none has started and not completed (R66)? -/
def mayRelease (earlier : List (RingId × Bool × Instr)) (h : RingId × Bool × Instr) (s : State) : Bool :=
  !(earlier.any fun e => e.1 == h.1) && (!h.2.1 || (s.hif.rings[h.1]).started == 0)

/-- The first held command that may start, with those before and those after it. -/
def releasable (before rest : List (RingId × Bool × Instr)) (s : State) :
    Option (List (RingId × Bool × Instr) × (RingId × Bool × Instr) × List (RingId × Bool × Instr)) :=
  match rest with
  | [] => none
  | h :: t => if mayRelease before h s then some (before, h, t) else releasable (before ++ [h]) t s

/-- A held command leaves the commands that wait; starting it counts it in flight again. -/
def leaveHeld (r : RingId) (s : State) : State := onRing r (fun x => { x with inFlight := x.inFlight - 1 }) { s with held := [] }

/-- A held command runs. The commands that stay held wait beside it, so that none of them holds it again. -/
def runHeld (rest : List (RingId × Bool × Instr)) (r : RingId) (c : Instr) (s : State) : Host.Outcome State Fault Refusal :=
  match exec c (leaveHeld r s) with
  | .next t => .next { t with held := t.held ++ rest }
  | .fault r => .fault r
  | .refused r => .refused r

/-- An empty queue. -/
def idle (s : State) : Host.Outcome State Fault Refusal :=
  match releasable [] s.held s with
  | some (before, h, rest) => runHeld (before ++ rest) h.1 h.2.2 s
  | none => tick s

end Sys2Proof.Machine
end

