-- ==== Sys2Proof/Machine/HostBytes.lean ====
section
/-! DEFINITION. What the block writes to host memory, as bytes at an address: little-endian throughout (R3). -/
namespace Sys2Proof.Machine
open Sys2Proof

/-- The 16 bytes of a completion (R56). -/
def completionBytes (tag : Half) (status : Status) (phase : Bool) (seqLo stamp : Nat) : List Byte :=
  toBytes 2 tag.toNat ++ toBytes 1 (statusCode status) ++ toBytes 1 (bit phase) ++ toBytes 4 seqLo ++ toBytes 8 stamp

/-- The 16 bytes of a marker completion (R59). -/
def markerBytes (phase : Bool) (seqHi epoch : Nat) : List Byte :=
  toBytes 2 0 ++ toBytes 1 (statusCode .ok) ++ toBytes 1 (bit phase + 2) ++ toBytes 4 seqHi ++ toBytes 2 epoch ++ toBytes 6 0

/-- A capture block (R81): what lies behind the valid containers is zero (DESIGN CHOICE). -/
def captureBytes (sequence stamp epoch slice flags dropped : Nat) (samples : List Container) : List Byte :=
  toBytes 8 sequence ++ toBytes 8 stamp ++ toBytes 2 epoch ++ toBytes 2 slice ++ toBytes 2 samples.length ++ toBytes 2 flags ++ toBytes 4 dropped ++
    toBytes 36 0 ++ (samples.take 1008).flatMap (fun c => toBytes 4 (containerWord c)) ++ List.replicate (4 * (1008 - samples.length)) 0

/-- A counter snapshot (R619). -/
def snapshotBytes (sequence stamp epoch flags index : Nat) (words : List Nat) : List Byte :=
  toBytes 8 sequence ++ toBytes 8 stamp ++ toBytes 2 epoch ++ toBytes 2 flags ++ toBytes 4 index ++ toBytes 40 0 ++ words.flatMap (toBytes 8)

/-- The address and the bytes of a write to host memory; none for anything else that the block sends. -/
def hostBytes : Out → Option (Nat × List Byte)
  | .completion _ a tag status phase seqLo stamp => some (a, completionBytes tag status phase seqLo stamp)
  | .marker _ a phase seqHi epoch => some (a, markerBytes phase seqHi epoch)
  | .writeBack _ a ci pi => some (a, toBytes 4 ci ++ toBytes 4 pi)
  | .eventWriteBack a offset => some (a, toBytes 8 offset)
  | .captureWriteBack _ a index => some (a, toBytes 8 index)
  | .mirrored a r => some (a, r.bytes)
  | .padding a n => some (a, paddingBytes n)
  | .captureBlock _ a sequence stamp epoch slice flags dropped samples =>
    some (a, captureBytes sequence stamp epoch slice flags dropped samples)
  | .snapshot a sequence stamp epoch flags index words => some (a, snapshotBytes sequence stamp epoch flags index words)
  | .dump a d => some (a, dumpBytes d)
  | .hostWrite a bytes => some (a, bytes.map (BitVec.ofNat 8))
  | _ => none

end Sys2Proof.Machine
end

