-- ==== Sys2Proof/Safety.lean ====
section
/-! DEFINITION. What a statement calls safe, and the conditions under which a command runs. -/
namespace Sys2Proof.Machine
open Sys2Proof

/-! ### What no step may undo -/

/-- The fuses of an owner key slot only grow (R646): what is programmed stays programmed with its hash, and what is revoked stays revoked. -/
def fusesGrow (a b : OwnerSlot) : Prop :=
  a.programmed = true → b.programmed = true ∧ b.hash = a.hash ∧ (a.revoked = true → b.revoked = true)

/-- One-time-programmable memory only grows (R646, R651): min_svn never falls, and no owner key slot loses a fuse. -/
def otpGrows (a b : Security) : Prop :=
  a.minSvn ≤ b.minSvn ∧ ∀ i : Fin 4, fusesGrow a.owner[i] b.owner[i]

/-- RING_0 belongs to PF0 (R49). -/
def ringZeroIsPf0 (h : Hif) : Prop := (h.rings[(0 : Fin 64)]).owner = 0

/-! ### What a command does -/

/-- The command answers a next state, and `P` holds of it. -/
def Does (c : Instr) (s : State) (P : State → Prop) : Prop := ∃ t, exec c s = .next t ∧ P t

/-- A BAR request of a function has its effect (R45): PERST_L is high, and the function exists with its BARs assigned and its Memory Space Enable
set. -/
abbrev BarOpen (fn : Fn) (s : State) : Prop :=
  s.hif.perstLow = false ∧ fnExists fn s = true ∧ barsAssigned fn s = true ∧ (s.hif.fns[fn]).memSpace = true

/-- Nothing changes but the host interface, the recorder, the counters, the collector and what was sent out: what answering a command and
reporting an error may touch. -/
def restKept (s t : State) : Prop :=
  t = { s with hif := t.hif, evr := t.evr, pmc := t.pmc, flt := t.flt, out := t.out }

/-- Every radio rests: each port is at its target and answers no request, and no tile is on its way up from Sleep (R197, R199). -/
abbrev RadiosRest (s : State) : Prop :=
  (∀ m : Fin 32, (s.tiles.rx[m]).radio.state = (s.tiles.rx[m]).radio.target ∧ (s.tiles.rx[m]).radio.issue = none ∧
    (s.tiles.tx[m]).radio.state = (s.tiles.tx[m]).radio.target ∧ (s.tiles.tx[m]).radio.issue = none) ∧
  (∀ t : Fin 4, (s.tiles.tile[t]).state = .sleep → tileNeed t s ≠ .synthOn)

/-! ### When a host command runs -/

/-- A host command starts at once and passes steps 1 to 3 of R71: no fence holds it (R66), and no shared check refuses it. -/
abbrev Runs (op : Nat) (d : Desc) (s : State) : Prop :=
  mustHold d (s.held.any fun h => h.1 == d.ring) s = false ∧
  preCheck op (issueOf op d s).fn d (startCommand d s) = none

/-- The management port answers (R660): power is good and boot has reached step 4. -/
abbrev PortOpen (s : State) : Prop := portAnswers s = true

end Sys2Proof.Machine
end

