-- ==== Sys2Proof/Certificates/Slice0/Obligations.lean ====
section
/-! DEFINITION. The statements for the provers, one definition each. -/
open Sys2Proof Sys2Proof.Machine

/-- O1. For every command and every state, a step with that command at the front of the queue is the command run on the state whose queue is the rest,
and it answers a next state, unless the command is a scan or debug instruction on the JTAG port at debug level 2. Rests on 95_what_each_step_holds.md.
-/
def Obligations.StepRunsTheFront : Prop :=
  (∀ (c : Instr) (rest : List Instr) (s : State),
    step { s with pending := c :: rest } = exec c { s with pending := rest }) ∧
  (∀ (c : Instr) (rest : List Instr) (s : State), c ≠ .jtagInstruction .inner ∨ s.sec.debug ≠ 2 →
    ∃ t, step { s with pending := c :: rest } = .next t)

/-- O2. The model gives a fabric cycle no command (its own choice, log entry 2). With an empty queue, no held command that may start, boot past RESET
and every radio at rest at its target, before the end of the 48-bit seconds field, a step passes one fabric cycle: three quarter-nanoseconds, and in
every fifth cycle four, on station time and on the monotonic count alike; the slices, the cancellers, the configuration, the recorder, the placement,
the sample memory, the flash, the links, the control engine, the owner keys and min_svn stay as they are, and of the host interface nothing but the
ring pairs and what is sent out may change. At the end of the seconds field the step stops with the fault timeExhausted. In stage RESET nothing
changes. With an empty queue and an oldest held command that carries no fence, the step starts that command, with every other held command left held;
so it does with one that carries a fence when no command of its ring has started and not completed. Rests on R25, R66, R370, R692. -/
def Obligations.EmptyQueueIdles : Prop :=
  (∀ s : State, s.pending = [] → releasable [] s.held s = none → s.boot.stage ≠ .reset → RadiosRest s →
    s.time.q + 4 < 2 ^ 48 * qSecond →
    ∃ t, step s = .next t ∧
      t.time.q = s.time.q + (if s.time.phase = 4 then 4 else 3) ∧ t.time.mono = s.time.mono + (if s.time.phase = 4 then 4 else 3) ∧
      t.time.phase = s.time.phase + 1 ∧ t.slices = s.slices ∧ t.can = s.can ∧ t.cfg = s.cfg ∧ t.evr = s.evr ∧ t.plc = s.plc ∧ t.mem = s.mem ∧
      t.flash = s.flash ∧ t.lnk = s.lnk ∧ t.cen = s.cen ∧ t.sec.owner = s.sec.owner ∧ t.sec.minSvn = s.sec.minSvn ∧
      t.hif = { s.hif with rings := t.hif.rings }) ∧
  (∀ s : State, s.pending = [] → releasable [] s.held s = none → s.boot.stage = .reset → step s = .next s) ∧
  (∀ (s t : State) (r : RingId) (c : Instr) (rest : List (RingId × Bool × Instr)),
    s.pending = [] → s.held = (r, false, c) :: rest → exec c (leaveHeld r s) = .next t →
    step s = .next { t with held := t.held ++ rest }) ∧
  (∀ (s t : State) (r : RingId) (c : Instr) (rest : List (RingId × Bool × Instr)),
    s.pending = [] → s.held = (r, true, c) :: rest → (s.hif.rings[r]).started = 0 → exec c (leaveHeld r s) = .next t →
    step s = .next { t with held := t.held ++ rest }) ∧
  (∀ s : State, s.pending = [] → releasable [] s.held s = none → s.boot.stage ≠ .reset → 2 ^ 48 * qSecond ≤ s.time.q + 3 →
    step s = .fault .timeExhausted)

/-- O3. At reset the queue is empty, the boot stage is RESET with the power-on cause alone, every ring pair is Disabled, belongs to PF0 and has its
four indices zero and its phase set, VF Enable and NumVFs are clear, station time is UNALIGNED at zero, every port and tile is in Sleep, every slice
index is EMPTY with no live set, no slot is ACTIVE, and the sequence counter is zero. Rests on R93, R95, R118, R119. -/
def Obligations.ResetState : Prop :=
  State.reset.pending = [] ∧ State.reset.held = [] ∧
  State.reset.boot.stage = .reset ∧ State.reset.boot.cause = 1 ∧
  (∀ r : RingId, (State.reset.hif.rings[r]).state = .disabled ∧ (State.reset.hif.rings[r]).owner = 0 ∧
    (State.reset.hif.rings[r]).cmdPI = 0 ∧ (State.reset.hif.rings[r]).cmdCI = 0 ∧
    (State.reset.hif.rings[r]).cplPI = 0 ∧ (State.reset.hif.rings[r]).cplCI = 0 ∧ (State.reset.hif.rings[r]).phase = true) ∧
  State.reset.hif.vfEnable = false ∧ State.reset.hif.numVFs = 0 ∧
  State.reset.time.q = 0 ∧ State.reset.time.state = .unaligned ∧
  (∀ p : Fin 32, (State.reset.tiles.rx[p]).radio.state = .sleep ∧ (State.reset.tiles.tx[p]).radio.state = .sleep) ∧
  (∀ t : Fin 4, (State.reset.tiles.tile[t]).state = .sleep) ∧
  (∀ i : Fin 256, (State.reset.slices.slice[i]).state = .empty ∧ (State.reset.slices.slice[i]).live = none) ∧
  State.reset.cfg.active = none ∧ State.reset.evr.seqNext = 0

/-- O4. At reset RING_0 belongs to PF0, and one-time-programmable memory grows from what it holds at reset. That it then holds min_svn 0 and no
programmed owner key is the model's choice (log entry 5). Rests on R49, R646. -/
def Obligations.InvariantsHoldAtReset : Prop :=
  ringZeroIsPf0 State.reset.hif ∧ otpGrows State.reset.sec State.reset.sec ∧ State.reset.sec.minSvn = 0 ∧
  (∀ k : Fin 4, (State.reset.sec.owner[k]).programmed = false)

/-- O5. For every state and whatever command stands at the front of the queue, or none, a step that answers a next state leaves min_svn at least where
it was, keeps every programmed owner key slot programmed with the same hash, and keeps every revoked one revoked: not a reset, not a firmware
activation, not a key change, not a register write undoes one-time-programmable memory. Rests on R646, R651, R664. -/
def Obligations.OtpNeverShrinks : Prop :=
  ∀ s t : State, step s = .next t → otpGrows s.sec t.sec

/-- O6. For every state in which RING_0 belongs to PF0, a step that answers a next state leaves it with PF0: neither a write of the owner register nor
a reset of any kind nor a change of SR-IOV moves it. Rests on R49, R93, R95. -/
def Obligations.RingZeroStaysWithPf0 : Prop :=
  ∀ s t : State, ringZeroIsPf0 s.hif → step s = .next t → ringZeroIsPf0 t.hif

/-- O7. POWER_GOOD on a part held by its rails releases it, samples the address straps and REFCLK_SEL, and changes nothing else; on a part that its
rails do not hold it changes nothing. POWER_FAIL holds the part with the power-on cause alone set and puts every block at its reset value, but for
what waits in the queue, what was sent out, the contents of flash and of the firmware slots (a write under way loses its slot), the owner keys and
min_svn of one-time-programmable memory, the straps, the count of nonces, the inputs of the front end, PERST_L and the era of each ring pair, which
goes on by one. SYS_RESET does the same with the system-reset cause added and the straps and REFCLK_SEL sampled anew, and leaves a part held that its
rails hold. A reference within 1,000 ppm of the selected frequency on a released part in stage RESET starts the boot ROM and changes nothing else; one
outside changes nothing. A loss of PLL lock once firmware runs counts one event of error source 310, and changes nothing else but the sources and the
flag that the reference is there. Rests on R94, R118, R646, R673, R675, R681, R682. -/
def Obligations.PowerAndReset : Prop :=
  (∀ (straps : BitVec 2) (sel : Bool) (s : State), s.boot.heldBy = .power → Does (.powerGood straps sel) s fun t =>
    t = { s with boot := { s.boot with powerGood := true, heldBy := .nothing, refclkSel := sel }, sec := { s.sec with addr := straps } }) ∧
  (∀ s : State, Does .powerFail s fun t =>
    t = { State.reset with
      pending := s.pending, out := t.out, free := s.free, flash := flashKept s, fec := pinsKept s.fec false frontEndReset
      hif := { hifReset with perstLow := s.hif.perstLow, rings := t.hif.rings }
      sec := { securityReset with
        owner := s.sec.owner, minSvn := s.sec.minSvn, fw := firmwareKept s, addr := s.sec.addr, nonces := s.sec.nonces }
      boot := { bootReset with heldBy := .power, cause := 1, powerGood := false, refclk := false } } ∧
    (∀ r : RingId, t.hif.rings[r] = { ringReset with era := (s.hif.rings[r]).era + 1 })) ∧
  (∀ (straps : BitVec 2) (sel : Bool) (s : State), Does (.sysReset straps sel) s fun t =>
    t = { State.reset with
      pending := s.pending, out := t.out, free := s.free, flash := flashKept s, fec := pinsKept s.fec false frontEndReset
      hif := { hifReset with perstLow := s.hif.perstLow, rings := t.hif.rings }
      sec := { securityReset with
        owner := s.sec.owner, minSvn := s.sec.minSvn, fw := firmwareKept s, addr := straps, nonces := s.sec.nonces }
      boot := { bootReset with
        heldBy := if s.boot.heldBy = .power then .power else .nothing, cause := s.boot.cause ||| 2
        powerGood := !decide (s.boot.heldBy = .power), refclkSel := sel } } ∧
    (∀ r : RingId, t.hif.rings[r] = { ringReset with era := (s.hif.rings[r]).era + 1 })) ∧
  (∀ (hz : Nat) (s : State), s.boot.powerGood = true → s.boot.heldBy = .nothing → s.boot.stage = .reset → refclkOk s.boot.refclkSel hz = true →
    Does (.refclkQualified hz) s fun t => t = { s with boot := { s.boot with refclk := true, stage := .rom } }) ∧
  (∀ s : State, pastFwRun s = true → Does .pllLockLost s fun t =>
    (t.flt.sources[(310 : Fin 320)]).events = (s.flt.sources[(310 : Fin 320)]).events + 1 ∧ t.boot = { s.boot with refclk := false } ∧
    (∀ i : Fin 320, i ≠ 310 → t.flt.sources[i] = s.flt.sources[i]) ∧
    t = { s with boot := t.boot, flt := { s.flt with sources := t.flt.sources } }) ∧
  (∀ (straps : BitVec 2) (sel : Bool) (s : State), s.boot.heldBy ≠ .power → exec (.powerGood straps sel) s = .next s) ∧
  (∀ (hz : Nat) (s : State), refclkOk s.boot.refclkSel hz = false → exec (.refclkQualified hz) s = .next s)

/-- O8. FW_RUN in stage ROM or FW_VERIFY with a current slot whose image verifies and whose svn is not below min_svn boots that slot: the stage is
FW_RUN, fw_slot names the slot, there is no fallback, that firmware runs, min_svn stays, and the banks outside the skip mask, after a cold reset, are
zeroed. With the current slot unfit and the other one fit it boots the other one and sets the fallback flag; with neither fit it enters RECOVERY, with
security and the host interface as they were. READY in stage FW_RUN or CFG_LOAD, on a part whose flash directory names neither an ACTIVE nor a STAGED
image, ends in NO_CONFIG with no ACTIVE image, source 0 and version 0; with an ACTIVE image that verifies and is confirmed it ends in READY with
source 1 and that image's version. Rests on R104, R105, R106, R107, R108, R119. -/
def Obligations.FirmwareBoot : Prop :=
  (∀ (okA okB : Bool) (maps ledgers : Vector Bool 2) (keys : Vector Bool 4) (skip : BitVec 48) (f : Firmware) (s : State),
    (s.boot.stage = .rom ∨ s.boot.stage = .fwVerify) →
    (if s.flash.boot then bootable okB s.sec.fw[1] s else bootable okA s.sec.fw[0] s) = some f →
    Does (.fwRun okA okB maps ledgers keys skip) s fun t =>
      t.boot.stage = .fwRun ∧ t.boot.fwSlot = s.flash.boot ∧ t.boot.fwFallback = false ∧ t.sec.running = some f ∧ t.sec.slot = s.flash.boot ∧
      t.sec.minSvn = s.sec.minSvn ∧ t.boot.skipped = (if s.boot.cold then skip else BitVec.allOnes 48) ∧
      (∀ b : Fin 48, (t.mem.bank[b]).zeroed = !t.boot.skipped.getLsbD b)) ∧
  (∀ (okA okB : Bool) (maps ledgers : Vector Bool 2) (keys : Vector Bool 4) (skip : BitVec 48) (f : Firmware) (s : State),
    (s.boot.stage = .rom ∨ s.boot.stage = .fwVerify) →
    (if s.flash.boot then bootable okB s.sec.fw[1] s else bootable okA s.sec.fw[0] s) = none →
    (if s.flash.boot then bootable okA s.sec.fw[0] s else bootable okB s.sec.fw[1] s) = some f →
    Does (.fwRun okA okB maps ledgers keys skip) s fun t =>
      t.boot.stage = .fwRun ∧ t.boot.fwSlot = !s.flash.boot ∧ t.boot.fwFallback = true ∧ t.sec.running = some f) ∧
  (∀ (okA okB : Bool) (maps ledgers : Vector Bool 2) (keys : Vector Bool 4) (skip : BitVec 48) (s : State),
    (s.boot.stage = .rom ∨ s.boot.stage = .fwVerify) → bootable okA s.sec.fw[0] s = none → bootable okB s.sec.fw[1] s = none →
    Does (.fwRun okA okB maps ledgers keys skip) s fun t => t.boot.stage = .recovery ∧ t.sec = s.sec ∧ t.hif = s.hif) ∧
  (∀ (verified : Vector Bool 3) (s : State), (s.boot.stage = .fwRun ∨ s.boot.stage = .cfgLoad) →
    (flashDirectory s).active = none → (flashDirectory s).staged = none →
    Does (.ready verified) s fun t => t.boot.stage = .noConfig ∧ t.boot.cfgSource = 0 ∧ t.boot.cfgVersion = 0 ∧ t.cfg.active = none) ∧
  (∀ (verified : Vector Bool 3) (x : Slot) (s : State), (s.boot.stage = .fwRun ∨ s.boot.stage = .cfgLoad) → (loadSlots s).cfg.active = some x →
    bootVerifies verified (loadSlots s) x = true → (loadSlots s).cfg.confirmed = true →
    Does (.ready verified) s fun t => t.boot.stage = .ready ∧ t.boot.cfgSource = 1 ∧ t.boot.cfgVersion = x.image.version)

/-- O9. On a part that nothing holds and whose boot has reached FW_RUN, a write of the key 0x6144, a watchdog expiry outside the fatal state and the
WARM_RESET message with that payload each record their cause and hold the part for a warm reset with the HALT_RESET source set and station time as it
was; the message also sends out its answer OK. A write of another key changes neither the cause nor what holds the part, and counts in
HIF_ACCESS_DROP. The sequence that follows puts the stage to ROM, keeps the cause, keeps station time and the monotonic count, the epoch and the time
state, keeps the owner keys and min_svn, and puts every slice, every canceller and the configuration at reset. Rests on R94, R95, R97, R118, R587,
R662. -/
def Obligations.WarmReset : Prop :=
  (∀ s : State, BarOpen 0 s → mayWarm s = true → Does (.glbResetWarm 0x6144) s fun t =>
    t.boot = { s.boot with heldBy := .warm, cause := s.boot.cause ||| 4 } ∧ t.nps.haltReset = true ∧ t.time = s.time) ∧
  (∀ s : State, s.flt.fatal = false → mayWarm s = true → Does .watchdogExpiry s fun t =>
    t.boot = { s.boot with heldBy := .watchdog, cause := s.boot.cause ||| 16 } ∧ t.nps.haltReset = true ∧ t.time = s.time) ∧
  (∀ (inst : Byte) (s : State), PortOpen s → mayWarm s = true → Does (.warmReset inst 0x6144) s fun t =>
    t.boot = { s.boot with heldBy := .warm, cause := s.boot.cause ||| 8 } ∧ t.nps.haltReset = true ∧ t.time = s.time ∧
    Out.answer { code := 0, data := [vendorId, 0x83, inst.toNat] } ∈ t.out) ∧
  (∀ s : State, s.boot.heldBy = .warm ∨ s.boot.heldBy = .watchdog → Does .warmResetSequence s fun t =>
    t.boot.stage = .rom ∧ t.boot.heldBy = .nothing ∧ t.boot.cause = s.boot.cause ∧ t.boot.cold = false ∧
    t.time.q = s.time.q ∧ t.time.mono = s.time.mono ∧ t.time.epoch = s.time.epoch ∧ t.time.state = s.time.state ∧
    t.slices = slicesReset ∧ t.can = cancelReset ∧ t.cfg = configReset ∧ t.sec.owner = s.sec.owner ∧ t.sec.minSvn = s.sec.minSvn) ∧
  (∀ (key : Half) (s : State), BarOpen 0 s → key ≠ 0x6144 → Does (.glbResetWarm key) s fun t =>
    (t.hif.fns[(0 : Fn)]).accessDrop = min 0xFFFFFFFF ((s.hif.fns[(0 : Fn)]).accessDrop + 1) ∧ t.boot = s.boot ∧ restKept s t)

/-- O10. PERST_ASSERT puts the host interface at reset, with the era of each ring pair going on by one, ends the commands a fence holds, the dump
registration and the periodic snapshot, adds its cause, and changes nothing else; PERST_DEASSERT ends it and changes nothing else. A link that comes
up past boot step 7 while nothing holds the part and PERST_L is high shows its rate and width and changes nothing else; one that goes down without
PERST shows neither and counts an event of source 3. A correctable error is logged and counts on source 1, another on source 2. A function-level reset
of a VF puts its registers and its ring pairs, but for the owner, at reset and discards the commands held on them, and changes no other function, no
other pair and nothing outside the host interface; that of PF0 does so for every function and also ends SR-IOV, the dump registration and the periodic
snapshot. A configuration request to a function that exists, past boot step 7 outside RECOVERY, changes nothing but the host interface, the held
commands, the snapshots and what is sent out: it sets Memory Space Enable, or clears Bus Master Enable, which disables the rings of that function, or
returns the field it reads. Before boot step 7 it is retried. An unsupported request is answered so, and the mailbox names its protocols. Rests on
R39, R41, R43, R45, R91, R93, R95, R99, R109, R565. -/
def Obligations.LinkAndFunctions : Prop :=
  (∀ s : State, Does .perstAssert s fun t =>
    t = { s with
      held := [], boot := { s.boot with cause := s.boot.cause ||| 0x20 }, pmc := { s.pmc with periodic := none }
      flt := { s.flt with dump := { s.flt.dump with registered := none } }, hif := { hifReset with rings := t.hif.rings } } ∧
    (∀ r : RingId, t.hif.rings[r] = { ringReset with era := (s.hif.rings[r]).era + 1 })) ∧
  (∀ s : State, Does .perstDeassert s fun t => t = { s with hif := { s.hif with perstLow := false } }) ∧
  (∀ (rate width : Nat) (s : State), s.hif.perstLow = false → pastFwRun s = true → s.boot.heldBy = .nothing →
    1 ≤ rate → rate ≤ 4 → 1 ≤ width → width ≤ 16 →
    Does (.pcieLinkUp rate width) s fun t => t = { s with hif := { s.hif with linkRate := rate, linkWidth := width } }) ∧
  (∀ s : State, Does .pcieLinkDown s fun t =>
    t.hif = { s.hif with linkRate := 0, linkWidth := 0 } ∧
    (t.flt.sources[(3 : Fin 320)]).events = (s.flt.sources[(3 : Fin 320)]).events + 1 ∧
    t = { s with hif := t.hif, flt := { s.flt with sources := t.flt.sources } }) ∧
  (∀ (fn : Fn) (s : State), Does (.aerError fn true) s fun t =>
    (t.hif.fns[fn]).aerCor = true ∧ (t.flt.sources[(1 : Fin 320)]).events = (s.flt.sources[(1 : Fin 320)]).events + 1 ∧ restKept s t) ∧
  (∀ (fn : Fn) (s : State), Does (.aerError fn false) s fun t =>
    (t.hif.fns[fn]).aerUncor = true ∧ (t.flt.sources[(2 : Fin 320)]).events = (s.flt.sources[(2 : Fin 320)]).events + 1 ∧ restKept s t) ∧
  (∀ (fn : Fn) (s : State), fn ≠ 0 → Does (.flr fn) s fun t =>
    t.hif.fns[fn] = funcReset ∧ (∀ f : Fn, f ≠ fn → t.hif.fns[f] = s.hif.fns[f]) ∧ (∀ h ∈ t.held, (s.hif.rings[h.1]).owner ≠ fn) ∧
    (∀ r : RingId, (s.hif.rings[r]).owner = fn → t.hif.rings[r] = { ringReset with owner := fn, era := (s.hif.rings[r]).era + 1 }) ∧
    (∀ r : RingId, (s.hif.rings[r]).owner ≠ fn → t.hif.rings[r] = s.hif.rings[r]) ∧
    t = { s with held := t.held, hif := { s.hif with fns := t.hif.fns, rings := t.hif.rings, caps := t.hif.caps } }) ∧
  (∀ s : State, Does (.flr 0) s fun t =>
    t.hif.vfEnable = false ∧ t.hif.numVFs = 0 ∧ (∀ f : Fn, t.hif.fns[f] = funcReset) ∧ t.held = [] ∧
    (∀ r : RingId, t.hif.rings[r] = { ringReset with owner := (s.hif.rings[r]).owner, era := (s.hif.rings[r]).era + 1 }) ∧
    t.hif.evr = eventRingReset ∧
    t = { s with
      held := [], hif := t.hif, pmc := { s.pmc with periodic := none }
      flt := { s.flt with dump := { s.flt.dump with registered := none } } }) ∧
  (∀ (fn : Fn) (on : Bool) (s : State), s.hif.perstLow = false → pastFwRun s = true → s.boot.stage ≠ .recovery → fnExists fn s = true →
    Does (.pcieConfigRequest fn (.memSpace on)) s fun t =>
      (t.hif.fns[fn]).memSpace = on ∧ t = { s with hif := { s.hif with fns := t.hif.fns } }) ∧
  (∀ (fn : Fn) (s : State), s.hif.perstLow = false → pastFwRun s = true → s.boot.stage ≠ .recovery → fnExists fn s = true →
    Does (.pcieConfigRequest fn (.busMaster false)) s fun t =>
      (t.hif.fns[fn]).busMaster = false ∧
      (∀ r : RingId, (s.hif.rings[r]).owner = fn → (t.hif.rings[r]).state = .disabled ∧ (t.hif.rings[r]).enable = false) ∧
      (∀ r : RingId, (s.hif.rings[r]).owner ≠ fn → t.hif.rings[r] = s.hif.rings[r])) ∧
  (∀ (fn : Fn) (change : CfgChange) (s : State), s.hif.perstLow = false → pastFwRun s = false →
    Does (.pcieConfigRequest fn change) s fun t => t = { s with out := .retry :: s.out }) ∧
  (∀ (fn : Fn) (s : State), s.hif.perstLow = false → Does (.unsupportedRequest fn) s fun t => t = { s with out := .unsupported fn :: s.out }) ∧
  (∀ s : State, Does .doeDiscovery s fun t => t = { s with out := .answer { code := 0, data := [0, 1] } :: s.out }) ∧
  (∀ (fn : Fn) (what : CfgField) (s : State), s.hif.perstLow = false → pastFwRun s = true → s.boot.stage ≠ .recovery → fnExists fn s = true →
    Does (.pcieConfigRequest fn (.read what)) s fun t => t = { s with out := .readData fn (configValue fn what s) :: s.out }) ∧
  (∀ (fn : Fn) (change : CfgChange) (s : State), s.hif.perstLow = false → pastFwRun s = true → s.boot.stage ≠ .recovery → fnExists fn s = true →
    Does (.pcieConfigRequest fn change) s fun t => t = { s with held := t.held, hif := t.hif, pmc := t.pmc, out := t.out })

/-- O11. A write of a 4-byte aligned register word has the effect of its field, and a 64-bit write of a 64-bit register is the writes of its two words
in ascending order; a write of 1 to a bit of GLB_RESET_CAUSE clears that cause and changes nothing else. A read of the lowest word of a 256-bit
register keeps all its bits for the reading function and returns those of that word; a read of another of its words then returns the bits that were
kept, and changes nothing. A read of a doorbell page returns 0 and changes nothing. An access that is not permitted changes no register of the
function but HIF_ACCESS_DROP, which counts it and saturates, and counts an event of source 5; a read then returns 0. Rests on R5, R7, R45, R118, R371.
-/
def Obligations.RegisterAccess : Prop :=
  (∀ (fn : Fn) (offset value : Nat) (s : State), BarOpen fn s → accessOk fn offset 4 = true →
    exec (.registerWrite fn offset 4 value) s = .next (writeWord fn offset (value % 2 ^ 32) s)) ∧
  (∀ (fn : Fn) (offset value : Nat) (s : State), BarOpen fn s → accessOk fn offset 8 = true →
    exec (.registerWrite fn offset 8 value) s =
      .next (writeWord fn (offset + 4) (value % 2 ^ 64 / 2 ^ 32) (writeWord fn offset (value % 2 ^ 32) s))) ∧
  (∀ (value : Nat) (s : State), BarOpen 0 s → Does (.registerWrite 0 0x10 4 value) s fun t =>
    t = { s with boot := { s.boot with cause := s.boot.cause &&& ~~~BitVec.ofNat 10 (value % 2 ^ 32) } }) ∧
  (∀ (offset size v : Nat) (s : State), BarOpen 0 s → accessOk 0 offset size = true → offset % 32 = 0 → wideValue offset s = some v →
    Does (.wideRegisterCapture 0 .bar0 offset size) s fun t =>
      t.hif.fns[(0 : Fn)] = { s.hif.fns[(0 : Fn)] with wideBuf := v, wideAt := some offset } ∧
      t.out = .readData 0 (v % 2 ^ (8 * size)) :: s.out ∧ t = { s with hif := { s.hif with fns := t.hif.fns }, out := t.out }) ∧
  (∀ (fn : Fn) (offset size value : Nat) (s : State), BarOpen fn s → accessOk fn offset size = false →
    Does (.registerWrite fn offset size value) s fun t =>
      t.hif.fns[fn] = { s.hif.fns[fn] with accessDrop := min 0xFFFFFFFF ((s.hif.fns[fn]).accessDrop + 1) } ∧
      (t.flt.sources[(5 : Fin 320)]).events = (s.flt.sources[(5 : Fin 320)]).events + 1 ∧ restKept s t) ∧
  (∀ (fn : Fn) (s : State), BarOpen fn s → Does (.barAccessDrop fn true) s fun t =>
    t.hif.fns[fn] = { s.hif.fns[fn] with accessDrop := min 0xFFFFFFFF ((s.hif.fns[fn]).accessDrop + 1) } ∧
    (t.flt.sources[(5 : Fin 320)]).events = (s.flt.sources[(5 : Fin 320)]).events + 1 ∧ t.out = .readData fn 0 :: s.out ∧ restKept s t) ∧
  (∀ (fn : Fn) (s : State), BarOpen fn s → Does (.barAccessDrop fn false) s fun t =>
    t.hif.fns[fn] = { s.hif.fns[fn] with accessDrop := min 0xFFFFFFFF ((s.hif.fns[fn]).accessDrop + 1) } ∧
    (t.flt.sources[(5 : Fin 320)]).events = (s.flt.sources[(5 : Fin 320)]).events + 1 ∧ t.out = s.out ∧ restKept s t) ∧
  (∀ (offset size v : Nat) (s : State), BarOpen 0 s → accessOk 0 offset size = true → offset % 32 ≠ 0 →
    wideValue (offset / 32 * 32) s = some v → (s.hif.fns[(0 : Fn)]).wideAt = some (offset / 32 * 32) →
    Does (.wideRegisterCapture 0 .bar0 offset size) s fun t =>
      t = { s with out := .readData 0 ((s.hif.fns[(0 : Fn)]).wideBuf / 2 ^ (8 * (offset % 32)) % 2 ^ (8 * size)) :: s.out }) ∧
  (∀ (fn : Fn) (offset size : Nat) (s : State), BarOpen fn s →
    Does (.wideRegisterCapture fn .bar2 offset size) s fun t => t = { s with out := .readData fn 0 :: s.out })

/-- O12. A write of HIF_RING_OWNER_n while the pair is Disabled gives the pair to the named function and changes nothing else, unless it would give
RING_0 to a VF, or a VF, which does not own the pair already, more than 16 pairs. A write at another time, or that would give RING_0 to a VF, or (the
model's choice, log entry 63) a VF a 17th pair, sets the flag of ignored writes and changes nothing else. Rests on R49. -/
def Obligations.RingOwnership : Prop :=
  (∀ (ring : RingId) (owner : Fn) (s : State), BarOpen 0 s → (s.hif.rings[ring]).state = .disabled → (ring = 0 → owner = 0) →
    (owner = 0 ∨ (s.hif.rings[ring]).owner = owner ∨ pairsOwned owner s < 16) →
    Does (.ringOwnerWrite ring owner) s fun t =>
      t.hif.rings[ring] = { s.hif.rings[ring] with owner := owner } ∧ (∀ r : RingId, r ≠ ring → t.hif.rings[r] = s.hif.rings[r]) ∧
      t = { s with hif := { s.hif with rings := t.hif.rings } }) ∧
  (∀ (ring : RingId) (owner : Fn) (s : State), BarOpen 0 s →
    ((s.hif.rings[ring]).state ≠ .disabled ∨ (ring = 0 ∧ owner ≠ 0) ∨
      (owner ≠ 0 ∧ (s.hif.rings[ring]).owner ≠ owner ∧ 16 ≤ pairsOwned owner s)) →
    Does (.ringOwnerWrite ring owner) s fun t =>
      t.hif.fns[(0 : Fn)] = { s.hif.fns[(0 : Fn)] with ownerWriteIgnored := true } ∧ (∀ f : Fn, f ≠ 0 → t.hif.fns[f] = s.hif.fns[f]) ∧
      t = { s with hif := { s.hif with fns := t.hif.fns } })

/-- O13. PF0, or the owner, enables a Disabled pair whose set-up is valid and whose owner may master the bus: it is Running with its command indices
and its completion consumer index zero, and a marker takes completion slot 0; with Bus Master Enable clear it stays Disabled with enable 0; with a bad
set-up it is in Error with BAD_CONFIG. Writing enable 0 changes the pair's enable alone; a Running pair that is not enabled and has no command in
flight then goes to Disabled. A reset of a pair that is Disabled, or in Error with enable 0, zeroes its four indices, sets its phase and leaves it
Disabled, with the commands held on it discarded; a write that the host refuses puts a Running pair into Error. None of these touches another pair.
The event ring and a capture ring with a valid set-up, of a function that may master the bus, go from Disabled to Running with their indices zero,
back to Disabled with enable 0, to zero indices at a reset while Disabled, and to Error when the host refuses a write. Rests on R53, R60, R76, R80,
R91, R92, R93. -/
def Obligations.RingStates : Prop :=
  (∀ (fn : Fn) (n : RingId) (s : State), BarOpen fn s → (fn = 0 ∨ (s.hif.rings[n]).owner = fn) → (s.hif.rings[n]).state = .disabled →
    (s.hif.fns[(s.hif.rings[n]).owner]).busMaster = true → pairValid s.hif.rings[n] = true →
    Does (.ringEnable fn (.pair n)) s fun t =>
      (t.hif.rings[n]).state = .running ∧ (t.hif.rings[n]).enable = true ∧ (t.hif.rings[n]).cmdPI = 0 ∧ (t.hif.rings[n]).cmdCI = 0 ∧
      (t.hif.rings[n]).cplPI = 1 ∧ (t.hif.rings[n]).cplCI = 0 ∧
      Out.marker n (s.hif.rings[n]).cplBase true (s.evr.seqNext / 2 ^ 32) s.time.epoch ∈ t.out ∧
      (∀ r : RingId, r ≠ n → t.hif.rings[r] = s.hif.rings[r]) ∧ restKept s t) ∧
  (∀ (fn : Fn) (n : RingId) (s : State), BarOpen fn s → (fn = 0 ∨ (s.hif.rings[n]).owner = fn) → (s.hif.rings[n]).state = .disabled →
    (s.hif.fns[(s.hif.rings[n]).owner]).busMaster = false →
    Does (.ringEnable fn (.pair n)) s fun t =>
      t.hif.rings[n] = { s.hif.rings[n] with enable := false } ∧ (∀ r : RingId, r ≠ n → t.hif.rings[r] = s.hif.rings[r]) ∧ restKept s t) ∧
  (∀ (fn : Fn) (n : RingId) (s : State), BarOpen fn s → (fn = 0 ∨ (s.hif.rings[n]).owner = fn) → (s.hif.rings[n]).state = .disabled →
    (s.hif.fns[(s.hif.rings[n]).owner]).busMaster = true → pairValid s.hif.rings[n] = false →
    Does (.ringEnable fn (.pair n)) s fun t =>
      (t.hif.rings[n]).state = .error ∧ (t.hif.rings[n]).error = .badConfig ∧ (∀ r : RingId, r ≠ n → t.hif.rings[r] = s.hif.rings[r]) ∧
      restKept s t) ∧
  (∀ (fn : Fn) (n : RingId) (s : State), BarOpen fn s → (fn = 0 ∨ (s.hif.rings[n]).owner = fn) → Does (.ringDisable fn (.pair n)) s fun t =>
    t.hif.rings[n] = { s.hif.rings[n] with enable := false } ∧ (∀ r : RingId, r ≠ n → t.hif.rings[r] = s.hif.rings[r]) ∧ restKept s t) ∧
  (∀ (n : RingId) (s : State), (s.hif.rings[n]).state = .running → (s.hif.rings[n]).enable = false → (s.hif.rings[n]).inFlight = 0 →
    (s.hif.rings[n]).wbDue = false →
    Does (.ringDrained n) s fun t =>
      (t.hif.rings[n]).state = .disabled ∧ (∀ r : RingId, r ≠ n → t.hif.rings[r] = s.hif.rings[r]) ∧ restKept s t) ∧
  (∀ (fn : Fn) (n : RingId) (s : State), BarOpen fn s → (fn = 0 ∨ (s.hif.rings[n]).owner = fn) →
    ((s.hif.rings[n]).state = .disabled ∨ ((s.hif.rings[n]).state = .error ∧ (s.hif.rings[n]).enable = false)) →
    Does (.ringReset fn (.pair n)) s fun t =>
      (t.hif.rings[n]).cmdPI = 0 ∧ (t.hif.rings[n]).cmdCI = 0 ∧ (t.hif.rings[n]).cplPI = 0 ∧ (t.hif.rings[n]).cplCI = 0 ∧
      (t.hif.rings[n]).phase = true ∧ (t.hif.rings[n]).state = .disabled ∧ (∀ r : RingId, r ≠ n → t.hif.rings[r] = s.hif.rings[r]) ∧
      t = { s with held := s.held.filter (fun h => h.1 != n), hif := { s.hif with rings := t.hif.rings } }) ∧
  (∀ (n : RingId) (s : State), (s.hif.rings[n]).state = .running → Does (.cplWriteError (.pair n)) s fun t =>
    (t.hif.rings[n]).state = .error ∧ (t.hif.rings[n]).error = .cplWriteError ∧ (∀ r : RingId, r ≠ n → t.hif.rings[r] = s.hif.rings[r]) ∧ restKept s t) ∧
  (∀ (n : RingId) (s : State), (s.hif.rings[n]).state = .running → (s.hif.rings[n]).enable = false → (s.hif.rings[n]).inFlight = 0 →
    (s.hif.rings[n]).wbDue = true → inD3hot (s.hif.rings[n]).owner s = false →
    Does (.ringDrained n) s fun t =>
      (t.hif.rings[n]).state = .disabled ∧ (∀ r : RingId, r ≠ n → t.hif.rings[r] = s.hif.rings[r]) ∧
      t.out = .writeBack n (s.hif.rings[n]).wb (s.hif.rings[n]).cmdCI.toNat (s.hif.rings[n]).cplPI.toNat :: s.out) ∧
  (∀ s : State, BarOpen 0 s → s.hif.evr.state = .disabled → (s.hif.fns[(0 : Fn)]).busMaster = true → eventValid s.hif.evr = true →
    Does (.ringEnable 0 .event) s fun t =>
      t.hif = { s.hif with evr := { s.hif.evr with enable := true, state := .running, error := .none, prod := 0, cons := 0 } } ∧ restKept s t) ∧
  (∀ (fn : Fn) (c : Fin 8) (s : State), BarOpen fn s → (fn = 0 ∨ (s.hif.caps[c]).owner = fn) → (s.hif.caps[c]).state = .disabled →
    (s.hif.fns[(s.hif.caps[c]).owner]).busMaster = true → capValid s.hif.caps[c] s = true →
    Does (.ringEnable fn (.capture c)) s fun t =>
      t.hif.caps[c] = { s.hif.caps[c] with enable := true, state := .running, error := .none, prod := 0, cons := 0, dropped := 0 } ∧
      t = { s with hif := { s.hif with caps := t.hif.caps } }) ∧
  (∀ s : State, BarOpen 0 s → s.hif.evr.state = .running → Does (.ringDisable 0 .event) s fun t =>
    t = { s with hif := { s.hif with evr := { s.hif.evr with enable := false, state := .disabled } } }) ∧
  (∀ (fn : Fn) (c : Fin 8) (s : State), BarOpen fn s → (fn = 0 ∨ (s.hif.caps[c]).owner = fn) → (s.hif.caps[c]).state = .running →
    Does (.ringDisable fn (.capture c)) s fun t =>
      t.hif.caps[c] = { s.hif.caps[c] with enable := false, state := .disabled } ∧ t = { s with hif := { s.hif with caps := t.hif.caps } }) ∧
  (∀ s : State, BarOpen 0 s → s.hif.evr.state = .disabled → Does (.ringReset 0 .event) s fun t =>
    t = { s with hif := { s.hif with evr := { s.hif.evr with error := .none, prod := 0, cons := 0 } } }) ∧
  (∀ (fn : Fn) (c : Fin 8) (s : State), BarOpen fn s → (fn = 0 ∨ (s.hif.caps[c]).owner = fn) → (s.hif.caps[c]).state = .disabled →
    Does (.ringReset fn (.capture c)) s fun t =>
      t.hif.caps[c] = { s.hif.caps[c] with error := .none, prod := 0, cons := 0 } ∧ t = { s with hif := { s.hif with caps := t.hif.caps } }) ∧
  (∀ s : State, s.hif.evr.state = .running → Does (.cplWriteError .event) s fun t =>
    t.hif.evr.state = .error ∧ t.hif.evr.error = .cplWriteError ∧ t.hif.rings = s.hif.rings ∧ restKept s t) ∧
  (∀ (c : Fin 8) (s : State), (s.hif.caps[c]).state = .running → Does (.cplWriteError (.capture c)) s fun t =>
    (t.hif.caps[c]).state = .error ∧ (t.hif.caps[c]).error = .cplWriteError ∧ t.hif.rings = s.hif.rings ∧ restKept s t)

/-- O14. A producer doorbell on a page of a Running pair with a new index that the ring has room for becomes the producer index and nothing else
changes; an index out of range puts the ring into Error with DB_OVERRUN; a doorbell at an offset other than 0x000 and 0x008 of a page of the function
is discarded and counted. A consumer doorbell gives completion space back and changes nothing else. A fetch on a ring that may fetch reads the slot
that the consumer index names, moves the index on and, for a known opcode whose shared checks pass, counts the command in flight and leaves it waiting
to start; a failed read puts the ring into Error with FETCH_ERROR. Unmasking a vector whose pending bit is set sends one message, clears the bit and
starts its moderation anew, and a running moderation timer signals an unmasked vector once its time has passed, and ends. Rests on R46, R47, R51, R53,
R54, R55, R64, R69, R85, R86, R92. -/
def Obligations.DoorbellsAndFetch : Prop :=
  (∀ (fn : Fn) (page : Fin 256) (n : RingId) (p : Word) (s : State), BarOpen fn s → page.val < doorbellPages fn →
    pageRing fn page s = some (.pair n) →
    (s.hif.rings[n]).state = .running → 0 < (p - (s.hif.rings[n]).cmdPI).toNat →
    (p - (s.hif.rings[n]).cmdPI).toNat ≤ (p - (s.hif.rings[n]).cmdCI).toNat →
    (p - (s.hif.rings[n]).cmdCI).toNat ≤ 2 ^ (s.hif.rings[n]).cmdLog2 →
    Does (.doorbellProducer fn page 0 4 p) s fun t =>
      t.hif.rings[n] = { s.hif.rings[n] with cmdPI := p } ∧ (∀ r : RingId, r ≠ n → t.hif.rings[r] = s.hif.rings[r]) ∧
      t = { s with hif := { s.hif with rings := t.hif.rings } }) ∧
  (∀ (fn : Fn) (page : Fin 256) (n : RingId) (p : Word) (s : State), BarOpen fn s → page.val < doorbellPages fn →
    pageRing fn page s = some (.pair n) →
    (s.hif.rings[n]).state = .running → 2 ^ (s.hif.rings[n]).cmdLog2 < (p - (s.hif.rings[n]).cmdCI).toNat → p ≠ (s.hif.rings[n]).cmdPI →
    Does (.doorbellProducer fn page 0 4 p) s fun t =>
      (t.hif.rings[n]).state = .error ∧ (t.hif.rings[n]).error = .dbOverrun ∧ restKept s t) ∧
  (∀ (fn : Fn) (page : Fin 256) (offset : Nat) (p : Word) (s : State), BarOpen fn s → page.val < doorbellPages fn → offset ≠ 0 → offset ≠ 8 →
    Does (.doorbellProducer fn page offset 4 p) s fun t =>
      (t.hif.fns[fn]).dbDrop = min 0xFFFFFFFF ((s.hif.fns[fn]).dbDrop + 1) ∧ t.hif.rings = s.hif.rings ∧ restKept s t) ∧
  (∀ (fn : Fn) (page : Fin 256) (n : RingId) (v : Word) (s : State), BarOpen fn s → page.val < doorbellPages fn →
    pageRing fn page s = some (.pair n) →
    (s.hif.rings[n]).state = .running → Does (.doorbellConsumer fn page v) s fun t =>
      t.hif.rings[n] = { s.hif.rings[n] with cplCI := v } ∧ (∀ r : RingId, r ≠ n → t.hif.rings[r] = s.hif.rings[r]) ∧
      t = { s with hif := { s.hif with rings := t.hif.rings } }) ∧
  (∀ (n : RingId) (bytes : List Byte) (buf : Buf) (found : Findings) (c : Instr) (s : State), s.sec.asked = none → s.sec.restart = none →
    mayFetch s.hif.rings[n] s.hif.fns[(s.hif.rings[n]).owner] = true → s.flt.fatal = false → s.boot.stage ≠ .recovery →
    commandOf (leAt bytes 0 1) (Desc.ofBytes n bytes buf) found = some c → (s.hif.rings[n]).wb = 0 →
    preCheck (leAt bytes 0 1) (s.hif.rings[n]).owner (Desc.ofBytes n bytes buf) s = none →
    Does (.descriptorFetch n (.got bytes buf found)) s fun t =>
      t.hif.rings[n] = { s.hif.rings[n] with cmdCI := (s.hif.rings[n]).cmdCI + 1, inFlight := (s.hif.rings[n]).inFlight + 1 } ∧
      t.held = s.held ++ [(n, (Desc.ofBytes n bytes buf).fence, c)] ∧
      Out.hostRead (s.hif.rings[n]).owner ((s.hif.rings[n]).cmdBase + (s.hif.rings[n]).cmdCI.toNat % 2 ^ (s.hif.rings[n]).cmdLog2 * 64) 64 ∈ t.out ∧
      (∀ r : RingId, r ≠ n → t.hif.rings[r] = s.hif.rings[r]) ∧ t = { s with held := t.held, hif := t.hif, pmc := t.pmc, out := t.out }) ∧
  (∀ (n : RingId) (s : State), s.sec.asked = none → s.sec.restart = none →
    mayFetch s.hif.rings[n] s.hif.fns[(s.hif.rings[n]).owner] = true →
    Does (.descriptorFetch n .error) s fun t => (t.hif.rings[n]).state = .error ∧ (t.hif.rings[n]).error = .fetchError ∧ restKept s t) ∧
  (∀ (fn : Fn) (v : Fin 64) (s : State), BarOpen fn s → ((s.hif.fns[fn]).vecs[v]).masked = true → ((s.hif.fns[fn]).vecs[v]).pending = true →
    inD3hot fn s = false →
    Does (.msixUnmask fn v) s fun t =>
      (t.hif.fns[fn]).vecs[v] = { (s.hif.fns[fn]).vecs[v] with masked := false, pending := false, entries := 0, running := false } ∧
      t.out = .msi fn v :: s.out ∧ restKept s t) ∧
  (∀ (fn : Fn) (v : Fin 64) (s : State), ((s.hif.fns[fn]).vecs[v]).running = true → ((s.hif.fns[fn]).vecs[v]).masked = false →
    0 < ((s.hif.fns[fn]).vecs[v]).timer → inD3hot fn s = false →
    Does (.vectorTimer fn v) s fun t =>
      t.out = .msi fn v :: s.out ∧ ((t.hif.fns[fn]).vecs[v]).entries = 0 ∧ ((t.hif.fns[fn]).vecs[v]).running = false ∧
      t.time.mono = max s.time.mono (((s.hif.fns[fn]).vecs[v]).since + 4000 * ((s.hif.fns[fn]).vecs[v]).timer) ∧
      t.hif.rings = s.hif.rings ∧ t.evr = s.evr ∧ t.cfg = s.cfg ∧ t.slices = s.slices)

/-- O15. A command that completes OK or SUPERSEDED on a ring that still answers it, whose last marker carries the present epoch and high sequence
half, writes at the slot that the completion producer names 16 bytes: its tag, its status code, the ring's phase, the low half of the next sequence
number and the short stamp, each little-endian; the sequence counter goes on by one and the completion producer by one, and the phase inverts exactly
when the producer comes to slot 0. When the marker is another one, a marker with the present epoch and high sequence half takes a slot before it.
Nothing but the host interface, the recorder, the counters and what was sent out changes, and no other ring does. Rests on R3, R36, R51, R56, R57,
R59, R60, R62. -/
def Obligations.CompletionOfACommand : Prop :=
  (∀ (iss : Issue) (st : Status) (s : State), answers iss s = true →
    (s.hif.rings[iss.ring]).marker = some (s.time.epoch, s.evr.seqNext / 2 ^ 32) → (st = .ok ∨ st = .superseded) →
    let t := complete iss st s
    let x := s.hif.rings[iss.ring]
    let o := Out.completion iss.ring (completionSlot x) iss.tag st x.phase (s.evr.seqNext % 2 ^ 32) s.stamp
    o ∈ t.out ∧
    hostBytes o = some (x.cplBase + x.cplPI.toNat % 2 ^ x.cplLog2 * 16, toBytes 2 iss.tag.toNat ++ toBytes 1 (statusCode st) ++
      toBytes 1 (if x.phase = true then 1 else 0) ++ toBytes 4 (s.evr.seqNext % 2 ^ 32) ++ toBytes 8 s.stamp) ∧
    t.evr.seqNext = (s.evr.seqNext + 1) % 2 ^ 64 ∧
    (t.hif.rings[iss.ring]).cplPI = (s.hif.rings[iss.ring]).cplPI + 1 ∧
    (t.hif.rings[iss.ring]).phase =
      (if ((s.hif.rings[iss.ring]).cplPI + 1).toNat % 2 ^ (s.hif.rings[iss.ring]).cplLog2 = 0 then !(s.hif.rings[iss.ring]).phase
       else (s.hif.rings[iss.ring]).phase) ∧
    (∀ r : RingId, r ≠ iss.ring → t.hif.rings[r] = s.hif.rings[r]) ∧
    t = { s with hif := t.hif, evr := t.evr, pmc := t.pmc, out := t.out }) ∧
  (∀ (iss : Issue) (st : Status) (s : State), answers iss s = true →
    (s.hif.rings[iss.ring]).marker ≠ some (s.time.epoch, s.evr.seqNext / 2 ^ 32) → (st = .ok ∨ st = .superseded) →
    let t := complete iss st s
    Out.marker iss.ring (completionSlot s.hif.rings[iss.ring]) (s.hif.rings[iss.ring]).phase (s.evr.seqNext / 2 ^ 32) s.time.epoch ∈ t.out ∧
    (t.hif.rings[iss.ring]).marker = some (s.time.epoch, s.evr.seqNext / 2 ^ 32) ∧
    (t.hif.rings[iss.ring]).cplPI = (s.hif.rings[iss.ring]).cplPI + 2 ∧
    (∀ r : RingId, r ≠ iss.ring → t.hif.rings[r] = s.hif.rings[r]) ∧
    t = { s with hif := t.hif, evr := t.evr, pmc := t.pmc, out := t.out })

/-- O16. Every host command, named by its opcode, that a fence holds waits as it stands and is counted in flight. One that no fence holds completes
FATAL_STATE in the fatal state and in RECOVERY, unless it is NOP or DUMP_REGISTER; otherwise with a reserved flag set it completes BAD_PARAM at offset
1; and of a tenant function, with flags and buffer in order, one whose opcode is not a tenant's is DENIED. A NOP that passes the shared checks, with
target and indirect flag zero and no parameter byte set, completes OK. Rests on R66, R69, R71, R88, R106, R689. -/
def Obligations.HostCommandChecks : Prop :=
  (∀ (op : Nat) (c : Instr) (d : Desc) (found : Findings) (s : State), commandOf op d found = some c →
    mustHold d (s.held.any fun h => h.1 == d.ring) s = true → exec c s = .next (holdCommand d c s)) ∧
  (∀ (op : Nat) (c : Instr) (d : Desc) (found : Findings) (s : State), commandOf op d found = some c → op ≠ 0x01 → op ≠ 0x68 →
    mustHold d (s.held.any fun h => h.1 == d.ring) s = false → (s.flt.fatal = true ∨ s.boot.stage = .recovery) →
    exec c s = .next (refuse (issueOf op d s) (refusal .fatalState) (startCommand d s))) ∧
  (∀ (op : Nat) (c : Instr) (d : Desc) (found : Findings) (s : State), commandOf op d found = some c → tenantOpcode op = false →
    mustHold d (s.held.any fun h => h.1 == d.ring) s = false →
    s.flt.fatal = false → s.boot.stage ≠ .recovery → d.flags.toNat / 8 = 0 → bufferCheck d = none → (s.hif.rings[d.ring]).owner ≠ 0 →
    exec c s = .next (refuse (issueOf op d s) { status := .denied, offset := 0, resource := 0 } (startCommand d s))) ∧
  (∀ (d : Desc) (s : State), Runs 0x01 d s → nopCheck d = none →
    exec (.nop d) s = .next (complete (issueOf 0x01 d s) .ok (startCommand d s))) ∧
  (∀ (op : Nat) (c : Instr) (d : Desc) (found : Findings) (s : State), commandOf op d found = some c →
    mustHold d (s.held.any fun h => h.1 == d.ring) s = false →
    s.flt.fatal = false → s.boot.stage ≠ .recovery → d.flags.toNat / 8 ≠ 0 →
    exec c s = .next (refuse (issueOf op d s) (badParam 1) (startCommand d s)))

/-- O17. RECORD_PUBLISH takes the oldest record out of staging and puts it last in the store; when losses wait to be reported and the reserved entry
is free, an OVERFLOW record of kind 0 with their number and the next sequence number then takes that entry and none waits any more. RECORD_MIRROR on a
Running event ring of a PF0 in D0 that may master the bus, with room, writes the next record to the ring, past the padding that keeps it from
straddling the end, and moves the ring producer and the mirror on past it; without room it pauses and counts an event of source 4. Publishing touches
nothing but the recorder and the counters, mirroring nothing but the host interface, the recorder, the counters, the collector and what was sent out.
Rests on R599, R600, R601, R603, R76, R79. -/
def Obligations.RecordsReachTheStoreAndTheMirror : Prop :=
  (∀ (r : Record) (rest : List Record) (s : State), s.evr.staging = r :: rest → s.evr.lostPending = 0 →
    Does .recordPublish s fun t =>
      t.evr.staging = rest ∧ (t.evr.store.getLast?).map (·.entry) = some r ∧ t.evr.seqNext = s.evr.seqNext ∧
      t = { s with evr := t.evr, pmc := t.pmc }) ∧
  (∀ (r : Record) (seq skipped : Nat) (s : State), s.hif.evr.state = .running → (s.hif.fns[(0 : Fn)]).busMaster = true →
    (s.hif.fns[(0 : Fn)]).d3hot = false → nextToMirror s.evr = some (r, seq, skipped) →
    eventRoom s.hif.evr (mirrorNeed r s.hif.evr) = true →
    Does .recordMirror s fun t =>
      t.evr.mirrorSeq = seq ∧ t.evr.firstLost = none ∧ t.evr.mirrorPaused = false ∧ t.evr.store = s.evr.store ∧
      Out.mirrored (s.hif.evr.base + placeAt (2 ^ s.hif.evr.log2) s.hif.evr.prod.toNat r.size % 2 ^ s.hif.evr.log2) r ∈ t.out ∧
      t.hif.evr.prod = BitVec.ofNat 32 (placeAt (2 ^ s.hif.evr.log2) s.hif.evr.prod.toNat r.size + r.size) ∧ restKept s t) ∧
  (∀ (r : Record) (seq skipped : Nat) (s : State), s.hif.evr.state = .running → (s.hif.fns[(0 : Fn)]).busMaster = true →
    (s.hif.fns[(0 : Fn)]).d3hot = false → nextToMirror s.evr = some (r, seq, skipped) →
    eventRoom s.hif.evr (mirrorNeed r s.hif.evr) = false → s.evr.mirrorPaused = false →
    Does .recordMirror s fun t =>
      t.evr = { s.evr with mirrorPaused := true } ∧ t.hif = s.hif ∧
      (t.flt.sources[(4 : Fin 320)]).events = (s.flt.sources[(4 : Fin 320)]).events + 1 ∧ restKept s t) ∧
  (∀ (r : Record) (rest : List Record) (s : State), s.evr.staging = r :: rest → s.evr.lostPending ≠ 0 →
    rest.length ≤ unreserved { s.evr with staging := rest } →
    Does .recordPublish s fun t =>
      t.evr.staging = rest ++ [{ sequence := s.evr.seqNext, stamp := s.stamp, epoch := s.time.epoch, suppressed := 0, payload := .overflow 0 s.evr.lostPending 0 }] ∧
      t.evr.lostPending = 0 ∧ t.evr.seqNext = (s.evr.seqNext + 1) % 2 ^ 64 ∧ (t.evr.store.getLast?).map (·.entry) = some r ∧
      t = { s with evr := t.evr, pmc := t.pmc })

/-- O18. A record that the rate limit passes and for which staging has room enters staging last, carries the next sequence number, its stamp and its
epoch, and moves the sequence counter on by one; one that staging has no room for counts as lost and takes no number; one that the limit turns away
leaves the recorder as the rate check does. Records touch the recorder and the counters alone. Rests on R598, R605, R606. -/
def Obligations.RecordingAnEvent : Prop :=
  (∀ (p : Payload) (stamp epoch sup : Nat) (e : Recorder) (s : State), rateCheck p s.time.mono s.evr = (e, some sup) → unreserved e < 63 →
    let t := record p stamp epoch none s
    t.evr.staging = e.staging ++ [{ sequence := e.seqNext, stamp := stamp, epoch := epoch, suppressed := sup, payload := p }] ∧
    t.evr.seqNext = (e.seqNext + 1) % 2 ^ 64 ∧ t = { s with evr := t.evr, pmc := t.pmc }) ∧
  (∀ (p : Payload) (stamp epoch sup : Nat) (e : Recorder) (s : State), rateCheck p s.time.mono s.evr = (e, some sup) → 63 ≤ unreserved e →
    let t := record p stamp epoch none s
    t.evr.staging = e.staging ∧ t.evr.seqNext = e.seqNext ∧ t.evr.lostPending = e.lostPending + 1 ∧ t = { s with evr := t.evr, pmc := t.pmc }) ∧
  (∀ (p : Payload) (stamp epoch : Nat) (own : Option Nat) (e : Recorder) (s : State), rateCheck p s.time.mono s.evr = (e, none) →
    let t := record p stamp epoch own s
    t.evr = e ∧ t = { s with evr := e, pmc := t.pmc })

/-- O19. COUNTER_CFG with valid parameters gives its counter the event, the mode, the unit and the threshold of the descriptor with the count zero,
and with preserve changes only enable and wrap_record; it claims the counter for HOST when it enables it, gives the claim up when it disables it (the
model's choice of when the claim ends, log entry 26), and completes OK. An addition is modulo 2^48: passing it sets the sticky bit, which an addition
never clears, and no other counter changes; with wrap_record set a COUNTER_WRAP record is published when it passes once. Rests on R126, R611, R613,
R614. -/
def Obligations.CountersCount : Prop :=
  (∀ (d : Desc) (n : Fin 256) (s : State), Runs 0x58 d s → d.unit .counter 256 = some n → counterCfgCheck d s = none →
    exec (.counterCfg d) s = .next (complete (issueOf 0x58 d s) .ok
      (if bitOf (d.byte 15) 0 = true then addClaim 0x0C n { startCommand d s with pmc := { s.pmc with cnt := upd s.pmc.cnt n (counterCfgEffect d) } }
       else dropClaim 0x0C n { startCommand d s with pmc := { s.pmc with cnt := upd s.pmc.cnt n (counterCfgEffect d) } }))) ∧
  (∀ (d : Desc) (c : Counter), bitOf (d.byte 15) 2 = false →
    counterCfgEffect d c = { c with count := 0, event := d.u 12 2, mode := d.byte 14, enable := bitOf (d.byte 15) 0,
                                    wrapRecord := bitOf (d.byte 15) 1, unit := d.u 16 4, threshold := d.u 20 4, last := 0 }) ∧
  (∀ (n : Fin 256) (a : Nat) (s : State), (s.pmc.cnt[n]).wrapRecord = false → (s.pmc.cnt[n]).wrapDue = 0 →
    Does (.counterWrap n a) s fun t =>
      (t.pmc.cnt[n]).count = ((s.pmc.cnt[n]).count + a) % 2 ^ 48 ∧
      (t.pmc.cnt[n]).sticky = ((s.pmc.cnt[n]).sticky || decide (2 ^ 48 ≤ (s.pmc.cnt[n]).count + a)) ∧
      (∀ m : Fin 256, m ≠ n → t.pmc.cnt[m] = s.pmc.cnt[m]) ∧ t = { s with pmc := { s.pmc with cnt := t.pmc.cnt } }) ∧
  (∀ (n : Fin 256) (a : Nat) (s : State), (s.pmc.cnt[n]).wrapRecord = true → (s.pmc.cnt[n]).wrapDue = 0 →
    ((s.pmc.cnt[n]).count + a) / 2 ^ 48 = 1 →
    exec (.counterWrap n a) s = .next (recordNow (.counterWrap n)
      { s with pmc := { s.pmc with cnt := upd s.pmc.cnt n fun c => { c with count := (c.count + a) % 2 ^ 48, sticky := true } } })) ∧
  (∀ (d : Desc) (c : Counter), bitOf (d.byte 15) 2 = true →
    counterCfgEffect d c = { c with enable := bitOf (d.byte 15) 0, wrapRecord := bitOf (d.byte 15) 1 })

/-- O20. A single COUNTER_SNAPSHOT with valid parameters joins the snapshots that wait, with its buffer and the first epoch strobe at or after its
instant, and completes when it is captured; a periodic one becomes the periodic snapshot, and completes OK with its first capture, after which the
next is due a period later; one that stops the periodic snapshot ends it, with SUPERSEDED for a command that no capture has completed, and completes
OK. A capture sends the 256 counter words to its slot of the buffer and with clear zeroes every count and no sticky bit; the model leaves its sequence
number, whose counter the spec does not name, free (log entry 3). A write that fails gives a single snapshot TIMEOUT and sets snapshot_error. Rests on
R617, R618, R619, R620. -/
def Obligations.SnapshotsAreTakenAtTheirInstant : Prop :=
  (∀ (d : Desc) (s : State), Runs 0x59 d s → snapshotCheck d s = none → bitOf (d.byte 24) 0 = false → d.u 22 2 = 0 →
    exec (.counterSnapshot d) s = .next { startCommand d s with pmc := { s.pmc with singles := s.pmc.singles ++
      [{ issue := issueOf 0x59 d s, address := d.u 12 8, slots := d.u 20 2, period := 0, clear := bitOf (d.byte 24) 1
         next := strobeAt (instantOrNow (d.u 32 8) s), index := 0 }] } }) ∧
  (∀ (x : Snapshot) (rest : List Snapshot) (s : State), s.pmc.singles = x :: rest → inD3hot 0 s = false →
    exec (.snapshotCapture false true) s =
      .next (complete x.issue .ok (captureSnapshot x (advanceTo x.next { s with pmc := { s.pmc with singles := rest } })))) ∧
  (∀ (x : Snapshot) (s : State), x.clear = true →
    (∀ n : Fin 256, ((captureSnapshot x s).pmc.cnt[n]).count = 0 ∧ ((captureSnapshot x s).pmc.cnt[n]).sticky = (s.pmc.cnt[n]).sticky)) ∧
  (∀ (x : Snapshot) (s : State), Out.snapshot (x.address + x.index % x.slots * 4096) (freeSequence s.free) s.stamp s.time.epoch
    (bit x.clear + 2 * bit (x.period != 0)) x.index ((indices 256).map fun i => counterWord s.pmc.cnt[i]) ∈ (captureSnapshot x s).out) ∧
  (∀ (d : Desc) (s : State), Runs 0x59 d s → snapshotCheck d s = none → bitOf (d.byte 24) 0 = false → d.u 22 2 ≠ 0 →
    exec (.counterSnapshot d) s = .next { startCommand d s with pmc := { s.pmc with periodic := some { issue := issueOf 0x59 d s, address := d.u 12 8, slots := d.u 20 2, period := d.u 22 2, clear := bitOf (d.byte 24) 1, next := strobeAt (instantOrNow (d.u 32 8) s), index := 0 } } }) ∧
  (∀ (d : Desc) (s : State), Runs 0x59 d s → snapshotCheck d s = none → bitOf (d.byte 24) 0 = true →
    exec (.counterSnapshot d) s = .next (complete (issueOf 0x59 d s) .ok (completeOpt
      (s.pmc.periodic.bind fun p => if p.index = 0 then some p.issue else none) .superseded (endSnapshots (startCommand d s))))) ∧
  (∀ (x : Snapshot) (s : State), s.pmc.periodic = some x → inD3hot 0 s = false → x.index = 0 →
    Does (.snapshotCapture true true) s fun t =>
      t.pmc.periodic = some { x with index := 1, next := x.next + x.period * 4000000 } ∧
      t.evr.seqNext = (s.evr.seqNext + 1) % 2 ^ 64) ∧
  (∀ (x : Snapshot) (rest : List Snapshot) (s : State), s.pmc.singles = x :: rest →
    exec (.snapshotCapture false false) s = .next (complete x.issue .timeout
      { advanceTo x.next { s with pmc := { s.pmc with singles := rest } } with
        pmc := { (advanceTo x.next { s with pmc := { s.pmc with singles := rest } }).pmc with snapshotError := true } }))

/-- O21. A cycle with no FATAL assertion collects the cycle, tests the units its assertions name, and completes the pulses it acknowledged; one with a
FATAL assertion also enters the fatal state in between. A first-fault capture that holds a fault keeps it; an empty one takes the first real assertion
of the cycle, in the order real before injected and higher severity first. A real assertion sets its source's latched status and adds its events to
the source's count, saturating. Rests on R566, R569, R570, R571, R572. -/
def Obligations.FaultsAreCollected : Prop :=
  (∀ (bad : List (Fin 320)) (s : State),
    ((cycleAssertions (bad.filter fun i => !isNotification i) s).any fun a => isFatal a.source) = false →
    exec (.collectionCycle bad) s = .next (pulsesDone
      ((cycleAssertions (bad.filter fun i => !isNotification i) s).foldl (fun s a => testFor a s) (collect (bad.filter fun i => !isNotification i) s)))) ∧
  (∀ (bad : List (Fin 320)) (s : State),
    ((cycleAssertions (bad.filter fun i => !isNotification i) s).any fun a => isFatal a.source) = true →
    exec (.collectionCycle bad) s = .next (pulsesDone
      ((cycleAssertions (bad.filter fun i => !isNotification i) s).foldl (fun s a => testFor a s)
        (enterFatal (stampOf ((collect (bad.filter fun i => !isNotification i) s).now / qCycle * qCycle))
          (collect (bad.filter fun i => !isNotification i) s))))) ∧
  (∀ (bad : List (Fin 320)) (f : FirstFault) (s : State), s.flt.first = some f → (collect bad s).flt.first = some f) ∧
  (∀ (bad : List (Fin 320)) (a : Assertion) (s : State), s.flt.first = none → (cycleAssertions bad s).find? (·.real) = some a →
    ∃ f, (collect bad s).flt.first = some f ∧ f.source = a.source ∧ f.severity = severityOf a.source ∧ f.injected = false) ∧
  (∀ (stamp : Nat) (first? coincident : Bool) (a : Assertion) (s : State), a.real = true →
    ((takeAssertion stamp first? coincident a s).flt.sources[a.source]).latched = true ∧
    ((takeAssertion stamp first? coincident a s).flt.sources[a.source]).count = min 65535 ((s.flt.sources[a.source]).count + a.count) ∧
    (∀ i : Fin 320, i ≠ a.source → (takeAssertion stamp first? coincident a s).flt.sources[i] = s.flt.sources[i]))

/-- O22. An assembled dump, with its sections as the registers then stand, stands retained, cut to the 4 MiB of retained SRAM; with no buffer
registered its writing ends at once without a host copy. A dump written without error to a reachable host goes to the registered buffer, cut to its
length, and the commands that waited complete OK; one whose write fails ends without a host copy. Outside a dump, with none retained, DUMP_REGISTER
with valid parameters registers its buffer and completes OK; with a retained one it also sends a copy; while a dump is made it registers its buffer
and waits; with bit 0 it unregisters. A release forgets the retained dump and nothing else. FAULT_CLEAR of a source that may be cleared clears its
latched status and no other source's; of the device it works by its mask, and with bits 1 and 2 alone it clears the first fault and the history; of a
source that may not be cleared it completes STILL_ACTIVE. Rests on R223, R583, R584, R587, R588, R589, R590, R592. -/
def Obligations.DumpsAndClears : Prop :=
  (∀ (h : DumpHeader) (s : State), s.flt.dump.phase = .assembling → s.flt.dump.current = some h →
    s.flt.dump.registered.isSome = true →
    Does .dumpAssembled s fun t =>
      t.flt.dump.phase = .writing ∧ t.flt.dump.retained = some (fitDump 4194304 { h with sections := dumpSections h.sequence s }) ∧
      t = { s with flt := { s.flt with dump := t.flt.dump } }) ∧
  (∀ (h : DumpHeader) (s : State), s.flt.dump.phase = .assembling → s.flt.dump.current = some h → s.flt.dump.registered = none →
    Does .dumpAssembled s fun t =>
      t.flt.dump.phase = .done ∧ t.flt.dump.lastToHost = false ∧
      t.flt.dump.retained = some (fitDump 4194304 { h with sections := dumpSections h.sequence s }) ∧ restKept s t) ∧
  (∀ (a n : Nat) (h : DumpHeader) (s : State), s.flt.dump.phase = .writing → s.flt.dump.current = some h →
    s.flt.dump.registered = some (a, n) → dumpReachable s = true →
    Does (.dumpWritten true) s fun t =>
      t.flt.dump.phase = .done ∧ t.flt.dump.lastToHost = true ∧ t.flt.dump.waiting = [] ∧ Out.dump a (hostDump n h s) ∈ t.out ∧ restKept s t) ∧
  (∀ (d : Desc) (s : State), Runs 0x68 d s → dumpCheck d = none → bitOf (d.byte 24) 0 = false → s.flt.dump.retained = none →
    (s.flt.dump.phase = .idle ∨ s.flt.dump.phase = .done) →
    exec (.dumpRegister d) s = .next (complete (issueOf 0x68 d s) .ok
      { startCommand d s with flt := { s.flt with dump := { s.flt.dump with registered := some (d.u 12 8, d.u 20 4) } } })) ∧
  (∀ (d : Desc) (s : State), Runs 0x68 d s → dumpCheck d = none → bitOf (d.byte 24) 0 = true →
    exec (.dumpRegister d) s = .next (complete (issueOf 0x68 d s) .ok
      { startCommand d s with flt := { s.flt with dump := { s.flt.dump with registered := none } } })) ∧
  (∀ (h : DumpHeader) (s : State), s.flt.dump.phase = .writing → s.flt.dump.current = some h →
    Does (.dumpWritten false) s fun t => t.flt.dump.phase = .done ∧ t.flt.dump.lastToHost = false ∧ restKept s t) ∧
  (∀ (d : Desc) (s : State), Runs 0x68 d s → dumpCheck d = none → bitOf (d.byte 24) 0 = false →
    (s.flt.dump.phase = .assembling ∨ s.flt.dump.phase = .writing) →
    exec (.dumpRegister d) s = .next { startCommand d s with flt := { s.flt with dump := { s.flt.dump with
      registered := some (d.u 12 8, d.u 20 4), waiting := s.flt.dump.waiting ++ [issueOf 0x68 d s] } } }) ∧
  (∀ (d : Desc) (h : DumpHeader) (s : State), Runs 0x68 d s → dumpCheck d = none → bitOf (d.byte 24) 0 = false → s.flt.dump.retained = some h →
    (s.flt.dump.phase = .idle ∨ s.flt.dump.phase = .done) →
    Does (.dumpRegister d) s fun t =>
      Out.dump (d.u 12 8) (fitDump (min (d.u 20 4) 4194304) { h with toHost := true }) ∈ t.out ∧
      t.flt.dump.registered = some (d.u 12 8, d.u 20 4) ∧ t.flt.dump.lastToHost = true ∧ t.flt.dump.retained = some h ∧ restKept s t) ∧
  (∀ s : State, BarOpen 0 s → Does .dumpRelease s fun t =>
    t = { s with flt := { s.flt with dump := { s.flt.dump with retained := none, retainedLen := 0 } } }) ∧
  (∀ (d : Desc) (i : Fin 320) (s : State), Runs 0x51 d s → d.indirect = false → d.unit .errorSource 320 = some i → isNotification i = false →
    firstFail [d.strayCheck []] = none → clearableSource i s = true →
    Does (.faultClear d) s fun t =>
      (t.flt.sources[i]).latched = false ∧ (∀ j : Fin 320, j ≠ i → t.flt.sources[j] = s.flt.sources[j]) ∧ t.slices = s.slices ∧ t.time = s.time) ∧
  (∀ (d : Desc) (s : State), Runs 0x51 d s → d.indirect = false → d.tgt = 0 → d.unit .errorSource 320 = none → d.byte 12 = 6 →
    firstFail [d.strayCheck [(12, 1)]] = none →
    Does (.faultClear d) s fun t => t.flt.first = none ∧ t.flt.history = [] ∧ t.flt.sources = s.flt.sources ∧ restKept s t) ∧
  (∀ (d : Desc) (i : Fin 320) (s : State), Runs 0x51 d s → d.indirect = false → d.unit .errorSource 320 = some i → isNotification i = false →
    firstFail [d.strayCheck []] = none → clearableSource i s = false →
    exec (.faultClear d) s = .next (refuse (issueOf 0x51 d s) (refusal .stillActive) (startCommand d s))) ∧
  (∀ (d : Desc) (s : State), Runs 0x51 d s → d.indirect = false → d.tgt = 0 → d.unit .errorSource 320 = none → inRange 1 7 (d.byte 12) = true →
    firstFail [d.strayCheck [(12, 1)]] = none →
    exec (.faultClear d) s = .next (clearDevice (issueOf 0x51 d s) (d.byte 12) (startCommand d s)))

/-- O23. A FAULT_INJECT that is allowed and valid waits with its source, its instant and its duration. When the instant of a pulse comes, its source
takes one injected event and no real one; a hold makes its source assert, with no real event, until its end, which then clears the hold and completes
the command OK. SELFTEST of an RX port, a TX port or a converter in service asks for one test of it, and its completion waits for that test; of an
engine, a bank or a lane it does what the operation for that unit does. Rests on R574, R575, R576, R579, R582. -/
def Obligations.InjectionsAndSelftests : Prop :=
  (∀ (d : Desc) (src : Fin 320) (s : State), Runs 0x52 d s → injectCheck d s = none → d.unit .errorSource 320 = some src →
    exec (.faultInject d) s = .next { startCommand d s with flt := { s.flt with injections := s.flt.injections ++
      [{ issue := issueOf 0x52 d s, source := src, isHold := d.byte 12 == 1, capture := bitOf (d.byte 13) 0, duration := d.u 14 2
         instant := if d.u 16 8 = 0 then s.now else instantOf s.now (d.u 16 8), unit := d.u 24 4, inst := d.u 28 2, fired := false }] } }) ∧
  (∀ (src : Fin 320) (x : Injection) (s : State), (s.flt.injections.find? fun x => x.source == src && !x.fired) = some x → x.isHold = false →
    Does (.injectionFire src) s fun t =>
      (t.flt.sources[src]).injEvents = (s.flt.sources[src]).injEvents + 1 ∧ (t.flt.sources[src]).events = (s.flt.sources[src]).events) ∧
  (∀ (src : Fin 320) (x : Injection) (s : State), (s.flt.injections.find? fun x => x.source == src && !x.fired) = some x → x.isHold = true →
    Does (.injectionFire src) s fun t =>
      (t.flt.sources[src]).hold = true ∧ (t.flt.sources[src]).events = (s.flt.sources[src]).events) ∧
  (∀ (src : Fin 320) (x : Injection) (s : State), (s.flt.injections.find? fun x => x.source == src && x.fired && x.isHold) = some x →
    exec (.injectionHoldEnd src) s = .next (complete x.issue .ok
      { advanceMono x.instant s with flt := { s.flt with
          injections := s.flt.injections.filter fun y => y.source != src
          sources := upd s.flt.sources src fun y => { y with hold := false } } })) ∧
  (∀ (d : Desc) (p : Fin 32) (s : State), Runs 0x50 d s → d.indirect = false → firstFail [d.strayCheck []] = none →
    d.tgt = target .rxPort p → rxRetired p s = false → (s.tiles.tile[tileOf p]).state = .synthOn → testOf .rxPort p s = none →
    exec (.selftest d) s = .next { startCommand d s with flt := { s.flt with selftests := s.flt.selftests ++
      [{ kind := .rxPort, index := p, source := 0, injectedOnly := false, hosts := [issueOf 0x50 d s] }] } }) ∧
  (∀ (d : Desc) (p : Fin 32) (s : State), Runs 0x50 d s → d.indirect = false → firstFail [d.strayCheck []] = none →
    d.tgt = target .txPort p → txRetired p s = false → (s.tiles.tile[tileOf p]).state = .synthOn → testOf .txPort p s = none →
    exec (.selftest d) s = .next { startCommand d s with flt := { s.flt with selftests := s.flt.selftests ++
      [{ kind := .txPort, index := p, source := 0, injectedOnly := false, hosts := [issueOf 0x50 d s] }] } }) ∧
  (∀ (d : Desc) (c : Fin 8) (s : State), Runs 0x50 d s → d.indirect = false → firstFail [d.strayCheck []] = none →
    d.tgt = target .madc c → madcRetired c s = false → testOf .madc c s = none →
    exec (.selftest d) s = .next { startCommand d s with flt := { s.flt with selftests := s.flt.selftests ++
      [{ kind := .madc, index := c, source := 0, injectedOnly := false, hosts := [issueOf 0x50 d s] }] } }) ∧
  (∀ (d : Desc) (e : Fin 64) (s : State), Runs 0x50 d s → d.indirect = false → firstFail [d.strayCheck []] = none → d.tgt = target .engine e →
    exec (.selftest d) s = .next (selftestEngine (issueOf 0x50 d s) e d.tgt (startCommand d s))) ∧
  (∀ (d : Desc) (b : Fin 48) (s : State), Runs 0x50 d s → d.indirect = false → firstFail [d.strayCheck []] = none → d.tgt = target .bank b →
    exec (.selftest d) s = .next (selftestBank (issueOf 0x50 d s) b d.tgt (startCommand d s))) ∧
  (∀ (d : Desc) (l : Fin 64) (s : State), Runs 0x50 d s → d.indirect = false → firstFail [d.strayCheck []] = none → d.tgt = target .lane l →
    exec (.selftest d) s = .next (selftestLane (issueOf 0x50 d s) l d.tgt (startCommand d s)))

/-- O24. A read of TIM_NOW_NS returns nanoseconds and fraction and latches the seconds of the same instant. A change of the source, or 1.1 s without
an accepted edge, moves an ALIGNED part to HOLDOVER and counts an event of source 163. A PPS pulse shorter than 100 ns, while PPS is the source,
counts as a stray and decides no step; a longer one is taken as a timing edge, and when its active time toggles the polarity, source 162 counts and
its other edge is taken too; while PPS is not the source a pulse changes nothing. The error estimate is brought up to date at the next millisecond.
PPS_OUT pulses at the next whole second plus its offset in mode 2, and in mode 1 while ALIGNED. Rests on R371, R372, R374, R377, R378, R384. -/
def Obligations.StationTimeReadsAndLoss : Prop :=
  (∀ (fn : Fn) (s : State), BarOpen fn s → Does (.timNowNsRead fn) s fun t =>
    t = { s with time := { s.time with latchedSec := s.time.q / qSecond }, out := .readData fn (s.time.q % qSecond) :: s.out }) ∧
  (∀ (source : Bool) (s : State), s.time.source ≠ source → s.time.state = .aligned → Does (.timeSourceChange source) s fun t =>
    t.time = { s.time with source := source, state := .holdover } ∧
    (t.flt.sources[(163 : Fin 320)]).events = (s.flt.sources[(163 : Fin 320)]).events + 1 ∧
    t = { s with time := t.time, flt := { s.flt with sources := t.flt.sources } }) ∧
  (∀ (source : Bool) (s : State), s.time.source ≠ source → s.time.state ≠ .aligned → Does (.timeSourceChange source) s fun t =>
    t = { s with time := { s.time with source := source } }) ∧
  (∀ s : State, s.time.state = .aligned → Does .ppsLoss s fun t =>
    t.time.state = .holdover ∧ t.time.mono = max s.time.mono (s.time.lastEdge + 4400000000) ∧
    (t.flt.sources[(163 : Fin 320)]).events = (s.flt.sources[(163 : Fin 320)]).events + 1 ∧
    t = { elapse (s.time.lastEdge + 4400000000 - s.time.mono) s with time := t.time, flt := { s.flt with sources := t.flt.sources } }) ∧
  (∀ (capture width active : Nat) (s : State), s.time.source = false → width < 100 → Does (.ppsEdge capture width active) s fun t =>
    t.time.strays = min 255 (s.time.strays + 1) ∧ t.time.q = max s.time.q capture ∧ t.time.step = s.time.step ∧ t.time.state = s.time.state ∧
    t.time.lastEdge = s.time.lastEdge ∧ t = { advanceTo capture s with time := t.time, flt := { s.flt with sources := t.flt.sources } }) ∧
  (∀ (capture width active : Nat) (u : StationTime) (s : State), s.time.source = false → 100 ≤ width →
    judgePolarity active (takeEdge capture s.time.ppsDelay .ppsAlign (onTime (fun t => { t with linkAccuracy := none }) (advanceTo capture s))).time = (u, false) →
    exec (.ppsEdge capture width active) s = .next (onTime (fun _ => u)
      (takeEdge capture s.time.ppsDelay .ppsAlign (onTime (fun t => { t with linkAccuracy := none }) (advanceTo capture s))))) ∧
  (∀ s : State, Does .errorUpdate s fun t =>
    t.time.q = ceilTo 4000000 s.time.q ∧ t.time.estimate = estimateOf (advanceTo (ceilTo 4000000 s.time.q) s).time) ∧
  (∀ s : State, s.time.outMode = 2 → Does .ppsOutPulse s fun t =>
    t = { advanceTo (nextSecond s.time.outOffset s.time.q) s with out := .ppsPulse s.time.outPolarity s.time.outWidth :: s.out }) ∧
  (∀ (capture width active : Nat) (u : StationTime) (s : State), s.time.source = false → 100 ≤ width →
    judgePolarity active (takeEdge capture s.time.ppsDelay .ppsAlign (onTime (fun t => { t with linkAccuracy := none }) (advanceTo capture s))).time = (u, true) →
    Does (.ppsEdge capture width active) s fun t =>
      t = takeEdge (capture + 4 * active) u.ppsDelay .ppsAlign (advanceTo (capture + 4 * active) (raise 162 0 0 (onTime (fun _ => u)
        (takeEdge capture s.time.ppsDelay .ppsAlign (onTime (fun t => { t with linkAccuracy := none }) (advanceTo capture s))))))) ∧
  (∀ (capture width active : Nat) (s : State), s.time.source = true → exec (.ppsEdge capture width active) s = .next s) ∧
  (∀ s : State, s.time.outMode = 1 → s.time.state = .aligned → Does .ppsOutPulse s fun t =>
    t = { advanceTo (nextSecond s.time.outOffset s.time.q) s with out := .ppsPulse s.time.outPolarity s.time.outWidth :: s.out })

/-- O25. TIME_SET with valid parameters on a part that is not ALIGNED and has no step pending decides, in mode 0, that the counter takes the given
value at the first epoch strobe after it, and in mode 2 that it moves by the given amount; in mode 0 on an ALIGNED part it completes BUSY_OWNED. In
mode 1 it keeps the seconds for the next edge, and seconds that waited before it are SUPERSEDED. A decided step moves the counter to its value at its
strobe and gives station time its new state; the monotonic count passes by the time to the strobe alone. A mode 1 that finds no edge ends with
TIMEOUT. Rests on R379, R380, R381, R383. -/
def Obligations.StationTimeIsSet : Prop :=
  (∀ (d : Desc) (s : State), Runs 0x08 d s → timeSetCheck d = none → d.u 12 1 = 0 → s.time.state ≠ .aligned → s.time.step = none →
    exec (.timeSet d) s = .next { startCommand d s with time := { s.time with
      step := some (setStep (issueOf 0x08 d s) (d.u 20 6 * qSecond + d.u 16 4) (d.u 28 4) s) } }) ∧
  (∀ (d : Desc) (s : State), Runs 0x08 d s → timeSetCheck d = none → d.u 12 1 = 0 → s.time.state = .aligned →
    exec (.timeSet d) s = .next (refuse (issueOf 0x08 d s) (refusal .busyOwned) (startCommand d s))) ∧
  (∀ (d : Desc) (s : State), Runs 0x08 d s → timeSetCheck d = none → d.u 12 1 = 1 →
    exec (.timeSet d) s = .next (completeOpt (s.time.seconds.map (·.issue)) .superseded { startCommand d s with time := { s.time with
      seconds := some { seconds := d.u 20 6, issue := issueOf 0x08 d s } } })) ∧
  (∀ (p : PendingSeconds) (s : State), s.time.seconds = some p →
    exec .timeSetTimeout s = .next (refuse p.issue (refusal .timeout) { s with time := { s.time with seconds := none } })) ∧
  (∀ (p : PendingStep) (s : State), s.time.step = some p → s.time.q ≤ p.strobe → Does .timeStep s fun t =>
    t.time.q = p.toValue.getD (shiftTime p.strobe p.delta) ∧ t.time.state = p.newState ∧ t.time.step = none ∧
    t.time.mono = s.time.mono + (p.strobe - s.time.q) ∧
    t.time.epoch = (if epochMoves ((p.toValue.getD (shiftTime p.strobe p.delta) : Nat) - (p.strobe : Int)) then (s.time.epoch + 1) % 65536 else s.time.epoch)) ∧
  (∀ (d : Desc) (s : State), Runs 0x08 d s → timeSetCheck d = none → d.u 12 1 = 2 → s.time.state ≠ .aligned → s.time.step = none →
    0 ≤ ((stepStrobe s.tdd (d.s 16 8) s.now : Nat) : Int) + d.s 16 8 →
    exec (.timeSet d) s = .next { startCommand d s with time := { s.time with
      step := some (relStep (issueOf 0x08 d s) (d.s 16 8) (d.u 28 4) s) } })

/-- O26. A TDD_PATTERN_SET with a valid entry waits for its timer: its instant is the one asked for, but at least 1 ms away. A timer with a pattern
and no change waiting starts its next period and is Running with that pattern; one in the gap before a new pattern is Running with it at that
pattern's first period start from the change's instant on. A pair whose timer runs switches at its next switching instant to the side that the pattern
gives it there, and no other pair does. Rests on R388, R390, R391, R392, R393. -/
def Obligations.TddTiming : Prop :=
  (∀ (d : Desc) (bs : List Byte) (i : Fin 8) (p : Pattern) (s : State), Runs 0x09 d s → d.bytes = some bs → patternSetCheck d bs s = none →
    patternOf bs = some (i, p) → Does (.tddPatternSet d) s fun t =>
      (t.tdd.timers[i]).change = some { pattern := some p, x := max (instantOrNow (d.u 24 8) s) (s.now + 4000000), issue := some (issueOf 0x09 d s) } ∧
      (∀ j : Fin 8, j ≠ i → t.tdd.timers[j] = s.tdd.timers[j]) ∧ t.tdd.pairs = s.tdd.pairs ∧ t.time = s.time) ∧
  (∀ (i : Fin 8) (p : Pattern) (s : State), (s.tdd.timers[i]).incoming = none → (s.tdd.timers[i]).pattern = some p → (s.tdd.timers[i]).change = none →
    Does (.patternPeriodStart i) s fun t =>
      (t.tdd.timers[i]).state = .running ∧ (t.tdd.timers[i]).pattern = some p ∧
      t.time.q = max s.time.q (nextStart p s.now)) ∧
  (∀ (pair : Fin 32) (x : Nat) (s : State), nextSwitch pair s = some x → Does (.tddSwitch pair) s fun t =>
    (t.tdd.pairs[pair]).transmitting = transmitPhase pair x (advanceTo x s) ∧ (∀ m : Fin 32, m ≠ pair → t.tdd.pairs[m] = s.tdd.pairs[m]) ∧
    t.tdd.timers = s.tdd.timers ∧ t.time.q = max s.time.q x ∧ t.slices = s.slices ∧ t.cfg = s.cfg) ∧
  (∀ (i : Fin 8) (c : PatternChange) (p : Pattern) (s : State), (s.tdd.timers[i]).incoming = some c → c.pattern = some p →
    Does (.patternPeriodStart i) s fun t =>
      (t.tdd.timers[i]).state = .running ∧ (t.tdd.timers[i]).pattern = some p ∧ (t.tdd.timers[i]).incoming = none ∧
      t.time.q = max s.time.q (nextStart p (max s.now c.x)))

/-- O27. A TDD_INFER with valid parameters starts one observation of its slice, with 200 ms and 1 µs where its fields are 0. An observation that ends
with a proposal that is a valid pattern publishes it; with no proposal it leaves none, and completes the command that asked for it TIMEOUT; either way
no observation is left running. The interval of a timer starts a periodic observation when none runs and its slice can be observed. Rests on R395,
R396, R397, R398. -/
def Obligations.PatternInference : Prop :=
  (∀ (d : Desc) (sl : SliceId) (i : Fin 8) (s : State), Runs 0x0A d s → inferCheck d s = none → d.unit .slice 256 = some sl → finOf 8 (d.u 12 1) = some i →
    let x : Inference :=
      { issue := some (issueOf 0x0A d s), slice := sl, timer := i, gap := if d.u 16 2 = 0 then 1000 else d.u 16 2
        observe := if d.u 14 2 = 0 then 200 else d.u 14 2, start := none, bins := [] }
    exec (.tddInfer d) s = .next { startCommand d s with tdd := { s.tdd with infer := some x } }) ∧
  (∀ (i : Fin 8) (p : Pattern) (s : State), (s.tdd.timers[i]).pattern = some p → p.inferInterval ≠ 0 → s.tdd.infer = none →
    observable p.inferSlice s = true → Does (.inferInterval i) s fun t =>
      t = { s with tdd := { s.tdd with infer := some { issue := none, slice := p.inferSlice, timer := i, gap := 1000, observe := 200, start := none, bins := [] } } }) ∧
  (∀ (x : Inference) (s : State), s.tdd.infer = some x →
    inferProposal x.timer x.gap (inferBin (((liveDef x.slice s).map (·.k)).getD 0)) (x.start.getD 0 / 4) x.bins.reverse = none → x.issue = none →
    Does .inferDone s fun t => t = { s with tdd := { s.tdd with infer := none, proposal := none } }) ∧
  (∀ (x : Inference) (y : Proposal) (s : State), s.tdd.infer = some x →
    inferProposal x.timer x.gap (inferBin (((liveDef x.slice s).map (·.k)).getD 0)) (x.start.getD 0 / 4) x.bins.reverse = some y →
    patternValid { period := y.period, offset := y.offset, segs := y.segs, autoAdopt := false, inferSlice := 0, inferInterval := 0 }
      (timerSwitch x.timer s) = true →
    Does .inferDone s fun t => t.tdd.proposal = some y ∧ t.tdd.infer = none ∧ t.time = s.time) ∧
  (∀ (x : Inference) (i : Issue) (s : State), s.tdd.infer = some x →
    inferProposal x.timer x.gap (inferBin (((liveDef x.slice s).map (·.k)).getD 0)) (x.start.getD 0 / 4) x.bins.reverse = none → x.issue = some i →
    exec .inferDone s = .next (refuse i (refusal .timeout) { s with tdd := { s.tdd with infer := none, proposal := none } }))

/-- O28. A RADIO_STATE that passes its checks gives an RX or TX port that is in no TDD pair its target, and changes the radio of no other RX or TX
port; it gives both ports of a pair their targets, where Receive keeps the TX port in SynthOn; and it sets the floor of a tile, and changes no other
tile. A port of a tile that is high enough reaches its target, and a tile reaches the state that its floor and ports call for. An entry to SynthOn
that fails leaves the tile in Standby and counts an event of source 88; a request that waits for lock past lock_timeout leaves its port with target
SynthOn and no command. None of these touches the slices. Rests on R178, R184, R197, R198, R199, R200, R203, R204, R206. -/
def Obligations.RadioStates : Prop :=
  (∀ (d : Desc) (p : Fin 32) (s : State), Runs 0x10 d s → radioUnit d.tgt = some (.rx p) → isPair p s = false →
    radioChecks (.rx p) (d.byte 12) (d.byte 13) s = none →
    firstFail [d.strayCheck [(12, 2)], (d.byte 12 == 4 && (thawing s || anyCritical s), refuseTarget .tempRange d.tgt)] = none →
    Does (.radioState d) s fun t =>
      ((t.tiles.rx[p]).radio).target = portCode (d.byte 12) ∧ (∀ q : Fin 32, q ≠ p → (t.tiles.rx[q]).radio = (s.tiles.rx[q]).radio) ∧
      (∀ q : Fin 32, (t.tiles.tx[q]).radio = (s.tiles.tx[q]).radio) ∧ t.time = s.time ∧ t.slices = s.slices ∧ t.cfg = s.cfg) ∧
  (∀ (p : Fin 32) (s : State), ((s.tiles.rx[p]).radio).state ≠ ((s.tiles.rx[p]).radio).target →
    mayReach (.rx p) (nextState ((s.tiles.rx[p]).radio).state ((s.tiles.rx[p]).radio).target) s = true →
    mayReach (.rx p) ((s.tiles.rx[p]).radio).target s = true →
    Does (.radioTransitionDone (.rx p)) s fun t =>
      ((t.tiles.rx[p]).radio).state = ((s.tiles.rx[p]).radio).target ∧ t.slices = s.slices) ∧
  (∀ (i : Fin 4) (s : State), (s.tiles.tile[i]).relock = false → (s.tiles.tile[i]).standbyCal = none →
    Does (.radioTransitionDone (.tile i)) s fun t => (t.tiles.tile[i]).state = tileNeed i s ∧ t.time = s.time ∧ t.slices = s.slices) ∧
  (∀ (i : Fin 4) (s : State), (s.tiles.tile[i]).state ≠ .synthOn → ((s.tiles.tile[i]).relock = true ∨ tileNeed i s = .synthOn) →
    Does (.tileLockFail i) s fun t =>
    (t.tiles.tile[i]).state = .standby ∧ (t.tiles.tile[i]).relock = false ∧
    (t.flt.sources[(88 : Fin 320)]).events = (s.flt.sources[(88 : Fin 320)]).events + 1 ∧ t.time = s.time ∧ t.slices = s.slices) ∧
  (∀ (p : Fin 32) (s : State), isPair p s = false → ((s.tiles.rx[p]).radio).issue.isSome = true → ((s.tiles.rx[p]).radio).target = .active →
    (s.tiles.tile[tileOf p]).relock = true → Does (.lockTimeout (.rx p)) s fun t =>
      ((t.tiles.rx[p]).radio).target = .synthOn ∧ ((t.tiles.rx[p]).radio).issue = none ∧
      (∀ q : Fin 32, q ≠ p → (t.tiles.rx[q]).radio = (s.tiles.rx[q]).radio) ∧ t.slices = s.slices) ∧
  (∀ (d : Desc) (p : Fin 32) (s : State), Runs 0x10 d s → radioUnit d.tgt = some (.tx p) → isPair p s = false →
    radioChecks (.tx p) (d.byte 12) (d.byte 13) s = none →
    firstFail [d.strayCheck [(12, 2)], (d.byte 12 == 4 && (thawing s || anyCritical s), refuseTarget .tempRange d.tgt)] = none →
    Does (.radioState d) s fun t =>
      ((t.tiles.tx[p]).radio).target = portCode (d.byte 12) ∧ (∀ q : Fin 32, q ≠ p → (t.tiles.tx[q]).radio = (s.tiles.tx[q]).radio) ∧
      (∀ q : Fin 32, (t.tiles.rx[q]).radio = (s.tiles.rx[q]).radio) ∧ t.time = s.time ∧ t.slices = s.slices ∧ t.cfg = s.cfg) ∧
  (∀ (d : Desc) (p : Fin 32) (s : State), Runs 0x10 d s → (radioUnit d.tgt = some (.rx p) ∨ radioUnit d.tgt = some (.tx p)) → isPair p s = true →
    radioChecks (.rx p) (d.byte 12) (d.byte 13) s = none →
    firstFail [d.strayCheck [(12, 2)], (d.byte 12 == 4 && (thawing s || anyCritical s), refuseTarget .tempRange d.tgt)] = none →
    Does (.radioState d) s fun t =>
      ((t.tiles.rx[p]).radio).target = portCode (d.byte 12) ∧
      ((t.tiles.tx[p]).radio).target = (if d.byte 12 = 3 then .synthOn else portCode (d.byte 12)) ∧ t.time = s.time ∧ t.slices = s.slices) ∧
  (∀ (d : Desc) (i : Fin 4) (s : State), Runs 0x10 d s → radioUnit d.tgt = some (.tile i) → radioChecks (.tile i) (d.byte 12) (d.byte 13) s = none →
    firstFail [d.strayCheck [(12, 2)], (d.byte 12 == 4 && (thawing s || anyCritical s), refuseTarget .tempRange d.tgt)] = none →
    Does (.radioState d) s fun t =>
      (t.tiles.tile[i]).floor = tileOfRank (d.byte 12) ∧ (∀ j : Fin 4, j ≠ i → t.tiles.tile[j] = s.tiles.tile[j]) ∧
      t.time = s.time ∧ t.slices = s.slices) ∧
  (∀ (p : Fin 32) (s : State), ((s.tiles.tx[p]).radio).state ≠ ((s.tiles.tx[p]).radio).target →
    mayReach (.tx p) (nextState ((s.tiles.tx[p]).radio).state ((s.tiles.tx[p]).radio).target) s = true →
    mayReach (.tx p) ((s.tiles.tx[p]).radio).target s = true →
    Does (.radioTransitionDone (.tx p)) s fun t =>
      ((t.tiles.tx[p]).radio).state = ((s.tiles.tx[p]).radio).target ∧ t.slices = s.slices) ∧
  (∀ (p : Fin 32) (s : State), isPair p s = false → ((s.tiles.tx[p]).radio).issue.isSome = true → ((s.tiles.tx[p]).radio).target = .active →
    (s.tiles.tile[tileOf p]).relock = true → Does (.lockTimeout (.tx p)) s fun t =>
      ((t.tiles.tx[p]).radio).target = .synthOn ∧ ((t.tiles.tx[p]).radio).issue = none ∧
      (∀ q : Fin 32, q ≠ p → (t.tiles.tx[q]).radio = (s.tiles.tx[q]).radio) ∧ t.slices = s.slices)

/-- O29. TILE_RESET with its key, while no wider reset holds the part, puts the tile and all its ports in Sleep, records its cause, marks the tile as
down by reset, and leaves the other tiles, station time, the slices and the configuration alone; with another key it only counts in HIF_ACCESS_DROP
and on source 5. A tile in SynthOn whose active synthesiser loses lock drops to Standby with its queues poisoned, to lock again on the twin exactly
when that is locked and not Failed. A relock, unless a calibration runs in Standby, makes the twin the active synthesiser of a tile in SynthOn.
Neither touches another tile or station time. Rests on R100, R118, R178. -/
def Obligations.TilesResetAndRelock : Prop :=
  (∀ (i : Fin 4) (s : State), BarOpen 0 s → s.boot.heldBy = .nothing → Does (.tileReset i 0x6144) s fun t =>
    (t.tiles.tile[i]).state = .sleep ∧ (t.tiles.tile[i]).floor = .sleep ∧ (t.tiles.tile[i]).resetDown = true ∧
    t.boot.cause = s.boot.cause ||| BitVec.twoPow 10 (6 + i.val) ∧ (∀ j : Fin 4, j ≠ i → t.tiles.tile[j] = s.tiles.tile[j]) ∧
    (∀ p : Fin 32, tileOf p = i → ((t.tiles.rx[p]).radio).state = .sleep ∧ ((t.tiles.tx[p]).radio).state = .sleep) ∧
    t.time = s.time ∧ t.slices = s.slices ∧ t.cfg = s.cfg) ∧
  (∀ (i : Fin 4) (s : State), (s.tiles.tile[i]).state = .synthOn → Does (.synthLockLost i) s fun t =>
    (t.tiles.tile[i]).state = .standby ∧ (t.tiles.tile[i]).poisoned = true ∧
    (t.tiles.tile[i]).relock =
      (((s.tiles.tile[i]).syn[twinOf s.tiles.tile[i]]).locked && !hasFailed ((s.tiles.tile[i]).syn[twinOf s.tiles.tile[i]])) ∧
    (∀ j : Fin 4, j ≠ i → t.tiles.tile[j] = s.tiles.tile[j]) ∧ t.time = s.time) ∧
  (∀ (i : Fin 4) (s : State), (s.tiles.tile[i]).relock = true → (s.tiles.tile[i]).standbyCal = none → Does (.tileRelock i) s fun t =>
    (t.tiles.tile[i]).state = .synthOn ∧ (t.tiles.tile[i]).active = twinOf s.tiles.tile[i] ∧ (t.tiles.tile[i]).relock = false ∧
    (∀ j : Fin 4, j ≠ i → t.tiles.tile[j] = s.tiles.tile[j]) ∧ t.time = s.time) ∧
  (∀ (i : Fin 4) (key : Half) (s : State), BarOpen 0 s → key ≠ 0x6144 → Does (.tileReset i key) s fun t =>
    (t.hif.fns[(0 : Fn)]).accessDrop = min 0xFFFFFFFF ((s.hif.fns[(0 : Fn)]).accessDrop + 1) ∧
    (t.flt.sources[(5 : Fin 320)]).events = (s.flt.sources[(5 : Fin 320)]).events + 1 ∧ restKept s t)

/-- O30. The spare rotates on a port in SynthOn or above whose spare is not in use, a correction that has not converged counts an error of its tile, a
peak that the port holds at or below the threshold sets overrange and nothing else of the port, a load fault on a port whose output is not off sets
its bit, counts an error of its tile and mutes a port that REFLECTED protects, a self-test that passes ends and leaves the tiles as they were, one of
an RX port with one failed sub-converter takes the spare into use, a queue that is above its aligned value by more than one entry has its error set
and counts an error of its tile, and reading the peak returns the word and puts the peak back to 255. A residue mismatch of a DDC or DUC whose spare
is free counts on source 304 when its recompute passes and on 305 when not, and one whose spare is held counts on 305; a mismatch in the chain of a
live slice counts on 101 when it is corrected and on 102 when not. Rests on R160, R162, R190, R191, R192, R194, R195, R264, R265, R266, R269, R580. -/
def Obligations.PortEvents : Prop :=
  (∀ (p : Fin 32) (n : Fin 17) (converged : Bool) (s : State), (s.tiles.rx[p]).spareInUse = false → 2 ≤ portRank (s.tiles.rx[p]).radio.state →
    Does (.spareRotation p n converged) s fun t =>
      (t.tiles.rx[p]).spare = n ∧ (t.tiles.rx[p]).converged = (if (s.tiles.rx[p]).calFreeze then (s.tiles.rx[p]).converged else converged) ∧
      (∀ q : Fin 32, q ≠ p → t.tiles.rx[q] = s.tiles.rx[q]) ∧ t = { s with tiles := { s.tiles with rx := t.tiles.rx } }) ∧
  (∀ (p : Fin 32) (s : State), (s.tiles.rx[p]).converged = false → Does (.correctionTimeout p) s fun t =>
    (t.flt.sources[tileSource (tileOf p) 5]).events = (s.flt.sources[tileSource (tileOf p) 5]).events + 1 ∧
    t = { s with flt := { s.flt with sources := t.flt.sources } }) ∧
  (∀ (p : Fin 32) (s : State), (s.tiles.rx[p]).peak ≤ (s.tiles.rx[p]).ovrThresh → Does (.rxOverrange p) s fun t =>
    t.tiles.rx[p] = { s.tiles.rx[p] with overrange := true } ∧ (∀ q : Fin 32, q ≠ p → t.tiles.rx[q] = s.tiles.rx[q]) ∧
    t = { s with tiles := { s.tiles with rx := t.tiles.rx }, evr := t.evr, pmc := t.pmc }) ∧
  (∀ (p : Fin 32) (s : State), (s.tiles.tx[p]).loadCheck = true → (s.tiles.tx[p]).output ≠ .off → (s.nps.port[p]).reflectedEnable = true →
    (s.nps.port[p]).reflected = false → Does (.loadFault p) s fun t =>
      (t.tiles.tx[p]).loadFault = true ∧ (t.nps.port[p]).reflected = true ∧
      (t.flt.sources[tileSource (tileOf p) 3]).events = (s.flt.sources[tileSource (tileOf p) 3]).events + 1 ∧ t.slices = s.slices ∧ t.time = s.time) ∧
  (∀ (p : Fin 32) (x : SelfTest) (s : State), testOf .rxPort p s = some x → Does (.portSelftestDone (.rx p) 0 false) s fun t =>
    testOf .rxPort p t = none ∧ (∃ l, t.flt.stLast = some l ∧ l.pass = true) ∧ t.tiles = s.tiles ∧ t.slices = s.slices) ∧
  (∀ (p : Fin 32) (occ : Fin 33) (s : State), (s.tiles.tile[tileOf p]).queueAligned = true → (s.dfe.queue[p]).rxAligned + 1 < occ.val →
    Does (.queueAlignmentError p false occ) s fun t =>
      (t.dfe.queue[p]).rxError = true ∧ (t.dfe.queue[p]).rxOcc = occ.val ∧ (∀ q : Fin 32, q ≠ p → t.dfe.queue[q] = s.dfe.queue[q]) ∧
      (t.flt.sources[tileSource (tileOf p) 0]).events = (s.flt.sources[tileSource (tileOf p) 0]).events + 1 ∧
      t = { s with dfe := { s.dfe with queue := t.dfe.queue }, flt := { s.flt with sources := t.flt.sources } }) ∧
  (∀ (p : Fin 32) (s : State), BarOpen 0 s → Does (.peakRead p) s fun t =>
    (t.tiles.rx[p]).peak = 255 ∧ t.out = .readData 0 (rxStatusWord s.tiles.rx[p]) :: s.out ∧ (∀ q : Fin 32, q ≠ p → t.tiles.rx[q] = s.tiles.rx[q]) ∧
    t = { s with tiles := { s.tiles with rx := t.tiles.rx }, out := t.out }) ∧
  (∀ (m : Fin 32) (stage : Nat) (index : Fin 32) (ok : Bool) (s : State), s.sig.spareDdc[tileOf m] ≤ s.time.mono →
    Does (.residueMismatch (.ddc m) stage index ok) s fun t =>
      (t.flt.sources[(if ok then 304 else 305 : Fin 320)]).events = (s.flt.sources[(if ok then 304 else 305 : Fin 320)]).events + 1 ∧
      t.dfe.residue[tileOf m] = countResidue false ok false s.dfe.residue[tileOf m] ∧
      (∀ i : Fin 4, i ≠ tileOf m → t.dfe.residue[i] = s.dfe.residue[i]) ∧ t.tiles = s.tiles ∧ t.slices = s.slices ∧ t.time = s.time) ∧
  (∀ (m : Fin 32) (stage : Nat) (index : Fin 32) (ok : Bool) (s : State), s.time.mono < s.sig.spareDdc[tileOf m] →
    Does (.residueMismatch (.ddc m) stage index ok) s fun t =>
      (t.flt.sources[(305 : Fin 320)]).events = (s.flt.sources[(305 : Fin 320)]).events + 1 ∧
      t.dfe.residue[tileOf m] = countResidue false false true s.dfe.residue[tileOf m] ∧ t.tiles = s.tiles ∧ t.slices = s.slices ∧ t.time = s.time) ∧
  (∀ (m : Fin 32) (stage : Nat) (index : Fin 32) (ok : Bool) (s : State), s.sig.spareDuc[tileOf m] ≤ s.time.mono →
    Does (.residueMismatch (.duc m) stage index ok) s fun t =>
      (t.flt.sources[(if ok then 304 else 305 : Fin 320)]).events = (s.flt.sources[(if ok then 304 else 305 : Fin 320)]).events + 1 ∧
      t.dfe.residue[tileOf m] = countResidue true ok false s.dfe.residue[tileOf m] ∧ t.tiles = s.tiles ∧ t.slices = s.slices ∧ t.time = s.time) ∧
  (∀ (sl : SliceId) (path : PathId) (stage : Nat) (index : Fin 32) (ok : Bool) (d : SliceDef) (e : Fin 64) (s : State), liveDef sl s = some d →
    ((s.plc.placed[sl]).live).bind (·.engines.head?) = some e → s.sig.spareEngine[e] ≤ s.time.mono →
    Does (.residueMismatch (.engine sl path) stage index ok) s fun t =>
      (t.flt.sources[(if ok then 101 else 102 : Fin 320)]).events = (s.flt.sources[(if ok then 101 else 102 : Fin 320)]).events + 1 ∧
      t = { s with sig := t.sig, pmc := t.pmc, flt := { s.flt with sources := t.flt.sources } }) ∧
  (∀ (p : Fin 32) (occ : Fin 33) (s : State), (s.tiles.tile[tileOf p]).queueAligned = true → (s.dfe.queue[p]).txAligned + 1 < occ.val →
    Does (.queueAlignmentError p true occ) s fun t =>
      (t.dfe.queue[p]).txError = true ∧ (t.dfe.queue[p]).txOcc = occ.val ∧ (∀ q : Fin 32, q ≠ p → t.dfe.queue[q] = s.dfe.queue[q]) ∧
      (t.flt.sources[tileSource (tileOf p) 0]).events = (s.flt.sources[tileSource (tileOf p) 0]).events + 1 ∧
      t = { s with dfe := { s.dfe with queue := t.dfe.queue }, flt := { s.flt with sources := t.flt.sources } }) ∧
  (∀ (p : Fin 32) (x : SelfTest) (s : State), testOf .rxPort p s = some x → (s.tiles.rx[p]).spareInUse = false →
    Does (.portSelftestDone (.rx p) 1 false) s fun t =>
      testOf .rxPort p t = none ∧ (t.tiles.rx[p]).spareInUse = true ∧ (∀ q : Fin 32, q ≠ p → t.tiles.rx[q] = s.tiles.rx[q]) ∧ t.slices = s.slices) ∧
  (∀ (p : Fin 32) (x : SelfTest) (s : State), testOf .txPort p s = some x → Does (.portSelftestDone (.tx p) 0 false) s fun t =>
    testOf .txPort p t = none ∧ (∃ l, t.flt.stLast = some l ∧ l.pass = true) ∧ t.tiles = s.tiles ∧ t.slices = s.slices)

/-- O31. SYNTH_CAL in Standby, with no work pending, calibrates the named synthesiser; the end stores its calibration at the zone's value and makes it
the active one. In SynthOn, with no work pending and a twin that is not Failed, SYNTH_CAL and SYNTH_HANDOVER, at once or at an instant at least 20 ms
away, each start the preparation of the twin; so does a temperature trigger with auto_cal set, which without auto_cal sets cal_overdue. A preparation
that starts on a twin that is not prepared already calibrates it. One that ends leaves the twin locked and prepared with the calibration it took; a
handover then waits for its boundary, and a preparation without one is over. A twin whose preparation fails is off, to be retried 100 ms later, and at
the third failure in a row it is Failed with no retry. A retry prepares the twin again in the background. Rests on R172, R173, R177, R179, R180, R181,
R182. -/
def Obligations.SynthesiserPreparation : Prop :=
  (∀ (d : Desc) (i : Fin 4) (y : Fin 2) (s : State), Runs 0x11 d s → synthUnit d.tgt = some (i, y) → (s.tiles.tile[i]).state = .standby →
    d.byte 12 ≤ 1 → firstFail [d.strayCheck [(12, 1)]] = none → synthBusy i s = false → Does (.synthCal d) s fun t =>
      ((t.tiles.tile[i]).syn[y]).state = .calibrating ∧ (t.tiles.tile[i]).standbyCal = some { issue := issueOf 0x11 d s, syn := y } ∧
      (∀ j : Fin 4, j ≠ i → t.tiles.tile[j] = s.tiles.tile[j]) ∧ t.time = s.time) ∧
  (∀ (d : Desc) (i : Fin 4) (y : Fin 2) (s : State), Runs 0x11 d s → synthUnit d.tgt = some (i, y) → (s.tiles.tile[i]).state = .synthOn →
    d.byte 12 ≤ 1 → firstFail [d.strayCheck [(12, 1)]] = none → synthBusy i s = false → twinFailed i s = false →
    exec (.synthCal d) s = .next (startPrep i (y == (s.tiles.tile[i]).active || d.byte 12 == 1) (some (issueOf 0x11 d s)) none (y == (s.tiles.tile[i]).active) (startCommand d s))) ∧
  (∀ (d : Desc) (i : Fin 4) (s : State), Runs 0x12 d s → d.unit .tile 4 = some i → (s.tiles.tile[i]).state = .synthOn → d.u 12 8 = 0 →
    firstFail [d.strayCheck [(12, 8)]] = none → synthBusy i s = false → twinFailed i s = false →
    exec (.synthHandover d) s = .next (startPrep i true (some (issueOf 0x12 d s)) none false (startCommand d s))) ∧
  (∀ (i : Fin 4) (x : Nat) (s : State), (s.tiles.tile[i]).deltaSince = some x → (s.tiles.tile[i]).state = .synthOn → (s.tiles.tile[i]).autoCal = true →
    twinFailed i s = false → (s.tiles.tile[i]).prep = none →
    exec (.tempHandoverTrigger i) s = .next (startPrep i true none none false (advanceMono (x + dwellQ s.thm.zone[tileZone i]) s))) ∧
  (∀ (i : Fin 4) (handover again : Bool) (iss : Option Issue) (instant : Option Nat) (s : State), twinReady i s = false →
    let t := startPrep i handover iss instant again s
    (∃ p, (t.tiles.tile[i]).prep = some p ∧ p.handover = handover ∧ p.issue = iss ∧ p.step = .preparing) ∧
    ((t.tiles.tile[i]).syn[twinOf s.tiles.tile[i]]).state = .calibrating ∧ (∀ j : Fin 4, j ≠ i → t.tiles.tile[j] = s.tiles.tile[j])) ∧
  (∀ (i : Fin 4) (c : StandbyCal) (s : State), (s.tiles.tile[i]).standbyCal = some c → Does (.synthCalDone i) s fun t =>
    (t.tiles.tile[i]).active = c.syn ∧ (t.tiles.tile[i]).standbyCal = none ∧ ((t.tiles.tile[i]).syn[c.syn]).stored = true ∧
    ((t.tiles.tile[i]).syn[c.syn]).calTemp = zoneValue (tileZone i) s ∧ t.time = s.time) ∧
  (∀ (i : Fin 4) (p : Prep) (s : State), (s.tiles.tile[i]).prep = some p → p.step = .preparing → p.handover = true → Does (.twinPrepared i) s fun t =>
    ((t.tiles.tile[i]).syn[twinOf s.tiles.tile[i]]).prepared = true ∧ ((t.tiles.tile[i]).syn[twinOf s.tiles.tile[i]]).locked = true ∧
    ((t.tiles.tile[i]).syn[twinOf s.tiles.tile[i]]).calTemp = p.temp ∧ ((t.tiles.tile[i]).prep).map (·.step) = some .waiting ∧ t.time = s.time) ∧
  (∀ (i : Fin 4) (p : Prep) (s : State), (s.tiles.tile[i]).prep = some p → p.step ≠ .switched →
    ((s.tiles.tile[i]).syn[twinOf s.tiles.tile[i]]).failCount < 2 → Does (.twinFailed i) s fun t =>
      (t.tiles.tile[i]).prep = none ∧ (t.tiles.tile[i]).retryAt = some (s.time.mono + 400000000) ∧
      ((t.tiles.tile[i]).syn[twinOf s.tiles.tile[i]]).state = .off ∧ t.time = s.time) ∧
  (∀ (i : Fin 4) (p : Prep) (s : State), (s.tiles.tile[i]).prep = some p → p.step ≠ .switched →
    2 ≤ ((s.tiles.tile[i]).syn[twinOf s.tiles.tile[i]]).failCount → Does (.twinFailed i) s fun t =>
      (t.tiles.tile[i]).retryAt = none ∧ ((t.tiles.tile[i]).syn[twinOf s.tiles.tile[i]]).state = .failed ∧ t.time = s.time) ∧
  (∀ (i : Fin 4) (x : Nat) (s : State), (s.tiles.tile[i]).retryAt = some x → (s.tiles.tile[i]).prep = none → (s.tiles.tile[i]).state = .synthOn →
    Does (.twinRetry i) s fun t => (∃ p, (t.tiles.tile[i]).prep = some p ∧ p.handover = false ∧ p.issue = none) ∧ (t.tiles.tile[i]).retryAt = none ∧
      t.time.mono = max s.time.mono x) ∧
  (∀ (d : Desc) (i : Fin 4) (s : State), Runs 0x12 d s → d.unit .tile 4 = some i → (s.tiles.tile[i]).state = .synthOn → d.u 12 8 ≠ 0 →
    s.now + 80000000 ≤ instantOf s.now (d.u 12 8) → firstFail [d.strayCheck [(12, 8)]] = none → synthBusy i s = false → twinFailed i s = false →
    exec (.synthHandover d) s = .next (startPrep i true (some (issueOf 0x12 d s)) (some (instantOf s.now (d.u 12 8))) false (startCommand d s))) ∧
  (∀ (i : Fin 4) (x : Nat) (s : State), (s.tiles.tile[i]).deltaSince = some x → (s.tiles.tile[i]).state = .synthOn → (s.tiles.tile[i]).autoCal = false →
    Does (.tempHandoverTrigger i) s fun t =>
      t.tiles.tile[i] = { s.tiles.tile[i] with calOverdue := true } ∧ (∀ j : Fin 4, j ≠ i → t.tiles.tile[j] = s.tiles.tile[j])) ∧
  (∀ (i : Fin 4) (p : Prep) (s : State), (s.tiles.tile[i]).prep = some p → p.step = .preparing → p.handover = false → Does (.twinPrepared i) s fun t =>
    ((t.tiles.tile[i]).syn[twinOf s.tiles.tile[i]]).prepared = true ∧ ((t.tiles.tile[i]).syn[twinOf s.tiles.tile[i]]).locked = true ∧
    (t.tiles.tile[i]).prep = none ∧ t.time = s.time)

/-- O32. At the boundary of a prepared handover the twin becomes active, the old synthesiser idles locked, the handover count goes on by one modulo
2^16 and the boundary is stored; no other tile changes. 1 µs later the handover ends on the synthesiser it switched to, and a calibration that goes on
prepares the twin again. A band that a tile's zone declares upwards or downwards becomes the zone's band and loads the shadow table, unless the band
is forced; a pending table applies to the tile at its instant, or with TDD slices at the first strobe in a gap of every pattern bound to it, and its
RX ports, and no others, have to converge anew. Rests on R173, R174, R185, R186, R187. -/
def Obligations.HandoverAndBands : Prop :=
  (∀ (i : Fin 4) (p : Prep) (s : State), (s.tiles.tile[i]).prep = some p → p.step = .waiting →
    Does (.handoverBoundary i) s fun t =>
      (t.tiles.tile[i]).active = twinOf s.tiles.tile[i] ∧ (t.tiles.tile[i]).handoverCount = ((s.tiles.tile[i]).handoverCount + 1) % 65536 ∧
      (t.tiles.tile[i]).handoverTime = stampOf p.boundary ∧ ((t.tiles.tile[i]).syn[twinOf s.tiles.tile[i]]).state = .active ∧
      ((t.tiles.tile[i]).syn[(s.tiles.tile[i]).active]).state = .idleLocked ∧
      ((t.tiles.tile[i]).prep).map (·.step) = some .switched ∧ t.time.q = max s.time.q p.boundary ∧
      (∀ j : Fin 4, j ≠ i → t.tiles.tile[j] = s.tiles.tile[j])) ∧
  (∀ (i : Fin 4) (p : Prep) (step : Int) (s : State), (s.tiles.tile[i]).prep = some p → p.step = .switched → p.again = false →
    Does (.handoverRecord i step) s fun t =>
      (t.tiles.tile[i]).prep = none ∧ (t.tiles.tile[i]).active = (s.tiles.tile[i]).active ∧ t.time.q = max s.time.q (p.boundary + 4000) ∧
      (∀ j : Fin 4, j ≠ i → t.tiles.tile[j] = s.tiles.tile[j])) ∧
  (∀ (i : Fin 4) (b x : Nat) (k : Fin 4) (s : State), (s.thm.zone[tileZone i]).band = some b → finOf 4 b = some k →
    (s.thm.zone[tileZone i]).timers.bands[k] = some x → (s.tiles.tile[i]).forceEnable = false →
    Does (.bandDeclared (tileZone i) true) s fun t =>
      (t.thm.zone[tileZone i]).band = some (b + 1) ∧ (t.tiles.tile[i]).applyPending = true ∧ (t.tiles.tile[i]).appliedBand = (s.tiles.tile[i]).appliedBand) ∧
  (∀ (i : Fin 4) (s : State), (s.tiles.tile[i]).applyPending = true → tileTdd i s = false → Does (.bandTableApply i) s fun t =>
    (t.tiles.tile[i]).applyPending = false ∧ (t.tiles.tile[i]).appliedBand = wantedBand i s ∧ t.time.q = max s.time.q (s.tiles.tile[i]).applyAt ∧
    (∀ p : Fin 32, tileOf p = i → (t.tiles.rx[p]).converged = false) ∧
    (∀ p : Fin 32, tileOf p ≠ i → (t.tiles.rx[p]).converged = (s.tiles.rx[p]).converged)) ∧
  (∀ (i : Fin 4) (p : Prep) (step : Int) (s : State), (s.tiles.tile[i]).prep = some p → p.step = .switched → p.again = true →
    Does (.handoverRecord i step) s fun t =>
      (∃ y, (t.tiles.tile[i]).prep = some y ∧ y.handover = false ∧ y.issue = none) ∧ (t.tiles.tile[i]).active = (s.tiles.tile[i]).active ∧
      (∀ j : Fin 4, j ≠ i → t.tiles.tile[j] = s.tiles.tile[j])) ∧
  (∀ (i : Fin 4) (b x : Nat) (k : Fin 4) (s : State), (s.thm.zone[tileZone i]).band = some (b + 1) → finOf 4 b = some k →
    (s.thm.zone[tileZone i]).timers.bands[k] = some x → (s.tiles.tile[i]).forceEnable = false →
    Does (.bandDeclared (tileZone i) false) s fun t =>
      (t.thm.zone[tileZone i]).band = some b ∧ (t.tiles.tile[i]).applyPending = true ∧ (t.tiles.tile[i]).appliedBand = (s.tiles.tile[i]).appliedBand) ∧
  (∀ (i : Fin 4) (b x : Nat) (k : Fin 4) (s : State), (s.thm.zone[tileZone i]).band = some b → finOf 4 b = some k →
    (s.thm.zone[tileZone i]).timers.bands[k] = some x → (s.tiles.tile[i]).forceEnable = true →
    Does (.bandDeclared (tileZone i) true) s fun t => (t.thm.zone[tileZone i]).band = some (b + 1) ∧ t.tiles.tile = s.tiles.tile) ∧
  (∀ (i : Fin 4) (x : Nat) (s : State), (s.tiles.tile[i]).applyPending = true → tileTdd i s = true →
    gapStrobe (tilePatterns i s) 1875000 (strobeAt s.now) = some x → Does (.bandTableApply i) s fun t =>
    (t.tiles.tile[i]).applyPending = false ∧ (t.tiles.tile[i]).appliedBand = wantedBand i s ∧ t.time.q = max s.time.q x)

/-- O33. A fault input in use that shows a fault or a mismatch is stored, marks the link faulty, holds it when its fault_action says so and makes its
error source assert; one that shows none, or is not in use, is stored, leaves the hold and ends the source's condition. A shorted strobe is stored
with its direction, and on TXEN or PAEN holds the link. A shorted bus stops and discards the commands that wait, counts those of bias channels and the
mailbox, and ends a busy mailbox with a bus fault; it resumes when its read-back agrees, and stays stopped when not. A third missed poll of the one
slave that an enabled link's write lists name marks it missing, and a poll that it answers clears its misses. The manual levels of the strobes are
stored; RXEN and BYP take them at once where HOST owns the strobe, and a 1 for a strobe it does not own sets busy_owned. Rests on R222, R223, R224,
R225, R226, R237, R238. -/
def Obligations.FrontEndFaultsAndStrobes : Prop :=
  (∀ (n : Fin 16) (t c : Bool) (s : State), (s.fec.fems[n]).faultEnable = true → (t = true ∨ c = false) → Does (.femFaultInput n t c) s fun u =>
    (u.fec.fems[n]).fltT = t ∧ (u.fec.fems[n]).fltC = c ∧ (u.fec.fems[n]).fault = true ∧
    (u.fec.fems[n]).railMismatch = ((s.fec.fems[n]).railMismatch || t == c) ∧
    (u.fec.fems[n]).hold = ((s.fec.fems[n]).hold || (s.fec.fems[n]).faultAction) ∧ (u.flt.sources[femSource n]).cond = true ∧
    (∀ m : Fin 16, m ≠ n → (u.fec.fems[m]).fault = (s.fec.fems[m]).fault ∧ (u.fec.fems[m]).hold = (s.fec.fems[m]).hold) ∧
    u.time = s.time ∧ u.slices = s.slices ∧ u.evr = s.evr) ∧
  (∀ (n : Fin 16) (t c : Bool) (s : State), (s.fec.fems[n]).faultEnable = false → Does (.femFaultInput n t c) s fun u =>
    (u.fec.fems[n]).fltT = t ∧ (u.fec.fems[n]).fltC = c ∧ (u.fec.fems[n]).fault = (s.fec.fems[n]).fault ∧
    (u.fec.fems[n]).hold = (s.fec.fems[n]).hold ∧ (u.flt.sources[femSource n]).cond = false ∧
    (∀ x : Fin 320, x ≠ femSource n → u.flt.sources[x] = s.flt.sources[x]) ∧ u.time = s.time ∧ u.slices = s.slices ∧ u.evr = s.evr) ∧
  (∀ (n : Fin 16) (k : Fin 4) (high : Bool) (s : State), Does (.strobeShort n k high) s fun t =>
    (if high then (((t.fec.fems[n]).strobes)[k]).shortHi else (((t.fec.fems[n]).strobes)[k]).shortLo) = true ∧
    (t.fec.fems[n]).hold = ((s.fec.fems[n]).hold || k == 0 || k == 3) ∧ (∀ m : Fin 16, m ≠ n → (t.fec.fems[m]).hold = (s.fec.fems[m]).hold) ∧
    (t.flt.sources[femSource n]).events = (s.flt.sources[femSource n]).events + 1 ∧ t.time = s.time ∧ t.slices = s.slices) ∧
  (∀ (n : Fin 16) (s : State), (s.fec.fems[n]).busy = true → Does (.rffeShort n) s fun t =>
    (t.fec.fems[n]).rffeShort = true ∧ (t.fec.fems[n]).stopped = true ∧ (t.fec.fems[n]).queue = [] ∧
    (t.fec.fems[n]).discards = ((s.fec.fems[n]).discards + ((s.fec.fems[n]).queue.filter fun c => c.client != .writeList).length) % 65536 ∧
    (t.fec.fems[n]).busy = false ∧ (t.fec.fems[n]).result = .busFault ∧
    (∀ m : Fin 16, m ≠ n → (t.fec.fems[m]).queue = (s.fec.fems[m]).queue ∧ (t.fec.fems[m]).stopped = (s.fec.fems[m]).stopped) ∧
    (t.flt.sources[femSource n]).events = (s.flt.sources[femSource n]).events + 1 ∧
    t = { s with fec := t.fec, tiles := t.tiles, out := t.out, flt := { s.flt with sources := t.flt.sources } }) ∧
  (∀ (n : Fin 16) (agrees : Bool) (s : State), Does (.rffeBusRetest n agrees) s fun t =>
    t.fec.fems[n] = { s.fec.fems[n] with stopped := (s.fec.fems[n]).stopped && !agrees } ∧ (∀ m : Fin 16, m ≠ n → t.fec.fems[m] = s.fec.fems[m]) ∧
    t = { s with fec := { s.fec with fems := t.fec.fems } }) ∧
  (∀ (n : Fin 16) (u : Fin 16) (failed : BitVec 16) (s : State), (s.fec.fems[n]).enable = true → (s.fec.fems[n]).presencePoll = true →
    (s.fec.fems[n]).stopped = false → listedSlaves n s = [u] → failed.getLsbD u = true → (s.fec.fems[n]).misses[u] = 2 →
    Does (.presencePoll n failed) s fun t =>
      (t.fec.fems[n]).slaveMissing = true ∧ (t.fec.fems[n]).missingUsid = u.val ∧ (∀ m : Fin 16, m ≠ n → t.fec.fems[m] = s.fec.fems[m]) ∧
      (t.flt.sources[femSource n]).events = (s.flt.sources[femSource n]).events + 1 ∧ t.slices = s.slices ∧ t.time = s.time) ∧
  (∀ (n : Fin 16) (level : BitVec 4) (s : State), Does (.manualStrobeWrite n level) s fun t =>
    (t.fec.fems[n]).manual = level ∧
    (∀ i : Fin 4, i = 1 ∨ i = 2 → ownedBy 0x01 (4 * n.val + i.val) 0x09 s = true → (((t.fec.fems[n]).strobes)[i]).asserted = level.getLsbD i) ∧
    ((∃ i : Fin 4, level.getLsbD i = true ∧ ownedBy 0x01 (4 * n.val + i.val) 0x09 s = false) → t.fec.busyOwned = true) ∧
    (∀ m : Fin 16, m ≠ n → (t.fec.fems[m]).manual = (s.fec.fems[m]).manual) ∧ t.slices = s.slices ∧ t.time = s.time ∧ t.flt = s.flt) ∧
  (∀ (n : Fin 16) (s : State), (s.fec.fems[n]).faultEnable = true → Does (.femFaultInput n false true) s fun u =>
    (u.fec.fems[n]).fltT = false ∧ (u.fec.fems[n]).fltC = true ∧ (u.fec.fems[n]).fault = (s.fec.fems[n]).fault ∧
    (u.fec.fems[n]).hold = (s.fec.fems[n]).hold ∧ (u.flt.sources[femSource n]).cond = false ∧ u.time = s.time ∧ u.slices = s.slices) ∧
  (∀ (n : Fin 16) (u : Fin 16) (failed : BitVec 16) (s : State), (s.fec.fems[n]).enable = true → (s.fec.fems[n]).presencePoll = true →
    (s.fec.fems[n]).stopped = false → listedSlaves n s = [u] → failed.getLsbD u = false → Does (.presencePoll n failed) s fun t =>
      ((t.fec.fems[n]).misses)[u] = 0 ∧ (∀ m : Fin 16, m ≠ n → t.fec.fems[m] = s.fec.fems[m]) ∧ t = { s with fec := { s.fec with fems := t.fec.fems } })

/-- O34. The bus runs write lists before bias channels before the mailbox. A mailbox command that a legal GO gives to an idle mailbox of a bus that
HOST owns waits last on its bus and makes the mailbox busy; GO does nothing to a busy mailbox, ends BUSY_OWNED on a bus that HOST does not own, and
BAD_PARAM on fields that are not legal. A command that is done leaves the bus and goes out; a mailbox command then ends, OK or with READ_PARITY for a
read whose parity failed, and a read whose parity held leaves its data. The bias or mailbox command that has waited longest is discarded and counted
10 ms after it was queued, and reports on source 91; a discarded mailbox command ends. Rests on R217, R218, R219, R221, R239. -/
def Obligations.RffeBus : Prop :=
  (∀ (q : List BusCmd) (c : BusCmd), q.find? (·.client == .writeList) = some c → nextCmd q = some c) ∧
  (∀ (q : List BusCmd) (c : BusCmd), q.find? (·.client == .writeList) = none → q.find? (·.client == .bias) = some c → nextCmd q = some c) ∧
  (∀ (n : Fin 16) (value : Word) (s : State), (s.fec.fems[n]).busy = false → ownedBy 0x02 n 0x09 s = true →
    mailboxOk (field value.toNat 3 0) (field value.toNat 7 4) (field value.toNat 23 8) (field value.toNat 27 24) (s.fec.fems[n]).data = true →
    let c : BusCmd :=
      { client := .mailbox, command := field value.toNat 7 4, usid := field value.toNat 3 0, addr := field value.toNat 23 8
        count := field value.toNat 27 24, data := (s.fec.fems[n]).data, since := s.time.mono }
    Does (.rffeMailboxGo n value) s fun t =>
      (t.fec.fems[n]).busy = true ∧ (t.fec.fems[n]).queue = (s.fec.fems[n]).queue ++ [c] ∧
      (∀ m : Fin 16, m ≠ n → t.fec.fems[m] = s.fec.fems[m]) ∧ t = { s with fec := { s.fec with fems := t.fec.fems } }) ∧
  (∀ (n : Fin 16) (data : Nat) (c : BusCmd) (s : State), nextCmd (s.fec.fems[n]).queue = some c → (s.fec.fems[n]).stopped = false →
    c.client = .mailbox → isRead c.command = true → Does (.rffeCommandDone n data true) s fun t =>
      (t.fec.fems[n]).busy = false ∧ (t.fec.fems[n]).result = .ok ∧ (t.fec.fems[n]).data = data % 2 ^ (8 * c.count) ∧
      (t.fec.fems[n]).queue = removeFirst (· == c) (s.fec.fems[n]).queue ∧
      (∃ l, t.out = l ++ .rffe n c.command c.usid c.addr c.count c.data :: s.out) ∧ t = { s with fec := t.fec, tiles := t.tiles, out := t.out }) ∧
  (∀ (n : Fin 16) (data : Nat) (parity : Bool) (c : BusCmd) (s : State), nextCmd (s.fec.fems[n]).queue = some c → (s.fec.fems[n]).stopped = false →
    c.client ≠ .mailbox → Does (.rffeCommandDone n data parity) s fun t =>
      (t.fec.fems[n]).queue = removeFirst (· == c) (s.fec.fems[n]).queue ∧ (t.fec.fems[n]).busy = (s.fec.fems[n]).busy ∧
      (t.fec.fems[n]).data = (s.fec.fems[n]).data ∧ (∃ l, t.out = l ++ .rffe n c.command c.usid c.addr c.count c.data :: s.out) ∧
      t = { s with fec := t.fec, tiles := t.tiles, out := t.out, cen := { s.cen with biasSent := t.cen.biasSent } }) ∧
  (∀ (n : Fin 16) (c : BusCmd) (s : State), (s.fec.fems[n]).queue.find? (·.client != .writeList) = some c → Does (.rffeQueueTimeout n) s fun t =>
    (t.fec.fems[n]).queue = removeFirst (· == c) (s.fec.fems[n]).queue ∧ (t.fec.fems[n]).discards = ((s.fec.fems[n]).discards + 1) % 65536 ∧
    (t.fec.fems[n]).busy = ((s.fec.fems[n]).busy && c.client != .mailbox) ∧ (∀ m : Fin 16, m ≠ n → t.fec.fems[m] = s.fec.fems[m]) ∧
    t.time.mono = max s.time.mono (c.since + 40000000) ∧ (t.flt.sources[(91 : Fin 320)]).events = (s.flt.sources[(91 : Fin 320)]).events + 1 ∧
    t.slices = s.slices) ∧
  (∀ (n : Fin 16) (data : Nat) (parity : Bool) (c : BusCmd) (s : State), nextCmd (s.fec.fems[n]).queue = some c → (s.fec.fems[n]).stopped = false →
    c.client = .mailbox → (isRead c.command = false ∨ parity = false) → Does (.rffeCommandDone n data parity) s fun t =>
      (t.fec.fems[n]).busy = false ∧ (t.fec.fems[n]).result = (if isRead c.command then .readParity else .ok) ∧
      (t.fec.fems[n]).data = (s.fec.fems[n]).data ∧ (t.fec.fems[n]).queue = removeFirst (· == c) (s.fec.fems[n]).queue ∧
      (∃ l, t.out = l ++ .rffe n c.command c.usid c.addr c.count c.data :: s.out) ∧ t = { s with fec := t.fec, tiles := t.tiles, out := t.out }) ∧
  (∀ (n : Fin 16) (value : Word) (s : State), (s.fec.fems[n]).busy = true → exec (.rffeMailboxGo n value) s = .next s) ∧
  (∀ (n : Fin 16) (value : Word) (s : State), (s.fec.fems[n]).busy = false → ownedBy 0x02 n 0x09 s = false → Does (.rffeMailboxGo n value) s fun t =>
    t.fec.busyOwned = true ∧ t.fec.fems[n] = { s.fec.fems[n] with result := .busyOwned } ∧ (∀ m : Fin 16, m ≠ n → t.fec.fems[m] = s.fec.fems[m]) ∧
    t = { s with fec := { s.fec with fems := t.fec.fems, busyOwned := true } }) ∧
  (∀ (n : Fin 16) (value : Word) (s : State), (s.fec.fems[n]).busy = false → ownedBy 0x02 n 0x09 s = true →
    mailboxOk (field value.toNat 3 0) (field value.toNat 7 4) (field value.toNat 23 8) (field value.toNat 27 24) (s.fec.fems[n]).data = false →
    Does (.rffeMailboxGo n value) s fun t =>
      t.fec.fems[n] = { s.fec.fems[n] with result := .badParam } ∧ (∀ m : Fin 16, m ≠ n → t.fec.fems[m] = s.fec.fems[m]) ∧
      t = { s with fec := { s.fec with fems := t.fec.fems } })

/-- O35. A level at CXG becomes the grant of a pair that is no arbiter. A grant that does not come within its time-out counts as denied once,
saturating. A level at CXA becomes the request of a pair that is no requester; an arbiter grants it while every bound port is blanked, or is in no TDD
pair, off and not due to ramp up, and a bound port whose output is not off and that is not blanked withholds the grant. An enabled blanking input that
rises counts modulo 2^16, and no port that it masks ramps up or stays fully on; one that is not enabled only has its level stored. An input that falls
is released, and one that stays beyond its maximum is stuck and reports on source 90 once in an assertion, but is obeyed still. Rests on R228, R229,
R230, R231, R234, R235. -/
def Obligations.CoexistenceAndBlanking : Prop :=
  (∀ (c : Fin 8) (level : Bool) (s : State), (s.fec.cx[c]).role ≠ 2 → Does (.grantChange c level) s fun t =>
    (t.fec.cx[c]).grant = level ∧ (t.fec.cx[c]).denied = (s.fec.cx[c]).denied ∧ t.slices = s.slices ∧ t.time = s.time ∧ t.flt = s.flt) ∧
  (∀ (c : Fin 8) (since : Nat) (s : State), (s.fec.cx[c]).role = 1 → (s.fec.cx[c]).waitSince = some since → (s.fec.cx[c]).counted = false →
    (s.fec.cx[c]).grantTimeout ≠ 0 → Does (.grantTimeout c) s fun t =>
      t.fec.cx[c] = { s.fec.cx[c] with denied := min 65535 ((s.fec.cx[c]).denied + 1), counted := true } ∧
      (∀ k : Fin 8, k ≠ c → t.fec.cx[k] = s.fec.cx[k]) ∧ t.time.mono = max s.time.mono (since + 4000 * (s.fec.cx[c]).grantTimeout) ∧
      t.fec.fems = s.fec.fems ∧ t.slices = s.slices ∧ t.flt = s.flt) ∧
  (∀ (c : Fin 8) (level : Bool) (s : State), (s.fec.cx[c]).role = 2 → Does (.coexRequestChange c level) s fun t =>
    (t.fec.cx[c]).request = level ∧ (level = false → (t.fec.cx[c]).grant = false) ∧
    ((∃ m : Fin 32, (s.fec.cx[c]).ports.getLsbD m = true ∧ txBlanked m s = false ∧ (t.tiles.tx[m]).output ≠ .off) → (t.fec.cx[c]).grant = false) ∧
    ((∀ m : Fin 32, (s.fec.cx[c]).ports.getLsbD m = true → txBlanked m s = true ∨
        ((t.tiles.tx[m]).output = .off ∧ (t.tiles.tx[m]).drive.due = none ∧ isPair m s = false)) → (t.fec.cx[c]).grant = level) ∧
    ((t.fec.cx[c]).grant ≠ (s.fec.cx[c]).grant → .grant c (t.fec.cx[c]).grant ∈ t.out) ∧ t.slices = s.slices ∧ t.time = s.time) ∧
  (∀ (b : Fin 8) (s : State), (s.fec.blanks[b]).enable = true → (s.fec.blanks[b]).level = false → Does (.blankAssert b) s fun t =>
    t.fec.blanks[b] = { s.fec.blanks[b] with
      level := true, asserts := ((s.fec.blanks[b]).asserts + 1) % 65536, since := some s.time.mono, overdue := false } ∧
    (∀ k : Fin 8, k ≠ b → t.fec.blanks[k] = s.fec.blanks[k]) ∧
    (∀ m : Fin 32, (s.fec.blanks[b]).txMask.getLsbD m = true → (t.tiles.tx[m]).output ≠ .on ∧ (t.tiles.tx[m]).output ≠ .rampingUp) ∧
    t.slices = s.slices ∧ t.time = s.time ∧ t.flt = s.flt) ∧
  (∀ (b : Fin 8) (s : State), Does (.blankRelease b) s fun t =>
    t.fec.blanks[b] = { s.fec.blanks[b] with level := false, since := none, overdue := false } ∧ (∀ k : Fin 8, k ≠ b → t.fec.blanks[k] = s.fec.blanks[k]) ∧
    t.slices = s.slices ∧ t.time = s.time ∧ t.flt = s.flt) ∧
  (∀ (b : Fin 8) (since : Nat) (s : State), blankActive s.fec.blanks[b] = true → (s.fec.blanks[b]).since = some since →
    (s.fec.blanks[b]).blankMax ≠ 0 → (s.fec.blanks[b]).overdue = false → Does (.blankStuck b) s fun t =>
      t.fec.blanks[b] = { s.fec.blanks[b] with stuck := true, overdue := true } ∧ (∀ k : Fin 8, k ≠ b → t.fec.blanks[k] = s.fec.blanks[k]) ∧
      (t.flt.sources[(90 : Fin 320)]).events = (s.flt.sources[(90 : Fin 320)]).events + 1 ∧
      t.time.mono = max s.time.mono (since + 4000000 * (s.fec.blanks[b]).blankMax) ∧ t.slices = s.slices) ∧
  (∀ (b : Fin 8) (s : State), (s.fec.blanks[b]).enable = false → Does (.blankAssert b) s fun t =>
    t.fec.blanks[b] = { s.fec.blanks[b] with level := true } ∧ (∀ k : Fin 8, k ≠ b → t.fec.blanks[k] = s.fec.blanks[k]) ∧
    t = { s with fec := { s.fec with blanks := t.fec.blanks } }) ∧
  (∀ (c : Fin 8) (level : Bool) (s : State), (s.fec.cx[c]).role = 0 → Does (.coexRequestChange c level) s fun t =>
    (t.fec.cx[c]).request = level ∧ t.slices = s.slices ∧ t.time = s.time ∧ t.flt = s.flt)

/-- O36. A SLICE_SET that passes its checks completes OK at once when it changes nothing or only the owner or the priority of a defined slice; one
that changes class-A fields goes the way of a pending set, and one that creates a slice or changes class-B fields restarts it, or is REJECTED_BUSY
while it restarts already. When its capacity can be reserved, the index is RESTARTING with the first strobe 1 ms from then as its start; when not, the
command ends NO_CAPACITY. At that strobe the new definition is live and the station clock stands at the strobe or later; after its latency the slice
is RUNNING, or STOPPED where a retired port or the thermal halt keeps it stopped, and restarts no longer. Rests on R279, R294, R295, R297, R299. -/
def Obligations.SlicesAreSetAndRestart : Prop :=
  (∀ (d : Desc) (sl : SliceId) (old fill : SliceParams) (s : State), Runs 0x18 d s → d.unit .slice 256 = some sl →
    sliceSetCheck (issueOf 0x18 d s) sl d (startCommand d s) = none → baseParams sl s = some old → fillBase sl s = some fill →
    writeFields d old.defn ≠ old.defn → beyondImmediate old.defn (writeFields d old.defn) = false →
    exec (.sliceSet d) s = .next (complete (issueOf 0x18 d s) .ok (setImmediate sl (writeFields d old.defn) (startCommand d s)))) ∧
  (∀ (d : Desc) (sl : SliceId) (s : State), Runs 0x18 d s → d.unit .slice 256 = some sl →
    sliceSetCheck (issueOf 0x18 d s) sl d (startCommand d s) = none → baseParams sl s = none →
    exec (.sliceSet d) s = .next (runClassB (issueOf 0x18 d s) sl (createParams sl (writeFields d emptyDef) (startCommand d s)) d.tgt (startCommand d s))) ∧
  (∀ (iss : Issue) (sl : SliceId) (x : SliceParams) (tgt : Nat) (s u : State), reserve sl x.defn (unreserve sl s) = some u → (s.slices.slice[sl]).pending = none →
    runClassB iss sl x tgt s = settleUnits (scheduleRestart sl x (some iss) 4000000 false
      (onSlice sl (fun y => { y with pending := none }) (onPlc (fun p => { p with placed := upd p.placed sl fun y => { y with stopped := false } }) u)))) ∧
  (∀ (sl : SliceId) (x : SliceParams) (iss : Option Issue) (after : Nat) (keep : Bool) (s : State),
    let t := scheduleRestart sl x iss after keep s
    (t.slices.slice[sl]).state = .restarting ∧ (∀ k : SliceId, k ≠ sl → t.slices.slice[k] = s.slices.slice[k]) ∧
    (t.slices.slice[sl]).restart = some { params := x, issue := iss, strobe := strobeAt (s.now + after), started := false, keepShed := keep }) ∧
  (∀ (sl : SliceId) (s : State), exec (.sliceRestartStart sl) s = .next (settleUnits (restartStart sl s))) ∧
  (∀ (sl : SliceId) (r : Restart) (s : State), (s.slices.slice[sl]).restart = some r → r.started = false → (s.slices.slice[sl]).state ≠ .stopped →
    let t := restartStart sl s
    ((t.slices.slice[sl]).live).map (·.defn) = some r.params.defn ∧ (t.slices.slice[sl]).restart = some { r with started := true } ∧
    (∀ k : SliceId, k ≠ sl → (t.slices.slice[k]).live = (s.slices.slice[k]).live) ∧ t.time.q = max s.time.q r.strobe ∧ t.cfg = s.cfg) ∧
  (∀ (sl : SliceId) (r : Restart) (s : State), (s.slices.slice[sl]).restart = some r → r.started = true → (s.slices.slice[sl]).pending = none →
    Does (.sliceRestartDone sl) s fun t =>
      (t.slices.slice[sl]).state = (if mustStop r.params.defn s then .stopped else .running) ∧ (t.slices.slice[sl]).restart = none ∧
      (t.slices.slice[sl]).live = (s.slices.slice[sl]).live ∧ (∀ k : SliceId, k ≠ sl → t.slices.slice[k] = s.slices.slice[k]) ∧
      t.time.q = max s.time.q (r.strobe + latencyQ r.params.defn) ∧ t.cfg = s.cfg) ∧
  (∀ (d : Desc) (sl : SliceId) (old fill : SliceParams) (s : State), Runs 0x18 d s → d.unit .slice 256 = some sl →
    sliceSetCheck (issueOf 0x18 d s) sl d (startCommand d s) = none → baseParams sl s = some old → fillBase sl s = some fill →
    writeFields d old.defn = old.defn → exec (.sliceSet d) s = .next (complete (issueOf 0x18 d s) .ok (startCommand d s))) ∧
  (∀ (d : Desc) (sl : SliceId) (old fill : SliceParams) (s : State), Runs 0x18 d s → d.unit .slice 256 = some sl →
    sliceSetCheck (issueOf 0x18 d s) sl d (startCommand d s) = none → baseParams sl s = some old → fillBase sl s = some fill →
    beyondImmediate old.defn (writeFields d old.defn) = true → classB old.defn (writeFields d old.defn) = false →
    exec (.sliceSet d) s =
      .next (runClassA (issueOf 0x18 d s) sl { fill with defn := writeFields d fill.defn } d.tgt (startCommand d s))) ∧
  (∀ (d : Desc) (sl : SliceId) (old fill : SliceParams) (s : State), Runs 0x18 d s → d.unit .slice 256 = some sl →
    sliceSetCheck (issueOf 0x18 d s) sl d (startCommand d s) = none → baseParams sl s = some old → fillBase sl s = some fill →
    beyondImmediate old.defn (writeFields d old.defn) = true → classB old.defn (writeFields d old.defn) = true →
    exec (.sliceSet d) s = .next (if ((s.slices.slice[sl]).restart).isSome
      then refuse (issueOf 0x18 d s) (refuseTarget .rejectedBusy d.tgt) (startCommand d s)
      else runClassB (issueOf 0x18 d s) sl { fill with defn := writeFields d fill.defn } d.tgt (startCommand d s))) ∧
  (∀ (iss : Issue) (sl : SliceId) (x : SliceParams) (tgt : Nat) (s : State), reserve sl x.defn (unreserve sl s) = none →
    runClassB iss sl x tgt s = refuse iss (refuseTarget .noCapacity tgt) s)

/-- O37. Each of the three, with valid fields on a defined slice, puts the changed parameters into the pending set of that slice and touches no other
slice and not the set that is live; CANCEL_CTL of a tenant does so where it sets neither margin nor i_floor, and its fields that need a canceller want
one on each path that it names. A pending set goes live whole, the slice keeps its state, and the command that filled it completes OK; while the slice
restarts it waits. Rests on R17, R18, R296, R297, R298, R319, R330. -/
def Obligations.PendingSets : Prop :=
  (∀ (d : Desc) (sl : SliceId) (x : SliceParams) (s : State), Runs 0x19 d s → d.unit .slice 256 = some sl →
    fillCheck sl d [(!gainOk (d.s 12 2), badParam 12), d.strayCheck [(12, 3)]] 14 s = none → fillBase sl s = some x →
    Does (.sliceGain d) s fun t =>
      ((t.slices.slice[sl]).pending).map (·.params) = some (setGain ((whichPaths (d.byte 14) x.defn).getD []) (d.s 12 2) x) ∧
      (t.slices.slice[sl]).live = (s.slices.slice[sl]).live ∧ (∀ k : SliceId, k ≠ sl → t.slices.slice[k] = s.slices.slice[k]) ∧
      t = { s with slices := t.slices, hif := t.hif, evr := t.evr, pmc := t.pmc, out := t.out }) ∧
  (∀ (d : Desc) (sl : SliceId) (x : SliceParams) (s : State), Runs 0x1A d s → d.unit .slice 256 = some sl →
    fillCheck sl d [(1 < d.byte 12, badParam 12), d.strayCheck [(12, 2)]] 13 s = none → fillBase sl s = some x →
    Does (.sliceMute d) s fun t =>
      ((t.slices.slice[sl]).pending).map (·.params) = some (setMute ((whichPaths (d.byte 13) x.defn).getD []) (d.byte 12 == 1) x) ∧
      (t.slices.slice[sl]).live = (s.slices.slice[sl]).live ∧ (∀ k : SliceId, k ≠ sl → t.slices.slice[k] = s.slices.slice[k]) ∧
      t = { s with slices := t.slices, hif := t.hif, evr := t.evr, pmc := t.pmc, out := t.out }) ∧
  (∀ (d : Desc) (sl : SliceId) (x : SliceParams) (s : State), Runs 0x1C d s → d.unit .slice 256 = some sl →
    ((issueOf 0x1C d s).fn = 0 ∨ d.u 13 1 / 32 % 4 = 0) → fillCheck sl d (cancelCtlFields d) 12 s = none → fillBase sl s = some x →
    (d.u 13 1 % 32 = 0 ∨ (((whichPaths (d.u 12 1) x.defn).getD []).all fun p => hasCanceller x.defn p) = true) →
    Does (.cancelCtl d) s fun t =>
      ((t.slices.slice[sl]).pending).map (·.params) =
        some (((whichPaths (d.u 12 1) x.defn).getD []).foldl (fun x p => setCanParams p (writeCancel d) x) x) ∧
      (t.slices.slice[sl]).live = (s.slices.slice[sl]).live ∧ (∀ k : SliceId, k ≠ sl → t.slices.slice[k] = s.slices.slice[k]) ∧
      t = { s with slices := t.slices, hif := t.hif, evr := t.evr, pmc := t.pmc, out := t.out }) ∧
  (∀ (sl : SliceId) (s : State), exec (.pendingSetLive sl) s = .next (settleUnits (settle (pendingLive sl s)))) ∧
  (∀ (sl : SliceId) (p : PendingSet) (old : SliceParams) (s : State), (s.slices.slice[sl]).pending = some p → (s.slices.slice[sl]).live = some old →
    (s.slices.slice[sl]).restart = none → (s.slices.slice[sl]).deleting = none →
    (p.moving && (migrating sl s || s.plc.waiting.any fun w => w.slice == sl)) = false →
    let t := pendingLive sl s
    (t.slices.slice[sl]).live = some p.params ∧ (t.slices.slice[sl]).pending = none ∧ (t.slices.slice[sl]).state = (s.slices.slice[sl]).state ∧
    (∀ u, u = onSlice sl (fun x => { x with live := some p.params, pending := none }) s →
      t.hif.rings = (complete p.issue .ok u).hif.rings) ∧
    (∀ k : SliceId, k ≠ sl → t.slices.slice[k] = s.slices.slice[k]) ∧ t.time = s.time ∧ t.cfg = s.cfg) ∧
  (∀ (sl : SliceId) (s : State), ((s.slices.slice[sl]).restart).isSome = true → pendingLive sl s = s)

/-- O38. SLICE_DELETE of a defined slice makes it DELETING with its command waiting, and what restarts or waits on it ends; when its ramp has ended
the index reads as at reset, and no other index changes. A meter sums the squared magnitudes of 2^w samples and then begins anew; a window of a path
that has ended stores its reading, a number of hundredths of a dB clamped to ±32,767, for its path and its meter alone. Rests on R283, R297, R299. -/
def Obligations.SlicesAreDeleted : Prop :=
  (∀ (d : Desc) (sl : SliceId) (s : State), Runs 0x1B d s → d.unit .slice 256 = some sl → d.indirect = false → firstFail [d.strayCheck []] = none →
    isDefined sl s = true → (s.slices.slice[sl]).state ≠ .deleting →
    exec (.sliceDelete d) s = .next (settle (settleUnits (beginDelete sl (issueOf 0x1B d s) (startCommand d s))))) ∧
  (∀ (sl : SliceId) (iss : Issue) (s : State),
    let t := beginDelete sl iss s
    (t.slices.slice[sl]).state = .deleting ∧ (t.slices.slice[sl]).deleting = some iss ∧ (t.slices.slice[sl]).restart = none ∧
    (t.slices.slice[sl]).pending = none ∧ (∀ k : SliceId, k ≠ sl → t.slices.slice[k] = s.slices.slice[k]) ∧ t.time = s.time) ∧
  (∀ (sl : SliceId) (iss : Issue) (s : State), (s.slices.slice[sl]).deleting = some iss →
    exec (.sliceDeleteDone sl) s = .next (settleUnits (restoreStopped (placeFeeds (complete iss .ok (emptySlice sl s)))))) ∧
  (∀ (sl : SliceId) (s : State),
    let t := emptySlice sl s
    t.slices.slice[sl] = sliceReset ∧ (∀ k : SliceId, k ≠ sl → t.slices.slice[k] = s.slices.slice[k]) ∧
    t.can.path[canIdx sl .a] = cancellerReset ∧ t.can.path[canIdx sl .b] = cancellerReset ∧ t.time = s.time) ∧
  (∀ (sl : SliceId) (i o : Nat × Nat) (s : State), (s.sig.path[canIdx sl .a]).meterIn.ended = some i → (s.sig.path[canIdx sl .a]).meterOut.ended = some o →
    Does (.meterWindowEnd sl .a) s fun t =>
      t.slices.slice[sl] = { s.slices.slice[sl] with inA := meterReading i s.free, outA := meterReading o (s.free + 1) } ∧
      (t.sig.path[canIdx sl .a]).meterIn.ended = none ∧ (t.sig.path[canIdx sl .a]).meterOut.ended = none ∧
      (∀ k : SliceId, k ≠ sl → t.slices.slice[k] = s.slices.slice[k]) ∧
      t = { s with slices := { s.slices with slice := t.slices.slice }, sig := t.sig, nps := t.nps, free := s.free + 2 }) ∧
  (∀ (sl : SliceId) (i o : Nat × Nat) (s : State), (s.sig.path[canIdx sl .b]).meterIn.ended = some i → (s.sig.path[canIdx sl .b]).meterOut.ended = some o →
    Does (.meterWindowEnd sl .b) s fun t =>
      t.slices.slice[sl] = { s.slices.slice[sl] with inB := meterReading i s.free, outB := meterReading o (s.free + 1) } ∧
      (t.sig.path[canIdx sl .b]).meterIn.ended = none ∧ (t.sig.path[canIdx sl .b]).meterOut.ended = none ∧
      (∀ k : SliceId, k ≠ sl → t.slices.slice[k] = s.slices.slice[k]) ∧
      t = { s with slices := { s.slices with slice := t.slices.slice }, sig := t.sig, nps := t.nps, free := s.free + 2 }) ∧
  (∀ (w : Nat) (v : Cplx) (m : Meter),
    (m.count + 1 < 2 ^ w → meterStep w v m = { m with sum := m.sum + cNorm v, count := m.count + 1 }) ∧
    (2 ^ w ≤ m.count + 1 → meterStep w v m = { sum := 0, count := 0, ended := some (m.sum + cNorm v, m.count + 1) })) ∧
  (∀ (w : Nat × Nat) (k : Nat), -32767 ≤ meterReading w k ∧ meterReading w k ≤ 32767) ∧
  (∀ (sl : SliceId) (p : PathId) (s : State), (s.sig.path[canIdx sl p]).meterIn.ended = none → (s.sig.path[canIdx sl p]).meterOut.ended = none →
    Does (.meterWindowEnd sl p) s fun t => t.slices.slice[sl] = s.slices.slice[sl] ∧ t.nps = s.nps)

/-- O39. A CAPTURE start with valid parameters on a free ring waits with its slice, its tap, its path and its count for its first sample; a stop of a
running capture ends it, and a stop on a ring without one completes OK. A block that is due goes to the next place of a Running ring that has room,
with its samples, and moves its producer on by one, which is written back where the ring has an address for it; without room, or on a ring that does
not run, it counts as dropped. A capture that ends leaves its ring free and writes what it still holds, the last block marked as the last. Rests on
R80, R81, R82, R305, R306, R307. -/
def Obligations.Captures : Prop :=
  (∀ (d : Desc) (sl : SliceId) (r : Fin 8) (s : State), Runs 0x48 d s → captureCheck (issueOf 0x48 d s) d (startCommand d s) = none →
    d.unit .slice 256 = some sl → finOf 8 (d.byte 12) = some r → d.byte 14 = 1 → Does (.capture d) s fun t =>
      t.slices.capture[r] = some { slice := sl, tap := d.byte 13, which := d.byte 15, left := if d.u 16 4 = 0 then none else some (d.u 16 4),
                                   instant := instantOrNow (d.u 20 8) s, startIssue := some (issueOf 0x48 d s), stopIssue := none, ending := false
                                   full := [], fill := { stamp := 0, epoch := 0, samples := [] }, cut := false } ∧
      (∀ k : Fin 8, k ≠ r → t.slices.capture[k] = s.slices.capture[k]) ∧ t.slices.slice = s.slices.slice ∧
      t = { startCommand d s with slices := t.slices }) ∧
  (∀ (d : Desc) (sl : SliceId) (r : Fin 8) (c : Capture) (s : State), Runs 0x48 d s → captureCheck (issueOf 0x48 d s) d (startCommand d s) = none →
    d.unit .slice 256 = some sl → finOf 8 (d.byte 12) = some r → d.byte 14 ≠ 1 → s.slices.capture[r] = some c →
    Does (.capture d) s fun t =>
      t.slices.capture[r] = some { c with stopIssue := some (issueOf 0x48 d s), ending := true } ∧
      (∀ k : Fin 8, k ≠ r → t.slices.capture[k] = s.slices.capture[k]) ∧ t.slices.slice = s.slices.slice ∧
      (c.stopIssue = none → t = { startCommand d s with slices := t.slices })) ∧
  (∀ (r : Fin 8) (c c' : Capture) (b : CaptureFill) (s : State), s.slices.capture[r] = some c → nextBlock c = some (b, c') →
    (s.hif.caps[r]).state = .running → inD3hot (s.hif.caps[r]).owner s = false →
    ((s.hif.caps[r]).prod - (s.hif.caps[r]).cons).toNat < 2 ^ (s.hif.caps[r]).log2 → Does (.captureBlock r) s fun t =>
      (t.hif.caps[r]).prod = (s.hif.caps[r]).prod + 1 ∧ (t.hif.caps[r]).dropped = 0 ∧ t.slices.capture[r] = some c' ∧
      (∀ k : Fin 8, k ≠ r → t.slices.capture[k] = s.slices.capture[k]) ∧ t.slices.slice = s.slices.slice ∧ t.time = s.time ∧
      (∃ seq flags, Out.captureBlock r ((s.hif.caps[r]).base + (s.hif.caps[r]).prod.toNat % 2 ^ (s.hif.caps[r]).log2 * 4096) seq (stampOf b.stamp) b.epoch
        c.slice flags (s.hif.caps[r]).dropped b.samples ∈ t.out) ∧
      ((s.hif.caps[r]).wb ≠ 0 → .captureWriteBack r (s.hif.caps[r]).wb ((s.hif.caps[r]).prod + 1).toNat ∈ t.out)) ∧
  (∀ (r : Fin 8) (c c' : Capture) (b : CaptureFill) (s : State), s.slices.capture[r] = some c → nextBlock c = some (b, c') →
    ((s.hif.caps[r]).state ≠ .running ∨ 2 ^ (s.hif.caps[r]).log2 ≤ ((s.hif.caps[r]).prod - (s.hif.caps[r]).cons).toNat) →
    Does (.captureBlock r) s fun t =>
      (t.hif.caps[r]).prod = (s.hif.caps[r]).prod ∧ (t.hif.caps[r]).dropped = (s.hif.caps[r]).dropped + 1 ∧
      t.slices.capDropped[r] = min 65535 (s.slices.capDropped[r] + 1) ∧ t.slices.capture[r] = some c' ∧ t.out = s.out) ∧
  (∀ (r : Fin 8) (c : Capture) (s : State), s.slices.capture[r] = some c → c.ending = true → Does (.captureEnd r) s fun t =>
      t.slices.capture[r] = none ∧ (∀ k : Fin 8, k ≠ r → t.slices.capture[k] = s.slices.capture[k]) ∧ t.slices.slice = s.slices.slice ∧ t.time = s.time) ∧
  (∀ (r : Fin 8) (c : Capture) (s : State), s.slices.capture[r] = some c → c.ending = true → c.full = [] → c.fill.samples ≠ [] →
    (s.hif.caps[r]).state = .running → inD3hot (s.hif.caps[r]).owner s = false →
    ((s.hif.caps[r]).prod - (s.hif.caps[r]).cons).toNat < 2 ^ (s.hif.caps[r]).log2 → Does (.captureEnd r) s fun t =>
      (t.hif.caps[r]).prod = (s.hif.caps[r]).prod + 1 ∧
      ∃ a seq flags, 4 ≤ flags ∧ Out.captureBlock r a seq (stampOf c.fill.stamp) c.fill.epoch c.slice flags (s.hif.caps[r]).dropped c.fill.samples ∈ t.out) ∧
  (∀ (d : Desc) (sl : SliceId) (r : Fin 8) (s : State), Runs 0x48 d s → captureCheck (issueOf 0x48 d s) d (startCommand d s) = none →
    d.unit .slice 256 = some sl → finOf 8 (d.byte 12) = some r → d.byte 14 ≠ 1 → s.slices.capture[r] = none →
    exec (.capture d) s = .next (complete (issueOf 0x48 d s) .ok (startCommand d s)))

/-- O40. A sample of a STOPPED slice, and any sample while the slice engines are gated, goes out poisoned. Every sample steps the applied gain of its
path towards the lower of its target and its ceiling, down at once and up by its rise at most, and changes no other slice and no other canceller, nor
the tiles, station time or the configuration. A window of a canceller that adapts and whose background residual is at least 0.5 dB below its
foreground one copies the background taps, rounded, and counts the copy modulo 2^16; one whose background is not that much better, or that summed
nothing, copies nothing, and the fourth such window after a copy makes the path settled. No other path changes. Rests on R14, R289, R308, R317, R323,
R638. -/
def Obligations.SamplesAndCancellers : Prop :=
  (∀ (sl : SliceId) (p : PathId) (x : SliceParams) (wrong : Option LocalWord) (s : State), (s.slices.slice[sl]).live = some x →
    (pathsOf x.defn).contains p = true → s.thm.halted = true → Does (.sliceSampleBoundary sl p wrong) s fun t =>
      t.out.head? = some (.sample sl.val p .poisoned) ∧ (∀ k : SliceId, k ≠ sl → t.slices.slice[k] = s.slices.slice[k])) ∧
  (∀ (sl : SliceId) (p : PathId) (x : SliceParams) (wrong : Option LocalWord) (s : State), (s.slices.slice[sl]).live = some x →
    (pathsOf x.defn).contains p = true → (s.slices.slice[sl]).state = .stopped →
    Does (.sliceSampleBoundary sl p wrong) s fun t =>
      t.out.head? = some (.sample sl.val p .poisoned) ∧ (∀ k : SliceId, k ≠ sl → t.slices.slice[k] = s.slices.slice[k])) ∧
  (∀ (sl : SliceId) (p : PathId) (x : SliceParams) (s : State), (s.slices.slice[sl]).live = some x → (pathsOf x.defn).contains p = true →
    exec (.sliceSampleBoundary sl p none) s = .next (sampleStep sl p x s)) ∧
  (∀ (sl : SliceId) (p : PathId) (s : State), (s.can.path[canIdx sl p]).present = true →
    (s.can.path[canIdx sl p]).kk ≠ 0 → (liveCan sl p s).mode = 0 → copyWins (s.can.path[canIdx sl p]) = true → Does (.cancelWindowEnd sl p) s fun t =>
      (t.can.path[canIdx sl p]).wFg = (s.can.path[canIdx sl p]).wBg.map foreground ∧
      (t.can.path[canIdx sl p]).copies = ((s.can.path[canIdx sl p]).copies + 1) % 65536 ∧
      (∀ i : Fin 512, i ≠ canIdx sl p → t.can.path[i] = s.can.path[i]) ∧ t.slices = s.slices ∧ t.time = s.time) ∧
  (∀ (sl : SliceId) (p : PathId) (s : State), (s.can.path[canIdx sl p]).present = true →
    ((s.can.path[canIdx sl p]).kk = 0 ∨ (liveCan sl p s).mode ≠ 0 ∨ copyWins (s.can.path[canIdx sl p]) = false) → Does (.cancelWindowEnd sl p) s fun t =>
      (t.can.path[canIdx sl p]).wFg = (s.can.path[canIdx sl p]).wFg ∧ (t.can.path[canIdx sl p]).copies = (s.can.path[canIdx sl p]).copies ∧
      ((s.can.path[canIdx sl p]).copied = true → 3 ≤ (s.can.path[canIdx sl p]).copyFree → (t.can.path[canIdx sl p]).settled = true) ∧
      (∀ i : Fin 512, i ≠ canIdx sl p → t.can.path[i] = s.can.path[i]) ∧ t = { s with can := t.can, free := s.free + 4 }) ∧
  (∀ (sl : SliceId) (p : PathId) (x : SliceParams) (wrong : Option LocalWord) (s : State), (s.slices.slice[sl]).live = some x →
    (pathsOf x.defn).contains p = true → Does (.sliceSampleBoundary sl p wrong) s fun t =>
      (if p = .a then (t.slices.slice[sl]).appliedA else (t.slices.slice[sl]).appliedB) =
        (stepGain x.defn (min (gainTarget x.defn p) (s.can.path[canIdx sl p]).ceiling)
          (if p = .a then (s.slices.slice[sl]).appliedA else (s.slices.slice[sl]).appliedB)
          (if p = .a then (s.slices.slice[sl]).riseA else (s.slices.slice[sl]).riseB)).1 ∧
      (t.slices.slice[sl]).state = (s.slices.slice[sl]).state ∧ (t.slices.slice[sl]).live = some x ∧
      (∀ k : SliceId, k ≠ sl → t.slices.slice[k] = s.slices.slice[k]) ∧ (∀ i : Fin 512, i ≠ canIdx sl p → t.can.path[i] = s.can.path[i]) ∧
      t.tiles = s.tiles ∧ t.time = s.time ∧ t.cfg = s.cfg) ∧
  (∀ (d : SliceDef) (goal applied : Int) (acc : Nat),
    let r := stepGain d goal applied acc
    r.1 ≤ goal ∧ (goal ≤ applied → r.1 = goal) ∧ (applied < goal → applied ≤ r.1) ∧
    (applied < goal → d.gainRise ≠ 0 → r.1 ≤ applied + (acc + 10 * d.gainRise * samplePeriod d : Nat) / 4000000))

/-- O41. A tested Squall window that detects after one that did not gives its path a SQUALL trim of 10.00 dB and counts on the slice modulo 2^16; the
first tested window only becomes the reference, and an untested one leaves none. Ten loud microseconds at an RX port raise the OVERDRIVE trim of the
one path from it by a step and count on source 132, and fewer make the condition absent; a noise density above the limit raises the NOISE trim of the
uplink path by 0.50 dB, and one at least 1.00 dB below it makes the condition absent. A trim whose hold has expired, and one that is being released,
falls by 0.50 dB, and at zero its cause is gone. Rests on R336, R339, R340, R344, R345, R352. -/
def Obligations.ProtectionTrims : Prop :=
  (∀ (sl : SliceId) (p : PathId) (w : List Cplx) (s : State), ((s.sig.path[canIdx sl p]).squall).ended = some (w, false) → squallWatches sl p s = true →
    (pathProt (s.nps.slice[sl]) p).last = none → Does (.squallWindowEnd sl p) s fun t =>
      (pathProt (t.nps.slice[sl]) p).last = some (squallReading w) ∧ (pathProt (t.nps.slice[sl]) p).squall = (pathProt (s.nps.slice[sl]) p).squall ∧
      (∀ k : SliceId, k ≠ sl → t.nps.slice[k] = s.nps.slice[k]) ∧ t = { s with nps := t.nps, sig := t.sig, free := t.free }) ∧
  (∀ (sl : SliceId) (p : PathId) (w : List Cplx) (last : Nat × Nat × List Nat) (s : State),
    ((s.sig.path[canIdx sl p]).squall).ended = some (w, false) → squallWatches sl p s = true →
    (pathProt (s.nps.slice[sl]) p).last = some last → (pathProt (s.nps.slice[sl]) p).previous = false →
    squallDetects s.nps.cfg (((liveDef sl s).map (·.k)).getD 0) last (squallReading w) = true →
    Does (.squallWindowEnd sl p) s fun t =>
      (pathProt (t.nps.slice[sl]) p).squall.value = 1000 ∧ (t.nps.slice[sl]).squallCount = ((s.nps.slice[sl]).squallCount + 1) % 65536 ∧
      (pathProt (t.nps.slice[sl]) p).detecting = true ∧ ((t.sig.path[canIdx sl p]).squall).ended = none ∧ t.time = s.time ∧ t.cfg = s.cfg) ∧
  (∀ (rx : Fin 32) (sl : SliceId) (p : PathId) (s : State), pathsFromRx rx s = [(sl, p)] → 10 ≤ (s.sig.rx[rx]).loudRun →
    Does (.overdriveInterval rx) s fun t =>
    t.nps.overdriven[rx] = true ∧ (t.sig.rx[rx]).loudRun = (s.sig.rx[rx]).loudRun - 10 ∧
    (pathProt (t.nps.slice[sl]) p).overdrive.value = (pathProt (s.nps.slice[sl]) p).overdrive.value + s.nps.cfg.overdriveStep ∧
    (pathProt (t.nps.slice[sl]) p).overdrive.present = true ∧
    (t.flt.sources[(132 : Fin 320)]).events = (s.flt.sources[(132 : Fin 320)]).events + 1 ∧ t.time = s.time) ∧
  (∀ (sl : SliceId) (d : SliceDef) (p : PathId) (v : Int) (s : State), liveDef sl s = some d → uplinkPath d = some p →
    (s.nps.slice[sl]).guard.noise = true → (pathProt (s.nps.slice[sl]) p).lowest = some v → Does (.noiseIntervalEnd sl) s fun t =>
      let density := v - centibels (d.bandwidth * 1000) 1 s.free
      ((s.nps.slice[sl]).guard.noiseLimit < density →
        (pathProt (t.nps.slice[sl]) p).noise.value = (pathProt (s.nps.slice[sl]) p).noise.value + 50 ∧ (pathProt (t.nps.slice[sl]) p).noise.present = true) ∧
      (density ≤ (s.nps.slice[sl]).guard.noiseLimit - 100 →
        (pathProt (t.nps.slice[sl]) p).noise.value = (pathProt (s.nps.slice[sl]) p).noise.value ∧ (pathProt (t.nps.slice[sl]) p).noise.present = false) ∧
      (pathProt (t.nps.slice[sl]) p).lowest = none ∧ t.time = s.time ∧ t.cfg = s.cfg) ∧
  (∀ (sl : SliceId) (p : PathId) (k : TrimKind) (s : State), (trimOf (pathProt (s.nps.slice[sl]) p) k).present = false →
    (trimOf (pathProt (s.nps.slice[sl]) p) k).releasing = false → 50 < (trimOf (pathProt (s.nps.slice[sl]) p) k).value →
    Does (.trimHoldExpiry sl p k) s fun t =>
      (trimOf (pathProt (t.nps.slice[sl]) p) k).value = (trimOf (pathProt (s.nps.slice[sl]) p) k).value - 50 ∧
      (trimOf (pathProt (t.nps.slice[sl]) p) k).releasing = true ∧ (∀ j : SliceId, j ≠ sl → t.nps.slice[j] = s.nps.slice[j]) ∧
      t = { s with nps := t.nps, evr := t.evr, pmc := t.pmc }) ∧
  (∀ (sl : SliceId) (p : PathId) (k : TrimKind) (s : State), (trimOf (pathProt (s.nps.slice[sl]) p) k).releasing = true →
    (trimOf (pathProt (s.nps.slice[sl]) p) k).value ≠ 0 → Does (.trimReleaseStep sl p k) s fun t =>
      (trimOf (pathProt (t.nps.slice[sl]) p) k).value = (trimOf (pathProt (s.nps.slice[sl]) p) k).value - 50 ∧
      (∀ j : SliceId, j ≠ sl → t.nps.slice[j] = s.nps.slice[j]) ∧ t = { s with nps := t.nps, evr := t.evr, pmc := t.pmc }) ∧
  (∀ (sl : SliceId) (p : PathId) (w : List Cplx) (s : State), ((s.sig.path[canIdx sl p]).squall).ended = some (w, true) → squallWatches sl p s = true →
    Does (.squallWindowEnd sl p) s fun t =>
      (pathProt (t.nps.slice[sl]) p).last = none ∧ (pathProt (t.nps.slice[sl]) p).squall = (pathProt (s.nps.slice[sl]) p).squall ∧
      (∀ k : SliceId, k ≠ sl → t.nps.slice[k] = s.nps.slice[k]) ∧ t = { s with nps := t.nps, sig := t.sig }) ∧
  (∀ (rx : Fin 32) (s : State), (s.sig.rx[rx]).loudRun < 10 → Does (.overdriveInterval rx) s fun t =>
    t.nps.overdriven[rx] = false ∧ (∀ x ∈ pathsFromRx rx s,
      (pathProt (t.nps.slice[x.1]) x.2).overdrive = { (pathProt (s.nps.slice[x.1]) x.2).overdrive with present := false }) ∧ t = { s with nps := t.nps }) ∧
  (∀ (sl : SliceId) (p : PathId) (k : TrimKind) (s : State), (trimOf (pathProt (s.nps.slice[sl]) p) k).releasing = true →
    (trimOf (pathProt (s.nps.slice[sl]) p) k).value ≠ 0 → (trimOf (pathProt (s.nps.slice[sl]) p) k).value ≤ 50 → Does (.trimReleaseStep sl p k) s fun t =>
      trimOf (pathProt (t.nps.slice[sl]) p) k = { value := 0, present := false, releasing := false, fast := false }) ∧
  (∀ (sl : SliceId) (p : PathId) (k : TrimKind) (s : State), (trimOf (pathProt (s.nps.slice[sl]) p) k).present = false →
    (trimOf (pathProt (s.nps.slice[sl]) p) k).releasing = false → (trimOf (pathProt (s.nps.slice[sl]) p) k).value ≠ 0 →
    (trimOf (pathProt (s.nps.slice[sl]) p) k).value ≤ 50 → Does (.trimHoldExpiry sl p k) s fun t =>
      trimOf (pathProt (t.nps.slice[sl]) p) k = { value := 0, present := false, releasing := false, fast := false })

/-- O42. A visit of a transmitting port that carries no slice keeps the bins above its mask for the next visit and says whether one was above on both;
of a port that carries one slice, a bin away from its band that was above on both raises the slice's EMISSION trim by a step. A donor power below its
floor for its time marks the reference as low and mutes every defined slice that it covers; one that has recovered is low no longer, and a reference
that alone depends on itself is unmuted. Rests on R346, R347, R348, R349. -/
def Obligations.EmissionAndDonorLoss : Prop :=
  (∀ (m : Fin 32) (bins : List (Nat × Int)) (s : State), (s.nps.port[m]).emissionEnable = true → (s.tiles.tx[m]).radio.state = .active → slicesOnTx m s = [] →
    Does (.emissionVisitEnd m bins) s fun t =>
      (t.nps.port[m]).aboveLast = (bins.filter fun b => decide ((s.nps.port[m]).emissionMask < b.2)).map (·.1) ∧
      (t.nps.port[m]).exceeds = (bins.any fun b => decide ((s.nps.port[m]).emissionMask < b.2) && (s.nps.port[m]).aboveLast.contains b.1) ∧
      (∀ k : Fin 32, k ≠ m → t.nps.port[k] = s.nps.port[k]) ∧ t = { s with nps := { s.nps with port := t.nps.port } }) ∧
  (∀ (ref : SliceId) (s : State), donorNamed ref s = true → donorPower ref s < donorFloor ref s → Does (.donorLossTimeout ref) s fun t =>
    (t.nps.slice[ref]).donorLow = true ∧ (∀ sl ∈ donorGroup ref s, isDefined sl s = true → (t.nps.slice[sl]).donorLoss = true) ∧ t.time = s.time ∧ t.cfg = s.cfg) ∧
  (∀ (ref : SliceId) (s : State), donorFloor ref s + s.nps.cfg.donorHyst ≤ donorPower ref s → donorGroup ref s = [ref] →
    (s.nps.slice[ref]).guard.donor = false → Does (.donorRecover ref) s fun t =>
      (t.nps.slice[ref]).donorLow = false ∧ (t.nps.slice[ref]).donorLoss = false ∧ (∀ k : SliceId, k ≠ ref → t.nps.slice[k] = s.nps.slice[k]) ∧
      t = { s with nps := t.nps, evr := t.evr, pmc := t.pmc }) ∧
  (∀ (m : Fin 32) (sl : SliceId) (d : SliceDef) (f : Nat) (v : Int) (bins : List (Nat × Int)) (s : State), (s.nps.port[m]).emissionEnable = true →
    (s.tiles.tx[m]).radio.state = .active → slicesOnTx m s = [sl] → liveDef sl s = some d → (f, v) ∈ bins → (s.nps.port[m]).emissionMask < v →
    nearBand d f = false → (s.nps.port[m]).aboveLast.contains f = true → Does (.emissionVisitEnd m bins) s fun t =>
      (pathProt (t.nps.slice[sl]) (pathTo d m)).emission.value = (pathProt (s.nps.slice[sl]) (pathTo d m)).emission.value + s.nps.cfg.emissionStep ∧
      (pathProt (t.nps.slice[sl]) (pathTo d m)).emission.present = true ∧ (t.nps.port[m]).exceeds = true ∧
      (s.nps.cfg.maxTrim ≤ totalTrim sl (pathTo d m) s → (t.nps.slice[sl]).emissionMute = true) ∧ t.time = s.time ∧ t.cfg = s.cfg)

/-- O43. PROTECT_HALT with 1 sets the host's halt source and completes OK, and with 0 releases it. A halt source that is set puts every TX output off
and deasserts every TXEN and PAEN at once, and error 138 holds until the last one is released. PROTECT_CLEAR of legal causes of a slice or a TX port
clears those whose condition is gone, and completes STILL_ACTIVE when one persists and OK when none does: a port's REFLECTED whose condition is gone
is unmuted; a slice's donor loss that persists stays. Rests on R335, R354, R355, R358, R359, R360. -/
def Obligations.HaltAndClear : Prop :=
  (∀ (d : Desc) (s : State), Runs 0x21 d s → d.indirect = false → d.tgt = 0 → d.u 12 1 = 1 → firstFail [d.strayCheck [(12, 1)]] = none →
    exec (.protectHalt d) s = .next (complete (issueOf 0x21 d s) .ok (setHalt .host (startCommand d s)))) ∧
  (∀ (d : Desc) (s : State), Runs 0x21 d s → d.indirect = false → d.tgt = 0 → d.u 12 1 = 0 → firstFail [d.strayCheck [(12, 1)]] = none →
    exec (.protectHalt d) s = .next (complete (issueOf 0x21 d s) .ok (clearHalt .host (startCommand d s)))) ∧
  (∀ (k : HaltCause) (s : State), haltOf s.nps k = false →
    let t := setHalt k s
    haltOf t.nps k = true ∧ (∀ m : Fin 32, (t.tiles.tx[m]).output = .off) ∧ (t.flt.sources[(138 : Fin 320)]).cond = true ∧
    (∀ n : Fin 16, (((t.fec.fems[n]).strobes)[(0 : Fin 4)]).asserted = false ∧ (((t.fec.fems[n]).strobes)[(3 : Fin 4)]).asserted = false) ∧
    t.nps.haltTime = s.stamp ∧ t.slices = s.slices ∧ t.time = s.time) ∧
  (∀ (k : HaltCause) (s : State), haltOf s.nps k = true →
    let t := clearHalt k s
    haltOf t.nps k = false ∧ (t.flt.sources[(138 : Fin 320)]).cond = (haltAsserted t && (s.flt.sources[(138 : Fin 320)]).cond) ∧ t.slices = s.slices) ∧
  (∀ (d : Desc) (m : Fin 32) (s : State), Runs 0x20 d s → d.unit .slice 256 = none → d.unit .txPort 32 = some m → d.indirect = false → d.u 12 2 = 16 → d.u 14 1 = 0 →
    firstFail [d.strayCheck [(12, 3)]] = none → (s.nps.port[m]).reflected = true → (s.nps.port[m]).tripped = false → (s.tiles.tx[m]).loadFault = false →
    exec (.protectClear d) s = .next (complete (issueOf 0x20 d s) .ok (unmutePort m .reflected (startCommand d s)))) ∧
  (∀ (d : Desc) (sl : SliceId) (s : State), Runs 0x20 d s → d.unit .slice 256 = some sl → d.indirect = false → d.u 12 2 = 512 → d.u 14 1 = 0 →
    firstFail [d.strayCheck [(12, 3)]] = none → (s.nps.slice[sl]).donorLoss = true → mutePersists sl [.a, .b] .donorLoss s = true →
    exec (.protectClear d) s = .next (refuse (issueOf 0x20 d s) (refuseTarget .stillActive d.tgt) (startCommand d s))) ∧
  (∀ (d : Desc) (sl : SliceId) (s : State), Runs 0x20 d s → d.unit .slice 256 = some sl → d.indirect = false → d.u 12 2 ≠ 0 →
    clearable .slice (d.u 12 2) = true → d.u 14 1 ≤ 2 → firstFail [d.strayCheck [(12, 3)]] = none →
    let r := clearSlice sl (d.u 12 2) (if d.u 14 1 = 1 then [.a] else if d.u 14 1 = 2 then [.b] else [.a, .b]) (startCommand d s)
    exec (.protectClear d) s =
      .next (if r.1 then refuse (issueOf 0x20 d s) (refuseTarget .stillActive d.tgt) r.2 else complete (issueOf 0x20 d s) .ok r.2)) ∧
  (∀ (d : Desc) (m : Fin 32) (s : State), Runs 0x20 d s → d.unit .slice 256 = none → d.unit .txPort 32 = some m → d.indirect = false → d.u 12 2 ≠ 0 →
    clearable .txPort (d.u 12 2) = true → d.u 14 1 ≤ 2 → firstFail [d.strayCheck [(12, 3)]] = none →
    let r := clearTxPort m (d.u 12 2) (startCommand d s)
    exec (.protectClear d) s =
      .next (if r.1 then refuse (issueOf 0x20 d s) (refuseTarget .stillActive d.tgt) r.2 else complete (issueOf 0x20 d s) .ok r.2))

/-- O44. A base tick brings station time to the next tick, makes it the last one, and leaves no set-point waiting. A legal LOOP_WRITE, with its words
in the descriptor or its buffer, writes them and completes OK, but of more than 8 words for the active bank the first 8 now, with the rest waiting on
the slot; a bank that would not be legal is BAD_PARAM, and a slot that swaps or fades REJECTED_BUSY. A LOOP_SWAP and a LOOP_SETPOINT with valid
parameters wait on their slot, and no other slot changes; a TRACE_ARM supersedes the earlier arming of its buffer and arms it, and with trigger 5 it
disarms it and completes OK. Rests on R475, R491, R494, R495, R497, R506, R507. -/
def Obligations.ControlLoops : Prop :=
  (∀ (parity : List (Fin 64 × Fin 512)) (s : State), Does (.loopTick parity) s fun t =>
    t.cen.tick = nextTick s.cen s.now ∧ t.time.q = max s.time.q (gridInstant (nextTick s.cen s.now)) ∧ t.cen.baseLog2 = s.cen.baseLog2 ∧
    (∀ (i : Fin 64) (l : Loop), loopAt i t = some l → l.sets = [])) ∧
  (∀ (d : Desc) (i : Fin 64) (l : Loop) (bs : List Byte) (s : State), Runs 0x28 d s → loopWriteCheck d s = none → loopTarget d s = some (i, l) →
    (if d.indirect then d.bytes else some []) = some bs →
    bankOk (bankOf (putWords (d.byte (paramStart d) == 1) (d.u (paramStart d + 2) 2) (loopWords d bs) l) (d.byte (paramStart d) == 1)) = true →
    l.fade = none → l.swap = none → exec (.loopWrite d) s =
      .next (startWrite i (d.byte (paramStart d) == 1) (d.u (paramStart d + 2) 2) (loopWords d bs) (issueOf 0x28 d s) l (startCommand d s))) ∧
  (∀ (d : Desc) (i : Fin 64) (l : Loop) (s : State), Runs 0x29 d s → loopSwapCheck d s = none → d.unit .loop 64 = some i → loopAt i s = some l →
    Does (.loopSwap d) s fun t =>
      (loopAt i t).map (·.swap) = some (some { instant := instantOrNow (d.u 12 8) s, f := d.byte 20, issue := some (issueOf 0x29 d s) }) ∧
      (∀ k : Fin 64, k ≠ i → t.cen.slot[k] = s.cen.slot[k]) ∧ t = { startCommand d s with cen := { s.cen with slot := t.cen.slot } }) ∧
  (∀ (d : Desc) (i : Fin 64) (l : Loop) (s : State), Runs 0x2A d s → loopSetpointCheck d s = none → d.unit .loop 64 = some i → loopAt i s = some l →
    Does (.loopSetpoint d) s fun t =>
      (loopAt i t).map (·.sets) = some (l.sets ++ [{ j := d.byte 12, target := d.s 16 4, slew := if d.byte 13 = 1 then some (d.u 20 4) else none,
                                                     issue := issueOf 0x2A d s }]) ∧
      (∀ k : Fin 64, k ≠ i → t.cen.slot[k] = s.cen.slot[k]) ∧ t = { startCommand d s with cen := { s.cen with slot := t.cen.slot } }) ∧
  (∀ (d : Desc) (i : Fin 64) (b : Fin 16) (s : State), Runs 0x2B d s → traceArmCheck d s = none → d.unit .loop 64 = some i →
    finOf 16 (d.byte (paramStart d)) = some b → d.byte (paramStart d + 1) ≠ 5 → Does (.traceArm d) s fun t =>
      t.cen.trace[b] = armedTrace d i (issueOf 0x2B d s) s.now ∧ (∀ k : Fin 16, k ≠ b → t.cen.trace[k] = s.cen.trace[k]) ∧
      t = { completeOpt (s.cen.trace[b]).armed .superseded (startCommand d s) with cen := { s.cen with trace := t.cen.trace } }) ∧
  (∀ (d : Desc) (i : Fin 64) (b : Fin 16) (s : State), Runs 0x2B d s → traceArmCheck d s = none → d.unit .loop 64 = some i →
    finOf 16 (d.byte (paramStart d)) = some b → d.byte (paramStart d + 1) = 5 →
    exec (.traceArm d) s = .next (complete (issueOf 0x2B d s) .ok
      (onTrace b (fun t => { t with armed := none }) (completeOpt (s.cen.trace[b]).armed .superseded (startCommand d s))))) ∧
  (∀ (i : Fin 64) (bank : Bool) (start : Nat) (words : List Int) (iss : Issue) (l : Loop) (s : State), loopAt i s = some l →
    (bank ≠ l.active ∨ words.length ≤ 8 → startWrite i bank start words iss l s = complete iss .ok (onLoop i (putWords bank start words) s)) ∧
    (bank = l.active → 8 < words.length → (loopAt i (startWrite i bank start words iss l s)).map (·.writes) =
      some (l.writes ++ [{ bank := bank, start := start + 8, words := words.drop 8, issue := iss }]))) ∧
  (∀ (d : Desc) (i : Fin 64) (l : Loop) (bs : List Byte) (s : State), Runs 0x28 d s → loopWriteCheck d s = none → loopTarget d s = some (i, l) →
    (if d.indirect then d.bytes else some []) = some bs →
    let ok := bankOk (bankOf (putWords (d.byte (paramStart d) == 1) (d.u (paramStart d + 2) 2) (loopWords d bs) l) (d.byte (paramStart d) == 1))
    (ok = false → exec (.loopWrite d) s = .next (refuse (issueOf 0x28 d s) (badParam 0xFFFF) (startCommand d s))) ∧
    (ok = true → (l.fade.isSome || l.swap.isSome) = true →
      exec (.loopWrite d) s = .next (refuse (issueOf 0x28 d s) (refuseTarget .rejectedBusy d.tgt) (startCommand d s))))

/-- O45. A trigger starts a pass on a free SCAN converter that is not retired, with the entry that waits for it; on a busy one, policy 1 discards and
counts it, policy 2 counts a restart and starts the running pass anew, and else it is held, or discarded and counted when one is held already. A
trigger of another converter does nothing. A finished pass of one step publishes its calibrated result and ends. A legal entry that MON_SEQ_SET gives
a converter that scans waits for its next pass, and one that changes to or from SCAN, or goes to a converter that does not scan, takes effect at once
and completes OK; an entry that is not legal, or names another converter, is BAD_PARAM. A reference that is on and becomes ready is stored. Rests on
R512, R513, R515, R516, R517, R534. -/
def Obligations.ConverterPasses : Prop :=
  (∀ (c : Fin 8) (s : State), (s.mon.conv[c]).cfg.mode = .scan → madcRetired c s = false → convBusy c s = false → (s.mon.conv[c]).next = none →
    Does (.passTrigger c) s fun t =>
      t.mon.conv[c] = { s.mon.conv[c] with running := true } ∧ (∀ k : Fin 8, k ≠ c → t.mon.conv[k] = s.mon.conv[k]) ∧
      t = { s with mon := { s.mon with conv := t.mon.conv } }) ∧
  (∀ (c : Fin 8) (s : State), (s.mon.conv[c]).cfg.mode = .scan → madcRetired c s = false → convBusy c s = true → (s.mon.conv[c]).cfg.policy = 1 →
    Does (.passTrigger c) s fun t =>
      t.mon.conv[c] = { s.mon.conv[c] with overrun := min 65535 ((s.mon.conv[c]).overrun + 1) } ∧
      (t.flt.sources[(250 : Fin 320)]).events = (s.flt.sources[(250 : Fin 320)]).events + 1 ∧ t = { s with mon := t.mon, flt := t.flt, pmc := t.pmc }) ∧
  (∀ (c : Fin 8) (st : ConvStep) (a : Nat) (s : State), (s.mon.conv[c]).running = true → refWait s.mon.conv[c] = false → madcTesting c s = false →
    measuring c s = false → (s.mon.conv[c]).cfg.steps = [st] → (s.mon.conv[c]).pending = false → Does (.passComplete c [a]) s fun t =>
      (t.mon.sense[senseIdx c st.input]).value = calibrated (senseIdx c st.input) s.mon.sense[senseIdx c st.input] a ∧
      (t.mon.sense[senseIdx c st.input]).updates = (s.mon.sense[senseIdx c st.input]).updates + 1 ∧ (t.mon.conv[c]).running = false ∧
      (∀ n : Fin 128, n ≠ senseIdx c st.input → t.mon.sense[n] = s.mon.sense[n]) ∧ t = { s with mon := t.mon, pmc := t.pmc }) ∧
  (∀ (d : Desc) (c : Fin 8) (bs : List Byte) (cfg : ConvCfg) (s : State), Runs 0x30 d s → monSeqCheck d = none → d.unit .madc 8 = some c → d.bytes = some bs →
    convOf bs = some (c, cfg) → ownedByOther 0x06 c s = false → (s.mon.conv[c]).next = none → (s.mon.conv[c]).cfg.mode = .scan → cfg.mode = .scan →
    Does (.monSeqSet d) s fun t =>
      t.mon.conv[c] = { s.mon.conv[c] with next := some (cfg, some (issueOf 0x30 d s)) } ∧ (∀ k : Fin 8, k ≠ c → t.mon.conv[k] = s.mon.conv[k]) ∧
      t = { addClaim 0x06 c (startCommand d s) with mon := { s.mon with conv := t.mon.conv } }) ∧
  (∀ (d : Desc) (c : Fin 8) (bs : List Byte) (cfg : ConvCfg) (s : State), Runs 0x30 d s → monSeqCheck d = none → d.unit .madc 8 = some c → d.bytes = some bs →
    convOf bs = some (c, cfg) → ownedByOther 0x06 c s = false → (s.mon.conv[c]).next = none → ((s.mon.conv[c]).cfg.mode ≠ .scan ∨ cfg.mode ≠ .scan) →
    exec (.monSeqSet d) s = .next (complete (issueOf 0x30 d s) .ok (onConv c (takeConvEntry cfg) (addClaim 0x06 c (startCommand d s))))) ∧
  (∀ (c : Fin 8) (s : State), refOn s.mon.conv[c] = true → (s.mon.conv[c]).pending = false → Does (.refReady c) s fun t =>
    t.mon.conv[c] = { s.mon.conv[c] with refReady := true } ∧ (∀ k : Fin 8, k ≠ c → t.mon.conv[k] = s.mon.conv[k]) ∧
    t = { s with mon := { s.mon with conv := t.mon.conv } }) ∧
  (∀ (c : Fin 8) (cfg : ConvCfg) (iss : Option Issue) (s : State), (s.mon.conv[c]).cfg.mode = .scan → madcRetired c s = false → convBusy c s = false →
    (s.mon.conv[c]).next = some (cfg, iss) → Does (.passTrigger c) s fun t =>
      t.mon.conv[c] = { takeConvEntry cfg s.mon.conv[c] with running := decide (cfg.mode = .scan), next := none } ∧
      (∀ k : Fin 8, k ≠ c → t.mon.conv[k] = s.mon.conv[k]) ∧ t.mon.sense = s.mon.sense ∧ t.time = s.time) ∧
  (∀ (c : Fin 8) (s : State), (s.mon.conv[c]).cfg.mode = .scan → madcRetired c s = false → (s.mon.conv[c]).running = true → madcTesting c s = false →
    measuring c s = false → (s.mon.conv[c]).next = none → (s.mon.conv[c]).cfg.policy = 2 → Does (.passTrigger c) s fun t =>
      t.mon.conv[c] = { s.mon.conv[c] with lastAborted := true, restarts := min 65535 ((s.mon.conv[c]).restarts + 1), running := true } ∧
      (∀ k : Fin 8, k ≠ c → t.mon.conv[k] = s.mon.conv[k]) ∧ t = { s with mon := { s.mon with conv := t.mon.conv } }) ∧
  (∀ (c : Fin 8) (s : State), (s.mon.conv[c]).cfg.mode = .scan → madcRetired c s = false → convBusy c s = true → (s.mon.conv[c]).cfg.policy = 0 →
    Does (.passTrigger c) s fun t =>
      (if (s.mon.conv[c]).pending then t.mon.conv[c] = { s.mon.conv[c] with overrun := min 65535 ((s.mon.conv[c]).overrun + 1) }
       else t.mon.conv[c] = { s.mon.conv[c] with pending := true } ∧ t.flt = s.flt) ∧
      (∀ k : Fin 8, k ≠ c → t.mon.conv[k] = s.mon.conv[k]) ∧ t = { s with mon := t.mon, flt := t.flt, pmc := t.pmc }) ∧
  (∀ (c : Fin 8) (s : State), ((s.mon.conv[c]).cfg.mode ≠ .scan ∨ madcRetired c s = true) → exec (.passTrigger c) s = .next s) ∧
  (∀ (d : Desc) (c : Fin 8) (bs : List Byte) (s : State), Runs 0x30 d s → monSeqCheck d = none → d.unit .madc 8 = some c → d.bytes = some bs →
    (∀ cfg : ConvCfg, convOf bs ≠ some (c, cfg)) →
    exec (.monSeqSet d) s = .next (refuse (issueOf 0x30 d s) (badParam 0xFFFF) (startCommand d s))) ∧
  (∀ (d : Desc) (c : Fin 8) (bs : List Byte) (cfg : ConvCfg) (s : State), Runs 0x30 d s → monSeqCheck d = none → d.unit .madc 8 = some c → d.bytes = some bs →
    convOf bs = some (c, cfg) → ownedByOther 0x06 c s = false →
    exec (.monSeqSet d) s = .next (installEntry c cfg (issueOf 0x30 d s) (startCommand d s)))

/-- O46. A MON_INJECT with valid parameters waits last on its converter, and a MON_CAL with valid parameters starts its measurement there. An
injection that converts leaves the queue and publishes its calibrated result, which on a converter that does not stream stands as the only change of a
result; the oldest of the host that waited for the time-out completes TIMEOUT then. A measurement that ends puts the new terms of its input in force
and completes OK, or changes none and completes BAD_PARAM where they leave their range, or the input is open, or the converter is retired. Rests on
R520, R521, R522, R523, R524, R525. -/
def Obligations.MonitorInjectionAndCalibration : Prop :=
  (∀ (d : Desc) (c : Fin 8) (i : Fin 16) (s : State), Runs 0x31 d s → monInjectCheck d s = none → d.unit .madc 8 = some c → finOf 16 (d.byte 20) = some i →
    Does (.monInject d) s fun t =>
      (t.mon.conv[c]).queue = (s.mon.conv[c]).queue ++
        [{ issue := some (issueOf 0x31 d s), address := d.u 12 8, input := i, avg := d.byte 21, settle := d.byte 22,
           blocked := (s.mon.conv[c]).cal.isSome, held := (s.mon.conv[c]).cal.isSome, newCal := false, since := s.time.mono }] ∧
      (∀ k : Fin 8, k ≠ c → t.mon.conv[k] = s.mon.conv[k]) ∧ t = { startCommand d s with mon := { s.mon with conv := t.mon.conv } }) ∧
  (∀ (c : Fin 8) (stamp a : Nat) (i : MonInjection) (s : State), refWait s.mon.conv[c] = false → madcTesting c s = false → madcRetired c s = false →
    nextInjection s.mon.conv[c] = some i → (s.mon.conv[c]).cfg.mode ≠ .stream → Does (.injectionComplete c false stamp a) s fun t =>
      (t.mon.sense[senseIdx c i.input]).value = calibrated (senseIdx c i.input) s.mon.sense[senseIdx c i.input] a ∧
      (t.mon.conv[c]).queue = removeFirst (· == i) (s.mon.conv[c]).queue ∧
      (∀ n : Fin 128, n ≠ senseIdx c i.input → t.mon.sense[n] = s.mon.sense[n]) ∧ t.time = s.time ∧ t.slices = s.slices) ∧
  (∀ (c : Fin 8) (stamp a : Nat) (i : MonInjection) (iss : Issue) (s : State), ((s.mon.conv[c]).queue.find? fun i => i.issue.isSome) = some i → i.issue = some iss →
    let u := advanceMono (i.since + 4000 * s.mon.timeout) s
    exec (.injectionComplete c true stamp a) s = .next (complete iss .timeout (onConv c (fun x => { x with queue := removeFirst (· == i) x.queue }) u)) ∧
    u.time.mono = max s.time.mono (i.since + 4000 * s.mon.timeout)) ∧
  (∀ (d : Desc) (c : Fin 8) (i : Fin 16) (s : State), Runs 0x32 d s → monCalCheck d s = none → d.unit .madc 8 = some c → finOf 16 (d.byte 12) = some i →
    Does (.monCal d) s fun t =>
      (t.mon.conv[c]).cal = some { issue := issueOf 0x32 d s, input := i, phase := calPhaseOf (d.byte 13), avg := if d.byte 14 = 0 then 8 else d.byte 14,
                                   settle := d.byte 15, expected := d.s 16 4 } ∧
      (t.mon.conv[c]).lastPhase = calPhaseOf (d.byte 13) ∧ (∀ k : Fin 8, k ≠ c → t.mon.conv[k] = s.mon.conv[k]) ∧
      t = { startCommand d s with mon := { s.mon with conv := t.mon.conv } }) ∧
  (∀ (c : Fin 8) (a : Nat) (r : CalRun) (y : Sense) (s : State), (s.mon.conv[c]).cal = some r → measuring c s = true → (s.mon.conv[c]).pending = false →
    (s.mon.sense[senseIdx c r.input]).isOpen = false → madcRetired c s = false → calResult (senseIdx c r.input) r a s.mon.sense[senseIdx c r.input] = some y →
    Does (.calMeasurementDone c a) s fun t =>
      (t.mon.sense[senseIdx c r.input]).trim = y.trim ∧ (t.mon.sense[senseIdx c r.input]).offset = y.offset ∧
      (t.mon.sense[senseIdx c r.input]).zero = y.zero ∧ (t.mon.conv[c]).cal = none ∧
      (∀ n : Fin 128, n ≠ senseIdx c r.input → (t.mon.sense[n]).trim = (s.mon.sense[n]).trim ∧ (t.mon.sense[n]).offset = (s.mon.sense[n]).offset) ∧
      t = { s with mon := t.mon, hif := t.hif, evr := t.evr, pmc := t.pmc, out := t.out }) ∧
  (∀ (c : Fin 8) (a : Nat) (r : CalRun) (s : State), (s.mon.conv[c]).cal = some r → measuring c s = true → (s.mon.conv[c]).pending = false →
    ((s.mon.sense[senseIdx c r.input]).isOpen = true ∨ madcRetired c s = true ∨
      calResult (senseIdx c r.input) r a s.mon.sense[senseIdx c r.input] = none) → Does (.calMeasurementDone c a) s fun t =>
      (∀ n : Fin 128, (t.mon.sense[n]).trim = (s.mon.sense[n]).trim ∧ (t.mon.sense[n]).offset = (s.mon.sense[n]).offset ∧
        (t.mon.sense[n]).zero = (s.mon.sense[n]).zero) ∧ (t.mon.conv[c]).cal = none) ∧
  (∀ (c : Fin 8) (stamp a : Nat) (i : MonInjection) (s : State), refWait s.mon.conv[c] = false → madcTesting c s = false → madcRetired c s = false →
    nextInjection s.mon.conv[c] = some i → Does (.injectionComplete c false stamp a) s fun t =>
      (t.mon.conv[c]).queue = removeFirst (· == i) (s.mon.conv[c]).queue ∧ (∀ k : Fin 8, k ≠ c → t.mon.conv[k] = s.mon.conv[k]) ∧
      (∀ n : Fin 128, convOfSense n ≠ c → t.mon.sense[n] = s.mon.sense[n]) ∧
      (i.issue.isSome = true → ∃ bytes, Out.hostWrite i.address bytes ∈ t.out) ∧ t.time = s.time ∧ t.slices = s.slices)

/-- O47. An enabled comparator that trips is tripped and latched, and asks for an automatic conversion of its input; at the upper threshold of a
reflected input it mutes a port that REFLECTED protects. One that is disabled, or whose lower threshold is 0 as that trips, does nothing; one that is
released is tripped no longer but stays latched. The third conversion in a row that exceeds the normal one by 2,048 codes opens the input and counts
on source 249, and the third in a row below 1,024 ends that. A reference result outside 8,192 ± 40 codes counts on the converter's source and asks for
its self-test, and one inside does neither; a self-test that fails retires the converter, and one that passes does not. Rests on R343, R527, R528,
R530, R531, R532, R580. -/
def Obligations.ComparatorsAndChecks : Prop :=
  (∀ (n : Fin 64) (s : State), (s.mon.cmp[n]).cfg.enable = true → n.val % 2 = 1 → (s.nps.port[cmpPort n]).reflectedEnable = true →
    (s.nps.port[cmpPort n]).reflected = false → Does (.comparatorTrip n true) s fun t =>
      (t.mon.cmp[n]).tripped = true ∧ (t.mon.cmp[n]).latch = true ∧ (t.nps.port[cmpPort n]).tripped = true ∧ (t.nps.port[cmpPort n]).reflected = true ∧
      (∀ k : Fin 64, k ≠ n → t.mon.cmp[k] = s.mon.cmp[k]) ∧ t.slices = s.slices ∧ t.time = s.time) ∧
  (∀ (n : Fin 64) (s : State), n.val % 2 = 1 → Does (.comparatorRelease n) s fun t =>
    t.mon.cmp[n] = { s.mon.cmp[n] with tripped := false } ∧ (t.nps.port[cmpPort n]).tripped = false ∧
    (∀ k : Fin 64, k ≠ n → t.mon.cmp[k] = s.mon.cmp[k]) ∧ t = { s with mon := { s.mon with cmp := t.mon.cmp }, nps := { s.nps with port := t.nps.port } }) ∧
  (∀ (c : Fin 8) (i : Fin 16) (x : Int) (s : State), checksInput s.mon.conv[c] i = true → refWait s.mon.conv[c] = false → madcTesting c s = false →
    madcRetired c s = false → (s.mon.sense[senseIdx c i]).isOpen = false → 2 ≤ (s.mon.sense[senseIdx c i]).openRun → 2048 ≤ x →
    Does (.openCheck c i x) s fun t =>
      (t.mon.sense[senseIdx c i]).isOpen = true ∧ (t.flt.sources[(249 : Fin 320)]).events = (s.flt.sources[(249 : Fin 320)]).events + 1 ∧
      (∀ n : Fin 128, n ≠ senseIdx c i → t.mon.sense[n] = s.mon.sense[n]) ∧ t = { s with mon := t.mon, flt := t.flt, pmc := t.pmc }) ∧
  (∀ (c : Fin 8) (code : Nat) (s : State), refWait s.mon.conv[c] = false → madcTesting c s = false → madcRetired c s = false →
    (code < 8152 ∨ 8232 < code) → testOf .madc c s = none → Does (.referenceCheck c code) s fun t =>
      (t.flt.sources[refSource c]).events = (s.flt.sources[refSource c]).events + 1 ∧ (testOf .madc c t).isSome = true ∧
      t = { s with mon := t.mon, flt := t.flt, pmc := t.pmc }) ∧
  (∀ (c : Fin 8) (x : SelfTest) (s : State), testOf .madc c s = some x → (s.mon.conv[c]).pending = false → Does (.madcSelftestDone c true) s fun t =>
    testOf .madc c t = none ∧ (∃ l, t.flt.stLast = some l ∧ l.pass = true) ∧ t.mon = s.mon ∧ t.map = s.map) ∧
  (∀ (c : Fin 8) (x : SelfTest) (s : State), testOf .madc c s = some x → Does (.madcSelftestDone c false) s fun t =>
    (t.map.madcs).getLsbD c = true ∧ (t.mon.conv[c]).running = false ∧ (∃ l, t.flt.stLast = some l ∧ l.pass = false)) ∧
  (∀ (n : Fin 64) (high : Bool) (s : State), (s.mon.cmp[n]).cfg.enable = true → (high = true ∨ (s.mon.cmp[n]).cfg.lo ≠ 0) →
    Does (.comparatorTrip n high) s fun t =>
      t.mon.cmp[n] = { s.mon.cmp[n] with tripped := true, latch := true } ∧
      (∃ i ∈ (t.mon.conv[convOfSense (cmpSense n)]).queue, i.issue = none ∧ i.input.val = n.val % 16) ∧
      ((high = false ∨ n.val % 2 = 0) → t = { s with mon := t.mon })) ∧
  (∀ (n : Fin 64) (high : Bool) (s : State), ((s.mon.cmp[n]).cfg.enable = false ∨ (high = false ∧ (s.mon.cmp[n]).cfg.lo = 0)) →
    exec (.comparatorTrip n high) s = .next s) ∧
  (∀ (n : Fin 64) (s : State), n.val % 2 = 0 → Does (.comparatorRelease n) s fun t =>
    t.mon.cmp[n] = { s.mon.cmp[n] with tripped := false } ∧ (∀ k : Fin 64, k ≠ n → t.mon.cmp[k] = s.mon.cmp[k]) ∧
    t = { s with mon := { s.mon with cmp := t.mon.cmp } }) ∧
  (∀ (c : Fin 8) (i : Fin 16) (x : Int) (s : State), checksInput s.mon.conv[c] i = true → refWait s.mon.conv[c] = false → madcTesting c s = false →
    madcRetired c s = false → 2 ≤ (s.mon.sense[senseIdx c i]).clearRun → x < 1024 → Does (.openCheck c i x) s fun t =>
      (t.mon.sense[senseIdx c i]).isOpen = false ∧ t = { s with mon := t.mon, pmc := t.pmc }) ∧
  (∀ (c : Fin 8) (code : Nat) (s : State), refWait s.mon.conv[c] = false → madcTesting c s = false → madcRetired c s = false →
    8152 ≤ code → code ≤ 8232 → Does (.referenceCheck c code) s fun t => t = { s with mon := t.mon, pmc := t.pmc })

/-- O48. LANE_CTL that enables a lane which HOST owns and which is not RETIRED trains it with the set-up of the descriptor and waits, and completes OK
where the lane is UP with that set-up; one that disables it turns it off and completes OK; one that retrains a lane, neither OFF nor RETIRED, that
carries no feeds or has an UP spare trains it and waits, and without a spare ends NO_CAPACITY. On a lane that another owns enable and disable end
BUSY_OWNED. A training lane that comes up is UP; one that times out trains again, and a waiting enable completes TIMEOUT. A failure that the lane
shows makes an UP lane FAILED, counts an event of its link's source 176 + g and asks for its self-test; a third superframe in a row above deg_ser
declares a lane degraded, and one that carries nothing starts its self-test; 1,000 superframes below half of it end that. A self-test that passes
retrains an enabled lane and turns another off, and one that fails retires the lane with an event of source 202. A lane that is healthy for 1 s
recovers no longer. A header of the expected peer gives the lane its arrival times and counts the FEC's work; one of another peer or site makes the
lane FAILED and marks the link. Rests on R404, R405, R406, R408, R409, R413, R432, R438, R439, R441. -/
def Obligations.LanesTrainAndFail : Prop :=
  (∀ (d : Desc) (l : Fin 64) (s : State), Runs 0x38 d s → firstFail (laneCtlCheck d) = none → d.unit .lane 64 = some l → d.u 12 1 = 1 →
    ownedByOther 0x0B l s = false → (s.lnk.lane[l]).state ≠ .retired → (s.lnk.lane[l]).state ≠ .up → Does (.laneCtl d) s fun t =>
      (t.lnk.lane[l]).state = .training ∧ (t.lnk.lane[l]).enabled = true ∧ (t.lnk.lane[l]).issue = some (issueOf 0x38 d s) ∧
      (t.lnk.lane[l]).cfg = { (s.lnk.lane[l]).cfg with rate := d.u 13 1, fecOff := bitOf (d.u 14 1) 0, txInvert := bitOf (d.u 14 1) 1 } ∧
      (∀ k : Fin 64, k ≠ l → t.lnk.lane[k] = s.lnk.lane[k]) ∧
      ((s.lnk.lane[l]).issue = none → t = { addClaim 0x0B l (startCommand d s) with lnk := { s.lnk with lane := t.lnk.lane } })) ∧
  (∀ (d : Desc) (l : Fin 64) (s : State), Runs 0x38 d s → firstFail (laneCtlCheck d) = none → d.unit .lane 64 = some l → d.u 12 1 = 0 →
    ownedByOther 0x0B l s = false → (s.lnk.lane[l]).state ≠ .retired → Does (.laneCtl d) s fun t =>
      (t.lnk.lane[l]).state = .off ∧ (t.lnk.lane[l]).enabled = false ∧ (t.lnk.lane[l]).issue = none ∧ t.slices = s.slices) ∧
  (∀ (l : Fin 64) (inv : Bool) (s : State), (s.lnk.lane[l]).state = .training → (s.lnk.lane[l]).testPending = false → Does (.laneUp l inv) s fun t =>
    (t.lnk.lane[l]).state = .up ∧ (t.lnk.lane[l]).rxInverted = inv ∧ (t.lnk.lane[l]).degraded = false ∧ (t.lnk.lane[l]).issue = none) ∧
  (∀ (l : Fin 64) (i : Issue) (s : State), (s.lnk.lane[l]).state = .training → (s.lnk.lane[l]).issue = some i → (s.lnk.lane[l]).retrain = false →
    exec (.laneTrainTimeout l) s = .next (refuse i (refuseTarget .timeout (target .lane l)) (onLane l (fun y => { y with issue := none }) (trainLane l s)))) ∧
  (∀ (l : Fin 64) (s : State), (s.lnk.lane[l]).state = .training → ((s.lnk.lane[l]).issue = none ∨ (s.lnk.lane[l]).retrain = true) →
    exec (.laneTrainTimeout l) s = .next (trainLane l s)) ∧
  (∀ (l : Fin 64) (g : Fin 16) (r : LaneFault) (s : State), (s.lnk.lane[l]).state = .up → (s.lnk.lane[l]).cfg.link = some g →
    laneFaulty r s.lnk.lane[l] = true → Does (.laneFail l r) s fun t =>
      (t.lnk.lane[l]).state = .failed ∧ (testOf .lane l t).isSome = true ∧
      (t.flt.sources[(⟨176 + g.val, by omega⟩ : Fin 320)]).events = (s.flt.sources[(⟨176 + g.val, by omega⟩ : Fin 320)]).events + 1) ∧
  (∀ (l : Fin 64) (s : State), (s.lnk.lane[l]).state = .up → (s.lnk.lane[l]).degraded = false → 3 ≤ (s.lnk.lane[l]).above → carryingLane l s = false →
    Does (.laneDegraded l) s fun t =>
      (t.lnk.lane[l]).state = .testing ∧ (t.lnk.lane[l]).degraded = true ∧ (testOf .lane l t).isSome = true ∧
      (t.flt.sources[(192 : Fin 320)]).events = (s.flt.sources[(192 : Fin 320)]).events + 1) ∧
  (∀ (l : Fin 64) (s : State), (s.lnk.lane[l]).state = .up → (s.lnk.lane[l]).degraded = true → 1000 ≤ (s.lnk.lane[l]).below →
    exec (.laneDegraded l) s = .next (onLane l (fun y => { y with degraded := false }) s)) ∧
  (∀ (l : Fin 64) (x : SelfTest) (s : State), testOf .lane l s = some x → ((s.lnk.lane[l]).state = .testing ∨ (s.lnk.lane[l]).state = .failed) →
    Does (.laneSelftestDone l true) s fun t =>
      (t.lnk.lane[l]).state = (if (s.lnk.lane[l]).enabled then .training else .off) ∧ testOf .lane l t = none ∧
      (∀ k : Fin 64, k ≠ l → t.lnk.lane[k] = s.lnk.lane[k]) ∧ t.map = s.map) ∧
  (∀ (l : Fin 64) (x : SelfTest) (s : State), testOf .lane l s = some x → ((s.lnk.lane[l]).state = .testing ∨ (s.lnk.lane[l]).state = .failed) →
    Does (.laneSelftestDone l false) s fun t =>
      (t.lnk.lane[l]).state = .retired ∧ (t.lnk.lane[l]).enabled = false ∧ testOf .lane l t = none ∧ (t.map.lanes).getLsbD l = true ∧
      (t.flt.sources[(202 : Fin 320)]).events = (s.flt.sources[(202 : Fin 320)]).events + 1) ∧
  (∀ (l : Fin 64) (s : State), (s.lnk.lane[l]).state = .up → (s.lnk.lane[l]).recovering = true → (s.lnk.lane[l]).testPending = false →
    Does (.laneSpareReady l) s fun t => (t.lnk.lane[l]).state = .up ∧ (t.lnk.lane[l]).recovering = false) ∧
  (∀ (l : Fin 64) (g : Fin 16) (offset : Int) (words : List Nat) (fec : FecCounts) (s : State), (s.lnk.lane[l]).state = .up → (s.lnk.lane[l]).cfg.link = some g →
    (headerOf words).site = s.lnk.site → (headerOf words).node = (s.lnk.link[g]).cfg.peer → (∀ k : Fin 64, (headerOf words).laneUp.getLsbD k = true) →
    s.time.source = false → Does (.frameHeader l offset words fec) s fun t =>
      (t.lnk.lane[l]).state = .up ∧ (t.lnk.lane[l]).arrival = some offset ∧ (t.lnk.lane[l]).peerArrival = (headerOf words).arrival ∧
      (t.lnk.lane[l]).corrected = ((s.lnk.lane[l]).corrected + fec.corrected) % 2 ^ 40 ∧
      (t.lnk.lane[l]).uncorrectable = ((s.lnk.lane[l]).uncorrectable + fec.uncorrectable) % 2 ^ 24 ∧ (t.lnk.link[g]).peerSeen = (headerOf words).node ∧
      t = { s with lnk := t.lnk, pmc := t.pmc }) ∧
  (∀ (l : Fin 64) (g : Fin 16) (offset : Int) (words : List Nat) (fec : FecCounts) (s : State), (s.lnk.lane[l]).state = .up → (s.lnk.lane[l]).cfg.link = some g →
    ((headerOf words).node ≠ (s.lnk.link[g]).cfg.peer ∨ (headerOf words).site ≠ s.lnk.site) → Does (.frameHeader l offset words fec) s fun t =>
      (t.lnk.lane[l]).state = .failed ∧ (t.lnk.link[g]).peerMismatch = true) ∧
  (∀ (d : Desc) (l : Fin 64) (s : State), Runs 0x38 d s → firstFail (laneCtlCheck d) = none → d.unit .lane 64 = some l → d.u 12 1 = 2 →
    (s.lnk.lane[l]).state ≠ .retired → (s.lnk.lane[l]).state ≠ .off →
    (carryingLane l s && !(((s.lnk.lane[l]).cfg.link).any fun g => (spareOf g s).isSome)) = false → Does (.laneCtl d) s fun t =>
      (t.lnk.lane[l]).state = .training ∧ (t.lnk.lane[l]).retrain = true ∧ (t.lnk.lane[l]).issue = some (issueOf 0x38 d s)) ∧
  (∀ (d : Desc) (l : Fin 64) (s : State), Runs 0x38 d s → firstFail (laneCtlCheck d) = none → d.unit .lane 64 = some l → d.u 12 1 = 2 →
    (s.lnk.lane[l]).state ≠ .retired → (s.lnk.lane[l]).state ≠ .off →
    (carryingLane l s && !(((s.lnk.lane[l]).cfg.link).any fun g => (spareOf g s).isSome)) = true →
    exec (.laneCtl d) s = .next (refuse (issueOf 0x38 d s) (refuseTarget .noCapacity d.tgt) (startCommand d s))) ∧
  (∀ (d : Desc) (l : Fin 64) (s : State), Runs 0x38 d s → firstFail (laneCtlCheck d) = none → d.unit .lane 64 = some l → d.u 12 1 ≤ 1 →
    ownedByOther 0x0B l s = true → (s.lnk.lane[l]).state ≠ .retired →
    exec (.laneCtl d) s = .next (refuse (issueOf 0x38 d s) (refuseTarget .busyOwned d.tgt) (startCommand d s))) ∧
  (∀ (d : Desc) (l : Fin 64) (s : State), Runs 0x38 d s → firstFail (laneCtlCheck d) = none → d.unit .lane 64 = some l → d.u 12 1 = 1 →
    ownedByOther 0x0B l s = false → (s.lnk.lane[l]).state = .up →
    let c : LaneCfg := { (s.lnk.lane[l]).cfg with rate := d.u 13 1, fecOff := bitOf (d.u 14 1) 0, txInvert := bitOf (d.u 14 1) 1 }
    (c = (s.lnk.lane[l]).cfg → exec (.laneCtl d) s = .next (complete (issueOf 0x38 d s) .ok (addClaim 0x0B l (startCommand d s)))) ∧
    (c ≠ (s.lnk.lane[l]).cfg → Does (.laneCtl d) s fun t =>
      (t.lnk.lane[l]).state = .training ∧ (t.lnk.lane[l]).cfg = c ∧ (t.lnk.lane[l]).issue = some (issueOf 0x38 d s)))

/-- O49. LINK_MAP with a valid list that fits waits for the superframe start at or after its instant, at least 1 ms away, and takes effect there; with
a list that is not valid it ends BAD_PARAM, and while another map or a commit waits REJECTED_BUSY. A tick sends every block that waits, and a FAILED
lane then starts its self-test. A segment whose descriptor names this node as origin is discarded; one that a FORWARD entry takes waits block by block
to be sent on, and nothing else changes; the descriptor word and its fields agree both ways. After a block's playout its stream holds no block up to
it. Rests on R412, R414, R415, R420, R424, R426, R427, R430. -/
def Obligations.StreamsAreMappedSentAndPlayed : Prop :=
  (∀ (d : Desc) (bs : List Byte) (l : List StreamEntry) (u s : State), Runs 0x39 d s → linkMapCheck d = none → d.bytes = some bs →
    streamsOf (bs.length / 16) bs = some l → entriesOk (linksNow s) (defsNow s) l = true → streamsDistinct (mergeEntries s.lnk.streams l) = true →
    s.lnk.pending = none → s.cfg.commit = none → feedsFit (linksNow s) (lanesNow s) (defsNow s) (mergeEntries s.lnk.streams l) = true →
    reserveDelays (defsNow (startCommand d s)) (mergeEntries s.lnk.streams l) (startCommand d s) = some u →
    let p : PendingMap :=
      { entries := mergeEntries s.lnk.streams l, at' := superframeAt (max (instantOrNow (d.u 20 8) u) (u.now + 4000000))
        issue := some (issueOf 0x39 d s), linkPart := none }
    exec (.linkMap d) s = .next { u with lnk := { u.lnk with pending := some p } }) ∧
  (∀ (p : PendingMap) (s : State), s.lnk.pending = some p → p.linkPart = none →
    exec .linkMapEffect s = .next (settleUnits (completeOpt p.issue .ok
      (applyStreams p.entries (onLnk (fun l => { l with pending := none }) (advanceTo p.at' s)))))) ∧
  (∀ (p : PendingMap) (s : State), s.lnk.pending = some p → Does .linkMapEffect s fun t =>
    t.lnk.streams = p.entries ∧ t.lnk.pending = none ∧ t.time.q = max s.time.q p.at' ∧
    (∀ sec, p.linkPart = some sec → t.lnk.node = sec.node ∧ t.lnk.site = sec.site)) ∧
  (∀ s : State, Does .tickSend s fun t =>
    t.lnk.toSend = [] ∧ t.time.q = ceilTo 4000 s.time.q ∧
    (∀ l : Fin 64, t.lnk.lane[l] = if (s.lnk.lane[l]).state = .failed then { s.lnk.lane[l] with state := .testing } else s.lnk.lane[l]) ∧
    t = { advanceTo (ceilTo 4000 s.time.q) s with lnk := { s.lnk with toSend := [], lane := t.lnk.lane }, out := t.out }) ∧
  (∀ (l : Fin 64) (descriptor : Nat) (bytes : List Byte) (s : State), (segmentHeadOf descriptor).origin = s.lnk.node →
    exec (.segmentReceive l descriptor bytes) s = .next s) ∧
  (∀ (l : Fin 64) (g : Fin 16) (e : StreamEntry) (descriptor : Nat) (bytes : List Byte) (s : State),
    let h := segmentHeadOf descriptor
    (s.lnk.lane[l]).cfg.link = some g → (s.lnk.lane[l]).state = .up → (s.lnk.streams.find? fun e => e.stream == h.stream && needsIn e.role) = some e →
    e.role = .forward → h.origin ≠ s.lnk.node → arrivalLink (linksNow s) e h.feed = some g →
    let first := fullNumber (blockNumber (entryK (defsNow s) e) s.now) h.number
    let held : List HeldBlock := (segmentBlocks h bytes).zipIdx.map fun x =>
      { stream := h.stream, feed := h.feed, number := first + x.2, contrib := h.contrib, origin := h.origin, block := x.1, holes := [] }
    exec (.segmentReceive l descriptor bytes) s = .next { s with lnk := { s.lnk with toSend := s.lnk.toSend ++ held } }) ∧
  (∀ (e : StreamEntry) (stream number : Nat) (s : State),
    (s.lnk.streams.find? fun e => e.stream == stream && (e.role == .terminate || e.role == .dropForward || e.role == .addForward)) = some e →
    Does (.blockPlayout stream number) s fun t =>
      (∀ b ∈ t.lnk.buffered, b.stream = stream → number < b.number) ∧
      t.time.q = max s.time.q (number * 2 ^ (entryK (defsNow s) e + 4) + 4 * e.target) ∧ t.lnk.streams = s.lnk.streams ∧ t.slices = s.slices) ∧
  (∀ h : SegmentHead, h.stream < 2 ^ 16 → h.count < 2 ^ 8 → h.width < 4 → h.feed < 2 → h.origin < 16 → h.contrib < 2 ^ 9 → h.number < 2 ^ 24 →
    segmentHeadOf (segmentHeadWord h) = h) ∧
  (∀ (d : Desc) (bs : List Byte) (s : State), Runs 0x39 d s → linkMapCheck d = none → d.bytes = some bs → streamsOf (bs.length / 16) bs = none →
    exec (.linkMap d) s = .next (refuse (issueOf 0x39 d s) (badParam 0xFFFF) (startCommand d s))) ∧
  (∀ (d : Desc) (bs : List Byte) (l : List StreamEntry) (s : State), Runs 0x39 d s → linkMapCheck d = none → d.bytes = some bs →
    streamsOf (bs.length / 16) bs = some l → entriesOk (linksNow s) (defsNow s) l = true → streamsDistinct (mergeEntries s.lnk.streams l) = true →
    (s.lnk.pending.isSome = true ∨ s.cfg.commit.isSome = true) →
    exec (.linkMap d) s = .next (refuse (issueOf 0x39 d s) (refusal .rejectedBusy) (startCommand d s)))

/-- O50. CFG_STAGE of an image that verifies gives STAGED that image and its copy a bank, and completes OK; one that does not verify ends as the
verification says. CFG_COMMIT with valid parameters on a STAGED image that passes the checks holds it for its instant, which is an epoch strobe at
least 20 ms ahead; one whose checks fail ends as they say, and one while a commit, a rollback or a window is in the way REJECTED_BUSY. A commit that
is due installs its image and makes it ACTIVE; of the slots as the installation leaves them, ACTIVE becomes PREVIOUS and STAGED empty; it opens the
window and raises the highest committed version. CFG_CONFIRM in the window closes it, without one does nothing, and once E is reached ends TIMEOUT.
CFG_ROLLBACK waits for its instant and returns there; the end of an unconfirmed window starts the automatic return; a return installs PREVIOUS and
makes it ACTIVE. A STAGED copy that was lost is built again while its image verifies on an owned part, and STAGED is emptied with an event of source
291 when it does not. Rests on R127, R129, R131, R134, R135, R137, R139, R142, R143, R144, R145, R148. -/
def Obligations.ImagesAreStagedCommittedAndReturned : Prop :=
  (∀ (d : Desc) (sigOk digestOk : Bool) (bs : List Byte) (i : Image) (b : Fin 48) (s : State), Runs 0x02 d s → stageCheck d = none → d.bytes = some bs →
    leAt bs 12 4 = d.length.toNat → s.cfg.commit = none → verifyImage bs sigOk digestOk (startCommand d s) = .ok i →
    stagedChoice (onPlc (fun p => { p with stagedBank := none }) (startCommand d s)) = some b →
    Does (.cfgStage d sigOk digestOk) s fun t =>
      t.cfg.staged = some { area := freeArea s.cfg, image := i } ∧ t.cfg.returned = false ∧ t.plc.stagedBank = some b ∧
      t.cfg.active = s.cfg.active ∧ t.cfg.previous = s.cfg.previous ∧ t.slices = s.slices) ∧
  (∀ (d : Desc) (ue : Bool) (x : Slot) (tt : Nat) (s : State), Runs 0x03 d s → firstFail (commitFields d) = none → d.byte 22 = 0 → commitBusy s.cfg = false →
    commitCheck d ue (startCommand d s) = none → s.cfg.staged = some x → commitInstant (d.u 12 8) s = some tt →
    let p : PendingCommit :=
      { issue := issueOf 0x03 d s, instant := tt, window := if d.u 20 2 = 0 then x.image.window else d.u 20 2, area := x.area, image := x.image }
    128 ∣ tt ∧ s.time.q + 80000000 ≤ tt ∧
    exec (.cfgCommit d ue) s = .next (settleUnits (startLeaving x.image
      { startCommand d s with cfg := { s.cfg with commit := some p, commitTime := stampOf tt } }))) ∧
  (∀ (p : PendingCommit) (s : State), s.cfg.commit = some p →
    let u := applyImage p.image
      (cfgRecord 0 (slotVersion s.cfg.active) p.image.version { advanceTo p.instant s with cfg := { s.cfg with commit := none } })
    Does .commitApply s fun t =>
    t.cfg.active = some { area := p.area, image := p.image } ∧ t.cfg.previous = u.cfg.active ∧ t.cfg.staged = none ∧ t.cfg.commit = u.cfg.commit ∧
    t.cfg.high = max u.cfg.high p.image.version ∧ t.cfg.window = some (p.instant + p.window * qSecond) ∧ t.cfg.confirmed = false ∧ t.boot.locked = true ∧
    t.plc.stagedBank = none ∧ t.slices = u.slices) ∧
  (∀ (d : Desc) (e : Nat) (s : State), Runs 0x04 d s → d.indirect = false → d.tgt = 0x0C000000 → (d.strayCheck [(12, 4)]).1 = false →
    confirmLate s = false → s.cfg.active.isSome = true → slotVersion s.cfg.active = d.u 12 4 → s.cfg.window = some e →
    Does (.cfgConfirm d) s fun t =>
      t.cfg = { s.cfg with window := none, confirmed := true } ∧ t.slices = s.slices ∧ t.lnk = s.lnk ∧ t.time = s.time) ∧
  (∀ (d : Desc) (tt : Nat) (s : State), Runs 0x05 d s → d.indirect = false → d.tgt = 0x0C000001 → (d.strayCheck [(12, 8)]).1 = false →
    s.cfg.previous.isSome = true → s.cfg.commit = none → s.cfg.rollback = none → commitInstant (d.u 12 8) s = some tt →
    exec (.cfgRollback d) s = .next { startCommand d s with cfg := { s.cfg with rollback := some (issueOf 0x05 d s, tt) } }) ∧
  (∀ (e : Nat) (s : State), s.cfg.window = some e →
    exec .windowEnd s = .next { advanceTo e s with cfg := { s.cfg with window := none, autoReturn := some (returnAt e) } }) ∧
  (∀ (a : Nat) (s : State), s.cfg.autoReturn = some a → s.cfg.rollback = none → Does .fallbackReturn s fun t =>
    let u := applyConfig (s.cfg.previous.map (·.image)) (cfgRecord 1 (slotVersion s.cfg.active) (slotVersion s.cfg.previous) (advanceTo a s))
    t.cfg.active = u.cfg.previous ∧ t.cfg.previous = none ∧ t.cfg.window = none ∧ t.cfg.autoReturn = none ∧ t.cfg.confirmed = true ∧ t.slices = u.slices) ∧
  (∀ (x : Slot) (b : Fin 48) (s : State), s.cfg.staged = some x → s.plc.stagedBank = none → stagedChoice s = some b → s.cfg.returned = false →
    (s.flash.area[x.area]).isSome = true → ownedPart s = true → contentOk x.image s = true → bindingOk x.image = true → s.cfg.high < x.image.version →
    exec (.stagedCopyRebuild true) s = .next (bumpGen { s with plc := { s.plc with stagedBank := some b } })) ∧
  (∀ (d : Desc) (sigOk digestOk : Bool) (bs : List Byte) (r : Refuse) (s : State), Runs 0x02 d s → stageCheck d = none → d.bytes = some bs →
    leAt bs 12 4 = d.length.toNat → s.cfg.commit = none → verifyImage bs sigOk digestOk (startCommand d s) = .error r →
    exec (.cfgStage d sigOk digestOk) s = .next (refuse (issueOf 0x02 d s) r (startCommand d s))) ∧
  (∀ (d : Desc) (ue : Bool) (s : State), Runs 0x03 d s → firstFail (commitFields d) = none → d.byte 22 = 0 → commitBusy s.cfg = true →
    exec (.cfgCommit d ue) s = .next (refuse (issueOf 0x03 d s) (refusal .rejectedBusy) (startCommand d s))) ∧
  (∀ (d : Desc) (ue : Bool) (r : Refuse) (s : State), Runs 0x03 d s → firstFail (commitFields d) = none → d.byte 22 = 0 → commitBusy s.cfg = false →
    commitCheck d ue (startCommand d s) = some r →
    exec (.cfgCommit d ue) s = .next (refuse (issueOf 0x03 d s) r (startCommand d s))) ∧
  (∀ (d : Desc) (s : State), Runs 0x04 d s → d.indirect = false → d.tgt = 0x0C000000 → (d.strayCheck [(12, 4)]).1 = false →
    (confirmLate s = true → exec (.cfgConfirm d) s = .next (refuse (issueOf 0x04 d s) (refusal .timeout) (startCommand d s))) ∧
    (confirmLate s = false → s.cfg.active.isSome = true → slotVersion s.cfg.active = d.u 12 4 → s.cfg.window = none →
      exec (.cfgConfirm d) s = .next (complete (issueOf 0x04 d s) .ok (startCommand d s)))) ∧
  (∀ (iss : Issue) (tt : Nat) (s : State), s.cfg.rollback = some (iss, tt) → s.cfg.autoReturn = none → s.cfg.window = none →
    exec .fallbackReturn s = .next (completeAt (stampOf tt) iss (refusal .ok) (makeReturn 2 (advanceTo tt s)))) ∧
  (∀ (x : Slot) (b : Fin 48) (s : State), s.cfg.staged = some x → s.plc.stagedBank = none → stagedChoice s = some b → s.cfg.returned = false →
    (s.flash.area[x.area]).isSome = true → Does (.stagedCopyRebuild false) s fun t =>
      t.cfg.staged = none ∧ t.cfg.active = s.cfg.active ∧ t.cfg.previous = s.cfg.previous ∧
      (t.flt.sources[(291 : Fin 320)]).events = (s.flt.sources[(291 : Fin 320)]).events + 1 ∧ t.slices = s.slices)

/-- O51. A CFG_COMMIT with cancel = 1 and valid fields: the pending commit is withdrawn and completes SUPERSEDED, and the cancel completes OK; with
nothing pending the cancel completes OK and does nothing else. Formalises R136. -/
def Obligations.ACancelWithdrawsTheCommit : Prop :=
  (∀ (d : Desc) (ue : Bool) (p : PendingCommit) (s : State), Runs 0x03 d s → firstFail (commitFields d) = none → d.byte 22 = 1 → s.cfg.commit = some p →
    exec (.cfgCommit d ue) s = .next (complete (issueOf 0x03 d s) .ok
      (complete p.issue .superseded { startCommand d s with cfg := { s.cfg with commit := none } }))) ∧
  (∀ (d : Desc) (ue : Bool) (s : State), Runs 0x03 d s → firstFail (commitFields d) = none → d.byte 22 = 1 → s.cfg.commit = none →
    exec (.cfgCommit d ue) s = .next (complete (issueOf 0x03 d s) .ok (startCommand d s)))

/-- O52. A step that station time takes at its strobe moves the counter by Δ. With Δ < 0, and with Δ > 1 s, the 16-bit time epoch increments by 1;
with any other Δ it stays. Formalises R380. -/
def Obligations.StepsMoveTheEpoch : Prop :=
  ∀ (p : PendingStep) (s : State), s.time.step = some p →
    let old := max s.time.q p.strobe
    Does .timeStep s fun t =>
      ((t.time.q < old ∨ old + qSecond < t.time.q) → t.time.epoch = (s.time.epoch + 1) % 65536) ∧
      (old ≤ t.time.q → t.time.q ≤ old + qSecond → t.time.epoch = s.time.epoch) ∧
      t.time.q = p.toValue.getD (shiftTime old p.delta) ∧ t.time.mono = s.time.mono + (old - s.time.q)

/-- O53. A write that is verified leaves the queue; one that fails for the third time holds the writing for 10 s and counts an event of source 292,
and a later failure holds it again. A retry, and the return of every zone into range, let the writes go on; while they are held, or none waits, the
end of a write means nothing. Every second each zone's bin counts one and the life grows by the ageing of the hottest zone (log entry 14: its rounding
away from 95 °C is open), which at 95 °C is one second; the first second at whose start the life is at its limit of 40 years counts an event of source
280. The hourly write of the ledger waits for the flash. Rests on R150, R151, R153, R641, R642. -/
def Obligations.FlashWritesAndTheLedger : Prop :=
  (∀ (i : FlashItem) (rest : List FlashItem) (s : State), s.flash.queue = i :: rest → s.flash.held = false → s.flash.failed = false →
    Does (.flashWriteDone true) s fun t => t.flash.queue = rest ∧ t.flash.tries = 0 ∧ t.time = s.time ∧ t.cfg = s.cfg) ∧
  (∀ (i : FlashItem) (rest : List FlashItem) (s : State), s.flash.queue = i :: rest → s.flash.held = false → s.flash.failed = false → s.flash.tries < 2 →
    exec (.flashWriteDone false) s = .next { s with flash := { s.flash with tries := s.flash.tries + 1 } }) ∧
  (∀ (i : FlashItem) (rest : List FlashItem) (s : State), s.flash.queue = i :: rest → s.flash.held = false → s.flash.failed = false → s.flash.tries = 2 →
    Does (.flashWriteDone false) s fun t =>
      t.flash.failed = true ∧ t.flash.retryAt = s.time.mono + 10 * qSecond ∧ t.flash.queue = s.flash.queue ∧
      (t.flt.sources[(292 : Fin 320)]).events = (s.flt.sources[(292 : Fin 320)]).events + 1 ∧
      t = { s with flash := t.flash, flt := t.flt, evr := t.evr, pmc := t.pmc }) ∧
  (∀ s : State, s.flash.failed = true →
    exec .flashRetry s = .next { advanceMono s.flash.retryAt s with flash := { s.flash with failed := false } }) ∧
  (∀ (m : Nat) (s : State), allHeld (·.flash) s = some m → s.flash.held = true →
    exec .persistFlush s = .next { advanceMono m s with flash := { s.flash with held := false } }) ∧
  (∀ s : State, Does .ledgerSecond s fun t =>
    (∀ z : Fin 6, t.thm.ledger.bins[z] = upd s.thm.ledger.bins[z] (ledgerBin (zoneValue z s)) (· + 1)) ∧
    t.thm.ledger.life = s.thm.ledger.life + ageing (zoneValue (hottestZone s) s) ∧
    t = { s with thm := t.thm, flt := t.flt }) ∧
  (∀ s : State, Does .ledgerPersist s fun t => FlashItem.ledger ∈ t.flash.queue ∧ t = { s with flash := t.flash }) ∧
  (∀ (i : FlashItem) (rest : List FlashItem) (s : State), s.flash.queue = i :: rest → s.flash.held = false → s.flash.failed = false → 3 ≤ s.flash.tries →
    exec (.flashWriteDone false) s = .next { s with flash := markLate { s.flash with tries := s.flash.tries + 1, failed := true, retryAt := s.time.mono + 10 * qSecond } }) ∧
  (∀ (ok : Bool) (s : State), (s.flash.queue = [] ∨ s.flash.held = true ∨ s.flash.failed = true) → exec (.flashWriteDone ok) s = .next s) ∧
  (∀ s : State, zoneValue (hottestZone s) s = 760 → Does .ledgerSecond s fun t => t.thm.ledger.life = s.thm.ledger.life + 2 ^ 32) ∧
  (∀ s : State, s.thm.lifeFull = false → 1262304000 * 2 ^ 32 ≤ s.thm.ledger.life → Does .ledgerSecond s fun t =>
    t.thm.lifeFull = true ∧ (t.flt.sources[(280 : Fin 320)]).events = (s.flt.sources[(280 : Fin 320)]).events + 1)

/-- O54. PLACE_PIN records a pin that the placement meets already, or clears one, and completes OK; a pin that no placement meets ends NO_CAPACITY,
one of a slice on a rung or in a move REJECTED_BUSY, and another asks for the moves and waits. PLACE_FORBID of a lane whose feeds can go elsewhere
moves them, marks the lane and completes OK; an engine or a bank under test, or whose work can go elsewhere, is marked; of a unit whose work cannot it
ends NO_CAPACITY. An allow takes the mark away, and a FORBIDDEN unit is AVAILABLE again. A dry PLACE_REBALANCE counts the moves it would make, by
score or by temperature, and completes OK; another asks for them and waits; while a pass runs it ends REJECTED_BUSY. MEM_RETIRE of a RETIRED bank
completes OK, of an OWNED one BUSY_OWNED; one under test, or whose work can go elsewhere, is marked to retire, and one whose work cannot ends
NO_CAPACITY. Rests on R465, R466, R467, R468, R557. -/
def Obligations.PlacementCommands : Prop :=
  (∀ (d : Desc) (sl : SliceId) (s : State), Runs 0x40 d s → pinCheck d (startCommand d s) = none → d.unit .slice 256 = some sl → d.byte 12 = 0 →
    exec (.placePin d) s = .next (complete (issueOf 0x40 d s) .ok { startCommand d s with plc := { s.plc with pins := s.plc.pins.filter fun q =>
      !(q.slice == sl && q.kind == d.byte 13 && q.which == d.byte 14) } })) ∧
  (∀ (d : Desc) (sl : SliceId) (s : State), Runs 0x40 d s → pinCheck d (startCommand d s) = none → d.unit .slice 256 = some sl → d.byte 12 = 1 →
    let p : Pin := { slice := sl, kind := d.byte 13, which := d.byte 14, mask := BitVec.ofNat 64 (d.u 16 8) }
    pinConforms p (recordPin p (startCommand d s)) = true →
    exec (.placePin d) s = .next (complete (issueOf 0x40 d s) .ok (recordPin p (startCommand d s)))) ∧
  (∀ (d : Desc) (l : Fin 64) (s : State), Runs 0x41 d s → d.indirect = false → d.byte 12 = 1 → (d.strayCheck [(12, 1)]).1 = false →
    d.tgt = target .lane l → ownedByOther 0x0B l s = false → (s.lnk.lane[l]).state ≠ .retired → canEmptyLane l (startCommand d s) = true →
    Does (.placeForbid d) s fun t =>
      (t.lnk.lane[l]).forbid = true ∧ (t.lnk.lane[l]).state = (s.lnk.lane[l]).state ∧ (∀ k : Fin 64, k ≠ l → t.lnk.lane[k] = s.lnk.lane[k]) ∧
      t.lnk.streams = s.lnk.streams ∧ t.time = s.time ∧ t.slices = s.slices) ∧
  (∀ (d : Desc) (e : Fin 64) (s : State), Runs 0x41 d s → d.indirect = false → d.byte 12 = 1 → (d.strayCheck [(12, 1)]).1 = false →
    d.tgt = target .engine e → (s.plc.engine[e]).state = .testing → Does (.placeForbid d) s fun t =>
      (t.plc.engine[e]).forbid = true ∧ (t.plc.engine[e]).state = .testing ∧ t.slices = s.slices ∧ t.time = s.time) ∧
  (∀ (d : Desc) (b : Fin 48) (s : State), Runs 0x41 d s → d.indirect = false → d.byte 12 ≤ 1 → (d.strayCheck [(12, 1)]).1 = false →
    d.tgt = target .bank b → (s.mem.bank[b]).state = .owned →
    exec (.placeForbid d) s = .next (refuse (issueOf 0x41 d s) (refuseTarget .busyOwned d.tgt) (startCommand d s))) ∧
  (∀ (d : Desc) (s : State), Runs 0x42 d s → d.indirect = false → d.tgt = 0 → d.byte 12 = 0 → d.byte 13 = 1 → (d.strayCheck [(12, 2)]).1 = false →
    passRunning s = false →
    exec (.placeRebalance d) s = .next (complete (issueOf 0x42 d s) .ok
      { startCommand d s with plc := { s.plc with lastPass := min 1023 (planPass s 256 (carried s)).length } })) ∧
  (∀ (d : Desc) (s : State), Runs 0x42 d s → d.indirect = false → d.tgt = 0 → d.byte 12 = 0 → d.byte 13 = 0 → (d.strayCheck [(12, 2)]).1 = false →
    passRunning s = false → Does (.placeRebalance d) s fun t =>
      t.plc.lastPass = min 1023 (planPass s 256 (carried s)).length ∧ t.plc.placed = s.plc.placed ∧ t.plc.pins = s.plc.pins ∧
      t.slices = s.slices ∧ t.lnk = s.lnk) ∧
  (∀ (d : Desc) (b : Fin 48) (s : State), Runs 0x60 d s → d.indirect = false → (d.strayCheck []).1 = false → d.tgt = target .bank b →
    ((s.mem.bank[b]).state = .retired → exec (.memRetire d) s = .next (complete (issueOf 0x60 d s) .ok (startCommand d s))) ∧
    ((s.mem.bank[b]).state = .owned →
      exec (.memRetire d) s = .next (refuse (issueOf 0x60 d s) (refuseTarget .busyOwned d.tgt) (startCommand d s))) ∧
    ((s.mem.bank[b]).state = .testing → Does (.memRetire d) s fun t =>
      (t.mem.bank[b]).retire = true ∧ (t.mem.bank[b]).state = .testing ∧ t.slices = s.slices)) ∧
  (∀ (d : Desc) (sl : SliceId) (s : State), Runs 0x40 d s → pinCheck d (startCommand d s) = none → d.unit .slice 256 = some sl → d.byte 12 = 1 →
    let p : Pin := { slice := sl, kind := d.byte 13, which := d.byte 14, mask := BitVec.ofNat 64 (d.u 16 8) }
    let r := recordPin p (startCommand d s)
    pinConforms p r = false →
    (pinMoves p r = none → exec (.placePin d) s = .next (refuse (issueOf 0x40 d s) (refuseTarget .noCapacity d.tgt) (startCommand d s))) ∧
    (∀ x : State, pinMoves p r = some x → (sliceOnRung sl s = true ∨ migrating sl s = true) →
      exec (.placePin d) s = .next (refuse (issueOf 0x40 d s) (refuseTarget .rejectedBusy d.tgt) (startCommand d s))) ∧
    (∀ x : State, pinMoves p r = some x → sliceOnRung sl s = false → migrating sl s = false →
      exec (.placePin d) s = .next (settleUnits (addWait (issueOf 0x40 d s) (.pin p) x)))) ∧
  (∀ (d : Desc) (e : Fin 64) (s : State), Runs 0x41 d s → d.indirect = false → (d.strayCheck [(12, 1)]).1 = false → d.tgt = target .engine e →
    (d.byte 12 = 1 → (s.plc.engine[e]).state = .available → canEmptyEngine e (startCommand d s) = true →
      Does (.placeForbid d) s fun t => (t.plc.engine[e]).forbid = true ∧ t.time = s.time) ∧
    (d.byte 12 = 1 → (s.plc.engine[e]).state = .available → canEmptyEngine e (startCommand d s) = false →
      exec (.placeForbid d) s = .next (refuse (issueOf 0x41 d s) (refuseTarget .noCapacity d.tgt) (startCommand d s))) ∧
    (d.byte 12 = 0 → (s.plc.engine[e]).state = .available → Does (.placeForbid d) s fun t =>
      (t.plc.engine[e]).forbid = false ∧ (t.plc.engine[e]).state = .available ∧ t.slices = s.slices) ∧
    (d.byte 12 = 0 → (s.plc.engine[e]).state = .forbidden → Does (.placeForbid d) s fun t =>
      (t.plc.engine[e]).forbid = false ∧ (t.plc.engine[e]).state = .available)) ∧
  (∀ (d : Desc) (b : Fin 48) (s : State), Runs 0x41 d s → d.indirect = false → (d.strayCheck [(12, 1)]).1 = false → d.tgt = target .bank b →
    (d.byte 12 = 1 → (s.mem.bank[b]).state = .testing → Does (.placeForbid d) s fun t =>
      (t.mem.bank[b]).forbid = true ∧ (t.mem.bank[b]).state = .testing ∧ t.slices = s.slices) ∧
    (d.byte 12 = 1 → (s.mem.bank[b]).state = .available → canEmptyBank b (startCommand d s) = false →
      exec (.placeForbid d) s = .next (refuse (issueOf 0x41 d s) (refuseTarget .noCapacity d.tgt) (startCommand d s))) ∧
    (d.byte 12 = 0 → (s.mem.bank[b]).state = .forbidden → Does (.placeForbid d) s fun t => (t.mem.bank[b]).forbid = false)) ∧
  (∀ (d : Desc) (l : Fin 64) (s : State), Runs 0x41 d s → d.indirect = false → (d.strayCheck [(12, 1)]).1 = false → d.tgt = target .lane l →
    ownedByOther 0x0B l s = false →
    (d.byte 12 = 1 → (s.lnk.lane[l]).state ≠ .retired → canEmptyLane l (startCommand d s) = false →
      exec (.placeForbid d) s = .next (refuse (issueOf 0x41 d s) (refuseTarget .noCapacity d.tgt) (startCommand d s))) ∧
    (d.byte 12 = 0 → Does (.placeForbid d) s fun t =>
      (t.lnk.lane[l]).forbid = false ∧ (t.lnk.lane[l]).state = (s.lnk.lane[l]).state ∧ t.lnk.streams = s.lnk.streams ∧ t.slices = s.slices)) ∧
  (∀ (d : Desc) (s : State), Runs 0x42 d s → d.indirect = false → d.tgt = 0 → d.byte 12 ≤ 1 → d.byte 13 ≤ 1 → (d.strayCheck [(12, 2)]).1 = false →
    passRunning s = true → exec (.placeRebalance d) s = .next (refuse (issueOf 0x42 d s) (refusal .rejectedBusy) (startCommand d s))) ∧
  (∀ (d : Desc) (s : State), Runs 0x42 d s → d.indirect = false → d.tgt = 0 → d.byte 12 = 1 → d.byte 13 = 1 → (d.strayCheck [(12, 2)]).1 = false →
    passRunning s = false →
    exec (.placeRebalance d) s = .next (complete (issueOf 0x42 d s) .ok
      { startCommand d s with plc := { s.plc with lastPass := min 1023 (planThermal s 256 (carried s)).length } })) ∧
  (∀ (d : Desc) (b : Fin 48) (s : State), Runs 0x60 d s → d.indirect = false → (d.strayCheck []).1 = false → d.tgt = target .bank b →
    (s.mem.bank[b]).state = .available →
    (canEmptyBank b (startCommand d s) = true → Does (.memRetire d) s fun t => (t.mem.bank[b]).retire = true) ∧
    (canEmptyBank b (startCommand d s) = false →
      exec (.memRetire d) s = .next (refuse (issueOf 0x60 d s) (refuseTarget .noCapacity d.tgt) (startCommand d s))))

/-- O55. The next waiting move with a target starts in a free slot at the next epoch strobe, computes beside its source after its warm-up, and after
its match cuts over: the part then runs on its target, and nothing else is placed otherwise. A move that has found no match in 8,192 samples is
abandoned with an event of source 208, or, as an evacuation, cuts over with one of source 209; before, it is neither. A move without a target is given
up, or, as an evacuation, room is made for it. None starts at the limit of moves, in the fatal state or while the supervisor restarts. A buffer copy
that is done gives its buffer the new pages, and the banks and units that it lets go on are settled. A unit that passes its test is AVAILABLE, or
FORBIDDEN where it is forbidden, and stopped slices are tried again; one that fails is RETIRED; one that is not under test stays. A spread that has
lasted its dwell counts an event of source 212; a cleared one gives up the thermal moves that wait. A periodic pass asks for moves under SPREAD with
an interval, and else for none. Rests on R450, R451, R452, R455, R459, R462, R463. -/
def Obligations.MovesAndTests : Prop :=
  (∀ (r : MoveReq) (src dst : Fin 64) (i : Fin 8) (s : State), (movesOf s).length < s.plc.moveLimit → s.flt.fatal = false → s.sec.restart = none →
    nextMove s = some r → moveSource r s = some src → moveTarget r s = some dst → (r.reason = .evacuation → sliceOnRung r.slice s = false) →
    findIdx s.plc.moves (·.isNone) = some i → Does .moveStart s fun t =>
      t.plc.moves[i] = some { slice := r.slice, part := r.part, src := src, dst := dst, reason := r.reason, phase := .warmUp
                              start := strobeAt (s.time.q + 1), matched := 0, shadowed := 0 } ∧
      (∀ j : Fin 8, j ≠ i → t.plc.moves[j] = s.plc.moves[j]) ∧ t.plc.placed = s.plc.placed ∧ t.time.q = strobeAt (s.time.q + 1) ∧
      t = { advanceTo (strobeAt (s.time.q + 1)) s with plc := t.plc, evr := t.evr, pmc := t.pmc }) ∧
  (∀ (i : Fin 8) (m : Move) (d : SliceDef) (s : State), s.plc.moves[i] = some m → liveDef m.slice s = some d → m.phase = .warmUp → sliceOnRung m.slice s = false →
    exec (.shadowStart i) s = .next { advanceTo (m.start + warmUp d) s with plc := { s.plc with moves := s.plc.moves.set i (some { m with phase := .shadow }) } }) ∧
  (∀ (i : Fin 8) (m : Move) (h : Hosting) (s : State), s.plc.moves[i] = some m → m.phase = .cutover → s.flt.fatal = false → (s.plc.placed[m.slice]).live = some h →
    Does (.moveCutover i) s fun t =>
      t.plc.moves[i] = none ∧ (t.plc.placed[m.slice]).live = some { h with engines := h.engines.set m.part m.dst } ∧
      (∀ sl : SliceId, sl ≠ m.slice → t.plc.placed[sl] = s.plc.placed[sl]) ∧ t.slices = s.slices ∧ t.time = s.time) ∧
  (∀ (i : Fin 8) (m : Move) (n : Nat) (s : State), s.plc.moves[i] = some m → m.phase ≠ .warmUp → 8192 ≤ m.shadowed → m.reason ≠ .evacuation →
    Does (.moveAbandon i n) s fun t =>
      t.plc.moves[i] = none ∧ t.plc.placed = s.plc.placed ∧ t.slices = s.slices ∧
      (t.flt.sources[(208 : Fin 320)]).events = (s.flt.sources[(208 : Fin 320)]).events + 1) ∧
  (∀ (i : Fin 8) (m : Move) (h : Hosting) (n : Nat) (s : State), s.plc.moves[i] = some m → m.phase ≠ .warmUp → 8192 ≤ m.shadowed → m.reason = .evacuation →
    (s.plc.placed[m.slice]).live = some h → Does (.moveAbandon i n) s fun t =>
      t.plc.moves[i] = none ∧ (t.plc.placed[m.slice]).live = some { h with engines := h.engines.set m.part m.dst } ∧
      (t.flt.sources[(209 : Fin 320)]).events = (s.flt.sources[(209 : Fin 320)]).events + 1) ∧
  (∀ (sl : SliceId) (p : PathId) (dl : Bool) (f : Nat) (b : Buffer) (new : List (Fin 48 × BitVec 512)) (s : State),
    (s.plc.buffers.find? fun b => b.key == ({ slice := sl, path := p, delay := dl, feed := f } : BufKey) && b.copy.isSome) = some b → b.copy = some new →
    ∃ u : State, exec (.bufferCopyDone sl p dl f) s = .next (settleUnits (leaveBanks u)) ∧
      (∀ x ∈ u.plc.buffers, x.key = { slice := sl, path := p, delay := dl, feed := f } → x.chunks = new ∧ x.copy = none) ∧
      u.plc.buffers.length = s.plc.buffers.length ∧ u.time.q = strobeAt (s.time.q + 1)) ∧
  (∀ (e : Fin 64) (s : State), (s.plc.engine[e]).state = .testing →
    exec (.unitSelftestDone (.engine e) true) s = .next (settleUnits (restoreStopped (endTest .engine e true id
      (setEngine e (if (s.plc.engine[e]).forbid = true then .forbidden else .available) s))))) ∧
  (∀ (e : Fin 64) (x : SelfTest) (s : State), (s.plc.engine[e]).state = .testing → testOf .engine e s = some x →
    exec (.unitSelftestDone (.engine e) false) s = .next (settleUnits (restoreStopped (endTest .engine e false id
      (raise 104 (target .engine e) 0 (retireUnit .engine e x.source (setEngine e .retired s))))))) ∧
  (∀ (b : Fin 48) (s : State), (s.mem.bank[b]).state = .testing → (s.mem.bank[b]).recode = false →
    exec (.unitSelftestDone (.bank b) true) s = .next (settleUnits (restoreStopped (endTest .bank b true (notify 262 (target .bank b) 0)
      (cleanBank b (setBank b (bankPassed b s) s)))))) ∧
  (∀ (m : Nat) (s : State), s.plc.spread = false → (retimeSpread s).plc.spreadSince = some m → Does .spreadDeclared s fun t =>
    t.plc.spread = true ∧ t.time.mono = max s.time.mono (m + dwellQ s.thm.zone[4]) ∧ (t.flt.sources[(212 : Fin 320)]).events = (s.flt.sources[(212 : Fin 320)]).events + 1 ∧
    t.plc.placed = s.plc.placed ∧
    t = { advanceMono (m + dwellQ s.thm.zone[4]) (retimeSpread s) with plc := t.plc, flt := t.flt }) ∧
  (∀ (m : Nat) (s : State), s.plc.spread = true → (retimeSpread s).plc.spreadSince = some m → Does .spreadCleared s fun t =>
    t.plc.spread = false ∧ t.time.mono = max s.time.mono (m + dwellQ s.thm.zone[4]) ∧ (∀ w ∈ t.plc.waiting, w.reason ≠ .thermal) ∧ t.plc.placed = s.plc.placed ∧ t.slices = s.slices) ∧
  (∀ s : State, s.plc.policy = false → s.plc.interval ≠ 0 → Does .rebalancePass s fun t =>
    t.plc.lastPass = min 1023 (planPass s 256 (carried s)).length ∧ t.plc.placed = s.plc.placed ∧ t = { s with plc := t.plc }) ∧
  (∀ s : State, (s.plc.policy = true ∨ s.plc.interval = 0) → exec .rebalancePass s = .next s) ∧
  (∀ (i : Fin 8) (m : Move) (n : Nat) (s : State), s.plc.moves[i] = some m →
    (m.phase ≠ .cutover → exec (.moveCutover i) s = .next s) ∧ (m.shadowed < 8192 → exec (.moveAbandon i n) s = .next s)) ∧
  (∀ (r : MoveReq) (src : Fin 64) (s : State), (movesOf s).length < s.plc.moveLimit → s.flt.fatal = false → s.sec.restart = none →
    nextMove s = some r → moveSource r s = some src → moveTarget r s = none → (r.reason = .evacuation → sliceOnRung r.slice s = false) →
    exec .moveStart s = .next (settleUnits (if r.reason = .evacuation
      then makeRoom r.slice (fun s => (moveTarget r s).isSome) 210 (target .engine src) s else dropReq r s))) ∧
  (∀ s : State, (s.plc.moveLimit ≤ (movesOf s).length ∨ s.flt.fatal = true ∨ s.sec.restart ≠ none) → s.plc.waiting ≠ [] →
    exec .moveStart s = .next s) ∧
  (∀ (b : Fin 48) (x : SelfTest) (s : State), (s.mem.bank[b]).state = .testing → (s.mem.bank[b]).recode = false → testOf .bank b s = some x →
    exec (.unitSelftestDone (.bank b) false) s = .next (settleUnits (restoreStopped (endTest .bank b false id
      (raise 261 (target .bank b) 0 (retireUnit .bank b x.source (setBank b .retired s))))))) ∧
  (∀ (e : Fin 64) (ok : Bool) (s : State), (s.plc.engine[e]).state ≠ .testing → exec (.unitSelftestDone (.engine e) ok) s = .next s) ∧
  (∀ (b : Fin 48) (ok : Bool) (s : State), ((s.mem.bank[b]).state ≠ .testing ∨ (s.mem.bank[b]).recode = true) →
    exec (.unitSelftestDone (.bank b) ok) s = .next s) ∧
  (∀ s : State, (retimeSpread s).plc.spreadSince = none →
    exec .spreadDeclared s = .next (retimeSpread s) ∧ exec .spreadCleared s = .next (retimeSpread s))

/-- O56. A correctable error of a written SEC-DED word counts on its bank and on source 256 and leaves no fault; an uncorrectable one poisons the word
and counts on source 257, one of the address code on source 259; a poisoned word is only counted as read. In a parity bank failed bytes are noted in
the word and counted on source 258. A word of a page that nothing has written is not checked. The end of a scrub pass is notified while the scrubber
runs. A write of a bank's code starts the zeroing of an empty AVAILABLE bank, and of any other is only flagged, but a write of the code it has does
nothing; the end of the zeroing makes the bank AVAILABLE. Rests on R544, R547, R548, R549, R555, R562. -/
def Obligations.SampleMemoryErrors : Prop :=
  (∀ (loc : Fin 16777216) (b : Fin 48) (r : Reader) (syn : Nat) (s : State), finOf 48 (loc.val / 2 ^ 18) = some b → readable loc (decide (r = .scrub)) s = true →
    (s.mem.bank[b]).parity = false → faultAt loc s.mem ≠ some .poison → Does (.smemReadError loc r (.single syn)) s fun t =>
      (t.mem.bank[b]).corrected = min 65535 ((s.mem.bank[b]).corrected + 1) ∧ t.mem.faults = s.mem.faults ∧
      (∀ k : Fin 48, k ≠ b → t.mem.bank[k] = s.mem.bank[k]) ∧
      (t.flt.sources[(256 : Fin 320)]).events = (s.flt.sources[(256 : Fin 320)]).events + 1 ∧
      t = { s with mem := t.mem, pmc := t.pmc, flt := t.flt }) ∧
  (∀ (loc : Fin 16777216) (b : Fin 48) (r : Reader) (syn : Nat) (s : State), finOf 48 (loc.val / 2 ^ 18) = some b → readable loc (decide (r = .scrub)) s = true →
    (s.mem.bank[b]).parity = false → faultAt loc s.mem ≠ some .poison → Does (.smemReadError loc r (.uncorrectable syn)) s fun t =>
      faultAt loc t.mem = some .poison ∧ (t.mem.bank[b]).uncorrectable = min 255 ((s.mem.bank[b]).uncorrectable + 1) ∧
      (t.flt.sources[(257 : Fin 320)]).events = (s.flt.sources[(257 : Fin 320)]).events + 1) ∧
  (∀ (loc : Fin 16777216) (r : Reader) (e : ReadError) (s : State), readable loc (decide (r = .scrub)) s = false →
    exec (.smemReadError loc r e) s = .next s) ∧
  (∀ s : State, (scrubbing s = true → exec .scrubPassEnd s = .next (notify 260 0 0 s)) ∧
    (scrubbing s = false → exec .scrubPassEnd s = .next s)) ∧
  (∀ (b : Fin 48) (p : Bool) (s : State), (s.mem.bank[b]).parity ≠ p → codeWritable b s = true → Does (.codeSelWrite b p) s fun t =>
    (t.mem.bank[b]).parity = p ∧ (t.mem.bank[b]).recode = true ∧ (t.mem.bank[b]).state = .testing ∧
    (∀ k : Fin 48, k ≠ b → t.mem.bank[k] = s.mem.bank[k]) ∧ t.slices = s.slices) ∧
  (∀ (b : Fin 48) (p : Bool) (s : State), (s.mem.bank[b]).parity ≠ p → codeWritable b s = false →
    exec (.codeSelWrite b p) s = .next { s with mem := { s.mem with codeIgnored := true } }) ∧
  (∀ (b : Fin 48) (s : State), (s.mem.bank[b]).recode = true →
    let u := { cleanBank b s with mem := { (cleanBank b s).mem with bank := upd (cleanBank b s).mem.bank b fun x => { x with recode := false, zeroed := true } } }
    exec (.codeSelZeroDone b) s = .next (settleUnits (restoreStopped (setBank b .available u)))) ∧
  (∀ (b : Fin 48) (p : Bool) (s : State), ((s.mem.bank[b]).parity = p → exec (.codeSelWrite b p) s = .next s) ∧
    ((s.mem.bank[b]).recode = false → exec (.codeSelZeroDone b) s = .next s)) ∧
  (∀ (loc : Fin 16777216) (b : Fin 48) (r : Reader) (syn : Nat) (s : State), finOf 48 (loc.val / 2 ^ 18) = some b → readable loc (decide (r = .scrub)) s = true →
    (s.mem.bank[b]).parity = false → faultAt loc s.mem ≠ some .poison → Does (.smemReadError loc r (.address syn)) s fun t =>
      faultAt loc t.mem = some .poison ∧ (t.mem.bank[b]).uncorrectable = min 255 ((s.mem.bank[b]).uncorrectable + 1) ∧
      (t.flt.sources[(259 : Fin 320)]).events = (s.flt.sources[(259 : Fin 320)]).events + 1) ∧
  (∀ (loc : Fin 16777216) (b : Fin 48) (r : Reader) (e : ReadError) (s : State), finOf 48 (loc.val / 2 ^ 18) = some b →
    readable loc (decide (r = .scrub)) s = true → (s.mem.bank[b]).parity = false → faultAt loc s.mem = some .poison →
    exec (.smemReadError loc r e) s = .next { s with mem := { s.mem with bank := upd s.mem.bank b fun x => { x with poisonReads := min 255 (x.poisonReads + 1) } } }) ∧
  (∀ (loc : Fin 16777216) (b : Fin 48) (r : Reader) (m : Nat) (s : State), finOf 48 (loc.val / 2 ^ 18) = some b → readable loc (decide (r = .scrub)) s = true →
    (s.mem.bank[b]).parity = true → m % 256 ≠ 0 → r ≠ .partialWrite → Does (.smemReadError loc r (.parity m)) s fun t =>
      faultAt loc t.mem = some (.parity (m % 256)) ∧ (t.mem.bank[b]).uncorrectable = min 255 ((s.mem.bank[b]).uncorrectable + 1) ∧
      (t.flt.sources[(258 : Fin 320)]).events = (s.flt.sources[(258 : Fin 320)]).events + 1)

/-- O57. A sample enters the eight-sample filter of every sensor. A threshold whose condition has lasted its dwell is declared, and cleared after its
dwell the other way; nothing is declared while no dwell runs. The end of Thaw clears every COLD_START. While THROTTLE is declared Overcast asks for
0.50 dB more, up to 3.00 dB, and then sheds the next slice; it retreats by one shed slice, then by 0.50 dB, and to stage 0 when nothing is left to
undo. CRITICAL halts every TX port, stops every running slice and counts an event of source 276; when the halt ends, no zone is CRITICAL. Rests on
R115, R625, R627, R628, R633, R635, R637, R638. -/
def Obligations.ThermalManagement : Prop :=
  (∀ (v : Vector Int 24) (bad : BitVec 24) (s : State), Does (.thermalSample v bad) s fun t =>
    (∀ i : Fin 24, (t.thm.sensor[i]).samples = (v[i] :: (s.thm.sensor[i]).samples).take 8) ∧ t.time = s.time ∧ t.slices = s.slices ∧ t.nps = s.nps) ∧
  (∀ (z : Fin 6) (k : Threshold) (m : Nat) (s : State), timerOf (s.thm.zone[z]).timers k = some m → declaredOf s.thm.zone[z] k = false →
    Does (.thresholdDeclared z k) s fun t =>
      declaredOf t.thm.zone[z] k = true ∧ t.time.mono = max s.time.mono (m + dwellQ s.thm.zone[z]) ∧
      (∀ y : Fin 6, y ≠ z → t.thm.zone[y] = s.thm.zone[y]) ∧
      t = { advanceMono (m + dwellQ s.thm.zone[z]) s with thm := t.thm, flt := t.flt }) ∧
  (∀ (z : Fin 6) (k : Threshold) (m : Nat) (s : State), timerOf (s.thm.zone[z]).timers k = some m → declaredOf s.thm.zone[z] k = true →
    Does (.thresholdCleared z k) s fun t =>
      declaredOf t.thm.zone[z] k = false ∧ t.time.mono = max s.time.mono (m + dwellQ s.thm.zone[z]) ∧
      (∀ y : Fin 6, y ≠ z → t.thm.zone[y] = s.thm.zone[y]) ∧ t = { advanceMono (m + dwellQ s.thm.zone[z]) s with thm := t.thm }) ∧
  (∀ (z : Fin 6) (k : Threshold) (s : State), timerOf (s.thm.zone[z]).timers k = none →
    exec (.thresholdDeclared z k) s = .next s ∧ exec (.thresholdCleared z k) s = .next s) ∧
  (∀ (m : Nat) (s : State), allHeld (·.thaw) s = some m → s.thm.thaw = true → Does .thawEnd s fun t =>
    t.thm.thaw = false ∧ (∀ z : Fin 6, (t.thm.zone[z]).cold = false)) ∧
  (∀ s : State, s.thm.overcast.stage ≠ 0 → anyThrottle s = true → s.thm.overcast.request < 300 → Does .overcastStep s fun t =>
    t.thm.overcast = { s.thm.overcast with stage := 2, request := s.thm.overcast.request + 50, last := t.time.mono } ∧
    t.time.mono = max s.time.mono (s.thm.overcast.last + s.thm.interval * 4000000) ∧
    t = { advanceMono (s.thm.overcast.last + s.thm.interval * 4000000) s with thm := t.thm }) ∧
  (∀ s : State, s.thm.overcast.stage ≠ 0 → anyThrottle s = false → s.thm.overcast.shed = [] → s.thm.overcast.request = 0 → Does .overcastStep s fun t =>
    t.thm.overcast = { s.thm.overcast with stage := 0, slow := false, last := t.time.mono } ∧
    t = { advanceMono (s.thm.overcast.last + s.thm.interval * 4000000) s with thm := t.thm }) ∧
  (∀ (z : Fin 6) (i : Fin 24) (s : State), (s.thm.zone[z]).critical = false → i ∈ zoneSensors z → (s.thm.sensor[i]).failed = false →
    4 ≤ (s.thm.sensor[i]).hot → Does (.criticalDeclared z) s fun t =>
      (t.thm.zone[z]).critical = true ∧ t.thm.halted = true ∧ haltOf t.nps .thermal = true ∧
      (∀ sl : SliceId, (s.slices.slice[sl]).state = .running → (t.slices.slice[sl]).state = .stopped) ∧
      (t.flt.sources[(276 : Fin 320)]).events = (s.flt.sources[(276 : Fin 320)]).events + 1) ∧
  (∀ (m : Nat) (s : State), allHeld (·.halt) s = some m → s.thm.halted = true →
    let u := clearHalt .thermal { advanceMono m s with thm := { s.thm with halted := false, zone := s.thm.zone.map fun z => { z with critical := false } } }
    exec .thermalHaltEnd s = .next ((indices 256).foldl (fun s sl => if haltStopped sl s then restartPresent true sl s else s) u)) ∧
  (∀ (sl : SliceId) (s : State), s.thm.overcast.stage ≠ 0 → anyThrottle s = true → 300 ≤ s.thm.overcast.request → nextShed s = some sl →
    Does .overcastStep s fun t =>
      t.thm.overcast = { s.thm.overcast with stage := 3, shed := sl :: s.thm.overcast.shed, last := t.time.mono } ∧
      (t.slices.slice[sl]).shed = true ∧ (∀ k : SliceId, k ≠ sl → t.slices.slice[k] = s.slices.slice[k]) ∧
      (t.flt.sources[(275 : Fin 320)]).events = (s.flt.sources[(275 : Fin 320)]).events + 1) ∧
  (∀ (sl : SliceId) (rest : List SliceId) (s : State), s.thm.overcast.stage ≠ 0 → anyThrottle s = false → s.thm.overcast.shed = sl :: rest →
    Does .overcastStep s fun t =>
      t.thm.overcast = { s.thm.overcast with stage := if rest.isEmpty then 2 else 3, shed := rest, last := t.time.mono } ∧
      (t.slices.slice[sl]).shed = false ∧ (∀ k : SliceId, k ≠ sl → t.slices.slice[k] = s.slices.slice[k]) ∧ t.flt = s.flt) ∧
  (∀ s : State, s.thm.overcast.stage ≠ 0 → anyThrottle s = false → s.thm.overcast.shed = [] → s.thm.overcast.request ≠ 0 →
    Does .overcastStep s fun t =>
      t.thm.overcast = { s.thm.overcast with request := s.thm.overcast.request - 50, stage := if s.thm.overcast.request ≤ 50 then 1 else 2, last := t.time.mono } ∧
      t.slices = s.slices ∧ t.flt = s.flt) ∧
  (∀ s : State, s.thm.overcast.stage = 0 → exec .overcastStep s = .next s)

/-- O58. A LOAD whose image verifies empties the slot that does not run and waits for the flash; a CONFIRM in the activation window completes OK,
names the running slot in the boot record, and with raise_svn raises min_svn. An ACTIVATE of a slot that holds an image asks for the restart. A
restart into an activated slot whose image is at or above min_svn opens the window; one that fails completes SIG_FAIL, one that comes late TIMEOUT,
and the part then restarts into the slot that ran. The end of an unconfirmed window counts an event of source 290. Over the management port, bytes
written invalidate the idle slot, and a finished image that verifies fills it. A first owner key is programmed when none is, another with the
signature of a valid key, and a revocation leaves at least one valid key. A nonce is given once and lapses after 60 s; an unlock with it and a good
signature raises the level, and one without counts as failed; after three in succession none is taken. Rests on R651, R653, R654, R656, R657, R663,
R664, R668. -/
def Obligations.FirmwareKeysAndDebug : Prop :=
  (∀ (d : Desc) (bs : List Byte) (f : Firmware) (s : State), Runs 0x70 d s → activateCheck d = none → d.indirect = true → d.bytes = some bs →
    firmwareOf bs = some f → s.sec.minSvn ≤ f.svn → f.length = d.length.toNat → flashInRange s = true → unconfirmed s = false → s.sec.writes = none →
    s.sec.load = none → s.sec.restart = none → s.sec.asked = none →
    Does (.fwActivate d { key := true, sig := true, digest := true }) s fun t =>
      t.sec.load = some (issueOf 0x70 d s, f) ∧ slotImage (idleSlot s) t = none ∧ FlashItem.firmware (idleSlot s) f ∈ t.flash.queue ∧
      t.sec.running = s.sec.running ∧ t.sec.minSvn = s.sec.minSvn ∧ t = { startCommand d s with sec := t.sec, flash := t.flash }) ∧
  (∀ (d : Desc) (pr : FwProof) (s : State), Runs 0x70 d s → activateCheck d = none → d.indirect = false → d.byte 12 = 2 → unconfirmed s = true →
    flashInRange s = true → Does (.fwActivate d pr) s fun t =>
      t.flash.boot = s.sec.slot ∧ t.sec.windowEnd = none ∧ t.sec.owner = s.sec.owner ∧
      t.sec.minSvn = (if d.byte 13 = 1 then max s.sec.minSvn ((s.sec.running.map (·.svn)).getD 0) else s.sec.minSvn) ∧
      t.slices = s.slices ∧ t.time = s.time ∧ t.cfg = s.cfg) ∧
  (∀ (iss : Issue) (f : Firmware) (s : State), s.sec.restart = some (.activate iss) → slotImage (!s.sec.slot) s = some f → s.sec.minSvn ≤ f.svn →
    Does (.supervisorRestartDone .running) s fun t =>
      t.sec.slot = !s.sec.slot ∧ t.sec.running = some f ∧ t.sec.restart = none ∧ t.sec.windowEnd = some (s.time.mono + s.sec.fwWindow * qSecond)) ∧
  (∀ (iss : Issue) (s : State), s.sec.restart = some (.activate iss) →
    exec (.supervisorRestartDone .badImage) s = .next (complete iss .sigFail (raise 289 0 0 { s with sec := { s.sec with restart := some .failed } }))) ∧
  (∀ (e : Nat) (s : State), s.sec.windowEnd = some e → Does .fwWindowExpiry s fun t =>
    t.sec.windowEnd = none ∧ t.time.mono = max s.time.mono e ∧
    (t.flt.sources[(290 : Fin 320)]).events = (s.flt.sources[(290 : Fin 320)]).events + 1) ∧
  (∀ (inst : Byte) (o : Word) (bs : List Byte) (s : State), PortOpen s → s.flt.fatal = false → s.boot.stage = .recovery → managementFw s = none →
    1 ≤ bs.length → bs.length ≤ 1024 → o.toNat + bs.length ≤ 8388608 → Does (.fwWrite inst o bs) s fun t =>
      t.sec.writes = some ((o.toNat, bs) :: s.sec.writes.getD []) ∧ slotImage (idleSlot s) t = none ∧ t = { s with sec := t.sec, out := t.out }) ∧
  (∀ (inst : Byte) (f : Firmware) (ws : List (Nat × List Byte)) (s : State), PortOpen s → s.flt.fatal = false → s.boot.stage = .recovery → managementFw s = none →
    s.sec.writes = some ws → firmwareOf (writtenHeader ws) = some f → s.sec.minSvn ≤ f.svn →
    exec (.fwFinish inst { key := true, sig := true, digest := true }) s = .next (startWarm 8 false (respond 0x08 inst .ok []
      (onFlash (fun x => { x with boot := idleSlot s }) (setSlot (idleSlot s) (some f) (onSec (fun x => { x with writes := none }) s)))))) ∧
  (∀ (inst : Byte) (hash : Nat) (sig : Bool) (s : State), PortOpen s → messageGate false s = none → anyOf s.sec.owner (·.programmed) = false → flashInRange s = true →
    Does (.ownerKey inst (.provision hash) sig) s fun t =>
      t.sec.owner[(0 : Fin 4)] = { hash := hash, programmed := true, revoked := false, usable := true } ∧
      (∀ i : Fin 4, i ≠ 0 → t.sec.owner[i] = s.sec.owner[i]) ∧
      (t.flt.sources[(293 : Fin 320)]).events = (s.flt.sources[(293 : Fin 320)]).events + 1 ∧
      t = { s with sec := t.sec, flash := t.flash, flt := t.flt, out := t.out }) ∧
  (∀ (inst : Byte) (s : State), PortOpen s → messageGate false s = none → Does (.debugChallenge inst) s fun t =>
    t.sec = { s.sec with nonce := some (s.sec.nonces, s.time.mono), nonces := s.sec.nonces + 1 } ∧ t = { s with sec := t.sec, out := t.out }) ∧
  (∀ (inst : Byte) (s : State), PortOpen s → messageGate false s = none → s.sec.lockedOut = false → nonceLive s = true →
    Does (.debugUnlock inst 2 true) s fun t =>
      t.sec = { s.sec with nonce := none, failures := 0, debug := max s.sec.debug 2 } ∧
      (t.flt.sources[(294 : Fin 320)]).events = (s.flt.sources[(294 : Fin 320)]).events + 1 ∧ t = { s with sec := t.sec, flt := t.flt, out := t.out }) ∧
  (∀ (inst level : Byte) (s : State), PortOpen s → messageGate false s = none → s.sec.lockedOut = false → (level = 1 ∨ level = 2) →
    Does (.debugUnlock inst level false) s fun t =>
      t.sec.debug = s.sec.debug ∧ t.sec.nonce = none ∧ t.sec.failures = s.sec.failures + 1 ∧ (2 ≤ s.sec.failures → t.sec.lockedOut = true) ∧
      (t.flt.sources[(295 : Fin 320)]).events = (s.flt.sources[(295 : Fin 320)]).events + 1 ∧ t = { s with sec := t.sec, flt := t.flt, out := t.out }) ∧
  (∀ (n m : Nat) (s : State), s.sec.nonce = some (n, m) → Does .nonceExpiry s fun t =>
    t.sec = { s.sec with nonce := none } ∧ t.time.mono = max s.time.mono (m + 60 * qSecond) ∧ t = { advanceMono (m + 60 * qSecond) s with sec := t.sec }) ∧
  (∀ (d : Desc) (pr : FwProof) (x : Firmware) (s : State), Runs 0x70 d s → activateCheck d = none → d.indirect = false → d.byte 12 = 1 →
    slotImage (idleSlot s) s = some x → unconfirmed s = false → s.cfg.commit = none → returnPending s.cfg = false → windowClose s = false → restarting s = false →
    exec (.fwActivate d pr) s = .next (startRestart { startCommand d s with sec := { s.sec with asked := some (.activate (issueOf 0x70 d s)) } })) ∧
  (∀ (iss : Issue) (s : State), s.sec.restart = some (.activate iss) →
    exec (.supervisorRestartDone .late) s = .next (complete iss .timeout (raise 289 0 0 { s with sec := { s.sec with restart := some .failed } }))) ∧
  (∀ (iss : Issue) (s : State), s.sec.restart = some (.activate iss) → (∀ f : Firmware, slotImage (!s.sec.slot) s = some f → f.svn < s.sec.minSvn) →
    exec (.supervisorRestartDone .running) s = .next (complete iss .sigFail (raise 289 0 0 { s with sec := { s.sec with restart := some .failed } }))) ∧
  (∀ s : State, (s.sec.restart = some .failed → Does (.supervisorRestartDone .running) s fun t =>
      t.sec.slot = s.sec.slot ∧ t.sec.running = slotImage s.sec.slot s ∧ t.sec.restart = none ∧ t = { s with boot := t.boot, sec := t.sec }) ∧
    (s.sec.restart = some .expired → Does (.supervisorRestartDone .running) s fun t =>
      t.sec.slot = !s.sec.slot ∧ t.sec.running = slotImage (!s.sec.slot) s ∧ t.sec.restart = none ∧ t = { s with boot := t.boot, sec := t.sec })) ∧
  (∀ (inst : Byte) (hash : Nat) (i : Fin 4) (s : State), PortOpen s → messageGate false s = none → anyOf s.sec.owner validKey = true →
    findIdx s.sec.owner (fun k => !k.programmed) = some i → flashInRange s = true → Does (.ownerKey inst (.add hash) true) s fun t =>
      t.sec.owner[i] = { hash := hash, programmed := true, revoked := false, usable := true } ∧
      (∀ j : Fin 4, j ≠ i → t.sec.owner[j] = s.sec.owner[j]) ∧
      (t.flt.sources[(293 : Fin 320)]).events = (s.flt.sources[(293 : Fin 320)]).events + 1) ∧
  (∀ (inst : Byte) (i : Fin 4) (s : State), PortOpen s → messageGate false s = none → (s.sec.owner[i]).programmed = true → (s.sec.owner[i]).revoked = false →
    (countOf s.sec.owner validKey ≠ bit (validKey s.sec.owner[i]) → flashInRange s = true → Does (.ownerKey inst (.revoke i) true) s fun t =>
      t.sec.owner[i] = { s.sec.owner[i] with revoked := true } ∧ (∀ j : Fin 4, j ≠ i → t.sec.owner[j] = s.sec.owner[j]) ∧
      (t.flt.sources[(293 : Fin 320)]).events = (s.flt.sources[(293 : Fin 320)]).events + 1) ∧
    (countOf s.sec.owner validKey = bit (validKey s.sec.owner[i]) → ∀ sig : Bool,
      exec (.ownerKey inst (.revoke i) sig) s = .next (respond 0x09 inst .badParam [] s))) ∧
  (∀ (inst : Byte) (s : State), PortOpen s → messageGate false s = none → s.sec.lockedOut = false → nonceLive s = true →
    anyOf s.sec.owner validKey = true → Does (.debugUnlock inst 1 true) s fun t =>
      t.sec = { s.sec with nonce := none, failures := 0, debug := max s.sec.debug 1 }) ∧
  (∀ (inst level : Byte) (sig : Bool) (s : State), PortOpen s → messageGate false s = none → s.sec.lockedOut = true →
    exec (.debugUnlock inst level sig) s = .next (respond 0x0B inst .denied [] s)) ∧
  (∀ (inst level : Byte) (s : State), PortOpen s → messageGate false s = none → s.sec.lockedOut = false → (level = 1 ∨ level = 2) → nonceLive s = false →
    Does (.debugUnlock inst level true) s fun t => t.sec.debug = s.sec.debug ∧ t.sec.failures = s.sec.failures + 1)

/-- O59. While the port answers: HALT sets the management halt source and RELEASE clears it and the host's; FAULT_READ, CFG_INFO and DUMP_READ send
one answer and change nothing; SET_ENDPOINT_ID with an assignable id takes it, and the other control requests send one answer and change nothing; a
bad PEC is counted up to 255, with an event of source 296. No public JTAG instruction and no bus timeout changes the device. A private one does
nothing at debug level 0; at an unlocked level registers are read and written as through PF0's BAR0 and the trace is answered with an open value (log
entry 15); scan and supervisor debug act at level 2 only, where the model stops, for the spec does not say what they do (log entry 15). Rests on R354,
R355, R661, R662, R667, R669, R685. -/
def Obligations.ManagementPort : Prop :=
  (∀ (inst : Byte) (s : State), PortOpen s → Does (.halt inst) s fun t =>
    haltOf t.nps .mgmt = true ∧ haltOf t.nps .host = haltOf s.nps .host ∧ haltOf t.nps .reset = haltOf s.nps .reset ∧
    haltOf t.nps .thermal = haltOf s.nps .thermal ∧ t.slices = s.slices ∧ t.time = s.time ∧ t.sec = s.sec) ∧
  (∀ (inst : Byte) (s : State), PortOpen s → Does (.release inst) s fun t =>
    haltOf t.nps .mgmt = false ∧ haltOf t.nps .host = false ∧ haltOf t.nps .reset = haltOf s.nps .reset ∧
    haltOf t.nps .thermal = haltOf s.nps .thermal ∧ t.slices = s.slices ∧ t.time = s.time ∧ t.sec = s.sec) ∧
  (∀ (inst sel : Byte) (s : State), PortOpen s → ∃ a, exec (.faultRead inst sel) s = .next { s with out := .answer a :: s.out } ∧
    (a.code = statusCode .ok ↔ sel.toNat ≤ 32)) ∧
  (∀ (inst : Byte) (s : State), PortOpen s → ∃ a, exec (.cfgInfo inst) s = .next { s with out := .answer a :: s.out } ∧
    a.code = statusCode .ok ∧ a.data.length = 119) ∧
  (∀ (inst : Byte) (o : Word) (n : Half) (h : DumpHeader) (s : State), PortOpen s → s.flt.dump.retained = some h → 1 ≤ n.toNat → n.toNat ≤ 1024 →
    o.toNat + n.toNat ≤ s.flt.dump.retainedLen * 4096 → ∃ a, exec (.dumpRead inst o n) s = .next { s with out := .answer a :: s.out } ∧
    a.code = statusCode .ok ∧ a.data.length = 3 + n.toNat) ∧
  (∀ (inst : Byte) (o : Word) (n : Half) (s : State), PortOpen s → s.flt.dump.retained = none →
    exec (.dumpRead inst o n) s = .next (respond 0x06 inst .badParam [] s)) ∧
  (∀ (e : Byte) (s : State), PortOpen s → e ≠ 0 → e ≠ 0xFF → Does (.setEndpointId e) s fun t =>
    t.sec = { s.sec with eid := e.toNat } ∧ t = { s with sec := t.sec, out := t.out }) ∧
  (∀ s : State, PortOpen s →
    exec .getEndpointId s = .next { s with out := .answer { code := 0, data := [s.sec.eid] } :: s.out } ∧
    (∃ v, exec .getMctpVersionSupport s = .next { s with out := .answer { code := 0, data := [v] } :: s.out }) ∧
    exec .getMessageTypeSupport s = .next { s with out := .answer { code := 0, data := [0x00, 0x01, 0x05, 0x7E] } :: s.out } ∧
    exec .getVendorDefinedMessageSupport s = .next { s with out := .answer { code := 0, data := [vendorId] } :: s.out }) ∧
  (∀ s : State, PortOpen s → Does .mctpPecDrop s fun t =>
    t.sec = { s.sec with pecErrors := min 255 (s.sec.pecErrors + 1) } ∧
    (t.flt.sources[(296 : Fin 320)]).events = (s.flt.sources[(296 : Fin 320)]).events + 1 ∧ t = { s with sec := t.sec, flt := t.flt }) ∧
  (∀ s : State, exec .smbusTimeout s = .next s) ∧
  (∀ (op : JtagOp) (s : State), op ∈ [JtagOp.bypass, .idcode, .sample, .extest, .extestPulse, .extestTrain] → exec (.jtagInstruction op) s = .next s) ∧
  (∀ s : State, s.sec.debug ≠ 2 → exec (.jtagInstruction .inner) s = .next s) ∧
  (∀ s : State, s.sec.debug = 2 → exec (.jtagInstruction .inner) s = .refused .privateJtag) ∧
  (∀ (op : JtagOp) (s : State), s.sec.debug = 0 → exec (.jtagInstruction op) s = .next s) ∧
  (∀ (off size : Nat) (s : State), s.sec.debug ≠ 0 → accessOk 0 off size = true →
    let r := readBar0 0 off size s
    exec (.jtagInstruction (.readRegister off size)) s = .next (emit (.readData 0 r.1) r.2) ∧
    (∀ v : Nat, size = 4 → exec (.jtagInstruction (.writeRegister off size v)) s = .next (writeWord 0 off (v % 2 ^ 32) s))) ∧
  (∀ s : State, s.sec.debug ≠ 0 → Does (.jtagInstruction .trace) s fun t => t = { s with out := t.out, free := s.free + 1 })

/-- O60. While the firmware serves the port, every PLDM request sends one answer and changes nothing: readings of existing sensors succeed and of
others do not. SPDM begins a negotiation at GET_VERSION and goes on in order; its requests then answer, and change nothing but the negotiation and,
with a signature, the count of open values (log entry 4). At debug level 2 nothing is signed. Rests on R658, R659, R660, R665, R669. -/
def Obligations.PldmAndSpdm : Prop :=
  (∀ s : State, PortOpen s → messageGate false s = none →
    (∃ a, exec .gettid s = .next { s with out := .answer a :: s.out } ∧ a.code = 0) ∧
    (∃ a, exec .getpldmversion s = .next { s with out := .answer a :: s.out } ∧ a.code = 0) ∧
    exec .getpldmtypes s = .next { s with out := .answer { code := 0, data := [0, 2] } :: s.out } ∧
    (∀ k, ∃ a, exec (.getpldmcommands k) s = .next { s with out := .answer a :: s.out } ∧ (a.code = 0 ↔ k = 0 ∨ k = 2)) ∧
    (∃ a, exec .getpdrrepositoryinfo s = .next { s with out := .answer a :: s.out } ∧ a.code = 0) ∧
    (∀ k, ∃ a, exec (.getpdr k) s = .next { s with out := .answer a :: s.out } ∧ a.code = 0) ∧
    (∀ k, ∃ a, exec (.getsensorreading k) s = .next { s with out := .answer a :: s.out } ∧ (a.code = 0 ↔ 1 ≤ k ∧ k ≤ 25)) ∧
    (∀ k, ∃ a, exec (.getstatesensorreadings k) s = .next { s with out := .answer a :: s.out } ∧ (a.code = 0 ↔ 26 ≤ k ∧ k ≤ 30))) ∧
  (∀ (z : Fin 6) (s : State), PortOpen s → messageGate false s = none →
    exec (.getsensorreading (z + 1)) s = .next { s with out := .answer { code := 0, data := [unsigned 32 (zoneValue z s)] } :: s.out }) ∧
  (∀ (tr : Transport) (s : State), reaches tr s = true → messageGate false s = none →
    Does (.getVersion tr) s (fun t =>
      negotiation tr t = { version := true, capabilities := false, algorithms := false } ∧ t = { s with sec := t.sec, out := t.out }) ∧
    exec (.spdmUnsupportedRequest tr) s = .next (spdmError .unsupportedRequest s)) ∧
  (∀ (tr : Transport) (s : State), reaches tr s = true → messageGate false s = none → (negotiation tr s).version = true →
    Does (.getCapabilities tr) s fun t =>
      negotiation tr t = { negotiation tr s with capabilities := true } ∧ t = { s with sec := t.sec, out := t.out }) ∧
  (∀ (tr : Transport) (s : State), reaches tr s = true → messageGate false s = none → (negotiation tr s).capabilities = true →
    Does (.negotiateAlgorithms tr true) s fun t =>
      negotiation tr t = { negotiation tr s with algorithms := true } ∧ t = { s with sec := t.sec, out := t.out }) ∧
  (∀ (tr : Transport) (s : State), reaches tr s = true → messageGate false s = none → (negotiation tr s).algorithms = false →
    exec (.getDigests tr) s = .next (spdmError .unexpectedRequest s)) ∧
  (∀ (tr : Transport) (o n : Half) (s : State), reaches tr s = true → messageGate false s = none → (negotiation tr s).algorithms = true →
    (∃ a, exec (.getDigests tr) s = .next { s with out := .answer a :: s.out } ∧ a.code = 0x01) ∧
    (∃ a, exec (.getCertificate tr 0 o n) s = .next { s with out := .answer a :: s.out } ∧ a.code = 0x02 ∧ a.data.length = n.toNat) ∧
    (s.sec.debug ≠ 2 → ∃ a, exec (.challenge tr 0) s = .next { s with out := .answer a :: s.out, free := s.free + 1 } ∧ a.code = 0x03) ∧
    (s.sec.debug = 2 → exec (.challenge tr 0) s = .next (spdmError .unspecified s) ∧
      (∀ i, exec (.getMeasurements tr i true) s = .next (spdmError .unspecified s))) ∧
    (∀ i, 1 ≤ i → i ≤ 5 →
      exec (.getMeasurements tr i false) s = .next (spdmResponse 0x60 (i :: measurement i s) s)))
end

