-- ==== Sys2Proof/Laws/Bits.lean ====
section
/-! SUPPORT. Reading what an update of a vector has written, and what the searches over a vector find. -/
namespace Sys2Proof

@[simp] theorem upd_self {α : Type} {n : Nat} (v : Vector α n) (i : Fin n) (f : α → α) : (upd v i f)[i.val] = f v[i.val] := by
  simp [upd]

/-- What an update leaves at any index. -/
theorem upd_get {α : Type} {n : Nat} (v : Vector α n) (i j : Fin n) (f : α → α) : (upd v i f)[j] = if j = i then f v[j] else v[j] := by
  by_cases h : j = i
  · subst h; rw [if_pos rfl]; exact upd_self v j f
  · have : i.val ≠ j.val := fun e => h (Fin.ext e.symm)
    simp [upd, this, h]

theorem upd_other {α : Type} {n : Nat} (v : Vector α n) (i j : Fin n) (f : α → α) (h : j ≠ i) : (upd v i f)[j] = v[j] := by
  rw [upd_get, if_neg h]

@[simp] theorem updAll_get {α β : Type} {n : Nat} (v : Vector α n) (f : Fin n → α → β) (i : Fin n) : (updAll v f)[i.val] = f i v[i.val] := by
  simp [updAll]

@[simp] theorem mem_indices {n : Nat} (i : Fin n) : i ∈ indices n := by simp [indices]

theorem allOf_iff {α : Type} {n : Nat} (v : Vector α n) (p : α → Bool) : allOf v p = true ↔ ∀ i : Fin n, p v[i] = true := by
  simp [allOf]

theorem anyOf_iff {α : Type} {n : Nat} (v : Vector α n) (p : α → Bool) : anyOf v p = true ↔ ∃ i : Fin n, p v[i] = true := by
  simp [anyOf]

/-- What a search finds meets its test. -/
theorem findIdx_some {α : Type} {n : Nat} (v : Vector α n) (p : α → Bool) (i : Fin n) (h : findIdx v p = some i) : p v[i] = true := by
  unfold findIdx at h
  exact List.find?_some (p := fun i => p v[i]) h

theorem finOf_some {n v : Nat} (h : v < n) : finOf n v = some ⟨v, h⟩ := by simp [finOf, h]

theorem finOf_none {n v : Nat} (h : n ≤ v) : finOf n v = none := by simp [finOf, Nat.not_lt.mpr h]

/-- Sorting changes no membership. -/
theorem mem_insertBy {α : Type} (le : α → α → Bool) (x a : α) (l : List α) : a ∈ insertBy le x l ↔ a = x ∨ a ∈ l := by
  induction l with
  | nil => simp [insertBy]
  | cons y ys ih => by_cases h : le x y <;> simp [insertBy, h, ih, or_left_comm]

@[simp] theorem mem_sortBy {α : Type} (le : α → α → Bool) (a : α) (l : List α) : a ∈ sortBy le l ↔ a ∈ l := by
  induction l with
  | nil => simp [sortBy]
  | cons y ys ih => simp [sortBy, mem_insertBy, ih]

end Sys2Proof
end

