-- ==== Sys2Proof/Laws/State.lean ====
section
/-! SUPPORT. One lemma for each field of `State` under each update of one part of it, so that no later proof unfolds a record update. -/
namespace Sys2Proof.Machine
open Sys2Proof

@[simp] theorem onTime_pending (f : StationTime → StationTime) (s : State) : (onTime f s).pending = s.pending := rfl
@[simp] theorem onTime_held (f : StationTime → StationTime) (s : State) : (onTime f s).held = s.held := rfl
@[simp] theorem onTime_out (f : StationTime → StationTime) (s : State) : (onTime f s).out = s.out := rfl
@[simp] theorem onTime_free (f : StationTime → StationTime) (s : State) : (onTime f s).free = s.free := rfl
@[simp] theorem onTime_time (f : StationTime → StationTime) (s : State) : (onTime f s).time = f s.time := rfl
@[simp] theorem onTime_tdd (f : StationTime → StationTime) (s : State) : (onTime f s).tdd = s.tdd := rfl
@[simp] theorem onTime_boot (f : StationTime → StationTime) (s : State) : (onTime f s).boot = s.boot := rfl
@[simp] theorem onTime_hif (f : StationTime → StationTime) (s : State) : (onTime f s).hif = s.hif := rfl
@[simp] theorem onTime_evr (f : StationTime → StationTime) (s : State) : (onTime f s).evr = s.evr := rfl
@[simp] theorem onTime_pmc (f : StationTime → StationTime) (s : State) : (onTime f s).pmc = s.pmc := rfl
@[simp] theorem onTime_flt (f : StationTime → StationTime) (s : State) : (onTime f s).flt = s.flt := rfl
@[simp] theorem onTime_cfg (f : StationTime → StationTime) (s : State) : (onTime f s).cfg = s.cfg := rfl
@[simp] theorem onTime_sec (f : StationTime → StationTime) (s : State) : (onTime f s).sec = s.sec := rfl
@[simp] theorem onTime_mon (f : StationTime → StationTime) (s : State) : (onTime f s).mon = s.mon := rfl
@[simp] theorem onTime_cen (f : StationTime → StationTime) (s : State) : (onTime f s).cen = s.cen := rfl
@[simp] theorem onTime_flash (f : StationTime → StationTime) (s : State) : (onTime f s).flash = s.flash := rfl
@[simp] theorem onTime_plc (f : StationTime → StationTime) (s : State) : (onTime f s).plc = s.plc := rfl
@[simp] theorem onTime_mem (f : StationTime → StationTime) (s : State) : (onTime f s).mem = s.mem := rfl
@[simp] theorem onTime_map (f : StationTime → StationTime) (s : State) : (onTime f s).map = s.map := rfl
@[simp] theorem onTime_thm (f : StationTime → StationTime) (s : State) : (onTime f s).thm = s.thm := rfl
@[simp] theorem onTime_lnk (f : StationTime → StationTime) (s : State) : (onTime f s).lnk = s.lnk := rfl
@[simp] theorem onTime_tiles (f : StationTime → StationTime) (s : State) : (onTime f s).tiles = s.tiles := rfl
@[simp] theorem onTime_fec (f : StationTime → StationTime) (s : State) : (onTime f s).fec = s.fec := rfl
@[simp] theorem onTime_dfe (f : StationTime → StationTime) (s : State) : (onTime f s).dfe = s.dfe := rfl
@[simp] theorem onTime_slices (f : StationTime → StationTime) (s : State) : (onTime f s).slices = s.slices := rfl
@[simp] theorem onTime_can (f : StationTime → StationTime) (s : State) : (onTime f s).can = s.can := rfl
@[simp] theorem onTime_nps (f : StationTime → StationTime) (s : State) : (onTime f s).nps = s.nps := rfl
@[simp] theorem onTime_sig (f : StationTime → StationTime) (s : State) : (onTime f s).sig = s.sig := rfl

@[simp] theorem onTdd_pending (f : Tdd → Tdd) (s : State) : (onTdd f s).pending = s.pending := rfl
@[simp] theorem onTdd_held (f : Tdd → Tdd) (s : State) : (onTdd f s).held = s.held := rfl
@[simp] theorem onTdd_out (f : Tdd → Tdd) (s : State) : (onTdd f s).out = s.out := rfl
@[simp] theorem onTdd_free (f : Tdd → Tdd) (s : State) : (onTdd f s).free = s.free := rfl
@[simp] theorem onTdd_time (f : Tdd → Tdd) (s : State) : (onTdd f s).time = s.time := rfl
@[simp] theorem onTdd_tdd (f : Tdd → Tdd) (s : State) : (onTdd f s).tdd = f s.tdd := rfl
@[simp] theorem onTdd_boot (f : Tdd → Tdd) (s : State) : (onTdd f s).boot = s.boot := rfl
@[simp] theorem onTdd_hif (f : Tdd → Tdd) (s : State) : (onTdd f s).hif = s.hif := rfl
@[simp] theorem onTdd_evr (f : Tdd → Tdd) (s : State) : (onTdd f s).evr = s.evr := rfl
@[simp] theorem onTdd_pmc (f : Tdd → Tdd) (s : State) : (onTdd f s).pmc = s.pmc := rfl
@[simp] theorem onTdd_flt (f : Tdd → Tdd) (s : State) : (onTdd f s).flt = s.flt := rfl
@[simp] theorem onTdd_cfg (f : Tdd → Tdd) (s : State) : (onTdd f s).cfg = s.cfg := rfl
@[simp] theorem onTdd_sec (f : Tdd → Tdd) (s : State) : (onTdd f s).sec = s.sec := rfl
@[simp] theorem onTdd_mon (f : Tdd → Tdd) (s : State) : (onTdd f s).mon = s.mon := rfl
@[simp] theorem onTdd_cen (f : Tdd → Tdd) (s : State) : (onTdd f s).cen = s.cen := rfl
@[simp] theorem onTdd_flash (f : Tdd → Tdd) (s : State) : (onTdd f s).flash = s.flash := rfl
@[simp] theorem onTdd_plc (f : Tdd → Tdd) (s : State) : (onTdd f s).plc = s.plc := rfl
@[simp] theorem onTdd_mem (f : Tdd → Tdd) (s : State) : (onTdd f s).mem = s.mem := rfl
@[simp] theorem onTdd_map (f : Tdd → Tdd) (s : State) : (onTdd f s).map = s.map := rfl
@[simp] theorem onTdd_thm (f : Tdd → Tdd) (s : State) : (onTdd f s).thm = s.thm := rfl
@[simp] theorem onTdd_lnk (f : Tdd → Tdd) (s : State) : (onTdd f s).lnk = s.lnk := rfl
@[simp] theorem onTdd_tiles (f : Tdd → Tdd) (s : State) : (onTdd f s).tiles = s.tiles := rfl
@[simp] theorem onTdd_fec (f : Tdd → Tdd) (s : State) : (onTdd f s).fec = s.fec := rfl
@[simp] theorem onTdd_dfe (f : Tdd → Tdd) (s : State) : (onTdd f s).dfe = s.dfe := rfl
@[simp] theorem onTdd_slices (f : Tdd → Tdd) (s : State) : (onTdd f s).slices = s.slices := rfl
@[simp] theorem onTdd_can (f : Tdd → Tdd) (s : State) : (onTdd f s).can = s.can := rfl
@[simp] theorem onTdd_nps (f : Tdd → Tdd) (s : State) : (onTdd f s).nps = s.nps := rfl
@[simp] theorem onTdd_sig (f : Tdd → Tdd) (s : State) : (onTdd f s).sig = s.sig := rfl

@[simp] theorem onBoot_pending (f : Boot → Boot) (s : State) : (onBoot f s).pending = s.pending := rfl
@[simp] theorem onBoot_held (f : Boot → Boot) (s : State) : (onBoot f s).held = s.held := rfl
@[simp] theorem onBoot_out (f : Boot → Boot) (s : State) : (onBoot f s).out = s.out := rfl
@[simp] theorem onBoot_free (f : Boot → Boot) (s : State) : (onBoot f s).free = s.free := rfl
@[simp] theorem onBoot_time (f : Boot → Boot) (s : State) : (onBoot f s).time = s.time := rfl
@[simp] theorem onBoot_tdd (f : Boot → Boot) (s : State) : (onBoot f s).tdd = s.tdd := rfl
@[simp] theorem onBoot_boot (f : Boot → Boot) (s : State) : (onBoot f s).boot = f s.boot := rfl
@[simp] theorem onBoot_hif (f : Boot → Boot) (s : State) : (onBoot f s).hif = s.hif := rfl
@[simp] theorem onBoot_evr (f : Boot → Boot) (s : State) : (onBoot f s).evr = s.evr := rfl
@[simp] theorem onBoot_pmc (f : Boot → Boot) (s : State) : (onBoot f s).pmc = s.pmc := rfl
@[simp] theorem onBoot_flt (f : Boot → Boot) (s : State) : (onBoot f s).flt = s.flt := rfl
@[simp] theorem onBoot_cfg (f : Boot → Boot) (s : State) : (onBoot f s).cfg = s.cfg := rfl
@[simp] theorem onBoot_sec (f : Boot → Boot) (s : State) : (onBoot f s).sec = s.sec := rfl
@[simp] theorem onBoot_mon (f : Boot → Boot) (s : State) : (onBoot f s).mon = s.mon := rfl
@[simp] theorem onBoot_cen (f : Boot → Boot) (s : State) : (onBoot f s).cen = s.cen := rfl
@[simp] theorem onBoot_flash (f : Boot → Boot) (s : State) : (onBoot f s).flash = s.flash := rfl
@[simp] theorem onBoot_plc (f : Boot → Boot) (s : State) : (onBoot f s).plc = s.plc := rfl
@[simp] theorem onBoot_mem (f : Boot → Boot) (s : State) : (onBoot f s).mem = s.mem := rfl
@[simp] theorem onBoot_map (f : Boot → Boot) (s : State) : (onBoot f s).map = s.map := rfl
@[simp] theorem onBoot_thm (f : Boot → Boot) (s : State) : (onBoot f s).thm = s.thm := rfl
@[simp] theorem onBoot_lnk (f : Boot → Boot) (s : State) : (onBoot f s).lnk = s.lnk := rfl
@[simp] theorem onBoot_tiles (f : Boot → Boot) (s : State) : (onBoot f s).tiles = s.tiles := rfl
@[simp] theorem onBoot_fec (f : Boot → Boot) (s : State) : (onBoot f s).fec = s.fec := rfl
@[simp] theorem onBoot_dfe (f : Boot → Boot) (s : State) : (onBoot f s).dfe = s.dfe := rfl
@[simp] theorem onBoot_slices (f : Boot → Boot) (s : State) : (onBoot f s).slices = s.slices := rfl
@[simp] theorem onBoot_can (f : Boot → Boot) (s : State) : (onBoot f s).can = s.can := rfl
@[simp] theorem onBoot_nps (f : Boot → Boot) (s : State) : (onBoot f s).nps = s.nps := rfl
@[simp] theorem onBoot_sig (f : Boot → Boot) (s : State) : (onBoot f s).sig = s.sig := rfl

@[simp] theorem onHif_pending (f : Hif → Hif) (s : State) : (onHif f s).pending = s.pending := rfl
@[simp] theorem onHif_held (f : Hif → Hif) (s : State) : (onHif f s).held = s.held := rfl
@[simp] theorem onHif_out (f : Hif → Hif) (s : State) : (onHif f s).out = s.out := rfl
@[simp] theorem onHif_free (f : Hif → Hif) (s : State) : (onHif f s).free = s.free := rfl
@[simp] theorem onHif_time (f : Hif → Hif) (s : State) : (onHif f s).time = s.time := rfl
@[simp] theorem onHif_tdd (f : Hif → Hif) (s : State) : (onHif f s).tdd = s.tdd := rfl
@[simp] theorem onHif_boot (f : Hif → Hif) (s : State) : (onHif f s).boot = s.boot := rfl
@[simp] theorem onHif_hif (f : Hif → Hif) (s : State) : (onHif f s).hif = f s.hif := rfl
@[simp] theorem onHif_evr (f : Hif → Hif) (s : State) : (onHif f s).evr = s.evr := rfl
@[simp] theorem onHif_pmc (f : Hif → Hif) (s : State) : (onHif f s).pmc = s.pmc := rfl
@[simp] theorem onHif_flt (f : Hif → Hif) (s : State) : (onHif f s).flt = s.flt := rfl
@[simp] theorem onHif_cfg (f : Hif → Hif) (s : State) : (onHif f s).cfg = s.cfg := rfl
@[simp] theorem onHif_sec (f : Hif → Hif) (s : State) : (onHif f s).sec = s.sec := rfl
@[simp] theorem onHif_mon (f : Hif → Hif) (s : State) : (onHif f s).mon = s.mon := rfl
@[simp] theorem onHif_cen (f : Hif → Hif) (s : State) : (onHif f s).cen = s.cen := rfl
@[simp] theorem onHif_flash (f : Hif → Hif) (s : State) : (onHif f s).flash = s.flash := rfl
@[simp] theorem onHif_plc (f : Hif → Hif) (s : State) : (onHif f s).plc = s.plc := rfl
@[simp] theorem onHif_mem (f : Hif → Hif) (s : State) : (onHif f s).mem = s.mem := rfl
@[simp] theorem onHif_map (f : Hif → Hif) (s : State) : (onHif f s).map = s.map := rfl
@[simp] theorem onHif_thm (f : Hif → Hif) (s : State) : (onHif f s).thm = s.thm := rfl
@[simp] theorem onHif_lnk (f : Hif → Hif) (s : State) : (onHif f s).lnk = s.lnk := rfl
@[simp] theorem onHif_tiles (f : Hif → Hif) (s : State) : (onHif f s).tiles = s.tiles := rfl
@[simp] theorem onHif_fec (f : Hif → Hif) (s : State) : (onHif f s).fec = s.fec := rfl
@[simp] theorem onHif_dfe (f : Hif → Hif) (s : State) : (onHif f s).dfe = s.dfe := rfl
@[simp] theorem onHif_slices (f : Hif → Hif) (s : State) : (onHif f s).slices = s.slices := rfl
@[simp] theorem onHif_can (f : Hif → Hif) (s : State) : (onHif f s).can = s.can := rfl
@[simp] theorem onHif_nps (f : Hif → Hif) (s : State) : (onHif f s).nps = s.nps := rfl
@[simp] theorem onHif_sig (f : Hif → Hif) (s : State) : (onHif f s).sig = s.sig := rfl

@[simp] theorem onEvr_pending (f : Recorder → Recorder) (s : State) : (onEvr f s).pending = s.pending := rfl
@[simp] theorem onEvr_held (f : Recorder → Recorder) (s : State) : (onEvr f s).held = s.held := rfl
@[simp] theorem onEvr_out (f : Recorder → Recorder) (s : State) : (onEvr f s).out = s.out := rfl
@[simp] theorem onEvr_free (f : Recorder → Recorder) (s : State) : (onEvr f s).free = s.free := rfl
@[simp] theorem onEvr_time (f : Recorder → Recorder) (s : State) : (onEvr f s).time = s.time := rfl
@[simp] theorem onEvr_tdd (f : Recorder → Recorder) (s : State) : (onEvr f s).tdd = s.tdd := rfl
@[simp] theorem onEvr_boot (f : Recorder → Recorder) (s : State) : (onEvr f s).boot = s.boot := rfl
@[simp] theorem onEvr_hif (f : Recorder → Recorder) (s : State) : (onEvr f s).hif = s.hif := rfl
@[simp] theorem onEvr_evr (f : Recorder → Recorder) (s : State) : (onEvr f s).evr = f s.evr := rfl
@[simp] theorem onEvr_pmc (f : Recorder → Recorder) (s : State) : (onEvr f s).pmc = s.pmc := rfl
@[simp] theorem onEvr_flt (f : Recorder → Recorder) (s : State) : (onEvr f s).flt = s.flt := rfl
@[simp] theorem onEvr_cfg (f : Recorder → Recorder) (s : State) : (onEvr f s).cfg = s.cfg := rfl
@[simp] theorem onEvr_sec (f : Recorder → Recorder) (s : State) : (onEvr f s).sec = s.sec := rfl
@[simp] theorem onEvr_mon (f : Recorder → Recorder) (s : State) : (onEvr f s).mon = s.mon := rfl
@[simp] theorem onEvr_cen (f : Recorder → Recorder) (s : State) : (onEvr f s).cen = s.cen := rfl
@[simp] theorem onEvr_flash (f : Recorder → Recorder) (s : State) : (onEvr f s).flash = s.flash := rfl
@[simp] theorem onEvr_plc (f : Recorder → Recorder) (s : State) : (onEvr f s).plc = s.plc := rfl
@[simp] theorem onEvr_mem (f : Recorder → Recorder) (s : State) : (onEvr f s).mem = s.mem := rfl
@[simp] theorem onEvr_map (f : Recorder → Recorder) (s : State) : (onEvr f s).map = s.map := rfl
@[simp] theorem onEvr_thm (f : Recorder → Recorder) (s : State) : (onEvr f s).thm = s.thm := rfl
@[simp] theorem onEvr_lnk (f : Recorder → Recorder) (s : State) : (onEvr f s).lnk = s.lnk := rfl
@[simp] theorem onEvr_tiles (f : Recorder → Recorder) (s : State) : (onEvr f s).tiles = s.tiles := rfl
@[simp] theorem onEvr_fec (f : Recorder → Recorder) (s : State) : (onEvr f s).fec = s.fec := rfl
@[simp] theorem onEvr_dfe (f : Recorder → Recorder) (s : State) : (onEvr f s).dfe = s.dfe := rfl
@[simp] theorem onEvr_slices (f : Recorder → Recorder) (s : State) : (onEvr f s).slices = s.slices := rfl
@[simp] theorem onEvr_can (f : Recorder → Recorder) (s : State) : (onEvr f s).can = s.can := rfl
@[simp] theorem onEvr_nps (f : Recorder → Recorder) (s : State) : (onEvr f s).nps = s.nps := rfl
@[simp] theorem onEvr_sig (f : Recorder → Recorder) (s : State) : (onEvr f s).sig = s.sig := rfl

@[simp] theorem onPmc_pending (f : Counters → Counters) (s : State) : (onPmc f s).pending = s.pending := rfl
@[simp] theorem onPmc_held (f : Counters → Counters) (s : State) : (onPmc f s).held = s.held := rfl
@[simp] theorem onPmc_out (f : Counters → Counters) (s : State) : (onPmc f s).out = s.out := rfl
@[simp] theorem onPmc_free (f : Counters → Counters) (s : State) : (onPmc f s).free = s.free := rfl
@[simp] theorem onPmc_time (f : Counters → Counters) (s : State) : (onPmc f s).time = s.time := rfl
@[simp] theorem onPmc_tdd (f : Counters → Counters) (s : State) : (onPmc f s).tdd = s.tdd := rfl
@[simp] theorem onPmc_boot (f : Counters → Counters) (s : State) : (onPmc f s).boot = s.boot := rfl
@[simp] theorem onPmc_hif (f : Counters → Counters) (s : State) : (onPmc f s).hif = s.hif := rfl
@[simp] theorem onPmc_evr (f : Counters → Counters) (s : State) : (onPmc f s).evr = s.evr := rfl
@[simp] theorem onPmc_pmc (f : Counters → Counters) (s : State) : (onPmc f s).pmc = f s.pmc := rfl
@[simp] theorem onPmc_flt (f : Counters → Counters) (s : State) : (onPmc f s).flt = s.flt := rfl
@[simp] theorem onPmc_cfg (f : Counters → Counters) (s : State) : (onPmc f s).cfg = s.cfg := rfl
@[simp] theorem onPmc_sec (f : Counters → Counters) (s : State) : (onPmc f s).sec = s.sec := rfl
@[simp] theorem onPmc_mon (f : Counters → Counters) (s : State) : (onPmc f s).mon = s.mon := rfl
@[simp] theorem onPmc_cen (f : Counters → Counters) (s : State) : (onPmc f s).cen = s.cen := rfl
@[simp] theorem onPmc_flash (f : Counters → Counters) (s : State) : (onPmc f s).flash = s.flash := rfl
@[simp] theorem onPmc_plc (f : Counters → Counters) (s : State) : (onPmc f s).plc = s.plc := rfl
@[simp] theorem onPmc_mem (f : Counters → Counters) (s : State) : (onPmc f s).mem = s.mem := rfl
@[simp] theorem onPmc_map (f : Counters → Counters) (s : State) : (onPmc f s).map = s.map := rfl
@[simp] theorem onPmc_thm (f : Counters → Counters) (s : State) : (onPmc f s).thm = s.thm := rfl
@[simp] theorem onPmc_lnk (f : Counters → Counters) (s : State) : (onPmc f s).lnk = s.lnk := rfl
@[simp] theorem onPmc_tiles (f : Counters → Counters) (s : State) : (onPmc f s).tiles = s.tiles := rfl
@[simp] theorem onPmc_fec (f : Counters → Counters) (s : State) : (onPmc f s).fec = s.fec := rfl
@[simp] theorem onPmc_dfe (f : Counters → Counters) (s : State) : (onPmc f s).dfe = s.dfe := rfl
@[simp] theorem onPmc_slices (f : Counters → Counters) (s : State) : (onPmc f s).slices = s.slices := rfl
@[simp] theorem onPmc_can (f : Counters → Counters) (s : State) : (onPmc f s).can = s.can := rfl
@[simp] theorem onPmc_nps (f : Counters → Counters) (s : State) : (onPmc f s).nps = s.nps := rfl
@[simp] theorem onPmc_sig (f : Counters → Counters) (s : State) : (onPmc f s).sig = s.sig := rfl

@[simp] theorem onFlt_pending (f : Collector → Collector) (s : State) : (onFlt f s).pending = s.pending := rfl
@[simp] theorem onFlt_held (f : Collector → Collector) (s : State) : (onFlt f s).held = s.held := rfl
@[simp] theorem onFlt_out (f : Collector → Collector) (s : State) : (onFlt f s).out = s.out := rfl
@[simp] theorem onFlt_free (f : Collector → Collector) (s : State) : (onFlt f s).free = s.free := rfl
@[simp] theorem onFlt_time (f : Collector → Collector) (s : State) : (onFlt f s).time = s.time := rfl
@[simp] theorem onFlt_tdd (f : Collector → Collector) (s : State) : (onFlt f s).tdd = s.tdd := rfl
@[simp] theorem onFlt_boot (f : Collector → Collector) (s : State) : (onFlt f s).boot = s.boot := rfl
@[simp] theorem onFlt_hif (f : Collector → Collector) (s : State) : (onFlt f s).hif = s.hif := rfl
@[simp] theorem onFlt_evr (f : Collector → Collector) (s : State) : (onFlt f s).evr = s.evr := rfl
@[simp] theorem onFlt_pmc (f : Collector → Collector) (s : State) : (onFlt f s).pmc = s.pmc := rfl
@[simp] theorem onFlt_flt (f : Collector → Collector) (s : State) : (onFlt f s).flt = f s.flt := rfl
@[simp] theorem onFlt_cfg (f : Collector → Collector) (s : State) : (onFlt f s).cfg = s.cfg := rfl
@[simp] theorem onFlt_sec (f : Collector → Collector) (s : State) : (onFlt f s).sec = s.sec := rfl
@[simp] theorem onFlt_mon (f : Collector → Collector) (s : State) : (onFlt f s).mon = s.mon := rfl
@[simp] theorem onFlt_cen (f : Collector → Collector) (s : State) : (onFlt f s).cen = s.cen := rfl
@[simp] theorem onFlt_flash (f : Collector → Collector) (s : State) : (onFlt f s).flash = s.flash := rfl
@[simp] theorem onFlt_plc (f : Collector → Collector) (s : State) : (onFlt f s).plc = s.plc := rfl
@[simp] theorem onFlt_mem (f : Collector → Collector) (s : State) : (onFlt f s).mem = s.mem := rfl
@[simp] theorem onFlt_map (f : Collector → Collector) (s : State) : (onFlt f s).map = s.map := rfl
@[simp] theorem onFlt_thm (f : Collector → Collector) (s : State) : (onFlt f s).thm = s.thm := rfl
@[simp] theorem onFlt_lnk (f : Collector → Collector) (s : State) : (onFlt f s).lnk = s.lnk := rfl
@[simp] theorem onFlt_tiles (f : Collector → Collector) (s : State) : (onFlt f s).tiles = s.tiles := rfl
@[simp] theorem onFlt_fec (f : Collector → Collector) (s : State) : (onFlt f s).fec = s.fec := rfl
@[simp] theorem onFlt_dfe (f : Collector → Collector) (s : State) : (onFlt f s).dfe = s.dfe := rfl
@[simp] theorem onFlt_slices (f : Collector → Collector) (s : State) : (onFlt f s).slices = s.slices := rfl
@[simp] theorem onFlt_can (f : Collector → Collector) (s : State) : (onFlt f s).can = s.can := rfl
@[simp] theorem onFlt_nps (f : Collector → Collector) (s : State) : (onFlt f s).nps = s.nps := rfl
@[simp] theorem onFlt_sig (f : Collector → Collector) (s : State) : (onFlt f s).sig = s.sig := rfl

@[simp] theorem onCfg_pending (f : Config → Config) (s : State) : (onCfg f s).pending = s.pending := rfl
@[simp] theorem onCfg_held (f : Config → Config) (s : State) : (onCfg f s).held = s.held := rfl
@[simp] theorem onCfg_out (f : Config → Config) (s : State) : (onCfg f s).out = s.out := rfl
@[simp] theorem onCfg_free (f : Config → Config) (s : State) : (onCfg f s).free = s.free := rfl
@[simp] theorem onCfg_time (f : Config → Config) (s : State) : (onCfg f s).time = s.time := rfl
@[simp] theorem onCfg_tdd (f : Config → Config) (s : State) : (onCfg f s).tdd = s.tdd := rfl
@[simp] theorem onCfg_boot (f : Config → Config) (s : State) : (onCfg f s).boot = s.boot := rfl
@[simp] theorem onCfg_hif (f : Config → Config) (s : State) : (onCfg f s).hif = s.hif := rfl
@[simp] theorem onCfg_evr (f : Config → Config) (s : State) : (onCfg f s).evr = s.evr := rfl
@[simp] theorem onCfg_pmc (f : Config → Config) (s : State) : (onCfg f s).pmc = s.pmc := rfl
@[simp] theorem onCfg_flt (f : Config → Config) (s : State) : (onCfg f s).flt = s.flt := rfl
@[simp] theorem onCfg_cfg (f : Config → Config) (s : State) : (onCfg f s).cfg = f s.cfg := rfl
@[simp] theorem onCfg_sec (f : Config → Config) (s : State) : (onCfg f s).sec = s.sec := rfl
@[simp] theorem onCfg_mon (f : Config → Config) (s : State) : (onCfg f s).mon = s.mon := rfl
@[simp] theorem onCfg_cen (f : Config → Config) (s : State) : (onCfg f s).cen = s.cen := rfl
@[simp] theorem onCfg_flash (f : Config → Config) (s : State) : (onCfg f s).flash = s.flash := rfl
@[simp] theorem onCfg_plc (f : Config → Config) (s : State) : (onCfg f s).plc = s.plc := rfl
@[simp] theorem onCfg_mem (f : Config → Config) (s : State) : (onCfg f s).mem = s.mem := rfl
@[simp] theorem onCfg_map (f : Config → Config) (s : State) : (onCfg f s).map = s.map := rfl
@[simp] theorem onCfg_thm (f : Config → Config) (s : State) : (onCfg f s).thm = s.thm := rfl
@[simp] theorem onCfg_lnk (f : Config → Config) (s : State) : (onCfg f s).lnk = s.lnk := rfl
@[simp] theorem onCfg_tiles (f : Config → Config) (s : State) : (onCfg f s).tiles = s.tiles := rfl
@[simp] theorem onCfg_fec (f : Config → Config) (s : State) : (onCfg f s).fec = s.fec := rfl
@[simp] theorem onCfg_dfe (f : Config → Config) (s : State) : (onCfg f s).dfe = s.dfe := rfl
@[simp] theorem onCfg_slices (f : Config → Config) (s : State) : (onCfg f s).slices = s.slices := rfl
@[simp] theorem onCfg_can (f : Config → Config) (s : State) : (onCfg f s).can = s.can := rfl
@[simp] theorem onCfg_nps (f : Config → Config) (s : State) : (onCfg f s).nps = s.nps := rfl
@[simp] theorem onCfg_sig (f : Config → Config) (s : State) : (onCfg f s).sig = s.sig := rfl

@[simp] theorem onNps_pending (f : Protect → Protect) (s : State) : (onNps f s).pending = s.pending := rfl
@[simp] theorem onNps_held (f : Protect → Protect) (s : State) : (onNps f s).held = s.held := rfl
@[simp] theorem onNps_out (f : Protect → Protect) (s : State) : (onNps f s).out = s.out := rfl
@[simp] theorem onNps_free (f : Protect → Protect) (s : State) : (onNps f s).free = s.free := rfl
@[simp] theorem onNps_time (f : Protect → Protect) (s : State) : (onNps f s).time = s.time := rfl
@[simp] theorem onNps_tdd (f : Protect → Protect) (s : State) : (onNps f s).tdd = s.tdd := rfl
@[simp] theorem onNps_boot (f : Protect → Protect) (s : State) : (onNps f s).boot = s.boot := rfl
@[simp] theorem onNps_hif (f : Protect → Protect) (s : State) : (onNps f s).hif = s.hif := rfl
@[simp] theorem onNps_evr (f : Protect → Protect) (s : State) : (onNps f s).evr = s.evr := rfl
@[simp] theorem onNps_pmc (f : Protect → Protect) (s : State) : (onNps f s).pmc = s.pmc := rfl
@[simp] theorem onNps_flt (f : Protect → Protect) (s : State) : (onNps f s).flt = s.flt := rfl
@[simp] theorem onNps_cfg (f : Protect → Protect) (s : State) : (onNps f s).cfg = s.cfg := rfl
@[simp] theorem onNps_sec (f : Protect → Protect) (s : State) : (onNps f s).sec = s.sec := rfl
@[simp] theorem onNps_mon (f : Protect → Protect) (s : State) : (onNps f s).mon = s.mon := rfl
@[simp] theorem onNps_cen (f : Protect → Protect) (s : State) : (onNps f s).cen = s.cen := rfl
@[simp] theorem onNps_flash (f : Protect → Protect) (s : State) : (onNps f s).flash = s.flash := rfl
@[simp] theorem onNps_plc (f : Protect → Protect) (s : State) : (onNps f s).plc = s.plc := rfl
@[simp] theorem onNps_mem (f : Protect → Protect) (s : State) : (onNps f s).mem = s.mem := rfl
@[simp] theorem onNps_map (f : Protect → Protect) (s : State) : (onNps f s).map = s.map := rfl
@[simp] theorem onNps_thm (f : Protect → Protect) (s : State) : (onNps f s).thm = s.thm := rfl
@[simp] theorem onNps_lnk (f : Protect → Protect) (s : State) : (onNps f s).lnk = s.lnk := rfl
@[simp] theorem onNps_tiles (f : Protect → Protect) (s : State) : (onNps f s).tiles = s.tiles := rfl
@[simp] theorem onNps_fec (f : Protect → Protect) (s : State) : (onNps f s).fec = s.fec := rfl
@[simp] theorem onNps_dfe (f : Protect → Protect) (s : State) : (onNps f s).dfe = s.dfe := rfl
@[simp] theorem onNps_slices (f : Protect → Protect) (s : State) : (onNps f s).slices = s.slices := rfl
@[simp] theorem onNps_can (f : Protect → Protect) (s : State) : (onNps f s).can = s.can := rfl
@[simp] theorem onNps_nps (f : Protect → Protect) (s : State) : (onNps f s).nps = f s.nps := rfl
@[simp] theorem onNps_sig (f : Protect → Protect) (s : State) : (onNps f s).sig = s.sig := rfl

@[simp] theorem onCan_pending (f : Cancel → Cancel) (s : State) : (onCan f s).pending = s.pending := rfl
@[simp] theorem onCan_held (f : Cancel → Cancel) (s : State) : (onCan f s).held = s.held := rfl
@[simp] theorem onCan_out (f : Cancel → Cancel) (s : State) : (onCan f s).out = s.out := rfl
@[simp] theorem onCan_free (f : Cancel → Cancel) (s : State) : (onCan f s).free = s.free := rfl
@[simp] theorem onCan_time (f : Cancel → Cancel) (s : State) : (onCan f s).time = s.time := rfl
@[simp] theorem onCan_tdd (f : Cancel → Cancel) (s : State) : (onCan f s).tdd = s.tdd := rfl
@[simp] theorem onCan_boot (f : Cancel → Cancel) (s : State) : (onCan f s).boot = s.boot := rfl
@[simp] theorem onCan_hif (f : Cancel → Cancel) (s : State) : (onCan f s).hif = s.hif := rfl
@[simp] theorem onCan_evr (f : Cancel → Cancel) (s : State) : (onCan f s).evr = s.evr := rfl
@[simp] theorem onCan_pmc (f : Cancel → Cancel) (s : State) : (onCan f s).pmc = s.pmc := rfl
@[simp] theorem onCan_flt (f : Cancel → Cancel) (s : State) : (onCan f s).flt = s.flt := rfl
@[simp] theorem onCan_cfg (f : Cancel → Cancel) (s : State) : (onCan f s).cfg = s.cfg := rfl
@[simp] theorem onCan_sec (f : Cancel → Cancel) (s : State) : (onCan f s).sec = s.sec := rfl
@[simp] theorem onCan_mon (f : Cancel → Cancel) (s : State) : (onCan f s).mon = s.mon := rfl
@[simp] theorem onCan_cen (f : Cancel → Cancel) (s : State) : (onCan f s).cen = s.cen := rfl
@[simp] theorem onCan_flash (f : Cancel → Cancel) (s : State) : (onCan f s).flash = s.flash := rfl
@[simp] theorem onCan_plc (f : Cancel → Cancel) (s : State) : (onCan f s).plc = s.plc := rfl
@[simp] theorem onCan_mem (f : Cancel → Cancel) (s : State) : (onCan f s).mem = s.mem := rfl
@[simp] theorem onCan_map (f : Cancel → Cancel) (s : State) : (onCan f s).map = s.map := rfl
@[simp] theorem onCan_thm (f : Cancel → Cancel) (s : State) : (onCan f s).thm = s.thm := rfl
@[simp] theorem onCan_lnk (f : Cancel → Cancel) (s : State) : (onCan f s).lnk = s.lnk := rfl
@[simp] theorem onCan_tiles (f : Cancel → Cancel) (s : State) : (onCan f s).tiles = s.tiles := rfl
@[simp] theorem onCan_fec (f : Cancel → Cancel) (s : State) : (onCan f s).fec = s.fec := rfl
@[simp] theorem onCan_dfe (f : Cancel → Cancel) (s : State) : (onCan f s).dfe = s.dfe := rfl
@[simp] theorem onCan_slices (f : Cancel → Cancel) (s : State) : (onCan f s).slices = s.slices := rfl
@[simp] theorem onCan_can (f : Cancel → Cancel) (s : State) : (onCan f s).can = f s.can := rfl
@[simp] theorem onCan_nps (f : Cancel → Cancel) (s : State) : (onCan f s).nps = s.nps := rfl
@[simp] theorem onCan_sig (f : Cancel → Cancel) (s : State) : (onCan f s).sig = s.sig := rfl

@[simp] theorem onSlices_pending (f : Slices → Slices) (s : State) : (onSlices f s).pending = s.pending := rfl
@[simp] theorem onSlices_held (f : Slices → Slices) (s : State) : (onSlices f s).held = s.held := rfl
@[simp] theorem onSlices_out (f : Slices → Slices) (s : State) : (onSlices f s).out = s.out := rfl
@[simp] theorem onSlices_free (f : Slices → Slices) (s : State) : (onSlices f s).free = s.free := rfl
@[simp] theorem onSlices_time (f : Slices → Slices) (s : State) : (onSlices f s).time = s.time := rfl
@[simp] theorem onSlices_tdd (f : Slices → Slices) (s : State) : (onSlices f s).tdd = s.tdd := rfl
@[simp] theorem onSlices_boot (f : Slices → Slices) (s : State) : (onSlices f s).boot = s.boot := rfl
@[simp] theorem onSlices_hif (f : Slices → Slices) (s : State) : (onSlices f s).hif = s.hif := rfl
@[simp] theorem onSlices_evr (f : Slices → Slices) (s : State) : (onSlices f s).evr = s.evr := rfl
@[simp] theorem onSlices_pmc (f : Slices → Slices) (s : State) : (onSlices f s).pmc = s.pmc := rfl
@[simp] theorem onSlices_flt (f : Slices → Slices) (s : State) : (onSlices f s).flt = s.flt := rfl
@[simp] theorem onSlices_cfg (f : Slices → Slices) (s : State) : (onSlices f s).cfg = s.cfg := rfl
@[simp] theorem onSlices_sec (f : Slices → Slices) (s : State) : (onSlices f s).sec = s.sec := rfl
@[simp] theorem onSlices_mon (f : Slices → Slices) (s : State) : (onSlices f s).mon = s.mon := rfl
@[simp] theorem onSlices_cen (f : Slices → Slices) (s : State) : (onSlices f s).cen = s.cen := rfl
@[simp] theorem onSlices_flash (f : Slices → Slices) (s : State) : (onSlices f s).flash = s.flash := rfl
@[simp] theorem onSlices_plc (f : Slices → Slices) (s : State) : (onSlices f s).plc = s.plc := rfl
@[simp] theorem onSlices_mem (f : Slices → Slices) (s : State) : (onSlices f s).mem = s.mem := rfl
@[simp] theorem onSlices_map (f : Slices → Slices) (s : State) : (onSlices f s).map = s.map := rfl
@[simp] theorem onSlices_thm (f : Slices → Slices) (s : State) : (onSlices f s).thm = s.thm := rfl
@[simp] theorem onSlices_lnk (f : Slices → Slices) (s : State) : (onSlices f s).lnk = s.lnk := rfl
@[simp] theorem onSlices_tiles (f : Slices → Slices) (s : State) : (onSlices f s).tiles = s.tiles := rfl
@[simp] theorem onSlices_fec (f : Slices → Slices) (s : State) : (onSlices f s).fec = s.fec := rfl
@[simp] theorem onSlices_dfe (f : Slices → Slices) (s : State) : (onSlices f s).dfe = s.dfe := rfl
@[simp] theorem onSlices_slices (f : Slices → Slices) (s : State) : (onSlices f s).slices = f s.slices := rfl
@[simp] theorem onSlices_can (f : Slices → Slices) (s : State) : (onSlices f s).can = s.can := rfl
@[simp] theorem onSlices_nps (f : Slices → Slices) (s : State) : (onSlices f s).nps = s.nps := rfl
@[simp] theorem onSlices_sig (f : Slices → Slices) (s : State) : (onSlices f s).sig = s.sig := rfl

@[simp] theorem onDfe_pending (f : Dfe → Dfe) (s : State) : (onDfe f s).pending = s.pending := rfl
@[simp] theorem onDfe_held (f : Dfe → Dfe) (s : State) : (onDfe f s).held = s.held := rfl
@[simp] theorem onDfe_out (f : Dfe → Dfe) (s : State) : (onDfe f s).out = s.out := rfl
@[simp] theorem onDfe_free (f : Dfe → Dfe) (s : State) : (onDfe f s).free = s.free := rfl
@[simp] theorem onDfe_time (f : Dfe → Dfe) (s : State) : (onDfe f s).time = s.time := rfl
@[simp] theorem onDfe_tdd (f : Dfe → Dfe) (s : State) : (onDfe f s).tdd = s.tdd := rfl
@[simp] theorem onDfe_boot (f : Dfe → Dfe) (s : State) : (onDfe f s).boot = s.boot := rfl
@[simp] theorem onDfe_hif (f : Dfe → Dfe) (s : State) : (onDfe f s).hif = s.hif := rfl
@[simp] theorem onDfe_evr (f : Dfe → Dfe) (s : State) : (onDfe f s).evr = s.evr := rfl
@[simp] theorem onDfe_pmc (f : Dfe → Dfe) (s : State) : (onDfe f s).pmc = s.pmc := rfl
@[simp] theorem onDfe_flt (f : Dfe → Dfe) (s : State) : (onDfe f s).flt = s.flt := rfl
@[simp] theorem onDfe_cfg (f : Dfe → Dfe) (s : State) : (onDfe f s).cfg = s.cfg := rfl
@[simp] theorem onDfe_sec (f : Dfe → Dfe) (s : State) : (onDfe f s).sec = s.sec := rfl
@[simp] theorem onDfe_mon (f : Dfe → Dfe) (s : State) : (onDfe f s).mon = s.mon := rfl
@[simp] theorem onDfe_cen (f : Dfe → Dfe) (s : State) : (onDfe f s).cen = s.cen := rfl
@[simp] theorem onDfe_flash (f : Dfe → Dfe) (s : State) : (onDfe f s).flash = s.flash := rfl
@[simp] theorem onDfe_plc (f : Dfe → Dfe) (s : State) : (onDfe f s).plc = s.plc := rfl
@[simp] theorem onDfe_mem (f : Dfe → Dfe) (s : State) : (onDfe f s).mem = s.mem := rfl
@[simp] theorem onDfe_map (f : Dfe → Dfe) (s : State) : (onDfe f s).map = s.map := rfl
@[simp] theorem onDfe_thm (f : Dfe → Dfe) (s : State) : (onDfe f s).thm = s.thm := rfl
@[simp] theorem onDfe_lnk (f : Dfe → Dfe) (s : State) : (onDfe f s).lnk = s.lnk := rfl
@[simp] theorem onDfe_tiles (f : Dfe → Dfe) (s : State) : (onDfe f s).tiles = s.tiles := rfl
@[simp] theorem onDfe_fec (f : Dfe → Dfe) (s : State) : (onDfe f s).fec = s.fec := rfl
@[simp] theorem onDfe_dfe (f : Dfe → Dfe) (s : State) : (onDfe f s).dfe = f s.dfe := rfl
@[simp] theorem onDfe_slices (f : Dfe → Dfe) (s : State) : (onDfe f s).slices = s.slices := rfl
@[simp] theorem onDfe_can (f : Dfe → Dfe) (s : State) : (onDfe f s).can = s.can := rfl
@[simp] theorem onDfe_nps (f : Dfe → Dfe) (s : State) : (onDfe f s).nps = s.nps := rfl
@[simp] theorem onDfe_sig (f : Dfe → Dfe) (s : State) : (onDfe f s).sig = s.sig := rfl

@[simp] theorem onSig_pending (f : Signals → Signals) (s : State) : (onSig f s).pending = s.pending := rfl
@[simp] theorem onSig_held (f : Signals → Signals) (s : State) : (onSig f s).held = s.held := rfl
@[simp] theorem onSig_out (f : Signals → Signals) (s : State) : (onSig f s).out = s.out := rfl
@[simp] theorem onSig_free (f : Signals → Signals) (s : State) : (onSig f s).free = s.free := rfl
@[simp] theorem onSig_time (f : Signals → Signals) (s : State) : (onSig f s).time = s.time := rfl
@[simp] theorem onSig_tdd (f : Signals → Signals) (s : State) : (onSig f s).tdd = s.tdd := rfl
@[simp] theorem onSig_boot (f : Signals → Signals) (s : State) : (onSig f s).boot = s.boot := rfl
@[simp] theorem onSig_hif (f : Signals → Signals) (s : State) : (onSig f s).hif = s.hif := rfl
@[simp] theorem onSig_evr (f : Signals → Signals) (s : State) : (onSig f s).evr = s.evr := rfl
@[simp] theorem onSig_pmc (f : Signals → Signals) (s : State) : (onSig f s).pmc = s.pmc := rfl
@[simp] theorem onSig_flt (f : Signals → Signals) (s : State) : (onSig f s).flt = s.flt := rfl
@[simp] theorem onSig_cfg (f : Signals → Signals) (s : State) : (onSig f s).cfg = s.cfg := rfl
@[simp] theorem onSig_sec (f : Signals → Signals) (s : State) : (onSig f s).sec = s.sec := rfl
@[simp] theorem onSig_mon (f : Signals → Signals) (s : State) : (onSig f s).mon = s.mon := rfl
@[simp] theorem onSig_cen (f : Signals → Signals) (s : State) : (onSig f s).cen = s.cen := rfl
@[simp] theorem onSig_flash (f : Signals → Signals) (s : State) : (onSig f s).flash = s.flash := rfl
@[simp] theorem onSig_plc (f : Signals → Signals) (s : State) : (onSig f s).plc = s.plc := rfl
@[simp] theorem onSig_mem (f : Signals → Signals) (s : State) : (onSig f s).mem = s.mem := rfl
@[simp] theorem onSig_map (f : Signals → Signals) (s : State) : (onSig f s).map = s.map := rfl
@[simp] theorem onSig_thm (f : Signals → Signals) (s : State) : (onSig f s).thm = s.thm := rfl
@[simp] theorem onSig_lnk (f : Signals → Signals) (s : State) : (onSig f s).lnk = s.lnk := rfl
@[simp] theorem onSig_tiles (f : Signals → Signals) (s : State) : (onSig f s).tiles = s.tiles := rfl
@[simp] theorem onSig_fec (f : Signals → Signals) (s : State) : (onSig f s).fec = s.fec := rfl
@[simp] theorem onSig_dfe (f : Signals → Signals) (s : State) : (onSig f s).dfe = s.dfe := rfl
@[simp] theorem onSig_slices (f : Signals → Signals) (s : State) : (onSig f s).slices = s.slices := rfl
@[simp] theorem onSig_can (f : Signals → Signals) (s : State) : (onSig f s).can = s.can := rfl
@[simp] theorem onSig_nps (f : Signals → Signals) (s : State) : (onSig f s).nps = s.nps := rfl
@[simp] theorem onSig_sig (f : Signals → Signals) (s : State) : (onSig f s).sig = f s.sig := rfl

@[simp] theorem onFec_pending (f : FrontEnd → FrontEnd) (s : State) : (onFec f s).pending = s.pending := rfl
@[simp] theorem onFec_held (f : FrontEnd → FrontEnd) (s : State) : (onFec f s).held = s.held := rfl
@[simp] theorem onFec_out (f : FrontEnd → FrontEnd) (s : State) : (onFec f s).out = s.out := rfl
@[simp] theorem onFec_free (f : FrontEnd → FrontEnd) (s : State) : (onFec f s).free = s.free := rfl
@[simp] theorem onFec_time (f : FrontEnd → FrontEnd) (s : State) : (onFec f s).time = s.time := rfl
@[simp] theorem onFec_tdd (f : FrontEnd → FrontEnd) (s : State) : (onFec f s).tdd = s.tdd := rfl
@[simp] theorem onFec_boot (f : FrontEnd → FrontEnd) (s : State) : (onFec f s).boot = s.boot := rfl
@[simp] theorem onFec_hif (f : FrontEnd → FrontEnd) (s : State) : (onFec f s).hif = s.hif := rfl
@[simp] theorem onFec_evr (f : FrontEnd → FrontEnd) (s : State) : (onFec f s).evr = s.evr := rfl
@[simp] theorem onFec_pmc (f : FrontEnd → FrontEnd) (s : State) : (onFec f s).pmc = s.pmc := rfl
@[simp] theorem onFec_flt (f : FrontEnd → FrontEnd) (s : State) : (onFec f s).flt = s.flt := rfl
@[simp] theorem onFec_cfg (f : FrontEnd → FrontEnd) (s : State) : (onFec f s).cfg = s.cfg := rfl
@[simp] theorem onFec_sec (f : FrontEnd → FrontEnd) (s : State) : (onFec f s).sec = s.sec := rfl
@[simp] theorem onFec_mon (f : FrontEnd → FrontEnd) (s : State) : (onFec f s).mon = s.mon := rfl
@[simp] theorem onFec_cen (f : FrontEnd → FrontEnd) (s : State) : (onFec f s).cen = s.cen := rfl
@[simp] theorem onFec_flash (f : FrontEnd → FrontEnd) (s : State) : (onFec f s).flash = s.flash := rfl
@[simp] theorem onFec_plc (f : FrontEnd → FrontEnd) (s : State) : (onFec f s).plc = s.plc := rfl
@[simp] theorem onFec_mem (f : FrontEnd → FrontEnd) (s : State) : (onFec f s).mem = s.mem := rfl
@[simp] theorem onFec_map (f : FrontEnd → FrontEnd) (s : State) : (onFec f s).map = s.map := rfl
@[simp] theorem onFec_thm (f : FrontEnd → FrontEnd) (s : State) : (onFec f s).thm = s.thm := rfl
@[simp] theorem onFec_lnk (f : FrontEnd → FrontEnd) (s : State) : (onFec f s).lnk = s.lnk := rfl
@[simp] theorem onFec_tiles (f : FrontEnd → FrontEnd) (s : State) : (onFec f s).tiles = s.tiles := rfl
@[simp] theorem onFec_fec (f : FrontEnd → FrontEnd) (s : State) : (onFec f s).fec = f s.fec := rfl
@[simp] theorem onFec_dfe (f : FrontEnd → FrontEnd) (s : State) : (onFec f s).dfe = s.dfe := rfl
@[simp] theorem onFec_slices (f : FrontEnd → FrontEnd) (s : State) : (onFec f s).slices = s.slices := rfl
@[simp] theorem onFec_can (f : FrontEnd → FrontEnd) (s : State) : (onFec f s).can = s.can := rfl
@[simp] theorem onFec_nps (f : FrontEnd → FrontEnd) (s : State) : (onFec f s).nps = s.nps := rfl
@[simp] theorem onFec_sig (f : FrontEnd → FrontEnd) (s : State) : (onFec f s).sig = s.sig := rfl

@[simp] theorem onTiles_pending (f : Tiles → Tiles) (s : State) : (onTiles f s).pending = s.pending := rfl
@[simp] theorem onTiles_held (f : Tiles → Tiles) (s : State) : (onTiles f s).held = s.held := rfl
@[simp] theorem onTiles_out (f : Tiles → Tiles) (s : State) : (onTiles f s).out = s.out := rfl
@[simp] theorem onTiles_free (f : Tiles → Tiles) (s : State) : (onTiles f s).free = s.free := rfl
@[simp] theorem onTiles_time (f : Tiles → Tiles) (s : State) : (onTiles f s).time = s.time := rfl
@[simp] theorem onTiles_tdd (f : Tiles → Tiles) (s : State) : (onTiles f s).tdd = s.tdd := rfl
@[simp] theorem onTiles_boot (f : Tiles → Tiles) (s : State) : (onTiles f s).boot = s.boot := rfl
@[simp] theorem onTiles_hif (f : Tiles → Tiles) (s : State) : (onTiles f s).hif = s.hif := rfl
@[simp] theorem onTiles_evr (f : Tiles → Tiles) (s : State) : (onTiles f s).evr = s.evr := rfl
@[simp] theorem onTiles_pmc (f : Tiles → Tiles) (s : State) : (onTiles f s).pmc = s.pmc := rfl
@[simp] theorem onTiles_flt (f : Tiles → Tiles) (s : State) : (onTiles f s).flt = s.flt := rfl
@[simp] theorem onTiles_cfg (f : Tiles → Tiles) (s : State) : (onTiles f s).cfg = s.cfg := rfl
@[simp] theorem onTiles_sec (f : Tiles → Tiles) (s : State) : (onTiles f s).sec = s.sec := rfl
@[simp] theorem onTiles_mon (f : Tiles → Tiles) (s : State) : (onTiles f s).mon = s.mon := rfl
@[simp] theorem onTiles_cen (f : Tiles → Tiles) (s : State) : (onTiles f s).cen = s.cen := rfl
@[simp] theorem onTiles_flash (f : Tiles → Tiles) (s : State) : (onTiles f s).flash = s.flash := rfl
@[simp] theorem onTiles_plc (f : Tiles → Tiles) (s : State) : (onTiles f s).plc = s.plc := rfl
@[simp] theorem onTiles_mem (f : Tiles → Tiles) (s : State) : (onTiles f s).mem = s.mem := rfl
@[simp] theorem onTiles_map (f : Tiles → Tiles) (s : State) : (onTiles f s).map = s.map := rfl
@[simp] theorem onTiles_thm (f : Tiles → Tiles) (s : State) : (onTiles f s).thm = s.thm := rfl
@[simp] theorem onTiles_lnk (f : Tiles → Tiles) (s : State) : (onTiles f s).lnk = s.lnk := rfl
@[simp] theorem onTiles_tiles (f : Tiles → Tiles) (s : State) : (onTiles f s).tiles = f s.tiles := rfl
@[simp] theorem onTiles_fec (f : Tiles → Tiles) (s : State) : (onTiles f s).fec = s.fec := rfl
@[simp] theorem onTiles_dfe (f : Tiles → Tiles) (s : State) : (onTiles f s).dfe = s.dfe := rfl
@[simp] theorem onTiles_slices (f : Tiles → Tiles) (s : State) : (onTiles f s).slices = s.slices := rfl
@[simp] theorem onTiles_can (f : Tiles → Tiles) (s : State) : (onTiles f s).can = s.can := rfl
@[simp] theorem onTiles_nps (f : Tiles → Tiles) (s : State) : (onTiles f s).nps = s.nps := rfl
@[simp] theorem onTiles_sig (f : Tiles → Tiles) (s : State) : (onTiles f s).sig = s.sig := rfl

@[simp] theorem onPlc_pending (f : Placement → Placement) (s : State) : (onPlc f s).pending = s.pending := rfl
@[simp] theorem onPlc_held (f : Placement → Placement) (s : State) : (onPlc f s).held = s.held := rfl
@[simp] theorem onPlc_out (f : Placement → Placement) (s : State) : (onPlc f s).out = s.out := rfl
@[simp] theorem onPlc_free (f : Placement → Placement) (s : State) : (onPlc f s).free = s.free := rfl
@[simp] theorem onPlc_time (f : Placement → Placement) (s : State) : (onPlc f s).time = s.time := rfl
@[simp] theorem onPlc_tdd (f : Placement → Placement) (s : State) : (onPlc f s).tdd = s.tdd := rfl
@[simp] theorem onPlc_boot (f : Placement → Placement) (s : State) : (onPlc f s).boot = s.boot := rfl
@[simp] theorem onPlc_hif (f : Placement → Placement) (s : State) : (onPlc f s).hif = s.hif := rfl
@[simp] theorem onPlc_evr (f : Placement → Placement) (s : State) : (onPlc f s).evr = s.evr := rfl
@[simp] theorem onPlc_pmc (f : Placement → Placement) (s : State) : (onPlc f s).pmc = s.pmc := rfl
@[simp] theorem onPlc_flt (f : Placement → Placement) (s : State) : (onPlc f s).flt = s.flt := rfl
@[simp] theorem onPlc_cfg (f : Placement → Placement) (s : State) : (onPlc f s).cfg = s.cfg := rfl
@[simp] theorem onPlc_sec (f : Placement → Placement) (s : State) : (onPlc f s).sec = s.sec := rfl
@[simp] theorem onPlc_mon (f : Placement → Placement) (s : State) : (onPlc f s).mon = s.mon := rfl
@[simp] theorem onPlc_cen (f : Placement → Placement) (s : State) : (onPlc f s).cen = s.cen := rfl
@[simp] theorem onPlc_flash (f : Placement → Placement) (s : State) : (onPlc f s).flash = s.flash := rfl
@[simp] theorem onPlc_plc (f : Placement → Placement) (s : State) : (onPlc f s).plc = f s.plc := rfl
@[simp] theorem onPlc_mem (f : Placement → Placement) (s : State) : (onPlc f s).mem = s.mem := rfl
@[simp] theorem onPlc_map (f : Placement → Placement) (s : State) : (onPlc f s).map = s.map := rfl
@[simp] theorem onPlc_thm (f : Placement → Placement) (s : State) : (onPlc f s).thm = s.thm := rfl
@[simp] theorem onPlc_lnk (f : Placement → Placement) (s : State) : (onPlc f s).lnk = s.lnk := rfl
@[simp] theorem onPlc_tiles (f : Placement → Placement) (s : State) : (onPlc f s).tiles = s.tiles := rfl
@[simp] theorem onPlc_fec (f : Placement → Placement) (s : State) : (onPlc f s).fec = s.fec := rfl
@[simp] theorem onPlc_dfe (f : Placement → Placement) (s : State) : (onPlc f s).dfe = s.dfe := rfl
@[simp] theorem onPlc_slices (f : Placement → Placement) (s : State) : (onPlc f s).slices = s.slices := rfl
@[simp] theorem onPlc_can (f : Placement → Placement) (s : State) : (onPlc f s).can = s.can := rfl
@[simp] theorem onPlc_nps (f : Placement → Placement) (s : State) : (onPlc f s).nps = s.nps := rfl
@[simp] theorem onPlc_sig (f : Placement → Placement) (s : State) : (onPlc f s).sig = s.sig := rfl

@[simp] theorem onMem_pending (f : Smem → Smem) (s : State) : (onMem f s).pending = s.pending := rfl
@[simp] theorem onMem_held (f : Smem → Smem) (s : State) : (onMem f s).held = s.held := rfl
@[simp] theorem onMem_out (f : Smem → Smem) (s : State) : (onMem f s).out = s.out := rfl
@[simp] theorem onMem_free (f : Smem → Smem) (s : State) : (onMem f s).free = s.free := rfl
@[simp] theorem onMem_time (f : Smem → Smem) (s : State) : (onMem f s).time = s.time := rfl
@[simp] theorem onMem_tdd (f : Smem → Smem) (s : State) : (onMem f s).tdd = s.tdd := rfl
@[simp] theorem onMem_boot (f : Smem → Smem) (s : State) : (onMem f s).boot = s.boot := rfl
@[simp] theorem onMem_hif (f : Smem → Smem) (s : State) : (onMem f s).hif = s.hif := rfl
@[simp] theorem onMem_evr (f : Smem → Smem) (s : State) : (onMem f s).evr = s.evr := rfl
@[simp] theorem onMem_pmc (f : Smem → Smem) (s : State) : (onMem f s).pmc = s.pmc := rfl
@[simp] theorem onMem_flt (f : Smem → Smem) (s : State) : (onMem f s).flt = s.flt := rfl
@[simp] theorem onMem_cfg (f : Smem → Smem) (s : State) : (onMem f s).cfg = s.cfg := rfl
@[simp] theorem onMem_sec (f : Smem → Smem) (s : State) : (onMem f s).sec = s.sec := rfl
@[simp] theorem onMem_mon (f : Smem → Smem) (s : State) : (onMem f s).mon = s.mon := rfl
@[simp] theorem onMem_cen (f : Smem → Smem) (s : State) : (onMem f s).cen = s.cen := rfl
@[simp] theorem onMem_flash (f : Smem → Smem) (s : State) : (onMem f s).flash = s.flash := rfl
@[simp] theorem onMem_plc (f : Smem → Smem) (s : State) : (onMem f s).plc = s.plc := rfl
@[simp] theorem onMem_mem (f : Smem → Smem) (s : State) : (onMem f s).mem = f s.mem := rfl
@[simp] theorem onMem_map (f : Smem → Smem) (s : State) : (onMem f s).map = s.map := rfl
@[simp] theorem onMem_thm (f : Smem → Smem) (s : State) : (onMem f s).thm = s.thm := rfl
@[simp] theorem onMem_lnk (f : Smem → Smem) (s : State) : (onMem f s).lnk = s.lnk := rfl
@[simp] theorem onMem_tiles (f : Smem → Smem) (s : State) : (onMem f s).tiles = s.tiles := rfl
@[simp] theorem onMem_fec (f : Smem → Smem) (s : State) : (onMem f s).fec = s.fec := rfl
@[simp] theorem onMem_dfe (f : Smem → Smem) (s : State) : (onMem f s).dfe = s.dfe := rfl
@[simp] theorem onMem_slices (f : Smem → Smem) (s : State) : (onMem f s).slices = s.slices := rfl
@[simp] theorem onMem_can (f : Smem → Smem) (s : State) : (onMem f s).can = s.can := rfl
@[simp] theorem onMem_nps (f : Smem → Smem) (s : State) : (onMem f s).nps = s.nps := rfl
@[simp] theorem onMem_sig (f : Smem → Smem) (s : State) : (onMem f s).sig = s.sig := rfl

@[simp] theorem onMap_pending (f : RetireMap → RetireMap) (s : State) : (onMap f s).pending = s.pending := rfl
@[simp] theorem onMap_held (f : RetireMap → RetireMap) (s : State) : (onMap f s).held = s.held := rfl
@[simp] theorem onMap_out (f : RetireMap → RetireMap) (s : State) : (onMap f s).out = s.out := rfl
@[simp] theorem onMap_free (f : RetireMap → RetireMap) (s : State) : (onMap f s).free = s.free := rfl
@[simp] theorem onMap_time (f : RetireMap → RetireMap) (s : State) : (onMap f s).time = s.time := rfl
@[simp] theorem onMap_tdd (f : RetireMap → RetireMap) (s : State) : (onMap f s).tdd = s.tdd := rfl
@[simp] theorem onMap_boot (f : RetireMap → RetireMap) (s : State) : (onMap f s).boot = s.boot := rfl
@[simp] theorem onMap_hif (f : RetireMap → RetireMap) (s : State) : (onMap f s).hif = s.hif := rfl
@[simp] theorem onMap_evr (f : RetireMap → RetireMap) (s : State) : (onMap f s).evr = s.evr := rfl
@[simp] theorem onMap_pmc (f : RetireMap → RetireMap) (s : State) : (onMap f s).pmc = s.pmc := rfl
@[simp] theorem onMap_flt (f : RetireMap → RetireMap) (s : State) : (onMap f s).flt = s.flt := rfl
@[simp] theorem onMap_cfg (f : RetireMap → RetireMap) (s : State) : (onMap f s).cfg = s.cfg := rfl
@[simp] theorem onMap_sec (f : RetireMap → RetireMap) (s : State) : (onMap f s).sec = s.sec := rfl
@[simp] theorem onMap_mon (f : RetireMap → RetireMap) (s : State) : (onMap f s).mon = s.mon := rfl
@[simp] theorem onMap_cen (f : RetireMap → RetireMap) (s : State) : (onMap f s).cen = s.cen := rfl
@[simp] theorem onMap_flash (f : RetireMap → RetireMap) (s : State) : (onMap f s).flash = s.flash := rfl
@[simp] theorem onMap_plc (f : RetireMap → RetireMap) (s : State) : (onMap f s).plc = s.plc := rfl
@[simp] theorem onMap_mem (f : RetireMap → RetireMap) (s : State) : (onMap f s).mem = s.mem := rfl
@[simp] theorem onMap_map (f : RetireMap → RetireMap) (s : State) : (onMap f s).map = f s.map := rfl
@[simp] theorem onMap_thm (f : RetireMap → RetireMap) (s : State) : (onMap f s).thm = s.thm := rfl
@[simp] theorem onMap_lnk (f : RetireMap → RetireMap) (s : State) : (onMap f s).lnk = s.lnk := rfl
@[simp] theorem onMap_tiles (f : RetireMap → RetireMap) (s : State) : (onMap f s).tiles = s.tiles := rfl
@[simp] theorem onMap_fec (f : RetireMap → RetireMap) (s : State) : (onMap f s).fec = s.fec := rfl
@[simp] theorem onMap_dfe (f : RetireMap → RetireMap) (s : State) : (onMap f s).dfe = s.dfe := rfl
@[simp] theorem onMap_slices (f : RetireMap → RetireMap) (s : State) : (onMap f s).slices = s.slices := rfl
@[simp] theorem onMap_can (f : RetireMap → RetireMap) (s : State) : (onMap f s).can = s.can := rfl
@[simp] theorem onMap_nps (f : RetireMap → RetireMap) (s : State) : (onMap f s).nps = s.nps := rfl
@[simp] theorem onMap_sig (f : RetireMap → RetireMap) (s : State) : (onMap f s).sig = s.sig := rfl

@[simp] theorem onThm_pending (f : Thermal → Thermal) (s : State) : (onThm f s).pending = s.pending := rfl
@[simp] theorem onThm_held (f : Thermal → Thermal) (s : State) : (onThm f s).held = s.held := rfl
@[simp] theorem onThm_out (f : Thermal → Thermal) (s : State) : (onThm f s).out = s.out := rfl
@[simp] theorem onThm_free (f : Thermal → Thermal) (s : State) : (onThm f s).free = s.free := rfl
@[simp] theorem onThm_time (f : Thermal → Thermal) (s : State) : (onThm f s).time = s.time := rfl
@[simp] theorem onThm_tdd (f : Thermal → Thermal) (s : State) : (onThm f s).tdd = s.tdd := rfl
@[simp] theorem onThm_boot (f : Thermal → Thermal) (s : State) : (onThm f s).boot = s.boot := rfl
@[simp] theorem onThm_hif (f : Thermal → Thermal) (s : State) : (onThm f s).hif = s.hif := rfl
@[simp] theorem onThm_evr (f : Thermal → Thermal) (s : State) : (onThm f s).evr = s.evr := rfl
@[simp] theorem onThm_pmc (f : Thermal → Thermal) (s : State) : (onThm f s).pmc = s.pmc := rfl
@[simp] theorem onThm_flt (f : Thermal → Thermal) (s : State) : (onThm f s).flt = s.flt := rfl
@[simp] theorem onThm_cfg (f : Thermal → Thermal) (s : State) : (onThm f s).cfg = s.cfg := rfl
@[simp] theorem onThm_sec (f : Thermal → Thermal) (s : State) : (onThm f s).sec = s.sec := rfl
@[simp] theorem onThm_mon (f : Thermal → Thermal) (s : State) : (onThm f s).mon = s.mon := rfl
@[simp] theorem onThm_cen (f : Thermal → Thermal) (s : State) : (onThm f s).cen = s.cen := rfl
@[simp] theorem onThm_flash (f : Thermal → Thermal) (s : State) : (onThm f s).flash = s.flash := rfl
@[simp] theorem onThm_plc (f : Thermal → Thermal) (s : State) : (onThm f s).plc = s.plc := rfl
@[simp] theorem onThm_mem (f : Thermal → Thermal) (s : State) : (onThm f s).mem = s.mem := rfl
@[simp] theorem onThm_map (f : Thermal → Thermal) (s : State) : (onThm f s).map = s.map := rfl
@[simp] theorem onThm_thm (f : Thermal → Thermal) (s : State) : (onThm f s).thm = f s.thm := rfl
@[simp] theorem onThm_lnk (f : Thermal → Thermal) (s : State) : (onThm f s).lnk = s.lnk := rfl
@[simp] theorem onThm_tiles (f : Thermal → Thermal) (s : State) : (onThm f s).tiles = s.tiles := rfl
@[simp] theorem onThm_fec (f : Thermal → Thermal) (s : State) : (onThm f s).fec = s.fec := rfl
@[simp] theorem onThm_dfe (f : Thermal → Thermal) (s : State) : (onThm f s).dfe = s.dfe := rfl
@[simp] theorem onThm_slices (f : Thermal → Thermal) (s : State) : (onThm f s).slices = s.slices := rfl
@[simp] theorem onThm_can (f : Thermal → Thermal) (s : State) : (onThm f s).can = s.can := rfl
@[simp] theorem onThm_nps (f : Thermal → Thermal) (s : State) : (onThm f s).nps = s.nps := rfl
@[simp] theorem onThm_sig (f : Thermal → Thermal) (s : State) : (onThm f s).sig = s.sig := rfl

@[simp] theorem onLnk_pending (f : LinkBlock → LinkBlock) (s : State) : (onLnk f s).pending = s.pending := rfl
@[simp] theorem onLnk_held (f : LinkBlock → LinkBlock) (s : State) : (onLnk f s).held = s.held := rfl
@[simp] theorem onLnk_out (f : LinkBlock → LinkBlock) (s : State) : (onLnk f s).out = s.out := rfl
@[simp] theorem onLnk_free (f : LinkBlock → LinkBlock) (s : State) : (onLnk f s).free = s.free := rfl
@[simp] theorem onLnk_time (f : LinkBlock → LinkBlock) (s : State) : (onLnk f s).time = s.time := rfl
@[simp] theorem onLnk_tdd (f : LinkBlock → LinkBlock) (s : State) : (onLnk f s).tdd = s.tdd := rfl
@[simp] theorem onLnk_boot (f : LinkBlock → LinkBlock) (s : State) : (onLnk f s).boot = s.boot := rfl
@[simp] theorem onLnk_hif (f : LinkBlock → LinkBlock) (s : State) : (onLnk f s).hif = s.hif := rfl
@[simp] theorem onLnk_evr (f : LinkBlock → LinkBlock) (s : State) : (onLnk f s).evr = s.evr := rfl
@[simp] theorem onLnk_pmc (f : LinkBlock → LinkBlock) (s : State) : (onLnk f s).pmc = s.pmc := rfl
@[simp] theorem onLnk_flt (f : LinkBlock → LinkBlock) (s : State) : (onLnk f s).flt = s.flt := rfl
@[simp] theorem onLnk_cfg (f : LinkBlock → LinkBlock) (s : State) : (onLnk f s).cfg = s.cfg := rfl
@[simp] theorem onLnk_sec (f : LinkBlock → LinkBlock) (s : State) : (onLnk f s).sec = s.sec := rfl
@[simp] theorem onLnk_mon (f : LinkBlock → LinkBlock) (s : State) : (onLnk f s).mon = s.mon := rfl
@[simp] theorem onLnk_cen (f : LinkBlock → LinkBlock) (s : State) : (onLnk f s).cen = s.cen := rfl
@[simp] theorem onLnk_flash (f : LinkBlock → LinkBlock) (s : State) : (onLnk f s).flash = s.flash := rfl
@[simp] theorem onLnk_plc (f : LinkBlock → LinkBlock) (s : State) : (onLnk f s).plc = s.plc := rfl
@[simp] theorem onLnk_mem (f : LinkBlock → LinkBlock) (s : State) : (onLnk f s).mem = s.mem := rfl
@[simp] theorem onLnk_map (f : LinkBlock → LinkBlock) (s : State) : (onLnk f s).map = s.map := rfl
@[simp] theorem onLnk_thm (f : LinkBlock → LinkBlock) (s : State) : (onLnk f s).thm = s.thm := rfl
@[simp] theorem onLnk_lnk (f : LinkBlock → LinkBlock) (s : State) : (onLnk f s).lnk = f s.lnk := rfl
@[simp] theorem onLnk_tiles (f : LinkBlock → LinkBlock) (s : State) : (onLnk f s).tiles = s.tiles := rfl
@[simp] theorem onLnk_fec (f : LinkBlock → LinkBlock) (s : State) : (onLnk f s).fec = s.fec := rfl
@[simp] theorem onLnk_dfe (f : LinkBlock → LinkBlock) (s : State) : (onLnk f s).dfe = s.dfe := rfl
@[simp] theorem onLnk_slices (f : LinkBlock → LinkBlock) (s : State) : (onLnk f s).slices = s.slices := rfl
@[simp] theorem onLnk_can (f : LinkBlock → LinkBlock) (s : State) : (onLnk f s).can = s.can := rfl
@[simp] theorem onLnk_nps (f : LinkBlock → LinkBlock) (s : State) : (onLnk f s).nps = s.nps := rfl
@[simp] theorem onLnk_sig (f : LinkBlock → LinkBlock) (s : State) : (onLnk f s).sig = s.sig := rfl

@[simp] theorem onFlash_pending (f : Flash → Flash) (s : State) : (onFlash f s).pending = s.pending := rfl
@[simp] theorem onFlash_held (f : Flash → Flash) (s : State) : (onFlash f s).held = s.held := rfl
@[simp] theorem onFlash_out (f : Flash → Flash) (s : State) : (onFlash f s).out = s.out := rfl
@[simp] theorem onFlash_free (f : Flash → Flash) (s : State) : (onFlash f s).free = s.free := rfl
@[simp] theorem onFlash_time (f : Flash → Flash) (s : State) : (onFlash f s).time = s.time := rfl
@[simp] theorem onFlash_tdd (f : Flash → Flash) (s : State) : (onFlash f s).tdd = s.tdd := rfl
@[simp] theorem onFlash_boot (f : Flash → Flash) (s : State) : (onFlash f s).boot = s.boot := rfl
@[simp] theorem onFlash_hif (f : Flash → Flash) (s : State) : (onFlash f s).hif = s.hif := rfl
@[simp] theorem onFlash_evr (f : Flash → Flash) (s : State) : (onFlash f s).evr = s.evr := rfl
@[simp] theorem onFlash_pmc (f : Flash → Flash) (s : State) : (onFlash f s).pmc = s.pmc := rfl
@[simp] theorem onFlash_flt (f : Flash → Flash) (s : State) : (onFlash f s).flt = s.flt := rfl
@[simp] theorem onFlash_cfg (f : Flash → Flash) (s : State) : (onFlash f s).cfg = s.cfg := rfl
@[simp] theorem onFlash_sec (f : Flash → Flash) (s : State) : (onFlash f s).sec = s.sec := rfl
@[simp] theorem onFlash_mon (f : Flash → Flash) (s : State) : (onFlash f s).mon = s.mon := rfl
@[simp] theorem onFlash_cen (f : Flash → Flash) (s : State) : (onFlash f s).cen = s.cen := rfl
@[simp] theorem onFlash_flash (f : Flash → Flash) (s : State) : (onFlash f s).flash = f s.flash := rfl
@[simp] theorem onFlash_plc (f : Flash → Flash) (s : State) : (onFlash f s).plc = s.plc := rfl
@[simp] theorem onFlash_mem (f : Flash → Flash) (s : State) : (onFlash f s).mem = s.mem := rfl
@[simp] theorem onFlash_map (f : Flash → Flash) (s : State) : (onFlash f s).map = s.map := rfl
@[simp] theorem onFlash_thm (f : Flash → Flash) (s : State) : (onFlash f s).thm = s.thm := rfl
@[simp] theorem onFlash_lnk (f : Flash → Flash) (s : State) : (onFlash f s).lnk = s.lnk := rfl
@[simp] theorem onFlash_tiles (f : Flash → Flash) (s : State) : (onFlash f s).tiles = s.tiles := rfl
@[simp] theorem onFlash_fec (f : Flash → Flash) (s : State) : (onFlash f s).fec = s.fec := rfl
@[simp] theorem onFlash_dfe (f : Flash → Flash) (s : State) : (onFlash f s).dfe = s.dfe := rfl
@[simp] theorem onFlash_slices (f : Flash → Flash) (s : State) : (onFlash f s).slices = s.slices := rfl
@[simp] theorem onFlash_can (f : Flash → Flash) (s : State) : (onFlash f s).can = s.can := rfl
@[simp] theorem onFlash_nps (f : Flash → Flash) (s : State) : (onFlash f s).nps = s.nps := rfl
@[simp] theorem onFlash_sig (f : Flash → Flash) (s : State) : (onFlash f s).sig = s.sig := rfl

@[simp] theorem onMon_pending (f : Monitor → Monitor) (s : State) : (onMon f s).pending = s.pending := rfl
@[simp] theorem onMon_held (f : Monitor → Monitor) (s : State) : (onMon f s).held = s.held := rfl
@[simp] theorem onMon_out (f : Monitor → Monitor) (s : State) : (onMon f s).out = s.out := rfl
@[simp] theorem onMon_free (f : Monitor → Monitor) (s : State) : (onMon f s).free = s.free := rfl
@[simp] theorem onMon_time (f : Monitor → Monitor) (s : State) : (onMon f s).time = s.time := rfl
@[simp] theorem onMon_tdd (f : Monitor → Monitor) (s : State) : (onMon f s).tdd = s.tdd := rfl
@[simp] theorem onMon_boot (f : Monitor → Monitor) (s : State) : (onMon f s).boot = s.boot := rfl
@[simp] theorem onMon_hif (f : Monitor → Monitor) (s : State) : (onMon f s).hif = s.hif := rfl
@[simp] theorem onMon_evr (f : Monitor → Monitor) (s : State) : (onMon f s).evr = s.evr := rfl
@[simp] theorem onMon_pmc (f : Monitor → Monitor) (s : State) : (onMon f s).pmc = s.pmc := rfl
@[simp] theorem onMon_flt (f : Monitor → Monitor) (s : State) : (onMon f s).flt = s.flt := rfl
@[simp] theorem onMon_cfg (f : Monitor → Monitor) (s : State) : (onMon f s).cfg = s.cfg := rfl
@[simp] theorem onMon_sec (f : Monitor → Monitor) (s : State) : (onMon f s).sec = s.sec := rfl
@[simp] theorem onMon_mon (f : Monitor → Monitor) (s : State) : (onMon f s).mon = f s.mon := rfl
@[simp] theorem onMon_cen (f : Monitor → Monitor) (s : State) : (onMon f s).cen = s.cen := rfl
@[simp] theorem onMon_flash (f : Monitor → Monitor) (s : State) : (onMon f s).flash = s.flash := rfl
@[simp] theorem onMon_plc (f : Monitor → Monitor) (s : State) : (onMon f s).plc = s.plc := rfl
@[simp] theorem onMon_mem (f : Monitor → Monitor) (s : State) : (onMon f s).mem = s.mem := rfl
@[simp] theorem onMon_map (f : Monitor → Monitor) (s : State) : (onMon f s).map = s.map := rfl
@[simp] theorem onMon_thm (f : Monitor → Monitor) (s : State) : (onMon f s).thm = s.thm := rfl
@[simp] theorem onMon_lnk (f : Monitor → Monitor) (s : State) : (onMon f s).lnk = s.lnk := rfl
@[simp] theorem onMon_tiles (f : Monitor → Monitor) (s : State) : (onMon f s).tiles = s.tiles := rfl
@[simp] theorem onMon_fec (f : Monitor → Monitor) (s : State) : (onMon f s).fec = s.fec := rfl
@[simp] theorem onMon_dfe (f : Monitor → Monitor) (s : State) : (onMon f s).dfe = s.dfe := rfl
@[simp] theorem onMon_slices (f : Monitor → Monitor) (s : State) : (onMon f s).slices = s.slices := rfl
@[simp] theorem onMon_can (f : Monitor → Monitor) (s : State) : (onMon f s).can = s.can := rfl
@[simp] theorem onMon_nps (f : Monitor → Monitor) (s : State) : (onMon f s).nps = s.nps := rfl
@[simp] theorem onMon_sig (f : Monitor → Monitor) (s : State) : (onMon f s).sig = s.sig := rfl

@[simp] theorem onCen_pending (f : Control → Control) (s : State) : (onCen f s).pending = s.pending := rfl
@[simp] theorem onCen_held (f : Control → Control) (s : State) : (onCen f s).held = s.held := rfl
@[simp] theorem onCen_out (f : Control → Control) (s : State) : (onCen f s).out = s.out := rfl
@[simp] theorem onCen_free (f : Control → Control) (s : State) : (onCen f s).free = s.free := rfl
@[simp] theorem onCen_time (f : Control → Control) (s : State) : (onCen f s).time = s.time := rfl
@[simp] theorem onCen_tdd (f : Control → Control) (s : State) : (onCen f s).tdd = s.tdd := rfl
@[simp] theorem onCen_boot (f : Control → Control) (s : State) : (onCen f s).boot = s.boot := rfl
@[simp] theorem onCen_hif (f : Control → Control) (s : State) : (onCen f s).hif = s.hif := rfl
@[simp] theorem onCen_evr (f : Control → Control) (s : State) : (onCen f s).evr = s.evr := rfl
@[simp] theorem onCen_pmc (f : Control → Control) (s : State) : (onCen f s).pmc = s.pmc := rfl
@[simp] theorem onCen_flt (f : Control → Control) (s : State) : (onCen f s).flt = s.flt := rfl
@[simp] theorem onCen_cfg (f : Control → Control) (s : State) : (onCen f s).cfg = s.cfg := rfl
@[simp] theorem onCen_sec (f : Control → Control) (s : State) : (onCen f s).sec = s.sec := rfl
@[simp] theorem onCen_mon (f : Control → Control) (s : State) : (onCen f s).mon = s.mon := rfl
@[simp] theorem onCen_cen (f : Control → Control) (s : State) : (onCen f s).cen = f s.cen := rfl
@[simp] theorem onCen_flash (f : Control → Control) (s : State) : (onCen f s).flash = s.flash := rfl
@[simp] theorem onCen_plc (f : Control → Control) (s : State) : (onCen f s).plc = s.plc := rfl
@[simp] theorem onCen_mem (f : Control → Control) (s : State) : (onCen f s).mem = s.mem := rfl
@[simp] theorem onCen_map (f : Control → Control) (s : State) : (onCen f s).map = s.map := rfl
@[simp] theorem onCen_thm (f : Control → Control) (s : State) : (onCen f s).thm = s.thm := rfl
@[simp] theorem onCen_lnk (f : Control → Control) (s : State) : (onCen f s).lnk = s.lnk := rfl
@[simp] theorem onCen_tiles (f : Control → Control) (s : State) : (onCen f s).tiles = s.tiles := rfl
@[simp] theorem onCen_fec (f : Control → Control) (s : State) : (onCen f s).fec = s.fec := rfl
@[simp] theorem onCen_dfe (f : Control → Control) (s : State) : (onCen f s).dfe = s.dfe := rfl
@[simp] theorem onCen_slices (f : Control → Control) (s : State) : (onCen f s).slices = s.slices := rfl
@[simp] theorem onCen_can (f : Control → Control) (s : State) : (onCen f s).can = s.can := rfl
@[simp] theorem onCen_nps (f : Control → Control) (s : State) : (onCen f s).nps = s.nps := rfl
@[simp] theorem onCen_sig (f : Control → Control) (s : State) : (onCen f s).sig = s.sig := rfl

@[simp] theorem onSec_pending (f : Security → Security) (s : State) : (onSec f s).pending = s.pending := rfl
@[simp] theorem onSec_held (f : Security → Security) (s : State) : (onSec f s).held = s.held := rfl
@[simp] theorem onSec_out (f : Security → Security) (s : State) : (onSec f s).out = s.out := rfl
@[simp] theorem onSec_free (f : Security → Security) (s : State) : (onSec f s).free = s.free := rfl
@[simp] theorem onSec_time (f : Security → Security) (s : State) : (onSec f s).time = s.time := rfl
@[simp] theorem onSec_tdd (f : Security → Security) (s : State) : (onSec f s).tdd = s.tdd := rfl
@[simp] theorem onSec_boot (f : Security → Security) (s : State) : (onSec f s).boot = s.boot := rfl
@[simp] theorem onSec_hif (f : Security → Security) (s : State) : (onSec f s).hif = s.hif := rfl
@[simp] theorem onSec_evr (f : Security → Security) (s : State) : (onSec f s).evr = s.evr := rfl
@[simp] theorem onSec_pmc (f : Security → Security) (s : State) : (onSec f s).pmc = s.pmc := rfl
@[simp] theorem onSec_flt (f : Security → Security) (s : State) : (onSec f s).flt = s.flt := rfl
@[simp] theorem onSec_cfg (f : Security → Security) (s : State) : (onSec f s).cfg = s.cfg := rfl
@[simp] theorem onSec_sec (f : Security → Security) (s : State) : (onSec f s).sec = f s.sec := rfl
@[simp] theorem onSec_mon (f : Security → Security) (s : State) : (onSec f s).mon = s.mon := rfl
@[simp] theorem onSec_cen (f : Security → Security) (s : State) : (onSec f s).cen = s.cen := rfl
@[simp] theorem onSec_flash (f : Security → Security) (s : State) : (onSec f s).flash = s.flash := rfl
@[simp] theorem onSec_plc (f : Security → Security) (s : State) : (onSec f s).plc = s.plc := rfl
@[simp] theorem onSec_mem (f : Security → Security) (s : State) : (onSec f s).mem = s.mem := rfl
@[simp] theorem onSec_map (f : Security → Security) (s : State) : (onSec f s).map = s.map := rfl
@[simp] theorem onSec_thm (f : Security → Security) (s : State) : (onSec f s).thm = s.thm := rfl
@[simp] theorem onSec_lnk (f : Security → Security) (s : State) : (onSec f s).lnk = s.lnk := rfl
@[simp] theorem onSec_tiles (f : Security → Security) (s : State) : (onSec f s).tiles = s.tiles := rfl
@[simp] theorem onSec_fec (f : Security → Security) (s : State) : (onSec f s).fec = s.fec := rfl
@[simp] theorem onSec_dfe (f : Security → Security) (s : State) : (onSec f s).dfe = s.dfe := rfl
@[simp] theorem onSec_slices (f : Security → Security) (s : State) : (onSec f s).slices = s.slices := rfl
@[simp] theorem onSec_can (f : Security → Security) (s : State) : (onSec f s).can = s.can := rfl
@[simp] theorem onSec_nps (f : Security → Security) (s : State) : (onSec f s).nps = s.nps := rfl
@[simp] theorem onSec_sig (f : Security → Security) (s : State) : (onSec f s).sig = s.sig := rfl

@[simp] theorem emit_pending (o : Out) (s : State) : (emit o s).pending = s.pending := rfl
@[simp] theorem emit_held (o : Out) (s : State) : (emit o s).held = s.held := rfl
@[simp] theorem emit_out (o : Out) (s : State) : (emit o s).out = o :: s.out := rfl
@[simp] theorem emit_free (o : Out) (s : State) : (emit o s).free = s.free := rfl
@[simp] theorem emit_time (o : Out) (s : State) : (emit o s).time = s.time := rfl
@[simp] theorem emit_tdd (o : Out) (s : State) : (emit o s).tdd = s.tdd := rfl
@[simp] theorem emit_boot (o : Out) (s : State) : (emit o s).boot = s.boot := rfl
@[simp] theorem emit_hif (o : Out) (s : State) : (emit o s).hif = s.hif := rfl
@[simp] theorem emit_evr (o : Out) (s : State) : (emit o s).evr = s.evr := rfl
@[simp] theorem emit_pmc (o : Out) (s : State) : (emit o s).pmc = s.pmc := rfl
@[simp] theorem emit_flt (o : Out) (s : State) : (emit o s).flt = s.flt := rfl
@[simp] theorem emit_cfg (o : Out) (s : State) : (emit o s).cfg = s.cfg := rfl
@[simp] theorem emit_sec (o : Out) (s : State) : (emit o s).sec = s.sec := rfl
@[simp] theorem emit_mon (o : Out) (s : State) : (emit o s).mon = s.mon := rfl
@[simp] theorem emit_cen (o : Out) (s : State) : (emit o s).cen = s.cen := rfl
@[simp] theorem emit_flash (o : Out) (s : State) : (emit o s).flash = s.flash := rfl
@[simp] theorem emit_plc (o : Out) (s : State) : (emit o s).plc = s.plc := rfl
@[simp] theorem emit_mem (o : Out) (s : State) : (emit o s).mem = s.mem := rfl
@[simp] theorem emit_map (o : Out) (s : State) : (emit o s).map = s.map := rfl
@[simp] theorem emit_thm (o : Out) (s : State) : (emit o s).thm = s.thm := rfl
@[simp] theorem emit_lnk (o : Out) (s : State) : (emit o s).lnk = s.lnk := rfl
@[simp] theorem emit_tiles (o : Out) (s : State) : (emit o s).tiles = s.tiles := rfl
@[simp] theorem emit_fec (o : Out) (s : State) : (emit o s).fec = s.fec := rfl
@[simp] theorem emit_dfe (o : Out) (s : State) : (emit o s).dfe = s.dfe := rfl
@[simp] theorem emit_slices (o : Out) (s : State) : (emit o s).slices = s.slices := rfl
@[simp] theorem emit_can (o : Out) (s : State) : (emit o s).can = s.can := rfl
@[simp] theorem emit_nps (o : Out) (s : State) : (emit o s).nps = s.nps := rfl
@[simp] theorem emit_sig (o : Out) (s : State) : (emit o s).sig = s.sig := rfl

@[simp] theorem takeFree_pending (s : State) : (takeFree s).pending = s.pending := rfl
@[simp] theorem takeFree_held (s : State) : (takeFree s).held = s.held := rfl
@[simp] theorem takeFree_out (s : State) : (takeFree s).out = s.out := rfl
@[simp] theorem takeFree_free (s : State) : (takeFree s).free = s.free + 1 := rfl
@[simp] theorem takeFree_time (s : State) : (takeFree s).time = s.time := rfl
@[simp] theorem takeFree_tdd (s : State) : (takeFree s).tdd = s.tdd := rfl
@[simp] theorem takeFree_boot (s : State) : (takeFree s).boot = s.boot := rfl
@[simp] theorem takeFree_hif (s : State) : (takeFree s).hif = s.hif := rfl
@[simp] theorem takeFree_evr (s : State) : (takeFree s).evr = s.evr := rfl
@[simp] theorem takeFree_pmc (s : State) : (takeFree s).pmc = s.pmc := rfl
@[simp] theorem takeFree_flt (s : State) : (takeFree s).flt = s.flt := rfl
@[simp] theorem takeFree_cfg (s : State) : (takeFree s).cfg = s.cfg := rfl
@[simp] theorem takeFree_sec (s : State) : (takeFree s).sec = s.sec := rfl
@[simp] theorem takeFree_mon (s : State) : (takeFree s).mon = s.mon := rfl
@[simp] theorem takeFree_cen (s : State) : (takeFree s).cen = s.cen := rfl
@[simp] theorem takeFree_flash (s : State) : (takeFree s).flash = s.flash := rfl
@[simp] theorem takeFree_plc (s : State) : (takeFree s).plc = s.plc := rfl
@[simp] theorem takeFree_mem (s : State) : (takeFree s).mem = s.mem := rfl
@[simp] theorem takeFree_map (s : State) : (takeFree s).map = s.map := rfl
@[simp] theorem takeFree_thm (s : State) : (takeFree s).thm = s.thm := rfl
@[simp] theorem takeFree_lnk (s : State) : (takeFree s).lnk = s.lnk := rfl
@[simp] theorem takeFree_tiles (s : State) : (takeFree s).tiles = s.tiles := rfl
@[simp] theorem takeFree_fec (s : State) : (takeFree s).fec = s.fec := rfl
@[simp] theorem takeFree_dfe (s : State) : (takeFree s).dfe = s.dfe := rfl
@[simp] theorem takeFree_slices (s : State) : (takeFree s).slices = s.slices := rfl
@[simp] theorem takeFree_can (s : State) : (takeFree s).can = s.can := rfl
@[simp] theorem takeFree_nps (s : State) : (takeFree s).nps = s.nps := rfl
@[simp] theorem takeFree_sig (s : State) : (takeFree s).sig = s.sig := rfl

@[simp] theorem pulse_pending (e u n : Nat) (s : State) : (pulse e u n s).pending = s.pending := rfl
@[simp] theorem pulse_held (e u n : Nat) (s : State) : (pulse e u n s).held = s.held := rfl
@[simp] theorem pulse_out (e u n : Nat) (s : State) : (pulse e u n s).out = s.out := rfl
@[simp] theorem pulse_free (e u n : Nat) (s : State) : (pulse e u n s).free = s.free := rfl
@[simp] theorem pulse_time (e u n : Nat) (s : State) : (pulse e u n s).time = s.time := rfl
@[simp] theorem pulse_tdd (e u n : Nat) (s : State) : (pulse e u n s).tdd = s.tdd := rfl
@[simp] theorem pulse_boot (e u n : Nat) (s : State) : (pulse e u n s).boot = s.boot := rfl
@[simp] theorem pulse_hif (e u n : Nat) (s : State) : (pulse e u n s).hif = s.hif := rfl
@[simp] theorem pulse_evr (e u n : Nat) (s : State) : (pulse e u n s).evr = s.evr := rfl
@[simp] theorem pulse_flt (e u n : Nat) (s : State) : (pulse e u n s).flt = s.flt := rfl
@[simp] theorem pulse_cfg (e u n : Nat) (s : State) : (pulse e u n s).cfg = s.cfg := rfl
@[simp] theorem pulse_sec (e u n : Nat) (s : State) : (pulse e u n s).sec = s.sec := rfl
@[simp] theorem pulse_mon (e u n : Nat) (s : State) : (pulse e u n s).mon = s.mon := rfl
@[simp] theorem pulse_cen (e u n : Nat) (s : State) : (pulse e u n s).cen = s.cen := rfl
@[simp] theorem pulse_flash (e u n : Nat) (s : State) : (pulse e u n s).flash = s.flash := rfl
@[simp] theorem pulse_plc (e u n : Nat) (s : State) : (pulse e u n s).plc = s.plc := rfl
@[simp] theorem pulse_mem (e u n : Nat) (s : State) : (pulse e u n s).mem = s.mem := rfl
@[simp] theorem pulse_map (e u n : Nat) (s : State) : (pulse e u n s).map = s.map := rfl
@[simp] theorem pulse_thm (e u n : Nat) (s : State) : (pulse e u n s).thm = s.thm := rfl
@[simp] theorem pulse_lnk (e u n : Nat) (s : State) : (pulse e u n s).lnk = s.lnk := rfl
@[simp] theorem pulse_tiles (e u n : Nat) (s : State) : (pulse e u n s).tiles = s.tiles := rfl
@[simp] theorem pulse_fec (e u n : Nat) (s : State) : (pulse e u n s).fec = s.fec := rfl
@[simp] theorem pulse_dfe (e u n : Nat) (s : State) : (pulse e u n s).dfe = s.dfe := rfl
@[simp] theorem pulse_slices (e u n : Nat) (s : State) : (pulse e u n s).slices = s.slices := rfl
@[simp] theorem pulse_can (e u n : Nat) (s : State) : (pulse e u n s).can = s.can := rfl
@[simp] theorem pulse_nps (e u n : Nat) (s : State) : (pulse e u n s).nps = s.nps := rfl
@[simp] theorem pulse_sig (e u n : Nat) (s : State) : (pulse e u n s).sig = s.sig := rfl

@[simp] theorem raiseBy_pending (b : Bool) (src : Fin 320) (u d : Nat) (s : State) : (raiseBy b src u d s).pending = s.pending := rfl
@[simp] theorem raiseBy_held (b : Bool) (src : Fin 320) (u d : Nat) (s : State) : (raiseBy b src u d s).held = s.held := rfl
@[simp] theorem raiseBy_out (b : Bool) (src : Fin 320) (u d : Nat) (s : State) : (raiseBy b src u d s).out = s.out := rfl
@[simp] theorem raiseBy_free (b : Bool) (src : Fin 320) (u d : Nat) (s : State) : (raiseBy b src u d s).free = s.free := rfl
@[simp] theorem raiseBy_time (b : Bool) (src : Fin 320) (u d : Nat) (s : State) : (raiseBy b src u d s).time = s.time := rfl
@[simp] theorem raiseBy_tdd (b : Bool) (src : Fin 320) (u d : Nat) (s : State) : (raiseBy b src u d s).tdd = s.tdd := rfl
@[simp] theorem raiseBy_boot (b : Bool) (src : Fin 320) (u d : Nat) (s : State) : (raiseBy b src u d s).boot = s.boot := rfl
@[simp] theorem raiseBy_hif (b : Bool) (src : Fin 320) (u d : Nat) (s : State) : (raiseBy b src u d s).hif = s.hif := rfl
@[simp] theorem raiseBy_evr (b : Bool) (src : Fin 320) (u d : Nat) (s : State) : (raiseBy b src u d s).evr = s.evr := rfl
@[simp] theorem raiseBy_pmc (b : Bool) (src : Fin 320) (u d : Nat) (s : State) : (raiseBy b src u d s).pmc = s.pmc := rfl
@[simp] theorem raiseBy_cfg (b : Bool) (src : Fin 320) (u d : Nat) (s : State) : (raiseBy b src u d s).cfg = s.cfg := rfl
@[simp] theorem raiseBy_sec (b : Bool) (src : Fin 320) (u d : Nat) (s : State) : (raiseBy b src u d s).sec = s.sec := rfl
@[simp] theorem raiseBy_mon (b : Bool) (src : Fin 320) (u d : Nat) (s : State) : (raiseBy b src u d s).mon = s.mon := rfl
@[simp] theorem raiseBy_cen (b : Bool) (src : Fin 320) (u d : Nat) (s : State) : (raiseBy b src u d s).cen = s.cen := rfl
@[simp] theorem raiseBy_flash (b : Bool) (src : Fin 320) (u d : Nat) (s : State) : (raiseBy b src u d s).flash = s.flash := rfl
@[simp] theorem raiseBy_plc (b : Bool) (src : Fin 320) (u d : Nat) (s : State) : (raiseBy b src u d s).plc = s.plc := rfl
@[simp] theorem raiseBy_mem (b : Bool) (src : Fin 320) (u d : Nat) (s : State) : (raiseBy b src u d s).mem = s.mem := rfl
@[simp] theorem raiseBy_map (b : Bool) (src : Fin 320) (u d : Nat) (s : State) : (raiseBy b src u d s).map = s.map := rfl
@[simp] theorem raiseBy_thm (b : Bool) (src : Fin 320) (u d : Nat) (s : State) : (raiseBy b src u d s).thm = s.thm := rfl
@[simp] theorem raiseBy_lnk (b : Bool) (src : Fin 320) (u d : Nat) (s : State) : (raiseBy b src u d s).lnk = s.lnk := rfl
@[simp] theorem raiseBy_tiles (b : Bool) (src : Fin 320) (u d : Nat) (s : State) : (raiseBy b src u d s).tiles = s.tiles := rfl
@[simp] theorem raiseBy_fec (b : Bool) (src : Fin 320) (u d : Nat) (s : State) : (raiseBy b src u d s).fec = s.fec := rfl
@[simp] theorem raiseBy_dfe (b : Bool) (src : Fin 320) (u d : Nat) (s : State) : (raiseBy b src u d s).dfe = s.dfe := rfl
@[simp] theorem raiseBy_slices (b : Bool) (src : Fin 320) (u d : Nat) (s : State) : (raiseBy b src u d s).slices = s.slices := rfl
@[simp] theorem raiseBy_can (b : Bool) (src : Fin 320) (u d : Nat) (s : State) : (raiseBy b src u d s).can = s.can := rfl
@[simp] theorem raiseBy_nps (b : Bool) (src : Fin 320) (u d : Nat) (s : State) : (raiseBy b src u d s).nps = s.nps := rfl
@[simp] theorem raiseBy_sig (b : Bool) (src : Fin 320) (u d : Nat) (s : State) : (raiseBy b src u d s).sig = s.sig := rfl

@[simp] theorem raise_pending (src : Fin 320) (u d : Nat) (s : State) : (raise src u d s).pending = s.pending := rfl
@[simp] theorem raise_held (src : Fin 320) (u d : Nat) (s : State) : (raise src u d s).held = s.held := rfl
@[simp] theorem raise_out (src : Fin 320) (u d : Nat) (s : State) : (raise src u d s).out = s.out := rfl
@[simp] theorem raise_free (src : Fin 320) (u d : Nat) (s : State) : (raise src u d s).free = s.free := rfl
@[simp] theorem raise_time (src : Fin 320) (u d : Nat) (s : State) : (raise src u d s).time = s.time := rfl
@[simp] theorem raise_tdd (src : Fin 320) (u d : Nat) (s : State) : (raise src u d s).tdd = s.tdd := rfl
@[simp] theorem raise_boot (src : Fin 320) (u d : Nat) (s : State) : (raise src u d s).boot = s.boot := rfl
@[simp] theorem raise_hif (src : Fin 320) (u d : Nat) (s : State) : (raise src u d s).hif = s.hif := rfl
@[simp] theorem raise_evr (src : Fin 320) (u d : Nat) (s : State) : (raise src u d s).evr = s.evr := rfl
@[simp] theorem raise_pmc (src : Fin 320) (u d : Nat) (s : State) : (raise src u d s).pmc = s.pmc := rfl
@[simp] theorem raise_cfg (src : Fin 320) (u d : Nat) (s : State) : (raise src u d s).cfg = s.cfg := rfl
@[simp] theorem raise_sec (src : Fin 320) (u d : Nat) (s : State) : (raise src u d s).sec = s.sec := rfl
@[simp] theorem raise_mon (src : Fin 320) (u d : Nat) (s : State) : (raise src u d s).mon = s.mon := rfl
@[simp] theorem raise_cen (src : Fin 320) (u d : Nat) (s : State) : (raise src u d s).cen = s.cen := rfl
@[simp] theorem raise_flash (src : Fin 320) (u d : Nat) (s : State) : (raise src u d s).flash = s.flash := rfl
@[simp] theorem raise_plc (src : Fin 320) (u d : Nat) (s : State) : (raise src u d s).plc = s.plc := rfl
@[simp] theorem raise_mem (src : Fin 320) (u d : Nat) (s : State) : (raise src u d s).mem = s.mem := rfl
@[simp] theorem raise_map (src : Fin 320) (u d : Nat) (s : State) : (raise src u d s).map = s.map := rfl
@[simp] theorem raise_thm (src : Fin 320) (u d : Nat) (s : State) : (raise src u d s).thm = s.thm := rfl
@[simp] theorem raise_lnk (src : Fin 320) (u d : Nat) (s : State) : (raise src u d s).lnk = s.lnk := rfl
@[simp] theorem raise_tiles (src : Fin 320) (u d : Nat) (s : State) : (raise src u d s).tiles = s.tiles := rfl
@[simp] theorem raise_fec (src : Fin 320) (u d : Nat) (s : State) : (raise src u d s).fec = s.fec := rfl
@[simp] theorem raise_dfe (src : Fin 320) (u d : Nat) (s : State) : (raise src u d s).dfe = s.dfe := rfl
@[simp] theorem raise_slices (src : Fin 320) (u d : Nat) (s : State) : (raise src u d s).slices = s.slices := rfl
@[simp] theorem raise_can (src : Fin 320) (u d : Nat) (s : State) : (raise src u d s).can = s.can := rfl
@[simp] theorem raise_nps (src : Fin 320) (u d : Nat) (s : State) : (raise src u d s).nps = s.nps := rfl
@[simp] theorem raise_sig (src : Fin 320) (u d : Nat) (s : State) : (raise src u d s).sig = s.sig := rfl

@[simp] theorem setCond_pending (src : Fin 320) (b : Bool) (u d : Nat) (s : State) : (setCond src b u d s).pending = s.pending := rfl
@[simp] theorem setCond_held (src : Fin 320) (b : Bool) (u d : Nat) (s : State) : (setCond src b u d s).held = s.held := rfl
@[simp] theorem setCond_out (src : Fin 320) (b : Bool) (u d : Nat) (s : State) : (setCond src b u d s).out = s.out := rfl
@[simp] theorem setCond_free (src : Fin 320) (b : Bool) (u d : Nat) (s : State) : (setCond src b u d s).free = s.free := rfl
@[simp] theorem setCond_time (src : Fin 320) (b : Bool) (u d : Nat) (s : State) : (setCond src b u d s).time = s.time := rfl
@[simp] theorem setCond_tdd (src : Fin 320) (b : Bool) (u d : Nat) (s : State) : (setCond src b u d s).tdd = s.tdd := rfl
@[simp] theorem setCond_boot (src : Fin 320) (b : Bool) (u d : Nat) (s : State) : (setCond src b u d s).boot = s.boot := rfl
@[simp] theorem setCond_hif (src : Fin 320) (b : Bool) (u d : Nat) (s : State) : (setCond src b u d s).hif = s.hif := rfl
@[simp] theorem setCond_evr (src : Fin 320) (b : Bool) (u d : Nat) (s : State) : (setCond src b u d s).evr = s.evr := rfl
@[simp] theorem setCond_pmc (src : Fin 320) (b : Bool) (u d : Nat) (s : State) : (setCond src b u d s).pmc = s.pmc := rfl
@[simp] theorem setCond_cfg (src : Fin 320) (b : Bool) (u d : Nat) (s : State) : (setCond src b u d s).cfg = s.cfg := rfl
@[simp] theorem setCond_sec (src : Fin 320) (b : Bool) (u d : Nat) (s : State) : (setCond src b u d s).sec = s.sec := rfl
@[simp] theorem setCond_mon (src : Fin 320) (b : Bool) (u d : Nat) (s : State) : (setCond src b u d s).mon = s.mon := rfl
@[simp] theorem setCond_cen (src : Fin 320) (b : Bool) (u d : Nat) (s : State) : (setCond src b u d s).cen = s.cen := rfl
@[simp] theorem setCond_flash (src : Fin 320) (b : Bool) (u d : Nat) (s : State) : (setCond src b u d s).flash = s.flash := rfl
@[simp] theorem setCond_plc (src : Fin 320) (b : Bool) (u d : Nat) (s : State) : (setCond src b u d s).plc = s.plc := rfl
@[simp] theorem setCond_mem (src : Fin 320) (b : Bool) (u d : Nat) (s : State) : (setCond src b u d s).mem = s.mem := rfl
@[simp] theorem setCond_map (src : Fin 320) (b : Bool) (u d : Nat) (s : State) : (setCond src b u d s).map = s.map := rfl
@[simp] theorem setCond_thm (src : Fin 320) (b : Bool) (u d : Nat) (s : State) : (setCond src b u d s).thm = s.thm := rfl
@[simp] theorem setCond_lnk (src : Fin 320) (b : Bool) (u d : Nat) (s : State) : (setCond src b u d s).lnk = s.lnk := rfl
@[simp] theorem setCond_tiles (src : Fin 320) (b : Bool) (u d : Nat) (s : State) : (setCond src b u d s).tiles = s.tiles := rfl
@[simp] theorem setCond_fec (src : Fin 320) (b : Bool) (u d : Nat) (s : State) : (setCond src b u d s).fec = s.fec := rfl
@[simp] theorem setCond_dfe (src : Fin 320) (b : Bool) (u d : Nat) (s : State) : (setCond src b u d s).dfe = s.dfe := rfl
@[simp] theorem setCond_slices (src : Fin 320) (b : Bool) (u d : Nat) (s : State) : (setCond src b u d s).slices = s.slices := rfl
@[simp] theorem setCond_can (src : Fin 320) (b : Bool) (u d : Nat) (s : State) : (setCond src b u d s).can = s.can := rfl
@[simp] theorem setCond_nps (src : Fin 320) (b : Bool) (u d : Nat) (s : State) : (setCond src b u d s).nps = s.nps := rfl
@[simp] theorem setCond_sig (src : Fin 320) (b : Bool) (u d : Nat) (s : State) : (setCond src b u d s).sig = s.sig := rfl

@[simp] theorem onRing_pending (r : RingId) (f : Ring → Ring) (s : State) : (onRing r f s).pending = s.pending := rfl
@[simp] theorem onRing_held (r : RingId) (f : Ring → Ring) (s : State) : (onRing r f s).held = s.held := rfl
@[simp] theorem onRing_out (r : RingId) (f : Ring → Ring) (s : State) : (onRing r f s).out = s.out := rfl
@[simp] theorem onRing_free (r : RingId) (f : Ring → Ring) (s : State) : (onRing r f s).free = s.free := rfl
@[simp] theorem onRing_time (r : RingId) (f : Ring → Ring) (s : State) : (onRing r f s).time = s.time := rfl
@[simp] theorem onRing_tdd (r : RingId) (f : Ring → Ring) (s : State) : (onRing r f s).tdd = s.tdd := rfl
@[simp] theorem onRing_boot (r : RingId) (f : Ring → Ring) (s : State) : (onRing r f s).boot = s.boot := rfl
@[simp] theorem onRing_evr (r : RingId) (f : Ring → Ring) (s : State) : (onRing r f s).evr = s.evr := rfl
@[simp] theorem onRing_pmc (r : RingId) (f : Ring → Ring) (s : State) : (onRing r f s).pmc = s.pmc := rfl
@[simp] theorem onRing_flt (r : RingId) (f : Ring → Ring) (s : State) : (onRing r f s).flt = s.flt := rfl
@[simp] theorem onRing_cfg (r : RingId) (f : Ring → Ring) (s : State) : (onRing r f s).cfg = s.cfg := rfl
@[simp] theorem onRing_sec (r : RingId) (f : Ring → Ring) (s : State) : (onRing r f s).sec = s.sec := rfl
@[simp] theorem onRing_mon (r : RingId) (f : Ring → Ring) (s : State) : (onRing r f s).mon = s.mon := rfl
@[simp] theorem onRing_cen (r : RingId) (f : Ring → Ring) (s : State) : (onRing r f s).cen = s.cen := rfl
@[simp] theorem onRing_flash (r : RingId) (f : Ring → Ring) (s : State) : (onRing r f s).flash = s.flash := rfl
@[simp] theorem onRing_plc (r : RingId) (f : Ring → Ring) (s : State) : (onRing r f s).plc = s.plc := rfl
@[simp] theorem onRing_mem (r : RingId) (f : Ring → Ring) (s : State) : (onRing r f s).mem = s.mem := rfl
@[simp] theorem onRing_map (r : RingId) (f : Ring → Ring) (s : State) : (onRing r f s).map = s.map := rfl
@[simp] theorem onRing_thm (r : RingId) (f : Ring → Ring) (s : State) : (onRing r f s).thm = s.thm := rfl
@[simp] theorem onRing_lnk (r : RingId) (f : Ring → Ring) (s : State) : (onRing r f s).lnk = s.lnk := rfl
@[simp] theorem onRing_tiles (r : RingId) (f : Ring → Ring) (s : State) : (onRing r f s).tiles = s.tiles := rfl
@[simp] theorem onRing_fec (r : RingId) (f : Ring → Ring) (s : State) : (onRing r f s).fec = s.fec := rfl
@[simp] theorem onRing_dfe (r : RingId) (f : Ring → Ring) (s : State) : (onRing r f s).dfe = s.dfe := rfl
@[simp] theorem onRing_slices (r : RingId) (f : Ring → Ring) (s : State) : (onRing r f s).slices = s.slices := rfl
@[simp] theorem onRing_can (r : RingId) (f : Ring → Ring) (s : State) : (onRing r f s).can = s.can := rfl
@[simp] theorem onRing_nps (r : RingId) (f : Ring → Ring) (s : State) : (onRing r f s).nps = s.nps := rfl
@[simp] theorem onRing_sig (r : RingId) (f : Ring → Ring) (s : State) : (onRing r f s).sig = s.sig := rfl

end Sys2Proof.Machine
end

