-- ==== Sys2Proof/Laws/Elapse.lean ====
section
/-! SUPPORT. What the passing of time may change: the two clocks and, while a converter runs, the samples in flight, the digital front end, the peaks of
the RX ports, the monitor block and the counters. -/
namespace Sys2Proof.Machine
open Sys2Proof

/-- The parts of the state that samples touch. -/
def Sampled (s t : State) : Prop :=
  t = { s with pmc := t.pmc, dfe := t.dfe, sig := t.sig, mon := t.mon, tiles := { s.tiles with rx := t.tiles.rx } }

/-- New values of those parts. -/
theorem sampled_mk (s : State) (k : Counters) (d : Dfe) (g : Signals) (m : Monitor) (r : Vector RxPort 32) :
    Sampled s { s with pmc := k, dfe := d, sig := g, mon := m, tiles := { s.tiles with rx := r } } := rfl

theorem Sampled.refl (s : State) : Sampled s s := sampled_mk s s.pmc s.dfe s.sig s.mon s.tiles.rx

theorem Sampled.trans {s t u : State} (h : Sampled s t) (k : Sampled t u) : Sampled s u := by
  unfold Sampled at *
  rw [k, h]

theorem Sampled.time {s t : State} (h : Sampled s t) : t.time = s.time := by rw [h]

/-- A fold of steps that samples alone touch. -/
theorem sampled_foldl {α : Type} (l : List α) (f : State → α → State) (h : ∀ s a, Sampled s (f s a)) (s : State) : Sampled s (l.foldl f s) := by
  induction l generalizing s with
  | nil => exact Sampled.refl _
  | cons a l ih => exact (h s a).trans (ih _)

theorem onConv_sampled (c : Fin 8) (f : Converter → Converter) (s : State) : Sampled s (onConv c f s) := rfl

theorem publishResult_sampled (b : Bool) (n : Fin 128) (v : Int) (s : State) : Sampled s (publishResult b n v s) := rfl

theorem conversions_sampled (c : Fin 8) (n : Nat) (s : State) : Sampled s (conversions c n s) := rfl

theorem feedStream_sampled (c : Fin 8) (raw : Nat) (s : State) : Sampled s (feedStream c raw s) := by
  unfold feedStream
  dsimp only
  split
  · exact onConv_sampled ..
  · exact (onConv_sampled ..).trans (publishResult_sampled ..)

theorem converterSlot_sampled (s : State) (c : Fin 8) : Sampled s (converterSlot s c) := by
  unfold converterSlot
  dsimp only
  split
  · exact Sampled.refl _
  · split
    · exact onConv_sampled ..
    · exact (feedStream_sampled ..).trans (conversions_sampled ..)

theorem monitorSlots_sampled (s : State) : Sampled s (monitorSlots s) := sampled_foldl _ _ converterSlot_sampled s

theorem strobe_sampled (s : State) : Sampled s (strobe s) := by
  unfold strobe
  exact sampled_mk s s.pmc _ _ s.mon s.tiles.rx

theorem rxQuarters_sampled (s : State) : Sampled s (rxQuarters s) := by
  unfold rxQuarters
  exact sampled_mk s s.pmc _ _ s.mon _

theorem chainQuarters_sampled (s : State) : Sampled s (chainQuarters s) := by
  unfold chainQuarters
  exact sampled_mk s s.pmc s.dfe _ s.mon s.tiles.rx

theorem countSaturations_sampled (v : Vector Nat 32) (s : State) : Sampled s (countSaturations v s) := by
  refine sampled_foldl _ _ (fun s m => ?_) s
  split
  · exact Sampled.refl _
  · rfl

theorem txQuarters_sampled (s : State) : Sampled s (txQuarters s) := by
  unfold txQuarters
  exact Sampled.trans (sampled_mk s s.pmc _ _ s.mon s.tiles.rx) (countSaturations_sampled _ _)

theorem strobeDue_sampled (s : State) : Sampled s (strobeDue s) := by
  unfold strobeDue
  split
  · exact strobe_sampled s
  · exact Sampled.refl s

theorem slotsDue_sampled (s : State) : Sampled s (slotsDue s) := by
  unfold slotsDue
  split
  · exact monitorSlots_sampled s
  · exact Sampled.refl s

/-- The samples of a quarter-nanosecond touch what `Sampled` names. -/
theorem sampleQuarter_sampled (s : State) : Sampled s (sampleQuarter s) := by
  have a := (strobeDue_sampled s).trans (slotsDue_sampled (strobeDue s))
  have b := ((rxQuarters_sampled (slotsDue (strobeDue s))).trans (chainQuarters_sampled _)).trans (txQuarters_sampled _)
  unfold sampleQuarter
  exact a.trans b

/-- The two clocks moved on. -/
def later (n : Nat) (t : StationTime) : StationTime := { t with q := t.q + n, mono := t.mono + n }

/-- Some time has passed: the clocks have moved, and samples have touched what `Sampled` names. -/
def Passed (n : Nat) (s t : State) : Prop := Sampled { s with time := later n s.time } t

theorem passQuarter_passed (s : State) : Passed 1 s (passQuarter s) := by
  have h := sampleQuarter_sampled s
  unfold passQuarter Passed
  dsimp only
  generalize sampleQuarter s = t at *
  rw [h]
  exact sampled_mk ..

theorem passQuarters_passed (n : Nat) (s : State) : Passed n s (passQuarters n s) := by
  induction n generalizing s with
  | zero => rfl
  | succ n ih =>
    have a := passQuarter_passed s
    have b := ih (passQuarter s)
    have c : later n (passQuarter s).time = later (n + 1) s.time := by
      rw [Sampled.time a]; simp only [later]; congr 1 <;> omega
    unfold Passed at *
    rw [c] at b
    refine Sampled.trans ?_ b
    rw [a]
    exact sampled_mk ..

/-- Everything that the passing of time may do. -/
theorem elapse_passed (n : Nat) (s : State) : Passed n s (elapse n s) := by
  unfold elapse
  split
  · rfl
  · exact passQuarters_passed n s

/-- While no converter runs, the two clocks move and nothing else changes. -/
theorem elapse_quiet (n : Nat) (s : State) (h : converterless s = true) : elapse n s = { s with time := later n s.time } := by
  simp [elapse, h, later]

@[simp] theorem elapse_time (n : Nat) (s : State) : (elapse n s).time = later n s.time := by rw [elapse_passed n s]
@[simp] theorem elapse_pending (n : Nat) (s : State) : (elapse n s).pending = s.pending := by rw [elapse_passed n s]
@[simp] theorem elapse_held (n : Nat) (s : State) : (elapse n s).held = s.held := by rw [elapse_passed n s]
@[simp] theorem elapse_out (n : Nat) (s : State) : (elapse n s).out = s.out := by rw [elapse_passed n s]
@[simp] theorem elapse_free (n : Nat) (s : State) : (elapse n s).free = s.free := by rw [elapse_passed n s]
@[simp] theorem elapse_tdd (n : Nat) (s : State) : (elapse n s).tdd = s.tdd := by rw [elapse_passed n s]
@[simp] theorem elapse_boot (n : Nat) (s : State) : (elapse n s).boot = s.boot := by rw [elapse_passed n s]
@[simp] theorem elapse_hif (n : Nat) (s : State) : (elapse n s).hif = s.hif := by rw [elapse_passed n s]
@[simp] theorem elapse_evr (n : Nat) (s : State) : (elapse n s).evr = s.evr := by rw [elapse_passed n s]
@[simp] theorem elapse_flt (n : Nat) (s : State) : (elapse n s).flt = s.flt := by rw [elapse_passed n s]
@[simp] theorem elapse_cfg (n : Nat) (s : State) : (elapse n s).cfg = s.cfg := by rw [elapse_passed n s]
@[simp] theorem elapse_sec (n : Nat) (s : State) : (elapse n s).sec = s.sec := by rw [elapse_passed n s]
@[simp] theorem elapse_cen (n : Nat) (s : State) : (elapse n s).cen = s.cen := by rw [elapse_passed n s]
@[simp] theorem elapse_flash (n : Nat) (s : State) : (elapse n s).flash = s.flash := by rw [elapse_passed n s]
@[simp] theorem elapse_plc (n : Nat) (s : State) : (elapse n s).plc = s.plc := by rw [elapse_passed n s]
@[simp] theorem elapse_mem (n : Nat) (s : State) : (elapse n s).mem = s.mem := by rw [elapse_passed n s]
@[simp] theorem elapse_map (n : Nat) (s : State) : (elapse n s).map = s.map := by rw [elapse_passed n s]
@[simp] theorem elapse_thm (n : Nat) (s : State) : (elapse n s).thm = s.thm := by rw [elapse_passed n s]
@[simp] theorem elapse_lnk (n : Nat) (s : State) : (elapse n s).lnk = s.lnk := by rw [elapse_passed n s]
@[simp] theorem elapse_fec (n : Nat) (s : State) : (elapse n s).fec = s.fec := by rw [elapse_passed n s]
@[simp] theorem elapse_slices (n : Nat) (s : State) : (elapse n s).slices = s.slices := by rw [elapse_passed n s]
@[simp] theorem elapse_can (n : Nat) (s : State) : (elapse n s).can = s.can := by rw [elapse_passed n s]
@[simp] theorem elapse_nps (n : Nat) (s : State) : (elapse n s).nps = s.nps := by rw [elapse_passed n s]
@[simp] theorem elapse_tiles_tile (n : Nat) (s : State) : (elapse n s).tiles.tile = s.tiles.tile := by rw [elapse_passed n s]
@[simp] theorem elapse_tiles_tx (n : Nat) (s : State) : (elapse n s).tiles.tx = s.tiles.tx := by rw [elapse_passed n s]

@[simp] theorem advanceTo_pending (n : Nat) (s : State) : (advanceTo n s).pending = s.pending := elapse_pending ..
@[simp] theorem advanceTo_held (n : Nat) (s : State) : (advanceTo n s).held = s.held := elapse_held ..
@[simp] theorem advanceTo_out (n : Nat) (s : State) : (advanceTo n s).out = s.out := elapse_out ..
@[simp] theorem advanceTo_free (n : Nat) (s : State) : (advanceTo n s).free = s.free := elapse_free ..
@[simp] theorem advanceTo_tdd (n : Nat) (s : State) : (advanceTo n s).tdd = s.tdd := elapse_tdd ..
@[simp] theorem advanceTo_boot (n : Nat) (s : State) : (advanceTo n s).boot = s.boot := elapse_boot ..
@[simp] theorem advanceTo_hif (n : Nat) (s : State) : (advanceTo n s).hif = s.hif := elapse_hif ..
@[simp] theorem advanceTo_evr (n : Nat) (s : State) : (advanceTo n s).evr = s.evr := elapse_evr ..
@[simp] theorem advanceTo_flt (n : Nat) (s : State) : (advanceTo n s).flt = s.flt := elapse_flt ..
@[simp] theorem advanceTo_cfg (n : Nat) (s : State) : (advanceTo n s).cfg = s.cfg := elapse_cfg ..
@[simp] theorem advanceTo_sec (n : Nat) (s : State) : (advanceTo n s).sec = s.sec := elapse_sec ..
@[simp] theorem advanceTo_cen (n : Nat) (s : State) : (advanceTo n s).cen = s.cen := elapse_cen ..
@[simp] theorem advanceTo_flash (n : Nat) (s : State) : (advanceTo n s).flash = s.flash := elapse_flash ..
@[simp] theorem advanceTo_plc (n : Nat) (s : State) : (advanceTo n s).plc = s.plc := elapse_plc ..
@[simp] theorem advanceTo_mem (n : Nat) (s : State) : (advanceTo n s).mem = s.mem := elapse_mem ..
@[simp] theorem advanceTo_map (n : Nat) (s : State) : (advanceTo n s).map = s.map := elapse_map ..
@[simp] theorem advanceTo_thm (n : Nat) (s : State) : (advanceTo n s).thm = s.thm := elapse_thm ..
@[simp] theorem advanceTo_lnk (n : Nat) (s : State) : (advanceTo n s).lnk = s.lnk := elapse_lnk ..
@[simp] theorem advanceTo_fec (n : Nat) (s : State) : (advanceTo n s).fec = s.fec := elapse_fec ..
@[simp] theorem advanceTo_slices (n : Nat) (s : State) : (advanceTo n s).slices = s.slices := elapse_slices ..
@[simp] theorem advanceTo_can (n : Nat) (s : State) : (advanceTo n s).can = s.can := elapse_can ..
@[simp] theorem advanceTo_nps (n : Nat) (s : State) : (advanceTo n s).nps = s.nps := elapse_nps ..
@[simp] theorem advanceTo_tile (n : Nat) (s : State) : (advanceTo n s).tiles.tile = s.tiles.tile := elapse_tiles_tile ..
@[simp] theorem advanceTo_tx (n : Nat) (s : State) : (advanceTo n s).tiles.tx = s.tiles.tx := elapse_tiles_tx ..
@[simp] theorem advanceTo_time (n : Nat) (s : State) : (advanceTo n s).time = later (n - s.time.q) s.time := elapse_time ..

@[simp] theorem advanceMono_pending (n : Nat) (s : State) : (advanceMono n s).pending = s.pending := elapse_pending ..
@[simp] theorem advanceMono_held (n : Nat) (s : State) : (advanceMono n s).held = s.held := elapse_held ..
@[simp] theorem advanceMono_out (n : Nat) (s : State) : (advanceMono n s).out = s.out := elapse_out ..
@[simp] theorem advanceMono_free (n : Nat) (s : State) : (advanceMono n s).free = s.free := elapse_free ..
@[simp] theorem advanceMono_tdd (n : Nat) (s : State) : (advanceMono n s).tdd = s.tdd := elapse_tdd ..
@[simp] theorem advanceMono_boot (n : Nat) (s : State) : (advanceMono n s).boot = s.boot := elapse_boot ..
@[simp] theorem advanceMono_hif (n : Nat) (s : State) : (advanceMono n s).hif = s.hif := elapse_hif ..
@[simp] theorem advanceMono_evr (n : Nat) (s : State) : (advanceMono n s).evr = s.evr := elapse_evr ..
@[simp] theorem advanceMono_flt (n : Nat) (s : State) : (advanceMono n s).flt = s.flt := elapse_flt ..
@[simp] theorem advanceMono_cfg (n : Nat) (s : State) : (advanceMono n s).cfg = s.cfg := elapse_cfg ..
@[simp] theorem advanceMono_sec (n : Nat) (s : State) : (advanceMono n s).sec = s.sec := elapse_sec ..
@[simp] theorem advanceMono_cen (n : Nat) (s : State) : (advanceMono n s).cen = s.cen := elapse_cen ..
@[simp] theorem advanceMono_flash (n : Nat) (s : State) : (advanceMono n s).flash = s.flash := elapse_flash ..
@[simp] theorem advanceMono_plc (n : Nat) (s : State) : (advanceMono n s).plc = s.plc := elapse_plc ..
@[simp] theorem advanceMono_mem (n : Nat) (s : State) : (advanceMono n s).mem = s.mem := elapse_mem ..
@[simp] theorem advanceMono_map (n : Nat) (s : State) : (advanceMono n s).map = s.map := elapse_map ..
@[simp] theorem advanceMono_thm (n : Nat) (s : State) : (advanceMono n s).thm = s.thm := elapse_thm ..
@[simp] theorem advanceMono_lnk (n : Nat) (s : State) : (advanceMono n s).lnk = s.lnk := elapse_lnk ..
@[simp] theorem advanceMono_fec (n : Nat) (s : State) : (advanceMono n s).fec = s.fec := elapse_fec ..
@[simp] theorem advanceMono_slices (n : Nat) (s : State) : (advanceMono n s).slices = s.slices := elapse_slices ..
@[simp] theorem advanceMono_can (n : Nat) (s : State) : (advanceMono n s).can = s.can := elapse_can ..
@[simp] theorem advanceMono_nps (n : Nat) (s : State) : (advanceMono n s).nps = s.nps := elapse_nps ..
@[simp] theorem advanceMono_tile (n : Nat) (s : State) : (advanceMono n s).tiles.tile = s.tiles.tile := elapse_tiles_tile ..
@[simp] theorem advanceMono_tx (n : Nat) (s : State) : (advanceMono n s).tiles.tx = s.tiles.tx := elapse_tiles_tx ..
@[simp] theorem advanceMono_time (n : Nat) (s : State) : (advanceMono n s).time = later (n - s.time.mono) s.time := elapse_time ..

end Sys2Proof.Machine
end

