-- ==== Sys2Proof/Laws/Ops.lean ====
section
/-! SUPPORT. One lemma for each shared operation, which says once what it may change; the provers cite these and unfold no operation. -/
namespace Sys2Proof.Machine
open Sys2Proof

/-! ### Time -/

@[simp] theorem advanceTo_q (n : Nat) (s : State) : (advanceTo n s).time.q = max s.time.q n := by
  rw [advanceTo_time]; simp only [later]; omega

@[simp] theorem advanceTo_mono (n : Nat) (s : State) : (advanceTo n s).time.mono = s.time.mono + (n - s.time.q) := by
  rw [advanceTo_time]; simp only [later]

/-- The time that an event's instant takes to come. -/
theorem advanceTo_passed (n : Nat) (s : State) : Passed (n - s.time.q) s (advanceTo n s) := elapse_passed ..

theorem advanceMono_passed (n : Nat) (s : State) : Passed (n - s.time.mono) s (advanceMono n s) := elapse_passed ..

/-! ### Sources -/

/-- A real event counts once on its own source. -/
theorem raise_events (src : Fin 320) (u d : Nat) (s : State) :
    ((raise src u d s).flt.sources[src]).events = (s.flt.sources[src]).events + 1 := by
  simp [raise, raiseBy, upd]

/-- No other source sees it. -/
theorem raise_other (src i : Fin 320) (u d : Nat) (s : State) (h : i ≠ src) :
    (raise src u d s).flt.sources[i] = s.flt.sources[i] := by
  simp only [raise, raiseBy]; exact upd_other _ _ _ _ h

/-- An event of a source changes the sources only. -/
theorem raiseBy_frame (b : Bool) (src : Fin 320) (u d : Nat) (s : State) :
    raiseBy b src u d s = { s with flt := { s.flt with sources := (raiseBy b src u d s).flt.sources } } := rfl

theorem raise_frame (src : Fin 320) (u d : Nat) (s : State) :
    raise src u d s = { s with flt := { s.flt with sources := (raise src u d s).flt.sources } } := rfl

theorem setCond_frame (src : Fin 320) (b : Bool) (u d : Nat) (s : State) :
    setCond src b u d s = { s with flt := { s.flt with sources := (setCond src b u d s).flt.sources } } := rfl

/-- Counting an event changes the counters only. -/
theorem pulse_frame (e u n : Nat) (s : State) : pulse e u n s = { s with pmc := (pulse e u n s).pmc } := rfl

/-! ### Records -/

/-- A record changes the recorder and the counters only. -/
theorem record_frame (p : Payload) (a b : Nat) (own : Option Nat) (s : State) :
    record p a b own s = { s with evr := (record p a b own s).evr, pmc := (record p a b own s).pmc } := by
  unfold record pulse
  repeat' split
  all_goals rfl

theorem recordNow_frame (p : Payload) (s : State) :
    recordNow p s = { s with evr := (recordNow p s).evr, pmc := (recordNow p s).pmc } := record_frame ..

theorem notify_frame (src u d : Nat) (s : State) :
    notify src u d s = { s with evr := (notify src u d s).evr, pmc := (notify src u d s).pmc } := record_frame ..

/-! ### Interrupts and rings -/

/-- A vector that signals changes the host interface, and sends a message at most. -/
theorem signalVector_frame (fn : Fn) (v : Fin 64) (s : State) :
    signalVector fn v s = { s with hif := (signalVector fn v s).hif, out := (signalVector fn v s).out } := by
  unfold signalVector
  dsimp only
  split <;> rfl

theorem countEntry_frame (fn : Fn) (v : Nat) (b : Bool) (s : State) :
    countEntry fn v b s = { s with hif := (countEntry fn v b s).hif, out := (countEntry fn v b s).out } := by
  unfold countEntry
  dsimp only
  repeat' split
  all_goals first | rfl | exact signalVector_frame ..

theorem signalNumber_frame (fn : Fn) (v : Nat) (s : State) :
    signalNumber fn v s = { s with hif := (signalNumber fn v s).hif, out := (signalNumber fn v s).out } := by
  unfold signalNumber
  split
  · rfl
  · exact signalVector_frame ..

theorem onRing_frame (r : RingId) (f : Ring → Ring) (s : State) :
    onRing r f s = { s with hif := { s.hif with rings := upd s.hif.rings r f } } := rfl

theorem leaveFlight_frame (i : Issue) (s : State) : leaveFlight i s = { s with hif := (leaveFlight i s).hif } := rfl

theorem writeBack_frame (r : RingId) (s : State) : writeBack r s = { s with hif := (writeBack r s).hif, out := (writeBack r s).out } := by
  unfold writeBack sendIndices
  dsimp only
  repeat' split
  all_goals rfl

theorem putMarker_frame (r : RingId) (hi : Nat) (s : State) :
    putMarker r hi s = { s with hif := (putMarker r hi s).hif, pmc := (putMarker r hi s).pmc, out := (putMarker r hi s).out } := rfl

/-- Writing a completion changes the host interface, the counters and what was sent out. -/
theorem writeCompletion_frame (i : Issue) (st : Status) (a b : Nat) (s : State) :
    writeCompletion i st a b s =
      { s with hif := (writeCompletion i st a b s).hif, pmc := (writeCompletion i st a b s).pmc, out := (writeCompletion i st a b s).out } := by
  unfold writeCompletion
  dsimp only
  rw [countEntry_frame, writeBack_frame]
  split <;> rfl

/-- The parts of the state that answering a command may touch. -/
def Answered (s t : State) : Prop := t = { s with hif := t.hif, evr := t.evr, pmc := t.pmc, out := t.out }

theorem Answered.refl (s : State) : Answered s s := rfl

theorem Answered.trans {s t u : State} (h : Answered s t) (k : Answered t u) : Answered s u := by
  unfold Answered at *
  rw [k, h]

theorem record_answered (p : Payload) (a b : Nat) (own : Option Nat) (s : State) : Answered s (record p a b own s) := by
  unfold Answered
  rw [record_frame]

theorem writeCompletion_answered (i : Issue) (st : Status) (a b : Nat) (s : State) : Answered s (writeCompletion i st a b s) := by
  unfold Answered
  rw [writeCompletion_frame]

/-- A command that completes touches the host interface, the recorder, the counters and what was sent out, and nothing else. -/
theorem completeAt_answered (a : Nat) (i : Issue) (r : Refuse) (s : State) : Answered s (completeAt a i r s) := by
  unfold completeAt
  dsimp only
  have h : Answered s (leaveFlight i { s with evr := { s.evr with seqNext := (s.evr.seqNext + 1) % 2 ^ 64 } }) := rfl
  refine Answered.trans h ?_
  generalize leaveFlight i { s with evr := { s.evr with seqNext := (s.evr.seqNext + 1) % 2 ^ 64 } } = u
  have k : Answered u (if answers i u = true then writeCompletion i r.status s.evr.seqNext a u else u) := by
    split
    · exact writeCompletion_answered ..
    · exact Answered.refl _
  split
  · exact k
  · exact k.trans (record_answered ..)

theorem complete_answered (i : Issue) (st : Status) (s : State) : Answered s (complete i st s) := completeAt_answered ..

theorem refuse_answered (i : Issue) (r : Refuse) (s : State) : Answered s (refuse i r s) := completeAt_answered ..

theorem completeOpt_answered (i : Option Issue) (st : Status) (s : State) : Answered s (completeOpt i st s) := by
  unfold completeOpt
  split
  · exact complete_answered ..
  · exact Answered.refl _

theorem completes_answered (l : List Issue) (st : Status) (s : State) : Answered s (l.foldl (fun s i => complete i st s) s) := by
  induction l generalizing s with
  | nil => exact Answered.refl _
  | cons i l ih => exact (complete_answered i st s).trans (ih _)

theorem completeAll_answered (l : List Issue) (st : Status) (s : State) : Answered s (completeAll l st s) := completes_answered ..

end Sys2Proof.Machine
end

