-- ==== Sys2Proof/Laws/Blocks.lean ====
section
/-! SUPPORT. What the operations that several blocks share may change: levels, halts, flash writes, tests, and units of the fabric. -/
namespace Sys2Proof.Machine
open Sys2Proof

/-! ### Levels and halts -/

/-- The parts of the state that settling the levels may touch: front-end control, the tiles' outputs, and the coexistence lines that go out. -/
def Levelled (s t : State) : Prop := t = { s with fec := t.fec, tiles := t.tiles, out := t.out }

theorem levelled_mk (s : State) (f : FrontEnd) (g : Tiles) (o : List Out) : Levelled s { s with fec := f, tiles := g, out := o } := rfl

theorem Levelled.refl (s : State) : Levelled s s := levelled_mk s s.fec s.tiles s.out

theorem Levelled.trans {s t u : State} (h : Levelled s t) (k : Levelled t u) : Levelled s u := by
  unfold Levelled at *
  rw [k, h]

theorem cxEdges_levelled (f : FrontEnd) (s : State) (c : Fin 8) : Levelled s (cxEdges f s c) := by
  unfold cxEdges
  dsimp only
  repeat' split
  all_goals exact Levelled.refl _

theorem settlePorts_levelled (s : State) : Levelled s (settlePorts s) := by
  unfold settlePorts
  exact levelled_mk s s.fec _ s.out

theorem settleCx_levelled (s : State) : Levelled s (settleCx s) := by
  have h (l : List (Fin 8)) (f : FrontEnd) (s : State) : Levelled s (l.foldl (cxEdges f) s) := by
    induction l generalizing s with
    | nil => exact Levelled.refl s
    | cons c l ih => exact (cxEdges_levelled f s c).trans (ih _)
  unfold settleCx
  exact Levelled.trans (levelled_mk s _ s.tiles s.out) (h _ _ _)

theorem settleFems_levelled (old s : State) : Levelled s (settleFems old s) := by
  unfold settleFems
  exact levelled_mk s _ s.tiles s.out

/-- Settling the levels changes front-end control, the tiles' outputs and the lines that go out only. -/
theorem settle_frame (s : State) : settle s = { s with fec := (settle s).fec, tiles := (settle s).tiles, out := (settle s).out } :=
  ((settlePorts_levelled s).trans (settleCx_levelled _)).trans (settleFems_levelled s _)

theorem haltOf_set (k j : HaltCause) (b : Bool) (n : Protect) : haltOf (setHaltOf k b n) j = if j = k then b else haltOf n j := by
  cases k <;> cases j <;> rfl

/-! ### Flash -/

theorem checkFlash_frame (s : State) : checkFlash s = { s with flash := (checkFlash s).flash } := by
  unfold checkFlash
  split <;> rfl

theorem queueFlash_frame (i : FlashItem) (s : State) : queueFlash i s = { s with flash := (queueFlash i s).flash } := by
  unfold queueFlash
  rw [checkFlash_frame]
  split <;> rfl

theorem markLate_queue (f : Flash) : (markLate f).queue = f.queue := by
  unfold markLate
  split <;> rfl

theorem checkFlash_queue (s : State) : (checkFlash s).flash.queue = s.flash.queue := by
  unfold checkFlash
  simp only [onFlash_flash, markLate_queue]
  split <;> rfl

/-- What has been queued waits. -/
theorem queueFlash_mem (i : FlashItem) (s : State) : i ∈ (queueFlash i s).flash.queue := by
  unfold queueFlash
  rw [checkFlash_queue]
  split
  · rename_i h; simp only [Bool.and_eq_true] at h; simpa using h.2
  · simp

/-! ### Units and tests -/

theorem bumpGen_frame (s : State) : bumpGen s = { s with plc := { s.plc with mapGen := (s.plc.mapGen + 1) % 2 ^ 32 } } := rfl

theorem record_after_plc (p : Payload) (f : Placement → Placement) (s : State) :
    recordNow p (bumpGen (onPlc f s)) =
      { s with plc := (recordNow p (bumpGen (onPlc f s))).plc, evr := (recordNow p (bumpGen (onPlc f s))).evr, pmc := (recordNow p (bumpGen (onPlc f s))).pmc } := by
  have h := recordNow_frame p (bumpGen (onPlc f s))
  generalize recordNow p (bumpGen (onPlc f s)) = t at *
  rw [h]; rfl

theorem record_after_mem (p : Payload) (f : Smem → Smem) (s : State) (t : State) (h : t = recordNow p (bumpGen (onMem f s))) :
    t = { s with mem := t.mem, plc := t.plc, evr := t.evr, pmc := t.pmc } := by
  have k := recordNow_frame p (bumpGen (onMem f s))
  rw [← h] at k
  rw [k]; rfl

theorem setEngine_frame (e : Fin 64) (st : UnitState) (s : State) :
    setEngine e st s = { s with plc := (setEngine e st s).plc, evr := (setEngine e st s).evr, pmc := (setEngine e st s).pmc } := by
  unfold setEngine unitRecord
  split
  · rfl
  · exact record_after_plc _ _ _

theorem setBank_frame (b : Fin 48) (st : UnitState) (s : State) :
    setBank b st s = { s with mem := (setBank b st s).mem, plc := (setBank b st s).plc, evr := (setBank b st s).evr, pmc := (setBank b st s).pmc } := by
  unfold setBank unitRecord
  split
  · rfl
  · exact record_after_mem _ _ _ _ rfl

theorem askTest_frame (k : UnitKind) (i source : Nat) (b : Bool) (l : List Issue) (s : State) :
    askTest k i source b l s = { s with flt := { s.flt with selftests := (askTest k i source b l s).flt.selftests } } := by
  unfold askTest
  split <;> rfl

/-- A unit that is asked to be tested has a test. -/
theorem askTest_some (k : UnitKind) (i source : Nat) (b : Bool) (l : List Issue) (s : State) : (testOf k i (askTest k i source b l s)).isSome = true := by
  have tag (t : SelfTest) (x : List Issue) (y : Bool) : ((if t.kind = k ∧ t.index = i then { t with hosts := x, injectedOnly := y } else t).kind == k
      && (if t.kind = k ∧ t.index = i then { t with hosts := x, injectedOnly := y } else t).index == i) = (t.kind == k && t.index == i) := by
    split <;> rfl
  unfold askTest
  split
  · rename_i t h
    unfold testOf at h ⊢
    simp only [onFlt_flt, List.find?_map, Option.isSome_map]
    have : ((fun t : SelfTest => t.kind == k && t.index == i) ∘ fun t : SelfTest =>
        if t.kind = k ∧ t.index = i then { t with hosts := t.hosts ++ l, injectedOnly := t.injectedOnly && (b || !l.isEmpty) } else t)
        = fun t => t.kind == k && t.index == i := by
      funext t; exact tag t _ _
    rw [this, h]; rfl
  · rename_i h
    unfold testOf at h ⊢
    simp [List.find?_append]

/-- The parts of the state that the end of a test touches. -/
def Tested (s t : State) : Prop := t = { s with hif := t.hif, evr := t.evr, pmc := t.pmc, flt := t.flt, out := t.out }

theorem Tested.refl (s : State) : Tested s s := rfl

theorem Tested.trans {s t u : State} (h : Tested s t) (k : Tested t u) : Tested s u := by
  unfold Tested at *
  rw [k, h]

theorem Tested.of_answered {s t : State} (h : Answered s t) : Tested s t := by
  unfold Answered Tested at *
  rw [h]

theorem onFlt_tested (f : Collector → Collector) (s : State) : Tested s (onFlt f s) := rfl

/-- The end of a unit's test, with its note, touches the answers and the event sources. -/
theorem endTest_tested (k : UnitKind) (i : Nat) (pass : Bool) (note : State → State) (h : ∀ s, Tested s (note s)) (s : State) :
    Tested s (endTest k i pass note s) := by
  unfold endTest
  split
  · exact h s
  · rename_i t _
    extract_lets b u seq v w p x
    have h1 : Tested s u := by
      show Tested s (if b then note s else s)
      split
      · exact h s
      · exact .refl s
    have h4 : Tested s x := ((h1.trans (onFlt_tested _ u)).trans (.of_answered (completeAll_answered t.hosts .ok v))).trans
      (.of_answered (record_answered ..))
    split
    · exact h4
    · exact h4.trans (h x)

/-- What every step of a fold keeps, the fold keeps. -/
theorem foldl_keeps {α : Type} (R : State → State → Prop) (refl : ∀ s, R s s) (trans : ∀ {s t u}, R s t → R t u → R s u)
    (f : State → α → State) (h : ∀ s a, R s (f s a)) (l : List α) (s : State) : R s (l.foldl f s) := by
  induction l generalizing s with
  | nil => exact refl s
  | cons a l ih => exact trans (h s a) (ih _)

/-- The parts of the state that bringing units up to date may touch. -/
def Settled (s t : State) : Prop :=
  t = { s with plc := t.plc, mem := t.mem, map := t.map, flash := t.flash, flt := t.flt, hif := t.hif, evr := t.evr, pmc := t.pmc, out := t.out }

theorem Settled.refl (s : State) : Settled s s := rfl

theorem Settled.trans {s t u : State} (h : Settled s t) (k : Settled t u) : Settled s u := by
  unfold Settled at *
  rw [k, h]

theorem Settled.of_answered {s t : State} (h : Answered s t) : Settled s t := by
  unfold Answered Settled at *
  rw [h]

theorem setEngine_settled (e : Fin 64) (st : UnitState) (s : State) : Settled s (setEngine e st s) := by
  unfold Settled
  rw [setEngine_frame]

theorem setBank_settled (b : Fin 48) (st : UnitState) (s : State) : Settled s (setBank b st s) := by
  unfold Settled
  rw [setBank_frame]

theorem retireUnit_settled (c : TargetClass) (i source : Nat) (s : State) : Settled s (retireUnit c i source s) := by
  unfold Settled retireUnit
  rw [queueFlash_frame]; rfl

theorem raise_settled (i : Fin 320) (u d : Nat) (s : State) : Settled s (raise i u d s) := by
  unfold Settled
  rw [raise_frame]

theorem settleEngine_settled (s : State) (e : Fin 64) : Settled s (settleEngine s e) := by
  unfold settleEngine
  dsimp only
  repeat' split
  all_goals first | exact Settled.refl _ | exact setEngine_settled ..

theorem settleBank_settled (s : State) (b : Fin 48) : Settled s (settleBank s b) := by
  unfold settleBank
  dsimp only
  repeat' split
  all_goals first
    | exact Settled.refl _
    | exact setBank_settled ..
    | exact ((setBank_settled ..).trans (retireUnit_settled ..)).trans (raise_settled ..)

theorem settleWaits_settled (s : State) : Settled s (settleWaits s) := by
  unfold settleWaits
  exact Settled.trans (t := onPlc _ s) rfl (Settled.of_answered (completeAll_answered ..))

/-- Bringing units and waiting commands up to date touches placement, memory, the map, flash, the event sources and the answers. -/
theorem settleUnits_settled (s : State) : Settled s (settleUnits s) := by
  have h (l : List (Fin 64)) (s : State) : Settled s (l.foldl settleEngine s) :=
    foldl_keeps Settled Settled.refl (fun a b => a.trans b) settleEngine settleEngine_settled l s
  have k (l : List (Fin 48)) (s : State) : Settled s (l.foldl settleBank s) :=
    foldl_keeps Settled Settled.refl (fun a b => a.trans b) settleBank settleBank_settled l s
  unfold settleUnits
  dsimp only
  split
  · exact (h ..).trans (k ..)
  · exact ((h ..).trans (k ..)).trans (settleWaits_settled _)

end Sys2Proof.Machine
end

