-- ==== Sys2Proof/Laws/Commands.lean ====
section
/-! SUPPORT. What a step is, and the cases of a host command, of a BAR request and of a management message. -/
namespace Sys2Proof.Machine
open Sys2Proof

/-! ### Steps -/

theorem step_cons (c : Instr) (rest : List Instr) (s : State) (h : s.pending = c :: rest) : step s = exec c { s with pending := rest } := by
  simp [step, h]

theorem step_nil (s : State) (h : s.pending = []) : step s = idle s := by simp [step, h]

/-- The table gives no row any bits: the host's word leaves the state as it is. -/
@[simp] theorem withFetchWord_eq (s : State) (n w : Nat) : s.withFetchWord n w = s := rfl

theorem does_of_next {c : Instr} {s t : State} {P : State → Prop} (h : exec c s = .next t) (k : P t) : Does c s P := ⟨t, h, k⟩

/-! ### Host commands (R66, R71) -/

/-- One that runs is its body. -/
theorem hostCommand_runs {op : Nat} {c : Instr} {d : Desc} {body : Issue → State → State} {s : State} (h : Runs op d s) :
    hostCommand op c d body s = body (issueOf op d s) (startCommand d s) := by
  simp only [hostCommand, h.1, h.2, Bool.false_eq_true, if_false]

/-- One that a fence holds joins those that are held. -/
theorem hostCommand_holds {op : Nat} {c : Instr} {d : Desc} {body : Issue → State → State} {s : State}
    (h : mustHold d (s.held.any fun x => x.1 == d.ring) s = true) :
    hostCommand op c d body s = holdCommand d c s := by
  simp only [hostCommand, h, if_true]

/-- One that a shared check turns away is refused. -/
theorem hostCommand_refused {op : Nat} {c : Instr} {d : Desc} {body : Issue → State → State} {s : State} {r : Refuse}
    (h : mustHold d (s.held.any fun x => x.1 == d.ring) s = false) (k : preCheck op (issueOf op d s).fn d (startCommand d s) = some r) :
    hostCommand op c d body s = refuse (issueOf op d s) r (startCommand d s) := by
  simp only [hostCommand, h, k, Bool.false_eq_true, if_false]

/-- Starting a command changes its ring's counts only. -/
theorem startCommand_frame (d : Desc) (s : State) :
    startCommand d s = { s with hif := { s.hif with rings := (startCommand d s).hif.rings } } := rfl

/-! ### BAR requests (R45) -/

theorem viaBar_open {fn : Fn} {f : State → State} {s : State} (h : BarOpen fn s) : viaBar fn f s = f s := by
  simp only [viaBar, h.1, h.2.1, h.2.2.1, h.2.2.2, Bool.false_eq_true, if_false, Bool.and_self, if_true]

theorem viaBar_low {fn : Fn} {f : State → State} {s : State} (h : s.hif.perstLow = true) : viaBar fn f s = s := by
  simp only [viaBar, h, if_true]

/-! ### Management messages (R654, R662, R666) -/

theorem alwaysOn_open {f : State → State} {s : State} (h : PortOpen s) : alwaysOn f s = f s := by
  have : portAnswers s = true := h
  simp only [alwaysOn, this, if_true]

theorem gated_open {b : Bool} {cmd : Nat} {inst : Byte} {f : State → State} {s : State} (h : PortOpen s) (k : messageGate b s = none) :
    gated b cmd inst f s = f s := by
  have : portAnswers s = true := h
  simp only [gated, this, k, Bool.not_true, Bool.false_eq_true, if_false]

/-! ### The invariants' premises -/

theorem fusesGrow_refl (a : OwnerSlot) : fusesGrow a a := fun h => ⟨h, rfl, id⟩

/-- What leaves the security block alone keeps one-time-programmable memory. -/
theorem otpGrows_refl (a : Security) : otpGrows a a := ⟨Nat.le_refl _, fun _ => fusesGrow_refl _⟩

theorem fusesGrow_trans {a b c : OwnerSlot} (h : fusesGrow a b) (k : fusesGrow b c) : fusesGrow a c := by
  intro p
  obtain ⟨q, e, r⟩ := h p
  obtain ⟨q', e', r'⟩ := k q
  exact ⟨q', e'.trans e, fun x => r' (r x)⟩

theorem otpGrows_trans {a b c : Security} (h : otpGrows a b) (k : otpGrows b c) : otpGrows a c :=
  ⟨Nat.le_trans h.1 k.1, fun i => fusesGrow_trans (h.2 i) (k.2 i)⟩

end Sys2Proof.Machine
end

