-- ==== Sys2Proof/WellFormed.lean ====
section
/-! DEFINITION. Which commands are well-formed: operands that the outside can give. A command that is not well-formed still has a meaning. -/
namespace Sys2Proof

/-- A descriptor as R64 lays it out: 52 parameter bytes, and a buffer read that answers with as many bytes as the descriptor's length names. -/
def Desc.wf (d : Desc) : Bool :=
  d.params.length == 52 && (match d.buf with
    | .error => true
    | .bytes b => !d.flags.getLsbD 0 || b.length == d.length.toNat)

/-- A descriptor read. -/
def Fetch.wf : Fetch → Bool
  | .error => true
  | .got bytes _ _ => bytes.length == 64

/-- The sizes of an access (R45). -/
def accessSize (n : Nat) : Bool := n == 4 || n == 8

/-- Is a number one of a list? -/
def inSet (l : List Nat) (n : Nat) : Bool := l.contains n

/-- Is a command well-formed? -/
def Instr.wf : Instr → Bool
  | .powerGood .. => true
  | .powerFail => true
  | .sysReset .. => true
  | .refclkQualified .. => true
  | .fwRun .. => true
  | .ready .. => true
  | .watchdogExpiry => true
  | .glbResetWarm .. => true
  | .warmResetSequence => true
  | .tileReset .. => true
  | .perstAssert => true
  | .perstDeassert => true
  | .pcieLinkUp rate width => inSet [1, 2, 3, 4] rate && inSet [1, 2, 4, 8, 16] width
  | .flr .. => true
  | .pcieConfigRequest .. => true
  | .barAccessDrop .. => true
  | .registerWrite _ _ size value => accessSize size && decide (value < 2 ^ (8 * size))
  | .wideRegisterCapture _ _ _ size => accessSize size
  | .timNowNsRead .. => true
  | .peakRead .. => true
  | .timeSourceChange .. => true
  | .codeSelWrite .. => true
  | .codeSelZeroDone .. => true
  | .dumpRelease => true
  | .ringOwnerWrite .. => true
  | .ringEnable .. => true
  | .ringDisable .. => true
  | .ringDrained .. => true
  | .ringReset .. => true
  | .msixUnmask .. => true
  | .doorbellProducer _ _ offset _ _ => decide (offset < 4096)
  | .doorbellConsumer .. => true
  | .descriptorFetch _ fetch => fetch.wf
  | .cplWriteError .. => true
  | .vectorTimer .. => true
  | .nop d => d.wf
  | .cfgStage d _ _ => d.wf
  | .cfgCommit d _ => d.wf
  | .commitApply => true
  | .cfgConfirm d => d.wf
  | .cfgRollback d => d.wf
  | .windowEnd => true
  | .fallbackReturn => true
  | .stagedCopyRebuild .. => true
  | .persistFlush => true
  | .flashRetry => true
  | .timeSet d => d.wf
  | .timeSetTimeout => true
  | .tddPatternSet d => d.wf
  | .patternPeriodStart .. => true
  | .tddSwitch .. => true
  | .tddInfer d => d.wf
  | .inferDone => true
  | .inferInterval .. => true
  | .ppsEdge .. => true
  | .ppsLoss => true
  | .timeStep => true
  | .errorUpdate => true
  | .ppsOutPulse => true
  | .radioState d => d.wf
  | .radioTransitionDone .. => true
  | .tileLockFail .. => true
  | .lockTimeout .. => true
  | .synthCal d => d.wf
  | .synthHandover d => d.wf
  | .tempHandoverTrigger .. => true
  | .twinPrepared .. => true
  | .handoverBoundary .. => true
  | .handoverRecord .. => true
  | .twinFailed .. => true
  | .twinRetry .. => true
  | .synthLockLost .. => true
  | .tileRelock .. => true
  | .bandDeclared .. => true
  | .bandTableApply .. => true
  | .spareRotation .. => true
  | .correctionTimeout .. => true
  | .rxOverrange .. => true
  | .loadFault .. => true
  | .portSelftestDone _ failures _ => decide (failures ≤ 17)
  | .queueAlignmentError .. => true
  | .residueMismatch .. => true
  | .femFaultInput .. => true
  | .strobeShort .. => true
  | .rffeShort .. => true
  | .rffeBusRetest .. => true
  | .presencePoll .. => true
  | .rffeCommandDone _ data _ => decide (data < 2 ^ 64)
  | .rffeQueueTimeout .. => true
  | .rffeMailboxGo .. => true
  | .manualStrobeWrite .. => true
  | .grantChange .. => true
  | .grantTimeout .. => true
  | .coexRequestChange .. => true
  | .blankAssert .. => true
  | .blankRelease .. => true
  | .blankStuck .. => true
  | .sliceSet d => d.wf
  | .pendingSetLive .. => true
  | .sliceRestartStart .. => true
  | .sliceRestartDone .. => true
  | .sliceGain d => d.wf
  | .sliceMute d => d.wf
  | .sliceDelete d => d.wf
  | .sliceDeleteDone .. => true
  | .meterWindowEnd .. => true
  | .capture d => d.wf
  | .captureBlock .. => true
  | .captureEnd .. => true
  | .cancelCtl d => d.wf
  | .cancelWindowEnd .. => true
  | .squallWindowEnd .. => true
  | .overdriveInterval .. => true
  | .noiseIntervalEnd .. => true
  | .emissionVisitEnd .. => true
  | .donorLossTimeout .. => true
  | .donorRecover .. => true
  | .trimHoldExpiry .. => true
  | .trimReleaseStep .. => true
  | .protectHalt d => d.wf
  | .protectClear d => d.wf
  | .loopTick .. => true
  | .loopWrite d => d.wf
  | .loopSwap d => d.wf
  | .loopSetpoint d => d.wf
  | .traceArm d => d.wf
  | .monSeqSet d => d.wf
  | .passTrigger .. => true
  | .passComplete _ averages => decide (averages.length ≤ 16) && averages.all fun x => decide (x < 2 ^ 18)
  | .monInject d => d.wf
  | .injectionComplete _ _ stamp average => decide (stamp < 2 ^ 64) && decide (average < 2 ^ 18)
  | .monCal d => d.wf
  | .calMeasurementDone _ average => decide (average < 2 ^ 18)
  | .refReady .. => true
  | .comparatorTrip .. => true
  | .comparatorRelease .. => true
  | .openCheck .. => true
  | .referenceCheck _ code => decide (code < 2 ^ 14)
  | .madcSelftestDone .. => true
  | .laneCtl d => d.wf
  | .laneUp .. => true
  | .laneTrainTimeout .. => true
  | .laneFail .. => true
  | .laneDegraded .. => true
  | .laneSelftestDone .. => true
  | .laneSpareReady .. => true
  | .frameHeader _ _ words _ => words.length == 8 && words.all fun w => decide (w < 2 ^ 64)
  | .tickSend => true
  | .segmentReceive _ descriptor bytes =>
    let count := descriptor / 2 ^ 16 % 256
    decide (descriptor < 2 ^ 64) && count != 0 && decide (count * (33 + 8 * (descriptor / 2 ^ 24 % 4)) ≤ bytes.length) && bytes.length % 8 == 0
  | .blockPlayout stream _ => decide (stream < 2 ^ 16)
  | .linkMap d => d.wf
  | .linkMapEffect => true
  | .placePin d => d.wf
  | .placeForbid d => d.wf
  | .placeRebalance d => d.wf
  | .moveStart => true
  | .shadowStart .. => true
  | .moveCutover .. => true
  | .moveAbandon .. => true
  | .bufferCopyDone .. => true
  | .unitSelftestDone .. => true
  | .spreadDeclared => true
  | .rebalancePass => true
  | .smemReadError .. => true
  | .scrubPassEnd => true
  | .memRetire d => d.wf
  | .collectionCycle .. => true
  | .dumpAssembled => true
  | .dumpWritten .. => true
  | .faultInject d => d.wf
  | .injectionFire .. => true
  | .injectionHoldEnd .. => true
  | .selftest d => d.wf
  | .faultClear d => d.wf
  | .dumpRegister d => d.wf
  | .recordPublish => true
  | .recordMirror => true
  | .counterCfg d => d.wf
  | .counterWrap .. => true
  | .counterSnapshot d => d.wf
  | .snapshotCapture .. => true
  | .thermalSample samples _ => samples.toList.all fun x => decide (-2048 ≤ x) && decide (x < 2048)
  | .thresholdDeclared .. => true
  | .thresholdCleared .. => true
  | .thawEnd => true
  | .overcastStep => true
  | .criticalDeclared .. => true
  | .thermalHaltEnd => true
  | .ledgerSecond => true
  | .ledgerPersist => true
  | .fwActivate d _ => d.wf
  | .supervisorRestartDone .. => true
  | .fwWindowExpiry => true
  | .halt .. => true
  | .release .. => true
  | .warmReset .. => true
  | .faultRead .. => true
  | .cfgInfo .. => true
  | .dumpRead .. => true
  | .fwWrite _ _ bytes => decide (bytes.length ≤ 1024)
  | .fwFinish .. => true
  | .ownerKey .. => true
  | .debugChallenge .. => true
  | .debugUnlock .. => true
  | .nonceExpiry => true
  | .setEndpointId .. => true
  | .getEndpointId => true
  | .getMctpVersionSupport => true
  | .getMessageTypeSupport => true
  | .getVendorDefinedMessageSupport => true
  | .mctpPecDrop => true
  | .smbusTimeout => true
  | .gettid => true
  | .getpldmversion => true
  | .getpldmtypes => true
  | .getpldmcommands .. => true
  | .getpdrrepositoryinfo => true
  | .getpdr .. => true
  | .getsensorreading .. => true
  | .getstatesensorreadings .. => true
  | .getVersion .. => true
  | .getCapabilities .. => true
  | .negotiateAlgorithms .. => true
  | .getDigests .. => true
  | .getCertificate _ slot _ _ => decide (slot < 8)
  | .challenge _ slot => decide (slot < 8)
  | .getMeasurements _ index _ => decide (index < 256)
  | .spdmUnsupportedRequest .. => true
  | .pcieLinkDown => true
  | .aerError .. => true
  | .pllLockLost => true
  | .doeDiscovery => true
  | .jtagInstruction (.readRegister _ size) => accessSize size
  | .jtagInstruction (.writeRegister _ size value) => accessSize size && decide (value < 2 ^ (8 * size))
  | .jtagInstruction .. => true
  | .flashWriteDone .. => true
  | .spreadCleared => true
  | .sliceSampleBoundary .. => true
  | .synthCalDone .. => true
  | .unsupportedRequest .. => true

end Sys2Proof
end

