-- ==== Sys2Proof/Tests/Slice0.lean ====
section
/-! SUPPORT. Own tests: ill-formed operands that `Instr.wf` refuses, the spec's worked examples, single steps on small states, and for each
obligation a witness that meets the hypotheses of each of its clauses. -/
namespace Sys2Proof.Tests
open Sys2Proof Sys2Proof.Machine
set_option Elab.async false

/-! ### States and operands that the tests share -/

/-- The state after reset. -/
abbrev R : State := State.reset

/-- A command's identity. -/
def iss0 : Issue := { ring := 63, tag := 7, opcode := 1, fn := 0, irqNow := false, era := 0 }

/-- A descriptor on ring 63. -/
def dsc (tgt : Nat) (params : List Nat) : Desc :=
  { ring := 63, flags := 0, tag := 7, length := 0, target := BitVec.ofNat 32 tgt
    params := params.map (BitVec.ofNat 8) ++ List.replicate (52 - params.length) 0, buf := .error }

/-- Parameter bytes: each field little-endian at its descriptor offset. -/
def fields (fs : List (Nat × Nat × Nat)) : List Byte :=
  fs.foldl (fun l (f : Nat × Nat × Nat) => l.take (f.1 - 12) ++ (List.range f.2.1).map (fun i => BitVec.ofNat 8 (f.2.2 / 256 ^ i)) ++ l.drop (f.1 - 12 + f.2.1))
    (List.replicate 52 0)

/-- A descriptor on ring 63 with a target and parameter fields. -/
def cmd (tgt : Nat) (fs : List (Nat × Nat × Nat)) : Desc :=
  { ring := 63, flags := 0, tag := 7, length := 0, target := BitVec.ofNat 32 tgt, params := fields fs, buf := .error }

/-- The same, indirect, with a buffer of some bytes. -/
def cmdBuf (tgt : Nat) (fs : List (Nat × Nat × Nat)) (bs : List Byte) : Desc :=
  { ring := 63, flags := 1, tag := 7, length := BitVec.ofNat 32 bs.length, target := BitVec.ofNat 32 tgt, params := fields fs, buf := .bytes bs }

/-- A descriptor with a buffer of some bytes. -/
def dscBuf (tgt : Nat) (params : List Nat) (bytes : List Nat) : Desc :=
  { ring := 63, flags := 1, tag := 7, length := BitVec.ofNat 32 bytes.length, target := BitVec.ofNat 32 tgt
    params := (params ++ List.replicate (52 - params.length) 0).map (BitVec.ofNat 8), buf := .bytes (bytes.map (BitVec.ofNat 8)) }

/-- Every function's BAR is open. -/
def opened : State :=
  { R with hif := { R.hif with perstLow := false, vfEnable := true, numVFs := 7
                               fns := R.hif.fns.map fun f => { f with bars := Vector.replicate 3 (some 0), memSpace := true, busMaster := true } } }

/-- The part serves the host and the management port. -/
def serves : State := { opened with boot := { opened.boot with stage := .ready, heldBy := .nothing } }

/-- A slice from RX 31 to TX 31. -/
def defn : SliceDef :=
  { emptyDef with srcA := .rx 31, sinkA := .tx 31, centre := 2000000, k := 5, bandwidth := 100000, nCh := 64, priority := 3, muteRamp := 5, gainRise := 1 }

def par : SliceParams := { defn := defn, muteA := false, muteB := false, canA := cancelDefaults, canB := cancelDefaults }

/-- The slice runs. -/
def sliced : State :=
  { serves with slices := { serves.slices with slice := upd serves.slices.slice 255 fun x => { x with state := .running, live := some par } } }

def proof : FwProof := { key := true, sig := true, digest := true }
def fware : Firmware := { version := 2, svn := 1, digest := 9, length := 65536 }
def segs : List Segment := [⟨3000000, .dl⟩, ⟨100000, .gap⟩, ⟨1800000, .ul⟩, ⟨100000, .gap⟩]
def pattern : Pattern := { period := 7, offset := 0, segs := segs, autoAdopt := false, inferSlice := 255, inferInterval := 10 }
def hosted : Hosting := { engines := [7], cost := 4000, need := 1024, lines := [] }
def mv : Move := { slice := 255, part := 0, src := 7, dst := 63, reason := .pin, phase := .shadow, start := 128, matched := 0, shadowed := 0 }
def dumped : DumpHeader :=
  { toSram := true, toHost := false, previousKept := false, fwVersion := 2, fwSlot := false
    stage := 5, cfgVersion := 1, sequence := 9, epoch := 0, stamp := 0, first := 0, resetCause := 1, sections := [] }
def rec1 : Record := { sequence := 5, stamp := 0, epoch := 0, suppressed := 0, payload := .cfgEvent 0 1 2 }
def inject : Injection :=
  { issue := iss0, source := 319, isHold := false, capture := false, duration := 0, instant := 4000, unit := 0, inst := 0, fired := false }
def bank1 : List Int := List.replicate 512 0
def lp : Loop :=
  { cfg := { outer := false, m := 2, ns := 1, ni := 1, no := 1, hold := none, fade := 0, src := [0], dst := [0], stale := 3 }, a := bank1, b := bank1
    active := true, sig := { rt := [0], slew := [0], r := [0], xh := [0], q := [0], up := [0], ur := [0], y := [0], v := [0] }
    wasHeld := [false], hold := 0, intHold := false, cap := [0], staleRun := [0], seen := [0], limRun := [0], outSat := [false], fade := none
    swap := none, sets := [], writes := [], parity := [], limited := 0, accSat := false, clamped := false, swapTime := 0 }

/-- An owned part whose directory names an image as ACTIVE. -/
def staged0 : State :=
  { serves with boot := { serves.boot with stage := .fwRun }
                sec := { serves.sec with owner := upd serves.sec.owner 0 fun k => { k with programmed := true, usable := true } } }

/-- The recorder's staging is full. -/
def staged63 : State := { serves with evr := { serves.evr with staging := List.replicate 63 rec1 } }

/-- A TDD slice runs on port 31 with pattern timer 7. -/
def tddRuns : State :=
  { serves with
    slices := { serves.slices with
      slice := upd serves.slices.slice 0 fun x => { x with
        state := .running
        live := some { par with defn := { defn with direction := .tdd, srcB := .rx 31, sinkB := .tx 31, pattern := some 7 } } } }
    tdd := { serves.tdd with timers := upd serves.tdd.timers 7 fun x => { x with state := .running, pattern := some pattern } } }

/-- Bins of 32.768 µs that fold onto 0.5 ms, the newest first. -/
def bins13 : List (Nat × Nat) := ((List.range 123).map fun i => if i * 32768 % 500000 / 32768 < 8 then (10000, 1) else (1, 1)).reverse

/-- An owned part whose flash holds an image that the directory names in every role. -/
def imaged : State :=
  { staged0 with flash := { staged0.flash with
      area := Vector.replicate 3 (some { emptyImage with version := 1, window := 10 })
      dirs := upd staged0.flash.dirs 1 fun _ => (9, { active := some 2, previous := some 1, staged := some 0, confirmed := true, returned := false, high := 1 }) } }

/-- Bytes of a value, little-endian. -/
def bytesOf (n v : Nat) : List Byte := (List.range n).map fun i => BitVec.ofNat 8 (v / 256 ^ i)

/-- An image file with an OWNERSHIP section alone. -/
def imageBytes : List Byte :=
  bytesOf 4 0x4E474C46 ++ bytesOf 2 1 ++ bytesOf 2 256 ++ bytesOf 4 7 ++ bytesOf 4 1024 ++ bytesOf 8 0 ++ bytesOf 2 10 ++ bytesOf 2 1
    ++ List.replicate 228 0 ++ bytesOf 2 0xE ++ bytesOf 2 0 ++ bytesOf 4 272 ++ bytesOf 4 8 ++ bytesOf 4 1
    ++ bytesOf 8 0x000F0902 ++ List.replicate 744 0

/-- A firmware header. -/
def fwBytes : List Byte :=
  bytesOf 4 0x57465A44 ++ bytesOf 2 1 ++ bytesOf 2 1024 ++ bytesOf 4 3 ++ bytesOf 4 65536 ++ bytesOf 1 63 ++ List.replicate 1007 0

/-- FW_ACTIVATE LOAD of that image. -/
def fwCmd : Desc := { cmdBuf 0 [] fwBytes with length := 65536 }

/-- One write of a whole header leaves those bytes. -/
theorem writtenHeader_whole (bs : List Byte) (h : bs.length = 1024) : writtenHeader [(0, bs)] = bs := by
  apply List.ext_getElem
  · simp [writtenHeader, h]
  · intro i h1 h2
    have hi : i < 1024 := by omega
    simp [writtenHeader, writtenByte, h, hi, List.getD_eq_getElem?_getD]

/-- Source 311 has counted an event. -/
abbrev unlisted : State := { serves with flt := { serves.flt with sources := upd serves.flt.sources 311 fun x => { x with events := 1 } } }

/-- The assertion that a cycle then finds. -/
abbrev assertion : Assertion :=
  { source := 311, real := true, inj := false, count := 1, injCount := 0, unit := 0, also := [], detail := 0, capture := false, stamp := 0, epoch := 0 }

theorem unlisted_asserts : cycleAssertions [] unlisted = [assertion] := by decide +kernel

/-- The link has a stream list's two links and a lane. -/
def linked : State :=
  { serves with lnk := { serves.lnk with
      link := upd (upd serves.lnk.link 15 fun x => { x with cfg := { x.cfg with kind := 1 } }) 14 fun x => { x with cfg := { x.cfg with kind := 1 } }
      lane := upd serves.lnk.lane 63 fun x => { x with cfg := { x.cfg with link := some 14 } } } }

/-- A stream list of one entry, and the command that sets it. -/
def streamBytes : List Byte := [0, 0xFF, 5, 3, 0xFF, 0xFF, 15, 14, 0, 0, 0, 0, 0x7D, 0, 0, 0]
def streamCmd : Desc := cmdBuf 0 [] streamBytes
def streamList : List StreamEntry := (streamsOf 1 streamBytes).getD []

/-- CFG_STAGE of the image. -/
def stageCmd : Desc := cmdBuf 0x0C000002 [] imageBytes

theorem ok_of_toOption {ε α : Type} {x : Except ε α} (h : x.toOption.isSome = true) : ∃ a, x = .ok a := by
  cases x with
  | error e => exact absurd h (by simp [Except.toOption])
  | ok a => exact ⟨a, rfl⟩

theorem error_of_toOption {ε α : Type} {x : Except ε α} (h : x.toOption.isNone = true) : ∃ e, x = .error e := by
  cases x with
  | error e => exact ⟨e, rfl⟩
  | ok a => exact absurd h (by simp [Except.toOption])

/-- No slice runs after reset. -/
theorem serves_quiet (sl : SliceId) : liveDef sl serves = none := by
  have h : (serves.slices.slice[sl]) = sliceReset := Vector.getElem_replicate ..
  unfold liveDef; rw [h]; rfl

theorem pair_of_quiet (m : Fin 32) (s : State) (h : ∀ sl, liveDef sl s = none) : isPair m s = false := by simp [isPair, h]

theorem tx_of_quiet (m : Fin 32) (s : State) (h : ∀ sl, liveDef sl s = none) : slicesOnTx m s = [] := by simp [slicesOnTx, h]

/-- An empty capture block. -/
def fill0 : CaptureFill := { stamp := 0, epoch := 0, samples := [] }

/-- The part serves and has one owner key. -/
def keyed : State :=
  { serves with sec := { serves.sec with owner := upd serves.sec.owner 0 fun k => { k with programmed := true, usable := true } } }

/-- Two long pulses have come. -/
def longPulse : State := { serves with time := { serves.time with longRun := 2, autoPolarity := true } }

/-- The token bucket of source 1 is empty. -/
def dry : State := { serves with evr := { serves.evr with buckets := upd serves.evr.buckets 12 fun b => { b with parts := 0 } } }

/-- A slice is placed on engine 7. -/
def placed : State :=
  { sliced with plc := { sliced.plc with placed := upd sliced.plc.placed 255 fun x => { x with live := some hosted } } }

/-- A pin of that slice to engine 63, immediate, and what it records. -/
def pinCmd : Desc := cmd (target .slice 255) [(12, 1, 1), (16, 8, 9223372036854775808)]
def pinned : Pin := { slice := 255, kind := pinCmd.byte 13, which := pinCmd.byte 14, mask := BitVec.ofNat 64 (pinCmd.u 16 8) }

/-- The slice is placed and on a protection rung. -/
def runged : State := { placed with nps := { placed.nps with slice := upd placed.nps.slice 255 fun x => { x with donorLoss := true } } }

/-! ### Ill-formed operands, one for each check -/

theorem test_wf_accepts : Instr.wf (.nop (dsc 0 [])) = true := by decide +kernel
theorem test_wf_params : Instr.wf (.nop { dsc 0 [] with params := [] }) = false := by decide +kernel
theorem test_wf_buffer : Instr.wf (.cfgStage { cmdBuf 0 [] [1, 2] with length := 3 } true true) = false := by decide +kernel
theorem test_wf_fetch : Instr.wf (.descriptorFetch 3 (.got [0] .error { sigOk := true, digestOk := true, keyOk := true, copyUe := false })) = false := by decide +kernel
theorem test_wf_link_rate : Instr.wf (.pcieLinkUp 5 16) = false := by decide +kernel
theorem test_wf_link_width : Instr.wf (.pcieLinkUp 4 3) = false := by decide +kernel
theorem test_wf_access_size : Instr.wf (.registerWrite 0 0 2 0) = false := by decide +kernel
theorem test_wf_access_value : Instr.wf (.registerWrite 0 0 4 (2 ^ 32)) = false := by decide +kernel
theorem test_wf_wide_size : Instr.wf (.wideRegisterCapture 0 .bar0 0x40020 16) = false := by decide +kernel
theorem test_wf_doorbell_offset : Instr.wf (.doorbellProducer 0 0 4096 4 0) = false := by decide +kernel
theorem test_wf_failures : Instr.wf (.portSelftestDone (.rx 0) 18 true) = false := by decide +kernel
theorem test_wf_rffe_data : Instr.wf (.rffeCommandDone 0 (2 ^ 64) true) = false := by decide +kernel
theorem test_wf_pass_length : Instr.wf (.passComplete 0 (List.replicate 17 0)) = false := by decide +kernel
theorem test_wf_pass_average : Instr.wf (.passComplete 0 [2 ^ 18]) = false := by decide +kernel
theorem test_wf_injection_stamp : Instr.wf (.injectionComplete 0 false (2 ^ 64) 0) = false := by decide +kernel
theorem test_wf_injection_average : Instr.wf (.injectionComplete 0 false 0 (2 ^ 18)) = false := by decide +kernel
theorem test_wf_cal_average : Instr.wf (.calMeasurementDone 0 (2 ^ 18)) = false := by decide +kernel
theorem test_wf_reference_code : Instr.wf (.referenceCheck 0 (2 ^ 14)) = false := by decide +kernel
theorem test_wf_header_words : Instr.wf (.frameHeader 0 0 [0] { codewords := 0, corrected := 0, uncorrectable := 0 }) = false := by decide +kernel
theorem test_wf_header_word : Instr.wf (.frameHeader 0 0 (List.replicate 8 (2 ^ 64)) { codewords := 0, corrected := 0, uncorrectable := 0 }) = false := by decide +kernel
theorem test_wf_segment_descriptor : Instr.wf (.segmentReceive 0 (2 ^ 64 + 2 ^ 16) (List.replicate 40 0)) = false := by decide +kernel
theorem test_wf_segment_count : Instr.wf (.segmentReceive 0 0 []) = false := by decide +kernel
theorem test_wf_segment_length : Instr.wf (.segmentReceive 0 (2 ^ 16) (List.replicate 32 0)) = false := by decide +kernel
theorem test_wf_segment_words : Instr.wf (.segmentReceive 0 (2 ^ 16) (List.replicate 33 0)) = false := by decide +kernel
theorem test_wf_playout : Instr.wf (.blockPlayout 65536 0) = false := by decide +kernel
theorem test_wf_sample : Instr.wf (.thermalSample (Vector.replicate 24 2048) 0) = false := by decide +kernel
theorem test_wf_write : Instr.wf (.fwWrite 0 0 (List.replicate 1025 0)) = false := by decide +kernel
theorem test_wf_certificate : Instr.wf (.getCertificate .mctp 8 0 0) = false := by decide +kernel
theorem test_wf_challenge : Instr.wf (.challenge .mctp 8) = false := by decide +kernel
theorem test_wf_measurement : Instr.wf (.getMeasurements .mctp 256 false) = false := by decide +kernel
theorem test_wf_jtag_read : Instr.wf (.jtagInstruction (.readRegister 0 3)) = false := by decide +kernel
theorem test_wf_jtag_write : Instr.wf (.jtagInstruction (.writeRegister 0 4 (2 ^ 32))) = false := by decide +kernel

/-! ### Worked examples of the spec -/

/-- 00_scope.md: SLICE_4, k = 4 with 64 taps and a 512-tap canceller, costs 184 wu; a cost is held in units of wu / 2,048. -/
theorem test_cost : costOf { defn with k := 4, nCh := 64, nFc := 512 } = 184 * 2048 := by decide +kernel

/-- 08_slices.md: a slice of 1,664 wu has span 2. -/
theorem test_span : spanOf (costOf { defn with k := 0, nCh := 64, nFc := 256 }) = 2 := by decide +kernel

/-- 08_slices.md: SLC_LATENCY_0 reads 56,916. -/
theorem test_latency : latencyOf { defn with k := 6, nCh := 64, family := 3 } = 56916 := by decide +kernel

/-- 08_slices.md: SLICE_0's mix word, 773,000 kHz on a port at 2,000,000 kHz. -/
theorem test_mix_word : sliceMixWord 773000 2000000 = 195132527604662 := by decide +kernel

/-- 09_feedback_cancellation.md: SLICE_0's bulk delay D is 48. -/
theorem test_bulk_delay : bulkDelay { defn with k := 6, nCh := 64, family := 3, nFc := 256 } .a 0 = 48 := by decide +kernel

/-- 09_feedback_cancellation.md: unsettled, the ceiling is 50.00 dB - 15.00 dB. -/
theorem test_ceiling : rawCeiling 5000 0 1500 = 3500 := by decide +kernel

/-- 07_digital_front_end.md: I = -1,234 and Q = 3,021 make the container 0xECB8_BCD6. -/
theorem test_container : containerWord (.valid (-1234) 3021) = 0xECB8BCD6 := by decide +kernel

/-- 07_digital_front_end.md: a centre of 2.0 GHz is DDC word 0x2000_0000_0000, DUC word 0x1000_0000_0000 and droop entry 6. -/
theorem test_tuning : ddcWord 2000000 = 0x200000000000 ∧ ducWord 2000000 = 0x100000000000 ∧ droopOf 2000000 = 6 := by decide +kernel

/-- 07_digital_front_end.md: a centre of 11.0 GHz has DDC word 0x5000_0000_0000. -/
theorem test_tuning_second : ddcWord 11000000 = 0x500000000000 := by decide +kernel

/-- 12_soldin_link.md: a lane at rate code 1 carries 773 words per tick, a 12-bit stream takes 50 words at k = 5 and 99 at k = 4. -/
theorem test_capacity :
    wordsPerFrame { laneReset.cfg with rate := 1 } / 10 - 8 = 773 ∧ streamWords 5 2 = 50 ∧ streamWords 4 2 = 99 := by decide +kernel

/-- 14_control_engine.md: term(1, 0, 52,000) = 13,312,000 and term(1,208, 10, 60) = 18,120, which rounds to 71 units. -/
theorem test_loop_terms : dotTerm 1 0 52000 = 13312000 ∧ dotTerm 1208 10 60 = 18120 ∧ roundEven 18120 8 = 71 := by decide +kernel

/-- 14_control_engine.md: a ramp of slew 1 from 3,380 towards 3,300 goes to 3,379. -/
theorem test_ramp : rampStep 3300 1 3380 = 3379 := by decide +kernel

/-- 04_configuration.md: 10 ns after a second rounds up to 32 ns; the automatic return falls 20 ms after E, on a strobe. -/
theorem test_commit_instant :
    strobeAt (instantOf 0 (7201 * 2 ^ 32 + 10)) = 7201 * qSecond + 128 ∧ returnAt (7501 * qSecond + 128) = 7501 * qSecond + 4 * 20000032 := by
  decide +kernel

/-- 17_faults_and_self_test.md: FLT_FIRST reads 0x0003_2C66. -/
theorem test_first_word :
    firstWord { serves.flt with first := some { source := 102, severity := .degraded, injected := false, coincident := true, epoch := 3, stamp := 0 } }
      = 0x00032C66 := by decide +kernel

/-- 02_host_interface.md and 17_faults_and_self_test.md: SLICE_4 is target 0x0100_0004, and SE_32 is 0x0B00_0020. -/
theorem test_targets : target .slice 4 = 0x01000004 ∧ target .engine 32 = 0x0B000020 := by decide +kernel

/-- 10_network_protection.md: window 2 stands at -26.79 dBFS, 5.00 dB above window 1 and above the floor, and detects; window 1 lies below it. A
window is the sum of its squares, here over one sample, full scale being 2^34. -/
theorem test_squall :
    squallDetects guardDefaults 6 (11376793, 1, []) (35976579, 1, []) = true ∧
    squallDetects guardDefaults 6 (4436289, 1, []) (11376793, 1, []) = false := by decide +kernel

/-! ### Single steps -/

/-- What a test asks of the state that one command leaves. -/
def after (c : Instr) (s : State) (p : State → Bool) : Bool :=
  match step { s with pending := [c] } with
  | .next t => p t
  | _ => false

/-- A completion that the host sees: its status code. -/
def answered (st : Status) (t : State) : Bool :=
  t.out.any fun x => match x with
    | .completion _ _ _ x _ _ _ => x == st
    | _ => false

/-- Ring 9 stands as in the example of 02_host_interface.md: q is 0xFFFF_FFFA, and the last accepted producer is 0xFFFF_FFFC. -/
def ringed : State :=
  { serves with hif := { serves.hif with rings := upd serves.hif.rings 8 fun x => { x with
      state := .running, enable := true, owner := 1, cmdLog2 := 8, cplLog2 := 9, cmdPI := 0xFFFFFFFC, cmdCI := 0xFFFFFFFA } } }

/-- The example's doorbell: p = 2 lies 6 past p0 and 8 past q, and is accepted (R53). -/
theorem test_doorbell : after (.doorbellProducer 1 0 0 4 2) ringed (fun t => (t.hif.rings[8]).cmdPI == 2 && (t.hif.rings[8]).state == .running) = true := by
  decide +kernel

/-- A producer more than 2^s past q is an overrun (R53). -/
theorem test_doorbell_overrun : after (.doorbellProducer 1 0 0 4 0xFB) ringed (fun t => (t.hif.rings[8]).error == .dbOverrun) = true := by decide +kernel

/-- A failed descriptor read is FETCH_ERROR (R55, R92). -/
theorem test_fetch_error : after (.descriptorFetch 8 .error) { ringed with hif := { ringed.hif with rings := upd ringed.hif.rings 8 fun x => { x with cmdPI := 0 } } }
    (fun t => (t.hif.rings[8]).error == .fetchError && (t.hif.rings[8]).state == .error) = true := by decide +kernel

/-- NOP completes OK, and BAD_PARAM when a parameter byte is not zero (R689). -/
theorem test_nop : after (.nop { dsc 0 [] with ring := 8 }) ringed (answered .ok) = true := by decide +kernel
theorem test_nop_parameter : after (.nop { dsc 0 [0, 1] with ring := 8 }) ringed (answered .badParam) = true := by decide +kernel

/-- A VF has no command on a slice of another VF's group: DENIED (R71, R251). -/
theorem test_mute_denied : after (.sliceMute { dsc 0x01000005 [1] with ring := 8 }) ringed (answered .denied) = true := by decide +kernel

/-- A configuration confirm outside any window whose version is not ACTIVE's is BAD_PARAM (R143). -/
theorem test_confirm : after (.cfgConfirm { cmd 0x0C000000 [(12, 4, 42)] with ring := 0 })
    { serves with hif := { serves.hif with rings := upd serves.hif.rings 0 fun x => { x with state := .running, enable := true, cmdLog2 := 8, cplLog2 := 9 } } }
    (answered .badParam) = true := by decide +kernel

/-- A read of an RX status resets its peak to 255 (R195). -/
theorem test_peak : after (.peakRead 31) { serves with tiles := { serves.tiles with rx := upd serves.tiles.rx 31 fun x => { x with peak := 12 } } }
    (fun t => (t.tiles.rx[31]).peak == 255) = true := by decide +kernel

/-- A read of TIM_NOW_NS latches the seconds of the same instant; 12 ns is 48 quarter-nanoseconds (R370, R371). -/
theorem test_now : after (.timNowNsRead 0) { serves with time := { serves.time with q := 86400 * qSecond + 48 } }
    (fun t => t.out.contains (.readData 0 48) && t.time.latchedSec == 86400) = true := by decide +kernel

/-- The owner of a ring changes only while the pair is Disabled, and RING_0 never moves (R49). -/
theorem test_owner : after (.ringOwnerWrite 9 3) serves (fun t => (t.hif.rings[9]).owner == 3) = true := by decide +kernel
theorem test_owner_running : after (.ringOwnerWrite 8 3) ringed (fun t => (t.hif.rings[8]).owner == 1) = true := by decide +kernel
theorem test_owner_zero : after (.ringOwnerWrite 0 3) serves (fun t => (t.hif.rings[0]).owner == 0) = true := by decide +kernel

/-- A watchdog expiry is a warm reset, which its cause bit names (R94, R97). -/
theorem test_watchdog : after .watchdogExpiry serves (fun t => t.boot.heldBy != .nothing) = true := by decide +kernel

/-- An SMBus time-out ends the transfer and nothing else (R685). -/
theorem test_smbus : step { serves with pending := [.smbusTimeout] } = .next serves := rfl

/-- The first command of the queue runs, and the rest waits. -/
theorem test_queue : (match step { serves with pending := [.smbusTimeout, .powerFail] } with
    | .next t => decide (t.pending = [.powerFail])
    | _ => false) = true := by decide +kernel

/-! ### Witnesses: the hypotheses of each clause of an obligation hold together -/

theorem witness_StepRunsTheFront :
    ∃ (c : Instr) (s : State), (c ≠ .jtagInstruction .inner ∨ s.sec.debug ≠ 2) :=
  ⟨.perstDeassert, serves, by decide +kernel⟩

theorem witness_EmptyQueueIdles :
    (∃ (s : State), s.pending = [] ∧ releasable [] s.held s = none ∧ s.boot.stage ≠ .reset ∧ RadiosRest s ∧ s.time.q + 4 < 2 ^ 48 * qSecond) ∧
    (∃ (s : State), s.pending = [] ∧ releasable [] s.held s = none ∧ s.boot.stage = .reset) ∧
    (∃ (s t : State) (r : RingId) (c : Instr) (rest : List (RingId × Bool × Instr)), s.pending = [] ∧ s.held = (r, false, c) :: rest ∧ exec c (leaveHeld r
      s) = .next t) ∧
    (∃ (s t : State) (r : RingId) (c : Instr) (rest : List (RingId × Bool × Instr)), s.pending = [] ∧ s.held = (r, true, c) :: rest ∧
      (s.hif.rings[r]).started = 0 ∧ exec c (leaveHeld r s) = .next t) ∧
    (∃ (s : State), s.pending = [] ∧ releasable [] s.held s = none ∧ s.boot.stage ≠ .reset ∧ 2 ^ 48 * qSecond ≤ s.time.q + 3) :=
  ⟨⟨{ serves with pending := [] }, by decide +kernel⟩,
   ⟨{ serves with pending := [], boot := { serves.boot with stage := .reset } }, by decide +kernel⟩,
   ⟨{ serves with held := [(63, false, .smbusTimeout)] }, leaveHeld 63 { serves with held := [(63, false, .smbusTimeout)] }, 63, .smbusTimeout, [], rfl,
     rfl, rfl⟩,
   ⟨{ serves with held := [(63, true, .smbusTimeout)] }, leaveHeld 63 { serves with held := [(63, true, .smbusTimeout)] }, 63, .smbusTimeout, [], rfl,
     rfl, by decide +kernel, rfl⟩,
   ⟨{ serves with pending := [], time := { serves.time with q := 2 ^ 48 * qSecond } }, by decide +kernel⟩⟩

theorem witness_OtpNeverShrinks :
    ∃ (s t : State), step s = .next t :=
  ⟨{ R with pending := [.smbusTimeout] }, R, rfl⟩

theorem witness_RingZeroStaysWithPf0 :
    ∃ (s t : State), ringZeroIsPf0 s.hif ∧ step s = .next t :=
  ⟨{ R with pending := [.smbusTimeout] }, R, rfl, rfl⟩

theorem witness_PowerAndReset :
    (∃ (s : State), s.boot.heldBy = .power) ∧
    (∃ (hz : Nat) (s : State), s.boot.powerGood = true ∧ s.boot.heldBy = .nothing ∧ s.boot.stage = .reset ∧ refclkOk s.boot.refclkSel hz = true) ∧
    (∃ (s : State), pastFwRun s = true) ∧
    (∃ (s : State), s.boot.heldBy ≠ .power) ∧
    (∃ (hz : Nat) (s : State), refclkOk s.boot.refclkSel hz = false) :=
  ⟨⟨{ serves with boot := { serves.boot with heldBy := .power } }, by decide +kernel⟩,
   ⟨(refclkHz R.boot.refclkSel), { serves with boot := { serves.boot with powerGood := true, heldBy := .nothing, stage := .reset } }, by decide +kernel⟩,
   ⟨serves, by decide +kernel⟩,
   ⟨serves, by decide +kernel⟩,
   ⟨1, serves, by decide +kernel⟩⟩

theorem witness_FirmwareBoot :
    (∃ (okA okB : Bool) (f : Firmware) (s : State), (s.boot.stage = .rom ∨ s.boot.stage = .fwVerify) ∧ (if s.flash.boot then bootable okB s.sec.fw[1] s
      else bootable okA s.sec.fw[0] s) = some f) ∧
    (∃ (okA okB : Bool) (f : Firmware) (s : State), (s.boot.stage = .rom ∨ s.boot.stage = .fwVerify) ∧ (if s.flash.boot then bootable okB s.sec.fw[1] s
      else bootable okA s.sec.fw[0] s) = none ∧ (if s.flash.boot then bootable okA s.sec.fw[0] s else bootable okB s.sec.fw[1] s) = some f) ∧
    (∃ (okA okB : Bool) (s : State), (s.boot.stage = .rom ∨ s.boot.stage = .fwVerify) ∧ bootable okA s.sec.fw[0] s = none ∧ bootable okB s.sec.fw[1] s =
      none) ∧
    (∃ (s : State), (s.boot.stage = .fwRun ∨ s.boot.stage = .cfgLoad) ∧ (flashDirectory s).active = none ∧ (flashDirectory s).staged = none) ∧
    (∃ (verified : Vector Bool 3) (x : Slot) (s : State), (s.boot.stage = .fwRun ∨ s.boot.stage = .cfgLoad) ∧ (loadSlots s).cfg.active = some x ∧
      bootVerifies verified (loadSlots s) x = true ∧ (loadSlots s).cfg.confirmed = true) :=
  ⟨⟨true, true, fware, { serves with boot := { serves.boot with stage := .rom }, sec := { serves.sec with fw := (upd serves.sec.fw 1 fun _ => some fware) }, flash := { serves.flash with boot := true } },
     by decide +kernel⟩,
   ⟨true, true, fware, { serves with boot := { serves.boot with stage := .fwVerify }, sec := { serves.sec with fw := (upd (upd serves.sec.fw 1 fun _ => some fware) 0 fun _ => none) }, flash := { serves.flash with boot := false } },
     by decide +kernel⟩,
   ⟨true, true, { serves with boot := { serves.boot with stage := .rom } }, by decide +kernel⟩,
   ⟨{ serves with boot := { serves.boot with stage := .fwRun } }, by decide +kernel⟩,
   ⟨(Vector.replicate 3 true), { area := 2, image := { emptyImage with version := 1, window := 10 } }, imaged, by decide +kernel⟩⟩

theorem witness_WarmReset :
    (∃ (s : State), BarOpen 0 s ∧ mayWarm s = true) ∧
    (∃ (s : State), s.flt.fatal = false ∧ mayWarm s = true) ∧
    (∃ (s : State), PortOpen s ∧ mayWarm s = true) ∧
    (∃ (s : State), (s.boot.heldBy = .warm ∨ s.boot.heldBy = .watchdog)) ∧
    (∃ (key : Half) (s : State), BarOpen 0 s ∧ key ≠ 0x6144) :=
  ⟨⟨serves, by decide +kernel⟩,
   ⟨{ serves with flt := { serves.flt with fatal := false } }, by decide +kernel⟩,
   ⟨serves, by decide +kernel⟩,
   ⟨{ serves with boot := { serves.boot with heldBy := .watchdog } }, by decide +kernel⟩,
   ⟨1, serves, by decide +kernel⟩⟩

theorem witness_LinkAndFunctions :
    (∃ (rate width : Nat) (s : State), s.hif.perstLow = false ∧ pastFwRun s = true ∧ s.boot.heldBy = .nothing ∧ 1 ≤ rate ∧ rate ≤ 4 ∧ 1 ≤ width ∧ width ≤
      16) ∧
    (∃ (fn : Fn), fn ≠ 0) ∧
    (∃ (fn : Fn) (s : State), s.hif.perstLow = false ∧ pastFwRun s = true ∧ s.boot.stage ≠ .recovery ∧ fnExists fn s = true) ∧
    (∃ (fn : Fn) (s : State), s.hif.perstLow = false ∧ pastFwRun s = true ∧ s.boot.stage ≠ .recovery ∧ fnExists fn s = true) ∧
    (∃ (s : State), s.hif.perstLow = false ∧ pastFwRun s = false) ∧
    (∃ (s : State), s.hif.perstLow = false) ∧
    (∃ (fn : Fn) (s : State), s.hif.perstLow = false ∧ pastFwRun s = true ∧ s.boot.stage ≠ .recovery ∧ fnExists fn s = true) ∧
    (∃ (fn : Fn) (s : State), s.hif.perstLow = false ∧ pastFwRun s = true ∧ s.boot.stage ≠ .recovery ∧ fnExists fn s = true) :=
  ⟨⟨1, 1, { serves with hif := { serves.hif with perstLow := false }, boot := { serves.boot with heldBy := .nothing } }, by decide +kernel⟩,
   ⟨7, by decide +kernel⟩,
   ⟨0, { serves with hif := { serves.hif with perstLow := false } }, by decide +kernel⟩,
   ⟨0, { serves with hif := { serves.hif with perstLow := false } }, by decide +kernel⟩,
   ⟨{ serves with hif := { serves.hif with perstLow := false }, boot := { serves.boot with stage := .rom } }, by decide +kernel⟩,
   ⟨{ serves with hif := { serves.hif with perstLow := false } }, by decide +kernel⟩,
   ⟨0, { serves with hif := { serves.hif with perstLow := false } }, by decide +kernel⟩,
   ⟨0, { serves with hif := { serves.hif with perstLow := false } }, by decide +kernel⟩⟩

theorem witness_RegisterAccess :
    (∃ (fn : Fn) (offset : Nat) (s : State), BarOpen fn s ∧ accessOk fn offset 4 = true) ∧
    (∃ (fn : Fn) (offset : Nat) (s : State), BarOpen fn s ∧ accessOk fn offset 8 = true) ∧
    (∃ (s : State), BarOpen 0 s) ∧
    (∃ (offset size v : Nat) (s : State), BarOpen 0 s ∧ accessOk 0 offset size = true ∧ offset % 32 = 0 ∧ wideValue offset s = some v) ∧
    (∃ (fn : Fn) (offset size : Nat) (s : State), BarOpen fn s ∧ accessOk fn offset size = false) ∧
    (∃ (fn : Fn) (s : State), BarOpen fn s) ∧
    (∃ (fn : Fn) (s : State), BarOpen fn s) ∧
    (∃ (offset size v : Nat) (s : State), BarOpen 0 s ∧ accessOk 0 offset size = true ∧ offset % 32 ≠ 0 ∧ wideValue (offset / 32 * 32) s = some v ∧
      (s.hif.fns[(0 : Fn)]).wideAt = some (offset / 32 * 32)) ∧
    (∃ (fn : Fn) (s : State), BarOpen fn s) :=
  ⟨⟨0, 16, serves, by decide +kernel⟩,
   ⟨0, 0x40020, serves, by decide +kernel⟩,
   ⟨serves, by decide +kernel⟩,
   ⟨0x40020, 8, ((wideValue 0x40020 serves).get (by decide +kernel)), serves, by decide +kernel⟩,
   ⟨0, 1, 1, serves, by decide +kernel⟩,
   ⟨0, serves, by decide +kernel⟩,
   ⟨0, serves, by decide +kernel⟩,
   ⟨0x40024, 4, ((wideValue 0x40020 serves).get (by decide +kernel)), { serves with hif := { serves.hif with fns := (upd serves.hif.fns (0 : Fn) fun x => { x with wideAt := some (0x40024 / 32 * 32) }) } },
     by decide +kernel⟩,
   ⟨0, serves, by decide +kernel⟩⟩

theorem witness_RingOwnership :
    (∃ (ring : RingId) (owner : Fn) (s : State), BarOpen 0 s ∧ (s.hif.rings[ring]).state = .disabled ∧ (ring = 0 → owner = 0) ∧ (owner = 0 ∨
      (s.hif.rings[ring]).owner = owner ∨ pairsOwned owner s < 16)) ∧
    (∃ (ring : RingId) (owner : Fn) (s : State), BarOpen 0 s ∧ ((s.hif.rings[ring]).state ≠ .disabled ∨ (ring = 0 ∧ owner ≠ 0) ∨ (owner ≠ 0 ∧
      (s.hif.rings[ring]).owner ≠ owner ∧ 16 ≤ pairsOwned owner s))) :=
  ⟨⟨63, 0, { serves with hif := { serves.hif with rings := (upd serves.hif.rings (63 : RingId) fun x => { x with state := .disabled }) } },
     by decide +kernel⟩,
   ⟨0, 1, serves, by decide +kernel⟩⟩

theorem witness_RingStates :
    (∃ (fn : Fn) (n : RingId) (s : State), BarOpen fn s ∧ (fn = 0 ∨ (s.hif.rings[n]).owner = fn) ∧ (s.hif.rings[n]).state = .disabled ∧
      (s.hif.fns[(s.hif.rings[n]).owner]).busMaster = true ∧ pairValid s.hif.rings[n] = true) ∧
    (∃ (fn : Fn) (n : RingId) (s : State), BarOpen fn s ∧ (fn = 0 ∨ (s.hif.rings[n]).owner = fn) ∧ (s.hif.rings[n]).state = .disabled ∧
      (s.hif.fns[(s.hif.rings[n]).owner]).busMaster = false) ∧
    (∃ (fn : Fn) (n : RingId) (s : State), BarOpen fn s ∧ (fn = 0 ∨ (s.hif.rings[n]).owner = fn) ∧ (s.hif.rings[n]).state = .disabled ∧
      (s.hif.fns[(s.hif.rings[n]).owner]).busMaster = true ∧ pairValid s.hif.rings[n] = false) ∧
    (∃ (fn : Fn) (n : RingId) (s : State), BarOpen fn s ∧ (fn = 0 ∨ (s.hif.rings[n]).owner = fn)) ∧
    (∃ (n : RingId) (s : State), (s.hif.rings[n]).state = .running ∧ (s.hif.rings[n]).enable = false ∧ (s.hif.rings[n]).inFlight = 0 ∧
      (s.hif.rings[n]).wbDue = false) ∧
    (∃ (fn : Fn) (n : RingId) (s : State), BarOpen fn s ∧ (fn = 0 ∨ (s.hif.rings[n]).owner = fn) ∧ ((s.hif.rings[n]).state = .disabled ∨
      ((s.hif.rings[n]).state = .error ∧ (s.hif.rings[n]).enable = false))) ∧
    (∃ (n : RingId) (s : State), (s.hif.rings[n]).state = .running) ∧
    (∃ (n : RingId) (s : State), (s.hif.rings[n]).state = .running ∧ (s.hif.rings[n]).enable = false ∧ (s.hif.rings[n]).inFlight = 0 ∧
      (s.hif.rings[n]).wbDue = true ∧ inD3hot (s.hif.rings[n]).owner s = false) ∧
    (∃ (s : State), BarOpen 0 s ∧ s.hif.evr.state = .disabled ∧ (s.hif.fns[(0 : Fn)]).busMaster = true ∧ eventValid s.hif.evr = true) ∧
    (∃ (fn : Fn) (c : Fin 8) (s : State), BarOpen fn s ∧ (fn = 0 ∨ (s.hif.caps[c]).owner = fn) ∧ (s.hif.caps[c]).state = .disabled ∧
      (s.hif.fns[(s.hif.caps[c]).owner]).busMaster = true ∧ capValid s.hif.caps[c] s = true) ∧
    (∃ (s : State), BarOpen 0 s ∧ s.hif.evr.state = .running) ∧
    (∃ (fn : Fn) (c : Fin 8) (s : State), BarOpen fn s ∧ (fn = 0 ∨ (s.hif.caps[c]).owner = fn) ∧ (s.hif.caps[c]).state = .running) ∧
    (∃ (s : State), BarOpen 0 s ∧ s.hif.evr.state = .disabled) ∧
    (∃ (fn : Fn) (c : Fin 8) (s : State), BarOpen fn s ∧ (fn = 0 ∨ (s.hif.caps[c]).owner = fn) ∧ (s.hif.caps[c]).state = .disabled) ∧
    (∃ (s : State), s.hif.evr.state = .running) ∧
    (∃ (c : Fin 8) (s : State), (s.hif.caps[c]).state = .running) :=
  ⟨⟨0, 63, { serves with hif := { serves.hif with rings := (upd serves.hif.rings (63 : RingId) fun x => { x with state := .disabled }) } },
     by decide +kernel⟩,
   ⟨0, 63, { serves with hif := { serves.hif with rings := (upd serves.hif.rings (63 : RingId) fun x => { x with state := .disabled }), fns := (upd serves.hif.fns 0 fun x => { x with busMaster := false }) } },
     by decide +kernel⟩,
   ⟨0, 63, { serves with hif := { serves.hif with rings := (upd serves.hif.rings (63 : RingId) fun x => { x with state := .disabled, cmdLog2 := 17 }) } },
     by decide +kernel⟩,
   ⟨0, 63, serves, by decide +kernel⟩,
   ⟨63, { serves with hif := { serves.hif with rings := (upd serves.hif.rings (63 : RingId) fun x => { x with state := .running, enable := false, inFlight := 0, wbDue := false }) } },
     by decide +kernel⟩,
   ⟨0, 63, serves, by decide +kernel⟩,
   ⟨63, { serves with hif := { serves.hif with rings := (upd serves.hif.rings (63 : RingId) fun x => { x with state := .running }) } },
     by decide +kernel⟩,
   ⟨63, { serves with hif := { serves.hif with rings := (upd serves.hif.rings (63 : RingId) fun x => { x with state := .running, enable := false, inFlight := 0, wbDue := true }) } },
     by decide +kernel⟩,
   ⟨{ serves with hif := { serves.hif with evr := { serves.hif.evr with state := .disabled, log2 := 16, wb := 4096 }, fns := (upd serves.hif.fns (0 : Fn) fun x => { x with busMaster := true }) } },
     by decide +kernel⟩,
   ⟨0, 7, { serves with hif := { serves.hif with caps := (upd serves.hif.caps (7 : Fin 8) fun x => { x with state := .disabled, log2 := 4, wb := 4096 }) } },
     by decide +kernel⟩,
   ⟨{ serves with hif := { serves.hif with evr := { serves.hif.evr with state := .running } } }, by decide +kernel⟩,
   ⟨0, 7, { serves with hif := { serves.hif with caps := (upd serves.hif.caps (7 : Fin 8) fun x => { x with state := .running }) } }, by decide +kernel⟩,
   ⟨{ serves with hif := { serves.hif with evr := { serves.hif.evr with state := .disabled } } }, by decide +kernel⟩,
   ⟨0, 7, { serves with hif := { serves.hif with caps := (upd serves.hif.caps (7 : Fin 8) fun x => { x with state := .disabled }) } },
     by decide +kernel⟩,
   ⟨{ serves with hif := { serves.hif with evr := { serves.hif.evr with state := .running } } }, by decide +kernel⟩,
   ⟨7, { serves with hif := { serves.hif with caps := (upd serves.hif.caps (7 : Fin 8) fun x => { x with state := .running }) } }, by decide +kernel⟩⟩

theorem witness_DoorbellsAndFetch :
    (∃ (fn : Fn) (page : Fin 256) (n : RingId) (p : Word) (s : State), BarOpen fn s ∧ page.val < doorbellPages fn ∧ pageRing fn page s = some (.pair n) ∧
      (s.hif.rings[n]).state = .running ∧ 0 < (p - (s.hif.rings[n]).cmdPI).toNat ∧ (p - (s.hif.rings[n]).cmdPI).toNat ≤ (p -
      (s.hif.rings[n]).cmdCI).toNat ∧ (p - (s.hif.rings[n]).cmdCI).toNat ≤ 2 ^ (s.hif.rings[n]).cmdLog2) ∧
    (∃ (fn : Fn) (page : Fin 256) (n : RingId) (p : Word) (s : State), BarOpen fn s ∧ page.val < doorbellPages fn ∧ pageRing fn page s = some (.pair n) ∧
      (s.hif.rings[n]).state = .running ∧ 2 ^ (s.hif.rings[n]).cmdLog2 < (p - (s.hif.rings[n]).cmdCI).toNat ∧ p ≠ (s.hif.rings[n]).cmdPI) ∧
    (∃ (fn : Fn) (page : Fin 256) (offset : Nat) (s : State), BarOpen fn s ∧ page.val < doorbellPages fn ∧ offset ≠ 0 ∧ offset ≠ 8) ∧
    (∃ (fn : Fn) (page : Fin 256) (n : RingId) (s : State), BarOpen fn s ∧ page.val < doorbellPages fn ∧ pageRing fn page s = some (.pair n) ∧
      (s.hif.rings[n]).state = .running) ∧
    (∃ (n : RingId) (bytes : List Byte) (buf : Buf) (found : Findings) (c : Instr) (s : State), s.sec.asked = none ∧ s.sec.restart = none ∧ mayFetch
      s.hif.rings[n] s.hif.fns[(s.hif.rings[n]).owner] = true ∧ s.flt.fatal = false ∧ s.boot.stage ≠ .recovery ∧ commandOf (leAt bytes 0 1)
      (Desc.ofBytes n bytes buf) found = some c ∧ (s.hif.rings[n]).wb = 0 ∧ preCheck (leAt bytes 0 1) (s.hif.rings[n]).owner (Desc.ofBytes n bytes
      buf) s = none) ∧
    (∃ (n : RingId) (s : State), s.sec.asked = none ∧ s.sec.restart = none ∧ mayFetch s.hif.rings[n] s.hif.fns[(s.hif.rings[n]).owner] = true) ∧
    (∃ (fn : Fn) (v : Fin 64) (s : State), BarOpen fn s ∧ ((s.hif.fns[fn]).vecs[v]).masked = true ∧ ((s.hif.fns[fn]).vecs[v]).pending = true ∧ inD3hot fn
      s = false) ∧
    (∃ (fn : Fn) (v : Fin 64) (s : State), ((s.hif.fns[fn]).vecs[v]).running = true ∧ ((s.hif.fns[fn]).vecs[v]).masked = false ∧ 0 <
      ((s.hif.fns[fn]).vecs[v]).timer ∧ inD3hot fn s = false) :=
  ⟨⟨0, 63, 63, 1, { serves with hif := { serves.hif with rings := (upd serves.hif.rings (63 : RingId) fun x => { x with state := .running }) } },
     by decide +kernel⟩,
   ⟨0, 63, 63, 0xFFFFFFFF, { serves with hif := { serves.hif with rings := (upd serves.hif.rings (63 : RingId) fun x => { x with state := .running }) } },
     by decide +kernel⟩,
   ⟨0, 255, 1, serves, by decide +kernel⟩,
   ⟨0, 63, 63, { serves with hif := { serves.hif with rings := (upd serves.hif.rings (63 : RingId) fun x => { x with state := .running }) } },
     by decide +kernel⟩,
   ⟨63, (1 :: List.replicate 63 0), .error, { sigOk := true, digestOk := true, keyOk := true, copyUe := false }, ((commandOf (leAt (1 :: List.replicate
     63 0) 0 1) (Desc.ofBytes 63 (1 :: List.replicate 63 0) (.error : Buf)) ({ sigOk := true, digestOk := true, keyOk := true, copyUe := false } :
     Findings)).get (by decide +kernel)), { serves with sec := { serves.sec with asked := none, restart := none }, flt := { serves.flt with fatal := false }, hif := { serves.hif with rings := (upd serves.hif.rings (63 : RingId) fun x => { x with wb := 0, state := .running, enable := true, cmdPI := 1 }) } },
     by decide +kernel⟩,
   ⟨63, { serves with sec := { serves.sec with asked := none, restart := none }, hif := { serves.hif with rings := (upd serves.hif.rings (63 : RingId) fun x => { x with state := .running, enable := true, cmdPI := 1 }) } },
     by decide +kernel⟩,
   ⟨0, 63, { serves with hif := { serves.hif with fns := (upd serves.hif.fns (0 : Fn) fun x => { x with vecs := (upd x.vecs (63 : Fin 64) fun x => { x with masked := true, pending := true }) }) } },
     by decide +kernel⟩,
   ⟨0, 63, { serves with hif := { serves.hif with fns := (upd serves.hif.fns (0 : Fn) fun x => { x with vecs := (upd x.vecs (63 : Fin 64) fun x => { x with running := true, masked := false, timer := 1 }) }) } },
     by decide +kernel⟩⟩

theorem witness_CompletionOfACommand :
    (∃ (iss : Issue) (st : Status) (s : State), answers iss s = true ∧ (s.hif.rings[iss.ring]).marker = some (s.time.epoch, s.evr.seqNext / 2 ^ 32) ∧ (st
      = .ok ∨ st = .superseded)) ∧
    (∃ (iss : Issue) (st : Status) (s : State), answers iss s = true ∧ (s.hif.rings[iss.ring]).marker ≠ some (s.time.epoch, s.evr.seqNext / 2 ^ 32) ∧ (st
      = .ok ∨ st = .superseded)) :=
  ⟨⟨iss0, .ok, { serves with hif := { serves.hif with rings := (upd (upd serves.hif.rings (iss0.ring) fun x => { x with marker := some (serves.time.epoch, serves.evr.seqNext / 2 ^ 32) }) 63 fun x => { x with state := .running }) } },
     by decide +kernel⟩,
   ⟨iss0, .ok, { serves with hif := { serves.hif with rings := (upd serves.hif.rings 63 fun x => { x with state := .running }) } }, by decide +kernel⟩⟩

theorem witness_HostCommandChecks :
    (∃ (op : Nat) (c : Instr) (d : Desc) (found : Findings) (s : State), commandOf op d found = some c ∧ mustHold d (s.held.any fun h => h.1 == d.ring) s
      = true) ∧
    (∃ (op : Nat) (c : Instr) (d : Desc) (found : Findings) (s : State), commandOf op d found = some c ∧ op ≠ 0x01 ∧ op ≠ 0x68 ∧ mustHold d (s.held.any
      fun h => h.1 == d.ring) s = false ∧ (s.flt.fatal = true ∨ s.boot.stage = .recovery)) ∧
    (∃ (op : Nat) (c : Instr) (d : Desc) (found : Findings) (s : State), commandOf op d found = some c ∧ tenantOpcode op = false ∧ mustHold d (s.held.any
      fun h => h.1 == d.ring) s = false ∧ s.flt.fatal = false ∧ s.boot.stage ≠ .recovery ∧ d.flags.toNat / 8 = 0 ∧ bufferCheck d = none ∧
      (s.hif.rings[d.ring]).owner ≠ 0) ∧
    (∃ (d : Desc) (s : State), Runs 0x01 d s ∧ nopCheck d = none) ∧
    (∃ (op : Nat) (c : Instr) (d : Desc) (found : Findings) (s : State), commandOf op d found = some c ∧ mustHold d (s.held.any fun h => h.1 == d.ring) s
      = false ∧ s.flt.fatal = false ∧ s.boot.stage ≠ .recovery ∧ d.flags.toNat / 8 ≠ 0) :=
  ⟨⟨1, ((commandOf 1 ({ cmd 0 [] with flags := 2 } : Desc) ({ sigOk := true, digestOk := true, keyOk := true, copyUe := false } : Findings)).get
     (by decide +kernel)), { cmd 0 [] with flags := 2 }, { sigOk := true, digestOk := true, keyOk := true, copyUe := false }, { serves with hif := { serves.hif with rings := (upd serves.hif.rings 63 fun x => { x with started := 1 }) } },
     by decide +kernel⟩,
   ⟨4, ((commandOf 4 (cmd 0 []) ({ sigOk := true, digestOk := true, keyOk := true, copyUe := false } : Findings)).get (by decide +kernel)), (cmd 0 []), { sigOk := true, digestOk := true, keyOk := true, copyUe := false },
     { serves with flt := { serves.flt with fatal := true } }, by decide +kernel⟩,
   ⟨4, ((commandOf 4 (cmd 0 []) ({ sigOk := true, digestOk := true, keyOk := true, copyUe := false } : Findings)).get (by decide +kernel)), (cmd 0 []), { sigOk := true, digestOk := true, keyOk := true, copyUe := false },
     { serves with flt := { serves.flt with fatal := false }, hif := { serves.hif with rings := (upd serves.hif.rings 63 fun x => { x with owner := 1 }) } },
     by decide +kernel⟩,
   ⟨(cmd 0 []), serves, by decide +kernel⟩,
   ⟨1, ((commandOf 1 ({ cmd 0 [] with flags := 8 } : Desc) ({ sigOk := true, digestOk := true, keyOk := true, copyUe := false } : Findings)).get
     (by decide +kernel)), { cmd 0 [] with flags := 8 }, { sigOk := true, digestOk := true, keyOk := true, copyUe := false }, { serves with flt := { serves.flt with fatal := false } },
     by decide +kernel⟩⟩

theorem witness_RecordsReachTheStoreAndTheMirror :
    (∃ (r : Record) (rest : List Record) (s : State), s.evr.staging = r :: rest ∧ s.evr.lostPending = 0) ∧
    (∃ (r : Record) (seq skipped : Nat) (s : State), s.hif.evr.state = .running ∧ (s.hif.fns[(0 : Fn)]).busMaster = true ∧ (s.hif.fns[(0 : Fn)]).d3hot =
      false ∧ nextToMirror s.evr = some (r, seq, skipped) ∧ eventRoom s.hif.evr (mirrorNeed r s.hif.evr) = true) ∧
    (∃ (r : Record) (seq skipped : Nat) (s : State), s.hif.evr.state = .running ∧ (s.hif.fns[(0 : Fn)]).busMaster = true ∧ (s.hif.fns[(0 : Fn)]).d3hot =
      false ∧ nextToMirror s.evr = some (r, seq, skipped) ∧ eventRoom s.hif.evr (mirrorNeed r s.hif.evr) = false ∧ s.evr.mirrorPaused = false) ∧
    (∃ (r : Record) (rest : List Record) (s : State), s.evr.staging = r :: rest ∧ s.evr.lostPending ≠ 0 ∧ rest.length ≤ unreserved { s.evr with staging := rest }) :=
  ⟨⟨rec1, [], { serves with evr := { serves.evr with staging := rec1 :: [], lostPending := 0 } }, by decide +kernel⟩,
   ⟨rec1, 6, 0, { serves with hif := { serves.hif with evr := { serves.hif.evr with state := .running }, fns := (upd serves.hif.fns (0 : Fn) fun x => { x with busMaster := true, d3hot := false }) }, evr := { serves.evr with store := [{ offset := 0, entry := rec1 }] } },
     by decide +kernel⟩,
   ⟨rec1, 6, 0, { serves with hif := { serves.hif with evr := { serves.hif.evr with state := .running, log2 := 16, prod := 65536 }, fns := (upd serves.hif.fns (0 : Fn) fun x => { x with busMaster := true, d3hot := false }) }, evr := { serves.evr with mirrorPaused := false, store := [{ offset := 0, entry := rec1 }] } },
     by decide +kernel⟩,
   ⟨rec1, [], { serves with evr := { serves.evr with staging := rec1 :: [], lostPending := 3 } }, by decide +kernel⟩⟩

theorem witness_RecordingAnEvent :
    (∃ (p : Payload) (sup : Nat) (e : Recorder) (s : State), rateCheck p s.time.mono s.evr = (e, some sup) ∧ unreserved e < 63) ∧
    (∃ (p : Payload) (sup : Nat) (e : Recorder) (s : State), rateCheck p s.time.mono s.evr = (e, some sup) ∧ 63 ≤ unreserved e) ∧
    (∃ (p : Payload) (e : Recorder) (s : State), rateCheck p s.time.mono s.evr = (e, none)) :=
  ⟨⟨.cfgEvent 0 1 2, 0, (rateCheck (.cfgEvent 0 1 2) serves.time.mono serves.evr).1, serves, Prod.ext rfl (by decide +kernel), by decide +kernel⟩,
   ⟨.cfgEvent 0 1 2, 0, (rateCheck (.cfgEvent 0 1 2) staged63.time.mono staged63.evr).1, staged63, Prod.ext rfl (by decide +kernel), by decide +kernel⟩,
   ⟨.event 1 0 1 0 0 0, (rateCheck (.event 1 0 1 0 0 0) dry.time.mono dry.evr).1, dry, Prod.ext rfl (by decide +kernel)⟩⟩

theorem witness_CountersCount :
    (∃ (d : Desc) (n : Fin 256) (s : State), Runs 0x58 d s ∧ d.unit .counter 256 = some n ∧ counterCfgCheck d s = none) ∧
    (∃ (d : Desc), bitOf (d.byte 15) 2 = false) ∧
    (∃ (n : Fin 256) (s : State), (s.pmc.cnt[n]).wrapRecord = false ∧ (s.pmc.cnt[n]).wrapDue = 0) ∧
    (∃ (n : Fin 256) (a : Nat) (s : State), (s.pmc.cnt[n]).wrapRecord = true ∧ (s.pmc.cnt[n]).wrapDue = 0 ∧ ((s.pmc.cnt[n]).count + a) / 2 ^ 48 = 1) ∧
    (∃ (d : Desc), bitOf (d.byte 15) 2 = true) :=
  ⟨⟨(cmd (target .counter 255) [(12, 2, 1)]), 255, serves, by decide +kernel⟩,
   ⟨(cmd 0 []), by decide +kernel⟩,
   ⟨255, { serves with pmc := { serves.pmc with cnt := (upd serves.pmc.cnt (255 : Fin 256) fun x => { x with wrapRecord := false, wrapDue := 0 }) } },
     by decide +kernel⟩,
   ⟨255, 1, { serves with pmc := { serves.pmc with cnt := (upd serves.pmc.cnt (255 : Fin 256) fun x => { x with wrapRecord := true, wrapDue := 0, count := 2 ^ 48 - 1 }) } },
     by decide +kernel⟩,
   ⟨(cmd 0 [(15, 1, 4)]), by decide +kernel⟩⟩

theorem witness_SnapshotsAreTakenAtTheirInstant :
    (∃ (d : Desc) (s : State), Runs 0x59 d s ∧ snapshotCheck d s = none ∧ bitOf (d.byte 24) 0 = false ∧ d.u 22 2 = 0) ∧
    (∃ (x : Snapshot) (rest : List Snapshot) (s : State), s.pmc.singles = x :: rest ∧ inD3hot 0 s = false) ∧
    (∃ (x : Snapshot), x.clear = true) ∧
    (∃ (d : Desc) (s : State), Runs 0x59 d s ∧ snapshotCheck d s = none ∧ bitOf (d.byte 24) 0 = false ∧ d.u 22 2 ≠ 0) ∧
    (∃ (d : Desc) (s : State), Runs 0x59 d s ∧ snapshotCheck d s = none ∧ bitOf (d.byte 24) 0 = true) ∧
    (∃ (x : Snapshot) (s : State), s.pmc.periodic = some x ∧ inD3hot 0 s = false ∧ x.index = 0) ∧
    (∃ (x : Snapshot) (rest : List Snapshot) (s : State), s.pmc.singles = x :: rest) :=
  ⟨⟨(cmd 0 [(20, 2, 1)]), serves, by decide +kernel⟩,
   ⟨{ issue := iss0, address := 0, slots := 1, period := 0, clear := true, next := 128, index := 0 }, [], { serves with pmc := { serves.pmc with singles := ({ issue := iss0, address := 0, slots := 1, period := 0, clear := true, next := 128, index := 0 } : Snapshot) :: [] } },
     by decide +kernel⟩,
   ⟨{ issue := iss0, address := 0, slots := 1, period := 0, clear := true, next := 128, index := 0 }, by decide +kernel⟩,
   ⟨(cmd 0 [(20, 2, 1), (22, 2, 1)]), serves, by decide +kernel⟩,
   ⟨(cmd 0 [(24, 1, 1)]), serves, by decide +kernel⟩,
   ⟨{ issue := iss0, address := 0, slots := 1, period := 0, clear := true, next := 128, index := 0 }, { serves with pmc := { serves.pmc with periodic := some ({ issue := iss0, address := 0, slots := 1, period := 0, clear := true, next := 128, index := 0 } : Snapshot) } },
     by decide +kernel⟩,
   ⟨{ issue := iss0, address := 0, slots := 1, period := 0, clear := true, next := 128, index := 0 }, [], { serves with pmc := { serves.pmc with singles := ({ issue := iss0, address := 0, slots := 1, period := 0, clear := true, next := 128, index := 0 } : Snapshot) :: [] } },
     by decide +kernel⟩⟩

theorem witness_FaultsAreCollected :
    (∃ (bad : List (Fin 320)) (s : State), ((cycleAssertions (bad.filter fun i => !isNotification i) s).any fun a => isFatal a.source) = false) ∧
    (∃ (bad : List (Fin 320)) (s : State), ((cycleAssertions (bad.filter fun i => !isNotification i) s).any fun a => isFatal a.source) = true) ∧
    (∃ (f : FirstFault) (s : State), s.flt.first = some f) ∧
    (∃ (bad : List (Fin 320)) (a : Assertion) (s : State), s.flt.first = none ∧ (cycleAssertions bad s).find? (·.real) = some a) ∧
    (∃ (a : Assertion), a.real = true) :=
  ⟨⟨[], serves, by decide +kernel⟩,
   ⟨[], unlisted, by rw [List.filter_nil, unlisted_asserts]; decide +kernel⟩,
   ⟨{ source := 3, severity := .degraded, injected := false, coincident := false, epoch := 0, stamp := 0 }, { serves with flt := { serves.flt with first := some ({ source := 3, severity := .degraded, injected := false, coincident := false, epoch := 0, stamp := 0 } : FirstFault) } },
     by decide +kernel⟩,
   ⟨[], assertion, unlisted, rfl, by rw [unlisted_asserts]; decide +kernel⟩,
   ⟨{ source := 319, real := true, inj := false, count := 2, injCount := 0, unit := 0, also := [], detail := 0, capture := false, stamp := 0, epoch := 0 },
     by decide +kernel⟩⟩

theorem witness_DumpsAndClears :
    (∃ (h : DumpHeader) (s : State), s.flt.dump.phase = .assembling ∧ s.flt.dump.current = some h ∧ s.flt.dump.registered.isSome = true) ∧
    (∃ (h : DumpHeader) (s : State), s.flt.dump.phase = .assembling ∧ s.flt.dump.current = some h ∧ s.flt.dump.registered = none) ∧
    (∃ (a n : Nat) (h : DumpHeader) (s : State), s.flt.dump.phase = .writing ∧ s.flt.dump.current = some h ∧ s.flt.dump.registered = some (a, n) ∧
      dumpReachable s = true) ∧
    (∃ (d : Desc) (s : State), Runs 0x68 d s ∧ dumpCheck d = none ∧ bitOf (d.byte 24) 0 = false ∧ s.flt.dump.retained = none ∧ (s.flt.dump.phase = .idle ∨
      s.flt.dump.phase = .done)) ∧
    (∃ (d : Desc) (s : State), Runs 0x68 d s ∧ dumpCheck d = none ∧ bitOf (d.byte 24) 0 = true) ∧
    (∃ (h : DumpHeader) (s : State), s.flt.dump.phase = .writing ∧ s.flt.dump.current = some h) ∧
    (∃ (d : Desc) (s : State), Runs 0x68 d s ∧ dumpCheck d = none ∧ bitOf (d.byte 24) 0 = false ∧ (s.flt.dump.phase = .assembling ∨ s.flt.dump.phase =
      .writing)) ∧
    (∃ (d : Desc) (h : DumpHeader) (s : State), Runs 0x68 d s ∧ dumpCheck d = none ∧ bitOf (d.byte 24) 0 = false ∧ s.flt.dump.retained = some h ∧
      (s.flt.dump.phase = .idle ∨ s.flt.dump.phase = .done)) ∧
    (∃ (s : State), BarOpen 0 s) ∧
    (∃ (d : Desc) (i : Fin 320) (s : State), Runs 0x51 d s ∧ d.indirect = false ∧ d.unit .errorSource 320 = some i ∧ isNotification i = false ∧ firstFail
      [d.strayCheck []] = none ∧ clearableSource i s = true) ∧
    (∃ (d : Desc) (s : State), Runs 0x51 d s ∧ d.indirect = false ∧ d.tgt = 0 ∧ d.unit .errorSource 320 = none ∧ d.byte 12 = 6 ∧ firstFail [d.strayCheck
      [(12, 1)]] = none) ∧
    (∃ (d : Desc) (i : Fin 320) (s : State), Runs 0x51 d s ∧ d.indirect = false ∧ d.unit .errorSource 320 = some i ∧ isNotification i = false ∧ firstFail
      [d.strayCheck []] = none ∧ clearableSource i s = false) ∧
    (∃ (d : Desc) (s : State), Runs 0x51 d s ∧ d.indirect = false ∧ d.tgt = 0 ∧ d.unit .errorSource 320 = none ∧ inRange 1 7 (d.byte 12) = true ∧
      firstFail [d.strayCheck [(12, 1)]] = none) :=
  ⟨⟨dumped, { serves with flt := { serves.flt with dump := { serves.flt.dump with phase := .assembling, current := some dumped, registered := some (0, 1048576) } } },
     by decide +kernel⟩,
   ⟨dumped, { serves with flt := { serves.flt with dump := { serves.flt.dump with phase := .assembling, current := some dumped, registered := none } } },
     by decide +kernel⟩,
   ⟨0, 1048576, dumped, { serves with flt := { serves.flt with dump := { serves.flt.dump with phase := .writing, current := some dumped, registered := some (0, 1048576) } }, hif := { serves.hif with linkWidth := 16 } },
     by decide +kernel⟩,
   ⟨(cmd 0 [(20, 4, 1048576)]), { serves with flt := { serves.flt with dump := { serves.flt.dump with retained := none } } }, by decide +kernel⟩,
   ⟨(cmd 0 [(24, 1, 1)]), serves, by decide +kernel⟩,
   ⟨dumped, { serves with flt := { serves.flt with dump := { serves.flt.dump with phase := .writing, current := some dumped } } }, by decide +kernel⟩,
   ⟨(cmd 0 [(20, 4, 1048576)]), { serves with flt := { serves.flt with dump := { serves.flt.dump with phase := .assembling } } }, by decide +kernel⟩,
   ⟨(cmd 0 [(20, 4, 1048576)]), dumped, { serves with flt := { serves.flt with dump := { serves.flt.dump with retained := some dumped } } },
     by decide +kernel⟩,
   ⟨serves, by decide +kernel⟩,
   ⟨(cmd (target .errorSource 319) []), 319, serves, by decide +kernel⟩,
   ⟨(cmd (0) [(12, 1, 6)]), serves, by decide +kernel⟩,
   ⟨(cmd (target .errorSource 0) []), 0, { serves with flt := { serves.flt with sources := (upd serves.flt.sources 0 fun x => { x with cond := true }) } },
     by decide +kernel⟩,
   ⟨(cmd (0) [(12, 1, 7)]), serves, by decide +kernel⟩⟩

theorem witness_InjectionsAndSelftests :
    (∃ (d : Desc) (src : Fin 320) (s : State), Runs 0x52 d s ∧ injectCheck d s = none ∧ d.unit .errorSource 320 = some src) ∧
    (∃ (src : Fin 320) (x : Injection) (s : State), (s.flt.injections.find? fun x => x.source == src && !x.fired) = some x ∧ x.isHold = false) ∧
    (∃ (src : Fin 320) (x : Injection) (s : State), (s.flt.injections.find? fun x => x.source == src && !x.fired) = some x ∧ x.isHold = true) ∧
    (∃ (src : Fin 320) (x : Injection) (s : State), (s.flt.injections.find? fun x => x.source == src && x.fired && x.isHold) = some x) ∧
    (∃ (d : Desc) (p : Fin 32) (s : State), Runs 0x50 d s ∧ d.indirect = false ∧ firstFail [d.strayCheck []] = none ∧ d.tgt = target .rxPort p ∧ rxRetired
      p s = false ∧ (s.tiles.tile[tileOf p]).state = .synthOn ∧ testOf .rxPort p s = none) ∧
    (∃ (d : Desc) (p : Fin 32) (s : State), Runs 0x50 d s ∧ d.indirect = false ∧ firstFail [d.strayCheck []] = none ∧ d.tgt = target .txPort p ∧ txRetired
      p s = false ∧ (s.tiles.tile[tileOf p]).state = .synthOn ∧ testOf .txPort p s = none) ∧
    (∃ (d : Desc) (c : Fin 8) (s : State), Runs 0x50 d s ∧ d.indirect = false ∧ firstFail [d.strayCheck []] = none ∧ d.tgt = target .madc c ∧ madcRetired
      c s = false ∧ testOf .madc c s = none) ∧
    (∃ (d : Desc) (e : Fin 64) (s : State), Runs 0x50 d s ∧ d.indirect = false ∧ firstFail [d.strayCheck []] = none ∧ d.tgt = target .engine e) ∧
    (∃ (d : Desc) (b : Fin 48) (s : State), Runs 0x50 d s ∧ d.indirect = false ∧ firstFail [d.strayCheck []] = none ∧ d.tgt = target .bank b) ∧
    (∃ (d : Desc) (l : Fin 64) (s : State), Runs 0x50 d s ∧ d.indirect = false ∧ firstFail [d.strayCheck []] = none ∧ d.tgt = target .lane l) :=
  ⟨⟨(cmd (target .errorSource 192) [(24, 4, 83886080)]), 192, { serves with flt := { serves.flt with injectEnable := true } }, by decide +kernel⟩,
   ⟨319, inject, { serves with flt := { serves.flt with injections := [inject] } }, by decide +kernel⟩,
   ⟨319, { inject with isHold := true }, { serves with flt := { serves.flt with injections := [{ inject with isHold := true }] } }, by decide +kernel⟩,
   ⟨319, { inject with isHold := true, fired := true }, { serves with flt := { serves.flt with injections := [{ inject with isHold := true, fired := true }] } },
     by decide +kernel⟩,
   ⟨(cmd (target .rxPort 31) []), 31, { serves with tiles := { serves.tiles with tile := (upd serves.tiles.tile (tileOf 31) fun x => { x with state := .synthOn }) } },
     by decide +kernel⟩,
   ⟨(cmd (target .txPort 31) []), 31, { serves with tiles := { serves.tiles with tile := (upd serves.tiles.tile (tileOf 31) fun x => { x with state := .synthOn }) } },
     by decide +kernel⟩,
   ⟨(cmd (target .madc 7) []), 7, serves, by decide +kernel⟩,
   ⟨(cmd (target .engine 63) []), 63, serves, by decide +kernel⟩,
   ⟨(cmd (target .bank 47) []), 47, serves, by decide +kernel⟩,
   ⟨(cmd (target .lane 63) []), 63, serves, by decide +kernel⟩⟩

theorem witness_StationTimeReadsAndLoss :
    (∃ (fn : Fn) (s : State), BarOpen fn s) ∧
    (∃ (source : Bool) (s : State), s.time.source ≠ source ∧ s.time.state = .aligned) ∧
    (∃ (source : Bool) (s : State), s.time.source ≠ source ∧ s.time.state ≠ .aligned) ∧
    (∃ (s : State), s.time.state = .aligned) ∧
    (∃ (width : Nat) (s : State), s.time.source = false ∧ width < 100) ∧
    (∃ (capture width active : Nat) (u : StationTime) (s : State), s.time.source = false ∧ 100 ≤ width ∧ judgePolarity active (takeEdge capture
      s.time.ppsDelay .ppsAlign (onTime (fun t => { t with linkAccuracy := none }) (advanceTo capture s))).time = (u, false)) ∧
    (∃ (s : State), s.time.outMode = 2) ∧
    (∃ (capture width active : Nat) (u : StationTime) (s : State), s.time.source = false ∧ 100 ≤ width ∧ judgePolarity active (takeEdge capture
      s.time.ppsDelay .ppsAlign (onTime (fun t => { t with linkAccuracy := none }) (advanceTo capture s))).time = (u, true)) ∧
    (∃ (s : State), s.time.source = true) ∧
    (∃ (s : State), s.time.outMode = 1 ∧ s.time.state = .aligned) :=
  ⟨⟨0, serves, by decide +kernel⟩,
   ⟨true, { serves with time := { serves.time with state := .aligned } }, by decide +kernel⟩,
   ⟨true, serves, by decide +kernel⟩,
   ⟨{ serves with time := { serves.time with state := .aligned } }, by decide +kernel⟩,
   ⟨1, { serves with time := { serves.time with source := false } }, by decide +kernel⟩,
   ⟨1, 100, 1, (judgePolarity 1 (takeEdge 1 serves.time.ppsDelay .ppsAlign (onTime (fun t => { t with linkAccuracy := none }) (advanceTo 1
     serves))).time).1, { serves with time := { serves.time with source := false } }, by decide +kernel⟩,
   ⟨{ serves with time := { serves.time with outMode := 2 } }, by decide +kernel⟩,
   ⟨1, 100, 700000000, (judgePolarity 700000000 (takeEdge 1 longPulse.time.ppsDelay .ppsAlign (onTime (fun t => { t with linkAccuracy := none })
     (advanceTo 1 longPulse))).time).1, { longPulse with time := { longPulse.time with source := false } }, by decide +kernel⟩,
   ⟨{ serves with time := { serves.time with source := true } }, by decide +kernel⟩,
   ⟨{ serves with time := { serves.time with outMode := 1, state := .aligned } }, by decide +kernel⟩⟩

theorem witness_StationTimeIsSet :
    (∃ (d : Desc) (s : State), Runs 0x08 d s ∧ timeSetCheck d = none ∧ d.u 12 1 = 0 ∧ s.time.state ≠ .aligned ∧ s.time.step = none) ∧
    (∃ (d : Desc) (s : State), Runs 0x08 d s ∧ timeSetCheck d = none ∧ d.u 12 1 = 0 ∧ s.time.state = .aligned) ∧
    (∃ (d : Desc) (s : State), Runs 0x08 d s ∧ timeSetCheck d = none ∧ d.u 12 1 = 1) ∧
    (∃ (p : PendingSeconds) (s : State), s.time.seconds = some p) ∧
    (∃ (p : PendingStep) (s : State), s.time.step = some p ∧ s.time.q ≤ p.strobe) ∧
    (∃ (d : Desc) (s : State), Runs 0x08 d s ∧ timeSetCheck d = none ∧ d.u 12 1 = 2 ∧ s.time.state ≠ .aligned ∧ s.time.step = none ∧ 0 ≤ ((stepStrobe
      s.tdd (d.s 16 8) s.now : Nat) : Int) + d.s 16 8) :=
  ⟨⟨(cmd 0 []), { serves with time := { serves.time with step := none } }, by decide +kernel⟩,
   ⟨(cmd 0 []), { serves with time := { serves.time with state := .aligned } }, by decide +kernel⟩,
   ⟨(cmd 0 [(12, 1, 1)]), serves, by decide +kernel⟩,
   ⟨{ seconds := 5, issue := iss0 }, { serves with time := { serves.time with seconds := some ({ seconds := 5, issue := iss0 } : PendingSeconds) } },
     by decide +kernel⟩,
   ⟨{ delta := -4, toValue := none, strobe := 128, cause := .ppsAlign, newState := .aligned, baseError := 0, edge := some 0, issue := some iss0 }, { serves with time := { serves.time with step := some ({ delta := -4, toValue := none, strobe := 128, cause := .ppsAlign, newState := .aligned, baseError := 0, edge := some 0, issue := some iss0 } : PendingStep) } },
     by decide +kernel⟩,
   ⟨(cmd 0 [(12, 1, 2)]), { serves with time := { serves.time with step := none } }, by decide +kernel⟩⟩

theorem witness_TddTiming :
    (∃ (d : Desc) (bs : List Byte) (i : Fin 8) (p : Pattern) (s : State), Runs 0x09 d s ∧ d.bytes = some bs ∧ patternSetCheck d bs s = none ∧ patternOf bs
      = some (i, p)) ∧
    (∃ (i : Fin 8) (p : Pattern) (s : State), (s.tdd.timers[i]).incoming = none ∧ (s.tdd.timers[i]).pattern = some p ∧ (s.tdd.timers[i]).change = none) ∧
    (∃ (pair : Fin 32) (x : Nat) (s : State), nextSwitch pair s = some x) ∧
    (∃ (i : Fin 8) (c : PatternChange) (p : Pattern) (s : State), (s.tdd.timers[i]).incoming = some c ∧ c.pattern = some p) :=
  ⟨⟨(cmdBuf 0 [(20, 1, 7)] [7, 7, 4, 0, 0, 0, 0, 0, 255, 0, 10, 0, 0, 0, 0, 0, 0xC0, 0xC6, 0x2D, 0, 0xA0, 0x86, 1, 4, 0x40, 0x77, 0x1B, 2, 0xA0, 0x86,
     1, 4]), [7, 7, 4, 0, 0, 0, 0, 0, 255, 0, 10, 0, 0, 0, 0, 0, 0xC0, 0xC6, 0x2D, 0, 0xA0, 0x86, 1, 4, 0x40, 0x77, 0x1B, 2, 0xA0, 0x86, 1, 4], 7,
     pattern, serves, by decide +kernel⟩,
   ⟨7, pattern, { serves with tdd := { serves.tdd with timers := (upd serves.tdd.timers (7 : Fin 8) fun x => { x with incoming := none, pattern := some pattern, change := none }) } },
     by decide +kernel⟩,
   ⟨31, 12000000, tddRuns, by decide +kernel⟩,
   ⟨7, { pattern := some pattern, x := 4000000, issue := some iss0 }, ((({ pattern := some pattern, x := 4000000, issue := some iss0 } :
     PatternChange).pattern).get (by decide +kernel)), { serves with tdd := { serves.tdd with timers := (upd serves.tdd.timers (7 : Fin 8) fun x => { x with incoming := some ({ pattern := some pattern, x := 4000000, issue := some iss0 } : PatternChange) }) } },
     by decide +kernel⟩⟩

theorem witness_PatternInference :
    (∃ (d : Desc) (sl : SliceId) (i : Fin 8) (s : State), Runs 0x0A d s ∧ inferCheck d s = none ∧ d.unit .slice 256 = some sl ∧ finOf 8 (d.u 12 1) = some
      i) ∧
    (∃ (i : Fin 8) (p : Pattern) (s : State), (s.tdd.timers[i]).pattern = some p ∧ p.inferInterval ≠ 0 ∧ s.tdd.infer = none ∧ observable p.inferSlice s =
      true) ∧
    (∃ (x : Inference) (s : State), s.tdd.infer = some x ∧ inferProposal x.timer x.gap (inferBin (((liveDef x.slice s).map (·.k)).getD 0)) (x.start.getD 0
      / 4) x.bins.reverse = none ∧ x.issue = none) ∧
    (∃ (x : Inference) (y : Proposal) (s : State), s.tdd.infer = some x ∧ inferProposal x.timer x.gap (inferBin (((liveDef x.slice s).map (·.k)).getD 0))
      (x.start.getD 0 / 4) x.bins.reverse = some y ∧ patternValid { period := y.period, offset := y.offset, segs := y.segs, autoAdopt := false, inferSlice := 0, inferInterval := 0 }
      (timerSwitch x.timer s) = true) ∧
    (∃ (x : Inference) (i : Issue) (s : State), s.tdd.infer = some x ∧ inferProposal x.timer x.gap (inferBin (((liveDef x.slice s).map (·.k)).getD 0))
      (x.start.getD 0 / 4) x.bins.reverse = none ∧ x.issue = some i) :=
  ⟨⟨(cmd (target .slice 255) [(12, 1, 7)]), 255, 7, sliced, by decide +kernel⟩,
   ⟨7, pattern, { sliced with tdd := { sliced.tdd with timers := (upd sliced.tdd.timers (7 : Fin 8) fun x => { x with pattern := some pattern }), infer := none } },
     by decide +kernel⟩,
   ⟨{ issue := none, slice := 255, timer := 7, gap := 100, observe := 100, start := some 0, bins := [] }, { serves with tdd := { serves.tdd with infer := some ({ issue := none, slice := 255, timer := 7, gap := 100, observe := 100, start := some 0, bins := [] } : Inference) } },
     by decide +kernel⟩,
   ⟨{ issue := none, slice := 255, timer := 7, gap := 100, observe := 100, start := some 0, bins := bins13 }, { period := 0, offset := 0, segs := [⟨262144, .dl⟩, ⟨100, .gap⟩, ⟨237656, .ul⟩, ⟨100, .gap⟩], agreement := 1000, timer := 7, binLen := 32768 },
     { sliced with tdd := { sliced.tdd with infer := some ({ issue := none, slice := 255, timer := 7, gap := 100, observe := 100, start := some 0, bins := bins13 } : Inference) }, slices := { sliced.slices with slice := (upd sliced.slices.slice 255 fun x => { x with live := some { par with defn := { defn with k := 13 } } }) } },
     by decide +kernel⟩,
   ⟨{ issue := some iss0, slice := 255, timer := 7, gap := 100, observe := 100, start := some 0, bins := [] }, iss0, { serves with tdd := { serves.tdd with infer := some ({ issue := some iss0, slice := 255, timer := 7, gap := 100, observe := 100, start := some 0, bins := [] } : Inference) } },
     by decide +kernel⟩⟩

theorem witness_RadioStates :
    (∃ (d : Desc) (p : Fin 32) (s : State), Runs 0x10 d s ∧ radioUnit d.tgt = some (.rx p) ∧ isPair p s = false ∧ radioChecks (.rx p) (d.byte 12) (d.byte
      13) s = none ∧ firstFail [d.strayCheck [(12, 2)], (d.byte 12 == 4 && (thawing s || anyCritical s), refuseTarget .tempRange d.tgt)] = none) ∧
    (∃ (p : Fin 32) (s : State), ((s.tiles.rx[p]).radio).state ≠ ((s.tiles.rx[p]).radio).target ∧ mayReach (.rx p) (nextState
      ((s.tiles.rx[p]).radio).state ((s.tiles.rx[p]).radio).target) s = true ∧ mayReach (.rx p) ((s.tiles.rx[p]).radio).target s = true) ∧
    (∃ (i : Fin 4) (s : State), (s.tiles.tile[i]).relock = false ∧ (s.tiles.tile[i]).standbyCal = none) ∧
    (∃ (i : Fin 4) (s : State), (s.tiles.tile[i]).state ≠ .synthOn ∧ ((s.tiles.tile[i]).relock = true ∨ tileNeed i s = .synthOn)) ∧
    (∃ (p : Fin 32) (s : State), isPair p s = false ∧ ((s.tiles.rx[p]).radio).issue.isSome = true ∧ ((s.tiles.rx[p]).radio).target = .active ∧
      (s.tiles.tile[tileOf p]).relock = true) ∧
    (∃ (d : Desc) (p : Fin 32) (s : State), Runs 0x10 d s ∧ radioUnit d.tgt = some (.tx p) ∧ isPair p s = false ∧ radioChecks (.tx p) (d.byte 12) (d.byte
      13) s = none ∧ firstFail [d.strayCheck [(12, 2)], (d.byte 12 == 4 && (thawing s || anyCritical s), refuseTarget .tempRange d.tgt)] = none) ∧
    (∃ (d : Desc) (p : Fin 32) (s : State), Runs 0x10 d s ∧ (radioUnit d.tgt = some (.rx p) ∨ radioUnit d.tgt = some (.tx p)) ∧ isPair p s = true ∧
      radioChecks (.rx p) (d.byte 12) (d.byte 13) s = none ∧ firstFail [d.strayCheck [(12, 2)], (d.byte 12 == 4 && (thawing s || anyCritical s),
      refuseTarget .tempRange d.tgt)] = none) ∧
    (∃ (d : Desc) (i : Fin 4) (s : State), Runs 0x10 d s ∧ radioUnit d.tgt = some (.tile i) ∧ radioChecks (.tile i) (d.byte 12) (d.byte 13) s = none ∧
      firstFail [d.strayCheck [(12, 2)], (d.byte 12 == 4 && (thawing s || anyCritical s), refuseTarget .tempRange d.tgt)] = none) ∧
    (∃ (p : Fin 32) (s : State), ((s.tiles.tx[p]).radio).state ≠ ((s.tiles.tx[p]).radio).target ∧ mayReach (.tx p) (nextState
      ((s.tiles.tx[p]).radio).state ((s.tiles.tx[p]).radio).target) s = true ∧ mayReach (.tx p) ((s.tiles.tx[p]).radio).target s = true) ∧
    (∃ (p : Fin 32) (s : State), isPair p s = false ∧ ((s.tiles.tx[p]).radio).issue.isSome = true ∧ ((s.tiles.tx[p]).radio).target = .active ∧
      (s.tiles.tile[tileOf p]).relock = true) :=
  ⟨⟨cmd (target .rxPort 31) [(12, 1, 1)], 31, serves, by decide +kernel, by decide +kernel, pair_of_quiet _ _ serves_quiet, by decide +kernel,
     by decide +kernel⟩,
   ⟨31, { serves with tiles := { serves.tiles with rx := (upd serves.tiles.rx (31 : Fin 32) fun x => { x with radio := { x.radio with target := .standby } }), tile := (upd serves.tiles.tile 3 fun x => { x with state := .standby }) } },
     by decide +kernel⟩,
   ⟨3, { serves with tiles := { serves.tiles with tile := (upd serves.tiles.tile (3 : Fin 4) fun x => { x with relock := false, standbyCal := none }) } },
     by decide +kernel⟩,
   ⟨3, { serves with tiles := { serves.tiles with tile := (upd serves.tiles.tile (3 : Fin 4) fun x => { x with relock := true }) } }, by decide +kernel⟩,
   ⟨31, { serves with tiles := { serves.tiles with rx := (upd serves.tiles.rx 31 fun x => { x with radio := { x.radio with target := .active, issue := some iss0 } }), tile := (upd serves.tiles.tile (tileOf 31) fun x => { x with relock := true }) } },
     pair_of_quiet _ _ serves_quiet, by decide +kernel, by decide +kernel, by decide +kernel⟩,
   ⟨cmd (target .txPort 31) [(12, 1, 1)], 31, serves, by decide +kernel, by decide +kernel, pair_of_quiet _ _ serves_quiet, by decide +kernel,
     by decide +kernel⟩,
   ⟨(cmd (target .rxPort 31) [(12, 1, 1)]), 31, tddRuns, by decide +kernel⟩,
   ⟨(cmd (target .tile 3) [(12, 1, 1)]), 3, serves, by decide +kernel⟩,
   ⟨31, { serves with tiles := { serves.tiles with tx := (upd serves.tiles.tx (31 : Fin 32) fun x => { x with radio := { x.radio with target := .standby } }), tile := (upd serves.tiles.tile 3 fun x => { x with state := .standby }) } },
     by decide +kernel⟩,
   ⟨31, { serves with tiles := { serves.tiles with tx := (upd serves.tiles.tx 31 fun x => { x with radio := { x.radio with target := .active, issue := some iss0 } }), tile := (upd serves.tiles.tile (tileOf 31) fun x => { x with relock := true }) } },
     pair_of_quiet _ _ serves_quiet, by decide +kernel, by decide +kernel, by decide +kernel⟩⟩

theorem witness_TilesResetAndRelock :
    (∃ (s : State), BarOpen 0 s ∧ s.boot.heldBy = .nothing) ∧
    (∃ (i : Fin 4) (s : State), (s.tiles.tile[i]).state = .synthOn) ∧
    (∃ (i : Fin 4) (s : State), (s.tiles.tile[i]).relock = true ∧ (s.tiles.tile[i]).standbyCal = none) ∧
    (∃ (key : Half) (s : State), BarOpen 0 s ∧ key ≠ 0x6144) :=
  ⟨⟨{ serves with boot := { serves.boot with heldBy := .nothing } }, by decide +kernel⟩,
   ⟨3, { serves with tiles := { serves.tiles with tile := (upd serves.tiles.tile (3 : Fin 4) fun x => { x with state := .synthOn }) } },
     by decide +kernel⟩,
   ⟨3, { serves with tiles := { serves.tiles with tile := (upd serves.tiles.tile (3 : Fin 4) fun x => { x with relock := true, standbyCal := none }) } },
     by decide +kernel⟩,
   ⟨1, serves, by decide +kernel⟩⟩

theorem witness_PortEvents :
    (∃ (p : Fin 32) (s : State), (s.tiles.rx[p]).spareInUse = false ∧ 2 ≤ portRank (s.tiles.rx[p]).radio.state) ∧
    (∃ (p : Fin 32) (s : State), (s.tiles.rx[p]).converged = false) ∧
    (∃ (p : Fin 32) (s : State), (s.tiles.rx[p]).peak ≤ (s.tiles.rx[p]).ovrThresh) ∧
    (∃ (p : Fin 32) (s : State), (s.tiles.tx[p]).loadCheck = true ∧ (s.tiles.tx[p]).output ≠ .off ∧ (s.nps.port[p]).reflectedEnable = true ∧
      (s.nps.port[p]).reflected = false) ∧
    (∃ (p : Fin 32) (x : SelfTest) (s : State), testOf .rxPort p s = some x) ∧
    (∃ (p : Fin 32) (occ : Fin 33) (s : State), (s.tiles.tile[tileOf p]).queueAligned = true ∧ (s.dfe.queue[p]).rxAligned + 1 < occ.val) ∧
    (∃ (s : State), BarOpen 0 s) ∧
    (∃ (m : Fin 32) (s : State), s.sig.spareDdc[tileOf m] ≤ s.time.mono) ∧
    (∃ (m : Fin 32) (s : State), s.time.mono < s.sig.spareDdc[tileOf m]) ∧
    (∃ (m : Fin 32) (s : State), s.sig.spareDuc[tileOf m] ≤ s.time.mono) ∧
    (∃ (sl : SliceId) (d : SliceDef) (e : Fin 64) (s : State), liveDef sl s = some d ∧ ((s.plc.placed[sl]).live).bind (·.engines.head?) = some e ∧
      s.sig.spareEngine[e] ≤ s.time.mono) ∧
    (∃ (p : Fin 32) (occ : Fin 33) (s : State), (s.tiles.tile[tileOf p]).queueAligned = true ∧ (s.dfe.queue[p]).txAligned + 1 < occ.val) ∧
    (∃ (p : Fin 32) (x : SelfTest) (s : State), testOf .rxPort p s = some x ∧ (s.tiles.rx[p]).spareInUse = false) ∧
    (∃ (p : Fin 32) (x : SelfTest) (s : State), testOf .txPort p s = some x) :=
  ⟨⟨31, { serves with tiles := { serves.tiles with rx := (upd serves.tiles.rx (31 : Fin 32) fun x => { x with spareInUse := false, radio := { x.radio with state := .synthOn } }) } },
     by decide +kernel⟩,
   ⟨31, { serves with tiles := { serves.tiles with rx := (upd serves.tiles.rx (31 : Fin 32) fun x => { x with converged := false }) } },
     by decide +kernel⟩,
   ⟨31, { serves with tiles := { serves.tiles with rx := (upd serves.tiles.rx (31 : Fin 32) fun x => { x with peak := 0 }) } }, by decide +kernel⟩,
   ⟨31, { serves with tiles := { serves.tiles with tx := (upd serves.tiles.tx (31 : Fin 32) fun x => { x with loadCheck := true, output := .on }) }, nps := { serves.nps with port := (upd serves.nps.port (31 : Fin 32) fun x => { x with reflectedEnable := true, reflected := false }) } },
     by decide +kernel⟩,
   ⟨31, ((testOf .rxPort 31 { serves with flt := { serves.flt with selftests := [{ kind := .rxPort, index := 31, source := 61, injectedOnly := false, hosts := [iss0] }] } }).get
     (by decide +kernel)), { serves with flt := { serves.flt with selftests := [{ kind := .rxPort, index := 31, source := 61, injectedOnly := false, hosts := [iss0] }] } },
     by decide +kernel⟩,
   ⟨31, 32, { serves with tiles := { serves.tiles with tile := (upd serves.tiles.tile (tileOf 31) fun x => { x with queueAligned := true }) } },
     by decide +kernel⟩,
   ⟨serves, by decide +kernel⟩,
   ⟨31, serves, by decide +kernel⟩,
   ⟨31, { serves with sig := { serves.sig with spareDdc := (upd serves.sig.spareDdc (tileOf 31) fun _ => 1) } }, by decide +kernel⟩,
   ⟨31, serves, by decide +kernel⟩,
   ⟨255, defn, 7, placed, by decide +kernel⟩,
   ⟨31, 32, { serves with tiles := { serves.tiles with tile := (upd serves.tiles.tile (tileOf 31) fun x => { x with queueAligned := true }) } },
     by decide +kernel⟩,
   ⟨31, ((testOf .rxPort 31 { serves with tiles := { serves.tiles with rx := (upd serves.tiles.rx (31 : Fin 32) fun x => { x with spareInUse := false }) }, flt := { serves.flt with selftests := [{ kind := .rxPort, index := 31, source := 61, injectedOnly := false, hosts := [] }] } }).get
     (by decide +kernel)), { serves with tiles := { serves.tiles with rx := (upd serves.tiles.rx (31 : Fin 32) fun x => { x with spareInUse := false }) }, flt := { serves.flt with selftests := [{ kind := .rxPort, index := 31, source := 61, injectedOnly := false, hosts := [] }] } },
     by decide +kernel⟩,
   ⟨31, ((testOf .txPort 31 { serves with flt := { serves.flt with selftests := [{ kind := .txPort, index := 31, source := 62, injectedOnly := false, hosts := [] }] } }).get
     (by decide +kernel)), { serves with flt := { serves.flt with selftests := [{ kind := .txPort, index := 31, source := 62, injectedOnly := false, hosts := [] }] } },
     by decide +kernel⟩⟩

theorem witness_SynthesiserPreparation :
    (∃ (d : Desc) (i : Fin 4) (y : Fin 2) (s : State), Runs 0x11 d s ∧ synthUnit d.tgt = some (i, y) ∧ (s.tiles.tile[i]).state = .standby ∧ d.byte 12 ≤ 1
      ∧ firstFail [d.strayCheck [(12, 1)]] = none ∧ synthBusy i s = false) ∧
    (∃ (d : Desc) (i : Fin 4) (y : Fin 2) (s : State), Runs 0x11 d s ∧ synthUnit d.tgt = some (i, y) ∧ (s.tiles.tile[i]).state = .synthOn ∧ d.byte 12 ≤ 1
      ∧ firstFail [d.strayCheck [(12, 1)]] = none ∧ synthBusy i s = false ∧ twinFailed i s = false) ∧
    (∃ (d : Desc) (i : Fin 4) (s : State), Runs 0x12 d s ∧ d.unit .tile 4 = some i ∧ (s.tiles.tile[i]).state = .synthOn ∧ d.u 12 8 = 0 ∧ firstFail
      [d.strayCheck [(12, 8)]] = none ∧ synthBusy i s = false ∧ twinFailed i s = false) ∧
    (∃ (i : Fin 4) (x : Nat) (s : State), (s.tiles.tile[i]).deltaSince = some x ∧ (s.tiles.tile[i]).state = .synthOn ∧ (s.tiles.tile[i]).autoCal = true ∧
      twinFailed i s = false ∧ (s.tiles.tile[i]).prep = none) ∧
    (∃ (i : Fin 4) (s : State), twinReady i s = false) ∧
    (∃ (i : Fin 4) (c : StandbyCal) (s : State), (s.tiles.tile[i]).standbyCal = some c) ∧
    (∃ (i : Fin 4) (p : Prep) (s : State), (s.tiles.tile[i]).prep = some p ∧ p.step = .preparing ∧ p.handover = true) ∧
    (∃ (i : Fin 4) (p : Prep) (s : State), (s.tiles.tile[i]).prep = some p ∧ p.step ≠ .switched ∧ ((s.tiles.tile[i]).syn[twinOf
      s.tiles.tile[i]]).failCount < 2) ∧
    (∃ (i : Fin 4) (p : Prep) (s : State), (s.tiles.tile[i]).prep = some p ∧ p.step ≠ .switched ∧ 2 ≤ ((s.tiles.tile[i]).syn[twinOf
      s.tiles.tile[i]]).failCount) ∧
    (∃ (i : Fin 4) (x : Nat) (s : State), (s.tiles.tile[i]).retryAt = some x ∧ (s.tiles.tile[i]).prep = none ∧ (s.tiles.tile[i]).state = .synthOn) ∧
    (∃ (d : Desc) (i : Fin 4) (s : State), Runs 0x12 d s ∧ d.unit .tile 4 = some i ∧ (s.tiles.tile[i]).state = .synthOn ∧ d.u 12 8 ≠ 0 ∧ s.now + 80000000
      ≤ instantOf s.now (d.u 12 8) ∧ firstFail [d.strayCheck [(12, 8)]] = none ∧ synthBusy i s = false ∧ twinFailed i s = false) ∧
    (∃ (i : Fin 4) (x : Nat) (s : State), (s.tiles.tile[i]).deltaSince = some x ∧ (s.tiles.tile[i]).state = .synthOn ∧ (s.tiles.tile[i]).autoCal = false)
      ∧
    (∃ (i : Fin 4) (p : Prep) (s : State), (s.tiles.tile[i]).prep = some p ∧ p.step = .preparing ∧ p.handover = false) :=
  ⟨⟨(cmd (target .tile (3 + 256)) []), 3, 1, { serves with tiles := { serves.tiles with tile := (upd serves.tiles.tile (3 : Fin 4) fun x => { x with state := .standby }) } },
     by decide +kernel⟩,
   ⟨(cmd (target .tile (3 + 256)) []), 3, 1, { serves with tiles := { serves.tiles with tile := (upd serves.tiles.tile (3 : Fin 4) fun x => { x with state := .synthOn }) } },
     by decide +kernel⟩,
   ⟨(cmd (target .tile 3) []), 3, { serves with tiles := { serves.tiles with tile := (upd serves.tiles.tile (3 : Fin 4) fun x => { x with state := .synthOn }) } },
     by decide +kernel⟩,
   ⟨3, 1, { serves with tiles := { serves.tiles with tile := (upd serves.tiles.tile (3 : Fin 4) fun x => { x with deltaSince := some 1, state := .synthOn, autoCal := true, prep := none }) }, time := { serves.time with mono := 41000000000 } },
     by decide +kernel⟩,
   ⟨3, serves, by decide +kernel⟩,
   ⟨3, { issue := iss0, syn := 1 }, { serves with tiles := { serves.tiles with tile := (upd serves.tiles.tile (3 : Fin 4) fun x => { x with standbyCal := some ({ issue := iss0, syn := 1 } : StandbyCal) }) } },
     by decide +kernel⟩,
   ⟨3, { handover := true, issue := some iss0, instant := none, step := .preparing, boundary := 0, again := false, temp := 200, band := 2 }, { serves with tiles := { serves.tiles with tile := (upd serves.tiles.tile (3 : Fin 4) fun x => { x with prep := some ({ handover := true, issue := some iss0, instant := none, step := .preparing, boundary := 0, again := false, temp := 200, band := 2 } : Prep) }) } },
     by decide +kernel⟩,
   ⟨3, { handover := true, issue := some iss0, instant := none, step := .preparing, boundary := 0, again := false, temp := 200, band := 2 }, { serves with tiles := { serves.tiles with tile := (upd serves.tiles.tile (3 : Fin 4) fun x => { x with prep := some ({ handover := true, issue := some iss0, instant := none, step := .preparing, boundary := 0, again := false, temp := 200, band := 2 } : Prep) }) } },
     by decide +kernel⟩,
   ⟨3, { handover := true, issue := some iss0, instant := none, step := .preparing, boundary := 0, again := false, temp := 200, band := 2 }, { serves with tiles := { serves.tiles with tile := (upd serves.tiles.tile (3 : Fin 4) fun x => { x with prep := some ({ handover := true, issue := some iss0, instant := none, step := .preparing, boundary := 0, again := false, temp := 200, band := 2 } : Prep), syn := (upd x.syn 1 fun x => { x with failCount := 2 }) }) } },
     by decide +kernel⟩,
   ⟨3, 1, { serves with tiles := { serves.tiles with tile := (upd serves.tiles.tile (3 : Fin 4) fun x => { x with retryAt := some 1, prep := none, state := .synthOn }) } },
     by decide +kernel⟩,
   ⟨(cmd (target .tile 3) [(12, 8, 20000000)]), 3, { serves with tiles := { serves.tiles with tile := (upd serves.tiles.tile (3 : Fin 4) fun x => { x with state := .synthOn }) } },
     by decide +kernel⟩,
   ⟨3, 1, { serves with tiles := { serves.tiles with tile := (upd serves.tiles.tile (3 : Fin 4) fun x => { x with deltaSince := some 1, state := .synthOn, autoCal := false }) }, time := { serves.time with mono := 41000000000 } },
     by decide +kernel⟩,
   ⟨3, { handover := false, issue := some iss0, instant := none, step := .preparing, boundary := 128, again := false, temp := 200, band := 2 }, { serves with tiles := { serves.tiles with tile := (upd serves.tiles.tile (3 : Fin 4) fun x => { x with prep := some ({ handover := false, issue := some iss0, instant := none, step := .preparing, boundary := 128, again := false, temp := 200, band := 2 } : Prep) }) } },
     by decide +kernel⟩⟩

theorem witness_HandoverAndBands :
    (∃ (i : Fin 4) (p : Prep) (s : State), (s.tiles.tile[i]).prep = some p ∧ p.step = .waiting) ∧
    (∃ (i : Fin 4) (p : Prep) (s : State), (s.tiles.tile[i]).prep = some p ∧ p.step = .switched ∧ p.again = false) ∧
    (∃ (i : Fin 4) (b x : Nat) (k : Fin 4) (s : State), (s.thm.zone[tileZone i]).band = some b ∧ finOf 4 b = some k ∧ (s.thm.zone[tileZone
      i]).timers.bands[k] = some x ∧ (s.tiles.tile[i]).forceEnable = false) ∧
    (∃ (i : Fin 4) (s : State), (s.tiles.tile[i]).applyPending = true ∧ tileTdd i s = false) ∧
    (∃ (i : Fin 4) (p : Prep) (s : State), (s.tiles.tile[i]).prep = some p ∧ p.step = .switched ∧ p.again = true) ∧
    (∃ (i : Fin 4) (b x : Nat) (k : Fin 4) (s : State), (s.thm.zone[tileZone i]).band = some (b + 1) ∧ finOf 4 b = some k ∧ (s.thm.zone[tileZone
      i]).timers.bands[k] = some x ∧ (s.tiles.tile[i]).forceEnable = false) ∧
    (∃ (i : Fin 4) (b x : Nat) (k : Fin 4) (s : State), (s.thm.zone[tileZone i]).band = some b ∧ finOf 4 b = some k ∧ (s.thm.zone[tileZone
      i]).timers.bands[k] = some x ∧ (s.tiles.tile[i]).forceEnable = true) ∧
    (∃ (i : Fin 4) (x : Nat) (s : State), (s.tiles.tile[i]).applyPending = true ∧ tileTdd i s = true ∧ gapStrobe (tilePatterns i s) 1875000 (strobeAt
      s.now) = some x) :=
  ⟨⟨3, { handover := true, issue := some iss0, instant := none, step := .waiting, boundary := 128, again := false, temp := 200, band := 2 }, { serves with tiles := { serves.tiles with tile := (upd serves.tiles.tile (3 : Fin 4) fun x => { x with prep := some ({ handover := true, issue := some iss0, instant := none, step := .waiting, boundary := 128, again := false, temp := 200, band := 2 } : Prep) }) } },
     by decide +kernel⟩,
   ⟨3, { handover := true, issue := some iss0, instant := none, step := .switched, boundary := 128, again := false, temp := 200, band := 2 }, { serves with tiles := { serves.tiles with tile := (upd serves.tiles.tile (3 : Fin 4) fun x => { x with prep := some ({ handover := true, issue := some iss0, instant := none, step := .switched, boundary := 128, again := false, temp := 200, band := 2 } : Prep) }) } },
     by decide +kernel⟩,
   ⟨3, 3, 1, 3, { serves with thm := { serves.thm with zone := (upd serves.thm.zone (tileZone 3) fun x => { x with band := some 3, timers := { x.timers with bands := (upd x.timers.bands (3 : Fin 4) fun _ => some 1) } }) }, tiles := { serves.tiles with tile := (upd serves.tiles.tile (3 : Fin 4) fun x => { x with forceEnable := false }) } },
     by decide +kernel⟩,
   ⟨3, { serves with tiles := { serves.tiles with tile := (upd serves.tiles.tile (3 : Fin 4) fun x => { x with applyPending := true }) } },
     by decide +kernel, List.any_eq_false.mpr fun m _ => Bool.eq_false_iff.mp (pair_of_quiet m _ serves_quiet)⟩,
   ⟨3, { handover := true, issue := some iss0, instant := none, step := .switched, boundary := 128, again := true, temp := 200, band := 2 }, { serves with tiles := { serves.tiles with tile := (upd serves.tiles.tile (3 : Fin 4) fun x => { x with prep := some ({ handover := true, issue := some iss0, instant := none, step := .switched, boundary := 128, again := true, temp := 200, band := 2 } : Prep) }) } },
     by decide +kernel⟩,
   ⟨3, 3, 1, 3, { serves with thm := { serves.thm with zone := (upd serves.thm.zone (tileZone 3) fun x => { x with band := some (3 + 1), timers := { x.timers with bands := (upd x.timers.bands (3 : Fin 4) fun _ => some 1) } }) }, tiles := { serves.tiles with tile := (upd serves.tiles.tile (3 : Fin 4) fun x => { x with forceEnable := false }) } },
     by decide +kernel⟩,
   ⟨3, 3, 1, 3, { serves with thm := { serves.thm with zone := (upd serves.thm.zone (tileZone 3) fun x => { x with band := some 3, timers := { x.timers with bands := (upd x.timers.bands (3 : Fin 4) fun _ => some 1) } }) }, tiles := { serves.tiles with tile := (upd serves.tiles.tile (3 : Fin 4) fun x => { x with forceEnable := true }) } },
     by decide +kernel⟩,
   ⟨3, 12000000, { tddRuns with tiles := { tddRuns.tiles with tile := (upd tddRuns.tiles.tile (3 : Fin 4) fun x => { x with applyPending := true }) }, time := { tddRuns.time with q := 12000000 } },
     by decide +kernel⟩⟩

theorem witness_FrontEndFaultsAndStrobes :
    (∃ (n : Fin 16) (t c : Bool) (s : State), (s.fec.fems[n]).faultEnable = true ∧ (t = true ∨ c = false)) ∧
    (∃ (n : Fin 16) (s : State), (s.fec.fems[n]).faultEnable = false) ∧
    (∃ (n : Fin 16) (s : State), (s.fec.fems[n]).busy = true) ∧
    (∃ (n u : Fin 16) (failed : BitVec 16) (s : State), (s.fec.fems[n]).enable = true ∧ (s.fec.fems[n]).presencePoll = true ∧ (s.fec.fems[n]).stopped =
      false ∧ listedSlaves n s = [u] ∧ failed.getLsbD u = true ∧ (s.fec.fems[n]).misses[u] = 2) ∧
    (∃ (n : Fin 16) (s : State), (s.fec.fems[n]).faultEnable = true) ∧
    (∃ (n u : Fin 16) (failed : BitVec 16) (s : State), (s.fec.fems[n]).enable = true ∧ (s.fec.fems[n]).presencePoll = true ∧ (s.fec.fems[n]).stopped =
      false ∧ listedSlaves n s = [u] ∧ failed.getLsbD u = false) :=
  ⟨⟨15, true, true, { serves with fec := { serves.fec with fems := (upd serves.fec.fems (15 : Fin 16) fun x => { x with faultEnable := true }) } },
     by decide +kernel⟩,
   ⟨15, { serves with fec := { serves.fec with fems := (upd serves.fec.fems (15 : Fin 16) fun x => { x with faultEnable := false }) } },
     by decide +kernel⟩,
   ⟨15, { serves with fec := { serves.fec with fems := (upd serves.fec.fems (15 : Fin 16) fun x => { x with busy := true }) } }, by decide +kernel⟩,
   ⟨15, 15, 0x8000, { serves with fec := { serves.fec with fems := (upd serves.fec.fems (15 : Fin 16) fun x => { x with enable := true, presencePoll := true, stopped := false, misses := (upd x.misses (15 : Fin 16) fun _ => 2) }), writes := [{ trigger := 0, link := 15, usid := 15, command := 2, addr := 0, count := 1, data := 0 }] } },
     by decide +kernel⟩,
   ⟨15, { serves with fec := { serves.fec with fems := (upd serves.fec.fems (15 : Fin 16) fun x => { x with faultEnable := true }) } },
     by decide +kernel⟩,
   ⟨15, 15, 0, { serves with fec := { serves.fec with fems := (upd serves.fec.fems (15 : Fin 16) fun x => { x with enable := true, presencePoll := true, stopped := false }), writes := [{ trigger := 0, link := 15, usid := 15, command := 2, addr := 0, count := 1, data := 0 }] } },
     by decide +kernel⟩⟩

theorem witness_RffeBus :
    (∃ (q : List BusCmd) (c : BusCmd), q.find? (·.client == .writeList) = some c) ∧
    (∃ (q : List BusCmd) (c : BusCmd), q.find? (·.client == .writeList) = none ∧ q.find? (·.client == .bias) = some c) ∧
    (∃ (n : Fin 16) (value : Word) (s : State), (s.fec.fems[n]).busy = false ∧ ownedBy 0x02 n 0x09 s = true ∧ mailboxOk (field value.toNat 3 0) (field
      value.toNat 7 4) (field value.toNat 23 8) (field value.toNat 27 24) (s.fec.fems[n]).data = true) ∧
    (∃ (n : Fin 16) (c : BusCmd) (s : State), nextCmd (s.fec.fems[n]).queue = some c ∧ (s.fec.fems[n]).stopped = false ∧ c.client = .mailbox ∧ isRead
      c.command = true) ∧
    (∃ (n : Fin 16) (c : BusCmd) (s : State), nextCmd (s.fec.fems[n]).queue = some c ∧ (s.fec.fems[n]).stopped = false ∧ c.client ≠ .mailbox) ∧
    (∃ (n : Fin 16) (c : BusCmd) (s : State), (s.fec.fems[n]).queue.find? (·.client != .writeList) = some c) ∧
    (∃ (n : Fin 16) (parity : Bool) (c : BusCmd) (s : State), nextCmd (s.fec.fems[n]).queue = some c ∧ (s.fec.fems[n]).stopped = false ∧ c.client =
      .mailbox ∧ (isRead c.command = false ∨ parity = false)) ∧
    (∃ (n : Fin 16) (s : State), (s.fec.fems[n]).busy = true) ∧
    (∃ (n : Fin 16) (s : State), (s.fec.fems[n]).busy = false ∧ ownedBy 0x02 n 0x09 s = false) ∧
    (∃ (n : Fin 16) (value : Word) (s : State), (s.fec.fems[n]).busy = false ∧ ownedBy 0x02 n 0x09 s = true ∧ mailboxOk (field value.toNat 3 0) (field
      value.toNat 7 4) (field value.toNat 23 8) (field value.toNat 27 24) (s.fec.fems[n]).data = false) :=
  ⟨⟨[{ client := .mailbox, command := 6, usid := 15, addr := 0, count := 1, data := 255, since := 0 }, { client := .bias, command := 2, usid := 15, addr := 0, count := 1, data := 255, since := 0 },
     { client := .writeList, command := 2, usid := 15, addr := 0, count := 1, data := 255, since := 0 }], { client := .writeList, command := 2, usid := 15, addr := 0, count := 1, data := 255, since := 0 },
     by decide +kernel⟩,
   ⟨[{ client := .mailbox, command := 6, usid := 15, addr := 0, count := 1, data := 255, since := 0 }, { client := .bias, command := 2, usid := 15, addr := 0, count := 1, data := 255, since := 0 }],
     { client := .bias, command := 2, usid := 15, addr := 0, count := 1, data := 255, since := 0 }, by decide +kernel⟩,
   ⟨15, 0x0100002F, { serves with fec := { serves.fec with fems := (upd serves.fec.fems (15 : Fin 16) fun x => { x with busy := false }) }, cfg := { serves.cfg with owners := [{ cls := 0x02, feature := 0x09, index := 15, inst := 0 }] } },
     by decide +kernel⟩,
   ⟨15, { client := .mailbox, command := 6, usid := 15, addr := 0, count := 1, data := 255, since := 0 }, { serves with fec := { serves.fec with fems := (upd serves.fec.fems (15 : Fin 16) fun x => { x with stopped := false, queue := [{ client := .mailbox, command := 6, usid := 15, addr := 0, count := 1, data := 255, since := 0 }] }) } },
     by decide +kernel⟩,
   ⟨15, { client := .writeList, command := 2, usid := 15, addr := 0, count := 1, data := 255, since := 0 }, { serves with fec := { serves.fec with fems := (upd serves.fec.fems (15 : Fin 16) fun x => { x with stopped := false, queue := [{ client := .mailbox, command := 6, usid := 15, addr := 0, count := 1, data := 255, since := 0 }, { client := .bias, command := 2, usid := 15, addr := 0, count := 1, data := 255, since := 0 }, { client := .writeList, command := 2, usid := 15, addr := 0, count := 1, data := 255, since := 0 }] }) } },
     by decide +kernel⟩,
   ⟨15, { client := .mailbox, command := 6, usid := 15, addr := 0, count := 1, data := 255, since := 0 }, { serves with fec := { serves.fec with fems := (upd serves.fec.fems (15 : Fin 16) fun x => { x with queue := [{ client := .mailbox, command := 6, usid := 15, addr := 0, count := 1, data := 255, since := 0 }, { client := .bias, command := 2, usid := 15, addr := 0, count := 1, data := 255, since := 0 }, { client := .writeList, command := 2, usid := 15, addr := 0, count := 1, data := 255, since := 0 }] }) } },
     by decide +kernel⟩,
   ⟨15, false, { client := .mailbox, command := 6, usid := 15, addr := 0, count := 1, data := 255, since := 0 }, { serves with fec := { serves.fec with fems := (upd serves.fec.fems (15 : Fin 16) fun x => { x with stopped := false, queue := [{ client := .mailbox, command := 6, usid := 15, addr := 0, count := 1, data := 255, since := 0 }] }) } },
     by decide +kernel⟩,
   ⟨15, { serves with fec := { serves.fec with fems := (upd serves.fec.fems (15 : Fin 16) fun x => { x with busy := true }) } }, by decide +kernel⟩,
   ⟨15, { serves with fec := { serves.fec with fems := (upd serves.fec.fems (15 : Fin 16) fun x => { x with busy := false }) } }, by decide +kernel⟩,
   ⟨15, 0x010000F1, { serves with fec := { serves.fec with fems := (upd serves.fec.fems (15 : Fin 16) fun x => { x with busy := false }) }, cfg := { serves.cfg with owners := [{ cls := 0x02, feature := 0x09, index := 15, inst := 0 }] } },
     by decide +kernel⟩⟩

theorem witness_CoexistenceAndBlanking :
    (∃ (c : Fin 8) (s : State), (s.fec.cx[c]).role ≠ 2) ∧
    (∃ (c : Fin 8) (since : Nat) (s : State), (s.fec.cx[c]).role = 1 ∧ (s.fec.cx[c]).waitSince = some since ∧ (s.fec.cx[c]).counted = false ∧
      (s.fec.cx[c]).grantTimeout ≠ 0) ∧
    (∃ (c : Fin 8) (s : State), (s.fec.cx[c]).role = 2) ∧
    (∃ (b : Fin 8) (s : State), (s.fec.blanks[b]).enable = true ∧ (s.fec.blanks[b]).level = false) ∧
    (∃ (b : Fin 8) (since : Nat) (s : State), blankActive s.fec.blanks[b] = true ∧ (s.fec.blanks[b]).since = some since ∧ (s.fec.blanks[b]).blankMax ≠ 0 ∧
      (s.fec.blanks[b]).overdue = false) ∧
    (∃ (b : Fin 8) (s : State), (s.fec.blanks[b]).enable = false) ∧
    (∃ (c : Fin 8) (s : State), (s.fec.cx[c]).role = 0) :=
  ⟨⟨7, serves, by decide +kernel⟩,
   ⟨7, 1, { serves with fec := { serves.fec with cx := (upd serves.fec.cx (7 : Fin 8) fun x => { x with role := 1, waitSince := some 1, counted := false, grantTimeout := 1 }) } },
     by decide +kernel⟩,
   ⟨7, { serves with fec := { serves.fec with cx := (upd serves.fec.cx (7 : Fin 8) fun x => { x with role := 2 }) } }, by decide +kernel⟩,
   ⟨7, { serves with fec := { serves.fec with blanks := (upd serves.fec.blanks (7 : Fin 8) fun x => { x with enable := true, level := false }) } },
     by decide +kernel⟩,
   ⟨7, 1, { serves with fec := { serves.fec with blanks := (upd serves.fec.blanks (7 : Fin 8) fun x => { x with since := some 1, overdue := false, enable := true, level := true, blankMax := 1 }) } },
     by decide +kernel⟩,
   ⟨7, { serves with fec := { serves.fec with blanks := (upd serves.fec.blanks (7 : Fin 8) fun x => { x with enable := false }) } }, by decide +kernel⟩,
   ⟨7, { serves with fec := { serves.fec with cx := (upd serves.fec.cx (7 : Fin 8) fun x => { x with role := 0 }) } }, by decide +kernel⟩⟩

theorem witness_SlicesAreSetAndRestart :
    (∃ (d : Desc) (sl : SliceId) (old fill : SliceParams) (s : State), Runs 0x18 d s ∧ d.unit .slice 256 = some sl ∧ sliceSetCheck (issueOf 0x18 d s) sl d
      (startCommand d s) = none ∧ baseParams sl s = some old ∧ fillBase sl s = some fill ∧ writeFields d old.defn ≠ old.defn ∧ beyondImmediate
      old.defn (writeFields d old.defn) = false) ∧
    (∃ (d : Desc) (sl : SliceId) (s : State), Runs 0x18 d s ∧ d.unit .slice 256 = some sl ∧ sliceSetCheck (issueOf 0x18 d s) sl d (startCommand d s) =
      none ∧ baseParams sl s = none) ∧
    (∃ (sl : SliceId) (x : SliceParams) (s u : State), reserve sl x.defn (unreserve sl s) = some u ∧ (s.slices.slice[sl]).pending = none) ∧
    (∃ (sl : SliceId) (r : Restart) (s : State), (s.slices.slice[sl]).restart = some r ∧ r.started = false ∧ (s.slices.slice[sl]).state ≠ .stopped) ∧
    (∃ (sl : SliceId) (r : Restart) (s : State), (s.slices.slice[sl]).restart = some r ∧ r.started = true ∧ (s.slices.slice[sl]).pending = none) ∧
    (∃ (d : Desc) (sl : SliceId) (old fill : SliceParams) (s : State), Runs 0x18 d s ∧ d.unit .slice 256 = some sl ∧ sliceSetCheck (issueOf 0x18 d s) sl d
      (startCommand d s) = none ∧ baseParams sl s = some old ∧ fillBase sl s = some fill ∧ writeFields d old.defn = old.defn) ∧
    (∃ (d : Desc) (sl : SliceId) (old fill : SliceParams) (s : State), Runs 0x18 d s ∧ d.unit .slice 256 = some sl ∧ sliceSetCheck (issueOf 0x18 d s) sl d
      (startCommand d s) = none ∧ baseParams sl s = some old ∧ fillBase sl s = some fill ∧ beyondImmediate old.defn (writeFields d old.defn) = true ∧
      classB old.defn (writeFields d old.defn) = false) ∧
    (∃ (d : Desc) (sl : SliceId) (old fill : SliceParams) (s : State), Runs 0x18 d s ∧ d.unit .slice 256 = some sl ∧ sliceSetCheck (issueOf 0x18 d s) sl d
      (startCommand d s) = none ∧ baseParams sl s = some old ∧ fillBase sl s = some fill ∧ beyondImmediate old.defn (writeFields d old.defn) = true ∧
      classB old.defn (writeFields d old.defn) = true) ∧
    (∃ (sl : SliceId) (x : SliceParams) (s : State), reserve sl x.defn (unreserve sl s) = none) :=
  ⟨⟨(cmd (target .slice 255) [(12, 2, 32), (19, 1, 7)]), 255, par, par, { sliced with dfe := { sliced.dfe with rxCentre := (upd sliced.dfe.rxCentre 31 fun _ => some 2000000), txCentre := (upd sliced.dfe.txCentre 31 fun _ => some 2000000) } },
     by decide +kernel⟩,
   ⟨(cmd (target .slice 255) [(12, 2, 255), (15, 1, 5), (18, 1, 4), (23, 1, 255), (24, 4, 2000000), (28, 4, 100000), (32, 4, 33554463), (36, 4,
     50331679)]), 255, { serves with dfe := { serves.dfe with rxCentre := (upd serves.dfe.rxCentre 31 fun _ => some 2000000), txCentre := (upd serves.dfe.txCentre 31 fun _ => some 2000000) } },
     by decide +kernel⟩,
   ⟨255, par, serves, (Option.isSome_iff_exists.mp (show (reserve 255 par.defn (unreserve 255 serves)).isSome = true by decide +kernel)).imp fun _ h =>
     ⟨h, by decide +kernel⟩⟩,
   ⟨255, { params := par, issue := some iss0, strobe := 128, started := false, keepShed := false }, { serves with slices := { serves.slices with slice := (upd serves.slices.slice (255 : SliceId) fun x => { x with restart := some ({ params := par, issue := some iss0, strobe := 128, started := false, keepShed := false } : Restart) }) } },
     by decide +kernel⟩,
   ⟨255, { params := par, issue := some iss0, strobe := 128, started := true, keepShed := false }, { serves with slices := { serves.slices with slice := (upd serves.slices.slice (255 : SliceId) fun x => { x with restart := some ({ params := par, issue := some iss0, strobe := 128, started := true, keepShed := false } : Restart), pending := none }) } },
     by decide +kernel⟩,
   ⟨(cmd (target .slice 255) [(12, 2, 32), (19, 1, 3)]), 255, par, par, { sliced with dfe := { sliced.dfe with rxCentre := (upd sliced.dfe.rxCentre 31 fun _ => some 2000000), txCentre := (upd sliced.dfe.txCentre 31 fun _ => some 2000000) } },
     by decide +kernel⟩,
   ⟨(cmd (target .slice 255) [(12, 2, 16), (20, 2, 16)]), 255, par, par, { sliced with dfe := { sliced.dfe with rxCentre := (upd sliced.dfe.rxCentre 31 fun _ => some 2000000), txCentre := (upd sliced.dfe.txCentre 31 fun _ => some 2000000) } },
     by decide +kernel⟩,
   ⟨(cmd (target .slice 255) [(12, 2, 8), (24, 4, 2000100)]), 255, par, par, { sliced with dfe := { sliced.dfe with rxCentre := (upd sliced.dfe.rxCentre 31 fun _ => some 2000000), txCentre := (upd sliced.dfe.txCentre 31 fun _ => some 2000000) } },
     by decide +kernel⟩,
   ⟨255, par, { serves with plc := { serves.plc with engine := Vector.replicate 64 { state := .retired, forbid := false } } }, by decide +kernel⟩⟩

theorem witness_PendingSets :
    (∃ (d : Desc) (sl : SliceId) (x : SliceParams) (s : State), Runs 0x19 d s ∧ d.unit .slice 256 = some sl ∧ fillCheck sl d [(!gainOk (d.s 12 2),
      badParam 12), d.strayCheck [(12, 3)]] 14 s = none ∧ fillBase sl s = some x) ∧
    (∃ (d : Desc) (sl : SliceId) (x : SliceParams) (s : State), Runs 0x1A d s ∧ d.unit .slice 256 = some sl ∧ fillCheck sl d [(1 < d.byte 12, badParam
      12), d.strayCheck [(12, 2)]] 13 s = none ∧ fillBase sl s = some x) ∧
    (∃ (d : Desc) (sl : SliceId) (x : SliceParams) (s : State), Runs 0x1C d s ∧ d.unit .slice 256 = some sl ∧ ((issueOf 0x1C d s).fn = 0 ∨ d.u 13 1 / 32 %
      4 = 0) ∧ fillCheck sl d (cancelCtlFields d) 12 s = none ∧ fillBase sl s = some x ∧ (d.u 13 1 % 32 = 0 ∨ (((whichPaths (d.u 12 1) x.defn).getD
      []).all fun p => hasCanceller x.defn p) = true)) ∧
    (∃ (sl : SliceId) (p : PendingSet) (old : SliceParams) (s : State), (s.slices.slice[sl]).pending = some p ∧ (s.slices.slice[sl]).live = some old ∧
      (s.slices.slice[sl]).restart = none ∧ (s.slices.slice[sl]).deleting = none ∧ (p.moving && (migrating sl s || s.plc.waiting.any fun w => w.slice
      == sl)) = false) ∧
    (∃ (sl : SliceId) (s : State), ((s.slices.slice[sl]).restart).isSome = true) :=
  ⟨⟨(cmd (target .slice 255) []), 255, ((fillBase 255 sliced).get (by decide +kernel)), sliced, by decide +kernel⟩,
   ⟨(cmd (target .slice 255) []), 255, ((fillBase 255 sliced).get (by decide +kernel)), sliced, by decide +kernel⟩,
   ⟨(cmd (target .slice 255) [(13, 2, 1), (14, 1, 1)]), 255, ((fillBase 255 { sliced with slices := { sliced.slices with slice := (upd sliced.slices.slice 255 fun x => { x with live := some { par with defn := { defn with nFc := 1024 } } }) } }).get
     (by decide +kernel)), { sliced with slices := { sliced.slices with slice := (upd sliced.slices.slice 255 fun x => { x with live := some { par with defn := { defn with nFc := 1024 } } }) } },
     by decide +kernel⟩,
   ⟨255, { params := par, issue := iss0, actA := 0, actB := 0, moving := false }, par, { serves with slices := { serves.slices with slice := (upd serves.slices.slice (255 : SliceId) fun x => { x with pending := some ({ params := par, issue := iss0, actA := 0, actB := 0, moving := false } : PendingSet), live := some par, restart := none, deleting := none }) } },
     by decide +kernel⟩,
   ⟨255, { serves with slices := { serves.slices with slice := (upd serves.slices.slice 255 fun x => { x with restart := some { params := par, issue := some iss0, strobe := 128, started := true, keepShed := false } }) } },
     by decide +kernel⟩⟩

theorem witness_SlicesAreDeleted :
    (∃ (d : Desc) (sl : SliceId) (s : State), Runs 0x1B d s ∧ d.unit .slice 256 = some sl ∧ d.indirect = false ∧ firstFail [d.strayCheck []] = none ∧
      isDefined sl s = true ∧ (s.slices.slice[sl]).state ≠ .deleting) ∧
    (∃ (sl : SliceId) (iss : Issue) (s : State), (s.slices.slice[sl]).deleting = some iss) ∧
    (∃ (sl : SliceId) (i o : Nat × Nat) (s : State), (s.sig.path[canIdx sl .a]).meterIn.ended = some i ∧ (s.sig.path[canIdx sl .a]).meterOut.ended = some
      o) ∧
    (∃ (sl : SliceId) (i o : Nat × Nat) (s : State), (s.sig.path[canIdx sl .b]).meterIn.ended = some i ∧ (s.sig.path[canIdx sl .b]).meterOut.ended = some
      o) ∧
    (∃ (sl : SliceId) (p : PathId) (s : State), (s.sig.path[canIdx sl p]).meterIn.ended = none ∧ (s.sig.path[canIdx sl p]).meterOut.ended = none) :=
  ⟨⟨(cmd (target .slice 255) []), 255, sliced, by decide +kernel⟩,
   ⟨255, iss0, { serves with slices := { serves.slices with slice := (upd serves.slices.slice (255 : SliceId) fun x => { x with deleting := some iss0 }) } },
     by decide +kernel⟩,
   ⟨255, (1, 1), (1, 1), { sliced with sig := { sliced.sig with path := (upd sliced.sig.path (canIdx 255 .a) fun x => { x with meterIn := { x.meterIn with ended := some (1, 1) }, meterOut := { x.meterOut with ended := some (1, 1) } }) } },
     by decide +kernel⟩,
   ⟨0, (1, 1), (1, 1), { tddRuns with sig := { tddRuns.sig with path := (upd tddRuns.sig.path (canIdx 0 .b) fun x => { x with meterIn := { x.meterIn with ended := some (1, 1) }, meterOut := { x.meterOut with ended := some (1, 1) } }) } },
     by decide +kernel⟩,
   ⟨255, .a, { serves with sig := { serves.sig with path := (upd serves.sig.path (canIdx 255 (.a : PathId)) fun x => { x with meterIn := { x.meterIn with ended := none }, meterOut := { x.meterOut with ended := none } }) } },
     by decide +kernel⟩⟩

theorem witness_Captures :
    (∃ (d : Desc) (sl : SliceId) (r : Fin 8) (s : State), Runs 0x48 d s ∧ captureCheck (issueOf 0x48 d s) d (startCommand d s) = none ∧ d.unit .slice 256
      = some sl ∧ finOf 8 (d.byte 12) = some r ∧ d.byte 14 = 1) ∧
    (∃ (d : Desc) (sl : SliceId) (r : Fin 8) (c : Capture) (s : State), Runs 0x48 d s ∧ captureCheck (issueOf 0x48 d s) d (startCommand d s) = none ∧
      d.unit .slice 256 = some sl ∧ finOf 8 (d.byte 12) = some r ∧ d.byte 14 ≠ 1 ∧ s.slices.capture[r] = some c) ∧
    (∃ (r : Fin 8) (c c' : Capture) (b : CaptureFill) (s : State), s.slices.capture[r] = some c ∧ nextBlock c = some (b, c') ∧ (s.hif.caps[r]).state =
      .running ∧ inD3hot (s.hif.caps[r]).owner s = false ∧ ((s.hif.caps[r]).prod - (s.hif.caps[r]).cons).toNat < 2 ^ (s.hif.caps[r]).log2) ∧
    (∃ (r : Fin 8) (c c' : Capture) (b : CaptureFill) (s : State), s.slices.capture[r] = some c ∧ nextBlock c = some (b, c') ∧ ((s.hif.caps[r]).state ≠
      .running ∨ 2 ^ (s.hif.caps[r]).log2 ≤ ((s.hif.caps[r]).prod - (s.hif.caps[r]).cons).toNat)) ∧
    (∃ (r : Fin 8) (c : Capture) (s : State), s.slices.capture[r] = some c ∧ c.ending = true) ∧
    (∃ (r : Fin 8) (c : Capture) (s : State), s.slices.capture[r] = some c ∧ c.ending = true ∧ c.full = [] ∧ c.fill.samples ≠ [] ∧ (s.hif.caps[r]).state =
      .running ∧ inD3hot (s.hif.caps[r]).owner s = false ∧ ((s.hif.caps[r]).prod - (s.hif.caps[r]).cons).toNat < 2 ^ (s.hif.caps[r]).log2) ∧
    (∃ (d : Desc) (sl : SliceId) (r : Fin 8) (s : State), Runs 0x48 d s ∧ captureCheck (issueOf 0x48 d s) d (startCommand d s) = none ∧ d.unit .slice 256
      = some sl ∧ finOf 8 (d.byte 12) = some r ∧ d.byte 14 ≠ 1 ∧ s.slices.capture[r] = none) :=
  ⟨⟨(cmd (target .slice 255) [(12, 1, 7), (14, 1, 1)]), 255, 7, { sliced with hif := { sliced.hif with linkRate := 4, linkWidth := 16 } },
     by decide +kernel⟩,
   ⟨(cmd (target .slice 255) [(12, 1, 7)]), 255, 7, { slice := 255, tap := 0, which := 0, left := none, instant := 0, startIssue := none, stopIssue := none, ending := false, full := [], fill := fill0, cut := false },
     { sliced with slices := { sliced.slices with capture := (upd sliced.slices.capture (7 : Fin 8) fun _ => some ({ slice := 255, tap := 0, which := 0, left := none, instant := 0, startIssue := none, stopIssue := none, ending := false, full := [], fill := fill0, cut := false } : Capture)) } },
     by decide +kernel⟩,
   ⟨7, { slice := 255, tap := 0, which := 0, left := none, instant := 0, startIssue := none, stopIssue := none, ending := false, full := [fill0], fill := fill0, cut := false },
     { slice := 255, tap := 0, which := 0, left := none, instant := 0, startIssue := none, stopIssue := none, ending := false, full := [], fill := fill0, cut := false },
     fill0, { serves with slices := { serves.slices with capture := (upd serves.slices.capture (7 : Fin 8) fun _ => some ({ slice := 255, tap := 0, which := 0, left := none, instant := 0, startIssue := none, stopIssue := none, ending := false, full := [fill0], fill := fill0, cut := false } : Capture)) }, hif := { serves.hif with caps := (upd serves.hif.caps (7 : Fin 8) fun x => { x with state := .running }) } },
     by decide +kernel⟩,
   ⟨7, { slice := 255, tap := 0, which := 0, left := none, instant := 0, startIssue := none, stopIssue := none, ending := false, full := [fill0], fill := fill0, cut := false },
     { slice := 255, tap := 0, which := 0, left := none, instant := 0, startIssue := none, stopIssue := none, ending := false, full := [], fill := fill0, cut := false },
     fill0, { serves with slices := { serves.slices with capture := (upd serves.slices.capture (7 : Fin 8) fun _ => some ({ slice := 255, tap := 0, which := 0, left := none, instant := 0, startIssue := none, stopIssue := none, ending := false, full := [fill0], fill := fill0, cut := false } : Capture)) } },
     by decide +kernel⟩,
   ⟨7, { slice := 255, tap := 0, which := 0, left := none, instant := 0, startIssue := none, stopIssue := none, ending := true, full := [], fill := fill0, cut := false },
     { serves with slices := { serves.slices with capture := (upd serves.slices.capture (7 : Fin 8) fun _ => some ({ slice := 255, tap := 0, which := 0, left := none, instant := 0, startIssue := none, stopIssue := none, ending := true, full := [], fill := fill0, cut := false } : Capture)) } },
     by decide +kernel⟩,
   ⟨7, { slice := 255, tap := 0, which := 0, left := none, instant := 0, startIssue := none, stopIssue := none, ending := true, full := [], fill := { fill0 with samples := [.poisoned] }, cut := false },
     { serves with slices := { serves.slices with capture := (upd serves.slices.capture (7 : Fin 8) fun _ => some ({ slice := 255, tap := 0, which := 0, left := none, instant := 0, startIssue := none, stopIssue := none, ending := true, full := [], fill := { fill0 with samples := [.poisoned] }, cut := false } : Capture)) }, hif := { serves.hif with caps := (upd serves.hif.caps (7 : Fin 8) fun x => { x with state := .running }) } },
     by decide +kernel⟩,
   ⟨(cmd (target .slice 255) [(12, 1, 7)]), 255, 7, { sliced with slices := { sliced.slices with capture := (upd sliced.slices.capture (7 : Fin 8) fun _ => none) } },
     by decide +kernel⟩⟩

theorem witness_SamplesAndCancellers :
    (∃ (sl : SliceId) (p : PathId) (x : SliceParams) (s : State), (s.slices.slice[sl]).live = some x ∧ (pathsOf x.defn).contains p = true ∧ s.thm.halted =
      true) ∧
    (∃ (sl : SliceId) (p : PathId) (x : SliceParams) (s : State), (s.slices.slice[sl]).live = some x ∧ (pathsOf x.defn).contains p = true ∧
      (s.slices.slice[sl]).state = .stopped) ∧
    (∃ (sl : SliceId) (p : PathId) (x : SliceParams) (s : State), (s.slices.slice[sl]).live = some x ∧ (pathsOf x.defn).contains p = true) ∧
    (∃ (sl : SliceId) (p : PathId) (s : State), (s.can.path[canIdx sl p]).present = true ∧ (s.can.path[canIdx sl p]).kk ≠ 0 ∧ (liveCan sl p s).mode = 0 ∧
      copyWins (s.can.path[canIdx sl p]) = true) ∧
    (∃ (sl : SliceId) (p : PathId) (s : State), (s.can.path[canIdx sl p]).present = true ∧ ((s.can.path[canIdx sl p]).kk = 0 ∨ (liveCan sl p s).mode ≠ 0 ∨
      copyWins (s.can.path[canIdx sl p]) = false)) ∧
    (∃ (sl : SliceId) (p : PathId) (x : SliceParams) (s : State), (s.slices.slice[sl]).live = some x ∧ (pathsOf x.defn).contains p = true) :=
  ⟨⟨255, .a, par, { serves with slices := { serves.slices with slice := (upd serves.slices.slice (255 : SliceId) fun x => { x with live := some par }) }, thm := { serves.thm with halted := true } },
     by decide +kernel⟩,
   ⟨255, .a, par, { serves with slices := { serves.slices with slice := (upd serves.slices.slice (255 : SliceId) fun x => { x with live := some par, state := .stopped }) } },
     by decide +kernel⟩,
   ⟨255, .a, par, { serves with slices := { serves.slices with slice := (upd serves.slices.slice (255 : SliceId) fun x => { x with live := some par }) } },
     by decide +kernel⟩,
   ⟨255, .a, { serves with can := { serves.can with path := (upd serves.can.path (canIdx 255 (.a : PathId)) fun x => { x with present := true, kk := 1 }) } },
     by decide +kernel⟩,
   ⟨255, .a, { serves with can := { serves.can with path := (upd serves.can.path (canIdx 255 (.a : PathId)) fun x => { x with present := true }) } },
     by decide +kernel⟩,
   ⟨255, .a, par, { serves with slices := { serves.slices with slice := (upd serves.slices.slice (255 : SliceId) fun x => { x with live := some par }) } },
     by decide +kernel⟩⟩

theorem witness_ProtectionTrims :
    (∃ (sl : SliceId) (p : PathId) (w : List Cplx) (s : State), ((s.sig.path[canIdx sl p]).squall).ended = some (w, false) ∧ squallWatches sl p s = true ∧
      (pathProt (s.nps.slice[sl]) p).last = none) ∧
    (∃ (sl : SliceId) (p : PathId) (w : List Cplx) (last : Nat × Nat × List Nat) (s : State), ((s.sig.path[canIdx sl p]).squall).ended = some (w, false) ∧
      squallWatches sl p s = true ∧ (pathProt (s.nps.slice[sl]) p).last = some last ∧ (pathProt (s.nps.slice[sl]) p).previous = false ∧ squallDetects
      s.nps.cfg (((liveDef sl s).map (·.k)).getD 0) last (squallReading w) = true) ∧
    (∃ (rx : Fin 32) (sl : SliceId) (p : PathId) (s : State), pathsFromRx rx s = [(sl, p)] ∧ 10 ≤ (s.sig.rx[rx]).loudRun) ∧
    (∃ (sl : SliceId) (d : SliceDef) (p : PathId) (v : Int) (s : State), liveDef sl s = some d ∧ uplinkPath d = some p ∧ (s.nps.slice[sl]).guard.noise =
      true ∧ (pathProt (s.nps.slice[sl]) p).lowest = some v) ∧
    (∃ (sl : SliceId) (p : PathId) (k : TrimKind) (s : State), (trimOf (pathProt (s.nps.slice[sl]) p) k).present = false ∧ (trimOf (pathProt
      (s.nps.slice[sl]) p) k).releasing = false ∧ 50 < (trimOf (pathProt (s.nps.slice[sl]) p) k).value) ∧
    (∃ (sl : SliceId) (p : PathId) (k : TrimKind) (s : State), (trimOf (pathProt (s.nps.slice[sl]) p) k).releasing = true ∧ (trimOf (pathProt
      (s.nps.slice[sl]) p) k).value ≠ 0) ∧
    (∃ (sl : SliceId) (p : PathId) (w : List Cplx) (s : State), ((s.sig.path[canIdx sl p]).squall).ended = some (w, true) ∧ squallWatches sl p s = true) ∧
    (∃ (rx : Fin 32) (s : State), (s.sig.rx[rx]).loudRun < 10) ∧
    (∃ (sl : SliceId) (p : PathId) (k : TrimKind) (s : State), (trimOf (pathProt (s.nps.slice[sl]) p) k).releasing = true ∧ (trimOf (pathProt
      (s.nps.slice[sl]) p) k).value ≠ 0 ∧ (trimOf (pathProt (s.nps.slice[sl]) p) k).value ≤ 50) ∧
    (∃ (sl : SliceId) (p : PathId) (k : TrimKind) (s : State), (trimOf (pathProt (s.nps.slice[sl]) p) k).present = false ∧ (trimOf (pathProt
      (s.nps.slice[sl]) p) k).releasing = false ∧ (trimOf (pathProt (s.nps.slice[sl]) p) k).value ≠ 0 ∧ (trimOf (pathProt (s.nps.slice[sl]) p)
      k).value ≤ 50) :=
  ⟨⟨255, .a, [], { sliced with sig := { sliced.sig with path := (upd sliced.sig.path (canIdx 255 (.a : PathId)) fun x => { x with squall := { x.squall with ended := some ([], false) } }) }, nps := { sliced.nps with slice := (upd sliced.nps.slice 255 fun x => { x with guard := { x.guard with squall := true } }) } },
     by decide +kernel⟩,
   ⟨255, .a, [{ re := 131071, im := 0 }], (1, 1, []), { sliced with sig := { sliced.sig with path := (upd sliced.sig.path (canIdx 255 (.a : PathId)) fun x => { x with squall := { x.squall with ended := some ([{ re := 131071, im := 0 }], false) } }) }, nps := { sliced.nps with slice := (upd sliced.nps.slice 255 fun x => { x with guard := { x.guard with squall := true }, a := { x.a with last := some (1, 1, []) } }) }, slices := { sliced.slices with slice := (upd sliced.slices.slice 255 fun x => { x with live := some { par with defn := { defn with k := 7 } } }) } },
     by decide +kernel⟩,
   ⟨31, 255, .a, { sliced with sig := { sliced.sig with rx := (upd sliced.sig.rx 31 fun x => { x with loudRun := 10 }) } }, by decide +kernel⟩,
   ⟨0, ((liveDef 0 { tddRuns with nps := { tddRuns.nps with slice := (upd (upd tddRuns.nps.slice (0 : SliceId) fun x => { x with guard := { x.guard with noise := true } }) 0 fun x => { x with b := { x.b with lowest := some (-5000) } }) } }).get
     (by decide +kernel)), .b, -5000, { tddRuns with nps := { tddRuns.nps with slice := (upd (upd tddRuns.nps.slice (0 : SliceId) fun x => { x with guard := { x.guard with noise := true } }) 0 fun x => { x with b := { x.b with lowest := some (-5000) } }) } },
     by decide +kernel⟩,
   ⟨255, .a, .emission, { serves with nps := { serves.nps with slice := (upd serves.nps.slice 255 fun x => { x with a := { x.a with emission := { x.a.emission with value := 51 } } }) } },
     by decide +kernel⟩,
   ⟨255, .a, .emission, { serves with nps := { serves.nps with slice := (upd serves.nps.slice 255 fun x => { x with a := { x.a with emission := { x.a.emission with value := 1, releasing := true } } }) } },
     by decide +kernel⟩,
   ⟨255, .a, [], { sliced with sig := { sliced.sig with path := (upd sliced.sig.path (canIdx 255 (.a : PathId)) fun x => { x with squall := { x.squall with ended := some ([], true) } }) }, nps := { sliced.nps with slice := (upd sliced.nps.slice 255 fun x => { x with guard := { x.guard with squall := true } }) } },
     by decide +kernel⟩,
   ⟨31, serves, by decide +kernel⟩,
   ⟨255, .a, .emission, { serves with nps := { serves.nps with slice := (upd serves.nps.slice 255 fun x => { x with a := { x.a with emission := { x.a.emission with value := 50, releasing := true } } }) } },
     by decide +kernel⟩,
   ⟨255, .a, .emission, { serves with nps := { serves.nps with slice := (upd serves.nps.slice 255 fun x => { x with a := { x.a with emission := { x.a.emission with value := 50 } } }) } },
     by decide +kernel⟩⟩

theorem witness_EmissionAndDonorLoss :
    (∃ (m : Fin 32) (s : State), (s.nps.port[m]).emissionEnable = true ∧ (s.tiles.tx[m]).radio.state = .active ∧ slicesOnTx m s = []) ∧
    (∃ (ref : SliceId) (s : State), donorNamed ref s = true ∧ donorPower ref s < donorFloor ref s) ∧
    (∃ (ref : SliceId) (s : State), donorFloor ref s + s.nps.cfg.donorHyst ≤ donorPower ref s ∧ donorGroup ref s = [ref] ∧ (s.nps.slice[ref]).guard.donor
      = false) ∧
    (∃ (m : Fin 32) (sl : SliceId) (d : SliceDef) (f : Nat) (v : Int) (bins : List (Nat × Int)) (s : State), (s.nps.port[m]).emissionEnable = true ∧
      (s.tiles.tx[m]).radio.state = .active ∧ slicesOnTx m s = [sl] ∧ liveDef sl s = some d ∧ (f, v) ∈ bins ∧ (s.nps.port[m]).emissionMask < v ∧
      nearBand d f = false ∧ (s.nps.port[m]).aboveLast.contains f = true) :=
  ⟨⟨31, { serves with nps := { serves.nps with port := (upd serves.nps.port (31 : Fin 32) fun x => { x with emissionEnable := true }) }, tiles := { serves.tiles with tx := (upd serves.tiles.tx (31 : Fin 32) fun x => { x with radio := { x.radio with state := .active } }) } },
     by decide +kernel, by decide +kernel, tx_of_quiet _ _ serves_quiet⟩,
   ⟨255, { serves with nps := { serves.nps with slice := (upd (upd serves.nps.slice 0 fun x => { x with guard := { x.guard with donor := true, donorRef := 255 } }) 255 fun x => { x with guard := { x.guard with donorFloor := 0 } }) } },
     by decide +kernel⟩,
   ⟨255, { serves with nps := { serves.nps with slice := (upd (upd serves.nps.slice (255 : SliceId) fun x => { x with guard := { x.guard with donor := false } }) 255 fun x => { x with guard := { x.guard with donor := false, donorFloor := -300 } }) }, slices := { serves.slices with slice := (upd serves.slices.slice 255 fun x => { x with inA := 0 }) } },
     by decide +kernel⟩,
   ⟨31, 255, defn, 9000000, 5, [(9000000, 5)], { sliced with nps := { sliced.nps with port := (upd (upd sliced.nps.port (31 : Fin 32) fun x => { x with emissionEnable := true }) 31 fun x => { x with emissionMask := 0, aboveLast := [9000000] }) }, tiles := { sliced.tiles with tx := (upd sliced.tiles.tx (31 : Fin 32) fun x => { x with radio := { x.radio with state := .active } }) } },
     by decide +kernel⟩⟩

theorem witness_HaltAndClear :
    (∃ (d : Desc) (s : State), Runs 0x21 d s ∧ d.indirect = false ∧ d.tgt = 0 ∧ d.u 12 1 = 1 ∧ firstFail [d.strayCheck [(12, 1)]] = none) ∧
    (∃ (d : Desc) (s : State), Runs 0x21 d s ∧ d.indirect = false ∧ d.tgt = 0 ∧ d.u 12 1 = 0 ∧ firstFail [d.strayCheck [(12, 1)]] = none) ∧
    (∃ (k : HaltCause) (s : State), haltOf s.nps k = false) ∧
    (∃ (k : HaltCause) (s : State), haltOf s.nps k = true) ∧
    (∃ (d : Desc) (m : Fin 32) (s : State), Runs 0x20 d s ∧ d.unit .slice 256 = none ∧ d.unit .txPort 32 = some m ∧ d.indirect = false ∧ d.u 12 2 = 16 ∧
      d.u 14 1 = 0 ∧ firstFail [d.strayCheck [(12, 3)]] = none ∧ (s.nps.port[m]).reflected = true ∧ (s.nps.port[m]).tripped = false ∧
      (s.tiles.tx[m]).loadFault = false) ∧
    (∃ (d : Desc) (sl : SliceId) (s : State), Runs 0x20 d s ∧ d.unit .slice 256 = some sl ∧ d.indirect = false ∧ d.u 12 2 = 512 ∧ d.u 14 1 = 0 ∧ firstFail
      [d.strayCheck [(12, 3)]] = none ∧ (s.nps.slice[sl]).donorLoss = true ∧ mutePersists sl [.a, .b] .donorLoss s = true) ∧
    (∃ (d : Desc) (sl : SliceId) (s : State), Runs 0x20 d s ∧ d.unit .slice 256 = some sl ∧ d.indirect = false ∧ d.u 12 2 ≠ 0 ∧ clearable .slice (d.u 12
      2) = true ∧ d.u 14 1 ≤ 2 ∧ firstFail [d.strayCheck [(12, 3)]] = none) ∧
    (∃ (d : Desc) (m : Fin 32) (s : State), Runs 0x20 d s ∧ d.unit .slice 256 = none ∧ d.unit .txPort 32 = some m ∧ d.indirect = false ∧ d.u 12 2 ≠ 0 ∧
      clearable .txPort (d.u 12 2) = true ∧ d.u 14 1 ≤ 2 ∧ firstFail [d.strayCheck [(12, 3)]] = none) :=
  ⟨⟨(cmd (0) [(12, 1, 1)]), serves, by decide +kernel⟩,
   ⟨(cmd (0) []), serves, by decide +kernel⟩,
   ⟨.host, serves, by decide +kernel⟩,
   ⟨.mgmt, { serves with nps := { serves.nps with haltMgmt := true } }, by decide +kernel⟩,
   ⟨(cmd (target .txPort 31) [(12, 2, 16)]), 31, { serves with nps := { serves.nps with port := (upd serves.nps.port (31 : Fin 32) fun x => { x with reflected := true, tripped := false }) }, tiles := { serves.tiles with tx := (upd serves.tiles.tx (31 : Fin 32) fun x => { x with loadFault := false }) } },
     by decide +kernel⟩,
   ⟨(cmd (target .slice 255) [(12, 2, 512)]), 255, { serves with nps := { serves.nps with slice := (upd serves.nps.slice (255 : SliceId) fun x => { x with donorLoss := true }) } },
     by decide +kernel⟩,
   ⟨(cmd (target .slice 255) [(12, 2, 512)]), 255, serves, by decide +kernel⟩,
   ⟨(cmd (target .txPort 31) [(12, 2, 16)]), 31, serves, by decide +kernel⟩⟩

theorem witness_ControlLoops :
    (∃ (d : Desc) (i : Fin 64) (l : Loop) (bs : List Byte) (s : State), Runs 0x28 d s ∧ loopWriteCheck d s = none ∧ loopTarget d s = some (i, l) ∧ (if
      d.indirect then d.bytes else some []) = some bs ∧ bankOk (bankOf (putWords (d.byte (paramStart d) == 1) (d.u (paramStart d + 2) 2) (loopWords d
      bs) l) (d.byte (paramStart d) == 1)) = true ∧ l.fade = none ∧ l.swap = none) ∧
    (∃ (d : Desc) (i : Fin 64) (l : Loop) (s : State), Runs 0x29 d s ∧ loopSwapCheck d s = none ∧ d.unit .loop 64 = some i ∧ loopAt i s = some l) ∧
    (∃ (d : Desc) (i : Fin 64) (l : Loop) (s : State), Runs 0x2A d s ∧ loopSetpointCheck d s = none ∧ d.unit .loop 64 = some i ∧ loopAt i s = some l) ∧
    (∃ (d : Desc) (i : Fin 64) (b : Fin 16) (s : State), Runs 0x2B d s ∧ traceArmCheck d s = none ∧ d.unit .loop 64 = some i ∧ finOf 16 (d.byte
      (paramStart d)) = some b ∧ d.byte (paramStart d + 1) ≠ 5) ∧
    (∃ (d : Desc) (i : Fin 64) (b : Fin 16) (s : State), Runs 0x2B d s ∧ traceArmCheck d s = none ∧ d.unit .loop 64 = some i ∧ finOf 16 (d.byte
      (paramStart d)) = some b ∧ d.byte (paramStart d + 1) = 5) ∧
    (∃ (i : Fin 64) (l : Loop) (s : State), loopAt i s = some l) ∧
    (∃ (d : Desc) (i : Fin 64) (l : Loop) (bs : List Byte) (s : State), Runs 0x28 d s ∧ loopWriteCheck d s = none ∧ loopTarget d s = some (i, l) ∧ (if
      d.indirect then d.bytes else some []) = some bs ∧ (bankOk (bankOf (putWords (d.byte (paramStart d) == 1) (d.u (paramStart d + 2) 2) (loopWords d
      bs) l) (d.byte (paramStart d) == 1))) = false) ∧
    (∃ (d : Desc) (i : Fin 64) (l : Loop) (bs : List Byte) (s : State), Runs 0x28 d s ∧ loopWriteCheck d s = none ∧ loopTarget d s = some (i, l) ∧ (if
      d.indirect then d.bytes else some []) = some bs ∧ (bankOk (bankOf (putWords (d.byte (paramStart d) == 1) (d.u (paramStart d + 2) 2) (loopWords d
      bs) l) (d.byte (paramStart d) == 1))) = true ∧ (l.fade.isSome || l.swap.isSome) = true) :=
  ⟨⟨(cmd (target .loop 63) [(14, 2, 504), (16, 2, 8)]), 63, lp, [], { serves with cen := { serves.cen with slot := (upd serves.cen.slot 63 fun _ => some lp) } },
     by decide +kernel⟩,
   ⟨(cmd (target .loop 63) [(20, 1, 8)]), 63, ((loopAt 63 { serves with cen := { serves.cen with slot := (upd serves.cen.slot 63 fun _ => some lp) } }).get
     (by decide +kernel)), { serves with cen := { serves.cen with slot := (upd serves.cen.slot 63 fun _ => some lp) } }, by decide +kernel⟩,
   ⟨(cmd (target .loop 63) []), 63, ((loopAt 63 { serves with cen := { serves.cen with slot := (upd serves.cen.slot 63 fun _ => some lp) } }).get
     (by decide +kernel)), { serves with cen := { serves.cen with slot := (upd serves.cen.slot 63 fun _ => some lp) } }, by decide +kernel⟩,
   ⟨(cmd (target .loop 63) [(12, 1, 15), (28, 2, 65535)]), 63, 15, { serves with cen := { serves.cen with slot := (upd serves.cen.slot 63 fun _ => some lp) } },
     by decide +kernel⟩,
   ⟨(cmd (target .loop 63) [(12, 1, 15), (13, 1, 5), (28, 2, 65535)]), 63, 15, serves, by decide +kernel⟩,
   ⟨63, lp, { serves with cen := { serves.cen with slot := (upd serves.cen.slot 63 fun _ => some lp) } }, by decide +kernel⟩,
   ⟨(cmd (target .loop 63) [(14, 2, 504), (16, 2, 1), (24, 4, 1)]), 63, lp, [], { serves with cen := { serves.cen with slot := (upd serves.cen.slot 63 fun _ => some lp) } },
     by decide +kernel⟩,
   ⟨(cmd (target .loop 63) [(14, 2, 504), (16, 2, 8)]), 63, { lp with swap := some { instant := 0, f := 0, issue := none } }, [], { serves with cen := { serves.cen with slot := (upd serves.cen.slot 63 fun _ => some { lp with swap := some { instant := 0, f := 0, issue := none } }) } },
     by decide +kernel⟩⟩

theorem witness_ConverterPasses :
    (∃ (c : Fin 8) (s : State), (s.mon.conv[c]).cfg.mode = .scan ∧ madcRetired c s = false ∧ convBusy c s = false ∧ (s.mon.conv[c]).next = none) ∧
    (∃ (c : Fin 8) (s : State), (s.mon.conv[c]).cfg.mode = .scan ∧ madcRetired c s = false ∧ convBusy c s = true ∧ (s.mon.conv[c]).cfg.policy = 1) ∧
    (∃ (c : Fin 8) (st : ConvStep) (s : State), (s.mon.conv[c]).running = true ∧ refWait s.mon.conv[c] = false ∧ madcTesting c s = false ∧ measuring c s =
      false ∧ (s.mon.conv[c]).cfg.steps = [st] ∧ (s.mon.conv[c]).pending = false) ∧
    (∃ (d : Desc) (c : Fin 8) (bs : List Byte) (cfg : ConvCfg) (s : State), Runs 0x30 d s ∧ monSeqCheck d = none ∧ d.unit .madc 8 = some c ∧ d.bytes =
      some bs ∧ convOf bs = some (c, cfg) ∧ ownedByOther 0x06 c s = false ∧ (s.mon.conv[c]).next = none ∧ (s.mon.conv[c]).cfg.mode = .scan ∧ cfg.mode
      = .scan) ∧
    (∃ (d : Desc) (c : Fin 8) (bs : List Byte) (cfg : ConvCfg) (s : State), Runs 0x30 d s ∧ monSeqCheck d = none ∧ d.unit .madc 8 = some c ∧ d.bytes =
      some bs ∧ convOf bs = some (c, cfg) ∧ ownedByOther 0x06 c s = false ∧ (s.mon.conv[c]).next = none ∧ ((s.mon.conv[c]).cfg.mode ≠ .scan ∨ cfg.mode
      ≠ .scan)) ∧
    (∃ (c : Fin 8) (s : State), refOn s.mon.conv[c] = true ∧ (s.mon.conv[c]).pending = false) ∧
    (∃ (c : Fin 8) (cfg : ConvCfg) (iss : Option Issue) (s : State), (s.mon.conv[c]).cfg.mode = .scan ∧ madcRetired c s = false ∧ convBusy c s = false ∧
      (s.mon.conv[c]).next = some (cfg, iss)) ∧
    (∃ (c : Fin 8) (s : State), (s.mon.conv[c]).cfg.mode = .scan ∧ madcRetired c s = false ∧ (s.mon.conv[c]).running = true ∧ madcTesting c s = false ∧
      measuring c s = false ∧ (s.mon.conv[c]).next = none ∧ (s.mon.conv[c]).cfg.policy = 2) ∧
    (∃ (c : Fin 8) (s : State), (s.mon.conv[c]).cfg.mode = .scan ∧ madcRetired c s = false ∧ convBusy c s = true ∧ (s.mon.conv[c]).cfg.policy = 0) ∧
    (∃ (c : Fin 8) (s : State), ((s.mon.conv[c]).cfg.mode ≠ .scan ∨ madcRetired c s = true)) ∧
    (∃ (d : Desc) (c : Fin 8) (bs : List Byte) (s : State), Runs 0x30 d s ∧ monSeqCheck d = none ∧ d.unit .madc 8 = some c ∧ d.bytes = some bs ∧ (∀ cfg :
      ConvCfg, convOf bs ≠ some (c, cfg))) ∧
    (∃ (d : Desc) (c : Fin 8) (bs : List Byte) (cfg : ConvCfg) (s : State), Runs 0x30 d s ∧ monSeqCheck d = none ∧ d.unit .madc 8 = some c ∧ d.bytes =
      some bs ∧ convOf bs = some (c, cfg) ∧ ownedByOther 0x06 c s = false) :=
  ⟨⟨7, { serves with mon := { serves.mon with conv := (upd serves.mon.conv (7 : Fin 8) fun x => { x with cfg := { x.cfg with mode := .scan }, next := none, refReady := true }) } },
     by decide +kernel⟩,
   ⟨7, { serves with mon := { serves.mon with conv := (upd serves.mon.conv (7 : Fin 8) fun x => { x with cfg := { x.cfg with mode := .scan, policy := 1 } }) } },
     by decide +kernel⟩,
   ⟨7, { input := 15, avg := 16, settle := 4 }, { serves with mon := { serves.mon with conv := (upd serves.mon.conv (7 : Fin 8) fun x => { x with running := true, cfg := { x.cfg with steps := [({ input := 15, avg := 16, settle := 4 } : ConvStep)] }, pending := false }) } },
     by decide +kernel⟩,
   ⟨(cmdBuf (target .madc 7) [] ([7, 1, 0, 0, 1, 0x20, 0, 0, 0, 0, 0, 0, 0, 0, 0, 0, 0x1F, 1] ++ List.replicate 62 0)), 7, ([7, 1, 0, 0, 1, 0x20, 0, 0,
     0, 0, 0, 0, 0, 0, 0, 0, 0x1F, 1] ++ List.replicate 62 0), ((convOf ([7, 1, 0, 0, 1, 0x20, 0, 0, 0, 0, 0, 0, 0, 0, 0, 0, 0x1F, 1] ++
     List.replicate 62 0)).get (by decide +kernel)).2, { serves with mon := { serves.mon with conv := (upd serves.mon.conv (7 : Fin 8) fun x => { x with next := none, cfg := { x.cfg with mode := .scan } }) } },
     by decide +kernel⟩,
   ⟨(cmdBuf (target .madc 7) [] ([7, 1, 0, 0, 1, 0x20, 0, 0, 0, 0, 0, 0, 0, 0, 0, 0, 0x1F, 1] ++ List.replicate 62 0)), 7, ([7, 1, 0, 0, 1, 0x20, 0, 0,
     0, 0, 0, 0, 0, 0, 0, 0, 0x1F, 1] ++ List.replicate 62 0), ((convOf ([7, 1, 0, 0, 1, 0x20, 0, 0, 0, 0, 0, 0, 0, 0, 0, 0, 0x1F, 1] ++
     List.replicate 62 0)).get (by decide +kernel)).2, { serves with mon := { serves.mon with conv := (upd serves.mon.conv (7 : Fin 8) fun x => { x with next := none, cfg := { x.cfg with mode := .stream } }) } },
     by decide +kernel⟩,
   ⟨7, { serves with mon := { serves.mon with conv := (upd serves.mon.conv (7 : Fin 8) fun x => { x with pending := false, cfg := { x.cfg with mode := .stream } }) } },
     by decide +kernel⟩,
   ⟨7, { mode := .scan, trigger := 0, policy := 0, steps := [{ input := 15, avg := 1, settle := 1 }], preset := 0, dcShift := 0, streamInput := 0, openCheck := false, dcBlock := false, refAlways := false, param1 := 0, param2 := 0 },
     none, { serves with mon := { serves.mon with conv := (upd serves.mon.conv (7 : Fin 8) fun x => { x with cfg := { x.cfg with mode := .scan }, next := some (({ mode := .scan, trigger := 0, policy := 0, steps := [{ input := 15, avg := 1, settle := 1 }], preset := 0, dcShift := 0, streamInput := 0, openCheck := false, dcBlock := false, refAlways := false, param1 := 0, param2 := 0 } : ConvCfg), none), refReady := true }) } },
     by decide +kernel⟩,
   ⟨7, { serves with mon := { serves.mon with conv := (upd serves.mon.conv (7 : Fin 8) fun x => { x with cfg := { x.cfg with mode := .scan, policy := 2 }, running := true, next := none }) } },
     by decide +kernel⟩,
   ⟨7, { serves with mon := { serves.mon with conv := (upd serves.mon.conv (7 : Fin 8) fun x => { x with cfg := { x.cfg with mode := .scan, policy := 0 } }) } },
     by decide +kernel⟩,
   ⟨7, serves, by decide +kernel⟩,
   ⟨cmdBuf (target .madc 7) [] (List.replicate 80 0), 7, List.replicate 80 0, serves, by decide +kernel, by decide +kernel, by decide +kernel,
     by decide +kernel, fun cfg h => absurd ((show convOf (List.replicate 80 0) = none by decide +kernel).symm.trans h) (by simp)⟩,
   ⟨(cmdBuf (target .madc 7) [] ([7, 1, 0, 0, 1, 0x20, 0, 0, 0, 0, 0, 0, 0, 0, 0, 0, 0x1F, 1] ++ List.replicate 62 0)), 7, ([7, 1, 0, 0, 1, 0x20, 0, 0,
     0, 0, 0, 0, 0, 0, 0, 0, 0x1F, 1] ++ List.replicate 62 0), ((convOf ([7, 1, 0, 0, 1, 0x20, 0, 0, 0, 0, 0, 0, 0, 0, 0, 0, 0x1F, 1] ++
     List.replicate 62 0)).get (by decide +kernel)).2, serves, by decide +kernel⟩⟩

theorem witness_MonitorInjectionAndCalibration :
    (∃ (d : Desc) (c : Fin 8) (i : Fin 16) (s : State), Runs 0x31 d s ∧ monInjectCheck d s = none ∧ d.unit .madc 8 = some c ∧ finOf 16 (d.byte 20) = some
      i) ∧
    (∃ (c : Fin 8) (i : MonInjection) (s : State), refWait s.mon.conv[c] = false ∧ madcTesting c s = false ∧ madcRetired c s = false ∧ nextInjection
      s.mon.conv[c] = some i ∧ (s.mon.conv[c]).cfg.mode ≠ .stream) ∧
    (∃ (c : Fin 8) (i : MonInjection) (iss : Issue) (s : State), ((s.mon.conv[c]).queue.find? fun i => i.issue.isSome) = some i ∧ i.issue = some iss) ∧
    (∃ (d : Desc) (c : Fin 8) (i : Fin 16) (s : State), Runs 0x32 d s ∧ monCalCheck d s = none ∧ d.unit .madc 8 = some c ∧ finOf 16 (d.byte 12) = some i)
      ∧
    (∃ (c : Fin 8) (a : Nat) (r : CalRun) (y : Sense) (s : State), (s.mon.conv[c]).cal = some r ∧ measuring c s = true ∧ (s.mon.conv[c]).pending = false ∧
      (s.mon.sense[senseIdx c r.input]).isOpen = false ∧ madcRetired c s = false ∧ calResult (senseIdx c r.input) r a s.mon.sense[senseIdx c r.input]
      = some y) ∧
    (∃ (c : Fin 8) (a : Nat) (r : CalRun) (s : State), (s.mon.conv[c]).cal = some r ∧ measuring c s = true ∧ (s.mon.conv[c]).pending = false ∧
      ((s.mon.sense[senseIdx c r.input]).isOpen = true ∨ madcRetired c s = true ∨ calResult (senseIdx c r.input) r a s.mon.sense[senseIdx c r.input] =
      none)) ∧
    (∃ (c : Fin 8) (i : MonInjection) (s : State), refWait s.mon.conv[c] = false ∧ madcTesting c s = false ∧ madcRetired c s = false ∧ nextInjection
      s.mon.conv[c] = some i) :=
  ⟨⟨(cmdBuf (target .madc 7) [(20, 1, 15)] (List.replicate 16 0)), 7, 15, serves, by decide +kernel⟩,
   ⟨7, { issue := some iss0, address := 0, input := 15, avg := 8, settle := 15, blocked := false, held := false, newCal := false, since := 0 }, { serves with mon := { serves.mon with conv := (upd serves.mon.conv (7 : Fin 8) fun x => { x with queue := [{ issue := some iss0, address := 0, input := 15, avg := 8, settle := 15, blocked := false, held := false, newCal := false, since := 0 }] }) } },
     by decide +kernel⟩,
   ⟨7, { issue := some iss0, address := 0, input := 15, avg := 8, settle := 15, blocked := true, held := false, newCal := false, since := 0 }, iss0, { serves with mon := { serves.mon with conv := (upd serves.mon.conv (7 : Fin 8) fun x => { x with queue := [{ issue := some iss0, address := 0, input := 15, avg := 8, settle := 15, blocked := true, held := false, newCal := false, since := 0 }] }) } },
     by decide +kernel⟩,
   ⟨(cmd (target .madc 7) [(12, 1, 15)]), 7, 15, serves, by decide +kernel⟩,
   ⟨7, 1, { issue := iss0, input := 15, phase := .zero, avg := 16, settle := 4, expected := 0 }, { senseReset with zero := some (1, 0) }, { serves with mon := { serves.mon with conv := (upd serves.mon.conv (7 : Fin 8) fun x => { x with cal := some ({ issue := iss0, input := 15, phase := .zero, avg := 16, settle := 4, expected := 0 } : CalRun), pending := false }), sense := (upd serves.mon.sense (senseIdx 7 ({ issue := iss0, input := 15, phase := .zero, avg := 16, settle := 4, expected := 0 } : CalRun).input) fun x => { x with isOpen := false }) } },
     by decide +kernel⟩,
   ⟨7, 1, { issue := iss0, input := 15, phase := .zero, avg := 16, settle := 4, expected := 0 }, { serves with mon := { serves.mon with conv := (upd serves.mon.conv (7 : Fin 8) fun x => { x with cal := some ({ issue := iss0, input := 15, phase := .zero, avg := 16, settle := 4, expected := 0 } : CalRun), pending := false }), sense := (upd serves.mon.sense (senseIdx 7 15) fun x => { x with isOpen := true }) } },
     by decide +kernel⟩,
   ⟨7, { issue := some iss0, address := 0, input := 15, avg := 8, settle := 15, blocked := false, held := false, newCal := false, since := 0 }, { serves with mon := { serves.mon with conv := (upd serves.mon.conv (7 : Fin 8) fun x => { x with queue := [{ issue := some iss0, address := 0, input := 15, avg := 8, settle := 15, blocked := false, held := false, newCal := false, since := 0 }] }) } },
     by decide +kernel⟩⟩

theorem witness_ComparatorsAndChecks :
    (∃ (n : Fin 64) (s : State), (s.mon.cmp[n]).cfg.enable = true ∧ n.val % 2 = 1 ∧ (s.nps.port[cmpPort n]).reflectedEnable = true ∧ (s.nps.port[cmpPort
      n]).reflected = false) ∧
    (∃ (n : Fin 64), n.val % 2 = 1) ∧
    (∃ (c : Fin 8) (i : Fin 16) (x : Int) (s : State), checksInput s.mon.conv[c] i = true ∧ refWait s.mon.conv[c] = false ∧ madcTesting c s = false ∧
      madcRetired c s = false ∧ (s.mon.sense[senseIdx c i]).isOpen = false ∧ 2 ≤ (s.mon.sense[senseIdx c i]).openRun ∧ 2048 ≤ x) ∧
    (∃ (c : Fin 8) (code : Nat) (s : State), refWait s.mon.conv[c] = false ∧ madcTesting c s = false ∧ madcRetired c s = false ∧ (code < 8152 ∨ 8232 <
      code) ∧ testOf .madc c s = none) ∧
    (∃ (c : Fin 8) (x : SelfTest) (s : State), testOf .madc c s = some x ∧ (s.mon.conv[c]).pending = false) ∧
    (∃ (c : Fin 8) (x : SelfTest) (s : State), testOf .madc c s = some x) ∧
    (∃ (n : Fin 64) (high : Bool) (s : State), (s.mon.cmp[n]).cfg.enable = true ∧ (high = true ∨ (s.mon.cmp[n]).cfg.lo ≠ 0)) ∧
    (∃ (n : Fin 64) (high : Bool) (s : State), ((s.mon.cmp[n]).cfg.enable = false ∨ (high = false ∧ (s.mon.cmp[n]).cfg.lo = 0))) ∧
    (∃ (n : Fin 64), n.val % 2 = 0) ∧
    (∃ (c : Fin 8) (i : Fin 16) (x : Int) (s : State), checksInput s.mon.conv[c] i = true ∧ refWait s.mon.conv[c] = false ∧ madcTesting c s = false ∧
      madcRetired c s = false ∧ 2 ≤ (s.mon.sense[senseIdx c i]).clearRun ∧ x < 1024) ∧
    (∃ (c : Fin 8) (code : Nat) (s : State), refWait s.mon.conv[c] = false ∧ madcTesting c s = false ∧ madcRetired c s = false ∧ 8152 ≤ code ∧ code ≤
      8232) :=
  ⟨⟨63, { serves with mon := { serves.mon with cmp := (upd serves.mon.cmp (63 : Fin 64) fun x => { x with cfg := { x.cfg with enable := true } }) }, nps := { serves.nps with port := (upd serves.nps.port (cmpPort 63) fun x => { x with reflectedEnable := true, reflected := false }) } },
     by decide +kernel⟩,
   ⟨63, by decide +kernel⟩,
   ⟨7, 15, 2048, { serves with mon := { serves.mon with sense := (upd serves.mon.sense (senseIdx 7 15) fun x => { x with isOpen := false, openRun := 2 }), conv := (upd serves.mon.conv (7 : Fin 8) fun x => { x with cfg := { x.cfg with openCheck := true, mode := .stream, streamInput := 15 }, refReady := true }) } },
     by decide +kernel⟩,
   ⟨7, 1, serves, by decide +kernel⟩,
   ⟨7, ((testOf .madc 7 { serves with mon := { serves.mon with conv := (upd serves.mon.conv (7 : Fin 8) fun x => { x with pending := false }) }, flt := { serves.flt with selftests := [{ kind := .madc, index := 7, source := 248, injectedOnly := false, hosts := [] }] } }).get
     (by decide +kernel)), { serves with mon := { serves.mon with conv := (upd serves.mon.conv (7 : Fin 8) fun x => { x with pending := false }) }, flt := { serves.flt with selftests := [{ kind := .madc, index := 7, source := 248, injectedOnly := false, hosts := [] }] } },
     by decide +kernel⟩,
   ⟨7, ((testOf .madc 7 { serves with flt := { serves.flt with selftests := [{ kind := .madc, index := 7, source := 248, injectedOnly := false, hosts := [] }] } }).get
     (by decide +kernel)), { serves with flt := { serves.flt with selftests := [{ kind := .madc, index := 7, source := 248, injectedOnly := false, hosts := [] }] } },
     by decide +kernel⟩,
   ⟨63, true, { serves with mon := { serves.mon with cmp := (upd serves.mon.cmp (63 : Fin 64) fun x => { x with cfg := { x.cfg with enable := true } }) } },
     by decide +kernel⟩,
   ⟨63, true, serves, by decide +kernel⟩,
   ⟨62, by decide +kernel⟩,
   ⟨7, 15, 1023, { serves with mon := { serves.mon with conv := (upd serves.mon.conv (7 : Fin 8) fun x => { x with cfg := { x.cfg with openCheck := true, mode := .stream, streamInput := 15 }, refReady := true }), sense := (upd serves.mon.sense (senseIdx 7 15) fun x => { x with clearRun := 2 }) } },
     by decide +kernel⟩,
   ⟨7, 8152, serves, by decide +kernel⟩⟩

theorem witness_LanesTrainAndFail_a :
    (∃ (d : Desc) (l : Fin 64) (s : State), Runs 0x38 d s ∧ firstFail (laneCtlCheck d) = none ∧ d.unit .lane 64 = some l ∧ d.u 12 1 = 1 ∧ ownedByOther
      0x0B l s = false ∧ (s.lnk.lane[l]).state ≠ .retired ∧ (s.lnk.lane[l]).state ≠ .up) ∧
    (∃ (d : Desc) (l : Fin 64) (s : State), Runs 0x38 d s ∧ firstFail (laneCtlCheck d) = none ∧ d.unit .lane 64 = some l ∧ d.u 12 1 = 0 ∧ ownedByOther
      0x0B l s = false ∧ (s.lnk.lane[l]).state ≠ .retired) ∧
    (∃ (l : Fin 64) (s : State), (s.lnk.lane[l]).state = .training ∧ (s.lnk.lane[l]).testPending = false) ∧
    (∃ (l : Fin 64) (i : Issue) (s : State), (s.lnk.lane[l]).state = .training ∧ (s.lnk.lane[l]).issue = some i ∧ (s.lnk.lane[l]).retrain = false) ∧
    (∃ (l : Fin 64) (s : State), (s.lnk.lane[l]).state = .training ∧ ((s.lnk.lane[l]).issue = none ∨ (s.lnk.lane[l]).retrain = true)) ∧
    (∃ (l : Fin 64) (g : Fin 16) (r : LaneFault) (s : State), (s.lnk.lane[l]).state = .up ∧ (s.lnk.lane[l]).cfg.link = some g ∧ laneFaulty r s.lnk.lane[l]
      = true) ∧
    (∃ (l : Fin 64) (s : State), (s.lnk.lane[l]).state = .up ∧ (s.lnk.lane[l]).degraded = false ∧ 3 ≤ (s.lnk.lane[l]).above ∧ carryingLane l s = false) ∧
    (∃ (l : Fin 64) (s : State), (s.lnk.lane[l]).state = .up ∧ (s.lnk.lane[l]).degraded = true ∧ 1000 ≤ (s.lnk.lane[l]).below) ∧
    (∃ (l : Fin 64) (x : SelfTest) (s : State), testOf .lane l s = some x ∧ ((s.lnk.lane[l]).state = .testing ∨ (s.lnk.lane[l]).state = .failed)) :=
  ⟨⟨(cmd (target .lane 63) [(12, 1, 1)]), 63, serves, by decide +kernel⟩,
   ⟨(cmd (target .lane 63) []), 63, serves, by decide +kernel⟩,
   ⟨63, { serves with lnk := { serves.lnk with lane := (upd serves.lnk.lane (63 : Fin 64) fun x => { x with state := .training, testPending := false }) } },
     by decide +kernel⟩,
   ⟨63, iss0, { serves with lnk := { serves.lnk with lane := (upd serves.lnk.lane (63 : Fin 64) fun x => { x with state := .training, issue := some iss0, retrain := false }) } },
     by decide +kernel⟩,
   ⟨63, { serves with lnk := { serves.lnk with lane := (upd serves.lnk.lane (63 : Fin 64) fun x => { x with state := .training }) } },
     by decide +kernel⟩,
   ⟨63, 15, .signal, { serves with lnk := { serves.lnk with lane := (upd serves.lnk.lane (63 : Fin 64) fun x => { x with state := .up, cfg := { x.cfg with link := some 15 } }) } },
     by decide +kernel⟩,
   ⟨63, { serves with lnk := { serves.lnk with lane := (upd serves.lnk.lane (63 : Fin 64) fun x => { x with state := .up, degraded := false, above := 3 }) } },
     by decide +kernel⟩,
   ⟨63, { serves with lnk := { serves.lnk with lane := (upd serves.lnk.lane (63 : Fin 64) fun x => { x with state := .up, degraded := true, below := 1000 }) } },
     by decide +kernel⟩,
   ⟨63, ((testOf .lane 63 { serves with flt := { serves.flt with selftests := [{ kind := .lane, index := 63, source := 192, injectedOnly := false, hosts := [] }] }, lnk := { serves.lnk with lane := (upd serves.lnk.lane 63 fun x => { x with state := .testing }) } }).get
     (by decide +kernel)), { serves with flt := { serves.flt with selftests := [{ kind := .lane, index := 63, source := 192, injectedOnly := false, hosts := [] }] }, lnk := { serves.lnk with lane := (upd serves.lnk.lane 63 fun x => { x with state := .testing }) } },
     by decide +kernel⟩⟩

theorem witness_LanesTrainAndFail_b :
    (∃ (l : Fin 64) (x : SelfTest) (s : State), testOf .lane l s = some x ∧ ((s.lnk.lane[l]).state = .testing ∨ (s.lnk.lane[l]).state = .failed)) ∧
    (∃ (l : Fin 64) (s : State), (s.lnk.lane[l]).state = .up ∧ (s.lnk.lane[l]).recovering = true ∧ (s.lnk.lane[l]).testPending = false) ∧
    (∃ (l : Fin 64) (g : Fin 16) (words : List Nat) (s : State), (s.lnk.lane[l]).state = .up ∧ (s.lnk.lane[l]).cfg.link = some g ∧ (headerOf words).site =
      s.lnk.site ∧ (headerOf words).node = (s.lnk.link[g]).cfg.peer ∧ (∀ k : Fin 64, (headerOf words).laneUp.getLsbD k = true) ∧ s.time.source =
      false) ∧
    (∃ (l : Fin 64) (g : Fin 16) (words : List Nat) (s : State), (s.lnk.lane[l]).state = .up ∧ (s.lnk.lane[l]).cfg.link = some g ∧ ((headerOf words).node
      ≠ (s.lnk.link[g]).cfg.peer ∨ (headerOf words).site ≠ s.lnk.site)) ∧
    (∃ (d : Desc) (l : Fin 64) (s : State), Runs 0x38 d s ∧ firstFail (laneCtlCheck d) = none ∧ d.unit .lane 64 = some l ∧ d.u 12 1 = 2 ∧
      (s.lnk.lane[l]).state ≠ .retired ∧ (s.lnk.lane[l]).state ≠ .off ∧ (carryingLane l s && !(((s.lnk.lane[l]).cfg.link).any fun g => (spareOf g
      s).isSome)) = false) ∧
    (∃ (d : Desc) (l : Fin 64) (s : State), Runs 0x38 d s ∧ firstFail (laneCtlCheck d) = none ∧ d.unit .lane 64 = some l ∧ d.u 12 1 = 2 ∧
      (s.lnk.lane[l]).state ≠ .retired ∧ (s.lnk.lane[l]).state ≠ .off ∧ (carryingLane l s && !(((s.lnk.lane[l]).cfg.link).any fun g => (spareOf g
      s).isSome)) = true) ∧
    (∃ (d : Desc) (l : Fin 64) (s : State), Runs 0x38 d s ∧ firstFail (laneCtlCheck d) = none ∧ d.unit .lane 64 = some l ∧ d.u 12 1 ≤ 1 ∧ ownedByOther
      0x0B l s = true ∧ (s.lnk.lane[l]).state ≠ .retired) ∧
    (∃ (d : Desc) (l : Fin 64) (s : State), Runs 0x38 d s ∧ firstFail (laneCtlCheck d) = none ∧ d.unit .lane 64 = some l ∧ d.u 12 1 = 1 ∧ ownedByOther
      0x0B l s = false ∧ (s.lnk.lane[l]).state = .up ∧ ({ (s.lnk.lane[l]).cfg with rate := d.u 13 1, fecOff := bitOf (d.u 14 1) 0, txInvert := bitOf (d.u 14 1) 1 }
      : LaneCfg) = (s.lnk.lane[l]).cfg) ∧
    (∃ (d : Desc) (l : Fin 64) (s : State), Runs 0x38 d s ∧ firstFail (laneCtlCheck d) = none ∧ d.unit .lane 64 = some l ∧ d.u 12 1 = 1 ∧ ownedByOther
      0x0B l s = false ∧ (s.lnk.lane[l]).state = .up ∧ ({ (s.lnk.lane[l]).cfg with rate := d.u 13 1, fecOff := bitOf (d.u 14 1) 0, txInvert := bitOf (d.u 14 1) 1 }
      : LaneCfg) ≠ (s.lnk.lane[l]).cfg) :=
  ⟨⟨63, ((testOf .lane 63 { serves with flt := { serves.flt with selftests := [{ kind := .lane, index := 63, source := 192, injectedOnly := false, hosts := [] }] }, lnk := { serves.lnk with lane := (upd serves.lnk.lane 63 fun x => { x with state := .testing }) } }).get
     (by decide +kernel)), { serves with flt := { serves.flt with selftests := [{ kind := .lane, index := 63, source := 192, injectedOnly := false, hosts := [] }] }, lnk := { serves.lnk with lane := (upd serves.lnk.lane 63 fun x => { x with state := .testing }) } },
     by decide +kernel⟩,
   ⟨63, { serves with lnk := { serves.lnk with lane := (upd serves.lnk.lane (63 : Fin 64) fun x => { x with state := .up, recovering := true, testPending := false }) } },
     by decide +kernel⟩,
   ⟨63, 15, [0, 0, 0, 0, 0xFFFFFFFFFFFFFFFF], { serves with lnk := { serves.lnk with lane := (upd serves.lnk.lane (63 : Fin 64) fun x => { x with state := .up, cfg := { x.cfg with link := some 15 } }) }, time := { serves.time with source := false } },
     by decide +kernel⟩,
   ⟨63, 15, [0, 0x100], { serves with lnk := { serves.lnk with lane := (upd serves.lnk.lane (63 : Fin 64) fun x => { x with state := .up, cfg := { x.cfg with link := some 15 } }) } },
     by decide +kernel⟩,
   ⟨(cmd (target .lane 63) [(12, 1, 2)]), 63, { serves with lnk := { serves.lnk with lane := (upd serves.lnk.lane (63 : Fin 64) fun x => { x with state := .up }) } },
     by decide +kernel⟩,
   ⟨(cmd (target .lane 63) [(12, 1, 2)]), 63, { serves with lnk := { serves.lnk with lane := (upd serves.lnk.lane (63 : Fin 64) fun x => { x with state := .up }), feeds := [{ stream := 1, feed := 0, link := 14, lane := some 63 }] } },
     by decide +kernel⟩,
   ⟨(cmd (target .lane 63) [(12, 1, 1)]), 63, { serves with cfg := { serves.cfg with owners := [{ cls := 0x0B, feature := 1, index := 63, inst := 0 }] } },
     by decide +kernel⟩,
   ⟨(cmd (target .lane 63) [(12, 1, 1)]), 63, { serves with lnk := { serves.lnk with lane := (upd serves.lnk.lane (63 : Fin 64) fun x => { x with state := .up }) } },
     by decide +kernel⟩,
   ⟨(cmd (target .lane 63) [(12, 1, 1), (12, 1, 1), (14, 1, 2)]), 63, { serves with lnk := { serves.lnk with lane := (upd serves.lnk.lane (63 : Fin 64) fun x => { x with state := .up }) } },
     by decide +kernel⟩⟩

theorem witness_StreamsAreMappedSentAndPlayed :
    (∃ (d : Desc) (bs : List Byte) (l : List StreamEntry) (u s : State), Runs 0x39 d s ∧ linkMapCheck d = none ∧ d.bytes = some bs ∧ streamsOf (bs.length
      / 16) bs = some l ∧ entriesOk (linksNow s) (defsNow s) l = true ∧ streamsDistinct (mergeEntries s.lnk.streams l) = true ∧ s.lnk.pending = none ∧
      s.cfg.commit = none ∧ feedsFit (linksNow s) (lanesNow s) (defsNow s) (mergeEntries s.lnk.streams l) = true ∧ reserveDelays (defsNow
      (startCommand d s)) (mergeEntries s.lnk.streams l) (startCommand d s) = some u) ∧
    (∃ (p : PendingMap) (s : State), s.lnk.pending = some p ∧ p.linkPart = none) ∧
    (∃ (p : PendingMap) (s : State), s.lnk.pending = some p) ∧
    (∃ (descriptor : Nat) (s : State), (segmentHeadOf descriptor).origin = s.lnk.node) ∧
    (∃ (l : Fin 64) (g : Fin 16) (e : StreamEntry) (descriptor : Nat) (s : State), (s.lnk.lane[l]).cfg.link = some g ∧ (s.lnk.lane[l]).state = .up ∧
      (s.lnk.streams.find? fun e => e.stream == (segmentHeadOf descriptor).stream && needsIn e.role) = some e ∧ e.role = .forward ∧ (segmentHeadOf
      descriptor).origin ≠ s.lnk.node ∧ arrivalLink (linksNow s) e (segmentHeadOf descriptor).feed = some g) ∧
    (∃ (e : StreamEntry) (stream : Nat) (s : State), (s.lnk.streams.find? fun e => e.stream == stream && (e.role == .terminate || e.role == .dropForward
      || e.role == .addForward)) = some e) ∧
    (∃ (h : SegmentHead), h.stream < 2 ^ 16 ∧ h.count < 2 ^ 8 ∧ h.width < 4 ∧ h.feed < 2 ∧ h.origin < 16 ∧ h.contrib < 2 ^ 9 ∧ h.number < 2 ^ 24) ∧
    (∃ (d : Desc) (bs : List Byte) (s : State), Runs 0x39 d s ∧ linkMapCheck d = none ∧ d.bytes = some bs ∧ streamsOf (bs.length / 16) bs = none) ∧
    (∃ (d : Desc) (bs : List Byte) (l : List StreamEntry) (s : State), Runs 0x39 d s ∧ linkMapCheck d = none ∧ d.bytes = some bs ∧ streamsOf (bs.length /
      16) bs = some l ∧ entriesOk (linksNow s) (defsNow s) l = true ∧ streamsDistinct (mergeEntries s.lnk.streams l) = true ∧ (s.lnk.pending.isSome =
      true ∨ s.cfg.commit.isSome = true)) :=
  ⟨⟨streamCmd, streamBytes, streamList, (Option.isSome_iff_exists.mp (show (reserveDelays (defsNow (startCommand streamCmd linked)) (mergeEntries
     linked.lnk.streams streamList) (startCommand streamCmd linked)).isSome = true by decide +kernel)).imp fun _ h => ⟨linked, by decide +kernel,
     by decide +kernel, by decide +kernel, by decide +kernel, by decide +kernel, by decide +kernel, rfl, rfl, by decide +kernel, h⟩⟩,
   ⟨{ entries := [], at' := 4000000, issue := some iss0, linkPart := none }, { serves with lnk := { serves.lnk with pending := some ({ entries := [], at' := 4000000, issue := some iss0, linkPart := none } : PendingMap) } },
     by decide +kernel⟩,
   ⟨{ entries := [], at' := 4000000, issue := some iss0, linkPart := none }, { serves with lnk := { serves.lnk with pending := some ({ entries := [], at' := 4000000, issue := some iss0, linkPart := none } : PendingMap) } },
     by decide +kernel⟩,
   ⟨1, serves, by decide +kernel⟩,
   ⟨63, 15, { slice := 0, path := .a, role := .forward, width := 3, stream := 65535, linkIn := some 15, linkOut := some 14, target := 0, k := 13, priority := 7, ring := false, noUp0 := false, noUp1 := false, expected := 0 },
     (0xFFFF + 2 ^ 27), { serves with lnk := { serves.lnk with lane := (upd serves.lnk.lane (63 : Fin 64) fun x => { x with cfg := { x.cfg with link := some 15 }, state := .up }), streams := [{ slice := 0, path := .a, role := .forward, width := 3, stream := 65535, linkIn := some 15, linkOut := some 14, target := 0, k := 13, priority := 7, ring := false, noUp0 := false, noUp1 := false, expected := 0 }] } },
     by decide +kernel⟩,
   ⟨{ slice := 0, path := .a, role := .dropForward, width := 3, stream := 65535, linkIn := some 15, linkOut := some 14, target := 250000, k := 13, priority := 7, ring := false, noUp0 := false, noUp1 := false, expected := 0 },
     65535, { serves with lnk := { serves.lnk with streams := [{ slice := 0, path := .a, role := .dropForward, width := 3, stream := 65535, linkIn := some 15, linkOut := some 14, target := 250000, k := 13, priority := 7, ring := false, noUp0 := false, noUp1 := false, expected := 0 }] } },
     by decide +kernel⟩,
   ⟨{ stream := 65535, count := 1, width := 3, feed := 1, origin := 0, contrib := 1, number := 0 }, by decide +kernel⟩,
   ⟨(cmdBuf 0 [] (List.replicate 16 255)), (List.replicate 16 255), serves, by decide +kernel⟩,
   ⟨(streamCmd), streamBytes, ((streamsOf 1 streamBytes).get (by decide +kernel)), { serves with lnk := { serves.lnk with link := (upd (upd serves.lnk.link 15 fun x => { x with cfg := { x.cfg with kind := 1 } }) 14 fun x => { x with cfg := { x.cfg with kind := 1 } }), lane := (upd serves.lnk.lane 63 fun x => { x with cfg := { x.cfg with link := some 14 } }) }, cfg := { serves.cfg with commit := some { issue := iss0, instant := 128, window := 10, area := 2, image := emptyImage } } },
     by decide +kernel⟩⟩

theorem witness_ImagesAreStagedCommittedAndReturned :
    (∃ (d : Desc) (sigOk digestOk : Bool) (bs : List Byte) (i : Image) (b : Fin 48) (s : State), Runs 0x02 d s ∧ stageCheck d = none ∧ d.bytes = some bs ∧
      leAt bs 12 4 = d.length.toNat ∧ s.cfg.commit = none ∧ verifyImage bs sigOk digestOk (startCommand d s) = .ok i ∧ stagedChoice (onPlc (fun p => { p with stagedBank := none })
      (startCommand d s)) = some b) ∧
    (∃ (d : Desc) (ue : Bool) (x : Slot) (tt : Nat) (s : State), Runs 0x03 d s ∧ firstFail (commitFields d) = none ∧ d.byte 22 = 0 ∧ commitBusy s.cfg =
      false ∧ commitCheck d ue (startCommand d s) = none ∧ s.cfg.staged = some x ∧ commitInstant (d.u 12 8) s = some tt) ∧
    (∃ (p : PendingCommit) (s : State), s.cfg.commit = some p) ∧
    (∃ (d : Desc) (e : Nat) (s : State), Runs 0x04 d s ∧ d.indirect = false ∧ d.tgt = 0x0C000000 ∧ (d.strayCheck [(12, 4)]).1 = false ∧ confirmLate s =
      false ∧ s.cfg.active.isSome = true ∧ slotVersion s.cfg.active = d.u 12 4 ∧ s.cfg.window = some e) ∧
    (∃ (d : Desc) (tt : Nat) (s : State), Runs 0x05 d s ∧ d.indirect = false ∧ d.tgt = 0x0C000001 ∧ (d.strayCheck [(12, 8)]).1 = false ∧
      s.cfg.previous.isSome = true ∧ s.cfg.commit = none ∧ s.cfg.rollback = none ∧ commitInstant (d.u 12 8) s = some tt) ∧
    (∃ (e : Nat) (s : State), s.cfg.window = some e) ∧
    (∃ (a : Nat) (s : State), s.cfg.autoReturn = some a ∧ s.cfg.rollback = none) ∧
    (∃ (x : Slot) (b : Fin 48) (s : State), s.cfg.staged = some x ∧ s.plc.stagedBank = none ∧ stagedChoice s = some b ∧ s.cfg.returned = false ∧
      (s.flash.area[x.area]).isSome = true ∧ ownedPart s = true ∧ contentOk x.image s = true ∧ bindingOk x.image = true ∧ s.cfg.high <
      x.image.version) ∧
    (∃ (d : Desc) (sigOk digestOk : Bool) (bs : List Byte) (r : Refuse) (s : State), Runs 0x02 d s ∧ stageCheck d = none ∧ d.bytes = some bs ∧ leAt bs 12
      4 = d.length.toNat ∧ s.cfg.commit = none ∧ verifyImage bs sigOk digestOk (startCommand d s) = .error r) ∧
    (∃ (d : Desc) (s : State), Runs 0x03 d s ∧ firstFail (commitFields d) = none ∧ d.byte 22 = 0 ∧ commitBusy s.cfg = true) ∧
    (∃ (d : Desc) (ue : Bool) (r : Refuse) (s : State), Runs 0x03 d s ∧ firstFail (commitFields d) = none ∧ d.byte 22 = 0 ∧ commitBusy s.cfg = false ∧
      commitCheck d ue (startCommand d s) = some r) ∧
    (∃ (d : Desc) (s : State), Runs 0x04 d s ∧ d.indirect = false ∧ d.tgt = 0x0C000000 ∧ (d.strayCheck [(12, 4)]).1 = false ∧ confirmLate s = true) ∧
    (∃ (d : Desc) (s : State), Runs 0x04 d s ∧ d.indirect = false ∧ d.tgt = 0x0C000000 ∧ (d.strayCheck [(12, 4)]).1 = false ∧ confirmLate s = false ∧
      s.cfg.active.isSome = true ∧ slotVersion s.cfg.active = d.u 12 4 ∧ s.cfg.window = none) ∧
    (∃ (iss : Issue) (tt : Nat) (s : State), s.cfg.rollback = some (iss, tt) ∧ s.cfg.autoReturn = none ∧ s.cfg.window = none) ∧
    (∃ (x : Slot) (b : Fin 48) (s : State), s.cfg.staged = some x ∧ s.plc.stagedBank = none ∧ stagedChoice s = some b ∧ s.cfg.returned = false ∧
      (s.flash.area[x.area]).isSome = true) :=
  ⟨⟨stageCmd, true, true, imageBytes, (ok_of_toOption (show (verifyImage imageBytes true true (startCommand stageCmd keyed)).toOption.isSome = true
     by decide +kernel)).imp fun _ h => ⟨0, keyed, by decide +kernel, by decide +kernel, by decide +kernel, by decide +kernel, rfl, h,
     by decide +kernel⟩⟩,
   ⟨(cmd 0x0C000002 [(20, 2, 3600), (24, 4, 2)]), false, { area := 2, image := { emptyImage with version := 2, window := 10 } }, ((commitInstant 0
     serves).get (by decide +kernel)), { serves with cfg := { serves.cfg with staged := some ({ area := 2, image := { emptyImage with version := 2, window := 10 } } : Slot) }, plc := { serves.plc with stagedBank := some 47 } },
     by decide +kernel⟩,
   ⟨{ issue := iss0, instant := 128, window := 10, area := 2, image := { emptyImage with version := 1 } }, { serves with cfg := { serves.cfg with commit := some ({ issue := iss0, instant := 128, window := 10, area := 2, image := { emptyImage with version := 1 } } : PendingCommit) } },
     by decide +kernel⟩,
   ⟨(cmd (0x0C000000) [(12, 4, 2)]), 1, { serves with cfg := { serves.cfg with window := some 1, active := some { area := 2, image := { emptyImage with version := 2, window := 10 } } } },
     by decide +kernel⟩,
   ⟨(cmd (0x0C000001) []), ((commitInstant 0 serves).get (by decide +kernel)), { serves with cfg := { serves.cfg with commit := none, rollback := none, previous := some { area := 2, image := { emptyImage with version := 2, window := 10 } } } },
     by decide +kernel⟩,
   ⟨1, { serves with cfg := { serves.cfg with window := some 1 } }, by decide +kernel⟩,
   ⟨1, { serves with cfg := { serves.cfg with autoReturn := some 1, rollback := none } }, by decide +kernel⟩,
   ⟨{ area := 2, image := { emptyImage with version := 2, window := 10 } }, 0, { imaged with cfg := { imaged.cfg with staged := some ({ area := 2, image := { emptyImage with version := 2, window := 10 } } : Slot), returned := false }, plc := { imaged.plc with stagedBank := none } },
     by decide +kernel⟩,
   ⟨stageCmd, true, true, imageBytes, (error_of_toOption (show (verifyImage imageBytes true true (startCommand stageCmd serves)).toOption.isNone = true
     by decide +kernel)).imp fun _ h => ⟨serves, by decide +kernel, by decide +kernel, by decide +kernel, by decide +kernel, rfl, h⟩⟩,
   ⟨(cmd 0x0C000002 []), { serves with cfg := { serves.cfg with window := some 7 } }, by decide +kernel⟩,
   ⟨(cmd 0x0C000002 []), true, ((commitCheck (cmd 0x0C000002 []) true (startCommand (cmd 0x0C000002 []) serves)).get (by decide +kernel)), serves,
     by decide +kernel⟩,
   ⟨(cmd (0x0C000000) []), { serves with cfg := { serves.cfg with autoReturn := some 7 } }, by decide +kernel⟩,
   ⟨(cmd (0x0C000000) [(12, 4, 2)]), { serves with cfg := { serves.cfg with window := none, active := some { area := 2, image := { emptyImage with version := 2, window := 10 } } } },
     by decide +kernel⟩,
   ⟨iss0, 1, { serves with cfg := { serves.cfg with rollback := some (iss0, 1), autoReturn := none, window := none } }, by decide +kernel⟩,
   ⟨{ area := 2, image := { emptyImage with version := 2, window := 10 } }, 0, { imaged with cfg := { imaged.cfg with staged := some ({ area := 2, image := { emptyImage with version := 2, window := 10 } } : Slot), returned := false }, plc := { imaged.plc with stagedBank := none } },
     by decide +kernel⟩⟩

theorem witness_ACancelWithdrawsTheCommit :
    (∃ (d : Desc) (p : PendingCommit) (s : State), Runs 0x03 d s ∧ firstFail (commitFields d) = none ∧ d.byte 22 = 1 ∧ s.cfg.commit = some p) ∧
    (∃ (d : Desc) (s : State), Runs 0x03 d s ∧ firstFail (commitFields d) = none ∧ d.byte 22 = 1 ∧ s.cfg.commit = none) :=
  ⟨⟨(cmd 0x0C000002 [(22, 1, 1), (22, 1, 1)]), { issue := iss0, instant := 128, window := 10, area := 2, image := { emptyImage with version := 1 } }, { serves with cfg := { serves.cfg with commit := some ({ issue := iss0, instant := 128, window := 10, area := 2, image := { emptyImage with version := 1 } } : PendingCommit) } },
     by decide +kernel⟩,
   ⟨(cmd 0x0C000002 [(22, 1, 1), (22, 1, 1)]), { serves with cfg := { serves.cfg with commit := none } }, by decide +kernel⟩⟩

theorem witness_StepsMoveTheEpoch :
    ∃ (p : PendingStep) (s : State), s.time.step = some p :=
  ⟨{ delta := -4, toValue := none, strobe := 128, cause := .ppsAlign, newState := .aligned, baseError := 0, edge := some 0, issue := some iss0 }, { serves with time := { serves.time with step := some ({ delta := -4, toValue := none, strobe := 128, cause := .ppsAlign, newState := .aligned, baseError := 0, edge := some 0, issue := some iss0 } : PendingStep) } },
     by decide +kernel⟩

theorem witness_FlashWritesAndTheLedger :
    (∃ (i : FlashItem) (rest : List FlashItem) (s : State), s.flash.queue = i :: rest ∧ s.flash.held = false ∧ s.flash.failed = false) ∧
    (∃ (i : FlashItem) (rest : List FlashItem) (s : State), s.flash.queue = i :: rest ∧ s.flash.held = false ∧ s.flash.failed = false ∧ s.flash.tries < 2)
      ∧
    (∃ (i : FlashItem) (rest : List FlashItem) (s : State), s.flash.queue = i :: rest ∧ s.flash.held = false ∧ s.flash.failed = false ∧ s.flash.tries = 2)
      ∧
    (∃ (s : State), s.flash.failed = true) ∧
    (∃ (m : Nat) (s : State), allHeld (·.flash) s = some m ∧ s.flash.held = true) ∧
    (∃ (i : FlashItem) (rest : List FlashItem) (s : State), s.flash.queue = i :: rest ∧ s.flash.held = false ∧ s.flash.failed = false ∧ 3 ≤ s.flash.tries)
      ∧
    (∃ (s : State), (s.flash.queue = [] ∨ s.flash.held = true ∨ s.flash.failed = true)) ∧
    (∃ (s : State), zoneValue (hottestZone s) s = 760) ∧
    (∃ (s : State), s.thm.lifeFull = false ∧ 1262304000 * 2 ^ 32 ≤ s.thm.ledger.life) :=
  ⟨⟨.ledger, [], { serves with flash := { serves.flash with queue := (.ledger : FlashItem) :: [], held := false, failed := false } },
     by decide +kernel⟩,
   ⟨.ledger, [], { serves with flash := { serves.flash with queue := (.ledger : FlashItem) :: [], held := false, failed := false } }, by decide +kernel⟩,
   ⟨.ledger, [], { serves with flash := { serves.flash with queue := (.ledger : FlashItem) :: [], held := false, failed := false, tries := 2 } },
     by decide +kernel⟩,
   ⟨{ serves with flash := { serves.flash with failed := true } }, by decide +kernel⟩,
   ⟨((allHeld (·.flash) { serves with thm := { serves.thm with zone := Vector.replicate 6 { serves.thm.zone[0] with timers := { serves.thm.zone[0].timers with flash := some 5 } } } }).get
     (by decide +kernel)), { serves with flash := { serves.flash with held := true }, thm := { serves.thm with zone := Vector.replicate 6 { serves.thm.zone[0] with timers := { serves.thm.zone[0].timers with flash := some 5 } } } },
     by decide +kernel⟩,
   ⟨.ledger, [], { serves with flash := { serves.flash with queue := (.ledger : FlashItem) :: [], held := false, failed := false, tries := 3 } },
     by decide +kernel⟩,
   ⟨serves, by decide +kernel⟩,
   ⟨{ serves with thm := { serves.thm with zone := Vector.replicate 6 { serves.thm.zone[0] with value := 760 } } }, by decide +kernel⟩,
   ⟨{ serves with thm := { serves.thm with lifeFull := false, ledger := { serves.thm.ledger with life := 1262304000 * 2 ^ 32 } } }, by decide +kernel⟩⟩

theorem witness_PlacementCommands_a :
    (∃ (d : Desc) (sl : SliceId) (s : State), Runs 0x40 d s ∧ pinCheck d (startCommand d s) = none ∧ d.unit .slice 256 = some sl ∧ d.byte 12 = 0) ∧
    (∃ (d : Desc) (sl : SliceId) (s : State), Runs 0x40 d s ∧ pinCheck d (startCommand d s) = none ∧ d.unit .slice 256 = some sl ∧ d.byte 12 = 1 ∧
      pinConforms ({ slice := sl, kind := d.byte 13, which := d.byte 14, mask := BitVec.ofNat 64 (d.u 16 8) } : Pin) (recordPin ({ slice := sl, kind := d.byte 13, which := d.byte 14, mask := BitVec.ofNat 64 (d.u 16 8) }
      : Pin) (startCommand d s)) = true) ∧
    (∃ (d : Desc) (l : Fin 64) (s : State), Runs 0x41 d s ∧ d.indirect = false ∧ d.byte 12 = 1 ∧ (d.strayCheck [(12, 1)]).1 = false ∧ d.tgt = target .lane
      l ∧ ownedByOther 0x0B l s = false ∧ (s.lnk.lane[l]).state ≠ .retired ∧ canEmptyLane l (startCommand d s) = true) ∧
    (∃ (d : Desc) (e : Fin 64) (s : State), Runs 0x41 d s ∧ d.indirect = false ∧ d.byte 12 = 1 ∧ (d.strayCheck [(12, 1)]).1 = false ∧ d.tgt = target
      .engine e ∧ (s.plc.engine[e]).state = .testing) ∧
    (∃ (d : Desc) (b : Fin 48) (s : State), Runs 0x41 d s ∧ d.indirect = false ∧ d.byte 12 ≤ 1 ∧ (d.strayCheck [(12, 1)]).1 = false ∧ d.tgt = target .bank
      b ∧ (s.mem.bank[b]).state = .owned) ∧
    (∃ (d : Desc) (s : State), Runs 0x42 d s ∧ d.indirect = false ∧ d.tgt = 0 ∧ d.byte 12 = 0 ∧ d.byte 13 = 1 ∧ (d.strayCheck [(12, 2)]).1 = false ∧
      passRunning s = false) ∧
    (∃ (d : Desc) (s : State), Runs 0x42 d s ∧ d.indirect = false ∧ d.tgt = 0 ∧ d.byte 12 = 0 ∧ d.byte 13 = 0 ∧ (d.strayCheck [(12, 2)]).1 = false ∧
      passRunning s = false) ∧
    (∃ (d : Desc) (b : Fin 48) (s : State), Runs 0x60 d s ∧ d.indirect = false ∧ (d.strayCheck []).1 = false ∧ d.tgt = target .bank b ∧
      (s.mem.bank[b]).state = .retired) ∧
    (∃ (d : Desc) (b : Fin 48) (s : State), Runs 0x60 d s ∧ d.indirect = false ∧ (d.strayCheck []).1 = false ∧ d.tgt = target .bank b ∧
      (s.mem.bank[b]).state = .owned) ∧
    (∃ (d : Desc) (b : Fin 48) (s : State), Runs 0x60 d s ∧ d.indirect = false ∧ (d.strayCheck []).1 = false ∧ d.tgt = target .bank b ∧
      (s.mem.bank[b]).state = .testing) ∧
    (∃ (d : Desc) (sl : SliceId) (s : State), Runs 0x40 d s ∧ pinCheck d (startCommand d s) = none ∧ d.unit .slice 256 = some sl ∧ d.byte 12 = 1 ∧
      pinConforms ({ slice := sl, kind := d.byte 13, which := d.byte 14, mask := BitVec.ofNat 64 (d.u 16 8) } : Pin) (recordPin ({ slice := sl, kind := d.byte 13, which := d.byte 14, mask := BitVec.ofNat 64 (d.u 16 8) }
      : Pin) (startCommand d s)) = false ∧ pinMoves ({ slice := sl, kind := d.byte 13, which := d.byte 14, mask := BitVec.ofNat 64 (d.u 16 8) } : Pin)
      (recordPin ({ slice := sl, kind := d.byte 13, which := d.byte 14, mask := BitVec.ofNat 64 (d.u 16 8) } : Pin) (startCommand d s)) = none) ∧
    (∃ (d : Desc) (sl : SliceId) (s x : State), Runs 0x40 d s ∧ pinCheck d (startCommand d s) = none ∧ d.unit .slice 256 = some sl ∧ d.byte 12 = 1 ∧
      pinConforms ({ slice := sl, kind := d.byte 13, which := d.byte 14, mask := BitVec.ofNat 64 (d.u 16 8) } : Pin) (recordPin ({ slice := sl, kind := d.byte 13, which := d.byte 14, mask := BitVec.ofNat 64 (d.u 16 8) }
      : Pin) (startCommand d s)) = false ∧ pinMoves ({ slice := sl, kind := d.byte 13, which := d.byte 14, mask := BitVec.ofNat 64 (d.u 16 8) } : Pin)
      (recordPin ({ slice := sl, kind := d.byte 13, which := d.byte 14, mask := BitVec.ofNat 64 (d.u 16 8) } : Pin) (startCommand d s)) = some x ∧
      (sliceOnRung sl s = true ∨ migrating sl s = true)) ∧
    (∃ (d : Desc) (sl : SliceId) (s x : State), Runs 0x40 d s ∧ pinCheck d (startCommand d s) = none ∧ d.unit .slice 256 = some sl ∧ d.byte 12 = 1 ∧
      pinConforms ({ slice := sl, kind := d.byte 13, which := d.byte 14, mask := BitVec.ofNat 64 (d.u 16 8) } : Pin) (recordPin ({ slice := sl, kind := d.byte 13, which := d.byte 14, mask := BitVec.ofNat 64 (d.u 16 8) }
      : Pin) (startCommand d s)) = false ∧ pinMoves ({ slice := sl, kind := d.byte 13, which := d.byte 14, mask := BitVec.ofNat 64 (d.u 16 8) } : Pin)
      (recordPin ({ slice := sl, kind := d.byte 13, which := d.byte 14, mask := BitVec.ofNat 64 (d.u 16 8) } : Pin) (startCommand d s)) = some x ∧
      sliceOnRung sl s = false ∧ migrating sl s = false) :=
  ⟨⟨(cmd (target .slice 255) []), 255, sliced, by decide +kernel⟩,
   ⟨(cmd (target .slice 255) [(12, 1, 1), (12, 1, 1), (16, 8, 9223372036854775808)]), 255, sliced, by decide +kernel⟩,
   ⟨(cmd (target .lane 63) [(12, 1, 1)]), 63, serves, by decide +kernel⟩,
   ⟨(cmd (target .engine 63) [(12, 1, 1)]), 63, { serves with plc := { serves.plc with engine := (upd serves.plc.engine (63 : Fin 64) fun x => { x with state := .testing }) } },
     by decide +kernel⟩,
   ⟨(cmd (target .bank 47) []), 47, { serves with mem := { serves.mem with bank := (upd serves.mem.bank (47 : Fin 48) fun x => { x with state := .owned }) } },
     by decide +kernel⟩,
   ⟨(cmd (0) [(13, 1, 1)]), serves, by decide +kernel⟩,
   ⟨(cmd (0) []), serves, by decide +kernel⟩,
   ⟨(cmd (target .bank 47) []), 47, { serves with mem := { serves.mem with bank := (upd serves.mem.bank (47 : Fin 48) fun x => { x with state := .retired }) } },
     by decide +kernel⟩,
   ⟨(cmd (target .bank 47) []), 47, { serves with mem := { serves.mem with bank := (upd serves.mem.bank (47 : Fin 48) fun x => { x with state := .owned }) } },
     by decide +kernel⟩,
   ⟨(cmd (target .bank 47) []), 47, { serves with mem := { serves.mem with bank := (upd serves.mem.bank (47 : Fin 48) fun x => { x with state := .testing }) } },
     by decide +kernel⟩,
   ⟨(cmd (target .slice 255) [(12, 1, 1), (12, 1, 1), (16, 8, 9223372036854775808)]), 255, { placed with plc := { placed.plc with engine := Vector.replicate 64 { state := .retired, forbid := false } } },
     by decide +kernel⟩,
   ⟨pinCmd, 255, runged, (Option.isSome_iff_exists.mp (show (pinMoves pinned (recordPin pinned (startCommand pinCmd runged))).isSome = true
     by decide +kernel)).imp fun _ h => ⟨by decide +kernel, by decide +kernel, by decide +kernel, by decide +kernel, by decide +kernel, h,
     by decide +kernel⟩⟩,
   ⟨pinCmd, 255, placed, (Option.isSome_iff_exists.mp (show (pinMoves pinned (recordPin pinned (startCommand pinCmd placed))).isSome = true
     by decide +kernel)).imp fun _ h => ⟨by decide +kernel, by decide +kernel, by decide +kernel, by decide +kernel, by decide +kernel, h,
     by decide +kernel, by decide +kernel⟩⟩⟩

theorem witness_PlacementCommands_b :
    (∃ (d : Desc) (e : Fin 64) (s : State), Runs 0x41 d s ∧ d.indirect = false ∧ (d.strayCheck [(12, 1)]).1 = false ∧ d.tgt = target .engine e ∧ d.byte 12
      = 1 ∧ (s.plc.engine[e]).state = .available ∧ canEmptyEngine e (startCommand d s) = true) ∧
    (∃ (d : Desc) (e : Fin 64) (s : State), Runs 0x41 d s ∧ d.indirect = false ∧ (d.strayCheck [(12, 1)]).1 = false ∧ d.tgt = target .engine e ∧ d.byte 12
      = 1 ∧ (s.plc.engine[e]).state = .available ∧ canEmptyEngine e (startCommand d s) = false) ∧
    (∃ (d : Desc) (e : Fin 64) (s : State), Runs 0x41 d s ∧ d.indirect = false ∧ (d.strayCheck [(12, 1)]).1 = false ∧ d.tgt = target .engine e ∧ d.byte 12
      = 0 ∧ (s.plc.engine[e]).state = .available) ∧
    (∃ (d : Desc) (e : Fin 64) (s : State), Runs 0x41 d s ∧ d.indirect = false ∧ (d.strayCheck [(12, 1)]).1 = false ∧ d.tgt = target .engine e ∧ d.byte 12
      = 0 ∧ (s.plc.engine[e]).state = .forbidden) ∧
    (∃ (d : Desc) (b : Fin 48) (s : State), Runs 0x41 d s ∧ d.indirect = false ∧ (d.strayCheck [(12, 1)]).1 = false ∧ d.tgt = target .bank b ∧ d.byte 12 =
      1 ∧ (s.mem.bank[b]).state = .testing) ∧
    (∃ (d : Desc) (b : Fin 48) (s : State), Runs 0x41 d s ∧ d.indirect = false ∧ (d.strayCheck [(12, 1)]).1 = false ∧ d.tgt = target .bank b ∧ d.byte 12 =
      1 ∧ (s.mem.bank[b]).state = .available ∧ canEmptyBank b (startCommand d s) = false) ∧
    (∃ (d : Desc) (b : Fin 48) (s : State), Runs 0x41 d s ∧ d.indirect = false ∧ (d.strayCheck [(12, 1)]).1 = false ∧ d.tgt = target .bank b ∧ d.byte 12 =
      0 ∧ (s.mem.bank[b]).state = .forbidden) ∧
    (∃ (d : Desc) (l : Fin 64) (s : State), Runs 0x41 d s ∧ d.indirect = false ∧ (d.strayCheck [(12, 1)]).1 = false ∧ d.tgt = target .lane l ∧
      ownedByOther 0x0B l s = false ∧ d.byte 12 = 1 ∧ (s.lnk.lane[l]).state ≠ .retired ∧ canEmptyLane l (startCommand d s) = false) ∧
    (∃ (d : Desc) (l : Fin 64) (s : State), Runs 0x41 d s ∧ d.indirect = false ∧ (d.strayCheck [(12, 1)]).1 = false ∧ d.tgt = target .lane l ∧
      ownedByOther 0x0B l s = false ∧ d.byte 12 = 0) ∧
    (∃ (d : Desc) (s : State), Runs 0x42 d s ∧ d.indirect = false ∧ d.tgt = 0 ∧ d.byte 12 ≤ 1 ∧ d.byte 13 ≤ 1 ∧ (d.strayCheck [(12, 2)]).1 = false ∧
      passRunning s = true) ∧
    (∃ (d : Desc) (s : State), Runs 0x42 d s ∧ d.indirect = false ∧ d.tgt = 0 ∧ d.byte 12 = 1 ∧ d.byte 13 = 1 ∧ (d.strayCheck [(12, 2)]).1 = false ∧
      passRunning s = false) ∧
    (∃ (d : Desc) (b : Fin 48) (s : State), Runs 0x60 d s ∧ d.indirect = false ∧ (d.strayCheck []).1 = false ∧ d.tgt = target .bank b ∧
      (s.mem.bank[b]).state = .available ∧ canEmptyBank b (startCommand d s) = true) ∧
    (∃ (d : Desc) (b : Fin 48) (s : State), Runs 0x60 d s ∧ d.indirect = false ∧ (d.strayCheck []).1 = false ∧ d.tgt = target .bank b ∧
      (s.mem.bank[b]).state = .available ∧ canEmptyBank b (startCommand d s) = false) :=
  ⟨⟨(cmd (target .engine 63) [(12, 1, 1)]), 63, { serves with plc := { serves.plc with engine := (upd serves.plc.engine (63 : Fin 64) fun x => { x with state := .available }) } },
     by decide +kernel⟩,
   ⟨(cmd (target .engine 63) [(12, 1, 1), (12, 1, 1)]), 63, { sliced with plc := { sliced.plc with placed := (upd sliced.plc.placed 255 fun x => { x with live := some { hosted with engines := [63] } }), engine := upd (Vector.replicate 64 { state := .retired, forbid := false }) 63 fun x => { x with state := .available } } },
     by decide +kernel⟩,
   ⟨(cmd (target .engine 63) []), 63, { serves with plc := { serves.plc with engine := (upd serves.plc.engine (63 : Fin 64) fun x => { x with state := .available }) } },
     by decide +kernel⟩,
   ⟨(cmd (target .engine 63) []), 63, { serves with plc := { serves.plc with engine := (upd serves.plc.engine (63 : Fin 64) fun x => { x with state := .forbidden }) } },
     by decide +kernel⟩,
   ⟨(cmd (target .bank 47) [(12, 1, 1)]), 47, { serves with mem := { serves.mem with bank := (upd serves.mem.bank (47 : Fin 48) fun x => { x with state := .testing }) } },
     by decide +kernel⟩,
   ⟨(cmd (target .bank 47) [(12, 1, 1), (12, 1, 1)]), 47, { serves with plc := { serves.plc with stagedBank := some 47 }, mem := { serves.mem with bank := upd (Vector.replicate 48 { serves.mem.bank[(0 : Fin 48)] with state := .retired }) 47 fun x => { x with state := .available } } },
     by decide +kernel⟩,
   ⟨(cmd (target .bank 47) []), 47, { serves with mem := { serves.mem with bank := (upd serves.mem.bank (47 : Fin 48) fun x => { x with state := .forbidden }) } },
     by decide +kernel⟩,
   ⟨(cmd (target .lane 63) [(12, 1, 1)]), 63, { serves with lnk := { serves.lnk with feeds := [{ stream := 1, feed := 0, link := 14, lane := some 63 }], lane := (upd serves.lnk.lane 63 fun x => { x with state := .up, cfg := { x.cfg with link := some 14 } }) } },
     by decide +kernel⟩,
   ⟨(cmd (target .lane 63) []), 63, serves, by decide +kernel⟩,
   ⟨(cmd (0) []), { serves with plc := { serves.plc with waiting := [{ slice := 255, part := 0, reason := .periodic, dst := none }] } },
     by decide +kernel⟩,
   ⟨(cmd (0) [(12, 1, 1), (13, 1, 1)]), serves, by decide +kernel⟩,
   ⟨(cmd (target .bank 47) []), 47, { serves with mem := { serves.mem with bank := (upd serves.mem.bank (47 : Fin 48) fun x => { x with state := .available }) } },
     by decide +kernel⟩,
   ⟨(cmd (target .bank 47) []), 47, { serves with plc := { serves.plc with stagedBank := some 47 }, mem := { serves.mem with bank := upd (Vector.replicate 48 { serves.mem.bank[(0 : Fin 48)] with state := .retired }) 47 fun x => { x with state := .available } } },
     by decide +kernel⟩⟩

theorem witness_MovesAndTests_a :
    (∃ (r : MoveReq) (src dst : Fin 64) (i : Fin 8) (s : State), (movesOf s).length < s.plc.moveLimit ∧ s.flt.fatal = false ∧ s.sec.restart = none ∧
      nextMove s = some r ∧ moveSource r s = some src ∧ moveTarget r s = some dst ∧ (r.reason = .evacuation → sliceOnRung r.slice s = false) ∧ findIdx
      s.plc.moves (·.isNone) = some i) ∧
    (∃ (i : Fin 8) (m : Move) (d : SliceDef) (s : State), s.plc.moves[i] = some m ∧ liveDef m.slice s = some d ∧ m.phase = .warmUp ∧ sliceOnRung m.slice s
      = false) ∧
    (∃ (i : Fin 8) (m : Move) (h : Hosting) (s : State), s.plc.moves[i] = some m ∧ m.phase = .cutover ∧ s.flt.fatal = false ∧ (s.plc.placed[m.slice]).live
      = some h) ∧
    (∃ (i : Fin 8) (m : Move) (s : State), s.plc.moves[i] = some m ∧ m.phase ≠ .warmUp ∧ 8192 ≤ m.shadowed ∧ m.reason ≠ .evacuation) ∧
    (∃ (i : Fin 8) (m : Move) (h : Hosting) (s : State), s.plc.moves[i] = some m ∧ m.phase ≠ .warmUp ∧ 8192 ≤ m.shadowed ∧ m.reason = .evacuation ∧
      (s.plc.placed[m.slice]).live = some h) ∧
    (∃ (sl : SliceId) (p : PathId) (dl : Bool) (f : Nat) (b : Buffer) (new : List (Fin 48 × BitVec 512)) (s : State), (s.plc.buffers.find? fun b => b.key
      == ({ slice := sl, path := p, delay := dl, feed := f } : BufKey) && b.copy.isSome) = some b ∧ b.copy = some new) ∧
    (∃ (e : Fin 64) (s : State), (s.plc.engine[e]).state = .testing) ∧
    (∃ (e : Fin 64) (x : SelfTest) (s : State), (s.plc.engine[e]).state = .testing ∧ testOf .engine e s = some x) ∧
    (∃ (b : Fin 48) (s : State), (s.mem.bank[b]).state = .testing ∧ (s.mem.bank[b]).recode = false) ∧
    (∃ (m : Nat) (s : State), s.plc.spread = false ∧ (retimeSpread s).plc.spreadSince = some m) ∧
    (∃ (m : Nat) (s : State), s.plc.spread = true ∧ (retimeSpread s).plc.spreadSince = some m) :=
  ⟨⟨{ slice := 255, part := 0, reason := .pin, dst := some 63 }, 7, 63, 0, { sliced with flt := { sliced.flt with fatal := false }, sec := { sliced.sec with restart := none }, plc := { sliced.plc with placed := (upd sliced.plc.placed 255 fun x => { x with live := some { engines := [7], cost := 4000, need := 1024, lines := [] } }), waiting := [{ slice := 255, part := 0, reason := .pin, dst := some 63 }] } },
     by decide +kernel⟩,
   ⟨7, { slice := 255, part := 0, src := 7, dst := 63, reason := .pin, phase := .warmUp, start := 128, matched := 0, shadowed := 0 }, ((liveDef ({ slice := 255, part := 0, src := 7, dst := 63, reason := .pin, phase := .warmUp, start := 128, matched := 0, shadowed := 0 }
     : Move).slice { sliced with plc := { sliced.plc with moves := (upd sliced.plc.moves (7 : Fin 8) fun _ => some ({ slice := 255, part := 0, src := 7, dst := 63, reason := .pin, phase := .warmUp, start := 128, matched := 0, shadowed := 0 } : Move)) } }).get
     (by decide +kernel)), { sliced with plc := { sliced.plc with moves := (upd sliced.plc.moves (7 : Fin 8) fun _ => some ({ slice := 255, part := 0, src := 7, dst := 63, reason := .pin, phase := .warmUp, start := 128, matched := 0, shadowed := 0 } : Move)) } },
     by decide +kernel⟩,
   ⟨7, { slice := 255, part := 0, src := 7, dst := 63, reason := .pin, phase := .cutover, start := 128, matched := 0, shadowed := 2100 }, hosted, { serves with plc := { serves.plc with moves := (upd serves.plc.moves (7 : Fin 8) fun _ => some ({ slice := 255, part := 0, src := 7, dst := 63, reason := .pin, phase := .cutover, start := 128, matched := 0, shadowed := 2100 } : Move)), placed := (upd serves.plc.placed ({ slice := 255, part := 0, src := 7, dst := 63, reason := .pin, phase := .cutover, start := 128, matched := 0, shadowed := 2100 } : Move).slice fun x => { x with live := some hosted }) }, flt := { serves.flt with fatal := false } },
     by decide +kernel⟩,
   ⟨7, { slice := 255, part := 0, src := 7, dst := 63, reason := .pin, phase := .shadow, start := 128, matched := 0, shadowed := 8192 }, { serves with plc := { serves.plc with moves := (upd serves.plc.moves (7 : Fin 8) fun _ => some ({ slice := 255, part := 0, src := 7, dst := 63, reason := .pin, phase := .shadow, start := 128, matched := 0, shadowed := 8192 } : Move)) } },
     by decide +kernel⟩,
   ⟨7, { slice := 255, part := 0, src := 7, dst := 63, reason := .evacuation, phase := .shadow, start := 128, matched := 0, shadowed := 8192 }, hosted, { serves with plc := { serves.plc with moves := (upd serves.plc.moves (7 : Fin 8) fun _ => some ({ slice := 255, part := 0, src := 7, dst := 63, reason := .evacuation, phase := .shadow, start := 128, matched := 0, shadowed := 8192 } : Move)), placed := (upd serves.plc.placed ({ slice := 255, part := 0, src := 7, dst := 63, reason := .evacuation, phase := .shadow, start := 128, matched := 0, shadowed := 8192 } : Move).slice fun x => { x with live := some hosted }) } },
     by decide +kernel⟩,
   ⟨255, .b, true, 1, { key := { slice := 255, path := .b, delay := true, feed := 1 }, chunks := [(0, 3)], copy := some [(47, 12)] }, [(47, 12)], { serves with plc := { serves.plc with buffers := [{ key := { slice := 255, path := .b, delay := true, feed := 1 }, chunks := [(0, 3)], copy := some [(47, 12)] }] } },
     by decide +kernel⟩,
   ⟨63, { serves with plc := { serves.plc with engine := (upd serves.plc.engine (63 : Fin 64) fun x => { x with state := .testing }) } },
     by decide +kernel⟩,
   ⟨63, ((testOf .engine 63 { serves with plc := { serves.plc with engine := (upd serves.plc.engine (63 : Fin 64) fun x => { x with state := .testing }) }, flt := { serves.flt with selftests := [{ kind := .engine, index := 63, source := 101, injectedOnly := false, hosts := [] }] } }).get
     (by decide +kernel)), { serves with plc := { serves.plc with engine := (upd serves.plc.engine (63 : Fin 64) fun x => { x with state := .testing }) }, flt := { serves.flt with selftests := [{ kind := .engine, index := 63, source := 101, injectedOnly := false, hosts := [] }] } },
     by decide +kernel⟩,
   ⟨47, { serves with mem := { serves.mem with bank := (upd serves.mem.bank (47 : Fin 48) fun x => { x with state := .testing, recode := false }) } },
     by decide +kernel⟩,
   ⟨0, { serves with plc := { serves.plc with spread := false, thermalMoves := true, spreadLimit := 0 } }, by decide +kernel⟩,
   ⟨0, { serves with plc := { serves.plc with spread := true, spreadLimit := 100 } }, by decide +kernel⟩⟩

theorem witness_MovesAndTests_b :
    (∃ (s : State), s.plc.policy = false ∧ s.plc.interval ≠ 0) ∧
    (∃ (s : State), (s.plc.policy = true ∨ s.plc.interval = 0)) ∧
    (∃ (i : Fin 8) (m : Move) (s : State), s.plc.moves[i] = some m ∧ m.phase ≠ .cutover) ∧
    (∃ (i : Fin 8) (m : Move) (s : State), s.plc.moves[i] = some m ∧ m.shadowed < 8192) ∧
    (∃ (r : MoveReq) (src : Fin 64) (s : State), (movesOf s).length < s.plc.moveLimit ∧ s.flt.fatal = false ∧ s.sec.restart = none ∧ nextMove s = some r ∧
      moveSource r s = some src ∧ moveTarget r s = none ∧ (r.reason = .evacuation → sliceOnRung r.slice s = false)) ∧
    (∃ (s : State), (s.plc.moveLimit ≤ (movesOf s).length ∨ s.flt.fatal = true ∨ s.sec.restart ≠ none) ∧ s.plc.waiting ≠ []) ∧
    (∃ (b : Fin 48) (x : SelfTest) (s : State), (s.mem.bank[b]).state = .testing ∧ (s.mem.bank[b]).recode = false ∧ testOf .bank b s = some x) ∧
    (∃ (e : Fin 64) (s : State), (s.plc.engine[e]).state ≠ .testing) ∧
    (∃ (b : Fin 48) (s : State), ((s.mem.bank[b]).state ≠ .testing ∨ (s.mem.bank[b]).recode = true)) ∧
    (∃ (s : State), (retimeSpread s).plc.spreadSince = none) :=
  ⟨⟨{ serves with plc := { serves.plc with policy := false } }, by decide +kernel⟩,
   ⟨{ serves with plc := { serves.plc with policy := true } }, by decide +kernel⟩,
   ⟨7, mv, { serves with plc := { serves.plc with moves := (upd serves.plc.moves (7 : Fin 8) fun _ => some mv) } }, by decide +kernel⟩,
   ⟨7, mv, { serves with plc := { serves.plc with moves := (upd serves.plc.moves (7 : Fin 8) fun _ => some mv) } }, by decide +kernel⟩,
   ⟨{ slice := 255, part := 0, reason := .pin, dst := some 7 }, 7, { placed with flt := { placed.flt with fatal := false }, sec := { placed.sec with restart := none }, plc := { placed.plc with waiting := [{ slice := 255, part := 0, reason := .pin, dst := some 7 }] } },
     by decide +kernel⟩,
   ⟨{ serves with flt := { serves.flt with fatal := true }, plc := { serves.plc with waiting := [{ slice := 255, part := 0, reason := .pin, dst := some 7 }] } },
     by decide +kernel⟩,
   ⟨47, ((testOf .bank 47 { serves with mem := { serves.mem with bank := (upd serves.mem.bank (47 : Fin 48) fun x => { x with state := .testing, recode := false }) }, flt := { serves.flt with selftests := [{ kind := .bank, index := 47, source := 256, injectedOnly := false, hosts := [] }] } }).get
     (by decide +kernel)), { serves with mem := { serves.mem with bank := (upd serves.mem.bank (47 : Fin 48) fun x => { x with state := .testing, recode := false }) }, flt := { serves.flt with selftests := [{ kind := .bank, index := 47, source := 256, injectedOnly := false, hosts := [] }] } },
     by decide +kernel⟩,
   ⟨63, serves, by decide +kernel⟩,
   ⟨47, serves, by decide +kernel⟩,
   ⟨serves, by decide +kernel⟩⟩

theorem witness_SampleMemoryErrors :
    (∃ (loc : Fin 16777216) (b : Fin 48) (r : Reader) (s : State), finOf 48 (loc.val / 2 ^ 18) = some b ∧ readable loc (decide (r = .scrub)) s = true ∧
      (s.mem.bank[b]).parity = false ∧ faultAt loc s.mem ≠ some .poison) ∧
    (∃ (loc : Fin 16777216) (b : Fin 48) (r : Reader) (s : State), finOf 48 (loc.val / 2 ^ 18) = some b ∧ readable loc (decide (r = .scrub)) s = true ∧
      (s.mem.bank[b]).parity = false ∧ faultAt loc s.mem ≠ some .poison) ∧
    (∃ (loc : Fin 16777216) (r : Reader) (s : State), readable loc (decide (r = .scrub)) s = false) ∧
    (∃ (s : State), scrubbing s = true) ∧
    (∃ (s : State), scrubbing s = false) ∧
    (∃ (b : Fin 48) (p : Bool) (s : State), (s.mem.bank[b]).parity ≠ p ∧ codeWritable b s = true) ∧
    (∃ (b : Fin 48) (p : Bool) (s : State), (s.mem.bank[b]).parity ≠ p ∧ codeWritable b s = false) ∧
    (∃ (b : Fin 48) (s : State), (s.mem.bank[b]).recode = true) ∧
    (∃ (b : Fin 48) (p : Bool) (s : State), (s.mem.bank[b]).parity = p) ∧
    (∃ (b : Fin 48) (s : State), (s.mem.bank[b]).recode = false) ∧
    (∃ (loc : Fin 16777216) (b : Fin 48) (r : Reader) (s : State), finOf 48 (loc.val / 2 ^ 18) = some b ∧ readable loc (decide (r = .scrub)) s = true ∧
      (s.mem.bank[b]).parity = false ∧ faultAt loc s.mem ≠ some .poison) ∧
    (∃ (loc : Fin 16777216) (b : Fin 48) (r : Reader) (s : State), finOf 48 (loc.val / 2 ^ 18) = some b ∧ readable loc (decide (r = .scrub)) s = true ∧
      (s.mem.bank[b]).parity = false ∧ faultAt loc s.mem = some .poison) ∧
    (∃ (loc : Fin 16777216) (b : Fin 48) (r : Reader) (m : Nat) (s : State), finOf 48 (loc.val / 2 ^ 18) = some b ∧ readable loc (decide (r = .scrub)) s =
      true ∧ (s.mem.bank[b]).parity = true ∧ m % 256 ≠ 0 ∧ r ≠ .partialWrite) :=
  ⟨⟨12582911, 47, .word, { serves with mem := { serves.mem with bank := (upd (upd serves.mem.bank (47 : Fin 48) fun x => { x with parity := false }) 47 fun x => { x with written := BitVec.allOnes 512 }) } },
     by decide +kernel⟩,
   ⟨12582911, 47, .word, { serves with mem := { serves.mem with bank := (upd (upd serves.mem.bank (47 : Fin 48) fun x => { x with parity := false }) 47 fun x => { x with written := BitVec.allOnes 512 }) } },
     by decide +kernel⟩,
   ⟨16777215, .scrub, serves, by decide +kernel⟩,
   ⟨serves, by decide +kernel⟩,
   ⟨{ serves with mem := { serves.mem with period := 0 } }, by decide +kernel⟩,
   ⟨47, true, serves, by decide +kernel⟩,
   ⟨47, true, { serves with mem := { serves.mem with bank := (upd serves.mem.bank (47 : Fin 48) fun x => { x with recode := true }) } },
     by decide +kernel⟩,
   ⟨47, { serves with mem := { serves.mem with bank := (upd serves.mem.bank (47 : Fin 48) fun x => { x with recode := true }) } }, by decide +kernel⟩,
   ⟨47, true, { serves with mem := { serves.mem with bank := (upd serves.mem.bank (47 : Fin 48) fun x => { x with parity := true }) } },
     by decide +kernel⟩,
   ⟨47, { serves with mem := { serves.mem with bank := (upd serves.mem.bank (47 : Fin 48) fun x => { x with recode := false }) } }, by decide +kernel⟩,
   ⟨12582911, 47, .word, { serves with mem := { serves.mem with bank := (upd (upd serves.mem.bank (47 : Fin 48) fun x => { x with parity := false }) 47 fun x => { x with written := BitVec.allOnes 512 }) } },
     by decide +kernel⟩,
   ⟨12582911, 47, .word, { serves with mem := { serves.mem with bank := (upd (upd serves.mem.bank (47 : Fin 48) fun x => { x with parity := false }) 47 fun x => { x with written := BitVec.allOnes 512 }), faults := [(12582911, .poison)] } },
     by decide +kernel⟩,
   ⟨12582911, 47, .word, 1, { serves with mem := { serves.mem with bank := (upd (upd serves.mem.bank (47 : Fin 48) fun x => { x with parity := true }) 47 fun x => { x with written := BitVec.allOnes 512 }) } },
     by decide +kernel⟩⟩

theorem witness_ThermalManagement :
    (∃ (z : Fin 6) (k : Threshold) (m : Nat) (s : State), timerOf (s.thm.zone[z]).timers k = some m ∧ declaredOf s.thm.zone[z] k = false) ∧
    (∃ (z : Fin 6) (k : Threshold) (m : Nat) (s : State), timerOf (s.thm.zone[z]).timers k = some m ∧ declaredOf s.thm.zone[z] k = true) ∧
    (∃ (z : Fin 6) (k : Threshold) (s : State), timerOf (s.thm.zone[z]).timers k = none) ∧
    (∃ (m : Nat) (s : State), allHeld (·.thaw) s = some m ∧ s.thm.thaw = true) ∧
    (∃ (s : State), s.thm.overcast.stage ≠ 0 ∧ anyThrottle s = true ∧ s.thm.overcast.request < 300) ∧
    (∃ (s : State), s.thm.overcast.stage ≠ 0 ∧ anyThrottle s = false ∧ s.thm.overcast.shed = [] ∧ s.thm.overcast.request = 0) ∧
    (∃ (z : Fin 6) (i : Fin 24) (s : State), (s.thm.zone[z]).critical = false ∧ i ∈ zoneSensors z ∧ (s.thm.sensor[i]).failed = false ∧ 4 ≤
      (s.thm.sensor[i]).hot) ∧
    (∃ (m : Nat) (s : State), allHeld (·.halt) s = some m ∧ s.thm.halted = true) ∧
    (∃ (sl : SliceId) (s : State), s.thm.overcast.stage ≠ 0 ∧ anyThrottle s = true ∧ 300 ≤ s.thm.overcast.request ∧ nextShed s = some sl) ∧
    (∃ (sl : SliceId) (rest : List SliceId) (s : State), s.thm.overcast.stage ≠ 0 ∧ anyThrottle s = false ∧ s.thm.overcast.shed = sl :: rest) ∧
    (∃ (s : State), s.thm.overcast.stage ≠ 0 ∧ anyThrottle s = false ∧ s.thm.overcast.shed = [] ∧ s.thm.overcast.request ≠ 0) ∧
    (∃ (s : State), s.thm.overcast.stage = 0) :=
  ⟨⟨5, .throttle, 7, { serves with thm := { serves.thm with zone := (upd serves.thm.zone (5 : Fin 6) fun x => { x with timers := { x.timers with throttle := some 7 }, throttle := false }) } },
     by decide +kernel⟩,
   ⟨5, .throttle, 7, { serves with thm := { serves.thm with zone := (upd serves.thm.zone (5 : Fin 6) fun x => { x with timers := { x.timers with throttle := some 7 }, throttle := true }) } },
     by decide +kernel⟩,
   ⟨5, .highWarn, serves, by decide +kernel⟩,
   ⟨((allHeld (·.thaw) { serves with thm := { serves.thm with zone := Vector.replicate 6 { serves.thm.zone[0] with timers := { serves.thm.zone[0].timers with thaw := some 5 } } } }).get
     (by decide +kernel)), { serves with thm := { serves.thm with thaw := true, zone := Vector.replicate 6 { serves.thm.zone[0] with timers := { serves.thm.zone[0].timers with thaw := some 5 } } } },
     by decide +kernel⟩,
   ⟨{ serves with thm := { serves.thm with overcast := { serves.thm.overcast with stage := 1, request := 299 }, zone := (upd serves.thm.zone 0 fun x => { x with throttle := true }) } },
     by decide +kernel⟩,
   ⟨{ serves with thm := { serves.thm with overcast := { serves.thm.overcast with shed := [], request := 0, stage := 1 } } }, by decide +kernel⟩,
   ⟨5, 23, { serves with thm := { serves.thm with zone := (upd serves.thm.zone (5 : Fin 6) fun x => { x with critical := false }), sensor := (upd serves.thm.sensor (23 : Fin 24) fun x => { x with failed := false, hot := 4 }) } },
     by decide +kernel⟩,
   ⟨((allHeld (·.halt) { serves with thm := { serves.thm with zone := Vector.replicate 6 { serves.thm.zone[0] with timers := { serves.thm.zone[0].timers with halt := some 5 } } } }).get
     (by decide +kernel)), { serves with thm := { serves.thm with halted := true, zone := Vector.replicate 6 { serves.thm.zone[0] with timers := { serves.thm.zone[0].timers with halt := some 5 } } } },
     by decide +kernel⟩,
   ⟨255, { sliced with thm := { sliced.thm with overcast := { sliced.thm.overcast with stage := 2, request := 300 }, zone := (upd sliced.thm.zone 4 fun x => { x with throttle := true }) } },
     by decide +kernel⟩,
   ⟨255, [], { serves with thm := { serves.thm with overcast := { serves.thm.overcast with shed := 255 :: [], stage := 3 } } }, by decide +kernel⟩,
   ⟨{ serves with thm := { serves.thm with overcast := { serves.thm.overcast with shed := [], stage := 2, request := 50 } } }, by decide +kernel⟩,
   ⟨{ serves with thm := { serves.thm with overcast := { serves.thm.overcast with stage := 0 } } }, by decide +kernel⟩⟩

theorem witness_FirmwareKeysAndDebug_a :
    (∃ (d : Desc) (bs : List Byte) (f : Firmware) (s : State), Runs 0x70 d s ∧ activateCheck d = none ∧ d.indirect = true ∧ d.bytes = some bs ∧ firmwareOf
      bs = some f ∧ s.sec.minSvn ≤ f.svn ∧ f.length = d.length.toNat ∧ flashInRange s = true ∧ unconfirmed s = false ∧ s.sec.writes = none ∧
      s.sec.load = none ∧ s.sec.restart = none ∧ s.sec.asked = none) ∧
    (∃ (d : Desc) (s : State), Runs 0x70 d s ∧ activateCheck d = none ∧ d.indirect = false ∧ d.byte 12 = 2 ∧ unconfirmed s = true ∧ flashInRange s = true)
      ∧
    (∃ (iss : Issue) (f : Firmware) (s : State), s.sec.restart = some (.activate iss) ∧ slotImage (!s.sec.slot) s = some f ∧ s.sec.minSvn ≤ f.svn) ∧
    (∃ (iss : Issue) (s : State), s.sec.restart = some (.activate iss)) ∧
    (∃ (e : Nat) (s : State), s.sec.windowEnd = some e) ∧
    (∃ (o : Word) (bs : List Byte) (s : State), PortOpen s ∧ s.flt.fatal = false ∧ s.boot.stage = .recovery ∧ managementFw s = none ∧ 1 ≤ bs.length ∧
      bs.length ≤ 1024 ∧ o.toNat + bs.length ≤ 8388608) ∧
    (∃ (f : Firmware) (ws : List (Nat × List Byte)) (s : State), PortOpen s ∧ s.flt.fatal = false ∧ s.boot.stage = .recovery ∧ managementFw s = none ∧
      s.sec.writes = some ws ∧ firmwareOf (writtenHeader ws) = some f ∧ s.sec.minSvn ≤ f.svn) ∧
    (∃ (s : State), PortOpen s ∧ messageGate false s = none ∧ anyOf s.sec.owner (·.programmed) = false ∧ flashInRange s = true) ∧
    (∃ (s : State), PortOpen s ∧ messageGate false s = none) ∧
    (∃ (s : State), PortOpen s ∧ messageGate false s = none ∧ s.sec.lockedOut = false ∧ nonceLive s = true) ∧
    (∃ (level : Byte) (s : State), PortOpen s ∧ messageGate false s = none ∧ s.sec.lockedOut = false ∧ (level = 1 ∨ level = 2)) ∧
    (∃ (n m : Nat) (s : State), s.sec.nonce = some (n, m)) :=
  ⟨⟨(fwCmd), fwBytes, { version := 3, svn := 63, digest := 0, length := 65536 }, { serves with sec := { serves.sec with writes := none, load := none, restart := none, asked := none } },
     by decide +kernel⟩,
   ⟨(cmd 0 [(12, 1, 2)]), { serves with sec := { serves.sec with windowEnd := some 9 } }, by decide +kernel⟩,
   ⟨iss0, fware, { serves with sec := { serves.sec with restart := some (.activate iss0), fw := Vector.replicate 2 (some fware) } }, by decide +kernel⟩,
   ⟨iss0, { serves with sec := { serves.sec with restart := some (.activate iss0) } }, by decide +kernel⟩,
   ⟨1, { serves with sec := { serves.sec with windowEnd := some 1 } }, by decide +kernel⟩,
   ⟨8387584, (List.replicate 1024 0xFF), { serves with flt := { serves.flt with fatal := false }, boot := { serves.boot with stage := .recovery } },
     by decide +kernel⟩,
   ⟨{ version := 3, svn := 63, digest := 0, length := 65536 }, [(0, fwBytes)], { serves with boot := { serves.boot with stage := .recovery }, sec := { serves.sec with writes := some [(0, fwBytes)] } },
     by decide +kernel, by decide +kernel, rfl, by decide +kernel, rfl, by rw [writtenHeader_whole fwBytes (by decide +kernel)]; decide +kernel,
     by decide +kernel⟩,
   ⟨serves, by decide +kernel⟩,
   ⟨serves, by decide +kernel⟩,
   ⟨{ serves with sec := { serves.sec with lockedOut := false, nonce := some (4, 0) } }, by decide +kernel⟩,
   ⟨1, { serves with sec := { serves.sec with lockedOut := false } }, by decide +kernel⟩,
   ⟨1, 1, { serves with sec := { serves.sec with nonce := some (1, 1) } }, by decide +kernel⟩⟩

theorem witness_FirmwareKeysAndDebug_b :
    (∃ (d : Desc) (x : Firmware) (s : State), Runs 0x70 d s ∧ activateCheck d = none ∧ d.indirect = false ∧ d.byte 12 = 1 ∧ slotImage (idleSlot s) s =
      some x ∧ unconfirmed s = false ∧ s.cfg.commit = none ∧ returnPending s.cfg = false ∧ windowClose s = false ∧ restarting s = false) ∧
    (∃ (iss : Issue) (s : State), s.sec.restart = some (.activate iss)) ∧
    (∃ (iss : Issue) (s : State), s.sec.restart = some (.activate iss) ∧ (∀ f : Firmware, slotImage (!s.sec.slot) s = some f → f.svn < s.sec.minSvn)) ∧
    (∃ (s : State), s.sec.restart = some .failed) ∧
    (∃ (s : State), s.sec.restart = some .expired) ∧
    (∃ (i : Fin 4) (s : State), PortOpen s ∧ messageGate false s = none ∧ anyOf s.sec.owner validKey = true ∧ findIdx s.sec.owner (fun k => !k.programmed)
      = some i ∧ flashInRange s = true) ∧
    (∃ (i : Fin 4) (s : State), PortOpen s ∧ messageGate false s = none ∧ (s.sec.owner[i]).programmed = true ∧ (s.sec.owner[i]).revoked = false ∧ countOf
      s.sec.owner validKey ≠ bit (validKey s.sec.owner[i]) ∧ flashInRange s = true) ∧
    (∃ (i : Fin 4) (s : State), PortOpen s ∧ messageGate false s = none ∧ (s.sec.owner[i]).programmed = true ∧ (s.sec.owner[i]).revoked = false ∧ countOf
      s.sec.owner validKey = bit (validKey s.sec.owner[i])) ∧
    (∃ (s : State), PortOpen s ∧ messageGate false s = none ∧ s.sec.lockedOut = false ∧ nonceLive s = true ∧ anyOf s.sec.owner validKey = true) ∧
    (∃ (s : State), PortOpen s ∧ messageGate false s = none ∧ s.sec.lockedOut = true) ∧
    (∃ (level : Byte) (s : State), PortOpen s ∧ messageGate false s = none ∧ s.sec.lockedOut = false ∧ (level = 1 ∨ level = 2) ∧ nonceLive s = false) :=
  ⟨⟨(cmd 0 [(12, 1, 1)]), fware, { serves with cfg := { serves.cfg with commit := none }, sec := { serves.sec with fw := Vector.replicate 2 (some fware) } },
     by decide +kernel⟩,
   ⟨iss0, { serves with sec := { serves.sec with restart := some (.activate iss0) } }, by decide +kernel⟩,
   ⟨iss0, { serves with sec := { serves.sec with restart := some (.activate iss0) } }, by decide +kernel⟩,
   ⟨{ serves with sec := { serves.sec with restart := some .failed } }, by decide +kernel⟩,
   ⟨{ serves with sec := { serves.sec with restart := some .expired } }, by decide +kernel⟩,
   ⟨1, keyed, by decide +kernel⟩,
   ⟨0, { keyed with sec := { keyed.sec with owner := (upd (upd keyed.sec.owner (0 : Fin 4) fun x => { x with programmed := true, revoked := false }) 1 fun x => { x with programmed := true, usable := true }) } },
     by decide +kernel⟩,
   ⟨3, { serves with sec := { serves.sec with owner := (upd serves.sec.owner (3 : Fin 4) fun x => { x with programmed := true, revoked := false }) } },
     by decide +kernel⟩,
   ⟨{ keyed with sec := { keyed.sec with lockedOut := false, nonce := some (4, 0) } }, by decide +kernel⟩,
   ⟨{ serves with sec := { serves.sec with lockedOut := true } }, by decide +kernel⟩,
   ⟨1, { serves with sec := { serves.sec with lockedOut := false } }, by decide +kernel⟩⟩

theorem witness_ManagementPort :
    (∃ (s : State), PortOpen s) ∧
    (∃ (s : State), PortOpen s) ∧
    (∃ (s : State), PortOpen s) ∧
    (∃ (s : State), PortOpen s) ∧
    (∃ (o : Word) (n : Half) (h : DumpHeader) (s : State), PortOpen s ∧ s.flt.dump.retained = some h ∧ 1 ≤ n.toNat ∧ n.toNat ≤ 1024 ∧ o.toNat + n.toNat ≤
      s.flt.dump.retainedLen * 4096) ∧
    (∃ (s : State), PortOpen s ∧ s.flt.dump.retained = none) ∧
    (∃ (e : Byte) (s : State), PortOpen s ∧ e ≠ 0 ∧ e ≠ 0xFF) ∧
    (∃ (s : State), PortOpen s) ∧
    (∃ (s : State), PortOpen s) ∧
    (∃ (op : JtagOp), op ∈ [JtagOp.bypass, .idcode, .sample, .extest, .extestPulse, .extestTrain]) ∧
    (∃ (s : State), s.sec.debug ≠ 2) ∧
    (∃ (s : State), s.sec.debug = 2) ∧
    (∃ (s : State), s.sec.debug = 0) ∧
    (∃ (off size : Nat) (s : State), s.sec.debug ≠ 0 ∧ accessOk 0 off size = true) ∧
    (∃ (off size : Nat) (s : State), s.sec.debug ≠ 0 ∧ accessOk 0 off size = true ∧ size = 4) ∧
    (∃ (s : State), s.sec.debug ≠ 0) :=
  ⟨⟨serves, by decide +kernel⟩,
   ⟨serves, by decide +kernel⟩,
   ⟨serves, by decide +kernel⟩,
   ⟨serves, by decide +kernel⟩,
   ⟨3072, 1024, dumped, { serves with flt := { serves.flt with dump := { serves.flt.dump with retained := some dumped, retainedLen := 1 } } },
     by decide +kernel⟩,
   ⟨{ serves with flt := { serves.flt with dump := { serves.flt.dump with retained := none } } }, by decide +kernel⟩,
   ⟨1, serves, by decide +kernel⟩,
   ⟨serves, by decide +kernel⟩,
   ⟨serves, by decide +kernel⟩,
   ⟨.extestTrain, by decide +kernel⟩,
   ⟨serves, by decide +kernel⟩,
   ⟨{ serves with sec := { serves.sec with debug := 2 } }, by decide +kernel⟩,
   ⟨{ serves with sec := { serves.sec with debug := 0 } }, by decide +kernel⟩,
   ⟨16, 4, { serves with sec := { serves.sec with debug := 1 } }, by decide +kernel⟩,
   ⟨16, 4, { serves with sec := { serves.sec with debug := 1 } }, by decide +kernel⟩,
   ⟨{ serves with sec := { serves.sec with debug := 1 } }, by decide +kernel⟩⟩

theorem witness_PldmAndSpdm_a :
    (∃ (s : State), PortOpen s ∧ messageGate false s = none) ∧
    (∃ (s : State), PortOpen s ∧ messageGate false s = none) ∧
    (∃ (s : State), PortOpen s ∧ messageGate false s = none) ∧
    (∃ (s : State), PortOpen s ∧ messageGate false s = none) ∧
    (∃ (s : State), PortOpen s ∧ messageGate false s = none) ∧
    (∃ (s : State), PortOpen s ∧ messageGate false s = none) ∧
    (∃ (s : State), PortOpen s ∧ messageGate false s = none) ∧
    (∃ (s : State), PortOpen s ∧ messageGate false s = none) ∧
    (∃ (s : State), PortOpen s ∧ messageGate false s = none) ∧
    (∃ (s : State), PortOpen s ∧ messageGate false s = none) ∧
    (∃ (s : State), PortOpen s ∧ messageGate false s = none) ∧
    (∃ (s : State), PortOpen s ∧ messageGate false s = none) :=
  ⟨⟨serves, by decide +kernel⟩,
   ⟨serves, by decide +kernel⟩,
   ⟨serves, by decide +kernel⟩,
   ⟨serves, by decide +kernel⟩,
   ⟨serves, by decide +kernel⟩,
   ⟨serves, by decide +kernel⟩,
   ⟨serves, by decide +kernel⟩,
   ⟨serves, by decide +kernel⟩,
   ⟨serves, by decide +kernel⟩,
   ⟨serves, by decide +kernel⟩,
   ⟨serves, by decide +kernel⟩,
   ⟨serves, by decide +kernel⟩⟩

theorem witness_PldmAndSpdm_b :
    (∃ (s : State), PortOpen s ∧ messageGate false s = none) ∧
    (∃ (tr : Transport) (s : State), reaches tr s = true ∧ messageGate false s = none) ∧
    (∃ (tr : Transport) (s : State), reaches tr s = true ∧ messageGate false s = none ∧ (negotiation tr s).version = true) ∧
    (∃ (tr : Transport) (s : State), reaches tr s = true ∧ messageGate false s = none ∧ (negotiation tr s).capabilities = true) ∧
    (∃ (tr : Transport) (s : State), reaches tr s = true ∧ messageGate false s = none ∧ (negotiation tr s).algorithms = false) ∧
    (∃ (tr : Transport) (s : State), reaches tr s = true ∧ messageGate false s = none ∧ (negotiation tr s).algorithms = true) ∧
    (∃ (tr : Transport) (s : State), reaches tr s = true ∧ messageGate false s = none ∧ (negotiation tr s).algorithms = true) ∧
    (∃ (tr : Transport) (s : State), reaches tr s = true ∧ messageGate false s = none ∧ (negotiation tr s).algorithms = true ∧ s.sec.debug ≠ 2) ∧
    (∃ (tr : Transport) (s : State), reaches tr s = true ∧ messageGate false s = none ∧ (negotiation tr s).algorithms = true ∧ s.sec.debug = 2) ∧
    (∃ (tr : Transport) (s : State), reaches tr s = true ∧ messageGate false s = none ∧ (negotiation tr s).algorithms = true ∧ s.sec.debug = 2) ∧
    (∃ (tr : Transport) (s : State), reaches tr s = true ∧ messageGate false s = none ∧ (negotiation tr s).algorithms = true) :=
  ⟨⟨serves, by decide +kernel⟩,
   ⟨.mctp, serves, by decide +kernel⟩,
   ⟨.mctp, { serves with sec := { serves.sec with spdmMctp := { version := true, capabilities := true, algorithms := true } } }, by decide +kernel⟩,
   ⟨.mctp, { serves with sec := { serves.sec with spdmMctp := { version := true, capabilities := true, algorithms := true } } }, by decide +kernel⟩,
   ⟨.mctp, serves, by decide +kernel⟩,
   ⟨.mctp, { serves with sec := { serves.sec with spdmMctp := { version := true, capabilities := true, algorithms := true } } }, by decide +kernel⟩,
   ⟨.mctp, { serves with sec := { serves.sec with spdmMctp := { version := true, capabilities := true, algorithms := true } } }, by decide +kernel⟩,
   ⟨.mctp, { serves with sec := { serves.sec with spdmMctp := { version := true, capabilities := true, algorithms := true } } }, by decide +kernel⟩,
   ⟨.mctp, { serves with sec := { serves.sec with debug := 2, spdmMctp := { version := true, capabilities := true, algorithms := true } } },
     by decide +kernel⟩,
   ⟨.mctp, { serves with sec := { serves.sec with debug := 2, spdmMctp := { version := true, capabilities := true, algorithms := true } } },
     by decide +kernel⟩,
   ⟨.mctp, { serves with sec := { serves.sec with spdmMctp := { version := true, capabilities := true, algorithms := true } } }, by decide +kernel⟩⟩

end Sys2Proof.Tests
end

section
/-! PROOFS. Writes and reads of registers (R5, R7, R45): what a permitted access does, and what one that is not permitted counts. -/
namespace Sys2Proof.Machine
open Sys2Proof

/-! ### A change of one function -/

@[simp] theorem onFn_self (fn : Fn) (f : Func → Func) (s : State) : (onFn fn f s).hif.fns[fn.val] = f s.hif.fns[fn.val] :=
  upd_self s.hif.fns fn f

/-! ### An access that is not permitted (R45) -/

theorem dropAccess_counts (fn : Fn) (s : State) :
    (dropAccess fn s).hif.fns[fn] = { s.hif.fns[fn] with accessDrop := min 0xFFFFFFFF ((s.hif.fns[fn]).accessDrop + 1) } :=
  onFn_self fn _ s

theorem dropAccess_reports (fn : Fn) (s : State) :
    ((dropAccess fn s).flt.sources[(5 : Fin 320)]).events = (s.flt.sources[(5 : Fin 320)]).events + 1 :=
  raise_events 5 0 0 _

theorem dropAccess_restKept (fn : Fn) (s : State) : restKept s (dropAccess fn s) := rfl

theorem exec_barAccessDrop_open {fn : Fn} {s : State} (h : BarOpen fn s) (read : Bool) :
    exec (.barAccessDrop fn read) s = .next (if read then emit (.readData fn 0) (dropAccess fn s) else dropAccess fn s) :=
  congrArg Host.Outcome.next (viaBar_open h)

/-! ### Writes -/

/-- A write whose request is received stores its word or words, or is dropped. -/
theorem exec_registerWrite_open {fn : Fn} {s : State} (h : BarOpen fn s) (offset size value : Nat) :
    exec (.registerWrite fn offset size value) s = .next (
      if accessOk fn offset size then
        if size = 4 then writeWord fn offset (value % 2 ^ (8 * size)) s
        else writeWord fn (offset + 4) (value % 2 ^ (8 * size) / 2 ^ 32) (writeWord fn offset (value % 2 ^ (8 * size) % 2 ^ 32) s)
      else dropAccess fn s) :=
  congrArg Host.Outcome.next (viaBar_open h)

theorem exec_registerWrite_word {fn : Fn} {s : State} {offset : Nat} (h : BarOpen fn s) (ok : accessOk fn offset 4 = true) (value : Nat) :
    exec (.registerWrite fn offset 4 value) s = .next (writeWord fn offset (value % 2 ^ 32) s) := by
  rw [exec_registerWrite_open h, if_pos ok, if_pos rfl]

/-- A 64-bit write is its low word and then its high word (log entry 57). -/
theorem exec_registerWrite_long {fn : Fn} {s : State} {offset : Nat} (h : BarOpen fn s) (ok : accessOk fn offset 8 = true) (value : Nat) :
    exec (.registerWrite fn offset 8 value) s =
      .next (writeWord fn (offset + 4) (value % 2 ^ 64 / 2 ^ 32) (writeWord fn offset (value % 2 ^ 32) s)) := by
  have low : value % 2 ^ (8 * 8) % 2 ^ 32 = value % 2 ^ 32 := Nat.mod_mod_of_dvd value (by decide)
  rw [exec_registerWrite_open h, if_pos ok, if_neg (by decide), low]

theorem exec_registerWrite_dropped {fn : Fn} {s : State} {offset size : Nat} (h : BarOpen fn s) (bad : accessOk fn offset size = false) (value : Nat) :
    exec (.registerWrite fn offset size value) s = .next (dropAccess fn s) := by
  rw [exec_registerWrite_open h, if_neg (by simp [bad])]

/-- GLB_RESET_CAUSE clears the bits that are written 1 (R7, R118). -/
theorem writeWord_resetCause (v : Nat) (s : State) :
    writeWord 0 0x10 v s = { s with boot := { s.boot with cause := s.boot.cause &&& ~~~BitVec.ofNat 10 v } } := rfl

/-! ### Reads -/

/-- A read whose request is received returns what its BAR shows. -/
theorem exec_wideRegisterCapture_open {fn : Fn} {bar : BarId} {s : State} (h : BarOpen fn s) (has : fn = 0 ∨ bar ≠ .bar4) (offset size : Nat) :
    exec (.wideRegisterCapture fn bar offset size) s =
      .next (emit (.readData fn (readBar fn bar offset size s).1) (readBar fn bar offset size s).2) := by
  have hasBar : ¬(fn ≠ 0 ∧ bar = .bar4) := fun ⟨vf, four⟩ => has.elim vf fun other => other four
  calc exec (.wideRegisterCapture fn bar offset size) s = execWideRegisterCapture fn bar offset size s := rfl
    _ = _ := by rw [execWideRegisterCapture, if_neg hasBar, viaBar_open h]

/-- A permitted read of PF0 within a 256-bit register is a read of that register. -/
theorem readBar_wide {offset size v : Nat} {s : State} (ok : accessOk 0 offset size = true) (w : wideValue (offset / 32 * 32) s = some v) :
    readBar 0 .bar0 offset size s = readWide 0 (offset / 32 * 32) v (offset % 32) size s := by
  simp only [readBar, ok, if_true, readBar0, w]

theorem readWide_lowest (fn : Fn) (base v size : Nat) (s : State) :
    readWide fn base v 0 size s = (v % 2 ^ (8 * size), onFn fn (fun f => { f with wideBuf := v, wideAt := some base }) s) := by
  simp [readWide, wideBytes]

theorem readWide_kept {fn : Fn} {base i : Nat} {s : State} (hi : i ≠ 0) (kept : (s.hif.fns[fn]).wideAt = some base) (v size : Nat) :
    readWide fn base v i size s = ((s.hif.fns[fn]).wideBuf / 2 ^ (8 * i) % 2 ^ (8 * size), s) := by
  simp only [readWide, if_neg hi, if_pos kept, wideBytes]

/-- A read of the lowest word of a 256-bit register keeps all of it for the reading function. -/
theorem exec_wideRegisterCapture_lowest {offset size v : Nat} {s : State} (h : BarOpen 0 s) (ok : accessOk 0 offset size = true) (low : offset % 32 = 0)
    (w : wideValue offset s = some v) :
    exec (.wideRegisterCapture 0 .bar0 offset size) s =
      .next (emit (.readData 0 (v % 2 ^ (8 * size))) (onFn 0 (fun f => { f with wideBuf := v, wideAt := some offset }) s)) := by
  have base : offset / 32 * 32 = offset := Nat.div_mul_cancel (Nat.dvd_of_mod_eq_zero low)
  rw [exec_wideRegisterCapture_open h (.inl rfl), readBar_wide ok (by rw [base]; exact w), low, base, readWide_lowest]

/-! ### O11 -/

/-- Settles O11: each clause is the meaning of one kind of access whose request is received. -/
theorem registerAccess : Obligations.RegisterAccess := by
  refine ⟨fun fn offset value s h ok => exec_registerWrite_word h ok value, fun fn offset value s h ok => exec_registerWrite_long h ok value,
    ?resetCause, ?lowest, ?writeDropped, ?readDropped, ?otherDropped, ?kept, ?doorbells⟩
  case resetCause =>
    intro value s h
    exact does_of_next (exec_registerWrite_word h (by decide) value) (writeWord_resetCause _ s)
  case lowest =>
    intro offset size v s h ok low w
    exact does_of_next (exec_wideRegisterCapture_lowest h ok low w) ⟨onFn_self 0 _ s, rfl, rfl⟩
  case writeDropped =>
    intro fn offset size value s h bad
    exact does_of_next (exec_registerWrite_dropped h bad value) ⟨dropAccess_counts fn s, dropAccess_reports fn s, dropAccess_restKept fn s⟩
  case readDropped =>
    intro fn s h
    exact does_of_next (exec_barAccessDrop_open h true) ⟨dropAccess_counts fn s, dropAccess_reports fn s, rfl, rfl⟩
  case otherDropped =>
    intro fn s h
    exact does_of_next (exec_barAccessDrop_open h false) ⟨dropAccess_counts fn s, dropAccess_reports fn s, rfl, dropAccess_restKept fn s⟩
  case kept =>
    intro offset size v s h ok high w captured
    refine does_of_next (exec_wideRegisterCapture_open h (.inl rfl) offset size) ?_
    rw [readBar_wide ok w, readWide_kept high captured]
    rfl
  case doorbells =>
    intro fn offset size s h
    exact does_of_next (exec_wideRegisterCapture_open h (.inr (by decide)) offset size) rfl

end Sys2Proof.Machine
end

section
/-! PROOFS. The completion of a command (R51, R56 to R60): what of a ring pair the writing of completions reads, which operations keep it, and what one
completion leaves behind. -/
namespace Sys2Proof.Machine
open Sys2Proof

/-! ### What the writing of completions reads of a ring pair -/

/-- Two ring pairs agree in where their next completion goes, with which phase, and on the last marker. -/
structure SameWriter (x y : Ring) : Prop where
  cplBase : x.cplBase = y.cplBase
  cplLog2 : x.cplLog2 = y.cplLog2
  cplPI   : x.cplPI = y.cplPI
  phase   : x.phase = y.phase
  marker  : x.marker = y.marker

theorem SameWriter.refl (x : Ring) : SameWriter x x := ⟨rfl, rfl, rfl, rfl, rfl⟩

theorem SameWriter.trans {x y z : Ring} (h : SameWriter x y) (k : SameWriter y z) : SameWriter x z :=
  ⟨h.cplBase.trans k.cplBase, h.cplLog2.trans k.cplLog2, h.cplPI.trans k.cplPI, h.phase.trans k.phase, h.marker.trans k.marker⟩

theorem SameWriter.completionSlot {x y : Ring} (h : SameWriter x y) : completionSlot x = completionSlot y := by
  simp only [Machine.completionSlot, h.cplBase, h.cplLog2, h.cplPI]

theorem SameWriter.takeSlot {x y : Ring} (h : SameWriter x y) : SameWriter (takeSlot x) (takeSlot y) :=
  ⟨h.cplBase, h.cplLog2, by simp only [Machine.takeSlot, h.cplPI], by simp only [Machine.takeSlot, h.cplPI, h.cplLog2, h.phase], h.marker⟩

/-! ### A change of one ring pair -/

@[simp] theorem onRing_self (r : RingId) (f : Ring → Ring) (s : State) : (onRing r f s).hif.rings[r.val] = f s.hif.rings[r.val] :=
  upd_self s.hif.rings r f

theorem onRing_other {r q : RingId} (h : q ≠ r) (f : Ring → Ring) (s : State) : (onRing r f s).hif.rings[q] = s.hif.rings[q] :=
  upd_other s.hif.rings r q f h

@[simp] theorem signalVector_rings (fn : Fn) (v : Fin 64) (s : State) : (signalVector fn v s).hif.rings = s.hif.rings := by
  unfold signalVector
  dsimp only
  split <;> rfl

@[simp] theorem countEntry_rings (fn : Fn) (v : Nat) (now : Bool) (s : State) : (countEntry fn v now s).hif.rings = s.hif.rings := by
  unfold countEntry
  split
  · rfl
  · dsimp only
    split
    · exact signalVector_rings ..
    · rfl

theorem writeBack_writer (r : RingId) (s : State) : SameWriter (writeBack r s).hif.rings[r] s.hif.rings[r] := by
  unfold writeBack
  dsimp only
  split
  · exact .refl _
  · split <;> constructor <;> simp [sendIndices]

theorem writeBack_other {r q : RingId} (h : q ≠ r) (s : State) : (writeBack r s).hif.rings[q] = s.hif.rings[q] := by
  unfold writeBack
  dsimp only
  split
  · rfl
  · split <;> exact onRing_other h _ s

/-! ### What was sent out stays -/

theorem signalVector_sent {o : Out} {s : State} (h : o ∈ s.out) (fn : Fn) (v : Fin 64) : o ∈ (signalVector fn v s).out := by
  unfold signalVector
  dsimp only
  split
  · exact h
  · exact List.mem_cons_of_mem _ h

theorem countEntry_sent {o : Out} {s : State} (h : o ∈ s.out) (fn : Fn) (v : Nat) (now : Bool) : o ∈ (countEntry fn v now s).out := by
  unfold countEntry
  split
  · exact h
  · dsimp only
    split
    · exact signalVector_sent h ..
    · exact h

theorem writeBack_sent {o : Out} {s : State} (h : o ∈ s.out) (r : RingId) : o ∈ (writeBack r s).out := by
  unfold writeBack
  dsimp only
  split
  · exact h
  · split
    · exact List.mem_cons_of_mem _ h
    · exact h

/-! ### One entry of a completion ring -/

/-- A completion takes its slot, the indices go out, and the vector counts the entry: `writeCompletion` behind the marker. -/
def writeEntry (iss : Issue) (st : Status) (seq stamp : Nat) (s : State) : State :=
  let x := s.hif.rings[iss.ring]
  let o := Out.completion iss.ring (completionSlot x) iss.tag st x.phase (seq % 2 ^ 32) stamp
  countEntry x.owner x.vector iss.irqNow (writeBack iss.ring (pulse 0x0501 0 1 (onRing iss.ring takeSlot (emit o s))))

theorem writeCompletion_marked {iss : Issue} {seq : Nat} {s : State} (h : (s.hif.rings[iss.ring]).marker = some (s.time.epoch, seq / 2 ^ 32))
    (st : Status) (stamp : Nat) : writeCompletion iss st seq stamp s = writeEntry iss st seq stamp s := by
  simp only [writeCompletion, if_pos h]
  rfl

theorem writeCompletion_unmarked {iss : Issue} {seq : Nat} {s : State} (h : (s.hif.rings[iss.ring]).marker ≠ some (s.time.epoch, seq / 2 ^ 32))
    (st : Status) (stamp : Nat) :
    writeCompletion iss st seq stamp s = writeEntry iss st seq stamp (putMarker iss.ring (seq / 2 ^ 32) s) := by
  simp only [writeCompletion, if_neg h]
  rfl

@[simp] theorem writeCompletion_evr (iss : Issue) (st : Status) (seq stamp : Nat) (s : State) :
    (writeCompletion iss st seq stamp s).evr = s.evr := by
  rw [writeCompletion_frame]

section
variable (iss : Issue) (st : Status) (seq stamp : Nat) (s : State)

theorem writeEntry_sends :
    Out.completion iss.ring (completionSlot s.hif.rings[iss.ring]) iss.tag st (s.hif.rings[iss.ring]).phase (seq % 2 ^ 32) stamp
      ∈ (writeEntry iss st seq stamp s).out :=
  countEntry_sent (writeBack_sent List.mem_cons_self _) ..

theorem writeEntry_sent {o : Out} (h : o ∈ s.out) : o ∈ (writeEntry iss st seq stamp s).out :=
  countEntry_sent (writeBack_sent (List.mem_cons_of_mem _ h) _) ..

theorem writeEntry_writer : SameWriter (writeEntry iss st seq stamp s).hif.rings[iss.ring] (takeSlot s.hif.rings[iss.ring]) := by
  unfold writeEntry
  dsimp only
  rw [countEntry_rings]
  refine (writeBack_writer _ _).trans ?_
  simp [SameWriter.refl]

theorem writeEntry_other {r : RingId} (h : r ≠ iss.ring) : (writeEntry iss st seq stamp s).hif.rings[r] = s.hif.rings[r] := by
  unfold writeEntry
  dsimp only
  rw [countEntry_rings, writeBack_other h, pulse_hif, onRing_other h, emit_hif]

end

theorem putMarker_ring (r : RingId) (hi : Nat) (s : State) :
    (putMarker r hi s).hif.rings[r] = { takeSlot s.hif.rings[r] with marker := some (s.time.epoch, hi) } := by
  simp [putMarker]

theorem putMarker_other {r q : RingId} (h : q ≠ r) (hi : Nat) (s : State) : (putMarker r hi s).hif.rings[q] = s.hif.rings[q] :=
  onRing_other h ..

theorem putMarker_sends (r : RingId) (hi : Nat) (s : State) :
    Out.marker r (completionSlot s.hif.rings[r]) (s.hif.rings[r]).phase hi s.time.epoch ∈ (putMarker r hi s).out := List.mem_cons_self

/-! ### A command that completes -/

/-- The state in which the completion of a command is written: its number is taken and the command no longer in flight. -/
def takeNumber (iss : Issue) (s : State) : State :=
  leaveFlight iss { s with evr := { s.evr with seqNext := (s.evr.seqNext + 1) % 2 ^ 64 } }

theorem takeNumber_ring (iss : Issue) (s : State) :
    (takeNumber iss s).hif.rings[iss.ring] =
      if (s.hif.rings[iss.ring]).era = iss.era then
        { s.hif.rings[iss.ring] with inFlight := (s.hif.rings[iss.ring]).inFlight - 1, started := (s.hif.rings[iss.ring]).started - 1 }
      else s.hif.rings[iss.ring] := by
  simp [takeNumber, leaveFlight]

theorem takeNumber_writer (iss : Issue) (s : State) : SameWriter (takeNumber iss s).hif.rings[iss.ring] s.hif.rings[iss.ring] := by
  rw [takeNumber_ring]
  split <;> constructor <;> rfl

theorem takeNumber_other {iss : Issue} {r : RingId} (h : r ≠ iss.ring) (s : State) : (takeNumber iss s).hif.rings[r] = s.hif.rings[r] :=
  onRing_other h ..

/-- Taking the number leaves unchanged whether the ring answers. -/
theorem answers_takeNumber (iss : Issue) (s : State) : answers iss (takeNumber iss s) = answers iss s := by
  have fns : (takeNumber iss s).hif.fns = s.hif.fns := rfl
  simp only [answers, takeNumber_ring, inD3hot, fns]
  split <;> rfl

/-- A command that completes OK or SUPERSEDED on a ring that answers writes its completion and no record. -/
theorem complete_writes {iss : Issue} {st : Status} {s : State} (ha : answers iss s = true) (hst : st = .ok ∨ st = .superseded) :
    complete iss st s = writeCompletion iss st s.evr.seqNext s.stamp (takeNumber iss s) := by
  have ha' : answers iss (takeNumber iss s) = true := (answers_takeNumber iss s).trans ha
  unfold complete completeAt
  exact (if_pos hst).trans (if_pos ha')

theorem complete_marked {iss : Issue} {st : Status} {s : State} (ha : answers iss s = true)
    (hm : (s.hif.rings[iss.ring]).marker = some (s.time.epoch, s.evr.seqNext / 2 ^ 32)) (hst : st = .ok ∨ st = .superseded) :
    complete iss st s = writeEntry iss st s.evr.seqNext s.stamp (takeNumber iss s) := by
  rw [complete_writes ha hst, writeCompletion_marked ((takeNumber_writer iss s).marker.trans hm)]

theorem complete_unmarked {iss : Issue} {st : Status} {s : State} (ha : answers iss s = true)
    (hm : (s.hif.rings[iss.ring]).marker ≠ some (s.time.epoch, s.evr.seqNext / 2 ^ 32)) (hst : st = .ok ∨ st = .superseded) :
    complete iss st s =
      writeEntry iss st s.evr.seqNext s.stamp (putMarker iss.ring (s.evr.seqNext / 2 ^ 32) (takeNumber iss s)) := by
  have hm' : ((takeNumber iss s).hif.rings[iss.ring]).marker ≠ some ((takeNumber iss s).time.epoch, s.evr.seqNext / 2 ^ 32) := fun h =>
    hm ((takeNumber_writer iss s).marker.symm.trans h)
  rw [complete_writes ha hst, writeCompletion_unmarked hm']

theorem complete_seqNext {iss : Issue} {st : Status} {s : State} (ha : answers iss s = true) (hst : st = .ok ∨ st = .superseded) :
    (complete iss st s).evr.seqNext = (s.evr.seqNext + 1) % 2 ^ 64 := by
  rw [complete_writes ha hst, writeCompletion_evr]
  rfl

/-! ### O15 -/

/-- Settles O15: behind the marker, when one is due, one entry takes its slot, and every operation after it keeps what the entry left. -/
theorem completionOfACommand : Obligations.CompletionOfACommand := by
  refine ⟨?marked, ?unmarked⟩
  case marked =>
    intro iss st s ha hm hst t x o
    have ht : t = writeEntry iss st s.evr.seqNext s.stamp (takeNumber iss s) := complete_marked ha hm hst
    have before : SameWriter (takeNumber iss s).hif.rings[iss.ring] x := takeNumber_writer iss s
    have after : SameWriter t.hif.rings[iss.ring] (takeSlot x) := by
      rw [ht]
      exact (writeEntry_writer ..).trans before.takeSlot
    have sends : o ∈ t.out := by
      have h := writeEntry_sends iss st s.evr.seqNext s.stamp (takeNumber iss s)
      rwa [before.completionSlot, before.phase, ← ht] at h
    refine ⟨sends, rfl, complete_seqNext ha hst, after.cplPI, after.phase, fun r hr => ?_, complete_answered iss st s⟩
    rw [ht, writeEntry_other _ _ _ _ _ hr, takeNumber_other hr]
  case unmarked =>
    intro iss st s ha hm hst t
    have ht : t = writeEntry iss st s.evr.seqNext s.stamp (putMarker iss.ring (s.evr.seqNext / 2 ^ 32) (takeNumber iss s)) :=
      complete_unmarked ha hm hst
    have before : SameWriter (takeNumber iss s).hif.rings[iss.ring] s.hif.rings[iss.ring] := takeNumber_writer iss s
    have after : SameWriter t.hif.rings[iss.ring]
        (takeSlot { takeSlot (takeNumber iss s).hif.rings[iss.ring] with marker := some (s.time.epoch, s.evr.seqNext / 2 ^ 32) }) := by
      have h := writeEntry_writer iss st s.evr.seqNext s.stamp (putMarker iss.ring (s.evr.seqNext / 2 ^ 32) (takeNumber iss s))
      rwa [putMarker_ring, ← ht] at h
    have sends := putMarker_sends iss.ring (s.evr.seqNext / 2 ^ 32) (takeNumber iss s)
    rw [before.completionSlot, before.phase] at sends
    refine ⟨?_, after.marker, ?_, fun r hr => ?_, complete_answered iss st s⟩
    · rw [ht]
      exact writeEntry_sent _ _ _ _ _ sends
    · calc (t.hif.rings[iss.ring]).cplPI = ((takeNumber iss s).hif.rings[iss.ring]).cplPI + 1 + 1 := after.cplPI
        _ = (s.hif.rings[iss.ring]).cplPI + 2 := by rw [before.cplPI, BitVec.add_assoc]; rfl
    · rw [ht, writeEntry_other _ _ _ _ _ hr, putMarker_other hr, takeNumber_other hr]

end Sys2Proof.Machine
end

section
/-! PROOFS. One fabric cycle of an empty queue (R25, R66, R370, R692): radios that rest stay as they are while time passes, and what the parts do by
themselves at once is bounded. -/
namespace Sys2Proof.Machine
open Sys2Proof

/-! ### Passing time moves no radio -/

/-- The radios of the RX ports are alike. -/
def SameRxRadios (s t : State) : Prop := ∀ m : Fin 32, (t.tiles.rx[m]).radio = (s.tiles.rx[m]).radio

theorem SameRxRadios.trans {s t u : State} (h : SameRxRadios s t) (k : SameRxRadios t u) : SameRxRadios s u := fun m => (k m).trans (h m)

theorem SameRxRadios.of_tiles {s t : State} (h : t.tiles = s.tiles) : SameRxRadios s t := fun m => by rw [h]

@[simp] theorem onConv_tiles (c : Fin 8) (f : Converter → Converter) (s : State) : (onConv c f s).tiles = s.tiles := rfl

@[simp] theorem feedStream_tiles (c : Fin 8) (raw : Nat) (s : State) : (feedStream c raw s).tiles = s.tiles := by
  unfold feedStream
  dsimp only
  split <;> rfl

@[simp] theorem converterSlot_tiles (s : State) (c : Fin 8) : (converterSlot s c).tiles = s.tiles := by
  unfold converterSlot
  dsimp only
  split
  · rfl
  · split
    · rfl
    · exact feedStream_tiles ..

theorem monitorSlots_tiles (s : State) : (monitorSlots s).tiles = s.tiles :=
  foldl_keeps (fun s t => t.tiles = s.tiles) (fun _ => rfl) (fun h k => k.trans h) _ converterSlot_tiles _ s

theorem countSaturations_tiles (v : Vector Nat 32) (s : State) : (countSaturations v s).tiles = s.tiles := by
  refine foldl_keeps (fun s t => t.tiles = s.tiles) (fun _ => rfl) (fun h k => k.trans h) _ (fun s m => ?_) _ s
  split <;> rfl

theorem strobe_tiles (s : State) : (strobe s).tiles = s.tiles := by
  unfold strobe
  rfl

theorem strobeDue_tiles (s : State) : (strobeDue s).tiles = s.tiles := by
  unfold strobeDue
  split
  · exact strobe_tiles s
  · rfl

theorem slotsDue_tiles (s : State) : (slotsDue s).tiles = s.tiles := by
  unfold slotsDue
  split
  · exact monitorSlots_tiles s
  · rfl

theorem holdPeak_radio (s : State) (m : Fin 32) (x : RxPort) : (holdPeak s m x).radio = x.radio := by
  unfold holdPeak
  split <;> rfl

theorem rxQuarters_sameRxRadios (s : State) : SameRxRadios s (rxQuarters s) := fun m =>
  (congrArg RxPort.radio (updAll_get s.tiles.rx (holdPeak s) m)).trans (holdPeak_radio ..)

theorem passQuarter_sameRxRadios (s : State) : SameRxRadios s (passQuarter s) := by
  have before : (slotsDue (strobeDue s)).tiles = s.tiles := (slotsDue_tiles _).trans (strobeDue_tiles s)
  have after : (txQuarters (chainQuarters (rxQuarters (slotsDue (strobeDue s))))).tiles = (rxQuarters (slotsDue (strobeDue s))).tiles :=
    countSaturations_tiles ..
  exact ((SameRxRadios.of_tiles before).trans (rxQuarters_sameRxRadios _)).trans (.of_tiles after)

theorem passQuarters_sameRxRadios (n : Nat) (s : State) : SameRxRadios s (passQuarters n s) := by
  induction n generalizing s with
  | zero => exact .of_tiles rfl
  | succ n ih => exact (passQuarter_sameRxRadios s).trans (ih _)

theorem elapse_sameRxRadios (n : Nat) (s : State) : SameRxRadios s (elapse n s) := by
  unfold elapse
  split
  · exact .of_tiles rfl
  · exact passQuarters_sameRxRadios n s

theorem RadiosRest.of_sameRadios {s t : State} (h : RadiosRest s) (rx : SameRxRadios s t) (tx : t.tiles.tx = s.tiles.tx)
    (tile : t.tiles.tile = s.tiles.tile) : RadiosRest t := by
  refine ⟨fun m => ?_, fun i => ?_⟩
  · rw [rx m, tx]
    exact h.1 m
  · have need : tileNeed i t = tileNeed i s := by
      unfold tileNeed
      simp only [rx _, tx, tile]
    rw [need, tile]
    exact h.2 i

/-! ### Radios that rest pass no state -/

theorem passTile_rests {s : State} (h : RadiosRest s) (i : Fin 4) : passTile s i = s := by
  have stays : ((s.tiles.tile[i]).state == .sleep && tileNeed i s == .synthOn) = false := by
    rw [Bool.and_eq_false_iff]
    by_cases asleep : (s.tiles.tile[i]).state = .sleep
    · exact .inr (beq_eq_false_iff_ne.mpr (h.2 i asleep))
    · exact .inl (beq_eq_false_iff_ne.mpr asleep)
  simp only [passTile, stays, Bool.false_and, Bool.false_eq_true, if_false]

/-- A port at its target that answers no request stays as it is. -/
theorem passPort_rests {s : State} {u : RadioUnit} {r : Radio} (hr : radioOf u s = some r) (there : r.state = r.target) (idle : r.issue = none) :
    passPort s u = s := by
  simp [passPort, hr, there, idle]

/-- A fold stays at what each of its steps keeps. -/
theorem foldl_of_fixed {α β : Type} {f : β → α → β} {b : β} (h : ∀ a, f b a = b) (l : List α) : l.foldl f b = b := by
  induction l with
  | nil => rfl
  | cons a l ih => rw [List.foldl_cons, h a, ih]

theorem passStates_rests {s : State} (h : RadiosRest s) : passStates s = s := by
  have ports (m : Fin 32) : passPort (passPort s (.rx m)) (.tx m) = s := by
    obtain ⟨rxThere, rxIdle, txThere, txIdle⟩ := h.1 m
    rw [passPort_rests (u := .rx m) rfl rxThere rxIdle, passPort_rests (u := .tx m) rfl txThere txIdle]
  rw [passStates, foldl_of_fixed (passTile_rests h), foldl_of_fixed ports]

/-! ### What the parts do by themselves at once -/

/-- The parts of the state that a fabric cycle may touch beside time and the samples in flight. -/
def Cycled (s t : State) : Prop :=
  t = { s with
    out := t.out, boot := t.boot, hif := { s.hif with rings := t.hif.rings }, pmc := t.pmc, flt := t.flt, thm := t.thm, tiles := t.tiles
    fec := t.fec, dfe := t.dfe, sec := { s.sec with asked := t.sec.asked, restart := t.sec.restart } }

theorem Cycled.refl (s : State) : Cycled s s := rfl

theorem Cycled.trans {s t u : State} (h : Cycled s t) (k : Cycled t u) : Cycled s u := by
  unfold Cycled at *
  rw [k, h]

theorem settle_cycled (s : State) : Cycled s (settle s) := by
  unfold Cycled
  rw [settle_frame]

theorem enterThaw_cycled (s : State) : Cycled s (enterThaw s) := by
  unfold enterThaw
  split
  · exact .refl s
  · split
    · exact .refl s
    · rfl

theorem calm_cycled (s : State) : Cycled s (calm s) := (settle_cycled s).trans (enterThaw_cycled _)

theorem reportResidue_cycled (inj tx : Bool) (m : Fin 32) (stage : Nat) (corrected : Bool) (s : State) :
    Cycled s (reportResidue inj tx m stage corrected s) := by
  unfold reportResidue
  extract_lets src u
  have raised : Cycled s u := rfl
  have tested (retired : Bool) (k : UnitKind) : Cycled u (if retired then u else askTest k m src.val inj [] u) := by
    split
    · exact .refl u
    · unfold Cycled
      rw [askTest_frame]
  exact raised.trans (tested _ _)

theorem reportWrong_cycled (s : State) : Cycled s (reportWrong s) := by
  unfold reportWrong
  split
  · exact .refl s
  · have cleared : Cycled s (onDfe (fun d => { d with wrong := Vector.replicate 32 (false, false) }) s) := rfl
    refine cleared.trans (foldl_keeps Cycled .refl .trans _ (fun s m => ?_) _ _)
    have one (b tx : Bool) (s : State) : Cycled s (if b then reportResidue false tx m 0 false s else s) := by
      split
      · exact reportResidue_cycled ..
      · exact .refl s
    exact (one _ false s).trans (one _ true _)

theorem clockCounters_cycled (s : State) : Cycled s (clockCounters s) := rfl

theorem sendIndices_cycled (r : RingId) (s : State) : Cycled s (sendIndices r s) := rfl

theorem writeIndices_cycled (s : State) : Cycled s (writeIndices s) := by
  refine foldl_keeps Cycled .refl .trans _ (fun s r => ?_) _ s
  dsimp only
  split
  · exact sendIndices_cycled r s
  · exact .refl s

theorem bootOn_cycled (s : State) : Cycled s (bootOn s) := by
  unfold bootOn
  repeat' split
  all_goals rfl

theorem startRestart_cycled (s : State) : Cycled s (startRestart s) := by
  unfold startRestart
  repeat' split
  all_goals rfl

/-- What the parts do by themselves at once: the end of `tick`. -/
theorem partsAct_cycled (s : State) : Cycled s (startRestart (bootOn (writeIndices (clockCounters (reportWrong (calm s)))))) :=
  (calm_cycled s).trans <| (reportWrong_cycled _).trans <| (clockCounters_cycled _).trans <| (writeIndices_cycled _).trans <|
    (bootOn_cycled _).trans (startRestart_cycled _)

/-! ### One fabric cycle -/

/-- The state at the end of a fabric cycle's time. -/
def cyclePassed (s : State) : State := onTime (fun t => { t with phase := t.phase + 1 }) (elapse (cycleQuarters s.time.phase) s)

theorem tick_of_reset {s : State} (h : s.boot.stage = .reset) : tick s = .next s := by
  have stands : timeRuns s = false := by simp [timeRuns, h]
  simp only [tick, stands, Bool.not_false, if_true]

theorem timeRuns_of_stage {s : State} (h : s.boot.stage ≠ .reset) : timeRuns s = true := by simp [timeRuns, h]

theorem tick_exhausted {s : State} (h : s.boot.stage ≠ .reset) (late : 2 ^ 48 * qSecond ≤ s.time.q + cycleQuarters s.time.phase) :
    tick s = .fault .timeExhausted := by
  simp only [tick, timeRuns_of_stage h, Bool.not_true, Bool.false_eq_true, if_false, if_pos late]

theorem tick_runs {s : State} (h : s.boot.stage ≠ .reset) (early : s.time.q + cycleQuarters s.time.phase < 2 ^ 48 * qSecond) :
    tick s = .next (startRestart (bootOn (writeIndices (clockCounters (reportWrong (calm (passStates (cyclePassed s)))))))) := by
  simp only [tick, timeRuns_of_stage h, Bool.not_true, Bool.false_eq_true, if_false, if_neg (Nat.not_le.mpr early), cyclePassed]

theorem three_le_cycleQuarters (phase : Fin 5) : 3 ≤ cycleQuarters phase := by
  unfold cycleQuarters
  split <;> omega

theorem cycleQuarters_le_four (phase : Fin 5) : cycleQuarters phase ≤ 4 := by
  unfold cycleQuarters
  split <;> omega

/-- While every radio rests, a fabric cycle is its time and what the parts then do by themselves. -/
theorem tick_rests {s : State} (h : s.boot.stage ≠ .reset) (rest : RadiosRest s)
    (early : s.time.q + cycleQuarters s.time.phase < 2 ^ 48 * qSecond) : ∃ t, tick s = .next t ∧ Cycled (cyclePassed s) t := by
  have rest' : RadiosRest (cyclePassed s) := rest.of_sameRadios (elapse_sameRxRadios _ s) (elapse_tiles_tx ..) (elapse_tiles_tile ..)
  refine ⟨_, tick_runs h early, ?_⟩
  rw [passStates_rests rest']
  exact partsAct_cycled _

/-! ### An idle step -/

theorem step_ticks {s : State} (empty : s.pending = []) (noneMay : releasable [] s.held s = none) : step s = tick s := by
  rw [step_nil s empty, idle, noneMay]

/-- The oldest held command starts when its own fence lets it. -/
theorem step_startsHeld {s t : State} {r : RingId} {fence : Bool} {c : Instr} {rest : List (RingId × Bool × Instr)} (empty : s.pending = [])
    (held : s.held = (r, fence, c) :: rest) (may : fence = true → (s.hif.rings[r]).started = 0) (runs : exec c (leaveHeld r s) = .next t) :
    step s = .next { t with held := t.held ++ rest } := by
  have released : releasable [] s.held s = some ([], (r, fence, c), rest) := by
    have : mayRelease [] (r, fence, c) s = true := by
      cases fence with
      | false => rfl
      | true => exact beq_iff_eq.mpr (may rfl)
    rw [held, releasable, if_pos this]
  rw [step_nil s empty, idle, released]
  simp [runHeld, runs]

/-! ### O2 -/

/-- Settles O2: radios that rest pass no state, so that an idle step is the time of a fabric cycle and what the parts then do by themselves. -/
theorem emptyQueueIdles : Obligations.EmptyQueueIdles := by
  refine ⟨?cycle, ?reset, ?unfenced, ?fenced, ?exhausted⟩
  case cycle =>
    intro s empty noneMay run rest early
    have four := cycleQuarters_le_four s.time.phase
    obtain ⟨t, ticks, kept⟩ := tick_rests run rest (by omega)
    refine ⟨t, (step_ticks empty noneMay).trans ticks, ?_⟩
    unfold Cycled at kept
    rw [kept]
    simp [cyclePassed, later, cycleQuarters]
  case reset =>
    intro s empty noneMay reset
    rw [step_ticks empty noneMay, tick_of_reset reset]
  case unfenced =>
    intro s t r c rest empty held runs
    exact step_startsHeld empty held nofun runs
  case fenced =>
    intro s t r c rest empty held done runs
    exact step_startsHeld empty held (fun _ => done) runs
  case exhausted =>
    intro s empty noneMay run late
    have three := three_le_cycleQuarters s.time.phase
    rw [step_ticks empty noneMay, tick_exhausted run (by omega)]

end Sys2Proof.Machine
end

section
/-! PROOFS. A sample of a slice path (R14, R280, R289, R560, R638): which parts of the state it touches, and in which order. -/
namespace Sys2Proof.Machine
open Sys2Proof

/-! ### What one operation on a sample may touch -/

/-- The parts of the state that a sample touches beside its slice and its canceller. -/
def Beside (s t : State) : Prop :=
  t = { s with
    out := t.out, tdd := t.tdd, hif := t.hif, evr := t.evr, pmc := t.pmc, flt := t.flt, plc := t.plc, mem := t.mem, lnk := t.lnk, sig := t.sig
    slices := { s.slices with capture := t.slices.capture } }

theorem Beside.refl (s : State) : Beside s s := rfl

theorem Beside.trans {s t u : State} (h : Beside s t) (k : Beside t u) : Beside s u := by
  unfold Beside at *
  rw [k, h]

theorem Beside.of_answered {s t : State} (h : Answered s t) : Beside s t := by
  unfold Answered Beside at *
  rw [h]

theorem Beside.slice {s t : State} (h : Beside s t) : t.slices.slice = s.slices.slice := by rw [h]

theorem Beside.can {s t : State} (h : Beside s t) : t.can = s.can := by rw [h]

theorem Beside.thm {s t : State} (h : Beside s t) : t.thm = s.thm := by rw [h]

theorem onChain_beside (sl : SliceId) (p : PathId) (f : Chain → Chain) (s : State) : Beside s (onChain sl p f s) := rfl

theorem onLnk_beside (f : LinkBlock → LinkBlock) (s : State) : Beside s (onLnk f s) := rfl

theorem onCapture_beside (r : Fin 8) (f : Capture → Option Capture) (s : State) : Beside s (onCapture r f s) := rfl

theorem pulse_beside (e u n : Nat) (s : State) : Beside s (pulse e u n s) := rfl

theorem raise_beside (src : Fin 320) (u d : Nat) (s : State) : Beside s (raise src u d s) := rfl

theorem notify_beside (src u d : Nat) (s : State) : Beside s (notify src u d s) := by
  unfold Beside
  rw [notify_frame]

theorem takePlayed_beside (sl : SliceId) (p : PathId) (s : State) : Beside s (takePlayed sl p s).2 := by
  unfold takePlayed
  split
  · exact .refl s
  · split
    · dsimp only
      exact onLnk_beside ..
    · exact .refl s

theorem nextSample_beside (d : SliceDef) (sl : SliceId) (p : PathId) (s : State) : Beside s (nextSample d sl p s).2.2.2 := by
  unfold nextSample
  split
  · exact takePlayed_beside ..
  · split
    · exact onChain_beside ..
    · exact .refl s

theorem observeInput_beside (sl : SliceId) (d : SliceDef) (t : Nat) (v : Sample) (s : State) : Beside s (observeInput sl d t v s) := by
  unfold observeInput
  split
  · exact .refl s
  · dsimp only
    split
    · exact .refl s
    · rfl

theorem countLine_beside (event : Nat) (pages : List Nat) (line : Nat) (s : State) : Beside s (countLine event pages line s) := by
  unfold countLine
  split
  · exact pulse_beside ..
  · exact .refl s

theorem readLine_beside (k : BufKey) (line : Nat) (s : State) : Beside s (readLine k line s) := by
  unfold readLine
  split
  · exact .refl s
  · exact countLine_beside ..

theorem onMem_beside (f : Smem → Smem) (s : State) : Beside s (onMem f s) := rfl

theorem writeLine_beside (k : BufKey) (line : Nat) (s : State) : Beside s (writeLine k line s) := by
  unfold writeLine
  split
  · exact .refl s
  · exact ((countLine_beside ..).trans (countLine_beside ..)).trans (onMem_beside ..)

theorem writeRing_beside (k : BufKey) (first n : Nat) (s : State) : Beside s (writeRing k first n s) := by
  unfold writeRing
  dsimp only
  split
  · exact .refl s
  · refine foldl_keeps Beside .refl .trans _ (fun s i => ?_) _ s
    split
    · split
      · exact writeLine_beside ..
      · exact (writeLine_beside ..).trans (readLine_beside ..)
    · exact .refl s

theorem onPlc_beside (f : Placement → Placement) (s : State) : Beside s (onPlc f s) := rfl

theorem bumpGen_beside (s : State) : Beside s (bumpGen s) := onPlc_beside _ s

theorem recordNow_beside (a : Payload) (s : State) : Beside s (recordNow a s) := .of_answered (record_answered ..)

theorem moveRecord_beside (ev : Nat) (m : Move) (s : State) : Beside s (moveRecord ev m s) := recordNow_beside ..

theorem dropMoves_beside (sl : SliceId) (s : State) : Beside s (dropMoves sl s) := by
  unfold dropMoves
  exact (onPlc_beside ..).trans (foldl_keeps Beside .refl .trans _ (fun s m => (moveRecord_beside 2 m s).trans (bumpGen_beside _)) _ _)

theorem shadowSample_beside (sl : SliceId) (poisoned : Bool) (s : State) : Beside s (shadowSample sl poisoned s) := by
  unfold shadowSample
  split
  · exact .refl s
  · split
    · exact dropMoves_beside sl s
    · rfl

theorem captureSample_beside (sl : SliceId) (p : PathId) (inside : Bool) (t : Tapped) (s : State) (r : Fin 8) :
    Beside s (captureSample sl p inside t s r) := by
  unfold captureSample
  split
  · exact .refl s
  · dsimp only
    split
    · exact .refl s
    · split
      · exact onCapture_beside ..
      · split
        · exact .refl s
        · split
          · exact (onCapture_beside ..).trans (.of_answered (completeAt_answered ..))
          · exact onCapture_beside ..

theorem blockDone_beside (e : StreamEntry) (f : Filling) (s : State) : Beside s (blockDone e f s) := by
  unfold blockDone
  dsimp only
  split
  · exact onLnk_beside ..
  · exact onLnk_beside ..

theorem fillBlock_beside (d : SliceDef) (sl : SliceId) (p : PathId) (stamp : Nat) (c : Container) (s : State) :
    Beside s (fillBlock d sl p stamp c s) := by
  unfold fillBlock
  split
  · exact .refl s
  · extract_lets b mine old u before f rest
    have closed : Beside s u := by
      show Beside s (match old with | some f => if f.number = b then s else blockDone _ f s | none => s)
      generalize old = filling
      split
      · split
        · exact .refl s
        · exact blockDone_beside ..
      · exact .refl s
    split
    · exact (closed.trans (onLnk_beside ..)).trans (blockDone_beside ..)
    · exact closed.trans (onLnk_beside ..)

theorem samplePulses_beside (sl : SliceId) (sat limited trimmed poisoned : Bool) (s : State) :
    Beside s (samplePulses sl sat limited trimmed poisoned s) := by
  have counted (b : Bool) (e : Nat) (s : State) : Beside s (if b then pulse e (target .slice sl) 1 s else s) := by
    split
    · exact pulse_beside ..
    · exact .refl s
  have saturated (s : State) : Beside s (if sat then notify 100 (target .slice sl) 0 (pulse 0x0101 (target .slice sl) 1 s) else s) := by
    split
    · exact (pulse_beside ..).trans (notify_beside ..)
    · exact .refl s
  exact (pulse_beside ..).trans <| (saturated _).trans <| (counted poisoned _ _).trans <| (counted limited _ _).trans (counted trimmed _ _)

/-! ### A sample -/

/-- A path's applied gain, in 0.01 dB. -/
def appliedGain (p : PathId) (x : Slice) : Int :=
  match p with
  | .a => x.appliedA
  | .b => x.appliedB

/-- The part of a step that a path's gain has risen. -/
def gainPart (p : PathId) (x : Slice) : Nat :=
  match p with
  | .a => x.riseA
  | .b => x.riseB

/-- A path's applied gain after its next sample (R289). -/
def nextGain (sl : SliceId) (p : PathId) (params : SliceParams) (s : State) : Int :=
  (stepGain params.defn (min (gainTarget params.defn p) (s.can.path[canIdx sl p]).ceiling) (appliedGain p s.slices.slice[sl])
    (gainPart p s.slices.slice[sl])).1

/-- A stopped slice, and every slice while the slice engines are gated, sends poisoned samples (R14, R638). -/
theorem gateSample_poisoned {sl : SliceId} {s : State} (h : (s.slices.slice[sl]).state = .stopped ∨ s.thm.halted = true) (p : PathId) (d : SliceDef)
    (made taken n factor : Nat) (bad : Bool) (v : Cplx) : gateSample sl p d made taken n factor bad v s = none := by
  have silenced : ((s.slices.slice[sl]).state == .stopped || s.thm.halted || throughReset d p s) = true := by
    rcases h with stopped | halted
    · simp [show (s.slices.slice[sl.val]).state = _ from stopped]
    · simp [halted]
  exact if_pos silenced

/-- What a sample does, in its order: its input is taken, its canceller moves on, its slice takes the new gain, and the sample goes out. -/
theorem sampleStep_parts (sl : SliceId) (p : PathId) (params : SliceParams) (s : State) :
    ∃ (taken cancelled ended : State) (c : Canceller) (rise fade : Nat) (sat : Bool) (sent : Sample),
      Beside s taken ∧ ((s.slices.slice[sl]).state = .stopped ∨ s.thm.halted = true → sent = none) ∧
      Beside (onCanceller sl p (fun _ => c) taken) cancelled ∧
      Beside (onSlice sl (setPathGain p (nextGain sl p params s) rise fade sat) cancelled) ended ∧
      sampleStep sl p params s = emit (.sample sl.val p (sampleContainer sent)) ended := by
  unfold sampleStep
  extract_lets d slice c cp applied rise fade goal w yhat
  have first := nextSample_beside d sl p s
  rcases next : nextSample d sl p s with ⟨n, made, input, u⟩
  rw [next] at first
  dsimp -zeta only at first ⊢
  extract_lets history y observed taken silent down fade factor limited z v sat trim v v sent r here off c' c' cancelled gained inside blind meter
    metered tapped shadowed captured filled
  have hObserved : Beside s observed := by
    refine first.trans ?_
    show Beside u (if p = .a then observeInput sl d (stationOf (made - outputDelay d) u) input u else u)
    split
    · exact observeInput_beside ..
    · exact .refl u
  have hShadowed : Beside metered shadowed := by
    show Beside metered (if p = .a then shadowSample sl (contBad r) metered else metered)
    split
    · exact shadowSample_beside ..
    · exact .refl metered
  have hFilled : Beside captured filled := by
    show Beside captured (if sinkOf d p = .fronthaul then fillBlock d sl p (stationOf made captured) r captured else captured)
    split
    · exact fillBlock_beside ..
    · exact .refl captured
  have hEnded : Beside gained (samplePulses sl sat limited (trim != 0) (contBad r) filled) :=
    (onChain_beside ..).trans <| hShadowed.trans <|
      (foldl_keeps Beside .refl .trans _ (captureSample_beside sl p inside tapped) _ _).trans <| hFilled.trans (samplePulses_beside ..)
  have hSent : (s.slices.slice[sl]).state = .stopped ∨ s.thm.halted = true → sent = none := by
    intro h
    rw [← hObserved.slice, ← hObserved.thm] at h
    exact gateSample_poisoned h ..
  have hCancelled : ∃ c : Canceller, Beside (onCanceller sl p (fun _ => c) observed) cancelled := by
    by_cases present : c'.present = true
    · exact ⟨pushLine r c', by rw [show cancelled = _ from if_pos present]; exact writeRing_beside ..⟩
    · exact ⟨c', by rw [show cancelled = _ from if_neg present]; exact .refl _⟩
  obtain ⟨c'', hCancelled⟩ := hCancelled
  exact ⟨observed, cancelled, _, c'', _, _, _, sent, hObserved, hSent, hCancelled, hEnded, rfl⟩

/-! ### What a sample keeps -/

/-- Of the slices and the cancellers, the path's own alone change, and outside them only what a sample may touch. -/
structure PathKept (sl : SliceId) (p : PathId) (s t : State) : Prop where
  beside : t = { s with
    out := t.out, tdd := t.tdd, hif := t.hif, evr := t.evr, pmc := t.pmc, flt := t.flt, plc := t.plc, mem := t.mem, lnk := t.lnk, sig := t.sig
    slices := t.slices, can := t.can }
  slices : ∀ k : SliceId, k ≠ sl → t.slices.slice[k] = s.slices.slice[k]
  cans   : ∀ i : Fin 512, i ≠ canIdx sl p → t.can.path[i] = s.can.path[i]

theorem PathKept.trans {sl : SliceId} {p : PathId} {s t u : State} (h : PathKept sl p s t) (k : PathKept sl p t u) : PathKept sl p s u where
  beside := by rw [k.beside, h.beside]
  slices i hi := (k.slices i hi).trans (h.slices i hi)
  cans i hi := (k.cans i hi).trans (h.cans i hi)

theorem Beside.pathKept {s t : State} (h : Beside s t) (sl : SliceId) (p : PathId) : PathKept sl p s t where
  beside := by
    unfold Beside at h
    rw [h]
  slices k _ := by rw [h.slice]
  cans i _ := by rw [h.can]

theorem onCanceller_other {sl : SliceId} {p : PathId} {i : Fin 512} (h : i ≠ canIdx sl p) (f : Canceller → Canceller) (s : State) :
    (onCanceller sl p f s).can.path[i] = s.can.path[i] := upd_other s.can.path (canIdx sl p) i f h

theorem onCanceller_self (sl : SliceId) (p : PathId) (f : Canceller → Canceller) (s : State) :
    (onCanceller sl p f s).can.path[canIdx sl p] = f s.can.path[canIdx sl p] := upd_self s.can.path (canIdx sl p) f

theorem onCanceller_pathKept (sl : SliceId) (p : PathId) (f : Canceller → Canceller) (s : State) : PathKept sl p s (onCanceller sl p f s) where
  beside := rfl
  slices _ _ := rfl
  cans _ h := onCanceller_other h f s

theorem onSlice_other {sl k : SliceId} (h : k ≠ sl) (f : Slice → Slice) (s : State) : (onSlice sl f s).slices.slice[k] = s.slices.slice[k] :=
  upd_other s.slices.slice sl k f h

theorem onSlice_self (sl : SliceId) (f : Slice → Slice) (s : State) : (onSlice sl f s).slices.slice[sl] = f s.slices.slice[sl] :=
  upd_self s.slices.slice sl f

theorem onSlice_pathKept (sl : SliceId) (p : PathId) (f : Slice → Slice) (s : State) : PathKept sl p s (onSlice sl f s) where
  beside := rfl
  slices _ h := onSlice_other h f s
  cans _ _ := rfl

theorem sampleStep_pathKept (sl : SliceId) (p : PathId) (params : SliceParams) (s : State) : PathKept sl p s (sampleStep sl p params s) := by
  obtain ⟨taken, cancelled, ended, c, rise, fade, sat, sent, hTaken, -, hCancelled, hEnded, step⟩ := sampleStep_parts sl p params s
  have emitted : Beside ended (emit (.sample sl.val p (sampleContainer sent)) ended) := rfl
  rw [step]
  exact (hTaken.pathKept sl p).trans <| (onCanceller_pathKept ..).trans <| (hCancelled.pathKept sl p).trans <|
    (onSlice_pathKept ..).trans ((hEnded.trans emitted).pathKept sl p)

/-- The slice of a sample takes the next gain of the path, and with it the path's ramp and the count of saturations alone change. -/
theorem sampleStep_slice (sl : SliceId) (p : PathId) (params : SliceParams) (s : State) :
    ∃ (rise fade : Nat) (sat : Bool),
      (sampleStep sl p params s).slices.slice[sl] = setPathGain p (nextGain sl p params s) rise fade sat s.slices.slice[sl] := by
  obtain ⟨taken, cancelled, ended, c, rise, fade, sat, sent, hTaken, -, hCancelled, hEnded, step⟩ := sampleStep_parts sl p params s
  have before : cancelled.slices.slice = s.slices.slice := hCancelled.slice.trans hTaken.slice
  refine ⟨rise, fade, sat, ?_⟩
  rw [step]
  show ended.slices.slice[sl] = _
  rw [hEnded.slice, onSlice_self, before]

/-- What goes out of a stopped slice, or while the slice engines are gated, is poisoned (R14, R638). -/
theorem sampleStep_poisoned {sl : SliceId} {s : State} (h : (s.slices.slice[sl]).state = .stopped ∨ s.thm.halted = true) (p : PathId)
    (params : SliceParams) : (sampleStep sl p params s).out.head? = some (.sample sl.val p .poisoned) := by
  obtain ⟨taken, cancelled, ended, c, rise, fade, sat, sent, -, poisoned, -, -, step⟩ := sampleStep_parts sl p params s
  rw [step, poisoned h]
  rfl

@[simp] theorem setPathGain_appliedGain (p : PathId) (applied : Int) (rise fade : Nat) (sat : Bool) (x : Slice) :
    appliedGain p (setPathGain p applied rise fade sat x) = applied := by
  cases p <;> rfl

@[simp] theorem setPathGain_state (p : PathId) (applied : Int) (rise fade : Nat) (sat : Bool) (x : Slice) :
    (setPathGain p applied rise fade sat x).state = x.state := by
  cases p <;> rfl

@[simp] theorem setPathGain_live (p : PathId) (applied : Int) (rise fade : Nat) (sat : Bool) (x : Slice) :
    (setPathGain p applied rise fade sat x).live = x.live := by
  cases p <;> rfl

theorem appliedGain_eq (p : PathId) (x : Slice) : appliedGain p x = if p = .a then x.appliedA else x.appliedB := by
  cases p <;> rfl

theorem gainPart_eq (p : PathId) (x : Slice) : gainPart p x = if p = .a then x.riseA else x.riseB := by
  cases p <;> rfl

/-! ### A parity error before the sample (R560) -/

/-- What an error in local memory keeps: the slices, the ceiling of the path's canceller, and what `PathKept` names. -/
structure Damaged (sl : SliceId) (p : PathId) (s t : State) : Prop where
  path    : PathKept sl p s t
  slices  : t.slices = s.slices
  ceiling : (t.can.path[canIdx sl p]).ceiling = (s.can.path[canIdx sl p]).ceiling

theorem Damaged.thm {sl : SliceId} {p : PathId} {s t : State} (h : Damaged sl p s t) : t.thm = s.thm := by rw [h.path.beside]

theorem Damaged.trans {sl : SliceId} {p : PathId} {s t u : State} (h : Damaged sl p s t) (k : Damaged sl p t u) : Damaged sl p s u :=
  ⟨h.path.trans k.path, k.slices.trans h.slices, k.ceiling.trans h.ceiling⟩

theorem Damaged.of_beside {s t : State} (h : Beside s t) (slices : t.slices = s.slices) (sl : SliceId) (p : PathId) : Damaged sl p s t :=
  ⟨h.pathKept sl p, slices, by rw [h.can]⟩

theorem Damaged.refl (sl : SliceId) (p : PathId) (s : State) : Damaged sl p s s := .of_beside (.refl s) rfl sl p

theorem onCanceller_damaged {f : Canceller → Canceller} (h : ∀ c, (f c).ceiling = c.ceiling) (sl : SliceId) (p : PathId) (s : State) :
    Damaged sl p s (onCanceller sl p f s) :=
  ⟨onCanceller_pathKept sl p f s, rfl, by rw [onCanceller_self, h]⟩

theorem localError_damaged (sl : SliceId) (p : PathId) (d : SliceDef) (w : LocalWord) (s : State) : Damaged sl p s (localError sl p d w s) := by
  unfold localError
  split
  · exact .refl sl p s
  · rename_i e _
    have raised (u : State) : Damaged sl p u (raise 103 (target .engine e) 0 u) := .of_beside (raise_beside ..) rfl sl p
    refine Damaged.trans ?_ (raised _)
    cases w with
    | delayLine age =>
      refine onCanceller_damaged (fun c => ?_) sl p s
      split <;> rfl
    | tap fg i =>
      cases fg with
      | true => exact onCanceller_damaged (by intro; rfl) sl p s
      | false => exact onCanceller_damaged (by intro; rfl) sl p s
    | coefficient => exact .refl sl p s
    | other stage index => exact .of_beside (onChain_beside ..) rfl sl p

/-! ### SLICE_SAMPLE_BOUNDARY -/

theorem exec_sliceSampleBoundary_whole {sl : SliceId} {p : PathId} {x : SliceParams} {s : State} (live : (s.slices.slice[sl]).live = some x)
    (has : (pathsOf x.defn).contains p = true) : exec (.sliceSampleBoundary sl p none) s = .next (sampleStep sl p x s) := by
  show execSliceSampleBoundary sl p none s = _
  simp only [execSliceSampleBoundary, live, has, if_true]

/-- A sample of a path of a defined slice runs, on the state that an error in local memory leaves. -/
theorem exec_sliceSampleBoundary {sl : SliceId} {p : PathId} {x : SliceParams} {s : State} (live : (s.slices.slice[sl]).live = some x)
    (has : (pathsOf x.defn).contains p = true) (wrong : Option LocalWord) :
    ∃ u, Damaged sl p s u ∧ exec (.sliceSampleBoundary sl p wrong) s = .next (sampleStep sl p x u) := by
  cases wrong with
  | none => exact ⟨s, .refl sl p s, exec_sliceSampleBoundary_whole live has⟩
  | some w =>
    refine ⟨localError sl p x.defn w s, localError_damaged .., ?_⟩
    show execSliceSampleBoundary sl p (some w) s = _
    simp only [execSliceSampleBoundary, live, has, if_true]

/-- A sample of a stopped slice, or while the slice engines are gated, goes out poisoned and touches no other slice. -/
theorem sliceSampleBoundary_poisoned {sl : SliceId} {p : PathId} {x : SliceParams} {s : State} (live : (s.slices.slice[sl]).live = some x)
    (has : (pathsOf x.defn).contains p = true) (wrong : Option LocalWord) (h : (s.slices.slice[sl]).state = .stopped ∨ s.thm.halted = true) :
    Does (.sliceSampleBoundary sl p wrong) s fun t =>
      t.out.head? = some (.sample sl.val p .poisoned) ∧ (∀ k : SliceId, k ≠ sl → t.slices.slice[k] = s.slices.slice[k]) := by
  obtain ⟨u, damaged, runs⟩ := exec_sliceSampleBoundary live has wrong
  rw [← damaged.slices, ← damaged.thm] at h
  exact does_of_next runs ⟨sampleStep_poisoned h p x, (damaged.path.trans (sampleStep_pathKept sl p x u)).slices⟩

/-- An error in local memory leaves the gain's next step as it was. -/
theorem Damaged.nextGain {sl : SliceId} {p : PathId} {s u : State} (h : Damaged sl p s u) (x : SliceParams) :
    nextGain sl p x u = nextGain sl p x s := by
  unfold Machine.nextGain
  rw [h.ceiling, h.slices]

/-! ### The gain's step (R289) -/

theorem stepGain_down {d : SliceDef} {goal applied : Int} (h : goal ≤ applied) (acc : Nat) : (stepGain d goal applied acc).1 = goal := by
  simp only [stepGain, if_pos h]

/-- Upwards the gain moves at once when no rise is set, and otherwise to its goal or by its rise, whichever is less. -/
theorem stepGain_up {d : SliceDef} {goal applied : Int} (h : applied < goal) (acc : Nat) :
    (stepGain d goal applied acc).1 = if d.gainRise = 0 then goal
      else min goal (applied + (acc + 10 * d.gainRise * samplePeriod d : Nat) / 4000000) := by
  simp only [stepGain, if_neg (Int.not_le.mpr h), Int.natCast_ediv]
  split
  · rfl
  · split
    · exact (Int.min_eq_left ‹_›).symm
    · exact (Int.min_eq_right (Int.le_of_lt (Int.not_le.mp ‹_›))).symm

theorem stepGain_le_goal (d : SliceDef) (goal applied : Int) (acc : Nat) : (stepGain d goal applied acc).1 ≤ goal := by
  by_cases down : goal ≤ applied
  · exact Int.le_of_eq (stepGain_down down acc)
  · rw [stepGain_up (Int.not_le.mp down)]
    split
    · exact Int.le_refl _
    · exact Int.min_le_left ..

theorem le_stepGain {d : SliceDef} {goal applied : Int} (h : applied < goal) (acc : Nat) : applied ≤ (stepGain d goal applied acc).1 := by
  rw [stepGain_up h]
  split
  · exact Int.le_of_lt h
  · exact Int.le_min.mpr ⟨Int.le_of_lt h, by omega⟩

theorem stepGain_le_rise {d : SliceDef} {goal applied : Int} (h : applied < goal) (rises : d.gainRise ≠ 0) (acc : Nat) :
    (stepGain d goal applied acc).1 ≤ applied + (acc + 10 * d.gainRise * samplePeriod d : Nat) / 4000000 := by
  rw [stepGain_up h, if_neg rises]
  exact Int.min_le_right ..

end Sys2Proof.Machine
end

section
/-! PROOFS. The end of a canceller's evaluation window (R317, R318, R322 to R326): what it copies, and when its path is settled. -/
namespace Sys2Proof.Machine
open Sys2Proof

/-! ### The steps of a window's end -/

/-- What the steps beside the copy rule keep of a canceller: the foreground taps, what the rule counts, and whether the path is settled. -/
structure CopyKept (c e : Canceller) : Prop where
  wFg     : e.wFg = c.wFg
  copies  : e.copies = c.copies
  copied  : e.copied = c.copied
  free    : e.copyFree = c.copyFree
  settled : e.settled = c.settled

theorem CopyKept.trans {c e f : Canceller} (h : CopyKept c e) (k : CopyKept e f) : CopyKept c f :=
  ⟨k.wFg.trans h.wFg, k.copies.trans h.copies, k.copied.trans h.copied, k.free.trans h.free, k.settled.trans h.settled⟩

theorem newWindow_copyKept (c : Canceller) : CopyKept c (newWindow c) := ⟨rfl, rfl, rfl, rfl, rfl⟩

theorem estimates_copyKept (k : Nat) (c : Canceller) : CopyKept c (estimates k c) := ⟨rfl, rfl, rfl, rfl, rfl⟩

theorem raiseCeiling_copyKept (margin : Int) (rise : Nat) (c : Canceller) : CopyKept c (raiseCeiling margin rise c) := ⟨rfl, rfl, rfl, rfl, rfl⟩

theorem usedValues_copyKept (x : CancelParams) (c : Canceller) : CopyKept c (usedValues x c) := by
  unfold usedValues
  split <;> exact ⟨rfl, rfl, rfl, rfl, rfl⟩

/-- Without a copy the foreground and the count of copies stay, and the fourth window in a row after a copy settles the path (R323). -/
theorem endWindowCopy_free (c : Canceller) :
    (endWindowCopy false c).wFg = c.wFg ∧ (endWindowCopy false c).copies = c.copies ∧
      (c.copied = true → 3 ≤ c.copyFree → (endWindowCopy false c).settled = true) := by
  refine ⟨rfl, rfl, fun copied free => ?_⟩
  have four : 4 ≤ min 4 (c.copyFree + 1) := by omega
  simp only [endWindowCopy, Bool.false_eq_true, if_false, copied, Bool.true_and, decide_eq_true four, Bool.or_true]

/-! ### The whole of it -/

/-- A window that has summed, of a canceller that adapts and whose background wins, copies the background (R317). -/
theorem windowEnd_copies {x : CancelParams} {c : Canceller} (summed : c.kk ≠ 0) (adapts : x.mode = 0) (wins : copyWins c = true) (k : Nat) :
    (windowEnd x k c).2 = true ∧ (windowEnd x k c).1.wFg = c.wBg.map foreground ∧ (windowEnd x k c).1.copies = (c.copies + 1) % 65536 := by
  have after (e : Canceller) : CopyKept e (raiseCeiling x.margin x.ceilRise (usedValues x (newWindow e))) :=
    ((newWindow_copyKept e).trans (usedValues_copyKept x _)).trans (raiseCeiling_copyKept ..)
  have ends : windowEnd x k c = (raiseCeiling x.margin x.ceilRise (usedValues x (newWindow (endWindowCopy true (estimates k c)))), true) := by
    simp only [windowEnd, if_neg summed, adapts, wins, beq_self_eq_true, Bool.and_self]
  rw [ends]
  exact ⟨rfl, (after _).wFg, (after _).copies⟩

/-- Any other window copies nothing (R317, R318). -/
theorem windowEnd_free {x : CancelParams} {c : Canceller} (h : c.kk = 0 ∨ x.mode ≠ 0 ∨ copyWins c = false) (k : Nat) :
    (windowEnd x k c).2 = false ∧ (windowEnd x k c).1.wFg = c.wFg ∧ (windowEnd x k c).1.copies = c.copies ∧
      (c.copied = true → 3 ≤ c.copyFree → (windowEnd x k c).1.settled = true) := by
  have ends : ∃ e, CopyKept c e ∧ (windowEnd x k c).2 = false ∧ CopyKept (endWindowCopy false e) (windowEnd x k c).1 := by
    by_cases empty : c.kk = 0
    · simp only [windowEnd, if_pos empty]
      exact ⟨newWindow c, newWindow_copyKept c, trivial, (usedValues_copyKept x _).trans (raiseCeiling_copyKept ..)⟩
    · have loses : (x.mode == 0 && copyWins c) = false := by
        rcases h with h | h | h
        · exact absurd h empty
        · simp [h]
        · simp [h]
      simp only [windowEnd, if_neg empty, loses]
      exact ⟨estimates k c, estimates_copyKept k c, trivial,
        ((newWindow_copyKept _).trans (usedValues_copyKept x _)).trans (raiseCeiling_copyKept ..)⟩
  obtain ⟨e, before, noCopy, after⟩ := ends
  obtain ⟨wFg, copies, settles⟩ := endWindowCopy_free e
  refine ⟨noCopy, after.wFg.trans (wFg.trans before.wFg), after.copies.trans (copies.trans before.copies), fun copied free => ?_⟩
  rw [after.settled]
  exact settles (before.copied.trans copied) (before.free.symm ▸ free)

/-! ### CANCEL_WINDOW_END -/

/-- What a window's end leaves of a path's canceller. -/
def windowOf (sl : SliceId) (p : PathId) (s : State) : Canceller × Bool := windowEnd (liveCan sl p s) s.free s.can.path[canIdx sl p]

/-- The state in which a path's window has ended. -/
def windowEnded (sl : SliceId) (p : PathId) (s : State) : State := onCanceller sl p (fun _ => (windowOf sl p s).1) { s with free := s.free + 4 }

theorem windowEnded_self (sl : SliceId) (p : PathId) (s : State) : (windowEnded sl p s).can.path[canIdx sl p] = (windowOf sl p s).1 :=
  onCanceller_self ..

theorem windowEnded_other {sl : SliceId} {p : PathId} {i : Fin 512} (h : i ≠ canIdx sl p) (s : State) :
    (windowEnded sl p s).can.path[i] = s.can.path[i] := onCanceller_other h ..

theorem exec_cancelWindowEnd {sl : SliceId} {p : PathId} {s : State} (present : (s.can.path[canIdx sl p]).present = true) :
    exec (.cancelWindowEnd sl p) s =
      .next (if (windowOf sl p s).2 then pulse 0x0105 (target .slice sl) 1 (windowEnded sl p s) else windowEnded sl p s) := by
  show execCancelWindowEnd sl p s = _
  unfold execCancelWindowEnd
  exact if_pos present

/-! ### O40 -/

/-- Settles O40: of a sample, the order of its parts says what it sends and where its gain goes; of a window, the copy rule alone moves the taps. -/
theorem samplesAndCancellers : Obligations.SamplesAndCancellers := by
  refine ⟨?halted, ?stopped, ?whole, ?copies, ?free, ?gain, ?rise⟩
  case halted =>
    intro sl p x wrong s live has halted
    exact sliceSampleBoundary_poisoned live has wrong (.inr halted)
  case stopped =>
    intro sl p x wrong s live has stopped
    exact sliceSampleBoundary_poisoned live has wrong (.inl stopped)
  case whole =>
    intro sl p x s live has
    exact exec_sliceSampleBoundary_whole live has
  case copies =>
    intro sl p s present summed adapts wins
    obtain ⟨copy, wFg, copies⟩ := windowEnd_copies summed adapts wins s.free
    have runs := exec_cancelWindowEnd present
    rw [show (windowOf sl p s).2 = true from copy, if_pos rfl] at runs
    refine does_of_next runs ?_
    rw [pulse_can, windowEnded_self]
    exact ⟨wFg, copies, fun i hi => windowEnded_other hi s, rfl, rfl⟩
  case free =>
    intro sl p s present h
    obtain ⟨noCopy, wFg, copies, settles⟩ := windowEnd_free h s.free
    have runs := exec_cancelWindowEnd present
    rw [show (windowOf sl p s).2 = false from noCopy, if_neg Bool.false_ne_true] at runs
    refine does_of_next runs ?_
    rw [windowEnded_self]
    exact ⟨wFg, copies, settles, fun i hi => windowEnded_other hi s, rfl⟩
  case gain =>
    intro sl p x wrong s live has
    obtain ⟨u, damaged, runs⟩ := exec_sliceSampleBoundary live has wrong
    obtain ⟨rise, fade, sat, slice⟩ := sampleStep_slice sl p x u
    have kept := damaged.path.trans (sampleStep_pathKept sl p x u)
    have gain : appliedGain p (sampleStep sl p x u).slices.slice[sl] = nextGain sl p x s := by
      rw [slice, setPathGain_appliedGain, damaged.nextGain]
    refine does_of_next runs ⟨?_, ?_, ?_, kept.slices, kept.cans, ?_, ?_, ?_⟩
    · rw [← appliedGain_eq, ← appliedGain_eq, ← gainPart_eq]
      exact gain
    · rw [slice, setPathGain_state, damaged.slices]
    · rw [slice, setPathGain_live, damaged.slices, live]
    all_goals rw [kept.beside]
  case rise =>
    intro d goal applied acc
    exact ⟨stepGain_le_goal .., fun down => stepGain_down down acc, fun up => le_stepGain up acc,
      fun up rises => stepGain_le_rise up rises acc⟩

end Sys2Proof.Machine
end

section
/-! PROOFS. The machine at reset (O3, O4), the ownership of the ring pairs (O12) and the checks that every host command passes first (O16). -/
namespace Sys2Proof.Machine
open Sys2Proof

/-! ### The machine at reset -/

/-- Settles O3: every table at reset repeats one entry, which the statement's words describe. -/
theorem resetState : Obligations.ResetState := by
  unfold Obligations.ResetState
  refine ⟨rfl, rfl, rfl, rfl, ?rings, rfl, rfl, rfl, rfl, ?ports, ?tiles, ?slices, rfl, rfl⟩
  case rings => intro r; simp [State.reset, hifReset, ringReset]
  case ports => intro p; simp [State.reset, tilesReset, rxReset, txReset, radioReset]
  case tiles => intro t; simp [State.reset, tilesReset, tileReset]
  case slices => intro i; simp [State.reset, slicesReset, sliceReset]

/-- Settles O4. -/
theorem invariantsHoldAtReset : Obligations.InvariantsHoldAtReset := by
  unfold Obligations.InvariantsHoldAtReset
  refine ⟨?ringZero, otpGrows_refl _, rfl, ?keys⟩
  case ringZero => simp [ringZeroIsPf0, State.reset, hifReset, ringReset]
  case keys => intro k; simp [State.reset, securityReset]

/-! ### The owner of a ring pair (R49) -/

/-- The writes that the owner register ignores. -/
def OwnerIgnored (ring : RingId) (owner : Fn) (s : State) : Prop :=
  (s.hif.rings[ring]).state ≠ .disabled ∨ (ring = 0 ∧ owner ≠ 0) ∨
    (owner ≠ 0 ∧ (s.hif.rings[ring]).owner ≠ owner ∧ 16 ≤ pairsOwned owner s)

theorem execRingOwnerWrite_ignored {ring : RingId} {owner : Fn} {s : State} (h : BarOpen 0 s) (k : OwnerIgnored ring owner s) :
    exec (.ringOwnerWrite ring owner) s = .next (onFn 0 (fun f => { f with ownerWriteIgnored := true }) s) := by
  refine congrArg Host.Outcome.next ((viaBar_open h).trans (if_pos ?_))
  simpa [OwnerIgnored, and_assoc, or_assoc] using k

theorem execRingOwnerWrite_taken {ring : RingId} {owner : Fn} {s : State} (h : BarOpen 0 s) (k : ¬ OwnerIgnored ring owner s) :
    exec (.ringOwnerWrite ring owner) s = .next (onRing ring (fun x => { x with owner := owner }) s) := by
  refine congrArg Host.Outcome.next ((viaBar_open h).trans (if_neg ?_))
  simpa [OwnerIgnored, and_assoc, or_assoc] using k

/-- Settles O12. -/
theorem ringOwnership : Obligations.RingOwnership := by
  unfold Obligations.RingOwnership
  refine ⟨?taken, ?ignored⟩
  case taken =>
    intro ring owner s hBar hDisabled hZero hRoom
    have notIgnored : ¬ OwnerIgnored ring owner s := by
      rintro (h | ⟨rfl, h⟩ | ⟨hVf, hOther, hFull⟩)
      · exact h hDisabled
      · exact h (hZero rfl)
      · rcases hRoom with h | h | h
        · exact hVf h
        · exact hOther h
        · omega
    exact does_of_next (execRingOwnerWrite_taken hBar notIgnored)
      ⟨onRing_self .., fun r hr => onRing_other hr .., rfl⟩
  case ignored =>
    intro ring owner s hBar hIgnored
    exact does_of_next (execRingOwnerWrite_ignored hBar hIgnored)
      ⟨onFn_self .., fun f hf => upd_other _ _ _ _ hf, rfl⟩

/-! ### The checks of R71 -/

/-- The command that an opcode names is carried out as a host command of that opcode. -/
theorem commandOf_exec {op : Nat} {d : Desc} {found : Findings} {c : Instr} (h : commandOf op d found = some c) :
    ∃ body, ∀ s, exec c s = .next (hostCommand op c d body s) := by
  unfold commandOf at h
  split at h <;> cases h <;> exact ⟨_, fun _ => rfl⟩

theorem commandOf_holds {op : Nat} {c : Instr} {d : Desc} {found : Findings} {s : State} (h : commandOf op d found = some c)
    (k : mustHold d (s.held.any fun x => x.1 == d.ring) s = true) : exec c s = .next (holdCommand d c s) := by
  obtain ⟨body, runs⟩ := commandOf_exec h
  rw [runs, hostCommand_holds k]

theorem commandOf_refused {op : Nat} {c : Instr} {d : Desc} {found : Findings} {s : State} {r : Refuse} (h : commandOf op d found = some c)
    (k : mustHold d (s.held.any fun x => x.1 == d.ring) s = false)
    (refused : preCheck op (s.hif.rings[d.ring]).owner d s = some r) :
    exec c s = .next (refuse (issueOf op d s) r (startCommand d s)) := by
  obtain ⟨body, runs⟩ := commandOf_exec h
  rw [runs, hostCommand_refused k refused]

/-- In the fatal state and in RECOVERY two opcodes remain (R106, R359). -/
theorem preCheck_fatal {op : Nat} {fn : Fn} {d : Desc} {s : State} (h : s.flt.fatal = true ∨ s.boot.stage = .recovery)
    (notNop : op ≠ 0x01) (notDump : op ≠ 0x68) : preCheck op fn d s = some (refusal .fatalState) := by
  simp [preCheck, h, notNop, notDump]

/-- Outside the fatal state and RECOVERY the flags come first. -/
theorem preCheck_flags {op : Nat} {fn : Fn} {d : Desc} {s : State} (notFatal : s.flt.fatal = false) (booted : s.boot.stage ≠ .recovery)
    (flags : d.flags.toNat / 8 ≠ 0) : preCheck op fn d s = some (badParam 1) := by
  simp only [preCheck, notFatal, beq_eq_false_iff_ne.mpr booted, Bool.or_self, Bool.false_and, Bool.false_eq_true, if_false, if_pos flags]

/-- With flags and buffer in order the tenants' limits decide. -/
theorem preCheck_tenant {op : Nat} {fn : Fn} {d : Desc} {s : State} (notFatal : s.flt.fatal = false) (booted : s.boot.stage ≠ .recovery)
    (flags : d.flags.toNat / 8 = 0) (buffer : bufferCheck d = none) : preCheck op fn d s = tenantCheck op fn d s := by
  simp [preCheck, notFatal, booted, flags, buffer]

theorem tenantCheck_denied {op : Nat} {fn : Fn} {d : Desc} {s : State} (vf : fn ≠ 0) (h : tenantOpcode op = false) :
    tenantCheck op fn d s = some { status := .denied, offset := 0, resource := 0 } := by
  simp [tenantCheck, vf, h]

/-- Settles O16. -/
theorem hostCommandChecks : Obligations.HostCommandChecks := by
  unfold Obligations.HostCommandChecks
  refine ⟨?held, ?fatal, ?tenant, ?nop, ?flags⟩
  case held => exact fun op c d found s named held => commandOf_holds named held
  case fatal =>
    intro op c d found s named notNop notDump free fatal
    exact commandOf_refused named free (preCheck_fatal fatal notNop notDump)
  case tenant =>
    intro op c d found s named notTenant free notFatal booted flags buffer vf
    refine commandOf_refused named free ?_
    rw [preCheck_tenant notFatal booted flags buffer, tenantCheck_denied vf notTenant]
  case nop =>
    intro d s runs checked
    rw [show exec (.nop d) s = execNop d s from rfl, execNop, hostCommand_runs runs, checked]
  case flags =>
    intro op c d found s named free notFatal booted flags
    exact commandOf_refused named free (preCheck_flags notFatal booted flags)

end Sys2Proof.Machine
end

section
/-! PROOFS. What lasts: the owners of the ring pairs (R49) and the fuses of one-time-programmable memory (R646) stay as they are under every operation
of the machine but the few that are about them. `lasting` shows both, `f_lasting` says of an operation `f` that it keeps them, and each follows from
those of the operations that `f` is made of. They stand in the model's order and settle O6. -/
namespace Sys2Proof.Machine
open Sys2Proof

/-! ### What lasts -/

/-- The fuses of an owner key slot (R646): its hash, and whether it is programmed and revoked. -/
def fusesOf (x : OwnerSlot) : Nat × Bool × Bool := (x.hash, x.programmed, x.revoked)

/-- One-time-programmable memory: min_svn and the owner key slots. -/
def otpOf (x : Security) : Nat × Vector (Nat × Bool × Bool) 4 := (x.minSvn, x.owner.map fusesOf)

/-- The owner of every ring pair. -/
def ringOwners (h : Hif) : Vector Fn 64 := h.rings.map Ring.owner

/-- What no operation changes but those that are about it. -/
def lasting (s : State) : Vector Fn 64 × Nat × Vector (Nat × Bool × Bool) 4 := (ringOwners s.hif, otpOf s.sec)

/-- An operation that answers a next state keeps what lasts. -/
def Lasts (s : State) (o : Host.Outcome State Fault Refusal) : Prop := ∀ t, o = .next t → lasting t = lasting s

/-! #### Of an outcome -/

@[simp] theorem lasts_next {s t : State} : Lasts s (.next t) ↔ lasting t = lasting s := by simp [Lasts]

@[simp] theorem lasts_fault {s : State} {r : Fault} : Lasts s (.fault r) := by simp [Lasts]

@[simp] theorem lasts_refused {s : State} {r : Refusal} : Lasts s (.refused r) := by simp [Lasts]

@[simp] theorem lasts_ite {s : State} {c : Prop} [Decidable c] {a b : Host.Outcome State Fault Refusal} :
    Lasts s (if c then a else b) ↔ if c then Lasts s a else Lasts s b := by split <;> rfl

/-! #### Of a record that is written out: only the host interface and the security block count -/

@[simp] theorem lasting_mk {pending held out free time tdd boot hif evr pmc flt cfg sec mon cen flash plc mem map thm lnk tiles fec dfe sig slices can
    nps} :
    lasting ⟨pending, held, out, free, time, tdd, boot, hif, evr, pmc, flt, cfg, sec, mon, cen, flash, plc, mem, map, thm, lnk, tiles, fec, dfe,
      sig, slices, can, nps⟩ = (ringOwners hif, otpOf sec) := rfl

@[simp] theorem ringOwners_mk {fns rings evr caps numVFs vfEnable linkRate linkWidth perstLow} :
    ringOwners ⟨fns, rings, evr, caps, numVFs, vfEnable, linkRate, linkWidth, perstLow⟩ = rings.map Ring.owner := rfl

@[simp] theorem otpOf_mk {debug owner minSvn running slot fw failures lockedOut keyBad fwWindow mgmtFw windowEnd windowStamp asked restart load writes
    nonce nonces eid addr pecErrors spdmMctp spdmDoe} :
    otpOf ⟨debug, owner, minSvn, running, slot, fw, failures, lockedOut, keyBad, fwWindow, mgmtFw, windowEnd, windowStamp, asked, restart, load,
      writes, nonce, nonces, eid, addr, pecErrors, spdmMctp, spdmDoe⟩ = (minSvn, owner.map fusesOf) := rfl

@[simp] theorem map_owner (h : Hif) : h.rings.map Ring.owner = ringOwners h := rfl

@[simp] theorem lasting_fold {s : State} : (ringOwners s.hif, otpOf s.sec) = lasting s := rfl

@[simp] theorem otpOf_fold (x : Security) : (x.minSvn, x.owner.map fusesOf) = otpOf x := rfl

@[simp] theorem lasting_onHif (f : Hif → Hif) (s : State) : lasting (onHif f s) = (ringOwners (f s.hif), otpOf s.sec) := rfl

@[simp] theorem lasting_onSec (f : Security → Security) (s : State) : lasting (onSec f s) = (ringOwners s.hif, otpOf (f s.sec)) := rfl

/-! #### Of an update of a table -/

/-- An update that keeps what a map shows. -/
theorem map_upd {α β : Type} {n : Nat} {v : Vector α n} {i : Fin n} {f : α → α} {g : α → β} (h : ∀ x, g (f x) = g x) :
    (upd v i f).map g = v.map g := by
  ext j hj
  simp only [Vector.getElem_map, upd, Vector.getElem_set]
  split
  · subst_vars; exact h _
  · rfl

/-- An update of every entry that keeps what a map shows. -/
theorem map_updAll {α β : Type} {n : Nat} {v : Vector α n} {f : Fin n → α → α} {g : α → β} (h : ∀ i x, g (f i x) = g x) :
    (updAll v f).map g = v.map g := by
  ext j hj
  simp [updAll, h]

/-- A change of a ring pair that keeps its owner. -/
@[simp] theorem lasting_onRing (r : RingId) {f : Ring → Ring} (h : ∀ x, (f x).owner = x.owner) (s : State) :
    lasting (onRing r f s) = lasting s := by
  simp [onRing, map_upd h]

/-! #### Of choices and folds -/

@[simp] theorem lasting_ite {s t : State} {c : Prop} [Decidable c] :
    lasting (if c then s else t) = if c then lasting s else lasting t := apply_ite ..

/-- A choice between two operations that keep what lasts keeps it. -/
theorem ite_lasting {c : Prop} [Decidable c] {a b s : State} (ha : lasting a = lasting s) (hb : lasting b = lasting s) :
    lasting (if c then a else b) = lasting s := by
  split
  · exact ha
  · exact hb

@[simp] theorem foldl_lasting {α : Type} {f : State → α → State} (h : ∀ s a, lasting (f s a) = lasting s) (l : List α) (s : State) :
    lasting (l.foldl f s) = lasting s := by
  induction l generalizing s with
  | nil => rfl
  | cons a l ih => exact (ih _).trans (h s a)

theorem getD_lasting {o : Option State} {s : State} (h : ∀ t, o = some t → lasting t = lasting s) : lasting (o.getD s) = lasting s := by
  cases o with
  | none => rfl
  | some t => exact h t rfl

/-- A fold of operations that may fail keeps what each of them keeps. -/
theorem foldl_bind_lasting {α : Type} {f : State → α → Option State} (h : ∀ u a t, f u a = some t → lasting t = lasting u) {s t : State}
    {o : Option State} {l : List α} (start : ∀ t, o = some t → lasting t = lasting s)
    (ends : l.foldl (fun o a => o.bind fun u => f u a) o = some t) : lasting t = lasting s := by
  induction l generalizing o with
  | nil => exact start t ends
  | cons a l ih =>
    refine ih (fun u hu => ?_) ends
    obtain ⟨v, hv, hu⟩ := Option.bind_eq_some_iff.mp hu
    exact (h v a u hu).trans (start v hv)

theorem foldl_some_lasting {α : Type} {f : State → α → Option State} (h : ∀ u a t, f u a = some t → lasting t = lasting u) {s t : State}
    {l : List α} (ends : l.foldl (fun o a => o.bind fun u => f u a) (some s) = some t) : lasting t = lasting s :=
  foldl_bind_lasting h (fun _ hu => by rw [Option.some.inj hu]) ends

/-! ### Machine/Events -/

@[simp] theorem onTime_lasting (f) (s : State) : lasting (onTime f s) = lasting s := by simp [onTime]

@[simp] theorem onTdd_lasting (f) (s : State) : lasting (onTdd f s) = lasting s := by simp [onTdd]

@[simp] theorem onBoot_lasting (f) (s : State) : lasting (onBoot f s) = lasting s := by simp [onBoot]

@[simp] theorem onEvr_lasting (f) (s : State) : lasting (onEvr f s) = lasting s := by simp [onEvr]

@[simp] theorem onPmc_lasting (f) (s : State) : lasting (onPmc f s) = lasting s := by simp [onPmc]

@[simp] theorem onFlt_lasting (f) (s : State) : lasting (onFlt f s) = lasting s := by simp [onFlt]

@[simp] theorem onCfg_lasting (f) (s : State) : lasting (onCfg f s) = lasting s := by simp [onCfg]

@[simp] theorem onNps_lasting (f) (s : State) : lasting (onNps f s) = lasting s := by simp [onNps]

@[simp] theorem onCan_lasting (f) (s : State) : lasting (onCan f s) = lasting s := by simp [onCan]

@[simp] theorem onSlices_lasting (f) (s : State) : lasting (onSlices f s) = lasting s := by simp [onSlices]

@[simp] theorem onDfe_lasting (f) (s : State) : lasting (onDfe f s) = lasting s := by simp [onDfe]

@[simp] theorem onSig_lasting (f) (s : State) : lasting (onSig f s) = lasting s := by simp [onSig]

@[simp] theorem onFec_lasting (f) (s : State) : lasting (onFec f s) = lasting s := by simp [onFec]

@[simp] theorem onTiles_lasting (f) (s : State) : lasting (onTiles f s) = lasting s := by simp [onTiles]

@[simp] theorem onPlc_lasting (f) (s : State) : lasting (onPlc f s) = lasting s := by simp [onPlc]

@[simp] theorem onMem_lasting (f) (s : State) : lasting (onMem f s) = lasting s := by simp [onMem]

@[simp] theorem onMap_lasting (f) (s : State) : lasting (onMap f s) = lasting s := by simp [onMap]

@[simp] theorem onThm_lasting (f) (s : State) : lasting (onThm f s) = lasting s := by simp [onThm]

@[simp] theorem onLnk_lasting (f) (s : State) : lasting (onLnk f s) = lasting s := by simp [onLnk]

@[simp] theorem onFlash_lasting (f) (s : State) : lasting (onFlash f s) = lasting s := by simp [onFlash]

@[simp] theorem onMon_lasting (f) (s : State) : lasting (onMon f s) = lasting s := by simp [onMon]

@[simp] theorem onCen_lasting (f) (s : State) : lasting (onCen f s) = lasting s := by simp [onCen]

@[simp] theorem emit_lasting (o) (s : State) : lasting (emit o s) = lasting s := by simp [emit]

@[simp] theorem takeFree_lasting (s : State) : lasting (takeFree s) = lasting s := by simp [takeFree]

@[simp] theorem pulse_lasting (ev u n) (s : State) : lasting (pulse ev u n s) = lasting s := by simp [pulse]

@[simp] theorem record_lasting (p stamp epoch own) (s : State) : lasting (record p stamp epoch own s) = lasting s := by
  unfold record
  split <;> simp

@[simp] theorem recordNow_lasting (p) (s : State) : lasting (recordNow p s) = lasting s := by simp [recordNow]

@[simp] theorem notify_lasting (src unit detail) (s : State) : lasting (notify src unit detail s) = lasting s := by simp [notify]

@[simp] theorem raiseBy_lasting (injected src unit detail) (s : State) : lasting (raiseBy injected src unit detail s) = lasting s := by simp [raiseBy]

@[simp] theorem raise_lasting (src unit detail) (s : State) : lasting (raise src unit detail s) = lasting s := by simp [raise]

@[simp] theorem setCond_lasting (src on unit detail) (s : State) : lasting (setCond src on unit detail s) = lasting s := by simp [setCond]

/-! ### Machine/Sensing -/

@[simp] theorem onConv_lasting (c f) (s : State) : lasting (onConv c f s) = lasting s := by simp [onConv]

@[simp] theorem onSense_lasting (n f) (s : State) : lasting (onSense n f s) = lasting s := by simp [onSense]

@[simp] theorem conversions_lasting (c n) (s : State) : lasting (conversions c n s) = lasting s := by simp [conversions]

@[simp] theorem publishResult_lasting (stream n average) (s : State) : lasting (publishResult stream n average s) = lasting s := by
  simp [publishResult]

@[simp] theorem publish_lasting (n average) (s : State) : lasting (publish n average s) = lasting s := by simp [publish]

@[simp] theorem feedStream_lasting (c raw) (s : State) : lasting (feedStream c raw s) = lasting s := by
  unfold feedStream
  dsimp only
  repeat' split
  all_goals simp

@[simp] theorem repeatSamples_lasting (c n) (s : State) : lasting (repeatSamples c n s) = lasting s := by
  induction n generalizing s with
  | zero => rfl
  | succ n ih => simp [repeatSamples, ih]

@[simp] theorem converterSlot_lasting (c) (s : State) : lasting (converterSlot s c) = lasting s := by simp [converterSlot]

@[simp] theorem monitorSlots_lasting (s : State) : lasting (monitorSlots s) = lasting s := by simp [monitorSlots]

@[simp] theorem takeCheckSlot_lasting (c) (s : State) : lasting (takeCheckSlot c s) = lasting s := by simp [takeCheckSlot]

/-! ### Machine/Samples -/

@[simp] theorem strobe_lasting (s : State) : lasting (strobe s) = lasting s := by simp [strobe]

@[simp] theorem rxQuarters_lasting (s : State) : lasting (rxQuarters s) = lasting s := by simp [rxQuarters]

@[simp] theorem chainQuarters_lasting (s : State) : lasting (chainQuarters s) = lasting s := by simp [chainQuarters]

@[simp] theorem countSaturations_lasting (n) (s : State) : lasting (countSaturations n s) = lasting s := by simp [countSaturations]

@[simp] theorem txQuarters_lasting (s : State) : lasting (txQuarters s) = lasting s := by simp [txQuarters]

@[simp] theorem strobeDue_lasting (s : State) : lasting (strobeDue s) = lasting s := by simp [strobeDue]

@[simp] theorem slotsDue_lasting (s : State) : lasting (slotsDue s) = lasting s := by simp [slotsDue]

@[simp] theorem sampleQuarter_lasting (s : State) : lasting (sampleQuarter s) = lasting s := by simp [sampleQuarter]

@[simp] theorem passQuarter_lasting (s : State) : lasting (passQuarter s) = lasting s := by simp [passQuarter]

@[simp] theorem passQuarters_lasting (n) (s : State) : lasting (passQuarters n s) = lasting s := by
  induction n generalizing s with
  | zero => rfl
  | succ n ih => simp [passQuarters, ih]

/-! ### Machine/Ops -/

@[simp] theorem elapse_lasting (dq) (s : State) : lasting (elapse dq s) = lasting s := by simp [elapse]

@[simp] theorem advanceTo_lasting (t) (s : State) : lasting (advanceTo t s) = lasting s := by simp [advanceTo]

@[simp] theorem advanceMono_lasting (m) (s : State) : lasting (advanceMono m s) = lasting s := by simp [advanceMono]

@[simp] theorem signalVector_lasting (fn v) (s : State) : lasting (signalVector fn v s) = lasting s := by simp [signalVector]

@[simp] theorem countEntry_lasting (fn v now) (s : State) : lasting (countEntry fn v now s) = lasting s := by
  unfold countEntry
  split <;> simp

@[simp] theorem signalNumber_lasting (fn v) (s : State) : lasting (signalNumber fn v s) = lasting s := by
  unfold signalNumber
  split <;> simp

@[simp] theorem onRing_takeSlot_lasting (r) (s : State) :
    lasting (onRing r takeSlot s) = lasting s := lasting_onRing r (f := takeSlot) (fun _ => rfl) s

@[simp] theorem onRing_drainPair_lasting (r) (s : State) : lasting (onRing r drainPair s) = lasting s :=
  lasting_onRing r (fun x => by unfold drainPair; split <;> rfl) s

@[simp] theorem ringErrorEvent_lasting (inst e fn v) (s : State) : lasting (ringErrorEvent inst e fn v s) = lasting s := by simp [ringErrorEvent]

@[simp] theorem ringFail_lasting (r e) (s : State) : lasting (ringFail r e s) = lasting s := by simp [ringFail]

@[simp] theorem takeSlot_owner (x : Ring) : (takeSlot x).owner = x.owner := rfl

@[simp] theorem putMarker_lasting (r hi) (s : State) : lasting (putMarker r hi s) = lasting s := by simp [putMarker]

@[simp] theorem sendIndices_lasting (r) (s : State) : lasting (sendIndices r s) = lasting s := by simp [sendIndices]

@[simp] theorem writeBack_lasting (r) (s : State) : lasting (writeBack r s) = lasting s := by simp [writeBack]

@[simp] theorem writeMarker_lasting (r) (s : State) : lasting (writeMarker r s) = lasting s := by simp [writeMarker]

@[simp] theorem writeCompletion_lasting (iss st seq stamp) (s : State) : lasting (writeCompletion iss st seq stamp s) = lasting s := by
  simp [writeCompletion]

@[simp] theorem leaveFlight_lasting (iss) (s : State) : lasting (leaveFlight iss s) = lasting s :=
  lasting_onRing _ (fun x => by split <;> rfl) s

@[simp] theorem completeAt_lasting (stamp iss r) (s : State) : lasting (completeAt stamp iss r s) = lasting s := by simp [completeAt]

@[simp] theorem refuse_lasting (iss r) (s : State) : lasting (refuse iss r s) = lasting s := by simp [refuse]

@[simp] theorem complete_lasting (iss st) (s : State) : lasting (complete iss st s) = lasting s := by simp [complete]

@[simp] theorem completeOpt_lasting (iss st) (s : State) : lasting (completeOpt iss st s) = lasting s := by
  unfold completeOpt
  split <;> simp

@[simp] theorem completeAll_lasting (l st) (s : State) : lasting (completeAll l st s) = lasting s := by simp [completeAll]

/-! ### Machine/HostCommand -/

@[simp] theorem startCommand_lasting (d) (s : State) : lasting (startCommand d s) = lasting s := by simp [startCommand]

@[simp] theorem holdCommand_lasting (d self) (s : State) : lasting (holdCommand d self s) = lasting s := by simp [holdCommand]

@[simp] theorem hostCommand_lasting {op self d} {body : Issue → State → State} (h : ∀ i t, lasting (body i t) = lasting t) (s : State) :
    lasting (hostCommand op self d body s) = lasting s := by
  unfold hostCommand
  dsimp only
  repeat' split
  all_goals simp [h]

theorem hostCommand_lasts {op self d} {body : Issue → State → State} (s : State) (h : ∀ i t, lasting (body i t) = lasting t) :
    Lasts s (.next (hostCommand op self d body s)) := lasts_next.mpr (hostCommand_lasting h s)

@[simp] theorem bufferError_lasting (iss) (s : State) : lasting (bufferError iss s) = lasting s := by simp [bufferError]

/-! ### Machine/HostInterface -/

@[simp] theorem onFn_lasting (fn f) (s : State) : lasting (onFn fn f s) = lasting s := by simp [onFn]

@[simp] theorem viaBar_lasting {fn} {f : State → State} {s : State} (h : lasting (f s) = lasting s) : lasting (viaBar fn f s) = lasting s := by
  simp [viaBar, h]

theorem viaBar_lasts {fn} {f : State → State} {s : State} (h : lasting (f s) = lasting s) : Lasts s (.next (viaBar fn f s)) :=
  lasts_next.mpr (viaBar_lasting h)

@[simp] theorem dropAccess_lasting (fn) (s : State) : lasting (dropAccess fn s) = lasting s := by simp [dropAccess]

@[simp] theorem dropDoorbell_lasting (fn) (s : State) : lasting (dropDoorbell fn s) = lasting s := by simp [dropDoorbell]

theorem disableRings_owners (whole : Bool) (fn : Fn) (v : Vector Ring 64) :
    (v.map fun x => if x.owner = fn then (if whole then resetPair x else disablePair x) else x).map Ring.owner = v.map Ring.owner := by
  rw [Vector.map_map]
  congr 1
  funext x
  simp only [Function.comp]
  repeat' split
  all_goals rfl

@[simp] theorem disableRings_lasting (whole fn) (s : State) : lasting (disableRings whole fn s) = lasting s := by
  exact congrArg (·, otpOf s.sec) (disableRings_owners whole fn s.hif.rings)

@[simp] theorem endSnapshots_lasting (s : State) : lasting (endSnapshots s) = lasting s := by simp [endSnapshots]

@[simp] theorem losePf0_lasting (fn) (s : State) : lasting (losePf0 fn s) = lasting s := by simp [losePf0]

@[simp] theorem resetFns_lasting (fns) (s : State) : lasting (resetFns fns s) = lasting s := by simp [resetFns]

/-- What PF0 loses with a function-level reset beside its functions' registers and rings. -/
def leavePf0 (s : State) : State :=
  endSnapshots { onHif (fun h => { h with numVFs := 0, vfEnable := false }) s with
    flt := { s.flt with dump := { s.flt.dump with registered := none } } }

@[simp] theorem leavePf0_lasting (s : State) : lasting (leavePf0 s) = lasting s := by simp [leavePf0]

theorem execFlr_pf0 (s : State) : execFlr 0 s = .next (leavePf0 (resetFns (0 :: vfs) s)) := by
  unfold execFlr
  rw [if_pos rfl]
  generalize resetFns (0 :: vfs) s = u
  rfl

theorem execFlr_vf {fn} (h : fn ≠ 0) (s : State) : execFlr fn s = .next (resetFns [fn] s) := if_neg h

@[simp] theorem execFlr_lasting (fn) (s : State) : Lasts s (execFlr fn s) := by
  by_cases h : fn = 0
  · rw [h, execFlr_pf0]
    exact lasts_next.mpr ((leavePf0_lasting _).trans (resetFns_lasting ..))
  · simp [execFlr_vf h]

@[simp] theorem execPerstDeassert_lasting (s : State) : Lasts s (execPerstDeassert s) := by simp [execPerstDeassert]

@[simp] theorem execPcieLinkUp_lasting (rate width) (s : State) : Lasts s (execPcieLinkUp rate width s) := by simp [execPcieLinkUp]

@[simp] theorem execPcieLinkDown_lasting (s : State) : Lasts s (execPcieLinkDown s) := by simp [execPcieLinkDown]

@[simp] theorem execAerError_lasting (fn correctable) (s : State) : Lasts s (execAerError fn correctable s) := by simp [execAerError]

@[simp] theorem execUnsupportedRequest_lasting (fn) (s : State) : Lasts s (execUnsupportedRequest fn s) := by simp [execUnsupportedRequest]

@[simp] theorem execDoeDiscovery_lasting (s : State) : Lasts s (execDoeDiscovery s) := by simp [execDoeDiscovery]

@[simp] theorem setBusMaster_lasting (fn on) (s : State) : lasting (setBusMaster fn on s) = lasting s := by simp [setBusMaster]

@[simp] theorem dropVfs_lasting (s0) (s : State) : lasting (dropVfs s0 s) = lasting s := by simp [dropVfs]

@[simp] theorem sendPending_lasting (fn) (s : State) : lasting (sendPending fn s) = lasting s := by simp [sendPending]

@[simp] theorem setBar_lasting (fn i address) (s : State) : lasting (setBar fn i address s) = lasting s := by simp [setBar]

@[simp] theorem execPcieConfigRequest_lasting (fn change) (s : State) : Lasts s (execPcieConfigRequest fn change s) := by
  simp only [execPcieConfigRequest]
  repeat' split
  all_goals simp

@[simp] theorem execBarAccessDrop_lasting (fn read) (s : State) : Lasts s (execBarAccessDrop fn read s) := by simp [execBarAccessDrop]

@[simp] theorem startMirror_lasting (s : State) : lasting (startMirror s) = lasting s := by
  unfold startMirror
  dsimp only
  repeat' split
  all_goals simp

@[simp] theorem enableRing_lasting (sel) (s : State) : lasting (enableRing sel s) = lasting s := by
  unfold enableRing
  split <;> simp

@[simp] theorem viaRing_lasting {fn sel} {f : State → State} {s : State} (h : lasting (f s) = lasting s) :
    lasting (viaRing fn sel f s) = lasting s := by
  simp [viaRing, h]

@[simp] theorem execRingEnable_lasting (fn sel) (s : State) : Lasts s (execRingEnable fn sel s) := by simp [execRingEnable]

@[simp] theorem execRingDisable_lasting (fn sel) (s : State) : Lasts s (execRingDisable fn sel s) := by
  refine viaBar_lasts ?_
  dsimp only
  repeat' split
  all_goals simp

@[simp] theorem execRingDrained_lasting (ring) (s : State) : Lasts s (execRingDrained ring s) := by
  simp [execRingDrained]

@[simp] theorem execRingReset_lasting (fn sel) (s : State) : Lasts s (execRingReset fn sel s) := by
  refine lasts_next.mpr (viaRing_lasting ?_)
  dsimp only
  repeat' split
  all_goals simp

@[simp] theorem execMsixUnmask_lasting (fn vector) (s : State) : Lasts s (execMsixUnmask fn vector s) := by simp [execMsixUnmask]

@[simp] theorem execVectorTimer_lasting (fn vector) (s : State) : Lasts s (execVectorTimer fn vector s) := by simp [execVectorTimer]

@[simp] theorem takeProducer_lasting (n p) (s : State) : lasting (takeProducer n p s) = lasting s := by simp [takeProducer]

@[simp] theorem takeConsumer_lasting (fn page value) (s : State) : lasting (takeConsumer fn page value s) = lasting s := by
  unfold takeConsumer
  split <;> simp

@[simp] theorem viaPage_lasting {fn page} {f : State → State} {s : State} (h : lasting (f s) = lasting s) :
    lasting (viaPage fn page f s) = lasting s := by
  simp [viaPage, h]

@[simp] theorem execDoorbellProducer_lasting (fn page offset size value) (s : State) :
    Lasts s (execDoorbellProducer fn page offset size value s) := by
  refine lasts_next.mpr (viaPage_lasting ?_)
  repeat' split
  all_goals simp

@[simp] theorem execDoorbellConsumer_lasting (fn page value) (s : State) : Lasts s (execDoorbellConsumer fn page value s) := by
  simp [execDoorbellConsumer]

@[simp] theorem startRestart_lasting (s : State) : lasting (startRestart s) = lasting s := by
  unfold startRestart
  split <;> simp

@[simp] theorem takeCommand_lasting (op d found) (s : State) : lasting (takeCommand op d found s) = lasting s := by
  unfold takeCommand
  dsimp only
  repeat' split
  all_goals simp

@[simp] theorem execDescriptorFetch_lasting (ring fetch) (s : State) : Lasts s (execDescriptorFetch ring fetch s) := by
  unfold execDescriptorFetch
  split <;> simp

@[simp] theorem execCplWriteError_lasting (sel) (s : State) : Lasts s (execCplWriteError sel s) := by
  unfold execCplWriteError
  split <;> simp

@[simp] theorem execNop_lasting (d) (s : State) : Lasts s (execNop d s) := by
  unfold execNop
  split <;> simp

/-! ### Machine/Recorder -/

@[simp] theorem storeRecord_lasting (r) (s : State) : lasting (storeRecord r s) = lasting s := by simp [storeRecord]

@[simp] theorem placeOverflow_lasting (s : State) : lasting (placeOverflow s) = lasting s := by simp [placeOverflow]

@[simp] theorem execRecordPublish_lasting (s : State) : Lasts s (execRecordPublish s) := by
  unfold execRecordPublish
  split <;> simp

@[simp] theorem mirrorWrite_lasting (r) (s : State) : lasting (mirrorWrite r s) = lasting s := by simp [mirrorWrite]

@[simp] theorem execRecordMirror_lasting (s : State) : Lasts s (execRecordMirror s) := by
  unfold execRecordMirror
  split <;> simp

@[simp] theorem addClaim_lasting (cls idx) (s : State) : lasting (addClaim cls idx s) = lasting s := by simp [addClaim]

@[simp] theorem dropClaim_lasting (cls idx) (s : State) : lasting (dropClaim cls idx s) = lasting s := by simp [dropClaim]

@[simp] theorem execCounterCfg_lasting (d) (s : State) : Lasts s (execCounterCfg d s) := by
  refine hostCommand_lasts s fun iss s => ?_
  repeat' split
  all_goals simp

@[simp] theorem execCounterWrap_lasting (counter amount) (s : State) : Lasts s (execCounterWrap counter amount s) := by simp [execCounterWrap]

@[simp] theorem execCounterSnapshot_lasting (d) (s : State) : Lasts s (execCounterSnapshot d s) := by
  refine hostCommand_lasts s fun iss s => ?_
  repeat' split
  all_goals simp

@[simp] theorem captureSnapshot_lasting (snap) (s : State) : lasting (captureSnapshot snap s) = lasting s := by simp [captureSnapshot]

@[simp] theorem execSnapshotCapture_lasting (periodic written) (s : State) : Lasts s (execSnapshotCapture periodic written s) := by
  unfold execSnapshotCapture
  dsimp only
  repeat' split
  all_goals simp

/-! ### Machine/Timebase -/

@[simp] theorem takeEdge_lasting (capture delay cause) (s : State) : lasting (takeEdge capture delay cause s) = lasting s := by
  unfold takeEdge
  dsimp only
  repeat' split
  all_goals simp

/-! ### Machine/SliceBase -/

@[simp] theorem onCanceller_lasting (sl p f) (s : State) : lasting (onCanceller sl p f s) = lasting s := by simp [onCanceller]

@[simp] theorem onChain_lasting (sl p f) (s : State) : lasting (onChain sl p f s) = lasting s := by simp [onChain]

@[simp] theorem onSlice_lasting (sl f) (s : State) : lasting (onSlice sl f s) = lasting s := by simp [onSlice]

@[simp] theorem unsettlePath_lasting (sl p) (s : State) : lasting (unsettlePath sl p s) = lasting s := by simp [unsettlePath]

@[simp] theorem endCaptures_lasting (sl) (s : State) : lasting (endCaptures sl s) = lasting s := by simp [endCaptures]

/-! ### Machine/Outputs -/

@[simp] theorem cxEdges_lasting (old c) (s : State) : lasting (cxEdges old s c) = lasting s := by simp [cxEdges]

@[simp] theorem settlePorts_lasting (s : State) : lasting (settlePorts s) = lasting s := by simp [settlePorts]

@[simp] theorem settleCx_lasting (s : State) : lasting (settleCx s) = lasting s := by simp [settleCx]

@[simp] theorem settleFems_lasting (s0) (s : State) : lasting (settleFems s0 s) = lasting s := by simp [settleFems]

@[simp] theorem settle_lasting (s : State) : lasting (settle s) = lasting s := by simp [settle]

/-! ### Machine/ProtectBase -/

@[simp] theorem onSliceProt_lasting (sl f) (s : State) : lasting (onSliceProt sl f s) = lasting s := by simp [onSliceProt]

@[simp] theorem onPortProt_lasting (m f) (s : State) : lasting (onPortProt m f s) = lasting s := by simp [onPortProt]

@[simp] theorem onPathProt_lasting (sl p f) (s : State) : lasting (onPathProt sl p f s) = lasting s := by simp [onPathProt]

@[simp] theorem protRecord_lasting (cause action path tgt value) (s : State) : lasting (protRecord cause action path tgt value s) = lasting s := by
  simp [protRecord]

@[simp] theorem setTrimValue_lasting {sl p k value present fresh} {src : State → State} (h : ∀ t, lasting (src t) = lasting t) (s : State) :
    lasting (setTrimValue sl p k value present fresh src s) = lasting s := by
  simp [setTrimValue, h]

@[simp] theorem lowerTrim_lasting (sl p k) (s : State) : lasting (lowerTrim sl p k s) = lasting s := by simp [lowerTrim]

@[simp] theorem dropTrim_lasting (sl p k) (s : State) : lasting (dropTrim sl p k s) = lasting s := by simp [dropTrim]

@[simp] theorem muteSlice_lasting (inj sl k value) (s : State) : lasting (muteSlice inj sl k value s) = lasting s := by
  unfold muteSlice
  dsimp only
  repeat' split
  all_goals simp

@[simp] theorem unmuteSlice_lasting (sl k) (s : State) : lasting (unmuteSlice sl k s) = lasting s := by simp [unmuteSlice]

@[simp] theorem mutePort_lasting (inj m k fromLoad value) (s : State) : lasting (mutePort inj m k fromLoad value s) = lasting s := by
  unfold mutePort
  split <;> simp

@[simp] theorem unmutePort_lasting (m k) (s : State) : lasting (unmutePort m k s) = lasting s := by simp [unmutePort]

@[simp] theorem setHalt_lasting (k) (s : State) : lasting (setHalt k s) = lasting s := by simp [setHalt]

@[simp] theorem clearHalt_lasting (k) (s : State) : lasting (clearHalt k s) = lasting s := by simp [clearHalt]

/-! ### Machine/PlaceBase -/

@[simp] theorem clearWritten_lasting (c) (s : State) : lasting (clearWritten c s) = lasting s := by simp [clearWritten]

@[simp] theorem bumpGen_lasting (s : State) : lasting (bumpGen s) = lasting s := by simp [bumpGen]

@[simp] theorem addBuffer_lasting (k c) (s : State) : lasting (addBuffer k c s) = lasting s := by simp [addBuffer]

theorem allocBuffer_lasting {k bytes} {s t : State} (h : allocBuffer k bytes s = some t) : lasting t = lasting s := by
  obtain ⟨c, -, rfl⟩ := Option.map_eq_some_iff.mp h
  exact addBuffer_lasting ..

@[simp] theorem freeBuffers_lasting (f) (s : State) : lasting (freeBuffers f s) = lasting s := by simp [freeBuffers]

theorem reserveHost_lasting {sl h far} {s t : State} (ht : reserveHost sl h far s = some t) : lasting t = lasting s := by
  have buffers (l : List (PathId × Nat)) (o : Option State) (ho : ∀ u, o = some u → lasting u = lasting s) :
      ∀ t, l.foldl (fun o x => o.bind (allocBuffer (lineKey sl x.1 true) (4 * x.2))) o = some t → lasting t = lasting s := by
    induction l generalizing o with
    | nil => exact ho
    | cons x l ih =>
      refine ih _ fun u hu => ?_
      obtain ⟨v, hv, hu⟩ := Option.bind_eq_some_iff.mp hu
      exact (allocBuffer_lasting hu).trans (ho v hv)
  exact buffers far _ (by simp) t ht

theorem reserve_lasting {sl d} {s t : State} (h : reserve sl d s = some t) : lasting t = lasting s := by
  obtain ⟨x, -, ht⟩ := Option.bind_eq_some_iff.mp h
  exact reserveHost_lasting ht

theorem reserveChange_lasting {sl old new} {s t : State} (h : reserveChange sl old new s = some t) : lasting t = lasting s := by
  unfold reserveChange at h
  split at h
  · rw [Option.some.inj h]
  · split at h
    · rw [Option.some.inj h]
    · obtain ⟨x, -, ht⟩ := Option.bind_eq_some_iff.mp h
      exact reserveHost_lasting ht

@[simp] theorem unreserve_lasting (sl) (s : State) : lasting (unreserve sl s) = lasting s := by simp [unreserve]

@[simp] theorem placeLine_lasting (sl p) (s : State) : lasting (placeLine sl p s) = lasting s := by
  unfold placeLine
  split <;> simp

@[simp] theorem takeReservation_lasting (sl) (s : State) : lasting (takeReservation sl s) = lasting s := by simp [takeReservation]

@[simp] theorem freePlaced_lasting (sl) (s : State) : lasting (freePlaced sl s) = lasting s := by simp [freePlaced]

@[simp] theorem moveRecord_lasting (ev m) (s : State) : lasting (moveRecord ev m s) = lasting s := by simp [moveRecord]

@[simp] theorem unitRecord_lasting (st unit) (s : State) : lasting (unitRecord st unit s) = lasting s := by simp [unitRecord]

@[simp] theorem dropMoves_lasting (sl) (s : State) : lasting (dropMoves sl s) = lasting s := by simp [dropMoves]

@[simp] theorem abandonMoves_lasting (sl) (s : State) : lasting (abandonMoves sl s) = lasting s := by simp [abandonMoves]

@[simp] theorem setEngine_lasting (e st) (s : State) : lasting (setEngine e st s) = lasting s := by simp [setEngine]

@[simp] theorem setBank_lasting (b st) (s : State) : lasting (setBank b st s) = lasting s := by simp [setBank]

@[simp] theorem shadowSample_lasting (sl poisoned) (s : State) : lasting (shadowSample sl poisoned s) = lasting s := by simp [shadowSample]

/-! ### Machine/UnitTests -/

@[simp] theorem checkFlash_lasting (s : State) : lasting (checkFlash s) = lasting s := by simp [checkFlash]

@[simp] theorem queueFlash_lasting (i) (s : State) : lasting (queueFlash i s) = lasting s := by simp [queueFlash]

@[simp] theorem retireUnit_lasting (c i source) (s : State) : lasting (retireUnit c i source s) = lasting s := by simp [retireUnit]

@[simp] theorem askTest_lasting (k i source injectedOnly hosts) (s : State) : lasting (askTest k i source injectedOnly hosts s) = lasting s := by
  unfold askTest
  split <;> simp

@[simp] theorem endTest_lasting {k i pass} {note : State → State} (h : ∀ t, lasting (note t) = lasting t) (s : State) :
    lasting (endTest k i pass note s) = lasting s := by
  unfold endTest
  split <;> simp [h]

/-! ### Machine/SliceOps -/

@[simp] theorem fillPending_lasting (sl params act moving iss) (s : State) : lasting (fillPending sl params act moving iss s) = lasting s := by
  simp [fillPending]

@[simp] theorem pendingLive_lasting (sl) (s : State) : lasting (pendingLive sl s) = lasting s := by
  unfold pendingLive
  dsimp only
  repeat' split
  all_goals simp

@[simp] theorem scheduleRestart_lasting (sl params iss after keepShed) (s : State) :
    lasting (scheduleRestart sl params iss after keepShed s) = lasting s := by simp [scheduleRestart]

@[simp] theorem startCancellers_lasting (sl x) (s : State) : lasting (startCancellers sl x s) = lasting s := by simp [startCancellers]

@[simp] theorem startTiming_lasting (sl d) (s : State) : lasting (startTiming sl d s) = lasting s := by simp [startTiming]

@[simp] theorem leaveShed_lasting (sl) (s : State) : lasting (leaveShed sl s) = lasting s := by simp [leaveShed]

@[simp] theorem countStreams_lasting (s : State) : lasting (countStreams s) = lasting s := by simp [countStreams]

@[simp] theorem startDefinition_lasting (sl params) (s : State) : lasting (startDefinition sl params s) = lasting s := by simp [startDefinition]

@[simp] theorem restartStart_lasting (sl) (s : State) : lasting (restartStart sl s) = lasting s := by
  unfold restartStart
  dsimp only
  repeat' split
  all_goals simp

@[simp] theorem restartDone_lasting (sl) (s : State) : lasting (restartDone sl s) = lasting s := by
  unfold restartDone
  dsimp only
  repeat' split
  all_goals simp

@[simp] theorem restartPresent_lasting (keepShed sl) (s : State) : lasting (restartPresent keepShed sl s) = lasting s := by
  unfold restartPresent
  split <;> simp

@[simp] theorem stopSlice_lasting (sl) (s : State) : lasting (stopSlice sl s) = lasting s := by simp [stopSlice]

@[simp] theorem stopForCapacity_lasting (sl) (s : State) : lasting (stopForCapacity sl s) = lasting s := by simp [stopForCapacity]

@[simp] theorem beginDelete_lasting (sl iss) (s : State) : lasting (beginDelete sl iss s) = lasting s := by simp [beginDelete]

@[simp] theorem emptySlice_lasting (sl) (s : State) : lasting (emptySlice sl s) = lasting s := by simp [emptySlice]

/-! ### Machine/Thermal -/

@[simp] theorem onSensor_lasting (i f) (s : State) : lasting (onSensor i f s) = lasting s := by simp [onSensor]

@[simp] theorem onZone_lasting (z f) (s : State) : lasting (onZone z f s) = lasting s := by simp [onZone]

@[simp] theorem enterOvercast_lasting (z) (s : State) : lasting (enterOvercast z s) = lasting s := by simp [enterOvercast]

@[simp] theorem failSensor_lasting (i) (s : State) : lasting (failSensor i s) = lasting s := by simp [failSensor]

@[simp] theorem judgeSensor_lasting (bad i) (s : State) : lasting (judgeSensor bad s i) = lasting s := by simp [judgeSensor]

@[simp] theorem retimeSpread_lasting (s : State) : lasting (retimeSpread s) = lasting s := by simp [retimeSpread]

@[simp] theorem enterThaw_lasting (s : State) : lasting (enterThaw s) = lasting s := by
  unfold enterThaw
  split <;> simp

@[simp] theorem declareCold_lasting (z) (s : State) : lasting (declareCold z s) = lasting s := by simp [declareCold]

@[simp] theorem checkCold_lasting (z) (s : State) : lasting (checkCold s z) = lasting s := by simp [checkCold]

@[simp] theorem bootZone_lasting (z) (s : State) : lasting (bootZone s z) = lasting s := by
  unfold bootZone
  split <;> simp

@[simp] theorem retimeTile_lasting (t) (s : State) : lasting (retimeTile s t) = lasting s := by simp [retimeTile]

@[simp] theorem sampleZone_lasting (z) (s : State) : lasting (sampleZone s z) = lasting s := by simp [sampleZone]

@[simp] theorem execThermalSample_lasting (samples bad) (s : State) : Lasts s (execThermalSample samples bad s) := by simp [execThermalSample]

@[simp] theorem declareThreshold_lasting (z k) (s : State) : lasting (declareThreshold z k s) = lasting s := by
  unfold declareThreshold
  split <;> simp

@[simp] theorem execThresholdDeclared_lasting (zone threshold) (s : State) : Lasts s (execThresholdDeclared zone threshold s) := by
  unfold execThresholdDeclared
  dsimp only
  repeat' split
  all_goals simp

@[simp] theorem execThresholdCleared_lasting (zone threshold) (s : State) : Lasts s (execThresholdCleared zone threshold s) := by
  unfold execThresholdCleared
  dsimp only
  repeat' split
  all_goals simp

@[simp] theorem execThawEnd_lasting (s : State) : Lasts s (execThawEnd s) := by
  unfold execThawEnd
  split <;> simp

@[simp] theorem shedOne_lasting (s : State) : lasting (shedOne s) = lasting s := by
  unfold shedOne
  dsimp only
  repeat' split
  all_goals simp

@[simp] theorem overcastAdvance_lasting (s : State) : lasting (overcastAdvance s) = lasting s := by simp [overcastAdvance]

@[simp] theorem overcastRetreat_lasting (s : State) : lasting (overcastRetreat s) = lasting s := by
  unfold overcastRetreat
  split <;> simp

@[simp] theorem execOvercastStep_lasting (s : State) : Lasts s (execOvercastStep s) := by simp [execOvercastStep]

@[simp] theorem enterCritical_lasting (zone) (s : State) : lasting (enterCritical zone s) = lasting s := by simp [enterCritical]

@[simp] theorem execCriticalDeclared_lasting (zone) (s : State) : Lasts s (execCriticalDeclared zone s) := by simp [execCriticalDeclared]

@[simp] theorem execThermalHaltEnd_lasting (s : State) : Lasts s (execThermalHaltEnd s) := by
  unfold execThermalHaltEnd
  split <;> simp

@[simp] theorem execLedgerSecond_lasting (s : State) : Lasts s (execLedgerSecond s) := by
  unfold execLedgerSecond
  dsimp only
  repeat' split
  all_goals simp

@[simp] theorem execLedgerPersist_lasting (s : State) : Lasts s (execLedgerPersist s) := by simp [execLedgerPersist]

/-! ### Machine/RadioBase -/

@[simp] theorem onTile_lasting (t f) (s : State) : lasting (onTile t f s) = lasting s := by simp [onTile]

@[simp] theorem onRx_lasting (p f) (s : State) : lasting (onRx p f s) = lasting s := by simp [onRx]

@[simp] theorem onTx_lasting (p f) (s : State) : lasting (onTx p f s) = lasting s := by simp [onTx]

@[simp] theorem onRadio_lasting (u f) (s : State) : lasting (onRadio u f s) = lasting s := by
  unfold onRadio
  split <;> simp

@[simp] theorem dropIssue_lasting (u) (s : State) : lasting (dropIssue u s) = lasting s := by simp [dropIssue]

@[simp] theorem endRequest_lasting (u st) (s : State) : lasting (endRequest u st s) = lasting s := by
  unfold endRequest
  split <;> simp

@[simp] theorem finishRequests_lasting (u) (s : State) : lasting (finishRequests u s) = lasting s := by simp [finishRequests]

@[simp] theorem finishTile_lasting (t) (s : State) : lasting (finishTile t s) = lasting s := by simp [finishTile]

@[simp] theorem onFem_lasting (n f) (s : State) : lasting (onFem n f s) = lasting s := by simp [onFem]

@[simp] theorem runList_lasting (trigger n) (s : State) : lasting (runList trigger n s) = lasting s := by simp [runList]

@[simp] theorem runLists_lasting (trigger m) (s : State) : lasting (runLists trigger m s) = lasting s := by simp [runLists]

@[simp] theorem enterState_lasting (u new) (s : State) : lasting (enterState u new s) = lasting s := by
  unfold enterState
  dsimp only
  repeat' split
  all_goals simp

@[simp] theorem onSynth_lasting (t i f) (s : State) : lasting (onSynth t i f s) = lasting s := by simp [onSynth]

@[simp] theorem startPrep_lasting (t handover issue instant again) (s : State) :
    lasting (startPrep t handover issue instant again s) = lasting s := by simp [startPrep]

@[simp] theorem abandonRecord_lasting (t) (s : State) : lasting (abandonRecord t s) = lasting s := by simp [abandonRecord]

@[simp] theorem abandonPrep_lasting (t) (s : State) : lasting (abandonPrep t s) = lasting s := by
  unfold abandonPrep
  split <;> simp

@[simp] theorem abandonStandby_lasting (t) (s : State) : lasting (abandonStandby t s) = lasting s := by
  unfold abandonStandby
  split <;> simp

@[simp] theorem leaveSynthOn_lasting (t new) (s : State) : lasting (leaveSynthOn t new s) = lasting s := by simp [leaveSynthOn]

@[simp] theorem alignQueues_lasting (t) (s : State) : lasting (alignQueues t s) = lasting s := by simp [alignQueues]

@[simp] theorem enterSynthOn_lasting (t i stored) (s : State) : lasting (enterSynthOn t i stored s) = lasting s := by simp [enterSynthOn]

/-! ### Machine/Radio -/

@[simp] theorem retarget_lasting (u target) (s : State) : lasting (retarget u target s) = lasting s := by simp [retarget]

@[simp] theorem request_lasting (u code fullCal iss) (s : State) : lasting (request u code fullCal iss s) = lasting s := by
  unfold request
  dsimp only
  repeat' split
  all_goals simp

@[simp] theorem execRadioState_lasting (d) (s : State) : Lasts s (execRadioState d s) := by
  refine hostCommand_lasts s fun iss s => ?_
  repeat' split
  all_goals simp

@[simp] theorem startUp_lasting (e) (s : State) : lasting (startUp e s) = lasting s := by
  unfold startUp
  dsimp only
  repeat' split
  all_goals simp

@[simp] theorem calm_lasting (s : State) : lasting (calm s) = lasting s := by simp [calm]

@[simp] theorem passState_lasting (u) (s : State) : lasting (passState u s) = lasting s := by
  unfold passState
  split <;> simp

@[simp] theorem portRests_lasting (u) (s : State) : lasting (portRests u s) = lasting s := by
  unfold portRests
  split <;> simp

@[simp] theorem portDone_lasting (u) (s : State) : lasting (portDone u s) = lasting s := by
  unfold portDone
  split <;> simp

@[simp] theorem passPort_lasting (u) (s : State) : lasting (passPort s u) = lasting s := by
  unfold passPort
  split <;> simp

@[simp] theorem passTile_lasting (t) (s : State) : lasting (passTile s t) = lasting s := by simp [passTile]

@[simp] theorem passStates_lasting (s : State) : lasting (passStates s) = lasting s := by simp [passStates]

@[simp] theorem tileDone_lasting (t) (s : State) : lasting (tileDone t s) = lasting s := by simp [tileDone]

@[simp] theorem execRadioTransitionDone_lasting (unit) (s : State) : Lasts s (execRadioTransitionDone unit s) := by
  unfold execRadioTransitionDone
  split <;> simp

@[simp] theorem unlockRequest_lasting (target u) (s : State) : lasting (unlockRequest target u s) = lasting s := by simp [unlockRequest]

@[simp] theorem dropFloor_lasting (t) (s : State) : lasting (dropFloor t s) = lasting s := by simp [dropFloor]

@[simp] theorem execTileLockFail_lasting (tile) (s : State) : Lasts s (execTileLockFail tile s) := by simp [execTileLockFail]

@[simp] theorem execLockTimeout_lasting (unit) (s : State) : Lasts s (execLockTimeout unit s) := by
  unfold execLockTimeout
  split <;> simp

@[simp] theorem unclock_lasting (again u) (s : State) : lasting (unclock again u s) = lasting s := by
  unfold unclock
  split <;> simp

@[simp] theorem execSynthLockLost_lasting (tile) (s : State) : Lasts s (execSynthLockLost tile s) := by simp [execSynthLockLost]

@[simp] theorem execTileRelock_lasting (tile) (s : State) : Lasts s (execTileRelock tile s) := by simp [execTileRelock]

@[simp] theorem portSleep_lasting (u) (s : State) : lasting (portSleep u s) = lasting s := by simp [portSleep]

@[simp] theorem tileSleep_lasting (t) (s : State) : lasting (tileSleep t s) = lasting s := by simp [tileSleep]

@[simp] theorem clearTile_lasting (t) (s : State) : lasting (clearTile t s) = lasting s := by simp [clearTile]

@[simp] theorem resetTile_lasting (t) (s : State) : lasting (resetTile t s) = lasting s := by simp [resetTile]

@[simp] theorem execTileReset_lasting (tile key) (s : State) : Lasts s (execTileReset tile key s) := by simp [execTileReset]

@[simp] theorem execSpareRotation_lasting (port next converged) (s : State) : Lasts s (execSpareRotation port next converged s) := by
  simp [execSpareRotation]

@[simp] theorem execCorrectionTimeout_lasting (port) (s : State) : Lasts s (execCorrectionTimeout port s) := by simp [execCorrectionTimeout]

@[simp] theorem execRxOverrange_lasting (port) (s : State) : Lasts s (execRxOverrange port s) := by simp [execRxOverrange]

@[simp] theorem execLoadFault_lasting (port) (s : State) : Lasts s (execLoadFault port s) := by
  unfold execLoadFault
  dsimp only
  repeat' split
  all_goals simp

@[simp] theorem stopRetired_lasting (s : State) : lasting (stopRetired s) = lasting s := by
  refine foldl_lasting (fun s a => ?_) _ s
  repeat' split
  all_goals simp

@[simp] theorem retirePort_lasting (u source) (s : State) : lasting (retirePort u source s) = lasting s := by
  unfold retirePort
  split <;> simp

@[simp] theorem portTested_lasting (u failures replay) (s : State) : lasting (portTested u failures replay s) = lasting s := by
  unfold portTested
  dsimp only
  repeat' split
  all_goals simp

@[simp] theorem execPortSelftestDone_lasting (unit failures replay) (s : State) : Lasts s (execPortSelftestDone unit failures replay s) := by
  simp [execPortSelftestDone]

@[simp] theorem execQueueAlignmentError_lasting (port tx occupancy) (s : State) : Lasts s (execQueueAlignmentError port tx occupancy s) := by
  simp [execQueueAlignmentError]

/-! ### Machine/FrontEnd -/

@[simp] theorem judgeFault_lasting (fem) (s : State) : lasting (judgeFault fem s) = lasting s := by simp [judgeFault]

@[simp] theorem execFemFaultInput_lasting (fem t c) (s : State) : Lasts s (execFemFaultInput fem t c s) := by simp [execFemFaultInput]

@[simp] theorem execStrobeShort_lasting (fem strobe high) (s : State) : Lasts s (execStrobeShort fem strobe high s) := by simp [execStrobeShort]

@[simp] theorem execRffeShort_lasting (fem) (s : State) : Lasts s (execRffeShort fem s) := by simp [execRffeShort]

@[simp] theorem execRffeBusRetest_lasting (fem agrees) (s : State) : Lasts s (execRffeBusRetest fem agrees s) := by simp [execRffeBusRetest]

@[simp] theorem pollSlave_lasting (n failed u) (s : State) : lasting (pollSlave n failed s u) = lasting s := by simp [pollSlave]

@[simp] theorem execPresencePoll_lasting (fem failed) (s : State) : Lasts s (execPresencePoll fem failed s) := by simp [execPresencePoll]

@[simp] theorem noteBias_lasting (fem c) (s : State) : lasting (noteBias fem c s) = lasting s := by simp [noteBias]

@[simp] theorem execRffeCommandDone_lasting (fem data parityOk) (s : State) : Lasts s (execRffeCommandDone fem data parityOk s) := by
  unfold execRffeCommandDone
  dsimp only
  repeat' split
  all_goals simp

@[simp] theorem execRffeQueueTimeout_lasting (fem) (s : State) : Lasts s (execRffeQueueTimeout fem s) := by
  unfold execRffeQueueTimeout
  split <;> simp

@[simp] theorem execRffeMailboxGo_lasting (fem value) (s : State) : Lasts s (execRffeMailboxGo fem value s) := by simp [execRffeMailboxGo]

@[simp] theorem execManualStrobeWrite_lasting (fem level) (s : State) : Lasts s (execManualStrobeWrite fem level s) := by simp [execManualStrobeWrite]

@[simp] theorem onCx_lasting (c f) (s : State) : lasting (onCx c f s) = lasting s := by simp [onCx]

@[simp] theorem execGrantChange_lasting (pair level) (s : State) : Lasts s (execGrantChange pair level s) := by simp [execGrantChange]

@[simp] theorem execGrantTimeout_lasting (pair) (s : State) : Lasts s (execGrantTimeout pair s) := by
  unfold execGrantTimeout
  dsimp only
  repeat' split
  all_goals simp

@[simp] theorem execCoexRequestChange_lasting (pair level) (s : State) : Lasts s (execCoexRequestChange pair level s) := by
  simp [execCoexRequestChange]

@[simp] theorem onBlank_lasting (b f) (s : State) : lasting (onBlank b f s) = lasting s := by simp [onBlank]

@[simp] theorem execBlankAssert_lasting (blank) (s : State) : Lasts s (execBlankAssert blank s) := by simp [execBlankAssert]

@[simp] theorem execBlankRelease_lasting (blank) (s : State) : Lasts s (execBlankRelease blank s) := by simp [execBlankRelease]

@[simp] theorem execBlankStuck_lasting (blank) (s : State) : Lasts s (execBlankStuck blank s) := by
  unfold execBlankStuck
  dsimp only
  repeat' split
  all_goals simp

/-! ### Machine/Monitor -/

@[simp] theorem startPass_lasting (c) (s : State) : lasting (startPass c s) = lasting s := by
  unfold startPass
  dsimp only
  repeat' split
  all_goals simp

@[simp] theorem resumeConv_lasting (c) (s : State) : lasting (resumeConv c s) = lasting s := by simp [resumeConv]

@[simp] theorem discardTrigger_lasting (c) (s : State) : lasting (discardTrigger c s) = lasting s := by simp [discardTrigger]

@[simp] theorem execPassTrigger_lasting (conv) (s : State) : Lasts s (execPassTrigger conv s) := by simp [execPassTrigger]

@[simp] theorem execPassComplete_lasting (conv averages) (s : State) : Lasts s (execPassComplete conv averages s) := by simp [execPassComplete]

@[simp] theorem execRefReady_lasting (conv) (s : State) : Lasts s (execRefReady conv s) := by simp [execRefReady]

@[simp] theorem execMonInject_lasting (d) (s : State) : Lasts s (execMonInject d s) := by
  refine hostCommand_lasts s fun iss s => ?_
  repeat' split
  all_goals simp

@[simp] theorem autoInject_lasting (n) (s : State) : lasting (autoInject n s) = lasting s := by simp [autoInject]

@[simp] theorem finishInjection_lasting (c i stamp average) (s : State) : lasting (finishInjection c i stamp average s) = lasting s := by
  unfold finishInjection
  split <;> simp

@[simp] theorem execInjectionComplete_lasting (conv timeout stamp average) (s : State) :
    Lasts s (execInjectionComplete conv timeout stamp average s) := by
  unfold execInjectionComplete
  dsimp only
  repeat' split
  all_goals simp

@[simp] theorem execMonCal_lasting (d) (s : State) : Lasts s (execMonCal d s) := by
  refine hostCommand_lasts s fun iss s => ?_
  repeat' split
  all_goals simp

@[simp] theorem execCalMeasurementDone_lasting (conv average) (s : State) : Lasts s (execCalMeasurementDone conv average s) := by
  unfold execCalMeasurementDone
  dsimp only
  repeat' split
  all_goals simp

@[simp] theorem onCmp_lasting (n f) (s : State) : lasting (onCmp n f s) = lasting s := by simp [onCmp]

@[simp] theorem execComparatorTrip_lasting (input high) (s : State) : Lasts s (execComparatorTrip input high s) := by simp [execComparatorTrip]

@[simp] theorem execComparatorRelease_lasting (input) (s : State) : Lasts s (execComparatorRelease input s) := by simp [execComparatorRelease]

@[simp] theorem execOpenCheck_lasting (conv input difference) (s : State) : Lasts s (execOpenCheck conv input difference s) := by simp [execOpenCheck]

@[simp] theorem execReferenceCheck_lasting (conv code) (s : State) : Lasts s (execReferenceCheck conv code s) := by simp [execReferenceCheck]

@[simp] theorem endCal_lasting (c) (s : State) : lasting (endCal c s) = lasting s := by
  unfold endCal
  split <;> simp

@[simp] theorem execMadcSelftestDone_lasting (conv pass) (s : State) : Lasts s (execMadcSelftestDone conv pass s) := by
  unfold execMadcSelftestDone
  split <;> simp

@[simp] theorem installEntry_lasting (c cfg iss) (s : State) : lasting (installEntry c cfg iss s) = lasting s := by
  unfold installEntry
  dsimp only
  repeat' split
  all_goals simp

@[simp] theorem execMonSeqSet_lasting (d) (s : State) : Lasts s (execMonSeqSet d s) := by
  simp only [execMonSeqSet]
  repeat' split
  all_goals simp

/-! ### Machine/LinkBase -/

@[simp] theorem onLane_lasting (l f) (s : State) : lasting (onLane l f s) = lasting s := by simp [onLane]

@[simp] theorem onLink_lasting (g f) (s : State) : lasting (onLink g f s) = lasting s := by simp [onLink]

@[simp] theorem dropLanes_lasting (s : State) : lasting (dropLanes s) = lasting s := by simp [dropLanes]

@[simp] theorem placeFeed_lasting (f) (s : State) : lasting (placeFeed s f) = lasting s := by
  unfold placeFeed
  split <;> simp

@[simp] theorem placeOver_lasting (f n) (s : State) : lasting (placeOver f n s) = lasting s := by
  induction n generalizing s with
  | zero => rfl
  | succ n ih =>
    unfold placeOver
    dsimp only
    repeat' split
    all_goals simp [ih]

@[simp] theorem placeFeeds_lasting (s : State) : lasting (placeFeeds s) = lasting s := by simp [placeFeeds]

/-! ### Machine/SampleMemory -/

@[simp] theorem countLine_lasting (event pages line) (s : State) : lasting (countLine event pages line s) = lasting s := by
  unfold countLine
  split <;> simp

@[simp] theorem readLine_lasting (k line) (s : State) : lasting (readLine k line s) = lasting s := by
  unfold readLine
  split <;> simp

@[simp] theorem writeLine_lasting (k line) (s : State) : lasting (writeLine k line s) = lasting s := by
  unfold writeLine
  split <;> simp

@[simp] theorem writeRing_lasting (k first n) (s : State) : lasting (writeRing k first n s) = lasting s := by simp [writeRing]

@[simp] theorem loseContainer_lasting (k pos) (s : State) : lasting (loseContainer k pos s) = lasting s := by
  unfold loseContainer
  dsimp only
  repeat' split
  all_goals simp

@[simp] theorem loseWord_lasting (k w bytes) (s : State) : lasting (loseWord k w bytes s) = lasting s := by simp [loseWord]

@[simp] theorem copyPage_lasting (k i src dst) (s : State) : lasting (copyPage k i src dst s) = lasting s := by
  unfold copyPage
  split
  · rfl
  · refine (foldl_lasting (fun s f => ?_) _ _).trans ?_
    · split <;> simp
    · simp

/-! ### Machine/Weathervane -/

@[simp] theorem settleWaits_lasting (s : State) : lasting (settleWaits s) = lasting s := by simp [settleWaits]

@[simp] theorem settleEngine_lasting (e) (s : State) : lasting (settleEngine s e) = lasting s := by simp [settleEngine]

@[simp] theorem settleBank_lasting (b) (s : State) : lasting (settleBank s b) = lasting s := by simp [settleBank]

@[simp] theorem settleUnits_lasting (s : State) : lasting (settleUnits s) = lasting s := by simp [settleUnits]

@[simp] theorem makeRoomIn_lasting (sl fits l) (s : State) : lasting (makeRoomIn sl fits l s) = lasting s := by
  induction l generalizing s with
  | nil => simp [makeRoomIn]
  | cons x l ih => simp [makeRoomIn, ih]

@[simp] theorem makeRoom_lasting (sl fits src unit) (s : State) : lasting (makeRoom sl fits src unit s) = lasting s := by simp [makeRoom]

@[simp] theorem restoreSlice_lasting (s : State) (sl) : lasting (restoreSlice s sl) = lasting s := by
  unfold restoreSlice
  split
  · rfl
  · split
    · rfl
    · rename_i h
      simp [reserve_lasting h]

@[simp] theorem restoreStopped_lasting (s : State) : lasting (restoreStopped s) = lasting s := by simp [restoreStopped]

@[simp] theorem relocate_lasting (unit sl) (s : State) : lasting (relocate unit sl s) = lasting s := by
  unfold relocate
  split
  · rfl
  · extract_lets u v
    have made : lasting v = lasting s := by
      simp only [v]
      split <;> simp [u]
    split
    · exact made
    · split
      · rename_i h
        simp [reserve_lasting h, made]
      · exact made

@[simp] theorem askMove_lasting (r) (s : State) : lasting (askMove r s) = lasting s := by simp [askMove]

@[simp] theorem askCostMoves_lasting (sl) (s : State) : lasting (askCostMoves sl s).1 = lasting s := by
  unfold askCostMoves
  dsimp only
  repeat' split
  all_goals simp

@[simp] theorem dropReq_lasting (r) (s : State) : lasting (dropReq r s) = lasting s := by simp [dropReq]

@[simp] theorem startMove_lasting (r src dst) (s : State) : lasting (startMove r src dst s) = lasting s := by
  unfold startMove
  split <;> simp

@[simp] theorem moveStart_lasting (s : State) : lasting (moveStart s) = lasting s := by
  unfold moveStart
  repeat' split
  all_goals simp [*]

@[simp] theorem clearMove_lasting (i) (s : State) : lasting (clearMove i s) = lasting s := by simp [clearMove]

@[simp] theorem abandonMove_lasting (i m) (s : State) : lasting (abandonMove i m s) = lasting s := by simp [abandonMove]

@[simp] theorem cutOver_lasting (i m) (s : State) : lasting (cutOver i m s) = lasting s := by simp [cutOver]

@[simp] theorem causeAbandon_lasting (i m) (s : State) : lasting (causeAbandon i m s) = lasting s := by simp [causeAbandon]

@[simp] theorem execShadowStart_lasting (slot) (s : State) : Lasts s (execShadowStart slot s) := by
  unfold execShadowStart
  split <;> simp

@[simp] theorem execMoveCutover_lasting (slot) (s : State) : Lasts s (execMoveCutover slot s) := by
  unfold execMoveCutover
  split <;> simp

@[simp] theorem execMoveAbandon_lasting (slot matched) (s : State) : Lasts s (execMoveAbandon slot matched s) := by
  unfold execMoveAbandon
  split <;> simp

@[simp] theorem abandonShadow_lasting (sl) (s : State) : lasting (abandonShadow sl s) = lasting s := by
  refine foldl_lasting (fun s a => ?_) _ s
  repeat' split
  all_goals simp

@[simp] theorem commitAbandon_lasting (sl) (s : State) : lasting (commitAbandon sl s) = lasting s := by
  refine foldl_lasting (fun s a => ?_) _ s
  repeat' split
  all_goals simp

@[simp] theorem remakeReservation_lasting (e) (s : State) (sl) : lasting (remakeReservation e s sl) = lasting s := by
  unfold remakeReservation
  extract_lets x u
  split
  · rfl
  · split
    · split
      · rename_i h
        simp [reserve_lasting h, u]
      · simp [u]
    · split
      · rename_i h
        simp [reserveChange_lasting h, u]
      · simp [u]
    · simp [u]

@[simp] theorem redirectMoves_lasting (e) (s : State) : lasting (redirectMoves e s) = lasting s := by
  refine foldl_lasting (fun s a => ?_) _ s
  repeat' split
  all_goals simp

@[simp] theorem evacuateEngine_lasting (e source injectedOnly hosts) (s : State) :
    lasting (evacuateEngine e source injectedOnly hosts s) = lasting s := by simp [evacuateEngine]

theorem copyOff_lasting {b x pins} {s t : State} (h : copyOff b x pins s = some t) : lasting t = lasting s := by
  obtain ⟨c, -, rfl⟩ := Option.map_eq_some_iff.mp h
  simp

@[simp] theorem evacuateBuffer_lasting (b) (s : State) (x) : lasting (evacuateBuffer b s x) = lasting s := by
  refine (getD_lasting fun t h => copyOff_lasting h).trans ?_
  simp

@[simp] theorem evacuateStaged_lasting (b) (s : State) : lasting (evacuateStaged b s) = lasting s := by
  simp only [evacuateStaged]
  repeat' split
  all_goals simp

@[simp] theorem emptyBank_lasting (b) (s : State) : lasting (emptyBank b s) = lasting s := by simp [emptyBank]

@[simp] theorem leaveBanks_lasting (s : State) : lasting (leaveBanks s) = lasting s := by simp [leaveBanks]

@[simp] theorem evacuateBank_lasting (b source injectedOnly hosts) (s : State) :
    lasting (evacuateBank b source injectedOnly hosts s) = lasting s := by simp [evacuateBank]

@[simp] theorem execBufferCopyDone_lasting (slice path delay feed) (s : State) : Lasts s (execBufferCopyDone slice path delay feed s) := by
  unfold execBufferCopyDone
  dsimp only
  repeat' split
  all_goals simp

@[simp] theorem cleanBank_lasting (b) (s : State) : lasting (cleanBank b s) = lasting s := by simp [cleanBank]

@[simp] theorem engineTested_lasting (e pass) (s : State) : lasting (engineTested e pass s) = lasting s := by simp [engineTested]

@[simp] theorem bankTested_lasting (b pass) (s : State) : lasting (bankTested b pass s) = lasting s := by simp [bankTested]

@[simp] theorem execUnitSelftestDone_lasting (unit pass) (s : State) : Lasts s (execUnitSelftestDone unit pass s) := by
  unfold execUnitSelftestDone
  split <;> simp

@[simp] theorem askPlanned_lasting (r p) (s : State) : lasting (askPlanned r s p) = lasting s := by
  unfold askPlanned
  split <;> simp

@[simp] theorem thermalMoves_lasting (s : State) : lasting (thermalMoves s) = lasting s := by simp [thermalMoves]

@[simp] theorem execMoveStart_lasting (s : State) : Lasts s (execMoveStart s) := by simp [execMoveStart]

@[simp] theorem execSpreadDeclared_lasting (s : State) : Lasts s (execSpreadDeclared s) := by
  unfold execSpreadDeclared
  dsimp only
  repeat' split
  all_goals simp

@[simp] theorem execSpreadCleared_lasting (s : State) : Lasts s (execSpreadCleared s) := by
  unfold execSpreadCleared
  dsimp only
  repeat' split
  all_goals simp

@[simp] theorem execRebalancePass_lasting (s : State) : Lasts s (execRebalancePass s) := by simp [execRebalancePass]

@[simp] theorem execPlaceRebalance_lasting (d) (s : State) : Lasts s (execPlaceRebalance d s) := by
  refine hostCommand_lasts s fun iss s => ?_
  repeat' split
  all_goals simp

@[simp] theorem recordPin_lasting (p) (s : State) : lasting (recordPin p s) = lasting s := by simp [recordPin]

theorem pinMoves_lasting {p} {s t : State} (h : pinMoves p s = some t) : lasting t = lasting s := by
  unfold pinMoves at h
  split at h
  · refine foldl_some_lasting (fun u j t h => ?_) h
    dsimp only at h
    split at h
    · rw [← Option.some.inj h, askMove_lasting]
    · cases h
  · refine foldl_some_lasting (fun u b t h => foldl_some_lasting (fun u c t h => ?_) h) h
    obtain ⟨y, -, h⟩ := Option.bind_eq_some_iff.mp h
    exact copyOff_lasting h
  · refine foldl_some_lasting (fun u f t h => ?_) h
    split at h
    · rw [Option.some.inj h]
    · split at h
      · rw [Option.some.inj h]
      · obtain ⟨x, -, rfl⟩ := Option.map_eq_some_iff.mp h
        simp

@[simp] theorem execPlacePin_lasting (d) (s : State) : Lasts s (execPlacePin d s) := by
  refine hostCommand_lasts s fun iss s => ?_
  split
  · simp
  · simp
  · dsimp only
    split
    · simp
    · split
      · simp
      · split
        · simp
        · rename_i h
          split
          · simp
          · simp [pinMoves_lasting h]

@[simp] theorem askLeave_lasting (e) (s : State) : lasting (askLeave e s) = lasting s := by simp [askLeave]

@[simp] theorem addWait_lasting (iss j) (s : State) : lasting (addWait iss j s) = lasting s := by simp [addWait]

@[simp] theorem endForbidWaits_lasting (j) (s : State) : lasting (endForbidWaits j s) = lasting s := by simp [endForbidWaits]

@[simp] theorem forbidEngine_lasting (iss e on tgt) (s : State) : lasting (forbidEngine iss e on tgt s) = lasting s := by simp [forbidEngine]

@[simp] theorem forbidBank_lasting (iss b on tgt) (s : State) : lasting (forbidBank iss b on tgt s) = lasting s := by simp [forbidBank]

@[simp] theorem forbidLane_lasting (iss l on tgt) (s : State) : lasting (forbidLane iss l on tgt s) = lasting s := by simp [forbidLane]

@[simp] theorem execPlaceForbid_lasting (d) (s : State) : Lasts s (execPlaceForbid d s) := by
  unfold execPlaceForbid
  split <;> simp

@[simp] theorem execMemRetire_lasting (d) (s : State) : Lasts s (execMemRetire d s) := by
  unfold execMemRetire
  split <;> simp

/-! ### Machine/Slices -/

@[simp] theorem setImmediate_lasting (sl d) (s : State) : lasting (setImmediate sl d s) = lasting s := by simp [setImmediate]

@[simp] theorem runClassB_lasting (iss sl params tgt) (s : State) : lasting (runClassB iss sl params tgt s) = lasting s := by
  unfold runClassB
  split
  · simp
  · rename_i h
    simp [reserve_lasting h]

@[simp] theorem runClassA_lasting (iss sl params tgt) (s : State) : lasting (runClassA iss sl params tgt s) = lasting s := by
  unfold runClassA
  dsimp only
  split
  · split
    · simp
    · rename_i h
      simp [reserveChange_lasting h]
  · simp

@[simp] theorem runSliceSet_lasting (iss sl d) (s : State) : lasting (runSliceSet iss sl d s) = lasting s := by
  unfold runSliceSet
  split <;> simp

@[simp] theorem execSliceSet_lasting (d) (s : State) : Lasts s (execSliceSet d s) := by
  refine hostCommand_lasts s fun iss s => ?_
  repeat' split
  all_goals simp

@[simp] theorem execPendingSetLive_lasting (slice) (s : State) : Lasts s (execPendingSetLive slice s) := by simp [execPendingSetLive]

@[simp] theorem execSliceRestartStart_lasting (slice) (s : State) : Lasts s (execSliceRestartStart slice s) := by simp [execSliceRestartStart]

@[simp] theorem afterRestart_lasting (sl) (s : State) : lasting (afterRestart sl s) = lasting s := by
  unfold afterRestart
  dsimp only
  split
  · split
    · simp
    · rename_i h
      simp [reserveChange_lasting h]
  · rfl

@[simp] theorem execSliceRestartDone_lasting (slice) (s : State) : Lasts s (execSliceRestartDone slice s) := by simp [execSliceRestartDone]

@[simp] theorem runFill_lasting (iss sl f) (s : State) : lasting (runFill iss sl f s) = lasting s := by
  unfold runFill
  split <;> simp

@[simp] theorem execSliceGain_lasting (d) (s : State) : Lasts s (execSliceGain d s) := by
  refine hostCommand_lasts s fun iss s => ?_
  repeat' split
  all_goals simp

@[simp] theorem execSliceMute_lasting (d) (s : State) : Lasts s (execSliceMute d s) := by
  refine hostCommand_lasts s fun iss s => ?_
  repeat' split
  all_goals simp

@[simp] theorem execSliceDelete_lasting (d) (s : State) : Lasts s (execSliceDelete d s) := by
  refine hostCommand_lasts s fun iss s => ?_
  repeat' split
  all_goals simp

@[simp] theorem execSliceDeleteDone_lasting (slice) (s : State) : Lasts s (execSliceDeleteDone slice s) := by
  unfold execSliceDeleteDone
  split <;> simp

@[simp] theorem keepLowest_lasting (sl p v) (s : State) : lasting (keepLowest sl p v s) = lasting s := by
  unfold keepLowest
  split <;> simp

@[simp] theorem execMeterWindowEnd_lasting (slice path) (s : State) : Lasts s (execMeterWindowEnd slice path s) := by simp [execMeterWindowEnd]

@[simp] theorem execCapture_lasting (d) (s : State) : Lasts s (execCapture d s) := by
  refine hostCommand_lasts s fun iss s => ?_
  repeat' split
  all_goals simp

@[simp] theorem writeBlock_lasting (r c b last) (s : State) : lasting (writeBlock r c b last s) = lasting s := by simp [writeBlock]

@[simp] theorem onCapture_lasting (r f) (s : State) : lasting (onCapture r f s) = lasting s := by simp [onCapture]

@[simp] theorem execCaptureBlock_lasting (ring) (s : State) : Lasts s (execCaptureBlock ring s) := by
  simp only [execCaptureBlock]
  repeat' split
  all_goals simp

@[simp] theorem execCaptureEnd_lasting (ring) (s : State) : Lasts s (execCaptureEnd ring s) := by
  unfold execCaptureEnd
  split <;> simp

/-! ### Machine/Residue -/

@[simp] theorem reportResidue_lasting (inj tx m stage corrected) (s : State) : lasting (reportResidue inj tx m stage corrected s) = lasting s := by
  simp [reportResidue]

@[simp] theorem portResidue_lasting (inj tx m stage corrected spareHeld) (s : State) :
    lasting (portResidue inj tx m stage corrected spareHeld s) = lasting s := by simp [portResidue]

@[simp] theorem reportWrong_lasting (s : State) : lasting (reportWrong s) = lasting s := by simp [reportWrong]

@[simp] theorem tileMismatch_lasting (tx m stage index recomputed) (s : State) :
    lasting (tileMismatch tx m stage index recomputed s) = lasting s := by simp [tileMismatch]

@[simp] theorem engineMismatch_lasting (sl p stage index recomputed) (s : State) :
    lasting (engineMismatch sl p stage index recomputed s) = lasting s := by
  unfold engineMismatch
  split <;> simp

@[simp] theorem execResidueMismatch_lasting (site stage index corrected) (s : State) :
    Lasts s (execResidueMismatch site stage index corrected s) := by
  unfold execResidueMismatch
  split <;> simp

/-! ### Machine/Canceller -/

@[simp] theorem blockDone_lasting (e f) (s : State) : lasting (blockDone e f s) = lasting s := by simp [blockDone]

@[simp] theorem fillBlock_lasting (d sl p stamp c) (s : State) : lasting (fillBlock d sl p stamp c s) = lasting s := by
  unfold fillBlock
  dsimp only
  repeat' split
  all_goals simp

@[simp] theorem takePlayed_lasting (sl p) (s : State) : lasting (takePlayed sl p s).2 = lasting s := by
  simp only [takePlayed]
  repeat' split
  all_goals simp

@[simp] theorem nextSample_lasting (d sl p) (s : State) : lasting (nextSample d sl p s).2.2.2 = lasting s := by
  unfold nextSample
  split
  · simp
  · split <;> simp

@[simp] theorem captureSample_lasting (sl p inside t r) (s : State) : lasting (captureSample sl p inside t s r) = lasting s := by
  unfold captureSample
  dsimp only
  repeat' split
  all_goals simp

@[simp] theorem samplePulses_lasting (sl sat limited trimmed poisoned) (s : State) :
    lasting (samplePulses sl sat limited trimmed poisoned s) = lasting s := by simp [samplePulses]

@[simp] theorem observeInput_lasting (sl d t v) (s : State) : lasting (observeInput sl d t v s) = lasting s := by
  unfold observeInput
  split <;> simp

@[simp] theorem sampleStep_lasting (sl p params) (s : State) : lasting (sampleStep sl p params s) = lasting s := by
  unfold sampleStep
  extract_lets d slice c cp applied rise fade goal w yhat
  have taken := nextSample_lasting d sl p s
  rcases next : nextSample d sl p s with ⟨n, made, input, u⟩
  rw [next] at taken
  dsimp -zeta only at taken ⊢
  extract_lets history y observed instant silent down fade factor limited z v sat trim v v sent r here off c' c' cancelled gained inside blind meter
    metered tapped shadowed captured filled
  calc lasting (emit (.sample sl.val p r) (samplePulses sl sat limited (trim != 0) (contBad r) filled))
    _ = lasting filled := by rw [emit_lasting, samplePulses_lasting]
    _ = lasting captured := ite_lasting (fillBlock_lasting ..) rfl
    _ = lasting shadowed := foldl_lasting (fun _ _ => captureSample_lasting ..) _ _
    _ = lasting metered := ite_lasting (shadowSample_lasting ..) rfl
    _ = lasting cancelled := by rw [onChain_lasting, onSlice_lasting]
    _ = lasting observed := ite_lasting (by rw [writeRing_lasting, onCanceller_lasting]) (onCanceller_lasting ..)
    _ = lasting u := ite_lasting (observeInput_lasting ..) rfl
    _ = lasting s := taken

@[simp] theorem localError_lasting (sl p d w) (s : State) : lasting (localError sl p d w s) = lasting s := by
  unfold localError
  dsimp only
  repeat' split
  all_goals simp

@[simp] theorem execSliceSampleBoundary_lasting (slice path wrong) (s : State) : Lasts s (execSliceSampleBoundary slice path wrong s) := by
  unfold execSliceSampleBoundary
  split
  · simp
  · split
    · refine lasts_next.mpr ((sampleStep_lasting ..).trans ?_)
      split <;> simp
    · simp

@[simp] theorem execCancelWindowEnd_lasting (slice path) (s : State) : Lasts s (execCancelWindowEnd slice path s) := by simp [execCancelWindowEnd]

@[simp] theorem execCancelCtl_lasting (d) (s : State) : Lasts s (execCancelCtl d s) := by
  refine hostCommand_lasts s fun iss s => ?_
  repeat' split
  all_goals simp

/-! ### Machine/Protection -/

@[simp] theorem raiseTrim_lasting (inj sl p k value present fresh) (s : State) :
    lasting (raiseTrim inj sl p k value present fresh s) = lasting s := by
  unfold raiseTrim
  split <;> simp

@[simp] theorem causeMute_lasting (inj sl k value) (s : State) : lasting (causeMute inj sl k value s) = lasting s := by simp [causeMute]

@[simp] theorem trimAbsent_lasting (sl p k) (s : State) : lasting (trimAbsent sl p k s) = lasting s := by simp [trimAbsent]

@[simp] theorem squallPorts_lasting (inj sl value) (s : State) : lasting (squallPorts inj sl value s) = lasting s := by
  unfold squallPorts
  split <;> simp

@[simp] theorem squallActs_lasting (inj sl p growth again) (s : State) : lasting (squallActs inj sl p growth again s) = lasting s := by
  simp [squallActs]

@[simp] theorem testWindow_lasting (sl p k r n) (s : State) : lasting (testWindow sl p k r n s) = lasting s := by
  unfold testWindow
  dsimp only
  repeat' split
  all_goals simp

@[simp] theorem execSquallWindowEnd_lasting (slice path) (s : State) : Lasts s (execSquallWindowEnd slice path s) := by
  unfold execSquallWindowEnd
  split <;> simp

@[simp] theorem overdriveStep_lasting (inj rx) (s : State) : lasting (overdriveStep inj rx s) = lasting s := by simp [overdriveStep]

@[simp] theorem execOverdriveInterval_lasting (rx) (s : State) : Lasts s (execOverdriveInterval rx s) := by simp [execOverdriveInterval]

@[simp] theorem noiseActs_lasting (sl p density) (s : State) : lasting (noiseActs sl p density s) = lasting s := by simp [noiseActs]

@[simp] theorem execNoiseIntervalEnd_lasting (slice) (s : State) : Lasts s (execNoiseIntervalEnd slice s) := by
  unfold execNoiseIntervalEnd
  dsimp only
  repeat' split
  all_goals simp

@[simp] theorem emissionActs_lasting (inj sl p power) (s : State) : lasting (emissionActs inj sl p power s) = lasting s := by simp [emissionActs]

@[simp] theorem execEmissionVisitEnd_lasting (tx bins) (s : State) : Lasts s (execEmissionVisitEnd tx bins s) := by
  unfold execEmissionVisitEnd
  dsimp only
  split
  · simp
  · refine lasts_next.mpr ((foldl_lasting (fun s y => ?_) _ _).trans (onPortProt_lasting ..))
    split <;> simp

@[simp] theorem execDonorLossTimeout_lasting (ref) (s : State) : Lasts s (execDonorLossTimeout ref s) := by simp [execDonorLossTimeout]

@[simp] theorem execDonorRecover_lasting (ref) (s : State) : Lasts s (execDonorRecover ref s) := by simp [execDonorRecover]

@[simp] theorem timingMute_lasting (inj) (s : State) : lasting (timingMute inj s) = lasting s := by
  refine foldl_lasting (fun s a => ?_) _ s
  repeat' split
  all_goals simp

@[simp] theorem timingRelease_lasting (timer) (s : State) : lasting (timingRelease timer s) = lasting s := by
  unfold timingRelease
  split
  · rfl
  · refine foldl_lasting (fun s sl => ?_) _ s
    split
    · split <;> simp
    · rfl

@[simp] theorem execTrimHoldExpiry_lasting (slice path kind) (s : State) : Lasts s (execTrimHoldExpiry slice path kind s) := by
  simp [execTrimHoldExpiry]

@[simp] theorem execTrimReleaseStep_lasting (slice path kind) (s : State) : Lasts s (execTrimReleaseStep slice path kind s) := by
  simp [execTrimReleaseStep]

@[simp] theorem execProtectHalt_lasting (d) (s : State) : Lasts s (execProtectHalt d s) := by
  unfold execProtectHalt
  split <;> simp

@[simp] theorem clearTrim_lasting (sl k) (a : Bool × State) (p) : lasting (clearTrim sl k a p).2 = lasting a.2 := by
  unfold clearTrim
  dsimp only
  repeat' split
  all_goals simp

@[simp] theorem clearMute_lasting (sl ps k) (a : Bool × State) : lasting (clearMute sl ps k a).2 = lasting a.2 := by
  unfold clearMute
  dsimp only
  repeat' split
  all_goals simp

@[simp] theorem clearPort_lasting (m k) (a : Bool × State) : lasting (clearPort m k a).2 = lasting a.2 := by
  unfold clearPort
  cases k
  all_goals
    dsimp only
    repeat' split
    all_goals simp

@[simp] theorem foldl_clearTrim_lasting (sl k) (ps : List PathId) (a : Bool × State) : lasting (ps.foldl (clearTrim sl k) a).2 = lasting a.2 := by
  induction ps generalizing a with
  | nil => rfl
  | cons p ps ih => exact (ih _).trans (clearTrim_lasting ..)

@[simp] theorem clearSlice_lasting (sl mask ps) (s : State) : lasting (clearSlice sl mask ps s).2 = lasting s := by
  have choice (c : Prop) [Decidable c] (a b : Bool × State) (h : lasting a.2 = lasting b.2) : lasting (if c then a else b).2 = lasting b.2 := by
    split
    · exact h
    · rfl
  have trim (k : TrimKind) (a : Bool × State) := choice (bitOf mask (trimCause k) = true) _ a (foldl_clearTrim_lasting sl k ps a)
  have mute (k : SliceMute) (a : Bool × State) := choice (bitOf mask (muteCause k) = true) _ a (clearMute_lasting sl ps k a)
  simp only [clearSlice, trim, mute]

@[simp] theorem clearTxPort_lasting (m mask) (s : State) : lasting (clearTxPort m mask s).2 = lasting s := by
  have port (k : PortMute) (a : Bool × State) :
      lasting (if bitOf mask (portCause k) = true then clearPort m k a else a).2 = lasting a.2 := by
    split <;> simp
  simp only [clearTxPort, port]

@[simp] theorem execProtectClear_lasting (d) (s : State) : Lasts s (execProtectClear d s) := by
  refine hostCommand_lasts s fun iss s => ?_
  dsimp only
  repeat' split
  all_goals simp

@[simp] theorem dropDisabled_lasting (sl) (s : State) : lasting (dropDisabled sl s) = lasting s := by simp [dropDisabled]

@[simp] theorem injectProtection_lasting (src unit) (s : State) : lasting (injectProtection src unit s) = lasting s := by
  simp only [injectProtection]
  repeat' split
  all_goals simp

/-! ### Machine/Memory -/

@[simp] theorem noteError_lasting (loc syndrome kind scrub) (s : State) : lasting (noteError loc syndrome kind scrub s) = lasting s := by
  simp [noteError]

@[simp] theorem countError_lasting (b f) (s : State) : lasting (countError b f s) = lasting s := by simp [countError]

@[simp] theorem poisonWord_lasting (loc) (s : State) : lasting (poisonWord loc s) = lasting s := by
  unfold poisonWord
  dsimp only
  repeat' split
  all_goals simp

@[simp] theorem secdedFails_lasting (src loc b syndrome kind r) (s : State) : lasting (secdedFails src loc b syndrome kind r s) = lasting s := by
  simp [secdedFails]

@[simp] theorem readWord_lasting (loc b r e) (s : State) : lasting (readWord loc b r e s) = lasting s := by
  unfold readWord
  dsimp only
  repeat' split
  all_goals simp

@[simp] theorem execSmemReadError_lasting (location reader error) (s : State) : Lasts s (execSmemReadError location reader error s) := by
  unfold execSmemReadError
  split <;> simp

@[simp] theorem execScrubPassEnd_lasting (s : State) : Lasts s (execScrubPassEnd s) := by simp [execScrubPassEnd]

@[simp] theorem execCodeSelWrite_lasting (bank parity) (s : State) : Lasts s (execCodeSelWrite bank parity s) := by simp [execCodeSelWrite]

@[simp] theorem execCodeSelZeroDone_lasting (bank) (s : State) : Lasts s (execCodeSelZeroDone bank s) := by simp [execCodeSelZeroDone]

/-! ### Machine/Control -/

@[simp] theorem onLoop_lasting (i f) (s : State) : lasting (onLoop i f s) = lasting s := by simp [onLoop]

@[simp] theorem writeBias_lasting (c value) (s : State) : lasting (writeBias c value s) = lasting s := by
  unfold writeBias
  split <;> simp

@[simp] theorem applyOutput_lasting (x) (s : State) : lasting (applyOutput s x) = lasting s := by
  unfold applyOutput
  split <;> simp

@[simp] theorem recordTraces_lasting (i n ev) (s : State) : lasting (recordTraces i n ev s) = lasting s := by
  unfold recordTraces
  split
  · rfl
  · refine foldl_lasting (fun s b => ?_) _ s
    dsimp only
    repeat' split
    all_goals simp

@[simp] theorem landGroup_lasting (i) (s : State) : lasting (landGroup i s) = lasting s := by
  unfold landGroup
  dsimp only
  repeat' split
  all_goals simp

@[simp] theorem evaluationErrors_lasting (i e clamped l) (s : State) : lasting (evaluationErrors i e clamped l s) = lasting s := by
  simp [evaluationErrors]

@[simp] theorem endFade_lasting (i) (s : State) : lasting (endFade i s) = lasting s := by
  unfold endFade
  split <;> simp

@[simp] theorem holdSlot_lasting (i n code l) (s : State) : lasting (holdSlot i n code l s) = lasting s := by
  simp [holdSlot]

@[simp] theorem runSlot_lasting (i n y l) (s : State) : lasting (runSlot i n y l s) = lasting s := by
  unfold runSlot
  extract_lets swap x x' l' old e z looped swapped raised pulsed lim limited traced completed
  have completes : lasting completed = lasting traced := by
    simp only [completed]
    split
    · exact ite_lasting (completeOpt_lasting ..) rfl
    · rfl
  calc lasting (landGroup i (endFade i completed))
    _ = lasting traced := by rw [landGroup_lasting, endFade_lasting, completes]
    _ = lasting pulsed := by rw [recordTraces_lasting]; exact ite_lasting (pulse_lasting ..) rfl
    _ = lasting swapped := by rw [pulse_lasting, evaluationErrors_lasting]
    _ = lasting looped := ite_lasting (onCen_lasting ..) rfl
    _ = lasting s := onLoop_lasting ..

@[simp] theorem tickSlot_lasting (n codes dues inputs) (s : State) (i) : lasting (tickSlot n codes dues inputs s i) = lasting s := by
  unfold tickSlot
  split <;> simp

@[simp] theorem takeSetpoints_lasting (i) (s : State) : lasting (takeSetpoints s i) = lasting s := by
  unfold takeSetpoints
  split <;> simp

@[simp] theorem takeParity_lasting (x) (s : State) : lasting (takeParity s x) = lasting s := by
  unfold takeParity
  split <;> simp

@[simp] theorem applySlot_lasting (codes dues i) (s : State) : lasting (applySlot codes dues s i) = lasting s := by
  unfold applySlot
  split <;> simp

@[simp] theorem execLoopTick_lasting (parity) (s : State) : Lasts s (execLoopTick parity s) := by
  unfold execLoopTick
  extract_lets n advanced k power cleared taken dues stale first codes inputs ticked
  refine lasts_next.mpr ?_
  calc lasting ((indices 64).foldl (applySlot codes dues) ticked)
    _ = lasting ticked := foldl_lasting (fun _ _ => applySlot_lasting ..) _ _
    _ = lasting stale := foldl_lasting (fun _ _ => tickSlot_lasting ..) _ _
    _ = lasting taken := foldl_lasting (fun _ _ => ite_lasting (onLoop_lasting ..) rfl) _ _
    _ = lasting ((indices 64).foldl takeSetpoints cleared) := foldl_lasting (fun _ _ => takeParity_lasting ..) _ _
    _ = lasting cleared := foldl_lasting (fun _ _ => takeSetpoints_lasting ..) _ _
    _ = lasting advanced := onSig_lasting ..
    _ = lasting s := by rw [onCen_lasting, advanceTo_lasting]

/-! ### Machine/ControlCommands -/

@[simp] theorem startWrite_lasting (i bank start words iss l) (s : State) : lasting (startWrite i bank start words iss l s) = lasting s := by
  simp [startWrite]

@[simp] theorem execLoopWrite_lasting (d) (s : State) : Lasts s (execLoopWrite d s) := by
  refine hostCommand_lasts s fun iss s => ?_
  repeat' split
  all_goals simp

@[simp] theorem execLoopSwap_lasting (d) (s : State) : Lasts s (execLoopSwap d s) := by
  refine hostCommand_lasts s fun iss s => ?_
  repeat' split
  all_goals simp

@[simp] theorem execLoopSetpoint_lasting (d) (s : State) : Lasts s (execLoopSetpoint d s) := by
  refine hostCommand_lasts s fun iss s => ?_
  repeat' split
  all_goals simp

@[simp] theorem onTrace_lasting (b f) (s : State) : lasting (onTrace b f s) = lasting s := by simp [onTrace]

@[simp] theorem execTraceArm_lasting (d) (s : State) : Lasts s (execTraceArm d s) := by
  refine hostCommand_lasts s fun iss s => ?_
  repeat' split
  all_goals simp

@[simp] theorem endLoopCommands_lasting (i swaps fades) (s : State) : lasting (endLoopCommands i swaps fades s) = lasting s := by
  unfold endLoopCommands
  split <;> simp

@[simp] theorem endTraces_lasting (i) (s : State) : lasting (endTraces i s) = lasting s := by simp [endTraces]

@[simp] theorem installSlot_lasting (sec t i) (s : State) : lasting (installSlot sec t s i) = lasting s := by
  unfold installSlot
  split <;> simp

@[simp] theorem installTrace_lasting (sec b) (s : State) : lasting (installTrace sec s b) = lasting s := by
  unfold installTrace
  split <;> simp

@[simp] theorem installLoops_lasting (sec t) (s : State) : lasting (installLoops sec t s) = lasting s := by simp [installLoops]

/-! ### Machine/TimeEvents -/

@[simp] theorem execTimNowNsRead_lasting (fn) (s : State) : Lasts s (execTimNowNsRead fn s) := by simp [execTimNowNsRead]

@[simp] theorem enterHoldover_lasting (s : State) : lasting (enterHoldover s) = lasting s := by simp [enterHoldover]

@[simp] theorem execTimeSourceChange_lasting (source) (s : State) : Lasts s (execTimeSourceChange source s) := by simp [execTimeSourceChange]

@[simp] theorem execPpsLoss_lasting (s : State) : Lasts s (execPpsLoss s) := by simp [execPpsLoss]

@[simp] theorem execPpsEdge_lasting (capture width active) (s : State) : Lasts s (execPpsEdge capture width active s) := by simp [execPpsEdge]

@[simp] theorem execPpsOutPulse_lasting (s : State) : Lasts s (execPpsOutPulse s) := by simp [execPpsOutPulse]

@[simp] theorem settlePairs_lasting (s : State) : lasting (settlePairs s) = lasting s := by simp [settlePairs]

@[simp] theorem execTddSwitch_lasting (pair) (s : State) : Lasts s (execTddSwitch pair s) := by
  unfold execTddSwitch
  split <;> simp

@[simp] theorem onTimer_lasting (i f) (s : State) : lasting (onTimer i f s) = lasting s := by simp [onTimer]

@[simp] theorem takeSides_lasting (i) (s : State) : lasting (takeSides i s) = lasting s := by simp [takeSides]

@[simp] theorem periodStarts_lasting (i) (s : State) : lasting (periodStarts i s) = lasting s := by simp [periodStarts]

@[simp] theorem patternLive_lasting (i c) (s : State) : lasting (patternLive i c s) = lasting s := by
  unfold patternLive
  split <;> simp

@[simp] theorem reachX_lasting (i c) (s : State) : lasting (reachX i c s) = lasting s := by simp [reachX]

@[simp] theorem execPatternPeriodStart_lasting (timer) (s : State) : Lasts s (execPatternPeriodStart timer s) := by
  unfold execPatternPeriodStart
  dsimp only
  repeat' split
  all_goals simp

@[simp] theorem askPattern_lasting (i p instant iss) (s : State) : lasting (askPattern i p instant iss s) = lasting s := by simp [askPattern]

@[simp] theorem execTddPatternSet_lasting (d) (s : State) : Lasts s (execTddPatternSet d s) := by
  refine hostCommand_lasts s fun iss s => ?_
  repeat' split
  all_goals simp

@[simp] theorem timeSet_lasting (iss d) (s : State) : lasting (timeSet iss d s) = lasting s := by
  unfold timeSet
  split <;> simp

@[simp] theorem execTimeSet_lasting (d) (s : State) : Lasts s (execTimeSet d s) := by
  unfold execTimeSet
  split <;> simp

@[simp] theorem execTimeSetTimeout_lasting (s : State) : Lasts s (execTimeSetTimeout s) := by
  unfold execTimeSetTimeout
  split <;> simp

@[simp] theorem timersStep_lasting (d) (s : State) : lasting (timersStep d s) = lasting s := by simp [timersStep]

@[simp] theorem cancellersStep_lasting (s : State) : lasting (cancellersStep s) = lasting s := by
  refine foldl_lasting (fun s a => ?_) _ s
  repeat' split
  all_goals simp

@[simp] theorem applyStep_lasting (p) (s : State) : lasting (applyStep p s) = lasting s := by simp [applyStep]

@[simp] theorem execTimeStep_lasting (s : State) : Lasts s (execTimeStep s) := by
  unfold execTimeStep
  split <;> simp

@[simp] theorem updateError_lasting (s : State) : lasting (updateError s) = lasting s := by simp [updateError]

@[simp] theorem execErrorUpdate_lasting (s : State) : Lasts s (execErrorUpdate s) := by simp [execErrorUpdate]

@[simp] theorem execTddInfer_lasting (d) (s : State) : Lasts s (execTddInfer d s) := by
  refine hostCommand_lasts s fun iss s => ?_
  repeat' split
  all_goals simp

@[simp] theorem execInferInterval_lasting (timer) (s : State) : Lasts s (execInferInterval timer s) := by
  unfold execInferInterval
  split <;> simp

@[simp] theorem publishProposal_lasting (periodic x) (s : State) : lasting (publishProposal periodic x s) = lasting s := by
  unfold publishProposal
  dsimp only
  repeat' split
  all_goals simp

@[simp] theorem execInferDone_lasting (s : State) : Lasts s (execInferDone s) := by
  unfold execInferDone
  dsimp only
  repeat' split
  all_goals simp

/-! ### Machine/Lanes -/

@[simp] theorem settleTimeLink_lasting (s : State) : lasting (settleTimeLink s) = lasting s := by
  unfold settleTimeLink
  dsimp only
  repeat' split
  all_goals simp

@[simp] theorem failover_lasting (l) (s : State) : lasting (failover l s) = lasting s := by
  unfold failover
  dsimp only
  repeat' split
  all_goals simp

@[simp] theorem becomeData_lasting (l) (s : State) : lasting (becomeData l s) = lasting s := by
  unfold becomeData
  split <;> simp

@[simp] theorem trainLane_lasting (l) (s : State) : lasting (trainLane l s) = lasting s := by simp [trainLane]

@[simp] theorem laneDown_lasting (l state) (s : State) : lasting (laneDown l state s) = lasting s := by
  unfold laneDown
  dsimp only
  repeat' split
  all_goals simp

@[simp] theorem failLane_lasting (inj l r) (s : State) : lasting (failLane inj l r s) = lasting s := by simp [failLane]

@[simp] theorem waitLane_lasting (l iss retrain) (s : State) : lasting (waitLane l iss retrain s) = lasting s := by simp [waitLane]

@[simp] theorem laneCtl_lasting (iss l d) (s : State) : lasting (laneCtl iss l d s) = lasting s := by
  unfold laneCtl
  split <;> simp

@[simp] theorem execLaneCtl_lasting (d) (s : State) : Lasts s (execLaneCtl d s) := by
  unfold execLaneCtl
  split <;> simp

@[simp] theorem testDegraded_lasting (l) (s : State) : lasting (testDegraded l s) = lasting s := by simp [testDegraded]

@[simp] theorem offerSpare_lasting (g) (s : State) : lasting (offerSpare g s) = lasting s := by
  unfold offerSpare
  split <;> simp

@[simp] theorem execLaneUp_lasting (lane inverted) (s : State) : Lasts s (execLaneUp lane inverted s) := by
  unfold execLaneUp
  dsimp only
  repeat' split
  all_goals simp

@[simp] theorem execLaneTrainTimeout_lasting (lane) (s : State) : Lasts s (execLaneTrainTimeout lane s) := by
  unfold execLaneTrainTimeout
  dsimp only
  repeat' split
  all_goals simp

@[simp] theorem execLaneFail_lasting (lane reason) (s : State) : Lasts s (execLaneFail lane reason s) := by simp [execLaneFail]

@[simp] theorem degradeLane_lasting (inj l) (s : State) : lasting (degradeLane inj l s) = lasting s := by simp [degradeLane]

@[simp] theorem execLaneDegraded_lasting (lane) (s : State) : Lasts s (execLaneDegraded lane s) := by simp [execLaneDegraded]

@[simp] theorem execLaneSelftestDone_lasting (lane pass) (s : State) : Lasts s (execLaneSelftestDone lane pass s) := by simp [execLaneSelftestDone]

@[simp] theorem execLaneSpareReady_lasting (lane) (s : State) : Lasts s (execLaneSpareReady lane s) := by
  unfold execLaneSpareReady
  dsimp only
  repeat' split
  all_goals simp

@[simp] theorem countFec_lasting (l frame c) (s : State) : lasting (countFec l frame c s) = lasting s := by simp [countFec]

@[simp] theorem checkMask_lasting (g m) (s : State) : lasting (checkMask g m s) = lasting s := by simp [checkMask]

@[simp] theorem linkEdge_lasting (g h) (s : State) : lasting (linkEdge g h s) = lasting s := by simp [linkEdge]

@[simp] theorem sendFrames_lasting (s : State) : lasting (sendFrames s) = lasting s := by simp [sendFrames]

@[simp] theorem execFrameHeader_lasting (lane offset words fec) (s : State) : Lasts s (execFrameHeader lane offset words fec s) := by
  unfold execFrameHeader
  dsimp only
  repeat' split
  all_goals simp

/-! ### Machine/Streams -/

theorem reserveDelays_lasting {defs l} {s t : State} (h : reserveDelays defs l s = some t) : lasting t = lasting s := by
  unfold reserveDelays at h
  dsimp only at h
  split at h
  · cases h
  · refine foldl_some_lasting (fun u x t h => ?_) h
    split at h
    · rw [Option.some.inj h]
    · exact allocBuffer_lasting h

@[simp] theorem dropDelays_lasting (s : State) : lasting (dropDelays s) = lasting s := by simp [dropDelays]

@[simp] theorem takeDelays_lasting (defs l) (s : State) : lasting (takeDelays defs l s) = lasting s := by simp [takeDelays]

@[simp] theorem stretchDelay_lasting (old new) (s : State) : lasting (stretchDelay old new s) = lasting s := by simp [stretchDelay]

@[simp] theorem applyStreams_lasting (new) (s : State) : lasting (applyStreams new s) = lasting s := by
  unfold applyStreams
  extract_lets old stretched gone ids left dropped delayed feeds
  have stretches : lasting stretched = lasting s := foldl_lasting (fun s e => by split <;> simp) _ _
  calc lasting (bumpGen (placeFeeds (onLnk (fun l => { l with feeds := feeds }) delayed)))
    _ = lasting delayed := by rw [bumpGen_lasting, placeFeeds_lasting, onLnk_lasting]
    _ = lasting stretched := by rw [takeDelays_lasting, onLnk_lasting]
    _ = lasting s := stretches

@[simp] theorem dropMap_lasting (s : State) : lasting (dropMap s) = lasting s := by
  unfold dropMap
  split <;> simp

@[simp] theorem linkMap_lasting (iss d bs commit) (s : State) : lasting (linkMap iss d bs commit s) = lasting s := by
  unfold linkMap
  split
  · simp
  · dsimp only
    split
    · simp
    · split
      · simp
      · split
        · simp
        · split
          · simp
          · rename_i h
            simp [reserveDelays_lasting h]

@[simp] theorem installLane_lasting (sec l) (s : State) : lasting (installLane sec s l) = lasting s := by
  unfold installLane
  split <;> simp

@[simp] theorem installLink_lasting (sec) (s : State) : lasting (installLink sec s) = lasting s := by simp [installLink]

@[simp] theorem execLinkMapEffect_lasting (s : State) : Lasts s (execLinkMapEffect s) := by
  unfold execLinkMapEffect
  split
  · simp
  · refine lasts_next.mpr ?_
    split <;> simp

@[simp] theorem sendSegment_lasting (l) (s : State) : lasting (sendSegment s l) = lasting s := by
  simp only [sendSegment]
  repeat' split
  all_goals simp

@[simp] theorem execTickSend_lasting (s : State) : Lasts s (execTickSend s) := by simp [execTickSend]

@[simp] theorem countMiss_lasting (g late) (s : State) : lasting (countMiss g late s) = lasting s := by
  unfold countMiss
  split <;> simp

@[simp] theorem storeBlock_lasting (e g b) (s : State) : lasting (storeBlock e g b s) = lasting s := by simp [storeBlock]

@[simp] theorem takeBlock_lasting (e g b) (s : State) : lasting (takeBlock e g b s) = lasting s := by simp [takeBlock]

@[simp] theorem execSegmentReceive_lasting (lane descriptor bytes) (s : State) : Lasts s (execSegmentReceive lane descriptor bytes s) := by
  unfold execSegmentReceive
  dsimp only
  repeat' split
  all_goals simp

@[simp] theorem playOut_lasting (e number c) (s : State) : lasting (playOut e number c s) = lasting s := by simp [playOut]

@[simp] theorem countLate_lasting (e number) (s : State) : lasting (countLate e number s) = lasting s := by simp [countLate]

@[simp] theorem playTerminate_lasting (e number) (s : State) : lasting (playTerminate e number s) = lasting s := by simp [playTerminate]

@[simp] theorem addFeed_lasting (e number feed) (s : State) : lasting (addFeed e number feed s) = lasting s := by simp [addFeed]

@[simp] theorem execBlockPlayout_lasting (stream number) (s : State) : Lasts s (execBlockPlayout stream number s) := by
  unfold execBlockPlayout
  split <;> simp

/-! ### Machine/ImageRead -/

@[simp] theorem withPlacement_lasting (sec) (s : State) : lasting (withPlacement sec s) = lasting s := by simp [withPlacement]

/-! ### Machine/Arrange -/

@[simp] theorem releaseHost_lasting (sl) (s : State) : lasting (releaseHost sl s) = lasting s := by simp [releaseHost]

@[simp] theorem releaseFor_lasting (l) (s : State) : lasting (releaseFor l s) = lasting s := by simp [releaseFor]

theorem arrangeOne_lasting {before x} {s t : State} (h : arrangeOne before s x = some t) : lasting t = lasting s := by
  unfold arrangeOne at h
  split at h
  · dsimp only at h
    split at h
    · rw [Option.some.inj h]
    · obtain ⟨y, -, h⟩ := Option.bind_eq_some_iff.mp h
      exact reserveHost_lasting h
  · exact reserve_lasting h

theorem moveBuffers_lasting {b} {s t : State} (h : moveBuffers b s = some t) : lasting t = lasting s :=
  foldl_some_lasting (fun _ _ _ h => copyOff_lasting h) h

@[simp] theorem startLeaving_lasting (i) (s : State) : lasting (startLeaving i s) = lasting s := by
  unfold startLeaving
  extract_lets t asked forbids marked moved
  have asks : lasting asked = lasting s := by
    refine foldl_lasting (fun s x => ?_) _ _
    dsimp only
    split <;> simp
  calc lasting (onMem _ moved)
    _ = lasting moved := onMem_lasting ..
    _ = lasting marked := foldl_lasting (fun _ _ => getD_lasting fun _ => moveBuffers_lasting) _ _
    _ = lasting asked := onMem_lasting ..
    _ = lasting s := asks

/-! ### Machine/Apply -/

@[simp] theorem releaseClaim_lasting (c) (s : State) : lasting (releaseClaim s c) = lasting s := by
  unfold releaseClaim
  dsimp only
  repeat' split
  all_goals simp

@[simp] theorem retuneLines_lasting (s0) (s : State) : lasting (retuneLines s0 s) = lasting s := by simp [retuneLines]

@[simp] theorem installPorts_lasting (i) (s : State) : lasting (installPorts i s) = lasting s := by simp [installPorts]

@[simp] theorem endSliceCommands_lasting (sl) (s : State) : lasting (endSliceCommands s sl) = lasting s := by simp [endSliceCommands]

@[simp] theorem carryOn_lasting (s0 sl d) (s : State) : lasting (carryOn s0 sl d s) = lasting s := by
  unfold carryOn
  split <;> simp

@[simp] theorem startAtT_lasting (t sl d) (s : State) : lasting (startAtT t sl d s) = lasting s := by simp [startAtT]

@[simp] theorem installSlices_lasting (i t before) (s : State) : lasting (installSlices i t before s) = lasting s := by
  unfold installSlices
  extract_lets keeps emptied released arranged started
  calc lasting (countStreams started)
    _ = lasting started := countStreams_lasting ..
    _ = lasting arranged := foldl_lasting (fun _ _ => ite_lasting (carryOn_lasting ..) (startAtT_lasting ..)) _ _
    _ = lasting released := foldl_lasting (fun _ _ => getD_lasting fun _ => arrangeOne_lasting) _ _
    _ = lasting emptied := releaseFor_lasting ..
    _ = lasting s := foldl_lasting (fun _ _ => ite_lasting (by rw [emptySlice_lasting, abandonMoves_lasting, endCaptures_lasting]) rfl) _ _

@[simp] theorem installUnits_lasting (i) (s : State) : lasting (installUnits i s) = lasting s := by simp [installUnits]

@[simp] theorem leaveUnits_lasting (s : State) : lasting (leaveUnits s) = lasting s := by simp [leaveUnits]

@[simp] theorem installProtect_lasting (sec) (s : State) : lasting (installProtect sec s) = lasting s := by simp [installProtect]

@[simp] theorem installTimer_lasting (i t n) (s : State) : lasting (installTimer i t s n) = lasting s := by
  unfold installTimer
  dsimp only
  repeat' split
  all_goals simp

@[simp] theorem installTdd_lasting (i t) (s : State) : lasting (installTdd i t s) = lasting s := by simp [installTdd]

@[simp] theorem installLinkAt_lasting (sec t) (s : State) : lasting (installLinkAt sec t s) = lasting s := by
  simp [installLinkAt, getD_lasting fun _ => reserveDelays_lasting]

@[simp] theorem installConv_lasting (sec c) (s : State) : lasting (installConv sec s c) = lasting s := by
  unfold installConv
  dsimp only
  repeat' split
  all_goals simp

@[simp] theorem installMonitor_lasting (sec) (s : State) : lasting (installMonitor sec s) = lasting s := by simp [installMonitor]

@[simp] theorem installTerms_lasting (l) (s : State) : lasting (installTerms l s) = lasting s := by simp [installTerms]

@[simp] theorem installFrontEnd_lasting (sec) (s : State) : lasting (installFrontEnd sec s) = lasting s := by simp [installFrontEnd]

@[simp] theorem installThermal_lasting (sec) (s : State) : lasting (installThermal sec s) = lasting s := by simp [installThermal]

@[simp] theorem applyImage_lasting (i) (s : State) : lasting (applyImage i s) = lasting s := by simp [applyImage]

@[simp] theorem applyEmpty_lasting (s : State) : lasting (applyEmpty s) = lasting s := by simp [applyEmpty]

@[simp] theorem applyConfig_lasting (i) (s : State) : lasting (applyConfig i s) = lasting s := by
  unfold applyConfig
  split <;> simp

/-! ### Machine/Images -/

@[simp] theorem writeDirectory_lasting (s : State) : lasting (writeDirectory s) = lasting s := by simp [writeDirectory]

@[simp] theorem dropCopy_lasting (s : State) : lasting (dropCopy s) = lasting s := by simp [dropCopy]

@[simp] theorem cfgRecord_lasting (kind old new) (s : State) : lasting (cfgRecord kind old new s) = lasting s := by simp [cfgRecord]

@[simp] theorem stageImage_lasting (iss i) (s : State) : lasting (stageImage iss i s) = lasting s := by
  unfold stageImage
  split <;> simp

@[simp] theorem execCfgStage_lasting (d sigOk digestOk) (s : State) : Lasts s (execCfgStage d sigOk digestOk s) := by
  refine hostCommand_lasts s fun iss s => ?_
  repeat' split
  all_goals simp

@[simp] theorem cancelCommit_lasting (s : State) : lasting (cancelCommit s) = lasting s := by
  unfold cancelCommit
  split <;> simp

@[simp] theorem holdCommit_lasting (iss d x t) (s : State) : lasting (holdCommit iss d x t s) = lasting s := by simp [holdCommit]

@[simp] theorem execCfgCommit_lasting (d copyUe) (s : State) : Lasts s (execCfgCommit d copyUe s) := by
  refine hostCommand_lasts s fun iss s => ?_
  repeat' split
  all_goals simp

@[simp] theorem execCommitApply_lasting (s : State) : Lasts s (execCommitApply s) := by
  unfold execCommitApply
  split <;> simp

@[simp] theorem execCfgConfirm_lasting (d) (s : State) : Lasts s (execCfgConfirm d s) := by
  refine hostCommand_lasts s fun iss s => ?_
  repeat' split
  all_goals simp

@[simp] theorem execCfgRollback_lasting (d) (s : State) : Lasts s (execCfgRollback d s) := by
  refine hostCommand_lasts s fun iss s => ?_
  repeat' split
  all_goals simp

@[simp] theorem execWindowEnd_lasting (s : State) : Lasts s (execWindowEnd s) := by
  unfold execWindowEnd
  split <;> simp

@[simp] theorem makeReturn_lasting (kind) (s : State) : lasting (makeReturn kind s) = lasting s := by
  unfold makeReturn
  dsimp only
  repeat' split
  all_goals simp

@[simp] theorem execFallbackReturn_lasting (s : State) : Lasts s (execFallbackReturn s) := by
  unfold execFallbackReturn
  dsimp only
  repeat' split
  all_goals simp

@[simp] theorem emptyStaged_lasting (s : State) : lasting (emptyStaged s) = lasting s := by simp [emptyStaged]

@[simp] theorem execStagedCopyRebuild_lasting (verified) (s : State) : Lasts s (execStagedCopyRebuild verified s) := by
  unfold execStagedCopyRebuild
  split <;> simp

@[simp] theorem storeItem_lasting (i) (s : State) : lasting (storeItem i s) = lasting s := by
  unfold storeItem
  dsimp only
  repeat' split
  all_goals simp

@[simp] theorem flashDone_lasting (i rest) (s : State) : lasting (flashDone i rest s) = lasting s := by simp [flashDone]

@[simp] theorem flashFails_lasting (i) (s : State) : lasting (flashFails i s) = lasting s := by simp [flashFails]

@[simp] theorem execFlashWriteDone_lasting (ok) (s : State) : Lasts s (execFlashWriteDone ok s) := by
  unfold execFlashWriteDone
  split <;> simp

@[simp] theorem execFlashRetry_lasting (s : State) : Lasts s (execFlashRetry s) := by simp [execFlashRetry]

@[simp] theorem execPersistFlush_lasting (s : State) : Lasts s (execPersistFlush s) := by
  unfold execPersistFlush
  split <;> simp

@[simp] theorem execLinkMap_lasting (d) (s : State) : Lasts s (execLinkMap d s) := by
  unfold execLinkMap
  split <;> simp

/-! ### Machine/Boot -/

@[simp] theorem execPowerGood_lasting (straps refclkSel) (s : State) : Lasts s (execPowerGood straps refclkSel s) := by simp [execPowerGood]

@[simp] theorem execRefclkQualified_lasting (hz) (s : State) : Lasts s (execRefclkQualified hz s) := by simp [execRefclkQualified]

@[simp] theorem execPllLockLost_lasting (s : State) : Lasts s (execPllLockLost s) := by simp [execPllLockLost]

@[simp] theorem startWarm_lasting (cause watchdog) (s : State) : lasting (startWarm cause watchdog s) = lasting s := by simp [startWarm]

@[simp] theorem execGlbResetWarm_lasting (key) (s : State) : Lasts s (execGlbResetWarm key s) := by simp [execGlbResetWarm]

@[simp] theorem execWatchdogExpiry_lasting (s : State) : Lasts s (execWatchdogExpiry s) := by simp [execWatchdogExpiry]

@[simp] theorem reportCopies_lasting {n : Nat} (ok : Vector Bool n) (s : State) : lasting (reportCopies ok s) = lasting s :=
  foldl_lasting (fun _ _ => ite_lasting rfl (raise_lasting ..)) _ _

@[simp] theorem applyMap_lasting (s : State) : lasting (applyMap s) = lasting s := by simp [applyMap]

@[simp] theorem checkKeys_lasting (keys) (s : State) : lasting (checkKeys keys s) = lasting s := by
  unfold checkKeys
  extract_lets bad t
  have kept : (updAll t.sec.owner fun i k => { k with usable := k.programmed && keys[i] }).map fusesOf = t.sec.owner.map fusesOf :=
    map_updAll fun _ _ => rfl
  exact (congrArg (fun v => (ringOwners t.hif, t.sec.minSvn, v)) kept).trans (reportCopies_lasting ..)

@[simp] theorem zeroBanks_lasting (skip) (s : State) : lasting (zeroBanks skip s) = lasting s := by simp [zeroBanks]

@[simp] theorem runFirmware_lasting (slot f maps ledgers keys skip) (s : State) :
    lasting (runFirmware slot f maps ledgers keys skip s) = lasting s := by
  unfold runFirmware
  extract_lets fall booted runs raised mapped loaded
  calc lasting (checkKeys keys loaded)
    _ = lasting loaded := checkKeys_lasting ..
    _ = lasting mapped := by simp only [loaded]; split <;> simp
    _ = lasting raised := by simp only [mapped]; simp
    _ = lasting runs := by simp only [raised]; split <;> simp
    _ = lasting booted := by simp only [runs]; simp
    _ = lasting s := by simp only [booted]; simp

@[simp] theorem execFwRun_lasting (okA okB maps ledgers keys skip) (s : State) : Lasts s (execFwRun okA okB maps ledgers keys skip s) := by
  unfold execFwRun
  dsimp only
  split
  · exact lasts_next.mpr rfl
  · split <;> simp

@[simp] theorem loadSlots_lasting (s : State) : lasting (loadSlots s) = lasting s := by simp [loadSlots]

@[simp] theorem bootApply_lasting (source x) (s : State) : lasting (bootApply source x s) = lasting s := by simp [bootApply]

@[simp] theorem bootNothing_lasting (s : State) : lasting (bootNothing s) = lasting s := by simp [bootNothing]

@[simp] theorem bootReturn_lasting (verified fails) (s : State) : lasting (bootReturn verified fails s) = lasting s := by
  unfold bootReturn
  dsimp only
  repeat' split
  all_goals simp

@[simp] theorem bootStaged_lasting (verified) (s : State) : lasting (bootStaged verified s) = lasting s := by
  simp only [bootStaged]
  repeat' split
  all_goals simp

@[simp] theorem trimShed_lasting (s : State) : lasting (trimShed s) = lasting s := by simp [trimShed]

@[simp] theorem execReady_lasting (verified) (s : State) : Lasts s (execReady verified s) := by
  unfold execReady
  dsimp only
  repeat' split
  all_goals simp

@[simp] theorem execPeakRead_lasting (port) (s : State) : Lasts s (execPeakRead port s) := by simp [execPeakRead]

/-! ### Machine/Collector -/

@[simp] theorem takeAssertion_lasting (cycleStamp first? coincident a) (s : State) :
    lasting (takeAssertion cycleStamp first? coincident a s) = lasting s := by simp [takeAssertion]

@[simp] theorem takeFirst_lasting (cycleStamp l) (s : State) : lasting (takeFirst cycleStamp l s) = lasting s := by
  unfold takeFirst
  split <;> simp

@[simp] theorem samplePairs_lasting (bad) (s : State) : lasting (samplePairs bad s) = lasting s := by simp [samplePairs]

@[simp] theorem reportBroken_lasting (i) (s : State) : lasting (reportBroken i s) = lasting s := by simp [reportBroken]

@[simp] theorem takeAll_lasting (cycleStamp held l) (s : State) : lasting (takeAll cycleStamp held l s) = lasting s := by simp [takeAll]

@[simp] theorem collect_lasting (bad) (s : State) : lasting (collect bad s) = lasting s := by simp [collect]

/-! ### Machine/Synths -/

@[simp] theorem execSynthCal_lasting (d) (s : State) : Lasts s (execSynthCal d s) := by
  refine hostCommand_lasts s fun iss s => ?_
  dsimp only
  repeat' split
  all_goals simp

@[simp] theorem execSynthCalDone_lasting (tile) (s : State) : Lasts s (execSynthCalDone tile s) := by
  unfold execSynthCalDone
  split <;> simp

@[simp] theorem execSynthHandover_lasting (d) (s : State) : Lasts s (execSynthHandover d s) := by
  refine hostCommand_lasts s fun iss s => ?_
  dsimp only
  repeat' split
  all_goals simp

@[simp] theorem execTempHandoverTrigger_lasting (tile) (s : State) : Lasts s (execTempHandoverTrigger tile s) := by
  unfold execTempHandoverTrigger
  dsimp only
  repeat' split
  all_goals simp

@[simp] theorem execTwinPrepared_lasting (tile) (s : State) : Lasts s (execTwinPrepared tile s) := by
  unfold execTwinPrepared
  dsimp only
  repeat' split
  all_goals simp

@[simp] theorem applyBand_lasting (t) (s : State) : lasting (applyBand t s) = lasting s := by simp [applyBand]

@[simp] theorem execHandoverBoundary_lasting (tile) (s : State) : Lasts s (execHandoverBoundary tile s) := by
  unfold execHandoverBoundary
  dsimp only
  repeat' split
  all_goals simp

@[simp] theorem execHandoverRecord_lasting (tile phaseStep) (s : State) : Lasts s (execHandoverRecord tile phaseStep s) := by
  unfold execHandoverRecord
  dsimp only
  repeat' split
  all_goals simp

@[simp] theorem execTwinFailed_lasting (tile) (s : State) : Lasts s (execTwinFailed tile s) := by
  unfold execTwinFailed
  dsimp only
  repeat' split
  all_goals simp

@[simp] theorem execTwinRetry_lasting (tile) (s : State) : Lasts s (execTwinRetry tile s) := by
  unfold execTwinRetry
  split <;> simp

@[simp] theorem loadShadow_lasting (t) (s : State) : lasting (loadShadow t s) = lasting s := by simp [loadShadow]

@[simp] theorem execBandDeclared_lasting (zone up) (s : State) : Lasts s (execBandDeclared zone up s) := by
  unfold execBandDeclared
  dsimp only
  repeat' split
  all_goals simp

@[simp] theorem execBandTableApply_lasting (tile) (s : State) : Lasts s (execBandTableApply tile s) := by
  unfold execBandTableApply
  dsimp only
  repeat' split
  all_goals simp

/-! ### Machine/Injection -/

@[simp] theorem leaves_lasting {o} {s : State} (h : Lasts s o) : lasting (leaves o s) = lasting s := by
  unfold leaves
  split
  · exact h _ rfl
  · rfl

@[simp] theorem injectRing_lasting (n) (s : State) : lasting (injectRing n s) = lasting s := by
  unfold injectRing
  dsimp only
  repeat' split
  all_goals simp

@[simp] theorem injectTile_lasting (src unit) (s : State) : lasting (injectTile src unit s) = lasting s := by
  unfold injectTile
  dsimp only
  split <;> simp

@[simp] theorem injectSite_lasting (src inst) (s : State) : lasting (injectSite src inst s) = lasting s := by
  simp only [injectSite]
  repeat' split
  all_goals simp

@[simp] theorem injectFabric_lasting (src unit) (s : State) : lasting (injectFabric src unit s) = lasting s := by
  unfold injectFabric
  repeat' split
  all_goals simp

@[simp] theorem injectAnalog_lasting (src unit inst) (s : State) : lasting (injectAnalog src unit inst s) = lasting s := by
  simp only [injectAnalog]
  repeat' split
  all_goals simp

@[simp] theorem injectThermal_lasting (src inst) (s : State) : lasting (injectThermal src inst s) = lasting s := by
  unfold injectThermal
  split <;> simp

@[simp] theorem injectResidue_lasting (src unit) (s : State) : lasting (injectResidue src unit s) = lasting s := by
  unfold injectResidue
  split <;> simp

@[simp] theorem injectBlock_lasting (e) (s : State) : lasting (injectBlock e s) = lasting s := by
  simp only [injectBlock]
  repeat' split
  all_goals simp

@[simp] theorem injectReaction_lasting (src unit inst) (s : State) : lasting (injectReaction src unit inst s) = lasting s := by
  unfold injectReaction
  have block : lasting (((targetOf .engine 64 unit).map fun e => injectBlock e s).getD s) = lasting s := by
    cases targetOf .engine 64 unit <;> simp
  repeat' refine ite_lasting ?_ ?_
  all_goals simp [block]

@[simp] theorem fireInjection_lasting (x) (s : State) : lasting (fireInjection x s) = lasting s := by
  unfold fireInjection
  extract_lets before quiet reacts
  calc lasting (onFlt _ reacts)
    _ = lasting reacts := onFlt_lasting ..
    _ = lasting quiet := injectReaction_lasting ..
    _ = lasting s := onFlt_lasting ..

@[simp] theorem execFaultInject_lasting (d) (s : State) : Lasts s (execFaultInject d s) := by
  refine hostCommand_lasts s fun iss s => ?_
  repeat' split
  all_goals simp

@[simp] theorem execInjectionFire_lasting (source) (s : State) : Lasts s (execInjectionFire source s) := by
  unfold execInjectionFire
  split <;> simp

@[simp] theorem execInjectionHoldEnd_lasting (source) (s : State) : Lasts s (execInjectionHoldEnd source s) := by
  unfold execInjectionHoldEnd
  split <;> simp

/-! ### Machine/Faults -/

@[simp] theorem enterFatal_lasting (stamp) (s : State) : lasting (enterFatal stamp s) = lasting s := by simp [enterFatal]

@[simp] theorem testNamed_lasting (a unit) (s : State) : lasting (testNamed a s unit) = lasting s := by
  unfold testNamed
  split <;> simp

@[simp] theorem testFor_lasting (a) (s : State) : lasting (testFor a s) = lasting s := by simp [testFor]

@[simp] theorem pulsesDone_lasting (s : State) : lasting (pulsesDone s) = lasting s := by simp [pulsesDone]

@[simp] theorem execCollectionCycle_lasting (bad) (s : State) : Lasts s (execCollectionCycle bad s) := by simp [execCollectionCycle]

@[simp] theorem selftestBank_lasting (iss b tgt) (s : State) : lasting (selftestBank iss b tgt s) = lasting s := by simp [selftestBank]

@[simp] theorem selftestEngine_lasting (iss e tgt) (s : State) : lasting (selftestEngine iss e tgt s) = lasting s := by simp [selftestEngine]

@[simp] theorem selftestLane_lasting (iss l tgt) (s : State) : lasting (selftestLane iss l tgt s) = lasting s := by simp [selftestLane]

@[simp] theorem selftestPort_lasting (iss k p retired) (s : State) : lasting (selftestPort iss k p retired s) = lasting s := by simp [selftestPort]

@[simp] theorem execSelftest_lasting (d) (s : State) : Lasts s (execSelftest d s) := by
  refine hostCommand_lasts s fun iss s => ?_
  split
  · simp
  · extract_lets body
    have keeps : ∀ f, body = some f → lasting (f s) = lasting s := by
      intro f h
      simp only [body] at h
      repeat' split at h
      all_goals cases h
      all_goals simp
    split
    · simp
    · simp
    · exact keeps _ ‹_›

@[simp] theorem clearSource_lasting (i) (s : State) : lasting (clearSource i s) = lasting s := by
  unfold clearSource
  split <;> simp

@[simp] theorem clearOne_lasting (iss i) (s : State) : lasting (clearOne iss i s) = lasting s := by simp [clearOne]

@[simp] theorem clearDevice_lasting (iss mask) (s : State) : lasting (clearDevice iss mask s) = lasting s := by simp [clearDevice]

@[simp] theorem execFaultClear_lasting (d) (s : State) : Lasts s (execFaultClear d s) := by
  simp only [execFaultClear]
  repeat' split
  all_goals simp

/-! ### Machine/Registers -/

@[simp] theorem inArray_lasting {n base stride off : Nat} {f : Fin n → Nat → State → State} {s : State}
    (h : ∀ i r, lasting (f i r s) = lasting s) : lasting (inArray n base stride off f s) = lasting s := by
  unfold inArray
  split
  · exact h _ _
  · rfl

@[simp] theorem writeGlb_lasting (off v) (s : State) : lasting (writeGlb off v s) = lasting s := by simp [writeGlb]

@[simp] theorem writePair_lasting (n off v) (s : State) : lasting (writePair n off v s) = lasting s := by
  unfold writePair
  dsimp only
  repeat' split
  all_goals simp

@[simp] theorem writeEventRing_lasting (off v) (s : State) : lasting (writeEventRing off v s) = lasting s := by simp [writeEventRing]

@[simp] theorem writeCapRing_lasting (pf c off v) (s : State) : lasting (writeCapRing pf c off v s) = lasting s := by simp [writeCapRing]

@[simp] theorem writeOwnHif_lasting (fn off v) (s : State) : lasting (writeOwnHif fn off v s) = lasting s := by
  unfold writeOwnHif
  extract_lets vec
  have keeps (f : Vec → Vec) (i : Fin 64) (s : State) : lasting (vec f i s) = lasting s := ite_lasting (by simp) rfl
  repeat' refine ite_lasting ?_ ?_
  all_goals simp [keeps]

@[simp] theorem writeHif_lasting (off v) (s : State) : lasting (writeHif off v s) = lasting s := by simp [writeHif]

@[simp] theorem writeVf_lasting (fn off v) (s : State) : lasting (writeVf fn off v s) = lasting s := by
  simp only [writeVf]
  repeat' split
  all_goals simp

@[simp] theorem writeTim_lasting (off v) (s : State) : lasting (writeTim off v s) = lasting s := by simp [writeTim]

@[simp] theorem writeThm_lasting (off v) (s : State) : lasting (writeThm off v s) = lasting s := by simp [writeThm]

@[simp] theorem writeFlt_lasting (off v) (s : State) : lasting (writeFlt off v s) = lasting s := by simp [writeFlt]

@[simp] theorem writeEvr_lasting (off v) (s : State) : lasting (writeEvr off v s) = lasting s := by simp [writeEvr]

@[simp] theorem writePmc_lasting (off v) (s : State) : lasting (writePmc off v s) = lasting s := by simp [writePmc]

@[simp] theorem writeMem_lasting (off v) (s : State) : lasting (writeMem off v s) = lasting s := by simp [writeMem]

@[simp] theorem writeForce_lasting (t enable band) (s : State) : lasting (writeForce t enable band s) = lasting s := by simp [writeForce]

@[simp] theorem writeTilePorts_lasting (t off v) (s : State) : lasting (writeTilePorts t off v s) = lasting s := by
  unfold writeTilePorts
  split <;> simp

@[simp] theorem writeTileDfe_lasting (t off v) (s : State) : lasting (writeTileDfe t off v s) = lasting s := by simp [writeTileDfe]

@[simp] theorem writeTile_lasting (t off v) (s : State) : lasting (writeTile t off v s) = lasting s := by simp [writeTile]

@[simp] theorem writeSlc_lasting (off v) (s : State) : lasting (writeSlc off v s) = lasting s := by simp [writeSlc]

@[simp] theorem writeCen_lasting (off v) (s : State) : lasting (writeCen off v s) = lasting s := by simp [writeCen]

@[simp] theorem writeLnk_lasting (off v) (s : State) : lasting (writeLnk off v s) = lasting s := by simp [writeLnk]

@[simp] theorem writeFem_lasting (n off v) (s : State) : lasting (writeFem n off v s) = lasting s := by simp [writeFem]

@[simp] theorem writeFec_lasting (off v) (s : State) : lasting (writeFec off v s) = lasting s := by simp [writeFec]

@[simp] theorem writeMon_lasting (off v) (s : State) : lasting (writeMon off v s) = lasting s := by simp [writeMon]

@[simp] theorem writePlc_lasting (off v) (s : State) : lasting (writePlc off v s) = lasting s := by simp [writePlc]

@[simp] theorem writeSec_lasting (off v) (s : State) : lasting (writeSec off v s) = lasting s := by
  unfold writeSec
  dsimp only
  repeat' split
  all_goals simp

@[simp] theorem writeRegion_lasting (a v) (s : State) : lasting (writeRegion a v s) = lasting s := by simp [writeRegion]

@[simp] theorem writeWord_lasting (fn off v) (s : State) : lasting (writeWord fn off v s) = lasting s := by simp [writeWord]

@[simp] theorem execRegisterWrite_lasting (fn offset size value) (s : State) : Lasts s (execRegisterWrite fn offset size value s) := by
  simp [execRegisterWrite]

/-! ### Machine/RegisterRead -/

@[simp] theorem readWide_lasting (fn base v i size) (s : State) : lasting (readWide fn base v i size s).2 = lasting s := by
  unfold readWide
  split <;> simp

@[simp] theorem readEffect_lasting (a) (s : State) : lasting (readEffect a s) = lasting s := by
  simp only [readEffect]
  repeat' split
  all_goals simp

@[simp] theorem readBar0_lasting (fn off size) (s : State) : lasting (readBar0 fn off size s).2 = lasting s := by
  unfold readBar0
  dsimp only
  repeat' split
  all_goals simp

@[simp] theorem readBar_lasting (fn bar off size) (s : State) : lasting (readBar fn bar off size s).2 = lasting s := by
  simp only [readBar]
  repeat' split
  all_goals simp

@[simp] theorem execWideRegisterCapture_lasting (fn bar offset size) (s : State) : Lasts s (execWideRegisterCapture fn bar offset size s) := by
  simp [execWideRegisterCapture]

/-! ### Machine/Dump -/

@[simp] theorem dumpEnds_lasting (toHost cut) (s : State) : lasting (dumpEnds toHost cut s) = lasting s := by simp [dumpEnds]

@[simp] theorem execDumpAssembled_lasting (s : State) : Lasts s (execDumpAssembled s) := by
  unfold execDumpAssembled
  dsimp only
  repeat' split
  all_goals simp

@[simp] theorem execDumpWritten_lasting (ok) (s : State) : Lasts s (execDumpWritten ok s) := by
  unfold execDumpWritten
  dsimp only
  repeat' split
  all_goals simp

@[simp] theorem registerDump_lasting (iss a n) (s : State) : lasting (registerDump iss a n s) = lasting s := by
  unfold registerDump
  dsimp only
  repeat' split
  all_goals simp

@[simp] theorem execDumpRegister_lasting (d) (s : State) : Lasts s (execDumpRegister d s) := by
  unfold execDumpRegister
  split <;> simp

@[simp] theorem execDumpRelease_lasting (s : State) : Lasts s (execDumpRelease s) := by simp [execDumpRelease]

/-! ### Machine/Security -/

@[simp] theorem setSlot_lasting (b f) (s : State) : lasting (setSlot b f s) = lasting s := by simp [setSlot]

@[simp] theorem loadFirmware_lasting (iss d bs proof) (s : State) : lasting (loadFirmware iss d bs proof s) = lasting s := by
  simp only [loadFirmware]
  repeat' split
  all_goals simp

@[simp] theorem activateFirmware_lasting (iss) (s : State) : lasting (activateFirmware iss s) = lasting s := by
  unfold activateFirmware
  split <;> simp

@[simp] theorem runFirmwareSlot_lasting (b) (s : State) : lasting (runFirmwareSlot b s) = lasting s := by simp [runFirmwareSlot]

@[simp] theorem activated_lasting (iss) (s : State) : lasting (activated iss s) = lasting s := by simp [activated]

@[simp] theorem activationFails_lasting (iss st) (s : State) : lasting (activationFails iss st s) = lasting s := by simp [activationFails]

@[simp] theorem execSupervisorRestartDone_lasting (fin) (s : State) : Lasts s (execSupervisorRestartDone fin s) := by
  unfold execSupervisorRestartDone
  split <;> simp

@[simp] theorem execFwWindowExpiry_lasting (s : State) : Lasts s (execFwWindowExpiry s) := by
  unfold execFwWindowExpiry
  split <;> simp

/-! ### Machine/Management -/

@[simp] theorem respond_lasting (cmd inst st payload) (s : State) : lasting (respond cmd inst st payload s) = lasting s := by simp [respond]

@[simp] theorem alwaysOn_lasting {body : State → State} {s : State} (h : lasting (body s) = lasting s) : lasting (alwaysOn body s) = lasting s :=
  ite_lasting h rfl

@[simp] theorem gated_lasting {recovery cmd inst} {body : State → State} {s : State} (h : lasting (body s) = lasting s) :
    lasting (gated recovery cmd inst body s) = lasting s := by
  unfold gated
  refine ite_lasting rfl ?_
  split
  · simp
  · exact h

@[simp] theorem execHalt_lasting (inst) (s : State) : Lasts s (execHalt inst s) := by simp [execHalt]

@[simp] theorem execRelease_lasting (inst) (s : State) : Lasts s (execRelease inst s) := by simp [execRelease]

@[simp] theorem execWarmReset_lasting (inst payload) (s : State) : Lasts s (execWarmReset inst payload s) := by simp [execWarmReset]

@[simp] theorem execFaultRead_lasting (inst selector) (s : State) : Lasts s (execFaultRead inst selector s) := by simp [execFaultRead]

@[simp] theorem execCfgInfo_lasting (inst) (s : State) : Lasts s (execCfgInfo inst s) := by simp [execCfgInfo]

@[simp] theorem execDumpRead_lasting (inst offset length) (s : State) : Lasts s (execDumpRead inst offset length s) := by
  refine lasts_next.mpr (alwaysOn_lasting ?_)
  dsimp only
  split
  · simp
  · simp

@[simp] theorem execFwWrite_lasting (inst offset bytes) (s : State) : Lasts s (execFwWrite inst offset bytes s) := by
  refine lasts_next.mpr (gated_lasting ?_)
  dsimp only
  split <;> simp

@[simp] theorem execFwFinish_lasting (inst proof) (s : State) : Lasts s (execFwFinish inst proof s) := by
  refine lasts_next.mpr (gated_lasting ?_)
  dsimp only
  split
  · simp
  · split <;> simp

@[simp] theorem execDebugChallenge_lasting (inst) (s : State) : Lasts s (execDebugChallenge inst s) := by simp [execDebugChallenge]

@[simp] theorem unlockFails_lasting (s : State) : lasting (unlockFails s) = lasting s := by simp [unlockFails]

@[simp] theorem execDebugUnlock_lasting (inst level sigOk) (s : State) : Lasts s (execDebugUnlock inst level sigOk s) := by simp [execDebugUnlock]

@[simp] theorem execNonceExpiry_lasting (s : State) : Lasts s (execNonceExpiry s) := by
  unfold execNonceExpiry
  split <;> simp

@[simp] theorem controlAnswer_lasting (data) (s : State) : Lasts s (controlAnswer data s) := by simp [controlAnswer]

@[simp] theorem execSetEndpointId_lasting (eid) (s : State) : Lasts s (execSetEndpointId eid s) := by simp [execSetEndpointId]

@[simp] theorem execGetEndpointId_lasting (s : State) : Lasts s (execGetEndpointId s) := by simp [execGetEndpointId]

@[simp] theorem execGetMctpVersionSupport_lasting (s : State) : Lasts s (execGetMctpVersionSupport s) := by simp [execGetMctpVersionSupport]

@[simp] theorem execGetMessageTypeSupport_lasting (s : State) : Lasts s (execGetMessageTypeSupport s) := by simp [execGetMessageTypeSupport]

@[simp] theorem execGetVendorDefinedMessageSupport_lasting (s : State) : Lasts s (execGetVendorDefinedMessageSupport s) := by
  simp [execGetVendorDefinedMessageSupport]

@[simp] theorem execMctpPecDrop_lasting (s : State) : Lasts s (execMctpPecDrop s) := by simp [execMctpPecDrop]

@[simp] theorem execSmbusTimeout_lasting (s : State) : Lasts s (execSmbusTimeout s) := by simp [execSmbusTimeout]

/-! ### Machine/Attest -/

@[simp] theorem pldm_lasting (body) (s : State) : Lasts s (pldm body s) := by simp [pldm]

@[simp] theorem execGettid_lasting (s : State) : Lasts s (execGettid s) := by simp [execGettid]

@[simp] theorem execGetpldmversion_lasting (s : State) : Lasts s (execGetpldmversion s) := by simp [execGetpldmversion]

@[simp] theorem execGetpldmtypes_lasting (s : State) : Lasts s (execGetpldmtypes s) := by simp [execGetpldmtypes]

@[simp] theorem execGetpldmcommands_lasting (type) (s : State) : Lasts s (execGetpldmcommands type s) := by simp [execGetpldmcommands]

@[simp] theorem execGetpdrrepositoryinfo_lasting (s : State) : Lasts s (execGetpdrrepositoryinfo s) := by simp [execGetpdrrepositoryinfo]

@[simp] theorem execGetpdr_lasting (record) (s : State) : Lasts s (execGetpdr record s) := by simp [execGetpdr]

@[simp] theorem execGetsensorreading_lasting (sensor) (s : State) : Lasts s (execGetsensorreading sensor s) := by simp [execGetsensorreading]

@[simp] theorem execGetstatesensorreadings_lasting (sensor) (s : State) : Lasts s (execGetstatesensorreadings sensor s) := by
  simp [execGetstatesensorreadings]

@[simp] theorem spdmError_lasting (e) (s : State) : lasting (spdmError e s) = lasting s := by simp [spdmError]

@[simp] theorem spdmResponse_lasting (code data) (s : State) : lasting (spdmResponse code data s) = lasting s := by simp [spdmResponse]

@[simp] theorem onNegotiation_lasting (t f) (s : State) : lasting (onNegotiation t f s) = lasting s := by
  unfold onNegotiation
  split <;> simp

@[simp] theorem spdm_lasting {t} {body : State → State} {s : State} (h : lasting (body s) = lasting s) : Lasts s (spdm t body s) := by
  refine lasts_next.mpr (ite_lasting rfl ?_)
  split
  · simp
  · simp [spdmError]
  · exact h

@[simp] theorem negotiated_lasting {t need} {body : State → State} {s : State} (h : lasting (body s) = lasting s) :
    Lasts s (negotiated t need body s) :=
  spdm_lasting (ite_lasting h (by simp [spdmError]))

@[simp] theorem execGetVersion_lasting (t) (s : State) : Lasts s (execGetVersion t s) := by simp [execGetVersion]

@[simp] theorem execGetCapabilities_lasting (t) (s : State) : Lasts s (execGetCapabilities t s) := by simp [execGetCapabilities]

@[simp] theorem execNegotiateAlgorithms_lasting (t offered) (s : State) : Lasts s (execNegotiateAlgorithms t offered s) := by
  simp [execNegotiateAlgorithms]

@[simp] theorem execGetDigests_lasting (t) (s : State) : Lasts s (execGetDigests t s) := by simp [execGetDigests]

@[simp] theorem execGetCertificate_lasting (t slot offset length) (s : State) : Lasts s (execGetCertificate t slot offset length s) := by
  simp [execGetCertificate]

@[simp] theorem withSignature_lasting (code data) (s : State) : lasting (withSignature code data s) = lasting s := by simp [withSignature]

@[simp] theorem execChallenge_lasting (t slot) (s : State) : Lasts s (execChallenge t slot s) := by simp [execChallenge]

@[simp] theorem execGetMeasurements_lasting (t index signed) (s : State) : Lasts s (execGetMeasurements t index signed s) := by
  simp [execGetMeasurements]

@[simp] theorem execSpdmUnsupportedRequest_lasting (t) (s : State) : Lasts s (execSpdmUnsupportedRequest t s) := by simp [execSpdmUnsupportedRequest]

/-! ### Machine/Jtag -/

@[simp] theorem jtagRead_lasting (off size) (s : State) : lasting (jtagRead off size s) = lasting s := by simp [jtagRead]

@[simp] theorem jtagWrite_lasting (off size value) (s : State) : lasting (jtagWrite off size value s) = lasting s := by simp [jtagWrite]

@[simp] theorem jtagTrace_lasting (s : State) : lasting (jtagTrace s) = lasting s := by simp [jtagTrace]

@[simp] theorem execJtagInstruction_lasting (op) (s : State) : Lasts s (execJtagInstruction op s) := by
  unfold execJtagInstruction
  split <;> simp

/-! ### Machine/Tick -/

@[simp] theorem clockCounters_lasting (s : State) : lasting (clockCounters s) = lasting s := by simp [clockCounters]

@[simp] theorem bootOn_lasting (s : State) : lasting (bootOn s) = lasting s := by simp [bootOn]

@[simp] theorem writeIndices_lasting (s : State) : lasting (writeIndices s) = lasting s := by simp [writeIndices]

@[simp] theorem tick_lasting (s : State) : Lasts s (tick s) := by simp [tick]

/-! ### Machine/Idle -/

@[simp] theorem leaveHeld_lasting (r) (s : State) : lasting (leaveHeld r s) = lasting s := by simp [leaveHeld]

end Sys2Proof.Machine
end

section
/-! PROOFS. RING_0 stays with PF0 (O6): the commands that change what lasts, and then every step. -/
namespace Sys2Proof.Machine
open Sys2Proof

/-! ### The commands that change what lasts -/

/-- The commands that may: the resets that take every ring pair, the owner register, and those that program one-time-programmable memory. -/
def changesLasting : Instr → Bool
  | .powerFail | .sysReset .. | .warmResetSequence | .perstAssert | .ringOwnerWrite .. | .fwActivate .. | .ownerKey .. => true
  | _ => false

theorem exec_lasting {c : Instr} (h : changesLasting c = false) (s : State) : Lasts s (exec c s) := by
  cases c
  case powerFail | sysReset | warmResetSequence | perstAssert | ringOwnerWrite | fwActivate | ownerKey => cases h
  all_goals simp only [exec]
  all_goals simp

/-- A step of the machine leaves RING_0 with PF0. -/
def KeepsRingZero (s : State) (o : Host.Outcome State Fault Refusal) : Prop :=
  ∀ t, o = .next t → ringZeroIsPf0 s.hif → ringZeroIsPf0 t.hif

theorem keepsRingZero_next {s t : State} (h : ringZeroIsPf0 s.hif → ringZeroIsPf0 t.hif) : KeepsRingZero s (.next t) := by
  rintro _ ⟨⟩
  exact h

/-- The owners of the ring pairs say to whom RING_0 belongs. -/
theorem ringZeroIsPf0_iff {h : Hif} : ringZeroIsPf0 h ↔ (ringOwners h)[0] = 0 := by
  simp [ringZeroIsPf0, ← map_owner]

theorem ringZero_of_owners {s t : State} (h : ringOwners t.hif = ringOwners s.hif) (z : ringZeroIsPf0 s.hif) : ringZeroIsPf0 t.hif := by
  rw [ringZeroIsPf0_iff, h]
  exact ringZeroIsPf0_iff.mp z

theorem lasting_owners {s t : State} (h : lasting t = lasting s) : ringOwners t.hif = ringOwners s.hif := congrArg Prod.fst h

theorem Lasts.keepsRingZero {s : State} {o : Host.Outcome State Fault Refusal} (h : Lasts s o) : KeepsRingZero s o :=
  fun t e => ringZero_of_owners (lasting_owners (h t e))

/-! #### The resets that give every pair to PF0 (R93 to R95) -/

/-- Every pair at its reset value belongs to PF0. -/
theorem ringZero_of_reset {h : Hif} {v : Vector Ring 64} (e : h.rings = v.map fun x => { ringReset with era := x.era + 1 }) :
    ringZeroIsPf0 h := by
  simp [ringZeroIsPf0, e, ringReset]

theorem execPowerFail_ringZero (s : State) : KeepsRingZero s (execPowerFail s) := keepsRingZero_next fun _ => ringZero_of_reset rfl

theorem execSysReset_ringZero (straps sel) (s : State) : KeepsRingZero s (execSysReset straps sel s) :=
  keepsRingZero_next fun _ => ringZero_of_reset rfl

theorem execPerstAssert_ringZero (s : State) : KeepsRingZero s (execPerstAssert s) := keepsRingZero_next fun _ => ringZero_of_reset rfl

/-- The blocks after a warm reset check their zones and calm down, which moves no ring pair (R97). -/
theorem booted_owners (s : State) : ringOwners ((indices 6).foldl checkCold (calm (warmReset s))).hif = ringOwners (warmReset s).hif :=
  lasting_owners ((foldl_lasting (fun _ _ => checkCold_lasting ..) _ _).trans (calm_lasting ..))

theorem warmReset_ringZero (s : State) : ringZeroIsPf0 (warmReset s).hif := ringZero_of_reset (v := (dropRadioStates s).hif.rings) rfl

theorem execWarmResetSequence_ringZero (s : State) : KeepsRingZero s (execWarmResetSequence s) := by
  have booted := ringZero_of_owners (booted_owners s) (warmReset_ringZero s)
  unfold execWarmResetSequence
  dsimp only
  split
  · exact keepsRingZero_next fun _ => booted
  · exact keepsRingZero_next fun _ => ringZero_of_owners (lasting_owners (raise_lasting ..)) booted
  · exact keepsRingZero_next id

/-! #### The owner register (R49) -/

theorem execRingOwnerWrite_ringZero (ring owner) (s : State) : KeepsRingZero s (execRingOwnerWrite ring owner s) := by
  refine keepsRingZero_next fun z => ?_
  unfold viaBar
  split
  · exact z
  · split
    · dsimp only
      split
      · exact ringZero_of_owners (lasting_owners (onFn_lasting ..)) z
      · next taken =>
        by_cases h : ring = 0
        · subst h
          have pf : owner = 0 := by simp at taken; exact taken.1.2
          simp [ringZeroIsPf0, onRing, upd, pf]
        · exact (congrArg Ring.owner (onRing_other (Ne.symm h) ..)).trans z
    · exact ringZero_of_owners (lasting_owners (emit_lasting ..)) z

/-! #### What programs one-time-programmable memory (R651, R664) -/

/-- A host command keeps the owners that its body keeps. -/
theorem hostCommand_owners {op self d} {body : Issue → State → State} (h : ∀ i t, ringOwners (body i t).hif = ringOwners t.hif) (s : State) :
    ringOwners (hostCommand op self d body s).hif = ringOwners s.hif := by
  have starts : ringOwners (startCommand d s).hif = ringOwners s.hif := lasting_owners (startCommand_lasting ..)
  unfold hostCommand
  split
  · exact lasting_owners (holdCommand_lasting ..)
  · dsimp only
    split
    · exact (lasting_owners (refuse_lasting ..)).trans starts
    · exact (h _ _).trans starts

theorem confirmFirmware_owners (iss raiseSvn) (s : State) : ringOwners (confirmFirmware iss raiseSvn s).hif = ringOwners s.hif := by
  unfold confirmFirmware
  split
  · exact lasting_owners (refuse_lasting ..)
  · exact congrArg Prod.fst (complete_lasting ..)

theorem execFwActivate_ringZero (d proof) (s : State) : KeepsRingZero s (execFwActivate d proof s) := by
  refine keepsRingZero_next (ringZero_of_owners (hostCommand_owners (fun iss s => ?_) s))
  split
  · exact lasting_owners (refuse_lasting ..)
  · split
    · split
      · exact lasting_owners (bufferError_lasting ..)
      · exact lasting_owners (loadFirmware_lasting ..)
    · split
      · exact lasting_owners (activateFirmware_lasting ..)
      · exact confirmFirmware_owners ..

theorem programKey_owners (i hash) (s : State) : ringOwners (programKey i hash s).hif = ringOwners s.hif :=
  congrArg Prod.fst (queueFlash_lasting ..)

theorem keyChange_owners {op sigOk} {s t : State} (h : keyChange op sigOk s = .ok t) : ringOwners t.hif = ringOwners s.hif := by
  unfold keyChange at h
  dsimp only at h
  repeat' split at h
  all_goals cases h
  · apply programKey_owners
  · apply programKey_owners
  · rfl

theorem execOwnerKey_ringZero (inst op sigOk) (s : State) : KeepsRingZero s (execOwnerKey inst op sigOk s) := by
  refine keepsRingZero_next (ringZero_of_owners ?_)
  unfold gated
  split
  · rfl
  · split
    · exact lasting_owners (respond_lasting ..)
    · dsimp only
      split
      · exact lasting_owners (respond_lasting ..)
      · next changed => exact (lasting_owners ((respond_lasting ..).trans (raise_lasting ..))).trans (keyChange_owners changed)

/-! ### Every step -/

theorem exec_ringZero (c : Instr) (s : State) : KeepsRingZero s (exec c s) := by
  by_cases h : changesLasting c = false
  · exact (exec_lasting h s).keepsRingZero
  · cases c
    case powerFail => exact execPowerFail_ringZero s
    case sysReset => apply execSysReset_ringZero
    case warmResetSequence => exact execWarmResetSequence_ringZero s
    case perstAssert => exact execPerstAssert_ringZero s
    case ringOwnerWrite => apply execRingOwnerWrite_ringZero
    case fwActivate => apply execFwActivate_ringZero
    case ownerKey => apply execOwnerKey_ringZero
    all_goals exact absurd rfl h

theorem runHeld_ringZero (rest r c) (s : State) : KeepsRingZero s (runHeld rest r c s) := by
  unfold runHeld
  split
  · next t ran =>
    exact keepsRingZero_next fun z => exec_ringZero c _ t ran (ringZero_of_owners (lasting_owners (leaveHeld_lasting r s)) z)
  · rintro _ ⟨⟩
  · rintro _ ⟨⟩

theorem idle_ringZero (s : State) : KeepsRingZero s (idle s) := by
  unfold idle
  split
  · apply runHeld_ringZero
  · exact (tick_lasting s).keepsRingZero

/-- Settles O6: every command but seven keeps the owner of every pair, four of those reset all pairs, and the owner register holds RING_0. -/
theorem ringZeroStaysWithPf0 : Obligations.RingZeroStaysWithPf0 := by
  unfold Obligations.RingZeroStaysWithPf0
  intro s t zero stepped
  cases pending : s.pending with
  | nil => rw [step_nil s pending] at stepped; exact idle_ringZero s t stepped zero
  | cons c rest => rw [step_cons c rest s pending] at stepped; exact exec_ringZero c _ t stepped zero

end Sys2Proof.Machine
end

section
/-! PROOFS. The PCIe link, its functions and its errors (R39 to R45, R91 to R99, R109, R565; O10). -/
namespace Sys2Proof.Machine
open Sys2Proof

/-! ### The rings of a function go to Disabled (R91, R95) -/

theorem disableRings_ring (whole : Bool) (fn : Fn) (s : State) (r : RingId) :
    (disableRings whole fn s).hif.rings[r] =
      if (s.hif.rings[r]).owner = fn then (if whole then resetPair s.hif.rings[r] else disablePair s.hif.rings[r]) else s.hif.rings[r] := by
  simp [disableRings]

theorem disableRings_owner (whole : Bool) (fn : Fn) (s : State) (r : RingId) :
    ((disableRings whole fn s).hif.rings[r]).owner = (s.hif.rings[r]).owner := by
  rw [disableRings_ring]
  cases whole <;> split <;> rfl

/-- What disabling a function's rings may touch. -/
theorem disableRings_frame (whole : Bool) (fn : Fn) (s : State) :
    disableRings whole fn s = { s with
      held := (disableRings whole fn s).held
      hif := { s.hif with rings := (disableRings whole fn s).hif.rings, evr := (disableRings whole fn s).hif.evr
                          caps := (disableRings whole fn s).hif.caps } } := rfl

/-! ### Functions are reset (R95) -/

/-- One function is reset. -/
def resetFn (fn : Fn) (s : State) : State := onFn fn (fun _ => funcReset) (disableRings true fn s)

theorem resetFns_cons (fn : Fn) (fns : List Fn) (s : State) : resetFns (fn :: fns) s = resetFns fns (resetFn fn s) := rfl

theorem resetFn_ring (fn : Fn) (s : State) (r : RingId) :
    (resetFn fn s).hif.rings[r] = if (s.hif.rings[r]).owner = fn then resetPair s.hif.rings[r] else s.hif.rings[r] :=
  disableRings_ring true fn s r

theorem resetFn_owner (fn : Fn) (s : State) (r : RingId) : ((resetFn fn s).hif.rings[r]).owner = (s.hif.rings[r]).owner :=
  disableRings_owner true fn s r

theorem resetFn_fn (fn f : Fn) (s : State) : (resetFn fn s).hif.fns[f] = if f = fn then funcReset else s.hif.fns[f] :=
  upd_get s.hif.fns fn f fun _ => funcReset

theorem mem_resetFn_held {fn : Fn} {s : State} {h : RingId × Bool × Instr} :
    h ∈ (resetFn fn s).held ↔ h ∈ s.held ∧ (s.hif.rings[h.1]).owner ≠ fn := by
  simp [resetFn, onFn, disableRings]

/-- A pair is reset once with its owner, and keeps its owner. -/
theorem resetFns_ring {fns : List Fn} (once : fns.Nodup) (s : State) (r : RingId) :
    (resetFns fns s).hif.rings[r] = if (s.hif.rings[r]).owner ∈ fns then resetPair s.hif.rings[r] else s.hif.rings[r] := by
  induction fns generalizing s with
  | nil => rfl
  | cons fn fns ih =>
    obtain ⟨notAgain, once⟩ := List.nodup_cons.mp once
    rw [resetFns_cons, ih once, resetFn_owner, resetFn_ring]
    generalize s.hif.rings[r] = x
    by_cases own : x.owner = fn
    · simp [own, notAgain]
    · simp [own]

theorem resetFns_fn (fns : List Fn) (s : State) (f : Fn) :
    (resetFns fns s).hif.fns[f] = if f ∈ fns then funcReset else s.hif.fns[f] := by
  induction fns generalizing s with
  | nil => rfl
  | cons fn fns ih =>
    rw [resetFns_cons, ih, resetFn_fn]
    by_cases own : f = fn <;> simp [own]

/-- The commands that stay held are those of other functions. -/
theorem mem_resetFns_held {fns : List Fn} {s : State} {h : RingId × Bool × Instr} :
    h ∈ (resetFns fns s).held ↔ h ∈ s.held ∧ (s.hif.rings[h.1]).owner ∉ fns := by
  induction fns generalizing s with
  | nil => simp [resetFns]
  | cons fn fns ih =>
    rw [resetFns_cons, ih, mem_resetFn_held, resetFn_owner]
    simp [and_assoc]

/-- The event ring is PF0's. -/
theorem resetFns_evr (fns : List Fn) (s : State) : (resetFns fns s).hif.evr = if 0 ∈ fns then eventRingReset else s.hif.evr := by
  induction fns generalizing s with
  | nil => rfl
  | cons fn fns ih =>
    have one : (resetFn fn s).hif.evr = if fn = 0 then eventRingReset else s.hif.evr := rfl
    rw [resetFns_cons, ih, one]
    by_cases pf : fn = 0 <;> simp [pf, eq_comm]

/-- What resetting functions may touch. -/
theorem resetFns_frame (fns : List Fn) (s : State) :
    resetFns fns s = { s with
      held := (resetFns fns s).held
      hif := { s.hif with fns := (resetFns fns s).hif.fns, rings := (resetFns fns s).hif.rings, evr := (resetFns fns s).hif.evr
                          caps := (resetFns fns s).hif.caps } } := by
  induction fns generalizing s with
  | nil => rfl
  | cons fn fns ih => rw [resetFns_cons]; exact ih (resetFn fn s)

/-- Every function is PF0 or one of the seven VFs. -/
theorem fn_mem (f : Fn) : f ∈ 0 :: vfs := by
  revert f
  decide

theorem vf_frame {fn : Fn} (vf : fn ≠ 0) (s : State) :
    resetFns [fn] s = { s with
      held := (resetFns [fn] s).held
      hif := { s.hif with fns := (resetFns [fn] s).hif.fns, rings := (resetFns [fn] s).hif.rings, caps := (resetFns [fn] s).hif.caps } } := by
  have evr : (resetFns [fn] s).hif.evr = s.hif.evr := by
    rw [resetFns_evr, if_neg (by simpa using vf.symm)]
  have frame := resetFns_frame [fn] s
  rw [evr] at frame
  exact frame

/-! ### What a function-level reset of PF0 leaves -/

/-- A state in which every function has been reset. -/
structure AllReset (s u : State) : Prop where
  held : u.held = []
  fns : ∀ f : Fn, u.hif.fns[f] = funcReset
  rings : ∀ r : RingId, u.hif.rings[r] = resetPair s.hif.rings[r]
  evr : u.hif.evr = eventRingReset
  frame : u = { s with held := u.held, hif := { s.hif with fns := u.hif.fns, rings := u.hif.rings, evr := u.hif.evr, caps := u.hif.caps } }

theorem resetFns_all (s : State) : AllReset s (resetFns (0 :: vfs) s) where
  held := List.eq_nil_iff_forall_not_mem.mpr fun _ held => (mem_resetFns_held.mp held).2 (fn_mem _)
  fns f := by rw [resetFns_fn, if_pos (fn_mem f)]
  rings r := by rw [resetFns_ring (by decide), if_pos (fn_mem _)]
  evr := by rw [resetFns_evr, if_pos (fn_mem 0)]
  frame := resetFns_frame _ s

/-- Beside its functions PF0 loses SR-IOV, the dump registration and the periodic snapshot. -/
theorem leavePf0_frame {s u : State} (all : AllReset s u) :
    leavePf0 u = { s with
      held := [], hif := (leavePf0 u).hif, pmc := { s.pmc with periodic := none }
      flt := { s.flt with dump := { s.flt.dump with registered := none } } } := by
  rw [all.frame, all.held]
  rfl

/-! ### Configuration requests (R39 to R43, R91, R109) -/

/-- A configuration request that is carried out: PERST_L is high, boot has passed step 7 outside RECOVERY, and the function exists. -/
structure ConfigOpen (fn : Fn) (s : State) : Prop where
  high : s.hif.perstLow = false
  booted : pastFwRun s = true
  normal : s.boot.stage ≠ .recovery
  present : fnExists fn s = true

/-- It passes the three gates of every configuration request. -/
theorem ConfigOpen.reached {fn : Fn} {s : State} (h : ConfigOpen fn s) {α : Type} {low early absent o : α} :
    (if s.hif.perstLow then low else if !pastFwRun s then early
      else if !fnExists fn s || (fn != 0 && s.boot.stage == .recovery) then absent else o) = o := by
  simp [h.high, h.booted, h.present, h.normal]

/-- What a configuration request may touch. -/
def ConfigKept (s t : State) : Prop := t = { s with held := t.held, hif := t.hif, pmc := t.pmc, out := t.out }

theorem ConfigKept.trans {s t u : State} (h : ConfigKept s t) (k : ConfigKept t u) : ConfigKept s u := by
  unfold ConfigKept at *
  rw [k, h]

theorem onHif_kept (f : Hif → Hif) (s : State) : ConfigKept s (onHif f s) := rfl

theorem setBar_kept (fn i address) (s : State) : ConfigKept s (setBar fn i address s) := by
  unfold setBar
  split <;> rfl

theorem setBusMaster_kept (fn on) (s : State) : ConfigKept s (setBusMaster fn on s) := by
  unfold setBusMaster losePf0
  cases on
  · by_cases pf : fn = 0
    · simp only [pf, if_true]; rfl
    · simp only [pf, if_false]; rfl
  · rfl

theorem foldl_configKept {α : Type} {f : State → α → State} (h : ∀ s a, ConfigKept s (f s a)) (l : List α) (s : State) :
    ConfigKept s (l.foldl f s) := by
  induction l generalizing s with
  | nil => rfl
  | cons a l ih => exact (h s a).trans (ih _)

/-- The messages of pending vectors change the function's vectors, and are sent out. -/
theorem sendPending_kept (fn) (s : State) : ConfigKept s (sendPending fn s) := by
  refine foldl_configKept (fun s v => ?_) _ s
  dsimp only
  split <;> rfl

theorem dropVfs_kept (before s : State) : ConfigKept s (dropVfs before s) := by
  rw [ConfigKept, dropVfs, resetFns_frame]

theorem ConfigOpen.exec_change {fn : Fn} {s : State} (h : ConfigOpen fn s) (change : CfgChange) :
    ∃ t, exec (.pcieConfigRequest fn change) s = .next t ∧ ConfigKept s t := by
  refine ⟨_, h.reached, ?_⟩
  cases change
  case bar => apply setBar_kept
  case busMaster => apply setBusMaster_kept
  case clearAer correctable => cases correctable <;> rfl
  case d3hot on =>
    cases on
    · exact (onHif_kept ..).trans (sendPending_kept ..)
    · rfl
  case numVFs =>
    dsimp only
    split
    · exact (onHif_kept ..).trans (dropVfs_kept ..)
    · rfl
  case vfEnable =>
    dsimp only
    split
    · exact (onHif_kept ..).trans (dropVfs_kept ..)
    · rfl
  all_goals rfl

theorem ConfigOpen.exec_memSpace {fn : Fn} {s : State} (h : ConfigOpen fn s) (on : Bool) :
    exec (.pcieConfigRequest fn (.memSpace on)) s = .next (onFn fn (fun f => { f with memSpace := on }) s) := h.reached

theorem ConfigOpen.exec_busMaster {fn : Fn} {s : State} (h : ConfigOpen fn s) (on : Bool) :
    exec (.pcieConfigRequest fn (.busMaster on)) s = .next (setBusMaster fn on s) := h.reached

theorem ConfigOpen.exec_read {fn : Fn} {s : State} (h : ConfigOpen fn s) (what : CfgField) :
    exec (.pcieConfigRequest fn (.read what)) s = .next (emit (.readData fn (configValue fn what s)) s) := h.reached

theorem exec_config_retry {fn : Fn} {s : State} (high : s.hif.perstLow = false) (early : pastFwRun s = false) (change : CfgChange) :
    exec (.pcieConfigRequest fn change) s = .next (emit .retry s) :=
  (if_neg (by simp [high])).trans (if_pos (by simp [early]))

/-- PF0 loses nothing of its host interface with its snapshots. -/
theorem losePf0_hif (fn : Fn) (s : State) : (losePf0 fn s).hif = s.hif := by
  unfold losePf0
  split <;> rfl

theorem clearBusMaster_hif (fn : Fn) (s : State) :
    (setBusMaster fn false s).hif = (disableRings false fn (onFn fn (fun f => { f with busMaster := false }) s)).hif := losePf0_hif ..

theorem clearBusMaster_ring (fn : Fn) (s : State) (r : RingId) :
    (setBusMaster fn false s).hif.rings[r] = if (s.hif.rings[r]).owner = fn then disablePair s.hif.rings[r] else s.hif.rings[r] := by
  rw [clearBusMaster_hif]
  exact disableRings_ring false fn _ r

/-! ### O10 -/

/-- Settles O10: each clause is the meaning of one event of the link. -/
theorem linkAndFunctions : Obligations.LinkAndFunctions := by
  unfold Obligations.LinkAndFunctions
  refine ⟨?perst, ?perstEnds, ?up, ?down, ?correctable, ?uncorrectable, ?flrVf, ?flrPf, ?memSpace, ?busMaster, ?retry, ?unsupported, ?doe, ?read,
    ?kept⟩
  case perst => exact fun s => does_of_next (t := perstReset s) rfl ⟨rfl, fun r => Vector.getElem_map ..⟩
  case perstEnds => exact fun s => does_of_next rfl rfl
  case up =>
    intro rate width s high booted free lowRate highRate lowWidth highWidth
    have shown : exec (.pcieLinkUp rate width) s =
        .next (onHif (fun h => { h with linkRate := clampNat 1 4 rate, linkWidth := clampNat 1 16 width }) s) :=
      if_neg (by simp [high, booted, free])
    refine does_of_next shown ?_
    have rates : clampNat 1 4 rate = rate := by simp only [clampNat]; omega
    have widths : clampNat 1 16 width = width := by simp only [clampNat]; omega
    rw [rates, widths]
    rfl
  case down => exact fun s => does_of_next rfl ⟨rfl, raise_events 3 0 0 _, rfl⟩
  case correctable =>
    exact fun fn s => does_of_next (t := raise 1 0 fn (onFn fn (fun f => { f with aerCor := true }) s)) rfl
      ⟨congrArg Func.aerCor (onFn_self fn _ s), raise_events 1 0 fn _, rfl⟩
  case uncorrectable =>
    exact fun fn s => does_of_next (t := raise 2 0 fn (onFn fn (fun f => { f with aerUncor := true }) s)) rfl
      ⟨congrArg Func.aerUncor (onFn_self fn _ s), raise_events 2 0 fn _, rfl⟩
  case flrVf =>
    intro fn s vf
    refine does_of_next (execFlr_vf vf s) ⟨?own, ?others, ?held, ?pairs, ?otherPairs, vf_frame vf s⟩
    case own => rw [resetFns_fn, if_pos (by simp)]
    case others => intro f other; rw [resetFns_fn, if_neg (by simpa using other)]
    case held => intro h held; simpa using (mem_resetFns_held.mp held).2
    case pairs => intro r own; rw [resetFns_ring (by simp), if_pos (List.mem_singleton.mpr own), resetPair, own]
    case otherPairs => intro r other; rw [resetFns_ring (by simp), if_neg (by simpa using other)]
  case flrPf =>
    intro s
    have all := resetFns_all s
    refine does_of_next (execFlr_pf0 s) ?_
    generalize resetFns (0 :: vfs) s = u at all
    exact ⟨rfl, rfl, all.fns, all.held, all.rings, all.evr, leavePf0_frame all⟩
  case memSpace =>
    intro fn on s high booted normal present
    exact does_of_next (ConfigOpen.exec_memSpace ⟨high, booted, normal, present⟩ on) ⟨congrArg Func.memSpace (onFn_self fn _ s), rfl⟩
  case busMaster =>
    intro fn s high booted normal present
    refine does_of_next (ConfigOpen.exec_busMaster ⟨high, booted, normal, present⟩ false) ⟨?cleared, ?own, ?others⟩
    case cleared =>
      rw [clearBusMaster_hif]
      exact congrArg Func.busMaster (onFn_self fn _ s)
    case own => intro r own; rw [clearBusMaster_ring, if_pos own]; exact ⟨rfl, rfl⟩
    case others => intro r other; rw [clearBusMaster_ring, if_neg other]
  case retry => exact fun fn change s high early => does_of_next (exec_config_retry high early change) rfl
  case unsupported => exact fun fn s high => does_of_next (t := emit (.unsupported fn) s) (if_neg (by simp [high])) rfl
  case doe => exact fun s => does_of_next rfl rfl
  case read => exact fun fn what s high booted normal present => does_of_next (ConfigOpen.exec_read ⟨high, booted, normal, present⟩ what) rfl
  case kept => exact fun fn change s high booted normal present => ConfigOpen.exec_change ⟨high, booted, normal, present⟩ change

end Sys2Proof.Machine
end

section
/-! PROOFS. The rings: what an entry into Error and a write-back leave alone, and the states of a ring pair, the event ring and a capture ring (R53 to
R60, R76, R80, R91 to R93; O13). -/
namespace Sys2Proof.Machine
open Sys2Proof

theorem restKept.trans {s t u : State} (h : restKept s t) (k : restKept t u) : restKept s u := by
  unfold restKept at *
  rw [k, h]

theorem onHif_restKept (f : Hif → Hif) (s : State) : restKept s (onHif f s) := rfl

theorem onRing_restKept (r : RingId) (f : Ring → Ring) (s : State) : restKept s (onRing r f s) := rfl

/-- `onRing_self` at an index of its own type. -/
theorem onRing_get (r : RingId) (f : Ring → Ring) (s : State) : (onRing r f s).hif.rings[r] = f s.hif.rings[r] := onRing_self ..

/-! ### A ring enters Error (R92) -/

/-- A vector that signals changes its function only. -/
theorem signalVector_hif (fn : Fn) (v : Fin 64) (s : State) :
    (signalVector fn v s).hif = { s.hif with fns := (signalVector fn v s).hif.fns } := by
  unfold signalVector
  dsimp only
  split <;> rfl

theorem signalNumber_hif (fn : Fn) (v : Nat) (s : State) :
    (signalNumber fn v s).hif = { s.hif with fns := (signalNumber fn v s).hif.fns } := by
  unfold signalNumber
  split
  · rfl
  · exact signalVector_hif ..

theorem signalNumber_restKept (fn : Fn) (v : Nat) (s : State) : restKept s (signalNumber fn v s) := by
  rw [restKept, signalNumber_frame]

/-- The report of a ring error changes functions only in the host interface. -/
theorem ringErrorEvent_hif (inst : Nat) (e : RingError) (fn : Fn) (v : Nat) (s : State) :
    (ringErrorEvent inst e fn v s).hif = { s.hif with fns := (ringErrorEvent inst e fn v s).hif.fns } := by
  unfold ringErrorEvent
  dsimp only
  split
  · rw [signalNumber_hif]; rfl
  · rw [signalNumber_hif, signalNumber_hif]; rfl

theorem ringErrorEvent_restKept (inst : Nat) (e : RingError) (fn : Fn) (v : Nat) (s : State) : restKept s (ringErrorEvent inst e fn v s) := by
  have raised : restKept s (raise 0 0 (inst + 256 * ringErrorCode e) s) := rfl
  unfold ringErrorEvent
  dsimp only
  split
  · exact raised.trans (signalNumber_restKept ..)
  · exact (raised.trans (signalNumber_restKept ..)).trans (signalNumber_restKept ..)

theorem ringFail_rings (r : RingId) (e : RingError) (s : State) :
    (ringFail r e s).hif.rings = upd s.hif.rings r fun x => { x with state := .error, error := e } := by
  rw [ringFail, ringErrorEvent_hif]
  rfl

theorem ringFail_ring (r : RingId) (e : RingError) (s : State) :
    (ringFail r e s).hif.rings[r] = { s.hif.rings[r] with state := .error, error := e } := by
  rw [ringFail_rings]
  exact upd_self ..

theorem ringFail_other {r q : RingId} (h : q ≠ r) (e : RingError) (s : State) : (ringFail r e s).hif.rings[q] = s.hif.rings[q] := by
  rw [ringFail_rings]
  exact upd_other _ _ _ _ h

theorem ringFail_restKept (r : RingId) (e : RingError) (s : State) : restKept s (ringFail r e s) :=
  (onRing_restKept ..).trans (ringErrorEvent_restKept ..)

/-! ### The write-back and the marker (R60, R93) -/

/-- The write-back of the indices changes only when the next one is due. -/
theorem writeBack_ring (r : RingId) (s : State) :
    ∃ due at', (writeBack r s).hif.rings[r] = { s.hif.rings[r] with wbDue := due, wbAt := at' } := by
  unfold writeBack
  dsimp only
  split
  · exact ⟨_, _, rfl⟩
  · split
    · exact ⟨_, _, onRing_self ..⟩
    · exact ⟨_, _, onRing_self ..⟩

theorem writeBack_restKept (r : RingId) (s : State) : restKept s (writeBack r s) := by
  rw [restKept, writeBack_frame]

theorem writeMarker_ring (r : RingId) (s : State) :
    ∃ due at', (writeMarker r s).hif.rings[r] =
      { takeSlot s.hif.rings[r] with marker := some (s.time.epoch, s.evr.seqNext / 2 ^ 32), wbDue := due, wbAt := at' } := by
  obtain ⟨due, at', back⟩ := writeBack_ring r (putMarker r (s.evr.seqNext / 2 ^ 32) s)
  exact ⟨due, at', back.trans (by rw [putMarker_ring])⟩

theorem writeMarker_other {r q : RingId} (h : q ≠ r) (s : State) : (writeMarker r s).hif.rings[q] = s.hif.rings[q] :=
  (writeBack_other h _).trans (putMarker_other h _ s)

theorem writeMarker_sends (r : RingId) (s : State) :
    Out.marker r (completionSlot s.hif.rings[r]) (s.hif.rings[r]).phase (s.evr.seqNext / 2 ^ 32) s.time.epoch ∈ (writeMarker r s).out :=
  writeBack_sent (putMarker_sends ..) r

theorem writeMarker_restKept (r : RingId) (s : State) : restKept s (writeMarker r s) :=
  (show restKept s (putMarker r _ s) from rfl).trans (writeBack_restKept ..)

/-! ### A write to a ring's control word (R93) -/

/-- PF0 and the owner see a ring's control word. -/
theorem viaRing_open {fn : Fn} {sel : RingSel} {f : State → State} {s : State} (h : BarOpen fn s) (k : fn = 0 ∨ ringOwner sel s = fn) :
    viaRing fn sel f s = f s := by
  have sees : seesRing fn sel s = true := by simpa [seesRing] using k
  rw [viaRing, viaBar_open h, if_pos sees]

theorem exec_ringEnable_open {fn : Fn} {sel : RingSel} {s : State} (h : BarOpen fn s) (k : fn = 0 ∨ ringOwner sel s = fn) :
    exec (.ringEnable fn sel) s = .next (enableRing sel s) :=
  congrArg Host.Outcome.next (viaRing_open h k)

/-! ### A pair is enabled (R60, R91) -/

/-- The registers of a pair as it enters Running. -/
def startedPair (x : Ring) : Ring :=
  { x with
    enable := true, state := .running, error := .none, cmdPI := 0, cmdCI := 0, cplPI := 0, cplCI := 0
    phase := true, inFlight := 0, started := 0, era := x.era + 1, wbDue := false, wbAt := none }

theorem enablePair_runs {n : RingId} {s : State} (off : (s.hif.rings[n]).state = .disabled)
    (master : (s.hif.fns[(s.hif.rings[n]).owner]).busMaster = true) (valid : pairValid s.hif.rings[n] = true) :
    enableRing (.pair n) s = writeMarker n (onRing n startedPair s) :=
  (if_neg (by rw [off]; decide)).trans ((if_neg (by rw [master]; decide)).trans (if_pos valid))

theorem enablePair_waits {n : RingId} {s : State} (off : (s.hif.rings[n]).state = .disabled)
    (master : (s.hif.fns[(s.hif.rings[n]).owner]).busMaster = false) :
    enableRing (.pair n) s = onRing n (fun x => { x with enable := false }) s :=
  (if_neg (by rw [off]; decide)).trans (if_pos (by rw [master]; rfl))

theorem enablePair_fails {n : RingId} {s : State} (off : (s.hif.rings[n]).state = .disabled)
    (master : (s.hif.fns[(s.hif.rings[n]).owner]).busMaster = true) (bad : pairValid s.hif.rings[n] = false) :
    enableRing (.pair n) s = ringFail n .badConfig (onRing n (fun x => { x with enable := true }) s) :=
  (if_neg (by rw [off]; decide)).trans ((if_neg (by rw [master]; decide)).trans (if_neg (by rw [bad]; decide)))

/-! ### A pair drains (R91) -/

theorem drainPair_idle {x : Ring} (run : x.state = .running) (off : x.enable = false) (none : x.inFlight = 0) :
    drainPair x = { x with state := .disabled, marker := Option.none, era := x.era + 1 } := by
  simp [drainPair, run, off, none]

/-- Without indices to write back the pair drains as it stands. -/
theorem execRingDrained_written {n : RingId} {s : State} (written : (s.hif.rings[n]).wbDue = false) :
    execRingDrained n s = .next (onRing n drainPair s) := by
  have notLast : ((s.hif.rings[n]).state == .running && !(s.hif.rings[n]).enable && (s.hif.rings[n]).inFlight == 0 && (s.hif.rings[n]).wbDue &&
      !inD3hot (s.hif.rings[n]).owner s) = false := by simp only [written, Bool.and_false, Bool.false_and]
  simp only [execRingDrained, notLast, Bool.false_eq_true, if_false]

/-- Indices that wait are written back first, once they may be. -/
theorem execRingDrained_due {n : RingId} {s : State} (run : (s.hif.rings[n]).state = .running) (off : (s.hif.rings[n]).enable = false)
    (none : (s.hif.rings[n]).inFlight = 0) (due : (s.hif.rings[n]).wbDue = true) (awake : inD3hot (s.hif.rings[n]).owner s = false) :
    execRingDrained n s = .next (onRing n drainPair (sendIndices n (advanceMono (((s.hif.rings[n]).wbAt.getD 0) + 1000) s))) := by
  have last : ((s.hif.rings[n]).state == .running && !(s.hif.rings[n]).enable && (s.hif.rings[n]).inFlight == 0 && (s.hif.rings[n]).wbDue &&
      !inD3hot (s.hif.rings[n]).owner s) = true := by simp only [run, off, none, due, awake]; rfl
  simp only [execRingDrained, last, if_true]

theorem sendIndices_ring (n : RingId) (s : State) :
    (sendIndices n s).hif.rings[n] = { s.hif.rings[n] with wbDue := false, wbAt := some s.time.mono } := onRing_self ..

theorem sendIndices_other {n r : RingId} (h : r ≠ n) (s : State) : (sendIndices n s).hif.rings[r] = s.hif.rings[r] := onRing_other h ..

/-! ### A pair is reset (R91, R93) -/

/-- The registers of a pair after a write of its reset. -/
def zeroedPair (x : Ring) : Ring :=
  { x with
    state := .disabled, error := .none, cmdPI := 0, cmdCI := 0, cplPI := 0, cplCI := 0, phase := true
    inFlight := 0, started := 0, marker := none, era := x.era + 1, wbDue := false, wbAt := none }

theorem exec_ringReset_pair {fn : Fn} {n : RingId} {s : State} (h : BarOpen fn s) (k : fn = 0 ∨ (s.hif.rings[n]).owner = fn)
    (off : (s.hif.rings[n]).state = .disabled ∨ ((s.hif.rings[n]).state = .error ∧ (s.hif.rings[n]).enable = false)) :
    exec (.ringReset fn (.pair n)) s = .next (onRing n zeroedPair { s with held := s.held.filter fun h => h.1 != n }) := by
  have resets : resettable (s.hif.rings[n]).state (s.hif.rings[n]).enable = true := by
    rcases off with off | ⟨failed, off⟩
    · rw [off]; rfl
    · rw [failed, off]; rfl
  exact congrArg Host.Outcome.next ((viaRing_open (sel := .pair n) h k).trans (if_pos resets))

/-! ### The event ring and the capture rings (R76, R80) -/

/-- A change of one capture ring. -/
def onCap (c : Fin 8) (f : CapRing → CapRing) (s : State) : State := onHif (fun h => { h with caps := upd h.caps c f }) s

@[simp] theorem onCap_self (c : Fin 8) (f : CapRing → CapRing) (s : State) : (onCap c f s).hif.caps[c] = f s.hif.caps[c] := upd_self ..

theorem startMirror_hif (s : State) : (startMirror s).hif = s.hif := by
  unfold startMirror
  repeat' split
  all_goals rfl

theorem startMirror_restKept (s : State) : restKept s (startMirror s) := by
  unfold startMirror
  repeat' split
  all_goals rfl

/-- The registers of the event ring as it enters Running. -/
def startedEvent (x : EventRing) : EventRing := { x with enable := true, state := .running, error := .none, prod := 0, cons := 0 }

theorem enableEvent_runs {s : State} (off : s.hif.evr.state = .disabled) (master : (s.hif.fns[(0 : Fn)]).busMaster = true)
    (valid : eventValid s.hif.evr = true) :
    enableRing .event s = startMirror (onHif (fun h => { h with evr := startedEvent s.hif.evr }) s) :=
  (if_neg (by rw [off]; decide)).trans ((if_neg (by rw [master]; decide)).trans (if_pos valid))

theorem enableCapture_runs {c : Fin 8} {s : State} (off : (s.hif.caps[c]).state = .disabled)
    (master : (s.hif.fns[(s.hif.caps[c]).owner]).busMaster = true) (valid : capValid s.hif.caps[c] s = true) :
    enableRing (.capture c) s =
      onCap c (fun x => { x with enable := true, state := .running, error := .none, prod := 0, cons := 0, dropped := 0 }) s :=
  (if_neg (by rw [off]; decide)).trans ((if_neg (by rw [master]; decide)).trans (if_pos valid))

theorem exec_ringDisable_capture {fn : Fn} {c : Fin 8} {s : State} (h : BarOpen fn s) (k : fn = 0 ∨ (s.hif.caps[c]).owner = fn) :
    exec (.ringDisable fn (.capture c)) s =
      .next (onCap c (fun x => { x with enable := false, state := if x.state = .running then .disabled else x.state }) s) :=
  congrArg Host.Outcome.next (viaRing_open (sel := .capture c) h k)

theorem exec_ringReset_event {s : State} (h : BarOpen 0 s) (off : s.hif.evr.state = .disabled) :
    exec (.ringReset 0 .event) s =
      .next (onHif (fun h => { h with evr := { h.evr with state := .disabled, error := .none, prod := 0, cons := 0 } }) s) :=
  congrArg Host.Outcome.next ((viaRing_open h (.inl rfl)).trans (if_pos (by simp [resettable, off])))

theorem exec_ringReset_capture {fn : Fn} {c : Fin 8} {s : State} (h : BarOpen fn s) (k : fn = 0 ∨ (s.hif.caps[c]).owner = fn)
    (off : (s.hif.caps[c]).state = .disabled) :
    exec (.ringReset fn (.capture c)) s =
      .next (onCap c (fun x => { x with state := .disabled, error := .none, prod := 0, cons := 0 }) s) :=
  congrArg Host.Outcome.next ((viaRing_open (sel := .capture c) h k).trans (if_pos (by rw [off]; rfl)))

/-- A host that refuses a write puts the event ring into Error. -/
theorem exec_cplWriteError_event {s : State} (run : s.hif.evr.state = .running) :
    exec (.cplWriteError .event) s = .next (ringErrorEvent 64 .cplWriteError 0 s.hif.evr.vector
      (onHif (fun h => { h with evr := { h.evr with state := .error, error := .cplWriteError } }) s)) :=
  congrArg Host.Outcome.next (if_pos run)

theorem exec_cplWriteError_capture {c : Fin 8} {s : State} (run : (s.hif.caps[c]).state = .running) :
    exec (.cplWriteError (.capture c)) s = .next (ringErrorEvent (65 + c) .cplWriteError (s.hif.caps[c]).owner (s.hif.caps[c]).vector
      (onCap c (fun x => { x with state := .error, error := .cplWriteError }) s)) :=
  congrArg Host.Outcome.next (if_pos run)

/-! ### O13 -/

/-- Settles O13: each clause is the meaning of one write to a control word, or of what the ring does by itself. -/
theorem ringStates : Obligations.RingStates := by
  unfold Obligations.RingStates
  refine ⟨?enabled, ?waits, ?badConfig, ?disabled, ?drained, ?pairReset, ?refused, ?drainedDue, ?event, ?capture, ?eventOff, ?captureOff,
    ?eventReset, ?captureReset, ?eventRefused, ?captureRefused⟩
  case enabled =>
    intro fn n s bar sees off master valid
    obtain ⟨due, at', ring⟩ := writeMarker_ring n (onRing n startedPair s)
    rw [onRing_get] at ring
    have sends := writeMarker_sends n (onRing n startedPair s)
    have slot : completionSlot (onRing n startedPair s).hif.rings[n] = (s.hif.rings[n]).cplBase := by
      rw [onRing_get]
      simp [completionSlot, startedPair]
    rw [slot, onRing_get] at sends
    refine does_of_next ((exec_ringEnable_open (sel := .pair n) bar sees).trans (congrArg _ (enablePair_runs off master valid))) ?_
    rw [ring]
    exact ⟨rfl, rfl, rfl, rfl, rfl, rfl, sends, fun r hr => (writeMarker_other hr _).trans (onRing_other hr ..),
      (onRing_restKept ..).trans (writeMarker_restKept ..)⟩
  case waits =>
    intro fn n s bar sees off master
    exact does_of_next ((exec_ringEnable_open (sel := .pair n) bar sees).trans (congrArg _ (enablePair_waits off master)))
      ⟨onRing_get .., fun r hr => onRing_other hr .., rfl⟩
  case badConfig =>
    intro fn n s bar sees off master bad
    refine does_of_next ((exec_ringEnable_open (sel := .pair n) bar sees).trans (congrArg _ (enablePair_fails off master bad))) ?_
    rw [ringFail_ring]
    exact ⟨rfl, rfl, fun r hr => (ringFail_other hr ..).trans (onRing_other hr ..), (onRing_restKept ..).trans (ringFail_restKept ..)⟩
  case disabled =>
    intro fn n s bar sees
    exact does_of_next (congrArg Host.Outcome.next (viaRing_open (sel := .pair n) bar sees)) ⟨onRing_get .., fun r hr => onRing_other hr .., rfl⟩
  case drained =>
    intro n s run off idle written
    refine does_of_next (execRingDrained_written written) ⟨?_, fun r hr => onRing_other hr .., rfl⟩
    exact congrArg Ring.state ((onRing_get ..).trans (drainPair_idle run off idle))
  case pairReset =>
    intro fn n s bar sees off
    refine does_of_next (exec_ringReset_pair bar sees off) ?_
    have ring : (onRing n zeroedPair { s with held := s.held.filter fun h => h.1 != n }).hif.rings[n] = zeroedPair s.hif.rings[n] := onRing_get ..
    rw [ring]
    exact ⟨rfl, rfl, rfl, rfl, rfl, rfl, fun r hr => onRing_other hr .., rfl⟩
  case refused =>
    intro n s run
    refine does_of_next (congrArg Host.Outcome.next (if_pos run)) ?_
    rw [ringFail_ring]
    exact ⟨rfl, rfl, fun r hr => ringFail_other hr .., ringFail_restKept ..⟩
  case drainedDue =>
    intro n s run off idle due awake
    refine does_of_next (execRingDrained_due run off idle due awake) ⟨?state, ?others, ?sent⟩
    case state =>
      refine congrArg Ring.state ((onRing_get ..).trans (drainPair_idle ?_ ?_ ?_))
      all_goals rw [sendIndices_ring, advanceMono_hif]; assumption
    case others => intro r hr; rw [onRing_other hr, sendIndices_other hr, advanceMono_hif]
    case sent => simp [sendIndices]
  case event =>
    intro s bar off master valid
    refine does_of_next ((exec_ringEnable_open bar (.inl rfl)).trans (congrArg _ (enableEvent_runs off master valid))) ⟨?_, ?_⟩
    · rw [startMirror_hif]; rfl
    · exact (onHif_restKept ..).trans (startMirror_restKept ..)
  case capture =>
    intro fn c s bar sees off master valid
    exact does_of_next ((exec_ringEnable_open (sel := .capture c) bar sees).trans (congrArg _ (enableCapture_runs off master valid)))
      ⟨onCap_self .., rfl⟩
  case eventOff =>
    intro s bar run
    refine does_of_next (congrArg Host.Outcome.next (viaRing_open bar (.inl rfl))) ?_
    simp [onHif, run]
  case captureOff =>
    intro fn c s bar sees run
    refine does_of_next (exec_ringDisable_capture bar sees) ⟨?_, rfl⟩
    rw [onCap_self, if_pos run]
  case eventReset =>
    intro s bar off
    refine does_of_next (exec_ringReset_event bar off) ?_
    simp [onHif, ← off]
  case captureReset =>
    intro fn c s bar sees off
    refine does_of_next (exec_ringReset_capture bar sees off) ⟨?_, rfl⟩
    rw [onCap_self, ← off]
  case eventRefused =>
    intro s run
    refine does_of_next (exec_cplWriteError_event run) ?_
    rw [ringErrorEvent_hif]
    exact ⟨rfl, rfl, rfl, (onHif_restKept ..).trans (ringErrorEvent_restKept ..)⟩
  case captureRefused =>
    intro c s run
    have ring : ∀ inst v, (ringErrorEvent inst .cplWriteError (s.hif.caps[c]).owner v
        (onCap c (fun x => { x with state := .error, error := .cplWriteError }) s)).hif.caps[c] =
          { s.hif.caps[c] with state := .error, error := .cplWriteError } := by
      intro inst v
      rw [ringErrorEvent_hif]
      exact onCap_self ..
    refine does_of_next (exec_cplWriteError_capture run) ⟨?_, ?_, ?_, (onHif_restKept ..).trans (ringErrorEvent_restKept ..)⟩
    · rw [ring]
    · rw [ring]
    · rw [ringErrorEvent_hif]; rfl

end Sys2Proof.Machine
end

section
/-! PROOFS. Doorbells, the fetch of a descriptor, and the vectors (R46 to R55, R64 to R71, R85, R86, R92; O14). -/
namespace Sys2Proof.Machine
open Sys2Proof

/-! ### Doorbells (R47, R53, R55) -/

theorem viaPage_open {fn : Fn} {page : Nat} {f : State → State} {s : State} (h : BarOpen fn s) (k : page < doorbellPages fn) :
    viaPage fn page f s = f s := by
  rw [viaPage, if_pos k, viaBar_open h]

/-- A write of 4 bytes at offset 0 of the page of a Running pair brings its producer index. -/
theorem exec_doorbellProducer_pair {fn : Fn} {page : Fin 256} {n : RingId} {p : Word} {s : State} (h : BarOpen fn s)
    (k : page.val < doorbellPages fn) (shown : pageRing fn page s = some (.pair n)) (run : (s.hif.rings[n]).state = .running) :
    exec (.doorbellProducer fn page 0 4 p) s = .next (takeProducer n p s) := by
  refine congrArg Host.Outcome.next ((viaPage_open h k).trans ?_)
  simp only [shown]
  exact if_pos run

theorem exec_doorbellProducer_stray {fn : Fn} {page : Fin 256} {offset : Nat} {p : Word} {s : State} (h : BarOpen fn s)
    (k : page.val < doorbellPages fn) (notProducer : offset ≠ 0) (notConsumer : offset ≠ 8) :
    exec (.doorbellProducer fn page offset 4 p) s = .next (dropDoorbell fn s) :=
  congrArg Host.Outcome.next ((viaPage_open h k).trans
    ((if_neg (by decide)).trans ((if_neg notConsumer).trans (if_pos notProducer))))

/-- An index that the ring has room for is taken. -/
theorem takeProducer_fits {n : RingId} {p : Word} {s : State} (new : 0 < (p - (s.hif.rings[n]).cmdPI).toNat)
    (ahead : (p - (s.hif.rings[n]).cmdPI).toNat ≤ (p - (s.hif.rings[n]).cmdCI).toNat)
    (room : (p - (s.hif.rings[n]).cmdCI).toNat ≤ 2 ^ (s.hif.rings[n]).cmdLog2) :
    takeProducer n p s = onRing n (fun x => { x with cmdPI := p }) s :=
  (if_neg (by omega)).trans (if_pos ⟨ahead, room⟩)

/-- An index past the ring's size is an overrun. -/
theorem takeProducer_overruns {n : RingId} {p : Word} {s : State} (beyond : 2 ^ (s.hif.rings[n]).cmdLog2 < (p - (s.hif.rings[n]).cmdCI).toNat)
    (new : p ≠ (s.hif.rings[n]).cmdPI) : takeProducer n p s = ringFail n .dbOverrun s := by
  have moved : (p - (s.hif.rings[n]).cmdPI).toNat ≠ 0 := fun same =>
    new (by bv_omega)
  exact (if_neg moved).trans (if_neg fun fits => absurd fits.2 (by omega))

theorem takeConsumer_pair {fn : Fn} {page : Nat} {n : RingId} {v : Word} {s : State} (shown : pageRing fn page s = some (.pair n))
    (run : (s.hif.rings[n]).state = .running) : takeConsumer fn page v s = onRing n (fun x => { x with cplCI := v }) s := by
  simp only [takeConsumer, shown]
  exact if_pos run

/-! ### The fetch of a descriptor (R51, R54, R64, R71) -/

/-- A ring may fetch while no restart is asked for or under way. -/
structure FetchOpen (n : RingId) (s : State) : Prop where
  notAsked : s.sec.asked = none
  noRestart : s.sec.restart = none
  may : mayFetch s.hif.rings[n] s.hif.fns[(s.hif.rings[n]).owner] = true

theorem FetchOpen.startRestart {n : RingId} {s : State} (h : FetchOpen n s) : startRestart s = s := by
  simp only [Machine.startRestart, h.notAsked]

theorem FetchOpen.gate {n : RingId} {s : State} (h : FetchOpen n s) :
    (s.sec.restart.isSome || !mayFetch s.hif.rings[n] s.hif.fns[(s.hif.rings[n]).owner]) = false := by
  rw [h.noRestart, h.may]
  rfl

/-- The read of the slot that the consumer index names. -/
def readSlot (n : RingId) (s : State) : State := emit (.hostRead (s.hif.rings[n]).owner (commandSlot s.hif.rings[n]) 64) s

/-- The consumer index moves on past it. -/
def slotTaken (n : RingId) (s : State) : State :=
  pulse 0x0500 0 1 (onRing n (fun x => { x with cmdCI := x.cmdCI + 1 }) (readSlot n s))

theorem slotTaken_ring (n : RingId) (s : State) :
    (slotTaken n s).hif.rings[n] = { s.hif.rings[n] with cmdCI := (s.hif.rings[n]).cmdCI + 1 } := onRing_get ..

theorem slotTaken_other {n r : RingId} (h : r ≠ n) (s : State) : (slotTaken n s).hif.rings[r] = s.hif.rings[r] := onRing_other h ..

theorem slotTaken_frame (n : RingId) (s : State) :
    slotTaken n s = { s with hif := (slotTaken n s).hif, pmc := (slotTaken n s).pmc, out := (slotTaken n s).out } := rfl

/-- Without a write-back address the indices go nowhere. -/
theorem writeBack_nowhere {n : RingId} {s : State} (nowhere : (s.hif.rings[n]).wb = 0) : writeBack n s = s := if_pos nowhere

theorem exec_descriptorFetch_got {n : RingId} {bytes : List Byte} {buf : Buf} {found : Findings} {s : State} (h : FetchOpen n s) :
    exec (.descriptorFetch n (.got bytes buf found)) s =
      .next (takeCommand (leAt bytes 0 1) (Desc.ofBytes n bytes buf) found (writeBack n (slotTaken n s))) := by
  show execDescriptorFetch n (.got bytes buf found) s = _
  simp only [execDescriptorFetch, h.startRestart, h.gate, Bool.false_eq_true, if_false]
  rfl

theorem exec_descriptorFetch_error {n : RingId} {s : State} (h : FetchOpen n s) :
    exec (.descriptorFetch n .error) s = .next (ringFail n .fetchError
      (raise 2 0 (s.hif.rings[n]).owner (onFn (s.hif.rings[n]).owner (fun f => { f with aerUncor := true }) (readSlot n s)))) := by
  show execDescriptorFetch n .error s = _
  simp only [execDescriptorFetch, h.startRestart, h.gate, Bool.false_eq_true, if_false]
  rfl

theorem failedRead_restKept (n : RingId) (fn : Fn) (s : State) :
    restKept s (raise 2 0 fn (onFn fn (fun f => { f with aerUncor := true }) (readSlot n s))) := rfl

/-- The read of a command's indirect buffer is sent out, if it has one. -/
def readBuffer (op : Nat) (d : Desc) (s : State) : State :=
  if d.indirect && op != 0x01 then emit (.hostRead (s.hif.rings[d.ring]).owner d.bufferAddress d.length.toNat) s else s

theorem readBuffer_frame (op : Nat) (d : Desc) (s : State) : readBuffer op d s = { s with out := (readBuffer op d s).out } := by
  unfold readBuffer
  split <;> rfl

theorem readBuffer_sent {o : Out} {s : State} (h : o ∈ s.out) (op : Nat) (d : Desc) : o ∈ (readBuffer op d s).out := by
  unfold readBuffer
  split
  · exact List.mem_cons_of_mem _ h
  · exact h

/-- A command that the shared checks let pass waits to start. -/
theorem takeCommand_waits {op : Nat} {d : Desc} {found : Findings} {c : Instr} {s : State} (notFatal : s.flt.fatal = false)
    (booted : s.boot.stage ≠ .recovery) (named : commandOf op d found = some c) (passes : preCheck op (s.hif.rings[d.ring]).owner d s = none) :
    takeCommand op d found s = holdCommand d c (readBuffer op d s) := by
  have notRefused : ((s.flt.fatal || s.boot.stage == .recovery) && op != 0x01 && op != 0x68) = false := by
    simp [notFatal, booted]
  have passes' : preCheck op (issueOf op d s).fn d s = none := passes
  simp only [takeCommand, notRefused, named, passes', Bool.false_eq_true, if_false]
  rfl

theorem holdCommand_ring (d : Desc) (c : Instr) (s : State) :
    (holdCommand d c s).hif.rings[d.ring] = { s.hif.rings[d.ring] with inFlight := (s.hif.rings[d.ring]).inFlight + 1 } := onRing_get ..

theorem holdCommand_other {d : Desc} {r : RingId} (h : r ≠ d.ring) (c : Instr) (s : State) :
    (holdCommand d c s).hif.rings[r] = s.hif.rings[r] := onRing_other h ..

theorem holdCommand_frame (d : Desc) (c : Instr) (s : State) :
    holdCommand d c s = { s with held := s.held ++ [(d.ring, d.fence, c)], hif := (holdCommand d c s).hif } := rfl

/-! ### The vectors (R85, R86) -/

/-- A change of one vector. -/
def onVec (fn : Fn) (v : Fin 64) (f : Vec → Vec) (s : State) : State := onFn fn (fun x => { x with vecs := upd x.vecs v f }) s

theorem onVec_get (fn : Fn) (v : Fin 64) (f : Vec → Vec) (s : State) : ((onVec fn v f s).hif.fns[fn]).vecs[v] = f ((s.hif.fns[fn]).vecs[v]) := by
  have changed : (onVec fn v f s).hif.fns[fn] = { s.hif.fns[fn] with vecs := upd (s.hif.fns[fn]).vecs v f } := onFn_self ..
  rw [changed]
  exact upd_self ..

theorem exec_msixUnmask_pending {fn : Fn} {v : Fin 64} {s : State} (h : BarOpen fn s) (masked : ((s.hif.fns[fn]).vecs[v]).masked = true)
    (pending : ((s.hif.fns[fn]).vecs[v]).pending = true) (awake : inD3hot fn s = false) :
    exec (.msixUnmask fn v) s =
      .next (emit (.msi fn v) (onVec fn v (fun x => { x with masked := false, pending := false, entries := 0, running := false }) s)) :=
  congrArg Host.Outcome.next ((viaBar_open h).trans (if_pos (by rw [masked, pending, awake]; rfl)))

/-- An unmasked vector of a function outside D3hot sends its message. -/
theorem signalVector_sends {fn : Fn} {v : Fin 64} {s : State} (unmasked : ((s.hif.fns[fn]).vecs[v]).masked = false) (awake : inD3hot fn s = false) :
    (signalVector fn v s).out = .msi fn v :: s.out := by
  have quiet : (((s.hif.fns[fn]).vecs[v]).masked || inD3hot fn s) = false := by rw [unmasked, awake]; rfl
  simp only [signalVector, quiet, Bool.false_eq_true, if_false]
  rfl

/-- A vector that signals starts its moderation anew. -/
theorem signalVector_vec (fn : Fn) (v : Fin 64) (s : State) :
    (((signalVector fn v s).hif.fns[fn]).vecs[v]).entries = 0 ∧ (((signalVector fn v s).hif.fns[fn]).vecs[v]).running = false := by
  unfold signalVector
  dsimp only
  split <;> simp

theorem signalVector_kept (fn : Fn) (v : Fin 64) (s : State) :
    (signalVector fn v s).time = s.time ∧ (signalVector fn v s).evr = s.evr ∧ (signalVector fn v s).cfg = s.cfg ∧
      (signalVector fn v s).slices = s.slices := by
  rw [signalVector_frame]
  exact ⟨rfl, rfl, rfl, rfl⟩

theorem exec_vectorTimer_runs {fn : Fn} {v : Fin 64} {s : State} (run : ((s.hif.fns[fn]).vecs[v]).running = true)
    (timed : 0 < ((s.hif.fns[fn]).vecs[v]).timer) :
    exec (.vectorTimer fn v) s = .next (signalVector fn v
      (advanceMono (((s.hif.fns[fn]).vecs[v]).since + 4000 * ((s.hif.fns[fn]).vecs[v]).timer) s)) :=
  if_pos ⟨run, Nat.pos_iff_ne_zero.mp timed⟩

theorem advanceMono_mono (m : Nat) (s : State) : (advanceMono m s).time.mono = max s.time.mono m := by
  rw [advanceMono_time]
  simp only [later]
  omega

/-! ### O14 -/

/-- Settles O14: each clause is the meaning of one write of the host, or of what the ring or the vector does by itself. -/
theorem doorbellsAndFetch : Obligations.DoorbellsAndFetch := by
  unfold Obligations.DoorbellsAndFetch
  refine ⟨?producer, ?overrun, ?stray, ?consumer, ?fetch, ?fetchError, ?unmask, ?timer⟩
  case producer =>
    intro fn page n p s bar inside shown run new ahead room
    exact does_of_next ((exec_doorbellProducer_pair bar inside shown run).trans (congrArg _ (takeProducer_fits new ahead room)))
      ⟨onRing_get .., fun r hr => onRing_other hr .., rfl⟩
  case overrun =>
    intro fn page n p s bar inside shown run beyond new
    refine does_of_next ((exec_doorbellProducer_pair bar inside shown run).trans (congrArg _ (takeProducer_overruns beyond new))) ?_
    rw [ringFail_ring]
    exact ⟨rfl, rfl, ringFail_restKept ..⟩
  case stray =>
    intro fn page offset p s bar inside notProducer notConsumer
    exact does_of_next (exec_doorbellProducer_stray bar inside notProducer notConsumer) ⟨congrArg Func.dbDrop (onFn_self fn _ s), rfl, rfl⟩
  case consumer =>
    intro fn page n v s bar inside shown run
    exact does_of_next (congrArg Host.Outcome.next ((viaPage_open bar inside).trans (takeConsumer_pair shown run)))
      ⟨onRing_get .., fun r hr => onRing_other hr .., rfl⟩
  case fetch =>
    intro n bytes buf found c s notAsked noRestart may notFatal booted named quiet passes
    have passesStill : preCheck (leAt bytes 0 1) ((slotTaken n s).hif.rings[n]).owner (Desc.ofBytes n bytes buf) (slotTaken n s) = none := by
      rw [slotTaken_ring]
      exact passes
    have waits := takeCommand_waits (s := slotTaken n s) notFatal booted named passesStill
    have ran := exec_descriptorFetch_got (bytes := bytes) (buf := buf) (found := found) ⟨notAsked, noRestart, may⟩
    rw [writeBack_nowhere (by rw [slotTaken_ring]; exact quiet), waits] at ran
    refine does_of_next ran ⟨?ring, ?held, ?sent, ?others, ?frame⟩
    case ring =>
      refine (holdCommand_ring ..).trans ?_
      rw [readBuffer_frame]
      show { (slotTaken n s).hif.rings[n] with inFlight := ((slotTaken n s).hif.rings[n]).inFlight + 1 } = _
      rw [slotTaken_ring]
    case held => rw [holdCommand_frame, readBuffer_frame]; rfl
    case sent =>
      rw [holdCommand_frame]
      exact readBuffer_sent List.mem_cons_self ..
    case others =>
      intro r hr
      refine (holdCommand_other hr ..).trans ?_
      rw [readBuffer_frame]
      exact slotTaken_other hr s
    case frame => rw [holdCommand_frame, readBuffer_frame, slotTaken_frame]
  case fetchError =>
    intro n s notAsked noRestart may
    refine does_of_next (exec_descriptorFetch_error ⟨notAsked, noRestart, may⟩) ?_
    rw [ringFail_ring]
    exact ⟨rfl, rfl, (failedRead_restKept ..).trans (ringFail_restKept ..)⟩
  case unmask =>
    intro fn v s bar masked pending awake
    exact does_of_next (exec_msixUnmask_pending bar masked pending awake) ⟨onVec_get .., rfl, rfl⟩
  case timer =>
    intro fn v s run unmasked timed awake
    generalize when : ((s.hif.fns[fn]).vecs[v]).since + 4000 * ((s.hif.fns[fn]).vecs[v]).timer = m
    have fires := exec_vectorTimer_runs run timed
    rw [when] at fires
    obtain ⟨time, evr, cfg, slices⟩ := signalVector_kept fn v (advanceMono m s)
    obtain ⟨entries, stopped⟩ := signalVector_vec fn v (advanceMono m s)
    refine does_of_next fires ⟨?sent, entries, stopped, ?mono, ?rings, ?evr, ?cfg, ?slices⟩
    case sent =>
      rw [signalVector_sends (by rw [advanceMono_hif]; exact unmasked) (by rw [inD3hot, advanceMono_hif]; exact awake), advanceMono_out]
    case mono => rw [time, advanceMono_mono]
    case rings => rw [signalVector_rings, advanceMono_hif]
    case evr => rw [evr, advanceMono_evr]
    case cfg => rw [cfg, advanceMono_cfg]
    case slices => rw [slices, advanceMono_slices]

end Sys2Proof.Machine
end

section
/-! PROOFS. The performance counters (R126, R611, R613, R614; O19). -/
namespace Sys2Proof.Machine
open Sys2Proof

/-! ### COUNTER_CFG (R126, R613, R614) -/

/-- With preserve the count and what is counted stay. -/
theorem counterCfgEffect_preserves {d : Desc} (h : bitOf (d.byte 15) 2 = true) (c : Counter) :
    counterCfgEffect d c = { c with enable := bitOf (d.byte 15) 0, wrapRecord := bitOf (d.byte 15) 1 } := if_pos h

theorem counterCfgEffect_resets {d : Desc} (h : bitOf (d.byte 15) 2 = false) (c : Counter) :
    counterCfgEffect d c = { c with
      count := 0, event := d.u 12 2, mode := d.byte 14, enable := bitOf (d.byte 15) 0, wrapRecord := bitOf (d.byte 15) 1
      unit := d.u 16 4, threshold := d.u 20 4, last := 0 } := if_neg (by simp [h])

/-- The checks read the counters and the owners, which the start of a command leaves. -/
theorem counterCfgCheck_startCommand (d e : Desc) (s : State) : counterCfgCheck d (startCommand e s) = counterCfgCheck d s := rfl

theorem exec_counterCfg_valid {d : Desc} {n : Fin 256} {s : State} (runs : Runs 0x58 d s) (named : d.unit .counter 256 = some n)
    (valid : counterCfgCheck d s = none) :
    exec (.counterCfg d) s = .next (complete (issueOf 0x58 d s) .ok
      (if bitOf (d.byte 15) 0 = true then addClaim 0x0C n { startCommand d s with pmc := { s.pmc with cnt := upd s.pmc.cnt n (counterCfgEffect d) } }
       else dropClaim 0x0C n { startCommand d s with pmc := { s.pmc with cnt := upd s.pmc.cnt n (counterCfgEffect d) } })) := by
  show execCounterCfg d s = _
  simp only [execCounterCfg, hostCommand_runs runs, counterCfgCheck_startCommand, valid, named]
  rfl

/-! ### Additions (R611) -/

theorem upd_upd {α : Type} {n : Nat} (v : Vector α n) (i : Fin n) (f g : α → α) : upd (upd v i f) i g = upd v i fun x => g (f x) := by
  simp [upd]

/-- Two changes that agree on an element are the same change of it. -/
theorem upd_congr {α : Type} {n : Nat} {v : Vector α n} {i : Fin n} {f g : α → α} (h : f v[i] = g v[i]) : upd v i f = upd v i g :=
  congrArg (v.set i) h

/-- An addition whose records have been published: the counter owes none. -/
def addPaid (a : Nat) (c : Counter) : Counter := { addTo a c with wrapDue := 0 }

/-- The carry past 2^48 - 1 is a quotient that is not zero. -/
theorem addPaid_sticky (a : Nat) (c : Counter) : (addPaid a c).sticky = (c.sticky || decide (2 ^ 48 ≤ c.count + a)) := by
  have carries : ((c.count + a) / 2 ^ 48 != 0) = decide (2 ^ 48 ≤ c.count + a) := by
    rw [Bool.eq_iff_iff, bne_iff_ne, decide_eq_true_iff]
    omega
  exact congrArg (c.sticky || ·) carries

/-- Without wrap_record no addition owes a record. -/
theorem addTo_owesNone {c : Counter} (quiet : c.wrapRecord = false) (paid : c.wrapDue = 0) (a : Nat) : (addTo a c).wrapDue = 0 := by
  simp [addTo, quiet, paid]

/-- With it an addition that carries once owes one. -/
theorem addTo_owesOne {c : Counter} {a : Nat} (records : c.wrapRecord = true) (paid : c.wrapDue = 0) (once : (c.count + a) / 2 ^ 48 = 1) :
    (addTo a c).wrapDue = 1 := by
  simp only [addTo, once, records, paid]
  rfl

theorem addPaid_once {c : Counter} {a : Nat} (paid : c.wrapDue = 0) (once : (c.count + a) / 2 ^ 48 = 1) :
    addPaid a c = { c with count := (c.count + a) % 2 ^ 48, sticky := true } := by
  simp only [addPaid, addTo, once, paid, bne_iff_ne.mpr Nat.one_ne_zero, Bool.or_true]

/-- The state in which a counter has counted an addition. -/
def counted (n : Fin 256) (a : Nat) (s : State) : State := { s with pmc := { s.pmc with cnt := upd s.pmc.cnt n (addPaid a) } }

/-- COUNTER_WRAP counts the addition and publishes what the counter then owes. -/
theorem exec_counterWrap (n : Fin 256) (a : Nat) (s : State) :
    exec (.counterWrap n a) s =
      .next ((List.range (addTo a s.pmc.cnt[n]).wrapDue).foldl (fun s _ => recordNow (.counterWrap n) s) (counted n a s)) := by
  show execCounterWrap n a s = _
  have owed : (upd s.pmc.cnt n (addTo a))[n] = addTo a s.pmc.cnt[n] := upd_self ..
  unfold execCounterWrap counted addPaid
  dsimp only
  rw [owed, upd_upd]

/-! ### O19 -/

/-- Settles O19: a valid COUNTER_CFG runs its effect, and an addition publishes as many records as its quotient by 2^48 with wrap_record set. -/
theorem countersCount : Obligations.CountersCount := by
  refine ⟨fun d n s runs named valid => exec_counterCfg_valid runs named valid, fun d c resets => counterCfgEffect_resets resets c,
    ?adds, ?wraps, fun d c preserves => counterCfgEffect_preserves preserves c⟩
  case adds =>
    intro n a s quiet paid
    have runs := exec_counterWrap n a s
    rw [addTo_owesNone quiet paid, List.range_zero, List.foldl_nil] at runs
    have same : (counted n a s).pmc.cnt[n] = addPaid a s.pmc.cnt[n] := upd_self ..
    refine does_of_next runs ⟨?count, ?sticky, fun m other => upd_other _ _ _ _ other, rfl⟩
    case count => exact congrArg Counter.count same
    case sticky => exact (congrArg Counter.sticky same).trans (addPaid_sticky ..)
  case wraps =>
    intro n a s records paid once
    have runs := exec_counterWrap n a s
    rw [addTo_owesOne records paid once, List.range_one, List.foldl_cons, List.foldl_nil] at runs
    have same : upd s.pmc.cnt n (addPaid a) = upd s.pmc.cnt n fun c => { c with count := (c.count + a) % 2 ^ 48, sticky := true } :=
      upd_congr (addPaid_once paid once)
    rw [counted, same] at runs
    exact runs

end Sys2Proof.Machine
end

section
/-! PROOFS. A CFG_COMMIT that cancels (R136; O51). -/
namespace Sys2Proof.Machine
open Sys2Proof

/-- With valid fields and cancel = 1 it withdraws what is pending and completes OK. -/
theorem exec_cfgCommit_cancels {d : Desc} {s : State} (runs : Runs 0x03 d s) (valid : firstFail (commitFields d) = none) (cancel : d.byte 22 = 1)
    (ue : Bool) : exec (.cfgCommit d ue) s = .next (complete (issueOf 0x03 d s) .ok (cancelCommit (startCommand d s))) := by
  show execCfgCommit d ue s = _
  simp only [execCfgCommit, hostCommand_runs runs, valid, if_pos cancel]

theorem cancelCommit_pending {p : PendingCommit} {s : State} (pending : s.cfg.commit = some p) :
    cancelCommit s = complete p.issue .superseded { s with cfg := { s.cfg with commit := none } } := by
  simp only [cancelCommit, pending]
  rfl

theorem cancelCommit_nothing {s : State} (nothing : s.cfg.commit = none) : cancelCommit s = s := by
  simp only [cancelCommit, nothing]

/-- Settles O51: the start of the command leaves the pending commit, which the cancel withdraws. -/
theorem aCancelWithdrawsTheCommit : Obligations.ACancelWithdrawsTheCommit := by
  refine ⟨?pending, ?nothing⟩
  case pending =>
    intro d ue p s runs valid cancel pending
    have started : (startCommand d s).cfg.commit = some p := pending
    rw [exec_cfgCommit_cancels runs valid cancel, cancelCommit_pending started]
    rfl
  case nothing =>
    intro d ue s runs valid cancel nothing
    have started : (startCommand d s).cfg.commit = none := nothing
    rw [exec_cfgCommit_cancels runs valid cancel, cancelCommit_nothing started]

end Sys2Proof.Machine
end

section
/-! PROOFS. Writes of the flash (R150, R151, R153) and the service-life ledger (R641, R642; O53). -/
namespace Sys2Proof.Machine
open Sys2Proof

/-! ### A write ends (R153) -/

/-- The end of a write that is under way is that of the first which waits. -/
theorem exec_flashWriteDone_busy {i : FlashItem} {rest : List FlashItem} {s : State} (waits : s.flash.queue = i :: rest) (warm : s.flash.held = false)
    (works : s.flash.failed = false) (ok : Bool) :
    exec (.flashWriteDone ok) s = .next (if ok then flashDone i rest s else flashFails i s) := by
  have busy : flashBusy s = true := by simp [flashBusy, waits, warm, works]
  show execFlashWriteDone ok s = _
  simp only [execFlashWriteDone, waits, busy, Bool.not_true, Bool.false_eq_true, if_false]

theorem exec_flashWriteDone_quiet {s : State} (quiet : s.flash.queue = [] ∨ s.flash.held = true ∨ s.flash.failed = true) (ok : Bool) :
    exec (.flashWriteDone ok) s = .next s := by
  have idle : flashBusy s = false := by
    rcases quiet with h | h | h <;> simp [flashBusy, h]
  show execFlashWriteDone ok s = _
  unfold execFlashWriteDone
  split
  · rfl
  · rw [idle]
    rfl

/-! ### A write that is verified -/

/-- What follows a verified write keeps the queue, the tries, the time and the configuration. -/
structure QueueKept (s t : State) : Prop where
  queue : t.flash.queue = s.flash.queue
  tries : t.flash.tries = s.flash.tries
  time  : t.time = s.time
  cfg   : t.cfg = s.cfg

theorem QueueKept.refl (s : State) : QueueKept s s := ⟨rfl, rfl, rfl, rfl⟩

theorem QueueKept.trans {s t u : State} (h : QueueKept s t) (k : QueueKept t u) : QueueKept s u :=
  ⟨k.queue.trans h.queue, k.tries.trans h.tries, k.time.trans h.time, k.cfg.trans h.cfg⟩

/-- Answers are beside the flash. -/
theorem QueueKept.of_answered {s t : State} (h : Answered s t) : QueueKept s t := by
  rw [h]
  exact ⟨rfl, rfl, rfl, rfl⟩

theorem onSec_queueKept (f : Security → Security) (s : State) : QueueKept s (onSec f s) := ⟨rfl, rfl, rfl, rfl⟩

/-- A record of the configuration's history changes the recorder and the counters only. -/
theorem cfgRecord_frame (kind old new : Nat) (s : State) :
    cfgRecord kind old new s = { s with evr := (cfgRecord kind old new s).evr, pmc := (cfgRecord kind old new s).pmc } := recordNow_frame ..

theorem cfgRecord_queueKept (kind old new : Nat) (s : State) : QueueKept s (cfgRecord kind old new s) := by
  rw [cfgRecord_frame]
  exact ⟨rfl, rfl, rfl, rfl⟩

theorem storeItem_queueKept (i : FlashItem) (s : State) : QueueKept s (storeItem i s) := by
  cases i with
  | slot | directory | map | ledger => exact ⟨rfl, rfl, rfl, rfl⟩
  | keys => exact .refl s
  | firmware =>
    unfold storeItem
    dsimp only
    split
    · exact ((onSec_queueKept ..).trans (onSec_queueKept ..)).trans (.of_answered (complete_answered ..))
    · exact onSec_queueKept ..

/-- The last configuration change that was late is recorded, and nothing waits again (R596). -/
theorem flashDone_queueKept (i : FlashItem) (rest : List FlashItem) (s : State) :
    QueueKept { s with flash := { s.flash with queue := rest, tries := 0 } } (flashDone i rest s) := by
  unfold flashDone
  dsimp only
  refine (storeItem_queueKept i _).trans ?_
  split
  · exact QueueKept.trans (t := onFlash _ _) ⟨rfl, rfl, rfl, rfl⟩ (cfgRecord_queueKept ..)
  · exact .refl _

/-! ### A write that fails -/

/-- A failure or a hold of writes marks the late changes and nothing else. -/
theorem markLate_frame (f : Flash) : markLate f = { f with late := (markLate f).late } := by
  unfold markLate
  split <;> rfl

/-- The state in which the writing waits 10 s after a failure. -/
def writesWait (s : State) : State :=
  { s with flash := markLate { s.flash with tries := s.flash.tries + 1, failed := true, retryAt := s.time.mono + 10 * qSecond } }

theorem writesWait_flash (s : State) :
    (writesWait s).flash.failed = true ∧ (writesWait s).flash.retryAt = s.time.mono + 10 * qSecond ∧ (writesWait s).flash.queue = s.flash.queue := by
  unfold writesWait
  rw [markLate_frame]
  exact ⟨rfl, rfl, rfl⟩

/-- The first and the second failure are tried again at once. -/
theorem flashFails_retries {s : State} (early : s.flash.tries < 2) (i : FlashItem) :
    flashFails i s = { s with flash := { s.flash with tries := s.flash.tries + 1 } } := by
  have retries : s.flash.tries + 1 < 3 := by omega
  exact if_pos retries

/-- The third waits and raises source 292; that of a configuration change is recorded too. -/
theorem flashFails_third {s : State} (third : s.flash.tries = 2) (i : FlashItem) :
    flashFails i s = if isConfigItem i then cfgRecord 5 (slotVersion s.cfg.active) (slotVersion s.cfg.active) (raise 292 0 0 (writesWait s))
      else raise 292 0 0 (writesWait s) := by
  have many : ¬ s.flash.tries + 1 < 3 := by omega
  have now : ¬ s.flash.tries + 1 ≠ 3 := by omega
  exact (if_neg many).trans (if_neg now)

/-- A later one waits. -/
theorem flashFails_later {s : State} (late : 3 ≤ s.flash.tries) (i : FlashItem) : flashFails i s = writesWait s := by
  have many : ¬ s.flash.tries + 1 < 3 := by omega
  have past : s.flash.tries + 1 ≠ 3 := by omega
  exact (if_neg many).trans (if_pos past)

/-- Beside the wait and the source a third failure leaves a record at most. -/
theorem flashFails_third_frame {s : State} (third : s.flash.tries = 2) (i : FlashItem) :
    flashFails i s = { raise 292 0 0 (writesWait s) with evr := (flashFails i s).evr, pmc := (flashFails i s).pmc } := by
  rw [flashFails_third third]
  split
  · exact cfgRecord_frame ..
  · rfl

/-! ### The writes go on (R151, R153) -/

theorem exec_flashRetry_failed {s : State} (failed : s.flash.failed = true) :
    exec .flashRetry s = .next { advanceMono s.flash.retryAt s with flash := { s.flash with failed := false } } := by
  show execFlashRetry s = _
  rw [execFlashRetry, if_pos failed, onFlash, advanceMono_flash]

theorem exec_persistFlush_held {m : Nat} {s : State} (returned : allHeld (·.flash) s = some m) (held : s.flash.held = true) :
    exec .persistFlush s = .next { advanceMono m s with flash := { s.flash with held := false } } := by
  show execPersistFlush s = _
  simp only [execPersistFlush, returned, if_pos held, onFlash, advanceMono_flash]

/-! ### The ledger (R641, R642) -/

/-- The state whose ledger has counted a second. -/
def ledgerCounted (s : State) : State :=
  { s with thm := { s.thm with ledger :=
    { bins := updAll s.thm.ledger.bins fun z b => upd b (ledgerBin (zoneValue z s)) (· + 1)
      life := s.thm.ledger.life + ageing (zoneValue (hottestZone s) s) } } }

/-- The end of life is reported at the hottest zone, once. -/
def reportLife (s : State) : State := raise 280 0 (zoneDetail (hottestZone s) s) { s with thm := { s.thm with lifeFull := true } }

theorem exec_ledgerSecond (s : State) :
    exec .ledgerSecond s = .next (if s.thm.lifeFull = false ∧ 1262304000 * 2 ^ 32 ≤ (ledgerCounted s).thm.ledger.life
      then reportLife (ledgerCounted s) else ledgerCounted s) := by
  show execLedgerSecond s = _
  unfold execLedgerSecond
  dsimp only
  split
  · next full => exact congrArg _ (if_pos full).symm
  · next young => exact congrArg _ (if_neg young).symm

/-- Whether or not the end of life is reported, the ledger has counted, beside the thermal block and the sources nothing changes. -/
theorem ledgerSecond_does (s : State) :
    Does .ledgerSecond s fun t => t.thm.ledger = (ledgerCounted s).thm.ledger ∧ t = { s with thm := t.thm, flt := t.flt } := by
  refine does_of_next (exec_ledgerSecond s) ?_
  split <;> exact ⟨rfl, rfl⟩

/-- At 95 °C a second ages the part by a second. -/
theorem ageing_reference : ageing 760 = 2 ^ 32 := if_pos rfl

/-! ### O53 -/

/-- Settles O53: each clause is one case of a write's end, of its return, or of a second of the ledger. -/
theorem flashWritesAndTheLedger : Obligations.FlashWritesAndTheLedger := by
  refine ⟨?verified, ?retried, ?third, fun s failed => exec_flashRetry_failed failed, fun m s returned held => exec_persistFlush_held returned held,
    ?second, ?persist, ?later, fun ok s quiet => exec_flashWriteDone_quiet quiet ok, ?reference, ?full⟩
  case verified =>
    intro i rest s waits warm works
    obtain ⟨queue, tries, time, cfg⟩ := flashDone_queueKept i rest s
    exact does_of_next (exec_flashWriteDone_busy waits warm works true) ⟨queue, tries, time, cfg⟩
  case retried =>
    intro i rest s waits warm works early
    exact (exec_flashWriteDone_busy waits warm works false).trans (congrArg _ (flashFails_retries early i))
  case third =>
    intro i rest s waits warm works third
    obtain ⟨failed, retryAt, queue⟩ := writesWait_flash s
    refine does_of_next (t := flashFails i s) (exec_flashWriteDone_busy waits warm works false) ?_
    have frame := flashFails_third_frame third i
    generalize flashFails i s = t at frame ⊢
    rw [frame]
    exact ⟨failed, retryAt, queue, raise_events 292 0 0 (writesWait s), rfl⟩
  case second =>
    intro s
    obtain ⟨t, runs, ledger, frame⟩ := ledgerSecond_does s
    refine does_of_next runs ⟨fun z => ?_, by rw [ledger]; rfl, frame⟩
    rw [ledger]
    exact updAll_get ..
  case persist =>
    intro s
    exact does_of_next rfl ⟨queueFlash_mem .ledger s, queueFlash_frame .ledger s⟩
  case later =>
    intro i rest s waits warm works late
    exact (exec_flashWriteDone_busy waits warm works false).trans (congrArg _ (flashFails_later late i))
  case reference =>
    intro s hot
    obtain ⟨t, runs, ledger, -⟩ := ledgerSecond_does s
    refine does_of_next runs ?_
    rw [ledger, ledgerCounted, hot, ageing_reference]
  case full =>
    intro s young full
    have runs := exec_ledgerSecond s
    rw [if_pos ⟨young, Nat.le_trans full (Nat.le_add_right ..)⟩] at runs
    exact does_of_next runs ⟨rfl, raise_events 280 ..⟩

end Sys2Proof.Machine
end

section
/-! PROOFS. The tiles and the radios of their ports (R158 to R209): which parts of the state work on one tile and work on ports may touch, and what
each operation does to a tile and to a port's radio. -/
namespace Sys2Proof.Machine
open Sys2Proof

/-! ### Answers, records and events leave the tiles alone -/

theorem recordNow_answered (p : Payload) (s : State) : Answered s (recordNow p s) := record_answered ..

theorem notify_answered (src u d : Nat) (s : State) : Answered s (notify src u d s) := record_answered ..

theorem Answered.flt {s t : State} (h : Answered s t) : t.flt = s.flt := by rw [h]

theorem Answered.tiles {s t : State} (h : Answered s t) : t.tiles = s.tiles := by rw [h]

@[simp] theorem complete_tiles (i : Issue) (st : Status) (s : State) : (complete i st s).tiles = s.tiles := (complete_answered ..).tiles

@[simp] theorem completeOpt_tiles (i : Option Issue) (st : Status) (s : State) : (completeOpt i st s).tiles = s.tiles := (completeOpt_answered ..).tiles

@[simp] theorem recordNow_tiles (p : Payload) (s : State) : (recordNow p s).tiles = s.tiles := (recordNow_answered ..).tiles

@[simp] theorem notify_tiles (src u d : Nat) (s : State) : (notify src u d s).tiles = s.tiles := (notify_answered ..).tiles

@[simp] theorem enterThaw_tiles (s : State) : (enterThaw s).tiles = s.tiles := by
  unfold enterThaw
  split
  · rfl
  · split <;> rfl

/-! ### What work on tiles and ports leaves alone -/

/-- Time, the slices and the configuration stand. -/
structure RadioKept (s t : State) : Prop where
  time   : t.time = s.time
  slices : t.slices = s.slices
  cfg    : t.cfg = s.cfg

theorem RadioKept.trans {s t u : State} (h : RadioKept s t) (k : RadioKept t u) : RadioKept s u :=
  ⟨k.time.trans h.time, k.slices.trans h.slices, k.cfg.trans h.cfg⟩

theorem RadioKept.of_cycled {s t : State} (h : Cycled s t) : RadioKept s t := by
  rw [h]
  exact ⟨rfl, rfl, rfl⟩

/-- The parts of the state that work on tile `i` may touch: that tile, the chains that its queues feed, the collector and the answers. -/
structure TileWork (i : Fin 4) (s t : State) : Prop where
  frame  : t = { s with
    out := t.out, hif := t.hif, evr := t.evr, pmc := t.pmc, flt := t.flt, dfe := t.dfe, sig := t.sig, tiles := { s.tiles with tile := t.tiles.tile } }
  others : ∀ j : Fin 4, j ≠ i → t.tiles.tile[j] = s.tiles.tile[j]

theorem TileWork.refl (i : Fin 4) (s : State) : TileWork i s s := ⟨rfl, fun _ _ => rfl⟩

theorem TileWork.trans {i : Fin 4} {s t u : State} (h : TileWork i s t) (k : TileWork i t u) : TileWork i s u where
  frame := by
    have hf := h.frame
    have kf := k.frame
    rw [kf, hf]
  others j hj := (k.others j hj).trans (h.others j hj)

theorem TileWork.of_answered {i : Fin 4} {s t : State} (h : Answered s t) : TileWork i s t where
  frame := by rw [h]
  others _ _ := by rw [h]

theorem TileWork.kept {i : Fin 4} {s t : State} (h : TileWork i s t) : RadioKept s t := by
  rw [h.frame]
  exact ⟨rfl, rfl, rfl⟩

theorem startCommand_kept (d : Desc) (s : State) : RadioKept s (startCommand d s) := ⟨rfl, rfl, rfl⟩

theorem TileWork.time {i : Fin 4} {s t : State} (h : TileWork i s t) : t.time = s.time := h.kept.time

theorem TileWork.rx {i : Fin 4} {s t : State} (h : TileWork i s t) : t.tiles.rx = s.tiles.rx := by rw [h.frame]

theorem TileWork.tx {i : Fin 4} {s t : State} (h : TileWork i s t) : t.tiles.tx = s.tiles.tx := by rw [h.frame]

/-- The parts of the state that work on ports may touch: the ports, front-end control and the answers. -/
def PortWork (s t : State) : Prop :=
  t = { s with out := t.out, hif := t.hif, evr := t.evr, pmc := t.pmc, fec := t.fec, tiles := { s.tiles with rx := t.tiles.rx, tx := t.tiles.tx } }

theorem PortWork.refl (s : State) : PortWork s s := rfl

theorem PortWork.trans {s t u : State} (h : PortWork s t) (k : PortWork t u) : PortWork s u := by
  unfold PortWork at *
  rw [k, h]

theorem PortWork.of_answered {s t : State} (h : Answered s t) : PortWork s t := by
  unfold PortWork
  rw [h]

theorem PortWork.kept {s t : State} (h : PortWork s t) : RadioKept s t := by
  rw [h]
  exact ⟨rfl, rfl, rfl⟩

theorem PortWork.flt {s t : State} (h : PortWork s t) : t.flt = s.flt := by rw [h]

theorem PortWork.tile {s t : State} (h : PortWork s t) : t.tiles.tile = s.tiles.tile := by rw [h]

/-! ### One tile -/

@[simp] theorem onTile_self (i : Fin 4) (f : Tile → Tile) (s : State) : (onTile i f s).tiles.tile[i.val] = f s.tiles.tile[i.val] :=
  upd_self s.tiles.tile i f

theorem onTile_tileWork (i : Fin 4) (f : Tile → Tile) (s : State) : TileWork i s (onTile i f s) :=
  ⟨rfl, fun j hj => upd_other s.tiles.tile i j f hj⟩

@[simp] theorem onSynth_self (i : Fin 4) (y : Fin 2) (f : Synth → Synth) (s : State) :
    (onSynth i y f s).tiles.tile[i.val] = { s.tiles.tile[i.val] with syn := upd (s.tiles.tile[i.val]).syn y f } := onTile_self ..

theorem onSynth_tileWork (i : Fin 4) (y : Fin 2) (f : Synth → Synth) (s : State) : TileWork i s (onSynth i y f s) := onTile_tileWork ..

theorem raise_tileWork (i : Fin 4) (src : Fin 320) (u d : Nat) (s : State) : TileWork i s (raise src u d s) := ⟨rfl, fun _ _ => rfl⟩

theorem recordNow_tileWork (i : Fin 4) (p : Payload) (s : State) : TileWork i s (recordNow p s) := .of_answered (recordNow_answered ..)

theorem completeOpt_tileWork (i : Fin 4) (iss : Option Issue) (st : Status) (s : State) : TileWork i s (completeOpt iss st s) :=
  .of_answered (completeOpt_answered ..)

/-- The end of a tile's request changes what it answers. -/
@[simp] theorem finishTile_self (i : Fin 4) (s : State) :
    (finishTile i s).tiles.tile[i.val] = { s.tiles.tile[i.val] with
      floorIssue := if (s.tiles.tile[i.val]).state = (s.tiles.tile[i.val]).floor then none else (s.tiles.tile[i.val]).floorIssue } := by
  unfold finishTile
  dsimp only [Fin.getElem_fin]
  split <;> simp

theorem finishTile_tileWork (i : Fin 4) (s : State) : TileWork i s (finishTile i s) := by
  unfold finishTile
  dsimp only
  split
  · exact (onTile_tileWork ..).trans (completeOpt_tileWork ..)
  · exact .refl i s

theorem abandonRecord_tileWork (i : Fin 4) (s : State) : TileWork i s (abandonRecord i s) := (recordNow_tileWork ..).trans (raise_tileWork ..)

@[simp] theorem abandonRecord_tiles (i : Fin 4) (s : State) : (abandonRecord i s).tiles = s.tiles :=
  (raise_tiles ..).trans (recordNow_tiles ..)

theorem abandonPrep_tileWork (i : Fin 4) (s : State) : TileWork i s (abandonPrep i s) := by
  unfold abandonPrep
  split
  · exact .refl i s
  · refine TileWork.trans ?_ (completeOpt_tileWork ..)
    split
    · exact (onTile_tileWork ..).trans (abandonRecord_tileWork ..)
    · exact onTile_tileWork ..

theorem abandonStandby_tileWork (i : Fin 4) (s : State) : TileWork i s (abandonStandby i s) := by
  unfold abandonStandby
  split
  · exact .refl i s
  · exact ((onTile_tileWork ..).trans (onSynth_tileWork ..)).trans (.of_answered (complete_answered ..))

@[simp] theorem abandonStandby_state (i : Fin 4) (s : State) :
    ((abandonStandby i s).tiles.tile[i.val]).state = (s.tiles.tile[i.val]).state := by
  unfold abandonStandby
  split <;> simp

theorem leaveSynthOn_tileWork (i : Fin 4) (new : TileState) (s : State) : TileWork i s (leaveSynthOn i new s) :=
  (abandonPrep_tileWork ..).trans (onTile_tileWork ..)

@[simp] theorem leaveSynthOn_state (i : Fin 4) (new : TileState) (s : State) : ((leaveSynthOn i new s).tiles.tile[i.val]).state = new := by
  simp [leaveSynthOn]

/-! ### The preparation of a twin (R173) -/

theorem startPrep_tileWork (i : Fin 4) (handover : Bool) (iss : Option Issue) (instant : Option Nat) (again : Bool) (s : State) :
    TileWork i s (startPrep i handover iss instant again s) := (onTile_tileWork ..).trans (onSynth_tileWork ..)

/-- The preparation that begins: a twin that is prepared already keeps its calibration. -/
def prepStarted (i : Fin 4) (handover : Bool) (iss : Option Issue) (instant : Option Nat) (again : Bool) (s : State) : Prep :=
  let y := (s.tiles.tile[i]).syn[twinOf s.tiles.tile[i]]
  { handover := handover, issue := iss, instant := instant, step := .preparing, boundary := 0, again := again
    temp := if twinReady i s then y.calTemp else zoneValue (tileZone i) s, band := if twinReady i s then y.calBand else tileBand i s }

/-- A tile whose twin begins to be prepared. -/
theorem startPrep_self (i : Fin 4) (handover : Bool) (iss : Option Issue) (instant : Option Nat) (again : Bool) (s : State) :
    (startPrep i handover iss instant again s).tiles.tile[i.val] = { s.tiles.tile[i.val] with
      prep := some (prepStarted i handover iss instant again s), retryAt := none
      syn := upd (s.tiles.tile[i.val]).syn (twinOf s.tiles.tile[i.val]) fun y =>
        if twinReady i s then { y with state := .calibrating } else { y with state := .calibrating, locked := false, prepared := false } } := by
  refine (onSynth_self ..).trans ?_
  rw [onTile_self]
  rfl

theorem startPrep_state (i : Fin 4) (handover : Bool) (iss : Option Issue) (instant : Option Nat) (again : Bool) (s : State) :
    ((startPrep i handover iss instant again s).tiles.tile[i.val]).state = (s.tiles.tile[i.val]).state := by
  rw [startPrep_self]

/-! ### The entry into SynthOn (R28, R171) -/

theorem alignQueues_tileWork (i : Fin 4) (s : State) : TileWork i s (alignQueues i s) :=
  TileWork.trans (t := onSig _ (onDfe _ s)) ⟨rfl, fun _ _ => rfl⟩ (onTile_tileWork ..)

theorem alignQueues_state (i : Fin 4) (s : State) : ((alignQueues i s).tiles.tile[i.val]).state = (s.tiles.tile[i.val]).state := by
  simp [alignQueues]

theorem enterSynthOn_tileWork (i : Fin 4) (y : Fin 2) (stored : Bool) (s : State) : TileWork i s (enterSynthOn i y stored s) := by
  unfold enterSynthOn
  extract_lets x z band relock t u v twin
  have entered : TileWork i s v := ((onSynth_tileWork ..).trans (onTile_tileWork ..)).trans (alignQueues_tileWork ..)
  split
  · exact entered
  · exact entered.trans (startPrep_tileWork ..)

theorem enterSynthOn_state (i : Fin 4) (y : Fin 2) (stored : Bool) (s : State) :
    ((enterSynthOn i y stored s).tiles.tile[i.val]).state = .synthOn := by
  unfold enterSynthOn
  extract_lets x z band relock t u v twin
  have entered : (v.tiles.tile[i.val]).state = .synthOn := by
    show ((alignQueues i u).tiles.tile[i.val]).state = _
    rw [alignQueues_state, onTile_self]
  split
  · exact entered
  · rw [startPrep_state, entered]

/-! ### The radio of a port -/

theorem radioOf_of_tiles {s t : State} (h : t.tiles = s.tiles) (v : RadioUnit) : radioOf v t = radioOf v s := by
  cases v <;> simp [radioOf, h]

theorem TileWork.radioOf {i : Fin 4} {s t : State} (h : TileWork i s t) (v : RadioUnit) : radioOf v t = radioOf v s := by
  cases v <;> simp [Machine.radioOf, h.rx, h.tx]

theorem onRadio_self (u : RadioUnit) (f : Radio → Radio) (s : State) : radioOf u (onRadio u f s) = (radioOf u s).map f := by
  cases u <;> simp [radioOf, onRadio, onRx, onTx]

theorem onRadio_other {u v : RadioUnit} (h : v ≠ u) (f : Radio → Radio) (s : State) : radioOf v (onRadio u f s) = radioOf v s := by
  cases u with
  | tile i => rfl
  | rx p =>
    cases v with
    | rx q => exact congrArg (fun x : RxPort => some x.radio) (upd_other s.tiles.rx p q _ fun e => h (congrArg RadioUnit.rx e))
    | tx q | tile j => rfl
  | tx p =>
    cases v with
    | tx q => exact congrArg (fun x : TxPort => some x.radio) (upd_other s.tiles.tx p q _ fun e => h (congrArg RadioUnit.tx e))
    | rx q | tile j => rfl

theorem onRadio_portWork (u : RadioUnit) (f : Radio → Radio) (s : State) : PortWork s (onRadio u f s) := by
  cases u <;> rfl

theorem cxEdges_tiles (old : FrontEnd) (s : State) (c : Fin 8) : (cxEdges old s c).tiles = s.tiles := by
  unfold cxEdges
  dsimp only
  repeat' split
  all_goals rfl

theorem settleCx_tiles (s : State) : (settleCx s).tiles = s.tiles := by
  unfold settleCx
  exact foldl_keeps (fun s t => t.tiles = s.tiles) (fun _ => rfl) (fun h k => k.trans h) _ (cxEdges_tiles s.fec) _ _

theorem settleFems_tiles (old s : State) : (settleFems old s).tiles = s.tiles := rfl

/-- Bringing the outputs up to date changes the ports alone, each by itself. -/
theorem settle_tiles (s : State) : (settle s).tiles = (settlePorts s).tiles := (settleFems_tiles ..).trans (settleCx_tiles _)

theorem settlePorts_tile (s : State) : (settlePorts s).tiles.tile = s.tiles.tile := by simp only [settlePorts]

theorem driveRx_radio (s : State) (m : Fin 32) (x : RxPort) : (driveRx s m x).radio = x.radio := by simp only [driveRx]

theorem driveTx_radio (s : State) (m : Fin 32) (x : TxPort) : (driveTx s m x).radio = x.radio := by simp only [driveTx]

theorem PortWork.of_levelled {s t : State} (h : Levelled s t) (tile : t.tiles.tile = s.tiles.tile) : PortWork s t := by
  unfold PortWork
  dsimp only
  rw [← tile, h]

theorem settle_portWork (s : State) : PortWork s (settle s) :=
  .of_levelled (settle_frame s) ((congrArg Tiles.tile (settle_tiles s)).trans (settlePorts_tile s))

@[simp] theorem settle_radioOf (v : RadioUnit) (s : State) : radioOf v (settle s) = radioOf v s := by
  rw [radioOf_of_tiles (settle_tiles s)]
  cases v with
  | tile i => simp only [radioOf]
  | rx p => simp only [radioOf, settlePorts, Fin.getElem_fin, updAll_get, driveRx_radio]
  | tx p => simp only [radioOf, settlePorts, Fin.getElem_fin, updAll_get, driveTx_radio]

/-- Bringing the outputs up to date, with what Thaw does, changes no radio. -/
@[simp] theorem calm_radioOf (v : RadioUnit) (s : State) : radioOf v (calm s) = radioOf v s := by
  rw [calm, radioOf_of_tiles (enterThaw_tiles _), settle_radioOf]

theorem calm_tile (s : State) : (calm s).tiles.tile = s.tiles.tile := by
  rw [calm, enterThaw_tiles, (settle_portWork s).tile]

@[simp] theorem advanceMono_radioOf (n : Nat) (v : RadioUnit) (s : State) : radioOf v (advanceMono n s) = radioOf v s := by
  cases v with
  | rx p => exact congrArg some (elapse_sameRxRadios _ s p)
  | tx p => simp [radioOf]
  | tile i => rfl

/-! ### Requests (R203) -/

theorem endRequest_portWork (u : RadioUnit) (st : Status) (s : State) : PortWork s (endRequest u st s) := by
  unfold endRequest dropIssue
  split
  · exact (onRadio_portWork ..).trans (.of_answered (complete_answered ..))
  · exact .refl s

/-- The end of a port's request leaves it no command to answer, and changes nothing else of its radio. -/
theorem endRequest_self (u : RadioUnit) (st : Status) (s : State) :
    radioOf u (endRequest u st s) = (radioOf u s).map fun r => { r with issue := none } := by
  unfold endRequest dropIssue
  split
  · rw [radioOf_of_tiles (complete_tiles ..), onRadio_self]
  · next idle =>
    cases hr : radioOf u s with
    | none => rfl
    | some r =>
      have none : r.issue = none := by simpa [hr] using idle
      rw [Option.map_some, ← none]

theorem endRequest_other {u v : RadioUnit} (h : v ≠ u) (st : Status) (s : State) : radioOf v (endRequest u st s) = radioOf v s := by
  unfold endRequest dropIssue
  split
  · rw [radioOf_of_tiles (complete_tiles ..), onRadio_other h]
  · rfl

/-- The state and the target of a port's radio. -/
def portAim (u : RadioUnit) (s : State) : Option (PortState × PortState) := (radioOf u s).map fun r => (r.state, r.target)

theorem portAim_of_radioOf {s t : State} {v : RadioUnit} (h : radioOf v t = radioOf v s) : portAim v t = portAim v s := by
  simp only [portAim, h]

theorem portAim_some {u : RadioUnit} {s : State} {a b : PortState} (h : portAim u s = some (a, b)) :
    ∃ r, radioOf u s = some r ∧ r.state = a ∧ r.target = b := by
  simpa [portAim] using h

/-- A change of a radio beside its state and target. -/
theorem onRadio_aim {f : Radio → Radio} (h : ∀ r, (f r).state = r.state ∧ (f r).target = r.target) (u v : RadioUnit) (s : State) :
    portAim v (onRadio u f s) = portAim v s := by
  by_cases same : v = u
  · subst same
    simp [portAim, onRadio_self, h, Function.comp_def]
  · exact portAim_of_radioOf (onRadio_other same f s)

@[simp] theorem endRequest_aim (u v : RadioUnit) (st : Status) (s : State) : portAim v (endRequest u st s) = portAim v s := by
  by_cases same : v = u
  · subst same
    simp [portAim, endRequest_self, Function.comp_def]
  · exact portAim_of_radioOf (endRequest_other same st s)

@[simp] theorem settle_aim (v : RadioUnit) (s : State) : portAim v (settle s) = portAim v s := portAim_of_radioOf (settle_radioOf v s)

theorem finishRequests_portWork (u : RadioUnit) (s : State) : PortWork s (finishRequests u s) := by
  unfold finishRequests
  dsimp only
  split
  · exact foldl_keeps PortWork .refl .trans _ (fun s v => endRequest_portWork v .ok s) _ s
  · exact .refl s

@[simp] theorem finishRequests_aim (u v : RadioUnit) (s : State) : portAim v (finishRequests u s) = portAim v s := by
  unfold finishRequests
  dsimp only
  split
  · exact foldl_keeps (fun s t => portAim v t = portAim v s) (fun _ => rfl) (fun h k => k.trans h) _ (fun s w => endRequest_aim w v .ok s) _ s
  · rfl

/-- Operations on the ports of a list that each change one radio change no radio beside the list. -/
theorem foldl_radioOf {f : State → RadioUnit → State} (h : ∀ s w v, v ≠ w → radioOf v (f s w) = radioOf v s) {l : List RadioUnit} {v : RadioUnit}
    (out : v ∉ l) (s : State) : radioOf v (l.foldl f s) = radioOf v s := by
  induction l generalizing s with
  | nil => rfl
  | cons w l ih =>
    rw [List.mem_cons, not_or] at out
    exact (ih out.2 _).trans (h s w v out.1)

theorem finishRequests_other {u v : RadioUnit} {s : State} (out : v ∉ membersOf u s) : radioOf v (finishRequests u s) = radioOf v s := by
  unfold finishRequests
  dsimp only
  split
  · exact foldl_radioOf (f := fun s w => endRequest w .ok s) (fun s w v h => endRequest_other h .ok s) out s
  · rfl

end Sys2Proof.Machine
end

section
/-! PROOFS. Radio states (R178, R184, R196 to R206; O28): what a request gives each port it acts on, how a port passes the states on the way to its
target, and what a tile's transition and a failed lock leave behind. -/
namespace Sys2Proof.Machine
open Sys2Proof

/-! ### A RADIO_STATE (R198 to R204) -/

/-- One that passes its checks is its request. -/
theorem exec_radioState {d : Desc} {s : State} {u : RadioUnit} (runs : Runs 0x10 d s) (unit : radioUnit d.tgt = some u)
    (checks : radioChecks u (d.byte 12) (d.byte 13) s = none)
    (valid : firstFail [d.strayCheck [(12, 2)], (d.byte 12 == 4 && (thawing s || anyCritical s), refuseTarget .tempRange d.tgt)] = none) :
    exec (.radioState d) s = .next (request u (d.byte 12) (d.byte 13 == 1) (some (issueOf 0x10 d s)) (startCommand d s)) := by
  have checks' : radioChecks u (d.byte 12) (d.byte 13) (startCommand d s) = none := checks
  have valid' : firstFail [d.strayCheck [(12, 2)],
    (d.byte 12 == 4 && (thawing (startCommand d s) || anyCritical (startCommand d s)), refuseTarget .tempRange d.tgt)] = none := valid
  show execRadioState d s = _
  simp only [execRadioState, hostCommand_runs runs, unit, checks', valid']

/-- What the checks ask of a member of a pair, they ask of the other (R201). -/
theorem radioChecks_pair {p : Fin 32} {s : State} (pair : isPair p s = true) (code flags : Nat) :
    radioChecks (.tx p) code flags s = radioChecks (.rx p) code flags s := by
  have fits : codeFits (.tx p) code s = codeFits (.rx p) code s := by
    rw [Bool.eq_iff_iff]
    simp only [codeFits, pair, Bool.and_true, Bool.or_eq_true, decide_eq_true_eq, beq_iff_eq]
    omega
  have members : membersOf (.tx p) s = membersOf (.rx p) s := by simp [membersOf, pair]
  simp only [radioChecks, anyRetired, fits, members]

theorem mem_membersOf_self (u : RadioUnit) (port : ∀ i, u ≠ .tile i) (s : State) : u ∈ membersOf u s := by
  cases u with
  | tile i => exact absurd rfl (port i)
  | rx p | tx p =>
    simp only [membersOf]
    split <;> simp

theorem membersOf_nodup (u : RadioUnit) (s : State) : (membersOf u s).Nodup := by
  unfold membersOf
  split
  · split <;> simp
  · split <;> simp
  · simp

theorem membersOf_of_slices {s t : State} (h : t.slices = s.slices) (u : RadioUnit) : membersOf u t = membersOf u s := by
  have pair (m : Fin 32) : isPair m t = isPair m s := by simp only [isPair, liveDef, h]
  simp only [membersOf, pair]

theorem retarget_portWork (u : RadioUnit) (goal : PortState) (s : State) : PortWork s (retarget u goal s) := by
  unfold retarget
  exact (endRequest_portWork ..).trans (onRadio_portWork ..)

/-- A port that takes a new target stays in its state. -/
theorem retarget_self (u : RadioUnit) (goal : PortState) (s : State) : portAim u (retarget u goal s) = (portAim u s).map fun a => (a.1, goal) := by
  simp [retarget, portAim, onRadio_self, endRequest_self, Function.comp_def]

theorem retarget_other {u v : RadioUnit} (h : v ≠ u) (goal : PortState) (s : State) : radioOf v (retarget u goal s) = radioOf v s :=
  (onRadio_other h ..).trans (endRequest_other h ..)

/-- The ports of a list without repetition each take their target. -/
theorem retargets_aim (goal : RadioUnit → PortState) {l : List RadioUnit} (once : l.Nodup) {v : RadioUnit} (hv : v ∈ l) (s : State) :
    portAim v (l.foldl (fun s w => retarget w (goal w) s) s) = (portAim v s).map fun a => (a.1, goal v) := by
  induction l generalizing s with
  | nil => exact absurd hv (List.not_mem_nil)
  | cons w l ih =>
    obtain ⟨new, once⟩ := List.nodup_cons.mp once
    rw [List.foldl_cons]
    by_cases first : v = w
    · subst first
      rw [portAim_of_radioOf (foldl_radioOf (fun s w v h => retarget_other h (goal w) s) new _), retarget_self]
    · rw [ih once ((List.mem_cons.mp hv).resolve_left first), portAim_of_radioOf (retarget_other first _ s)]

/-- The state in which a request finds its ports: a full calibration is asked for first (R200). -/
def calAsked (u : RadioUnit) (fullCal : Bool) (s : State) : State := if fullCal then onTile (unitTile u) (fun x => { x with fullCal := true }) s else s

theorem calAsked_tileWork (u : RadioUnit) (fullCal : Bool) (s : State) : TileWork (unitTile u) s (calAsked u fullCal s) := by
  unfold calAsked
  split
  · exact onTile_tileWork ..
  · exact .refl _ s

/-- The ports of a request have their targets. -/
def retargeted (u : RadioUnit) (code : Nat) (s : State) : State :=
  let l := membersOf u s
  l.foldl (fun s v => retarget v (memberTarget code v (l.length == 2)) s) s

theorem retargeted_portWork (u : RadioUnit) (code : Nat) (s : State) : PortWork s (retargeted u code s) :=
  foldl_keeps PortWork .refl .trans _ (fun s v => retarget_portWork v _ s) _ s

theorem request_port {u : RadioUnit} (port : ∀ i, u ≠ .tile i) (code : Nat) (fullCal : Bool) (iss : Option Issue) (s : State) :
    request u code fullCal iss s =
      settle (finishRequests u (settle (onRadio u (fun r => { r with issue := iss }) (retargeted u code (calAsked u fullCal s))))) := by
  cases u with
  | tile i => exact absurd rfl (port i)
  | rx p | tx p => rfl

section
variable {u : RadioUnit} (port : ∀ i, u ≠ .tile i) (code : Nat) (fullCal : Bool) (iss : Option Issue) (s : State)
include port

theorem request_kept : RadioKept s (request u code fullCal iss s) := by
  rw [request_port port]
  refine (calAsked_tileWork u fullCal s).kept.trans (PortWork.kept ?_)
  exact ((((retargeted_portWork ..).trans (onRadio_portWork ..)).trans (settle_portWork _)).trans (finishRequests_portWork ..)).trans (settle_portWork _)

/-- A request changes the radio of no port that it does not act on. -/
theorem request_other {v : RadioUnit} (out : v ∉ membersOf u s) : radioOf v (request u code fullCal iss s) = radioOf v s := by
  have asked := membersOf_of_slices (calAsked_tileWork u fullCal s).kept.slices u
  have away : v ≠ u := fun e => out (e ▸ mem_membersOf_self u port s)
  have slices : (settle (onRadio u (fun r => { r with issue := iss }) (retargeted u code (calAsked u fullCal s)))).slices = s.slices :=
    ((calAsked_tileWork u fullCal s).kept.trans
      (((retargeted_portWork ..).trans (onRadio_portWork ..)).trans (settle_portWork _)).kept).slices
  rw [request_port port, settle_radioOf, finishRequests_other (by rwa [membersOf_of_slices slices]), settle_radioOf, onRadio_other away]
  refine (foldl_radioOf (fun s w v h => retarget_other h _ s) ?_ _).trans ((calAsked_tileWork u fullCal s).radioOf v)
  rwa [asked]

/-- A request gives each port that it acts on its target. -/
theorem request_aim {v : RadioUnit} (hv : v ∈ membersOf u s) :
    portAim v (request u code fullCal iss s) = (portAim v s).map fun a => (a.1, memberTarget code v ((membersOf u s).length == 2)) := by
  have asked := membersOf_of_slices (calAsked_tileWork u fullCal s).kept.slices u
  rw [request_port port, settle_aim, finishRequests_aim, settle_aim,
    onRadio_aim (f := fun r => { r with issue := iss }) (fun r => ⟨rfl, rfl⟩)]
  unfold retargeted
  rw [asked, retargets_aim (fun w => memberTarget code w ((membersOf u s).length == 2)) (membersOf_nodup u s) hv,
    portAim_of_radioOf ((calAsked_tileWork u fullCal s).radioOf v)]

end

theorem request_tile (i : Fin 4) (code : Nat) (fullCal : Bool) (iss : Option Issue) (s : State) :
    request (.tile i) code fullCal iss s =
      finishTile i (completeOpt ((calAsked (.tile i) fullCal s).tiles.tile[i]).floorIssue .superseded
        (onTile i (fun x => { x with floor := tileOfRank code, floorIssue := iss }) (calAsked (.tile i) fullCal s))) := rfl

theorem request_tileWork (i : Fin 4) (code : Nat) (fullCal : Bool) (iss : Option Issue) (s : State) :
    TileWork i s (request (.tile i) code fullCal iss s) := by
  rw [request_tile]
  exact (((calAsked_tileWork (.tile i) fullCal s).trans (onTile_tileWork ..)).trans (completeOpt_tileWork ..)).trans (finishTile_tileWork ..)

theorem request_floor (i : Fin 4) (code : Nat) (fullCal : Bool) (iss : Option Issue) (s : State) :
    ((request (.tile i) code fullCal iss s).tiles.tile[i.val]).floor = tileOfRank code := by
  simp [request_tile]

/-! ### A port on its way to its target (R197, R199) -/

/-- What decides whether a port may enter a state stands. -/
structure ReachKept (s t : State) : Prop where
  tile   : t.tiles.tile = s.tiles.tile
  thm    : t.thm = s.thm
  boot   : t.boot = s.boot
  slices : t.slices = s.slices

theorem ReachKept.refl (s : State) : ReachKept s s := ⟨rfl, rfl, rfl, rfl⟩

theorem ReachKept.trans {s t u : State} (h : ReachKept s t) (k : ReachKept t u) : ReachKept s u :=
  ⟨k.tile.trans h.tile, k.thm.trans h.thm, k.boot.trans h.boot, k.slices.trans h.slices⟩

theorem PortWork.reach {s t : State} (h : PortWork s t) : ReachKept s t := by
  rw [h]
  exact ⟨rfl, rfl, rfl, rfl⟩

theorem advanceMono_reach (n : Nat) (s : State) : ReachKept s (advanceMono n s) :=
  ⟨advanceMono_tile n s, advanceMono_thm n s, advanceMono_boot n s, advanceMono_slices n s⟩

theorem ReachKept.mayReach {s t : State} (h : ReachKept s t) (u : RadioUnit) (a : PortState) : mayReach u a t = mayReach u a s := by
  simp only [Machine.mayReach, thawing, stepNine, h.tile, h.thm, h.boot]

/-- After two states a port is at its target, or in SynthOn on its way to Receive or Transmit (R199). -/
theorem nextState_twice (a b : PortState) :
    nextState (nextState a b) b = b ∨ (nextState (nextState a b) b = .synthOn ∧ b = .active) := by
  cases a <;> cases b <;> decide

theorem nextState_same (a : PortState) : nextState a a = a := by
  cases a <;> rfl

/-- No way is longer than three states. -/
theorem nextState_thrice (a b : PortState) : nextState (nextState (nextState a b) b) b = b := by
  rcases nextState_twice a b with there | ⟨on, rfl⟩
  · rw [there, nextState_same]
  · rw [on]
    rfl

theorem mayReach_synthOn {u : RadioUnit} {s : State} (active : mayReach u .active s = true) : mayReach u .synthOn s = true :=
  (Bool.and_eq_true_iff.mp active).1

/-- A port that may reach its target may be in the second state on the way to it. -/
theorem mayReach_twice {u : RadioUnit} {b : PortState} {s : State} (target : mayReach u b s = true) (a : PortState) :
    mayReach u (nextState (nextState a b) b) s = true := by
  rcases nextState_twice a b with there | ⟨on, rfl⟩
  · rwa [there]
  · rw [on]
    exact mayReach_synthOn target

theorem notify_portWork (src u d : Nat) (s : State) : PortWork s (notify src u d s) := .of_answered (notify_answered ..)

/-- The write lists change front-end control alone. -/
theorem runLists_frame (k : Nat) (m : Fin 32) (s : State) : runLists k m s = { s with fec := (runLists k m s).fec } := by
  refine foldl_keeps (fun s t => t = { s with fec := t.fec }) (fun _ => rfl) (fun h k => by rw [k, h]) _ (fun s n => ?_) _ s
  dsimp only
  split <;> rfl

theorem enterState_there {u : RadioUnit} {r : Radio} {s : State} (hr : radioOf u s = some r) : enterState u r.state s = s := by
  unfold enterState
  rw [hr]
  exact if_pos rfl

/-- A port that enters a state: its radio says so, and front-end control follows. -/
theorem enterState_moves {u : RadioUnit} {r : Radio} {s : State} (hr : radioOf u s = some r) {new : PortState} (moves : r.state ≠ new) :
    ∃ f : FrontEnd, enterState u new s = { onRadio u (fun r => { r with state := new, since := s.time.mono }) s with fec := f } := by
  unfold enterState
  rw [hr]
  dsimp only
  rw [if_neg moves]
  split
  · rw [runLists_frame]
    exact ⟨_, rfl⟩
  · exact ⟨_, rfl⟩

theorem enterState_portWork (u : RadioUnit) (new : PortState) (s : State) : PortWork s (enterState u new s) := by
  cases hr : radioOf u s with
  | none =>
    unfold enterState
    rw [hr]
    exact .refl s
  | some r =>
    by_cases there : r.state = new
    · rw [← there, enterState_there hr]
      exact .refl s
    · obtain ⟨f, moved⟩ := enterState_moves hr there
      rw [moved]
      exact PortWork.trans (onRadio_portWork ..) rfl

theorem enterState_aim {u : RadioUnit} {s : State} {a b : PortState} (aim : portAim u s = some (a, b)) (new : PortState) :
    portAim u (enterState u new s) = some (new, b) := by
  obtain ⟨r, hr, rfl, rfl⟩ := portAim_some aim
  by_cases there : r.state = new
  · subst there
    rwa [enterState_there hr]
  · obtain ⟨f, moved⟩ := enterState_moves hr there
    rw [moved, portAim, radioOf_of_tiles (t := { onRadio u _ s with fec := f }) (s := onRadio u _ s) rfl, onRadio_self, hr]
    rfl

/-- A port that may enter the next state enters it. -/
theorem passState_aim {u : RadioUnit} {s : State} {a b : PortState} (aim : portAim u s = some (a, b)) (may : mayReach u (nextState a b) s = true) :
    portAim u (passState u s) = some (nextState a b, b) := by
  obtain ⟨r, hr, rfl, rfl⟩ := portAim_some aim
  unfold passState
  rw [hr]
  dsimp only
  by_cases there : r.state = r.target
  · rw [if_pos (.inl there), aim, there, nextState_same]
  · rw [if_neg (not_or.mpr ⟨there, by simp [may]⟩), settle_aim]
    refine enterState_aim (a := r.state) ?_ _
    rw [settle_aim, portAim_of_radioOf (advanceMono_radioOf ..), settle_aim, aim]

theorem passState_reach (u : RadioUnit) (s : State) : ReachKept s (passState u s) := by
  unfold passState
  split
  · exact .refl s
  · dsimp only
    split
    · exact .refl s
    · exact ((settle_portWork s).reach.trans (advanceMono_reach ..)).trans
        (((settle_portWork _).trans (enterState_portWork ..)).trans (settle_portWork _)).reach

/-- A port that may enter the next state and its target reaches it in three passes. -/
theorem passState_thrice {u : RadioUnit} {s : State} {a b : PortState} (aim : portAim u s = some (a, b)) (next : mayReach u (nextState a b) s = true)
    (target : mayReach u b s = true) : portAim u (passState u (passState u (passState u s))) = some (b, b) := by
  have kept := passState_reach u s
  have kept' := kept.trans (passState_reach u _)
  have first := passState_aim aim next
  have second := passState_aim first (by rw [kept.mayReach]; exact mayReach_twice target a)
  have third := passState_aim second (by rw [kept'.mayReach, nextState_thrice]; exact target)
  rwa [nextState_thrice] at third

theorem portRests_keeps (u : RadioUnit) (s : State) : portAim u (portRests u s) = portAim u s ∧ (portRests u s).slices = s.slices := by
  unfold portRests
  split
  · exact ⟨rfl, rfl⟩
  · extract_lets back t
    have marked : portAim u t = portAim u s ∧ PortWork s t := by
      show portAim u (if back then _ else s) = _ ∧ PortWork s (if back then _ else s)
      split
      · exact ⟨(portAim_of_radioOf (radioOf_of_tiles (notify_tiles ..) u)).trans
            (onRadio_aim (f := fun r => { r with before := none }) (fun r => ⟨rfl, rfl⟩) u u s),
          (onRadio_portWork ..).trans (notify_portWork ..)⟩
      · exact ⟨rfl, .refl s⟩
    exact ⟨(portAim_of_radioOf (calm_radioOf ..)).trans ((finishRequests_aim ..).trans marked.1),
      ((marked.2.trans (finishRequests_portWork ..)).kept.trans (.of_cycled (calm_cycled _))).slices⟩

/-- A port that may enter the next state and its target reaches the target. -/
theorem portDone_reaches {u : RadioUnit} {s : State} {r : Radio} (hr : radioOf u s = some r) (moves : r.state ≠ r.target)
    (next : mayReach u (nextState r.state r.target) s = true) (target : mayReach u r.target s = true) :
    portAim u (portDone u s) = some (r.target, r.target) ∧ (portDone u s).slices = s.slices := by
  have aim : portAim u s = some (r.state, r.target) := by simp [portAim, hr]
  have done : portDone u s = portRests u (passState u (passState u (passState u s))) := by
    unfold portDone
    rw [hr]
    dsimp only
    rw [if_neg moves, if_pos next]
  obtain ⟨rests, slices⟩ := portRests_keeps u (passState u (passState u (passState u s)))
  rw [done]
  exact ⟨rests.trans (passState_thrice aim next target),
    slices.trans (((passState_reach ..).trans (passState_reach ..)).trans (passState_reach ..)).slices⟩

/-! ### A tile reaches what its floor and ports call for (R197) -/

theorem tileDone_tileWork (i : Fin 4) (s : State) : TileWork i s (tileDone i s) := by
  unfold tileDone
  dsimp only
  split
  · exact .refl i s
  split
  · split
    · split
      · exact .refl i s
      · exact (enterSynthOn_tileWork ..).trans (finishTile_tileWork ..)
    · exact (onTile_tileWork ..).trans (finishTile_tileWork ..)
  · refine TileWork.trans ?_ (finishTile_tileWork ..)
    have left (new : TileState) : TileWork i s
        (if (s.tiles.tile[i]).state = .synthOn then leaveSynthOn i new s else onTile i (fun x => { x with state := new, since := s.time.mono }) s) := by
      split
      · exact leaveSynthOn_tileWork ..
      · exact onTile_tileWork ..
    split
    · exact (left _).trans (abandonStandby_tileWork ..)
    · exact left _

theorem tileDone_state {i : Fin 4} {s : State} (again : (s.tiles.tile[i]).relock = false) (free : (s.tiles.tile[i]).standbyCal = none) :
    ((tileDone i s).tiles.tile[i.val]).state = tileNeed i s := by
  unfold tileDone
  dsimp only
  split
  next same => exact same.symm
  split
  · split
    next on =>
      rw [again, free]
      simp [enterSynthOn_state, on]
    next => simp
  · rw [finishTile_self]
    have left : ((if (s.tiles.tile[i]).state = .synthOn then leaveSynthOn i (tileNeed i s) s
        else onTile i (fun x => { x with state := tileNeed i s, since := s.time.mono }) s).tiles.tile[i.val]).state = tileNeed i s := by
      split <;> simp
    split
    · exact (abandonStandby_state ..).trans left
    · exact left

/-! ### Lock failures (R184, R205, R206) -/

theorem unlockRequest_portWork (goal : PortState) (u : RadioUnit) (s : State) : PortWork s (unlockRequest goal u s) :=
  (endRequest_portWork ..).trans (onRadio_portWork ..)

theorem unlockRequest_self (goal : PortState) (u : RadioUnit) (s : State) :
    radioOf u (unlockRequest goal u s) = (radioOf u s).map fun r => { r with issue := none, target := goal } := by
  simp [unlockRequest, onRadio_self, endRequest_self, Function.comp_def]

theorem unlockRequest_other {u v : RadioUnit} (h : v ≠ u) (goal : PortState) (s : State) : radioOf v (unlockRequest goal u s) = radioOf v s :=
  (onRadio_other h ..).trans (endRequest_other h ..)

/-- A port outside a pair whose request waits for lock too long. -/
theorem exec_lockTimeout {u : RadioUnit} {r : Radio} {s : State} (hr : radioOf u s = some r) (single : membersOf u s = [u]) (waits : r.issue.isSome = true)
    (active : r.target = .active) (again : (s.tiles.tile[unitTile u]).relock = true) :
    exec (.lockTimeout u) s =
      .next (settle (unlockRequest .synthOn u (advanceMono (r.asked + 4000 * (s.tiles.tile[unitTile u]).lockTimeout) s))) := by
  have members (n : Nat) : membersOf u (advanceMono n s) = [u] := by rw [membersOf_of_slices (advanceMono_slices n s), single]
  have late : (r.issue.isSome && r.target == .active && (s.tiles.tile[unitTile u]).relock) = true := by
    rw [waits, active, again]
    rfl
  show execLockTimeout u s = _
  unfold execLockTimeout
  rw [hr]
  dsimp only
  rw [if_pos late, members]
  rfl

theorem lockTimeout_does {u : RadioUnit} {r : Radio} {s : State} (hr : radioOf u s = some r) (single : membersOf u s = [u])
    (waits : r.issue.isSome = true) (active : r.target = .active) (again : (s.tiles.tile[unitTile u]).relock = true) :
    Does (.lockTimeout u) s fun t => radioOf u t = some { r with issue := none, target := .synthOn } ∧
      (∀ v, v ≠ u → radioOf v t = radioOf v s) ∧ t.slices = s.slices := by
  refine does_of_next (exec_lockTimeout hr single waits active again) ⟨?_, fun v hv => ?_, ?_⟩
  · rw [settle_radioOf, unlockRequest_self, advanceMono_radioOf, hr]
    rfl
  · rw [settle_radioOf, unlockRequest_other hv, advanceMono_radioOf]
  · exact ((unlockRequest_portWork ..).trans (settle_portWork _)).kept.slices.trans (advanceMono_slices ..)

theorem dropFloor_tileWork (i : Fin 4) (s : State) : TileWork i s (dropFloor i s) := by
  unfold dropFloor
  dsimp only
  split
  · exact (onTile_tileWork ..).trans (completeOpt_tileWork ..)
  · exact .refl i s

/-- A floor that falls, if it was SynthOn, changes the tile's floor and what it answers. -/
theorem dropFloor_self (i : Fin 4) (s : State) : ((dropFloor i s).tiles.tile[i.val]).state = (s.tiles.tile[i.val]).state ∧
    ((dropFloor i s).tiles.tile[i.val]).relock = (s.tiles.tile[i.val]).relock := by
  unfold dropFloor
  dsimp only
  split <;> simp

theorem dropFloor_flt (i : Fin 4) (s : State) : (dropFloor i s).flt = s.flt := by
  unfold dropFloor
  dsimp only
  split
  · exact (completeOpt_answered ..).flt
  · rfl

theorem finishTile_flt (i : Fin 4) (s : State) : (finishTile i s).flt = s.flt := by
  unfold finishTile
  dsimp only
  split
  · exact (completeOpt_answered ..).flt
  · rfl

/-- Thaw counts an event on source 277 alone. -/
theorem enterThaw_source {x : Fin 320} (h : x ≠ 277) (s : State) : (enterThaw s).flt.sources[x] = s.flt.sources[x] := by
  unfold enterThaw
  split
  · rfl
  · split
    · rfl
    · rw [raise_other _ _ _ _ _ h, onThm_flt]

theorem calm_source {x : Fin 320} (h : x ≠ 277) (s : State) : (calm s).flt.sources[x] = s.flt.sources[x] := by
  rw [calm, enterThaw_source h, (settle_portWork s).flt]

/-- The tile of a failed entry into SynthOn is back in Standby, and the failure is counted. -/
def lockFailed (i : Fin 4) (s : State) : State :=
  raise 88 (target .tile i) 0 (onTile i (fun x => { x with state := .standby, since := s.time.mono, relock := false }) s)

theorem exec_tileLockFail {i : Fin 4} {s : State} (below : (s.tiles.tile[i]).state ≠ .synthOn)
    (waits : (s.tiles.tile[i]).relock = true ∨ tileNeed i s = .synthOn) :
    ∃ u, PortWork (lockFailed i s) u ∧ exec (.tileLockFail i) s = .next (calm (finishTile i (dropFloor i u))) := by
  have enters : ¬((s.tiles.tile[i]).state = .synthOn ∨ (tileNeed i s ≠ .synthOn ∧ (s.tiles.tile[i]).relock = false)) := by
    rintro (on | ⟨low, rests⟩)
    · exact below on
    · rcases waits with again | need
      · rw [again] at rests
        cases rests
      · exact low need
  refine ⟨_, ?_, (if_neg enters : execTileLockFail i s = _)⟩
  refine foldl_keeps PortWork .refl .trans _ (fun s u => ?_) _ (lockFailed i s)
  dsimp only
  split
  · exact foldl_keeps PortWork .refl .trans _ (fun s v => unlockRequest_portWork .standby v s) _ s
  · exact .refl s

theorem tileLockFail_does {i : Fin 4} {s : State} (below : (s.tiles.tile[i]).state ≠ .synthOn)
    (waits : (s.tiles.tile[i]).relock = true ∨ tileNeed i s = .synthOn) :
    Does (.tileLockFail i) s fun t => (t.tiles.tile[i]).state = .standby ∧ (t.tiles.tile[i]).relock = false ∧
      (t.flt.sources[(88 : Fin 320)]).events = (s.flt.sources[(88 : Fin 320)]).events + 1 ∧ t.time = s.time ∧ t.slices = s.slices := by
  obtain ⟨u, ports, runs⟩ := exec_tileLockFail below waits
  have failed : TileWork i s (lockFailed i s) := (onTile_tileWork ..).trans (raise_tileWork ..)
  have ends : TileWork i u (finishTile i (dropFloor i u)) := (dropFloor_tileWork ..).trans (finishTile_tileWork ..)
  have kept : RadioKept s (calm (finishTile i (dropFloor i u))) := ((failed.kept.trans ports.kept).trans ends.kept).trans (.of_cycled (calm_cycled _))
  obtain ⟨state, relock⟩ := dropFloor_self i u
  refine does_of_next runs ⟨?_, ?_, ?_, kept.time, kept.slices⟩
  · simp [calm_tile, state, ports.tile, lockFailed]
  · simp [calm_tile, relock, ports.tile, lockFailed]
  · rw [calm_source (by decide), finishTile_flt, dropFloor_flt, ports.flt]
    exact raise_events ..

/-! ### O28 -/

/-- What the radios of two states have in common, read of RX ports. -/
theorem rx_of_radioOf {p : Fin 32} {s t : State} (h : radioOf (.rx p) t = radioOf (.rx p) s) : (t.tiles.rx[p]).radio = (s.tiles.rx[p]).radio :=
  Option.some.inj h

theorem tx_of_radioOf {p : Fin 32} {s t : State} (h : radioOf (.tx p) t = radioOf (.tx p) s) : (t.tiles.tx[p]).radio = (s.tiles.tx[p]).radio :=
  Option.some.inj h

theorem rx_of_portAim {p : Fin 32} {s : State} {a b : PortState} (h : portAim (.rx p) s = some (a, b)) :
    ((s.tiles.rx[p]).radio).state = a ∧ ((s.tiles.rx[p]).radio).target = b :=
  Prod.mk.inj (Option.some.inj h)

theorem tx_of_portAim {p : Fin 32} {s : State} {a b : PortState} (h : portAim (.tx p) s = some (a, b)) :
    ((s.tiles.tx[p]).radio).state = a ∧ ((s.tiles.tx[p]).radio).target = b :=
  Prod.mk.inj (Option.some.inj h)

theorem membersOf_single {u : RadioUnit} {p : Fin 32} {s : State} (alone : isPair p s = false) (hu : u = .rx p ∨ u = .tx p) : membersOf u s = [u] := by
  rcases hu with rfl | rfl <;> simp [membersOf, alone]

theorem membersOf_pair {u : RadioUnit} {p : Fin 32} {s : State} (pair : isPair p s = true) (hu : u = .rx p ∨ u = .tx p) :
    membersOf u s = [.rx p, .tx p] := by
  rcases hu with rfl | rfl <;> simp [membersOf, pair]

theorem port_of_index {u : RadioUnit} {p : Fin 32} (hu : u = .rx p ∨ u = .tx p) (i : Fin 4) : u ≠ .tile i := by
  rcases hu with rfl | rfl <;> simp

/-- A RADIO_STATE of a port that is in no pair. -/
theorem radioState_single {d : Desc} {s : State} {u : RadioUnit} {p : Fin 32} (runs : Runs 0x10 d s) (unit : radioUnit d.tgt = some u)
    (hu : u = .rx p ∨ u = .tx p) (alone : isPair p s = false) (checks : radioChecks u (d.byte 12) (d.byte 13) s = none)
    (valid : firstFail [d.strayCheck [(12, 2)], (d.byte 12 == 4 && (thawing s || anyCritical s), refuseTarget .tempRange d.tgt)] = none) :
    Does (.radioState d) s fun t => portAim u t = (portAim u s).map (fun a => (a.1, portCode (d.byte 12))) ∧
      (∀ v, v ≠ u → radioOf v t = radioOf v s) ∧ RadioKept s t := by
  have single : membersOf u (startCommand d s) = [u] := membersOf_single (s := startCommand d s) alone hu
  have port := port_of_index hu
  refine does_of_next (exec_radioState runs unit checks valid) ⟨?_, fun v hv => ?_,
    (startCommand_kept d s).trans (request_kept port ..)⟩
  · have goal : memberTarget (d.byte 12) u false = portCode (d.byte 12) := by
      rcases hu with rfl | rfl <;> rfl
    rw [request_aim port _ _ _ _ (by simp [single]), single]
    exact congrArg (fun b => (portAim u s).map fun a => (a.1, b)) goal
  · rw [request_other port _ _ _ _ (by simpa [single] using hv)]
    rfl

/-- A RADIO_STATE of a pair. -/
theorem radioState_pair {d : Desc} {s : State} {p : Fin 32} (runs : Runs 0x10 d s)
    (unit : radioUnit d.tgt = some (.rx p) ∨ radioUnit d.tgt = some (.tx p)) (pair : isPair p s = true) (checks : radioChecks (.rx p) (d.byte 12) (d.byte 13) s = none)
    (valid : firstFail [d.strayCheck [(12, 2)], (d.byte 12 == 4 && (thawing s || anyCritical s), refuseTarget .tempRange d.tgt)] = none) :
    Does (.radioState d) s fun t =>
      (∀ v, v = .rx p ∨ v = .tx p → portAim v t = (portAim v s).map fun a => (a.1, memberTarget (d.byte 12) v true)) ∧ RadioKept s t := by
  obtain ⟨u, hu, unit, checks⟩ : ∃ u, (u = .rx p ∨ u = .tx p) ∧ radioUnit d.tgt = some u ∧ radioChecks u (d.byte 12) (d.byte 13) s = none := by
    rcases unit with unit | unit
    · exact ⟨_, .inl rfl, unit, checks⟩
    · exact ⟨_, .inr rfl, unit, (radioChecks_pair pair ..).trans checks⟩
  have both : membersOf u (startCommand d s) = [.rx p, .tx p] := membersOf_pair (s := startCommand d s) pair hu
  have port := port_of_index hu
  refine does_of_next (exec_radioState runs unit checks valid) ⟨fun v hv => ?_,
    (startCommand_kept d s).trans (request_kept port ..)⟩
  rw [request_aim port _ _ _ _ (by simpa [both] using hv), both]
  rfl

/-- Settles O28: a request is bounded by the ports it acts on, a port reaches its target in three passes at most, and a tile's work leaves the rest. -/
theorem radioStates : Obligations.RadioStates := by
  refine ⟨?rx, ?rxDone, ?tile, fun i s below waits => tileLockFail_does below waits, ?rxTimeout, ?tx, ?pair, ?floor, ?txDone, ?txTimeout⟩
  case rx =>
    intro d p s runs unit alone checks valid
    obtain ⟨t, next, aim, others, kept⟩ := radioState_single runs unit (.inl rfl) alone checks valid
    exact does_of_next next ⟨(rx_of_portAim aim).2, fun q hq => rx_of_radioOf (others _ (by simp [hq])), fun q => tx_of_radioOf (others _ (by simp)),
      kept.time, kept.slices, kept.cfg⟩
  case tx =>
    intro d p s runs unit alone checks valid
    obtain ⟨t, next, aim, others, kept⟩ := radioState_single runs unit (.inr rfl) alone checks valid
    exact does_of_next next ⟨(tx_of_portAim aim).2, fun q hq => tx_of_radioOf (others _ (by simp [hq])), fun q => rx_of_radioOf (others _ (by simp)),
      kept.time, kept.slices, kept.cfg⟩
  case pair =>
    intro d p s runs unit pair checks valid
    obtain ⟨t, next, aims, kept⟩ := radioState_pair runs unit pair checks valid
    have tx := (tx_of_portAim (aims _ (.inr rfl))).2
    refine does_of_next next ⟨(rx_of_portAim (aims _ (.inl rfl))).2, tx.trans ?_, kept.time, kept.slices⟩
    simp [memberTarget]
  case floor =>
    intro d i s runs unit checks valid
    have work : TileWork i (startCommand d s) _ := request_tileWork i (d.byte 12) (d.byte 13 == 1) (some (issueOf 0x10 d s)) _
    exact does_of_next (exec_radioState runs unit checks valid) ⟨request_floor .., work.others, work.time, work.kept.slices⟩
  case rxDone =>
    intro p s moves next target
    obtain ⟨aim, slices⟩ := portDone_reaches (u := .rx p) rfl moves next target
    exact does_of_next rfl ⟨(rx_of_portAim aim).1, slices⟩
  case txDone =>
    intro p s moves next target
    obtain ⟨aim, slices⟩ := portDone_reaches (u := .tx p) rfl moves next target
    exact does_of_next rfl ⟨(tx_of_portAim aim).1, slices⟩
  case tile =>
    intro i s again free
    have kept := (tileDone_tileWork i s).kept.trans (settle_portWork _).kept
    refine does_of_next (t := settle (tileDone i s)) rfl ⟨?_, kept.time, kept.slices⟩
    rw [(settle_portWork _).tile]
    exact tileDone_state again free
  case rxTimeout =>
    intro p s alone waits active again
    obtain ⟨t, next, self, others, slices⟩ := lockTimeout_does (u := .rx p) rfl (membersOf_single alone (.inl rfl)) waits active again
    have radio : (t.tiles.rx[p]).radio = _ := Option.some.inj self
    exact does_of_next next ⟨by rw [radio], by rw [radio], fun q hq => rx_of_radioOf (others _ (by simp [hq])), slices⟩
  case txTimeout =>
    intro p s alone waits active again
    obtain ⟨t, next, self, others, slices⟩ := lockTimeout_does (u := .tx p) rfl (membersOf_single alone (.inr rfl)) waits active again
    have radio : (t.tiles.tx[p]).radio = _ := Option.some.inj self
    exact does_of_next next ⟨by rw [radio], by rw [radio], fun q hq => tx_of_radioOf (others _ (by simp [hq])), slices⟩

end Sys2Proof.Machine
end

section
/-! PROOFS. The synthesisers of a tile (R172 to R182; O31): the calibration in Standby, and how the preparation of a twin starts, ends, fails and is
tried again. -/
namespace Sys2Proof.Machine
open Sys2Proof

/-! ### Checks that all pass (R71) -/

theorem firstFail_none_iff (l : List (Bool × Refuse)) : firstFail l = none ↔ ∀ c ∈ l, c.1 = false := by
  have failing_nil : failing l = [] ↔ ∀ c ∈ l, c.1 = false := by simp [failing]
  rw [← failing_nil]
  unfold firstFail
  split
  · next h => simp [h]
  · next h => simp [h]

/-! ### SYNTH_CAL (R179, R180) -/

/-- A synthesiser of a tile in Standby calibrates. -/
def calStarted (i : Fin 4) (y : Fin 2) (iss : Issue) (s : State) : State :=
  onSynth i y (fun z => { z with state := .calibrating }) (onTile i (fun x => { x with standbyCal := some { issue := iss, syn := y } }) s)

theorem calStarted_tileWork (i : Fin 4) (y : Fin 2) (iss : Issue) (s : State) : TileWork i s (calStarted i y iss s) :=
  (onTile_tileWork ..).trans (onSynth_tileWork ..)

section
variable {d : Desc} {i : Fin 4} {y : Fin 2} {s : State} (runs : Runs 0x11 d s) (unit : synthUnit d.tgt = some (i, y)) (kind : d.byte 12 ≤ 1)
  (valid : firstFail [d.strayCheck [(12, 1)]] = none) (idle : synthBusy i s = false)
include runs unit kind valid idle

theorem exec_synthCal_standby (low : (s.tiles.tile[i]).state = .standby) :
    exec (.synthCal d) s = .next (calStarted i y (issueOf 0x11 d s) (startCommand d s)) := by
  have low' : ((startCommand d s).tiles.tile[i.val]).state = .standby := low
  have idle' : synthBusy i (startCommand d s) = false := idle
  have stray := (firstFail_none_iff _).mp valid
  show execSynthCal d s = _
  simp only [execSynthCal, hostCommand_runs runs, unit]
  rw [(firstFail_none_iff _).mpr (by simpa [low', idle', kind] using stray)]
  exact congrArg _ (if_pos low')

theorem exec_synthCal_synthOn (on : (s.tiles.tile[i]).state = .synthOn) (able : twinFailed i s = false) :
    exec (.synthCal d) s = .next (startPrep i (y == (s.tiles.tile[i]).active || d.byte 12 == 1) (some (issueOf 0x11 d s)) none
      (y == (s.tiles.tile[i]).active) (startCommand d s)) := by
  have on' : ((startCommand d s).tiles.tile[i.val]).state = .synthOn := on
  have idle' : synthBusy i (startCommand d s) = false := idle
  have able' : twinFailed i (startCommand d s) = false := able
  have stray := (firstFail_none_iff _).mp valid
  show execSynthCal d s = _
  simp only [execSynthCal, hostCommand_runs runs, unit]
  rw [(firstFail_none_iff _).mpr (by simpa [on', idle', able', kind] using stray)]
  exact congrArg _ (if_neg fun low => absurd (on.symm.trans low) (by decide))

end

/-! ### SYNTH_HANDOVER (R179, R181) -/

/-- One at once or at an instant that lies 20 ms away starts the preparation of the twin. -/
theorem exec_synthHandover {d : Desc} {i : Fin 4} {s : State} (runs : Runs 0x12 d s) (unit : d.unit .tile 4 = some i)
    (on : (s.tiles.tile[i]).state = .synthOn) (valid : firstFail [d.strayCheck [(12, 8)]] = none) (idle : synthBusy i s = false)
    (able : twinFailed i s = false) (early : d.u 12 8 ≠ 0 → s.now + 80000000 ≤ instantOf s.now (d.u 12 8)) :
    exec (.synthHandover d) s = .next (startPrep i true (some (issueOf 0x12 d s))
      (if d.u 12 8 = 0 then none else some (instantOf s.now (d.u 12 8))) false (startCommand d s)) := by
  have on' : ((startCommand d s).tiles.tile[i.val]).state = .synthOn := on
  have idle' : synthBusy i (startCommand d s) = false := idle
  have able' : twinFailed i (startCommand d s) = false := able
  have early' : (d.u 12 8 != 0 && decide (instantOf (startCommand d s).now (d.u 12 8) < (startCommand d s).now + 80000000)) = false := by
    have now : (startCommand d s).now = s.now := rfl
    rw [now, Bool.and_eq_false_imp, decide_eq_false_iff_not, Nat.not_lt]
    exact fun h => early (bne_iff_ne.mp h)
  have stray := (firstFail_none_iff _).mp valid
  show execSynthHandover d s = _
  simp only [execSynthHandover, hostCommand_runs runs, unit]
  rw [(firstFail_none_iff _).mpr (by simpa [on', idle', able', early'] using stray)]
  rfl

/-! ### The temperature trigger (R172, R182) -/

theorem exec_tempHandoverTrigger {i : Fin 4} {since : Nat} {s : State} (delta : (s.tiles.tile[i]).deltaSince = some since)
    (on : (s.tiles.tile[i]).state = .synthOn) (able : (s.tiles.tile[i]).autoCal = true → twinFailed i s = false ∧ (s.tiles.tile[i]).prep = none) :
    exec (.tempHandoverTrigger i) s = .next (
      if (s.tiles.tile[i]).autoCal then startPrep i true none none false (advanceMono (since + dwellQ s.thm.zone[tileZone i]) s)
      else onTile i (fun x => { x with calOverdue := true }) (advanceMono (since + dwellQ s.thm.zone[tileZone i]) s)) := by
  have failed (n : Nat) : twinFailed i (advanceMono n s) = twinFailed i s := by simp only [twinFailed, advanceMono_tile]
  show execTempHandoverTrigger i s = _
  unfold execTempHandoverTrigger
  simp only [delta, on, failed, ne_eq, not_true_eq_false, if_false]
  cases auto : (s.tiles.tile[i]).autoCal with
  | false => rfl
  | true =>
    obtain ⟨twin, free⟩ := able auto
    simp only [twin, free, Bool.not_true, Bool.or_self, Bool.false_eq_true, if_false, if_true]

/-! ### The end of a calibration in Standby (R180) -/

/-- The calibrated synthesiser is stored at the zone's value and becomes the one of the next entry. -/
def calStored (i : Fin 4) (c : StandbyCal) (s : State) : State :=
  let t := onSynth i c.syn (fun y => { y with
    state := if hasFailed y then .failed else .off, stored := true, calTemp := zoneValue (tileZone i) s, calBand := tileBand i s }) s
  let u := onTile i (fun x => { x with active := c.syn, standbyCal := none, relock := false }) t
  onTile i (fun x => { x with calOverdue := x.calOverdue && !nearCal i x.syn[x.active] u }) u

theorem exec_synthCalDone {i : Fin 4} {c : StandbyCal} {s : State} (cal : (s.tiles.tile[i]).standbyCal = some c) :
    exec (.synthCalDone i) s = .next (finishTile i (complete c.issue .ok (calStored i c s))) := by
  show execSynthCalDone i s = _
  simp only [execSynthCalDone, cal]
  rfl

theorem calStored_tileWork (i : Fin 4) (c : StandbyCal) (s : State) : TileWork i s (calStored i c s) :=
  ((onSynth_tileWork ..).trans (onTile_tileWork ..)).trans (onTile_tileWork ..)

theorem synthCalDone_does {i : Fin 4} {c : StandbyCal} {s : State} (cal : (s.tiles.tile[i]).standbyCal = some c) :
    Does (.synthCalDone i) s fun t => (t.tiles.tile[i]).active = c.syn ∧ (t.tiles.tile[i]).standbyCal = none ∧
      ((t.tiles.tile[i]).syn[c.syn]).stored = true ∧ ((t.tiles.tile[i]).syn[c.syn]).calTemp = zoneValue (tileZone i) s ∧ t.time = s.time := by
  have work := ((calStored_tileWork i c s).trans (.of_answered (complete_answered c.issue .ok _))).trans (finishTile_tileWork i _)
  refine does_of_next (exec_synthCalDone cal) ⟨?_, ?_, ?_, ?_, work.time⟩ <;> simp [calStored]

/-! ### The end of a preparation (R173) -/

/-- The twin is calibrated and its phase slaved. -/
def twinReadied (i : Fin 4) (p : Prep) (s : State) : State :=
  onSynth i (twinOf s.tiles.tile[i]) (fun y => { y with
    state := .idleLocked, locked := true, calTemp := p.temp, calBand := p.band, stored := true, prepared := true, failCount := 0 }) s

theorem twinReadied_tileWork (i : Fin 4) (p : Prep) (s : State) : TileWork i s (twinReadied i p s) := onSynth_tileWork ..

theorem exec_twinPrepared {i : Fin 4} {p : Prep} {s : State} (prep : (s.tiles.tile[i]).prep = some p) (step : p.step = .preparing) :
    exec (.twinPrepared i) s = .next (
      if p.handover then
        onTile i (fun x => { x with prep := some { p with step := .waiting, boundary := handoverBoundary i p.instant (twinReadied i p s) } })
          (twinReadied i p s)
      else completeOpt p.issue .ok (onTile i (fun x => { x with prep := none }) (twinReadied i p s))) := by
  show execTwinPrepared i s = _
  simp only [execTwinPrepared, prep, step, ne_eq, not_true_eq_false, if_false]
  split <;> rfl

/-! ### A preparation that fails (R177) -/

/-- The twin is off, or Failed at the third failure in a row, and its work is over. -/
def twinDropped (i : Fin 4) (s : State) : State :=
  let n := ((s.tiles.tile[i]).syn[twinOf s.tiles.tile[i]]).failCount + 1
  onSynth i (twinOf s.tiles.tile[i]) (fun y => { y with
      state := if n < 3 then .off else .failed, locked := false, prepared := false, failCount := min 3 n })
    (onTile i (fun x => { x with prep := none, retryAt := if n < 3 then some (s.time.mono + 400000000) else none }) s)

theorem exec_twinFailed {i : Fin 4} {p : Prep} {s : State} (prep : (s.tiles.tile[i]).prep = some p) (step : p.step ≠ .switched) :
    ∃ t, exec (.twinFailed i) s = .next t ∧ t.tiles = (twinDropped i s).tiles ∧ t.time = s.time := by
  refine ⟨completeOpt p.issue .notLocked (if p.handover then abandonRecord i (twinDropped i s)
    else if ((s.tiles.tile[i]).syn[twinOf s.tiles.tile[i]]).failCount + 1 < 3 then twinDropped i s
    else raise (tileSource i 2) (target .tile i) 0 (twinDropped i s)), ?_, ?_, ?_⟩
  · show execTwinFailed i s = _
    simp only [execTwinFailed, prep, if_neg step]
    rfl
  · rw [completeOpt_tiles]
    repeat' split
    · exact abandonRecord_tiles ..
    · rfl
    · rfl
  · have dropped : TileWork i s (twinDropped i s) := (onTile_tileWork ..).trans (onSynth_tileWork ..)
    refine (dropped.trans (TileWork.trans ?_ (completeOpt_tileWork ..))).time
    repeat' split
    · exact abandonRecord_tileWork ..
    · exact .refl ..
    · exact raise_tileWork ..

theorem twinDropped_retries {i : Fin 4} {s : State} (few : ((s.tiles.tile[i]).syn[twinOf s.tiles.tile[i]]).failCount < 2) :
    ((twinDropped i s).tiles.tile[i.val]).retryAt = some (s.time.mono + 400000000) ∧
      (((twinDropped i s).tiles.tile[i.val]).syn[twinOf s.tiles.tile[i]]).state = .off := by
  have third : ((s.tiles.tile[i]).syn[twinOf s.tiles.tile[i]]).failCount + 1 < 3 := by omega
  unfold twinDropped
  simp only [if_pos third]
  simp

theorem twinDropped_third {i : Fin 4} {s : State} (many : 2 ≤ ((s.tiles.tile[i]).syn[twinOf s.tiles.tile[i]]).failCount) :
    ((twinDropped i s).tiles.tile[i.val]).retryAt = none ∧
      (((twinDropped i s).tiles.tile[i.val]).syn[twinOf s.tiles.tile[i]]).state = .failed := by
  have third : ¬((s.tiles.tile[i]).syn[twinOf s.tiles.tile[i]]).failCount + 1 < 3 := by omega
  unfold twinDropped
  simp only [if_neg third]
  simp

theorem twinDropped_prep (i : Fin 4) (s : State) : ((twinDropped i s).tiles.tile[i.val]).prep = none := by
  simp [twinDropped]

/-! ### A retry (R177) -/

theorem exec_twinRetry {i : Fin 4} {x : Nat} {s : State} (retry : (s.tiles.tile[i]).retryAt = some x) (free : (s.tiles.tile[i]).prep = none)
    (on : (s.tiles.tile[i]).state = .synthOn) :
    exec (.twinRetry i) s = .next (startPrep i false none none false (onTile i (fun x => { x with retryAt := none }) (advanceMono x s))) := by
  show execTwinRetry i s = _
  simp only [execTwinRetry, retry]
  rw [if_neg (by simp_all)]

/-! ### O31 -/

/-- Settles O31: the commands and triggers that pass their checks each start one preparation, and its end, its failure and its retry are the work of
one tile. -/
theorem synthesiserPreparation : Obligations.SynthesiserPreparation := by
  refine ⟨?calStandby, ?calOn, ?handover, ?trigger, ?starts, fun i c s cal => synthCalDone_does cal, ?waits, ?fails, ?third, ?retry, ?instant, ?overdue,
    ?background⟩
  case calStandby =>
    intro d i y s runs unit low kind valid idle
    have work := calStarted_tileWork i y (issueOf 0x11 d s) (startCommand d s)
    exact does_of_next (exec_synthCal_standby runs unit kind valid idle low) ⟨by simp [calStarted], by simp [calStarted], work.others, work.time⟩
  case calOn =>
    intro d i y s runs unit on kind valid idle able
    exact exec_synthCal_synthOn runs unit kind valid idle on able
  case handover =>
    intro d i s runs unit on now valid idle able
    rw [exec_synthHandover runs unit on valid idle able (fun h => absurd now h), if_pos now]
  case instant =>
    intro d i s runs unit on later early valid idle able
    rw [exec_synthHandover runs unit on valid idle able (fun _ => early), if_neg later]
  case trigger =>
    intro i x s delta on auto able free
    rw [exec_tempHandoverTrigger delta on (fun _ => ⟨able, free⟩), if_pos auto]
  case overdue =>
    intro i x s delta on manual
    have runs := exec_tempHandoverTrigger delta on (fun auto => absurd (manual.symm.trans auto) (by decide))
    rw [manual] at runs
    refine does_of_next runs ⟨?_, fun j hj => ?_⟩
    · exact (onTile_self ..).trans (by simp)
    · exact ((onTile_tileWork i _ _).others j hj).trans (by rw [advanceMono_tile])
  case starts =>
    intro i handover again iss instant s fresh
    refine ⟨⟨_, congrArg Tile.prep (startPrep_self ..), rfl, rfl, rfl⟩, ?_, (startPrep_tileWork ..).others⟩
    simp [startPrep_self, fresh]
  case waits =>
    intro i p s prep step handover
    have runs := exec_twinPrepared prep step
    rw [if_pos handover] at runs
    refine does_of_next runs ⟨?_, ?_, ?_, ?_, ((twinReadied_tileWork i p s).trans (onTile_tileWork ..)).time⟩ <;> simp [twinReadied]
  case background =>
    intro i p s prep step alone
    have runs := exec_twinPrepared prep step
    rw [if_neg (by simp [alone])] at runs
    refine does_of_next runs ⟨?_, ?_, ?_,
      (((twinReadied_tileWork i p s).trans (onTile_tileWork ..)).trans (completeOpt_tileWork ..)).time⟩ <;> simp [twinReadied]
  case fails =>
    intro i p s prep step few
    obtain ⟨t, runs, tiles, time⟩ := exec_twinFailed prep step
    obtain ⟨retry, off⟩ := twinDropped_retries few
    refine does_of_next runs ?_
    rw [tiles]
    exact ⟨twinDropped_prep i s, retry, off, time⟩
  case third =>
    intro i p s prep step many
    obtain ⟨t, runs, tiles, time⟩ := exec_twinFailed prep step
    obtain ⟨never, failed⟩ := twinDropped_third many
    refine does_of_next runs ?_
    rw [tiles]
    exact ⟨never, failed, time⟩
  case retry =>
    intro i x s retry free on
    refine does_of_next (exec_twinRetry retry free on)
      ⟨⟨_, congrArg Tile.prep (startPrep_self ..), rfl, rfl⟩, congrArg Tile.retryAt (startPrep_self ..), ?_⟩
    rw [(startPrep_tileWork ..).time]
    exact advanceMono_mono x s

end Sys2Proof.Machine
end

section
/-! PROOFS. The handover of a tile's clock tree and its temperature bands (R173, R174, R185 to R187; O32). -/
namespace Sys2Proof.Machine
open Sys2Proof

/-! ### A handover (R173) -/

theorem twinOf_ne_active (x : Tile) : x.active ≠ twinOf x := by
  unfold twinOf
  split
  · next h => rw [h]; decide
  · next h => exact h

/-- The synthesisers of a tile whose selector switches to the twin: the former active one idles locked and is a prepared twin. -/
def switchedSyn (x : Tile) : Vector Synth 2 :=
  upd (upd x.syn x.active fun y => { y with state := .idleLocked, prepared := true }) (twinOf x) fun y => { y with state := .active }

theorem switchedSyn_twin (x : Tile) : ((switchedSyn x)[(twinOf x).val]).state = .active := by
  rw [switchedSyn, upd_self]

theorem switchedSyn_former (x : Tile) : ((switchedSyn x)[x.active.val]).state = .idleLocked := by
  have apart : (switchedSyn x)[x.active] = (upd x.syn x.active fun y => { y with state := .idleLocked, prepared := true })[x.active] :=
    upd_other _ _ _ _ (twinOf_ne_active x)
  exact (congrArg Synth.state apart).trans (congrArg Synth.state (upd_self x.syn x.active _))

/-- The selector of a tile switches to the twin. -/
def handedOver (i : Fin 4) (p : Prep) (s : State) : State :=
  let x := s.tiles.tile[i]
  let t := onSynth i x.active (fun y => { y with state := .idleLocked, prepared := true }) (advanceTo p.boundary s)
  let u := onSynth i (twinOf x) (fun y => { y with state := .active }) t
  onTile i (fun x' => { x' with
    active := twinOf x, handoverCount := (x'.handoverCount + 1) % 65536, handoverTime := stampOf p.boundary, deltaSince := none
    prep := some { p with step := .switched }, calOverdue := x'.calOverdue && !nearCal i x'.syn[twinOf x] u }) u

theorem handedOver_self (i : Fin 4) (p : Prep) (s : State) :
    ∃ overdue : Bool, (handedOver i p s).tiles.tile[i.val] = { s.tiles.tile[i.val] with
      active := twinOf s.tiles.tile[i.val], handoverCount := ((s.tiles.tile[i.val]).handoverCount + 1) % 65536, handoverTime := stampOf p.boundary
      deltaSince := none, prep := some { p with step := .switched }, calOverdue := overdue, syn := switchedSyn s.tiles.tile[i.val] } := by
  simp [handedOver, switchedSyn]

theorem exec_handoverBoundary {i : Fin 4} {p : Prep} {s : State} (prep : (s.tiles.tile[i]).prep = some p) (step : p.step = .waiting) :
    exec (.handoverBoundary i) s = .next (if (s.tiles.tile[i]).applyPending then applyBand i (handedOver i p s) else handedOver i p s) := by
  show execHandoverBoundary i s = _
  simp only [execHandoverBoundary, prep, step, ne_eq, not_true_eq_false, if_false]
  rfl

/-- What a table that applies changes of its tile. -/
@[simp] theorem applyBand_self (i : Fin 4) (s : State) :
    (applyBand i s).tiles.tile[i.val] = { s.tiles.tile[i.val] with appliedBand := wantedBand i s, applyPending := false } := onTile_self ..

theorem applyBand_others {i j : Fin 4} (h : j ≠ i) (s : State) : (applyBand i s).tiles.tile[j] = s.tiles.tile[j] := (onTile_tileWork ..).others j h

theorem applyBand_time (i : Fin 4) (s : State) : (applyBand i s).time = s.time := rfl

/-- A table that applies at the edge, or none: the tile's tables change at most. -/
theorem applyBand_if (b : Bool) (i : Fin 4) (s : State) :
    (∃ band pending, (if b then applyBand i s else s).tiles.tile[i.val] = { s.tiles.tile[i.val] with appliedBand := band, applyPending := pending }) ∧
      (∀ j : Fin 4, j ≠ i → (if b then applyBand i s else s).tiles.tile[j] = s.tiles.tile[j]) ∧
      (if b then applyBand i s else s).time = s.time := by
  cases b with
  | false => exact ⟨⟨_, _, rfl⟩, fun _ _ => rfl, rfl⟩
  | true => exact ⟨⟨_, _, applyBand_self i s⟩, fun j hj => applyBand_others hj s, applyBand_time i s⟩

theorem handedOver_tileWork (i : Fin 4) (p : Prep) (s : State) : TileWork i (advanceTo p.boundary s) (handedOver i p s) :=
  ((onSynth_tileWork ..).trans (onSynth_tileWork ..)).trans (onTile_tileWork ..)

/-- 1 µs after a boundary the preparation is over, its record is sent, and its command completes. -/
def handoverRecorded (i : Fin 4) (p : Prep) (phase : Int) (s : State) : State :=
  let x := s.tiles.tile[i]
  let t := onTile i (fun x => { x with prep := none }) (advanceTo (p.boundary + 4000) s)
  let u := notify (tileSource i 7).val (target .tile i) 0 (recordNow (.synth i 0 (synCode x.active) x.appliedBand phase) t)
  p.issue.elim u fun iss => completeAt (stampOf p.boundary) iss (refusal .ok) u

theorem exec_handoverRecord {i : Fin 4} {p : Prep} {s : State} (prep : (s.tiles.tile[i]).prep = some p) (step : p.step = .switched) (phase : Int) :
    exec (.handoverRecord i phase) s = .next (if p.again then startPrep i false none none false (handoverRecorded i p phase s)
      else handoverRecorded i p phase s) := by
  show execHandoverRecord i phase s = _
  unfold execHandoverRecord handoverRecorded
  simp only [prep, step, ne_eq, not_true_eq_false, if_false]
  cases p.issue <;> rfl

theorem handoverRecorded_answered (i : Fin 4) (p : Prep) (phase : Int) (s : State) :
    Answered (onTile i (fun x => { x with prep := none }) (advanceTo (p.boundary + 4000) s)) (handoverRecorded i p phase s) := by
  unfold handoverRecorded
  extract_lets x t u
  have told : Answered t u := (recordNow_answered ..).trans (notify_answered ..)
  cases p.issue with
  | none => exact told
  | some iss => exact told.trans (completeAt_answered (stampOf p.boundary) iss (refusal .ok) u)

theorem handoverRecorded_tileWork (i : Fin 4) (p : Prep) (phase : Int) (s : State) :
    TileWork i (advanceTo (p.boundary + 4000) s) (handoverRecorded i p phase s) :=
  (onTile_tileWork ..).trans (.of_answered (handoverRecorded_answered ..))

theorem handoverRecorded_self (i : Fin 4) (p : Prep) (phase : Int) (s : State) :
    (handoverRecorded i p phase s).tiles.tile[i.val] = { s.tiles.tile[i.val] with prep := none } := by
  simp [(handoverRecorded_answered ..).tiles]

theorem handoverRecorded_others {i j : Fin 4} (h : j ≠ i) (p : Prep) (phase : Int) (s : State) :
    (handoverRecorded i p phase s).tiles.tile[j] = s.tiles.tile[j] := by
  rw [(handoverRecorded_tileWork ..).others j h, advanceTo_tile]

/-! ### Bands (R185 to R187) -/

theorem applyBand_converged (i : Fin 4) (s : State) (p : Fin 32) :
    ((applyBand i s).tiles.rx[p]).converged = if tileOf p = i then false else (s.tiles.rx[p]).converged := by
  have rx : (applyBand i s).tiles.rx[p] = if tileOf p = i then { s.tiles.rx[p] with converged := false } else s.tiles.rx[p] := updAll_get ..
  rw [rx]
  split <;> rfl

/-- Passing time leaves what the RX ports have converged to. -/
theorem elapse_converged (n : Nat) (s : State) (p : Fin 32) : ((elapse n s).tiles.rx[p]).converged = (s.tiles.rx[p]).converged := by
  have quarter (s : State) : ((passQuarter s).tiles.rx[p]).converged = (s.tiles.rx[p]).converged := by
    have before : (slotsDue (strobeDue s)).tiles = s.tiles := (slotsDue_tiles _).trans (strobeDue_tiles s)
    have after : (passQuarter s).tiles = (rxQuarters (slotsDue (strobeDue s))).tiles := countSaturations_tiles ..
    have held (t : State) (x : RxPort) : (holdPeak t p x).converged = x.converged := by
      unfold holdPeak
      split <;> rfl
    rw [after, ← before]
    exact (congrArg RxPort.converged (updAll_get _ (holdPeak _) p)).trans (held ..)
  have quarters (n : Nat) (s : State) : ((passQuarters n s).tiles.rx[p]).converged = (s.tiles.rx[p]).converged := by
    induction n generalizing s with
    | zero => rfl
    | succ n ih => exact (ih _).trans (quarter s)
  unfold elapse
  split
  · rfl
  · exact quarters n s

theorem wantedBand_advanceTo (i : Fin 4) (n : Nat) (s : State) : wantedBand i (advanceTo n s) = wantedBand i s := by
  simp only [wantedBand, tileBand, advanceTo_tile, advanceTo_thm]

/-- The table of a tile has applied at an instant, and its record is sent. -/
def bandApplied (i : Fin 4) (n : Nat) (s : State) : State :=
  let t := applyBand i (advanceTo n s)
  notify (tileSource i 7).val (target .tile i) 0 (recordNow (.synth i 1 (synCode (s.tiles.tile[i]).active) (t.tiles.tile[i]).appliedBand 0) t)

/-- A pending table applies at its instant, or at the first strobe in a gap of every pattern bound to its tile. -/
theorem exec_bandTableApply {i : Fin 4} {n : Nat} {s : State} (pending : (s.tiles.tile[i]).applyPending = true)
    (due : (if tileTdd i s then gapStrobe (tilePatterns i s) 1875000 (strobeAt s.now) else some (s.tiles.tile[i]).applyAt) = some n) :
    exec (.bandTableApply i) s = .next (bandApplied i n s) := by
  show execBandTableApply i s = _
  simp only [execBandTableApply, pending, due]
  rfl

theorem bandApplied_answered (i : Fin 4) (n : Nat) (s : State) : Answered (applyBand i (advanceTo n s)) (bandApplied i n s) :=
  (recordNow_answered ..).trans (notify_answered ..)

theorem bandApplied_self (i : Fin 4) (n : Nat) (s : State) :
    (bandApplied i n s).tiles.tile[i.val] = { s.tiles.tile[i.val] with appliedBand := wantedBand i s, applyPending := false } := by
  simp [(bandApplied_answered ..).tiles, wantedBand_advanceTo]

theorem bandApplied_q (i : Fin 4) (n : Nat) (s : State) : (bandApplied i n s).time.q = max s.time.q n := by
  have time : (bandApplied i n s).time = (applyBand i (advanceTo n s)).time := by rw [bandApplied_answered]
  rw [time, applyBand_time, advanceTo_q]

theorem bandApplied_converged (i : Fin 4) (n : Nat) (s : State) (p : Fin 32) :
    ((bandApplied i n s).tiles.rx[p]).converged = if tileOf p = i then false else (s.tiles.rx[p]).converged := by
  rw [(bandApplied_answered ..).tiles, applyBand_converged, advanceTo, elapse_converged]

theorem finOf_val {n v : Nat} {k : Fin n} (h : finOf n v = some k) : k.val = v := by
  unfold finOf at h
  split at h
  · exact congrArg Fin.val (Option.some.inj h).symm
  · cases h

/-- A zone's band has moved across a boundary, at the end of its dwell. -/
def bandCrossed (z : Fin 6) (k : Fin 4) (up : Bool) (since : Nat) (s : State) : State :=
  let t := advanceMono (since + dwellQ s.thm.zone[z]) s
  onZone z (fun x => retimeZone t.time.mono (crossBand k up x)) t

theorem bandCrossed_tile (z : Fin 6) (k : Fin 4) (up : Bool) (since : Nat) (s : State) : (bandCrossed z k up since s).tiles.tile = s.tiles.tile :=
  advanceMono_tile ..

theorem bandCrossed_band (z : Fin 6) (k : Fin 4) (up : Bool) (since : Nat) (s : State) :
    ((bandCrossed z k up since s).thm.zone[z]).band = some (if up then k.val + 1 else k.val) :=
  congrArg Zone.band (upd_self _ z _)

/-- The boundary that a zone's band crosses upwards or downwards (R185). -/
def crossedBound (band : Option Nat) (up : Bool) : Option (Fin 4) :=
  band.bind fun n => if up then finOf 4 n else if n = 0 then none else finOf 4 (n - 1)

/-- A band that the zone of a tile declares loads the shadow table, unless the band is forced. -/
theorem exec_bandDeclared {i k : Fin 4} {since : Nat} {up : Bool} {s : State} (bound : crossedBound (s.thm.zone[tileZone i]).band up = some k)
    (timed : (s.thm.zone[tileZone i]).timers.bands[k] = some since) :
    exec (.bandDeclared (tileZone i) up) s = .next (if (s.tiles.tile[i]).forceEnable then bandCrossed (tileZone i) k up since s
      else loadShadow i (bandCrossed (tileZone i) k up since s)) := by
  have own : finOf 4 (tileZone i).val = some i := finOf_some i.isLt
  have forced : ((bandCrossed (tileZone i) k up since s).tiles.tile[i]).forceEnable = (s.tiles.tile[i]).forceEnable := by rw [bandCrossed_tile]
  show execBandDeclared (tileZone i) up s = _
  unfold crossedBound at bound
  unfold execBandDeclared
  simp only [bound, timed, own]
  rw [← forced]
  exact (apply_ite Host.Outcome.next ..).symm

/-- A band that is declared while the band is not forced. -/
theorem bandDeclared_loads {i k : Fin 4} {since : Nat} {up : Bool} {s : State} (bound : crossedBound (s.thm.zone[tileZone i]).band up = some k)
    (timed : (s.thm.zone[tileZone i]).timers.bands[k] = some since) (free : (s.tiles.tile[i]).forceEnable = false) :
    Does (.bandDeclared (tileZone i) up) s fun t => (t.thm.zone[tileZone i]).band = some (if up then k.val + 1 else k.val) ∧
      (t.tiles.tile[i]).applyPending = true ∧ (t.tiles.tile[i]).appliedBand = (s.tiles.tile[i]).appliedBand := by
  have runs := exec_bandDeclared bound timed
  rw [if_neg (by rw [free]; decide)] at runs
  refine does_of_next runs ⟨bandCrossed_band .., ?_, ?_⟩ <;> simp [loadShadow, bandCrossed_tile]

/-! ### O32 -/

/-- Settles O32: a handover is the work of one tile and of the time to its instant, and a table that applies changes its tile and its RX ports. -/
theorem handoverAndBands : Obligations.HandoverAndBands := by
  refine ⟨?boundary, ?ends, ?up, ?atInstant, ?again, ?down, ?forced, ?inGap⟩
  case boundary =>
    intro i p s prep step
    obtain ⟨overdue, self⟩ := handedOver_self i p s
    have work := handedOver_tileWork i p s
    have runs := exec_handoverBoundary prep step
    generalize (s.tiles.tile[i]).applyPending = edge at runs
    obtain ⟨⟨band, pending, tables⟩, others, time⟩ := applyBand_if edge i (handedOver i p s)
    refine does_of_next runs ⟨?_, ?_, ?_, ?_, ?_, ?_, ?q, fun j hj => ?others⟩
    case q => rw [time, work.time, advanceTo_q]
    case others => rw [others j hj, work.others j hj, advanceTo_tile]
    all_goals simp [tables, self, switchedSyn_twin, switchedSyn_former]
  case ends =>
    intro i p phase s prep step once
    have runs := exec_handoverRecord prep step phase
    rw [if_neg (by simp [once])] at runs
    refine does_of_next runs ⟨?_, ?_, ?_, fun j hj => handoverRecorded_others hj p phase s⟩
    · simp [handoverRecorded_self]
    · simp [handoverRecorded_self]
    · rw [(handoverRecorded_tileWork ..).time, advanceTo_q]
  case again =>
    intro i p phase s prep step again
    have runs := exec_handoverRecord prep step phase
    rw [if_pos again] at runs
    refine does_of_next runs ⟨⟨_, congrArg Tile.prep (startPrep_self ..), rfl, rfl⟩, ?_, fun j hj => ?_⟩
    · simp [startPrep_self, handoverRecorded_self]
    · rw [(startPrep_tileWork ..).others j hj, handoverRecorded_others hj]
  case up =>
    intro i b x k s band bound timed free
    have crossed : crossedBound (s.thm.zone[tileZone i]).band true = some k := by rw [band]; exact bound
    rw [← finOf_val bound]
    exact bandDeclared_loads crossed timed free
  case down =>
    intro i b x k s band bound timed free
    have crossed : crossedBound (s.thm.zone[tileZone i]).band false = some k := by rw [band]; exact bound
    rw [← finOf_val bound]
    exact bandDeclared_loads crossed timed free
  case forced =>
    intro i b x k s band bound timed force
    have crossed : crossedBound (s.thm.zone[tileZone i]).band true = some k := by rw [band]; exact bound
    have runs := exec_bandDeclared crossed timed
    rw [if_pos force] at runs
    rw [← finOf_val bound]
    exact does_of_next runs ⟨bandCrossed_band .., bandCrossed_tile ..⟩
  case atInstant =>
    intro i s pending still
    refine does_of_next (exec_bandTableApply pending (if_neg (by simp [still]))) ⟨?_, ?_, bandApplied_q .., fun p hp => ?_, fun p hp => ?_⟩
    · simp [bandApplied_self]
    · simp [bandApplied_self]
    · rw [bandApplied_converged, if_pos hp]
    · rw [bandApplied_converged, if_neg hp]
  case inGap =>
    intro i x s pending tdd gap
    refine does_of_next (exec_bandTableApply pending ((if_pos tdd).trans gap)) ⟨?_, ?_, bandApplied_q ..⟩ <;> simp [bandApplied_self]

end Sys2Proof.Machine
end

section
/-! PROOFS. Front-end control (R210 to R239): a change of one link, pair or input, and what bringing the outputs up to date makes of each. -/
namespace Sys2Proof.Machine
open Sys2Proof

/-! ### A change of one link, coexistence pair or blanking input -/

@[simp] theorem onFem_self (n : Fin 16) (f : Fem → Fem) (s : State) : (onFem n f s).fec.fems[n.val] = f s.fec.fems[n.val] :=
  upd_self s.fec.fems n f

theorem onFem_other {n m : Fin 16} (h : m ≠ n) (f : Fem → Fem) (s : State) : (onFem n f s).fec.fems[m.val] = s.fec.fems[m.val] :=
  upd_other s.fec.fems n m f h

/-- A change of a link is what it makes of that link. -/
theorem onFem_congr {n : Fin 16} {f g : Fem → Fem} {s : State} (h : f s.fec.fems[n] = g s.fec.fems[n]) : onFem n f s = onFem n g s := by
  simp only [onFem, onFec, upd, h]

theorem onFem_frame (n : Fin 16) (f : Fem → Fem) (s : State) :
    onFem n f s = { s with fec := { s.fec with fems := (onFem n f s).fec.fems } } := rfl

@[simp] theorem onCx_self (c : Fin 8) (f : CxPair → CxPair) (s : State) : (onCx c f s).fec.cx[c.val] = f s.fec.cx[c.val] := upd_self s.fec.cx c f

theorem onCx_other {c k : Fin 8} (h : k ≠ c) (f : CxPair → CxPair) (s : State) : (onCx c f s).fec.cx[k.val] = s.fec.cx[k.val] :=
  upd_other s.fec.cx c k f h

@[simp] theorem onBlank_self (b : Fin 8) (f : Blank → Blank) (s : State) : (onBlank b f s).fec.blanks[b.val] = f s.fec.blanks[b.val] :=
  upd_self s.fec.blanks b f

theorem onBlank_other {b k : Fin 8} (h : k ≠ b) (f : Blank → Blank) (s : State) : (onBlank b f s).fec.blanks[k.val] = s.fec.blanks[k.val] :=
  upd_other s.fec.blanks b k f h

@[simp] theorem notify_fec (src u d : Nat) (s : State) : (notify src u d s).fec = s.fec := by rw [notify_answered]

@[simp] theorem notify_time (src u d : Nat) (s : State) : (notify src u d s).time = s.time := by rw [notify_answered]

@[simp] theorem notify_slices (src u d : Nat) (s : State) : (notify src u d s).slices = s.slices := by rw [notify_answered]

@[simp] theorem notify_flt (src u d : Nat) (s : State) : (notify src u d s).flt = s.flt := by rw [notify_answered]

@[simp] theorem setCond_cond (src : Fin 320) (b : Bool) (u d : Nat) (s : State) : ((setCond src b u d s).flt.sources[src.val]).cond = b := by
  simp [setCond]

theorem setCond_other {src x : Fin 320} (h : x ≠ src) (b : Bool) (u d : Nat) (s : State) :
    (setCond src b u d s).flt.sources[x] = s.flt.sources[x] := upd_other _ src x _ h

/-! ### What bringing the outputs up to date changes of front-end control -/

@[simp] theorem cxEdges_fec (old : FrontEnd) (s : State) (c : Fin 8) : (cxEdges old s c).fec = s.fec := by
  unfold cxEdges
  dsimp only
  repeat' split
  all_goals rfl

theorem cxEdges_foldl_fec (old : FrontEnd) (l : List (Fin 8)) (s : State) : (l.foldl (cxEdges old) s).fec = s.fec :=
  foldl_keeps (fun s t => t.fec = s.fec) (fun _ => rfl) (fun h k => k.trans h) _ (cxEdges_fec old) l s

theorem settleCx_fec (s : State) : (settleCx s).fec = { s.fec with cx := s.fec.cx.map (cxLevels s) } := by
  unfold settleCx
  rw [cxEdges_foldl_fec]

/-- The state that the links see: the ports and the coexistence pairs are up to date already. -/
def beforeFems (s : State) : State := settleCx (settlePorts s)

theorem settle_eq (s : State) : settle s = settleFems s (beforeFems s) := by rw [settle, beforeFems]

theorem beforeFems_levelled (s : State) : Levelled s (beforeFems s) := (settlePorts_levelled s).trans (settleCx_levelled _)

theorem beforeFems_fec (s : State) : (beforeFems s).fec = { s.fec with cx := s.fec.cx.map (cxLevels (settlePorts s)) } := by
  rw [beforeFems, settleCx_fec, settlePorts]

theorem beforeFems_fems (s : State) : (beforeFems s).fec.fems = s.fec.fems := by rw [beforeFems_fec]

theorem settleFems_fec (old s : State) :
    (settleFems old s).fec = { s.fec with fems := updAll s.fec.fems (driveFem old s), settledAt := s.time.mono } := rfl

@[simp] theorem settle_fem (s : State) (n : Fin 16) :
    (settle s).fec.fems[n.val] = driveFem s (beforeFems s) n s.fec.fems[n.val] := by
  simp only [settle_eq, settleFems_fec, updAll_get, beforeFems_fems]

@[simp] theorem settle_cx (s : State) (c : Fin 8) : (settle s).fec.cx[c.val] = cxLevels (settlePorts s) s.fec.cx[c.val] := by
  simp only [settle_eq, settleFems_fec, beforeFems_fec, Vector.getElem_map]

@[simp] theorem settle_blanks (s : State) : (settle s).fec.blanks = s.fec.blanks := by
  rw [settle_eq, settleFems_fec, beforeFems_fec]

@[simp] theorem settle_busyOwned (s : State) : (settle s).fec.busyOwned = s.fec.busyOwned := by
  rw [settle_eq, settleFems_fec, beforeFems_fec]

@[simp] theorem settle_time (s : State) : (settle s).time = s.time := by rw [settle_frame]

@[simp] theorem settle_slices (s : State) : (settle s).slices = s.slices := by rw [settle_frame]

@[simp] theorem settle_flt (s : State) : (settle s).flt = s.flt := by rw [settle_frame]

@[simp] theorem settle_evr (s : State) : (settle s).evr = s.evr := by rw [settle_frame]

theorem onFem_levelled (n : Fin 16) (f : Fem → Fem) (s : State) : Levelled s (onFem n f s) := rfl

/-! ### A link brought up to date keeps all but its levels and its sleep marks -/

@[simp] theorem driveFem_fltT (old s : State) (n : Fin 16) (f : Fem) : (driveFem old s n f).fltT = f.fltT := rfl
@[simp] theorem driveFem_fltC (old s : State) (n : Fin 16) (f : Fem) : (driveFem old s n f).fltC = f.fltC := rfl
@[simp] theorem driveFem_fault (old s : State) (n : Fin 16) (f : Fem) : (driveFem old s n f).fault = f.fault := rfl
@[simp] theorem driveFem_railMismatch (old s : State) (n : Fin 16) (f : Fem) : (driveFem old s n f).railMismatch = f.railMismatch := rfl
@[simp] theorem driveFem_hold (old s : State) (n : Fin 16) (f : Fem) : (driveFem old s n f).hold = f.hold := rfl
@[simp] theorem driveFem_manual (old s : State) (n : Fin 16) (f : Fem) : (driveFem old s n f).manual = f.manual := rfl
@[simp] theorem driveFem_rffeShort (old s : State) (n : Fin 16) (f : Fem) : (driveFem old s n f).rffeShort = f.rffeShort := rfl
@[simp] theorem driveFem_stopped (old s : State) (n : Fin 16) (f : Fem) : (driveFem old s n f).stopped = f.stopped := rfl
@[simp] theorem driveFem_data (old s : State) (n : Fin 16) (f : Fem) : (driveFem old s n f).data = f.data := rfl
@[simp] theorem driveFem_busy (old s : State) (n : Fin 16) (f : Fem) : (driveFem old s n f).busy = f.busy := rfl
@[simp] theorem driveFem_result (old s : State) (n : Fin 16) (f : Fem) : (driveFem old s n f).result = f.result := rfl
@[simp] theorem driveFem_discards (old s : State) (n : Fin 16) (f : Fem) : (driveFem old s n f).discards = f.discards := rfl
@[simp] theorem driveFem_queue (old s : State) (n : Fin 16) (f : Fem) : (driveFem old s n f).queue = f.queue := rfl

@[simp] theorem driveFem_strobe (old s : State) (n : Fin 16) (f : Fem) (i : Fin 4) :
    (driveFem old s n f).strobes[i.val] = { f.strobes[i.val] with asserted := strobeLevel n i s } := updAll_get ..

/-! ### What goes out stays -/

/-- What one state has sent, and what a later one has sent since. -/
def SentSince (s t : State) : Prop := ∃ l, t.out = l ++ s.out

theorem SentSince.refl (s : State) : SentSince s s := ⟨[], rfl⟩

theorem SentSince.trans {s t u : State} (h : SentSince s t) (k : SentSince t u) : SentSince s u := by
  obtain ⟨l, hl⟩ := h
  obtain ⟨m, hm⟩ := k
  exact ⟨m ++ l, by rw [hm, hl, List.append_assoc]⟩

theorem SentSince.mem {s t : State} (h : SentSince s t) {o : Out} (sent : o ∈ s.out) : o ∈ t.out := by
  obtain ⟨l, hl⟩ := h
  exact hl ▸ List.mem_append_right l sent

theorem cxEdges_sentSince (old : FrontEnd) (s : State) (c : Fin 8) : SentSince s (cxEdges old s c) := by
  unfold cxEdges
  dsimp only
  split
  · exact ⟨[_], rfl⟩
  · split
    · exact ⟨[_], rfl⟩
    · exact .refl s

theorem cxEdges_foldl_sentSince (old : FrontEnd) (l : List (Fin 8)) (s : State) : SentSince s (l.foldl (cxEdges old) s) :=
  foldl_keeps SentSince .refl .trans _ (cxEdges_sentSince old) l s

theorem settleCx_sentSince (s : State) : SentSince s (settleCx s) := by
  unfold settleCx
  exact cxEdges_foldl_sentSince s.fec (indices 8) { s with fec := { s.fec with cx := s.fec.cx.map (cxLevels s) } }

theorem settleFems_out (old s : State) : (settleFems old s).out = s.out := rfl

theorem settle_sentSince (s : State) : SentSince s (settle s) := by
  obtain ⟨l, sent⟩ := settleCx_sentSince (settlePorts s)
  exact ⟨l, by rw [settle_eq, settleFems_out, beforeFems, sent, settlePorts]⟩

end Sys2Proof.Machine
end

section
/-! PROOFS. Faults of the front-end links and their strobes (R222 to R226, R237, R238; O33). -/
namespace Sys2Proof.Machine
open Sys2Proof

/-! ### Fault inputs (R222, R223) -/

/-- Does a link's fault input, as far as it is in use, show a fault or a mismatch? -/
def showsFault (f : Fem) : Bool := f.faultEnable && (f.fltT || !f.fltC)

/-- A link whose fault input shows a fault. -/
def markFault (f : Fem) : Fem :=
  { f with fault := true, railMismatch := f.railMismatch || f.fltT == f.fltC, hold := f.hold || f.faultAction }

theorem judgeFault_shows {n : Fin 16} {s : State} (shows : showsFault s.fec.fems[n] = true) :
    judgeFault n s = setCond (femSource n) true (target .fem n) 0 (onFem n markFault s) := by
  unfold showsFault at shows
  simp only [judgeFault, shows]
  rfl

theorem judgeFault_clear {n : Fin 16} {s : State} (clear : showsFault s.fec.fems[n] = false) :
    judgeFault n s = setCond (femSource n) false (target .fem n) 0 s := by
  unfold showsFault at clear
  simp only [judgeFault, clear]
  rfl

/-- A link's fault input as it was read. -/
def faultRead (n : Fin 16) (t c : Bool) (s : State) : State := onFem n (fun f => { f with fltT := t, fltC := c }) s

theorem faultRead_showsFault (n : Fin 16) (t c : Bool) (s : State) :
    showsFault (faultRead n t c s).fec.fems[n] = ((s.fec.fems[n]).faultEnable && (t || !c)) := by
  simp [showsFault, faultRead]

theorem exec_femFaultInput_shows {n : Fin 16} {t c : Bool} {s : State} (used : (s.fec.fems[n]).faultEnable = true) (shows : t = true ∨ c = false) :
    exec (.femFaultInput n t c) s =
      .next (settle (setCond (femSource n) true (target .fem n) 0 (onFem n markFault (faultRead n t c s)))) := by
  rw [← judgeFault_shows (by rw [faultRead_showsFault, used]; simpa using shows)]
  rfl

theorem exec_femFaultInput_clear {n : Fin 16} {t c : Bool} {s : State} (clear : ((s.fec.fems[n]).faultEnable && (t || !c)) = false) :
    exec (.femFaultInput n t c) s = .next (settle (setCond (femSource n) false (target .fem n) 0 (faultRead n t c s))) := by
  rw [← judgeFault_clear ((faultRead_showsFault ..).trans clear)]
  rfl

/-- An input that shows none, or is not in use: it is stored, the hold stays, and the condition of the link's source ends. -/
theorem femFaultInput_clear {n : Fin 16} {t c : Bool} {s : State} (clear : ((s.fec.fems[n]).faultEnable && (t || !c)) = false) :
    Does (.femFaultInput n t c) s fun u =>
      (u.fec.fems[n]).fltT = t ∧ (u.fec.fems[n]).fltC = c ∧ (u.fec.fems[n]).fault = (s.fec.fems[n]).fault ∧
      (u.fec.fems[n]).hold = (s.fec.fems[n]).hold ∧ (u.flt.sources[femSource n]).cond = false ∧
      (∀ x : Fin 320, x ≠ femSource n → u.flt.sources[x] = s.flt.sources[x]) ∧ u.time = s.time ∧ u.slices = s.slices ∧ u.evr = s.evr := by
  refine does_of_next (exec_femFaultInput_clear clear) ⟨?_, ?_, ?_, ?_, ?_, fun x hx => ?others, ?_, ?_, ?_⟩
  case others => rw [settle_flt, setCond_other hx]; rfl
  all_goals simp [faultRead, onFem]

/-! ### Strobes and buses that are shorted (R224, R225) -/

/-- A strobe found shorted. -/
def strobeShorted (k : Fin 4) (high : Bool) (f : Fem) : Fem :=
  { f with
    strobes := upd f.strobes k fun x => if high then { x with shortHi := true } else { x with shortLo := true }
    hold := f.hold || k == 0 || k == 3 }

theorem exec_strobeShort (n : Fin 16) (k : Fin 4) (high : Bool) (s : State) :
    exec (.strobeShort n k high) s = .next (settle (raise (femSource n) (target .fem n) 0 (onFem n (strobeShorted k high) s))) := rfl

/-- A busy mailbox's link whose bus is found shorted. -/
def busShorted (f : Fem) : Fem :=
  endMailbox .busFault { f with
    rffeShort := true, stopped := true, queue := []
    discards := (f.discards + (f.queue.filter fun c => c.client != .writeList).length) % 65536 }

theorem exec_rffeShort_busy {n : Fin 16} {s : State} (busy : (s.fec.fems[n]).busy = true) :
    exec (.rffeShort n) s = .next (settle (raise (femSource n) (target .fem n) 0 (onFem n busShorted s))) := by
  show execRffeShort n s = _
  unfold execRffeShort
  rw [onFem_congr (g := busShorted)]
  exact if_pos busy

/-- A change of front-end control that a source reports, and the levels that follow it. -/
theorem reported_levelled {s u t : State} (reported : u = { s with fec := u.fec, flt := { s.flt with sources := u.flt.sources } }) (h : Levelled u t) :
    t = { s with fec := t.fec, tiles := t.tiles, out := t.out, flt := { s.flt with sources := t.flt.sources } } := by
  rw [h, reported]

/-! ### Polls of the slaves (R226) -/

/-- A slave that was polled has missed so many polls in a row. -/
def setMisses (u : Fin 16) (k : Nat) (f : Fem) : Fem := { f with misses := f.misses.set u k }

/-- A slave found missing. -/
def markMissing (u : Fin 16) (f : Fem) : Fem := { f with slaveMissing := true, missingUsid := u.val }

theorem pollSlave_answers {n u : Fin 16} {failed : BitVec 16} (answers : failed.getLsbD u = false) (s : State) :
    pollSlave n failed s u = onFem n (setMisses u 0) s := by
  simp only [pollSlave, answers]
  rfl

theorem pollSlave_third {n u : Fin 16} {failed : BitVec 16} {s : State} (fails : failed.getLsbD u = true) (twice : (s.fec.fems[n]).misses[u] = 2) :
    pollSlave n failed s u = raise (femSource n) (target .fem n) 0 (onFem n (markMissing u) (onFem n (setMisses u 3) s)) := by
  simp only [pollSlave, fails, twice]
  rfl

/-- A poll of a bound link whose write lists name one slave polls that slave. -/
theorem exec_presencePoll_one {n u : Fin 16} {failed : BitVec 16} {s : State} (bound : (s.fec.fems[n]).enable = true)
    (polls : (s.fec.fems[n]).presencePoll = true) (runs : (s.fec.fems[n]).stopped = false) (one : listedSlaves n s = [u]) :
    exec (.presencePoll n failed) s = .next (pollSlave n failed s u) := by
  show execPresencePoll n failed s = _
  simp only [execPresencePoll, bound, polls, runs, one]
  rfl

/-! ### Manual levels (R237) -/

/-- RXEN and BYP of a strobe that HOST owns follow the manual level at once. -/
theorem strobeLevel_owned {n : Fin 16} {i : Fin 4} {s : State} (rxOrBypass : i = 1 ∨ i = 2) (owned : ownedBy 0x01 (4 * n.val + i.val) 0x09 s = true) :
    strobeLevel n i s = (s.fec.fems[n]).manual.getLsbD i := by
  have notTx : (i.val == 0 || i.val == 3) = false := by rcases rxOrBypass with rfl | rfl <;> rfl
  simp [strobeLevel, notTx, owned]

/-- A manual level with a 1 for a strobe that HOST does not own. -/
def strays (n : Fin 16) (level : BitVec 4) (s : State) : Bool :=
  (indices 4).any fun i => level.getLsbD i && !ownedBy 0x01 (4 * n.val + i.val) 0x09 s

theorem strays_of_unowned {n : Fin 16} {level : BitVec 4} {s : State}
    (h : ∃ i : Fin 4, level.getLsbD i = true ∧ ownedBy 0x01 (4 * n.val + i.val) 0x09 s = false) : strays n level s = true := by
  obtain ⟨i, one, other⟩ := h
  exact List.any_eq_true.mpr ⟨i, mem_indices i, by simp [one, other]⟩

/-- A link's manual levels as they were written. -/
def manualWritten (n : Fin 16) (level : BitVec 4) (s : State) : State :=
  onFec (fun x => { x with busyOwned := x.busyOwned || strays n level s }) (onFem n (fun f => { f with manual := level }) s)

theorem exec_manualStrobeWrite (n : Fin 16) (level : BitVec 4) (s : State) :
    exec (.manualStrobeWrite n level) s = .next (settle (manualWritten n level s)) := rfl

theorem manualWritten_manual (n : Fin 16) (level : BitVec 4) (s : State) : ((manualWritten n level s).fec.fems[n.val]).manual = level :=
  congrArg Fem.manual (onFem_self n _ s)

theorem manualWritten_other {n m : Fin 16} (h : m ≠ n) (level : BitVec 4) (s : State) :
    (manualWritten n level s).fec.fems[m.val] = s.fec.fems[m.val] := onFem_other h _ s

/-- The ownership of a strobe stands while the outputs are brought up to date. -/
theorem ownedBy_beforeFems (cls idx feature : Nat) (s : State) : ownedBy cls idx feature (beforeFems s) = ownedBy cls idx feature s := by
  have cfg : (beforeFems s).cfg = s.cfg := by rw [beforeFems_levelled]
  simp only [ownedBy, cfg]

/-! ### O33 -/

/-- Settles O33: each event changes its link and its source, and bringing the outputs up to date changes of a link only its levels and sleep marks. -/
theorem frontEndFaultsAndStrobes : Obligations.FrontEndFaultsAndStrobes := by
  refine ⟨?fault, ?unused, ?strobe, ?bus, ?retest, ?missing, ?manual, ?clear, ?answers⟩
  case fault =>
    intro n t c s used shows
    refine does_of_next (exec_femFaultInput_shows used shows) ⟨?_, ?_, ?_, ?_, ?_, ?_, fun m hm => ?others, ?_, ?_, ?_⟩
    case others => simp [faultRead, onFem_other hm]
    all_goals simp [faultRead, markFault, onFem]
  case unused =>
    intro n t c s unused
    exact femFaultInput_clear (by rw [unused, Bool.false_and])
  case strobe =>
    intro n k high s
    refine does_of_next (exec_strobeShort n k high s) ⟨?short, ?_, fun m hm => ?others, ?events, ?_, ?_⟩
    case short => cases high <;> simp [strobeShorted]
    case others => simp [onFem_other hm]
    case events => rw [settle_flt, raise_events, onFem, onFec_flt]
    all_goals simp [strobeShorted, onFem]
  case bus =>
    intro n s busy
    refine does_of_next (exec_rffeShort_busy busy) ⟨?_, ?_, ?_, ?_, ?_, ?_, fun m hm => ?others, ?events, ?frame⟩
    case others => simp [onFem_other hm]
    case events => rw [settle_flt, raise_events, onFem, onFec_flt]
    case frame => exact reported_levelled rfl (settle_frame _)
    all_goals simp [busShorted, endMailbox]
  case retest =>
    intro n agrees s
    exact does_of_next rfl ⟨onFem_self .., fun m hm => onFem_other hm .., onFem_frame ..⟩
  case missing =>
    intro n u failed s bound polls runs one fails twice
    have step := exec_presencePoll_one (failed := failed) bound polls runs one
    rw [pollSlave_third fails twice] at step
    refine does_of_next step ⟨?_, ?_, fun m hm => ?others, raise_events .., rfl, rfl⟩
    case others => simp [onFem_other hm]
    all_goals simp [markMissing]
  case manual =>
    intro n level s
    refine does_of_next (exec_manualStrobeWrite n level s) ⟨?_, fun i rxOrBypass owned => ?level, fun stray => ?busy, fun m hm => ?others, ?_, ?_, ?_⟩
    case level =>
      have owned : ownedBy 0x01 (4 * n.val + i.val) 0x09 (beforeFems (manualWritten n level s)) = true := (ownedBy_beforeFems ..).trans owned
      simp [strobeLevel_owned rxOrBypass owned, beforeFems_fems, manualWritten_manual]
    case busy => simp [manualWritten, strays_of_unowned stray]
    case others => simp [manualWritten_other hm]
    · simp [manualWritten_manual]
    all_goals simp [manualWritten, onFem]
  case clear =>
    intro n s used
    obtain ⟨u, runs, fltT, fltC, fault, hold, cond, -, time, slices, -⟩ := femFaultInput_clear (n := n) (t := false) (c := true) (s := s) (by simp)
    exact ⟨u, runs, fltT, fltC, fault, hold, cond, time, slices⟩
  case answers =>
    intro n u failed s bound polls runs one answers
    have step := exec_presencePoll_one (failed := failed) bound polls runs one
    rw [pollSlave_answers answers] at step
    refine does_of_next step ⟨?_, fun m hm => onFem_other hm .., onFem_frame ..⟩
    simp [setMisses]

end Sys2Proof.Machine
end

section
/-! PROOFS. Commands on the RFFE buses (R217 to R221, R239; O34). -/
namespace Sys2Proof.Machine
open Sys2Proof

/-! ### The order of the clients (R219) -/

theorem nextCmd_writeList {q : List BusCmd} {c : BusCmd} (list : q.find? (·.client == .writeList) = some c) : nextCmd q = some c := by
  simp only [nextCmd, list]

theorem nextCmd_bias {q : List BusCmd} {c : BusCmd} (noList : q.find? (·.client == .writeList) = none)
    (bias : q.find? (·.client == .bias) = some c) : nextCmd q = some c := by
  simp only [nextCmd, noList, bias]

/-! ### The mailbox's GO (R221, R239) -/

/-- Are the fields of a write of the mailbox's command word legal for the data that waits? -/
def goLegal (n : Fin 16) (value : Word) (s : State) : Bool :=
  mailboxOk (field value.toNat 3 0) (field value.toNat 7 4) (field value.toNat 23 8) (field value.toNat 27 24) (s.fec.fems[n]).data

/-- The command that a GO puts on its bus. -/
def goCmd (n : Fin 16) (value : Word) (s : State) : BusCmd :=
  { client := .mailbox, command := field value.toNat 7 4, usid := field value.toNat 3 0, addr := field value.toNat 23 8
    count := field value.toNat 27 24, data := (s.fec.fems[n]).data, since := s.time.mono }

/-- A link whose mailbox has a command on the bus. -/
def mailboxStarted (c : BusCmd) (f : Fem) : Fem := { f with queue := f.queue ++ [c], busy := true }

/-- The answer of GO: the busy mailbox, the bus that HOST does not own, the fields that are not legal, and the command. -/
theorem exec_rffeMailboxGo (n : Fin 16) (value : Word) (s : State) :
    exec (.rffeMailboxGo n value) s =
      if (s.fec.fems[n]).busy then .next s
      else if !ownedBy 0x02 n 0x09 s then
        .next (onFec (fun x => { x with busyOwned := true }) (onFem n (fun f => { f with result := .busyOwned }) s))
      else if !goLegal n value s then .next (onFem n (fun f => { f with result := .badParam }) s)
      else .next (onFem n (mailboxStarted (goCmd n value s)) s) := rfl

/-! ### A command that is done (R219) -/

/-- A command has left its bus. -/
def cmdGone (n : Fin 16) (c : BusCmd) (s : State) : State := onFem n (fun f => { f with queue := removeFirst (· == c) f.queue }) s

/-- A command has left its bus and gone out, and the outputs are brought up to date. -/
def cmdSent (n : Fin 16) (c : BusCmd) (s : State) : State := settle (emit (.rffe n c.command c.usid c.addr c.count c.data) (cmdGone n c s))

/-- A mailbox whose command is done: a read whose parity held leaves its data. -/
def mailboxDone (c : BusCmd) (data : Nat) (parityOk : Bool) (f : Fem) : Fem :=
  { f with
    busy := false, result := if isRead c.command && !parityOk then .readParity else .ok
    data := if isRead c.command && parityOk then data % 2 ^ (8 * c.count) else f.data }

theorem exec_rffeCommandDone {n : Fin 16} {c : BusCmd} {s : State} (next : nextCmd (s.fec.fems[n]).queue = some c)
    (runs : (s.fec.fems[n]).stopped = false) (data : Nat) (parityOk : Bool) :
    exec (.rffeCommandDone n data parityOk) s = .next (match c.client with
      | .mailbox => onFem n (mailboxDone c data parityOk) (cmdSent n c s)
      | .bias => noteBias n c (cmdSent n c s)
      | .writeList => cmdSent n c s) := by
  show execRffeCommandDone n data parityOk s = _
  simp only [execRffeCommandDone, next, runs]
  cases c.client with
  | writeList | bias => rfl
  | mailbox =>
    unfold mailboxDone
    cases isRead c.command <;> cases parityOk <;> rfl

/-- The link whose bus has sent a command, beside its levels and sleep marks. -/
theorem cmdSent_fem (n : Fin 16) (c : BusCmd) (s : State) :
    ∃ old mid, (cmdSent n c s).fec.fems[n.val] =
      driveFem old mid n { s.fec.fems[n.val] with queue := removeFirst (· == c) (s.fec.fems[n.val]).queue } :=
  ⟨_, _, by rw [cmdSent, settle_fem, emit_fec, cmdGone, onFem_self]⟩

theorem cmdSent_levelled (n : Fin 16) (c : BusCmd) (s : State) : Levelled s (cmdSent n c s) := by
  have sent : Levelled s (emit (.rffe n c.command c.usid c.addr c.count c.data) (cmdGone n c s)) := rfl
  exact sent.trans (settle_frame _)

theorem cmdSent_out (n : Fin 16) (c : BusCmd) (s : State) :
    ∃ l, (cmdSent n c s).out = l ++ .rffe n c.command c.usid c.addr c.count c.data :: s.out := by
  obtain ⟨l, sent⟩ := settle_sentSince (emit (.rffe n c.command c.usid c.addr c.count c.data) (cmdGone n c s))
  exact ⟨l, by rw [cmdSent, sent, emit_out, cmdGone, onFem, onFec_out]⟩

/-- A mailbox command that is done: it leaves the bus, goes out, and ends. -/
theorem rffeCommandDone_mailbox {n : Fin 16} {c : BusCmd} {s : State} (next : nextCmd (s.fec.fems[n]).queue = some c)
    (runs : (s.fec.fems[n]).stopped = false) (mailbox : c.client = .mailbox) (data : Nat) (parityOk : Bool) :
    Does (.rffeCommandDone n data parityOk) s fun t =>
      (t.fec.fems[n]).busy = false ∧ (t.fec.fems[n]).result = (if isRead c.command && !parityOk then .readParity else .ok) ∧
      (t.fec.fems[n]).data = (if isRead c.command && parityOk then data % 2 ^ (8 * c.count) else (s.fec.fems[n]).data) ∧
      (t.fec.fems[n]).queue = removeFirst (· == c) (s.fec.fems[n]).queue ∧
      (∃ l, t.out = l ++ .rffe n c.command c.usid c.addr c.count c.data :: s.out) ∧ t = { s with fec := t.fec, tiles := t.tiles, out := t.out } := by
  have step := exec_rffeCommandDone next runs data parityOk
  simp only [mailbox] at step
  obtain ⟨old, mid, link⟩ := cmdSent_fem n c s
  refine does_of_next step ⟨?_, ?_, ?_, ?_, ?out, (cmdSent_levelled n c s).trans (onFem_levelled ..)⟩
  case out => simpa only [onFem, onFec_out] using cmdSent_out n c s
  all_goals simp [mailboxDone, link]

/-- Nothing changes but the values last sent on the bias channels. -/
def BiasNoted (s t : State) : Prop := t = { s with cen := { s.cen with biasSent := t.cen.biasSent } }

theorem BiasNoted.refl (s : State) : BiasNoted s s := rfl

theorem noteBias_noted (n : Fin 16) (c : BusCmd) (s : State) : BiasNoted s (noteBias n c s) := rfl

theorem BiasNoted.fec {s t : State} (h : BiasNoted s t) : t.fec = s.fec := by rw [h]

theorem BiasNoted.out {s t : State} (h : BiasNoted s t) : t.out = s.out := by rw [h]

theorem BiasNoted.frame {s t u : State} (h : Levelled s t) (k : BiasNoted t u) :
    u = { s with fec := u.fec, tiles := u.tiles, out := u.out, cen := { s.cen with biasSent := u.cen.biasSent } } := by
  rw [k, h]

/-- A command of a write list or a bias channel that is done goes out, and a bias channel notes what was sent. -/
theorem exec_rffeCommandDone_other {n : Fin 16} {c : BusCmd} {s : State} (next : nextCmd (s.fec.fems[n]).queue = some c)
    (runs : (s.fec.fems[n]).stopped = false) (other : c.client ≠ .mailbox) (data : Nat) (parityOk : Bool) :
    ∃ t, exec (.rffeCommandDone n data parityOk) s = .next t ∧ BiasNoted (cmdSent n c s) t := by
  have step := exec_rffeCommandDone next runs data parityOk
  cases client : c.client with
  | mailbox => exact absurd client other
  | writeList =>
    simp only [client] at step
    exact ⟨_, step, .refl _⟩
  | bias =>
    simp only [client] at step
    exact ⟨_, step, noteBias_noted ..⟩

/-! ### A command that has waited for 10 ms (R219) -/

/-- A link whose command has waited too long. -/
def cmdDiscarded (r : MailResult) (c : BusCmd) (f : Fem) : Fem :=
  let g := { f with queue := removeFirst (· == c) f.queue, discards := (f.discards + 1) % 65536 }
  if c.client = .mailbox then endMailbox r g else g

theorem cmdDiscarded_queue (r : MailResult) (c : BusCmd) (f : Fem) : (cmdDiscarded r c f).queue = removeFirst (· == c) f.queue := by
  unfold cmdDiscarded
  split <;> rfl

theorem cmdDiscarded_discards (r : MailResult) (c : BusCmd) (f : Fem) : (cmdDiscarded r c f).discards = (f.discards + 1) % 65536 := by
  unfold cmdDiscarded
  split <;> rfl

/-- The mailbox is busy no longer when the command was its own. -/
theorem cmdDiscarded_busy (r : MailResult) (c : BusCmd) (f : Fem) : (cmdDiscarded r c f).busy = (f.busy && c.client != .mailbox) := by
  unfold cmdDiscarded
  split
  · next mailbox => simp [mailbox, endMailbox]
  · next other => simp [other]

/-- A command is discarded at the end of its wait, and counted. -/
def queueTimedOut (n : Fin 16) (c : BusCmd) (s : State) : State :=
  let t := advanceMono (c.since + 40000000) s
  onFem n (cmdDiscarded (freeResult t.free) c) (takeFree t)

theorem exec_rffeQueueTimeout {n : Fin 16} {c : BusCmd} {s : State} (waits : (s.fec.fems[n]).queue.find? (·.client != .writeList) = some c) :
    exec (.rffeQueueTimeout n) s = .next (raise 91 (target .fem n) 0 (queueTimedOut n c s)) := by
  show execRffeQueueTimeout n s = _
  simp only [execRffeQueueTimeout, waits]
  rfl

theorem queueTimedOut_fem (n : Fin 16) (c : BusCmd) (s : State) :
    (queueTimedOut n c s).fec.fems[n.val] = cmdDiscarded (freeResult s.free) c s.fec.fems[n.val] := by
  simp [queueTimedOut]

theorem queueTimedOut_other {n m : Fin 16} (h : m ≠ n) (c : BusCmd) (s : State) :
    (queueTimedOut n c s).fec.fems[m.val] = s.fec.fems[m.val] := by
  simp only [queueTimedOut, onFem_other h, takeFree_fec, advanceMono_fec]

theorem queueTimedOut_mono (n : Fin 16) (c : BusCmd) (s : State) :
    (queueTimedOut n c s).time.mono = max s.time.mono (c.since + 40000000) := advanceMono_mono ..

theorem queueTimedOut_slices (n : Fin 16) (c : BusCmd) (s : State) : (queueTimedOut n c s).slices = s.slices := advanceMono_slices ..

theorem queueTimedOut_flt (n : Fin 16) (c : BusCmd) (s : State) : (queueTimedOut n c s).flt = s.flt := advanceMono_flt ..

/-! ### O34 -/

/-- Settles O34: the mailbox's GO has four answers, and a command that is done or has waited too long leaves its bus. -/
theorem rffeBus : Obligations.RffeBus := by
  refine ⟨fun q c => nextCmd_writeList, fun q c => nextCmd_bias, ?go, ?read, ?other, ?timeout, ?write, ?busy, ?notOwned, ?notLegal⟩
  case go =>
    intro n value s idle owned legal c
    have step := exec_rffeMailboxGo n value s
    have legal : goLegal n value s = true := legal
    simp only [idle, owned, legal] at step
    refine does_of_next step ⟨?_, ?_, fun m hm => onFem_other hm .., onFem_frame ..⟩
    all_goals simp [mailboxStarted, goCmd, c]
  case read =>
    intro n data c s next runs mailbox read
    obtain ⟨t, step, busy, result, left, queue, out, frame⟩ := rffeCommandDone_mailbox next runs mailbox data true
    exact ⟨t, step, busy, by simpa using result, by simpa [read] using left, queue, out, frame⟩
  case other =>
    intro n data parity c s next runs other
    obtain ⟨t, step, noted⟩ := exec_rffeCommandDone_other next runs other data parity
    obtain ⟨old, mid, link⟩ := cmdSent_fem n c s
    refine does_of_next step ⟨?_, ?_, ?_, ?out, noted.frame (cmdSent_levelled n c s)⟩
    case out => rw [noted.out]; exact cmdSent_out n c s
    all_goals simp [noted.fec, link]
  case timeout =>
    intro n c s waits
    refine does_of_next (exec_rffeQueueTimeout waits)
      ⟨?_, ?_, ?_, fun m hm => queueTimedOut_other hm c s, queueTimedOut_mono n c s, ?events, queueTimedOut_slices n c s⟩
    case events => rw [raise_events, queueTimedOut_flt]
    all_goals simp [queueTimedOut_fem, cmdDiscarded_queue, cmdDiscarded_discards, cmdDiscarded_busy]
  case write =>
    intro n data parity c s next runs mailbox writeOrBad
    obtain ⟨t, step, busy, result, left, queue, out, frame⟩ := rffeCommandDone_mailbox next runs mailbox data parity
    have noData : (isRead c.command && parity) = false := Bool.and_eq_false_iff.mpr writeOrBad
    refine ⟨t, step, busy, ?_, by simpa [noData] using left, queue, out, frame⟩
    rcases writeOrBad with write | bad
    · simpa [write] using result
    · simpa [bad] using result
  case busy =>
    intro n value s busy
    rw [exec_rffeMailboxGo, if_pos busy]
  case notOwned =>
    intro n value s idle other
    have step := exec_rffeMailboxGo n value s
    simp only [idle, other] at step
    exact does_of_next step ⟨rfl, onFem_self .., fun m hm => onFem_other hm .., rfl⟩
  case notLegal =>
    intro n value s idle owned illegal
    have step := exec_rffeMailboxGo n value s
    have illegal : goLegal n value s = false := illegal
    simp only [idle, owned, illegal] at step
    exact does_of_next step ⟨onFem_self .., fun m hm => onFem_other hm .., onFem_frame ..⟩

end Sys2Proof.Machine
end

section
/-! PROOFS. Coexistence lines and blanking inputs (R227 to R235; O35). -/
namespace Sys2Proof.Machine
open Sys2Proof

/-! ### The output of a TX port (R195, R233) -/

/-- A gate other than halt and grant leaves the ramp of a port at rest, or on its way down. -/
theorem driveStep_gated_down (m : Fin 32) (halted : Bool) (d : Drive) (s : State) : (driveStep m true halted d s).ramp.up = false := by
  simp only [driveStep, Bool.not_true, Bool.and_false, Bool.false_and, Bool.not_false, if_true, Option.any_none]
  split
  · split
    · rfl
    · next rests => exact (Bool.or_eq_false_iff.mp (Bool.eq_false_iff.mpr rests)).1
  · split
    · next same => exact (eq_of_beq same).symm
    · rfl

/-- An output is off when its ramp neither goes up nor has a level. -/
theorem outputOf_off_iff (mono : Nat) (d : Drive) : outputOf mono d = .off ↔ (d.ramp.up || rampAt mono d.ramp != 0) = false := by
  unfold outputOf
  dsimp only
  cases d.ramp.up with
  | true =>
    rw [if_pos rfl]
    split <;> simp
  | false =>
    rw [if_neg Bool.false_ne_true]
    split <;> simp [*]

/-- A ramp that does not go up shows no output that is on or on its way there. -/
theorem outputOf_down {mono : Nat} {d : Drive} (down : d.ramp.up = false) : outputOf mono d ≠ .on ∧ outputOf mono d ≠ .rampingUp := by
  unfold outputOf
  dsimp only
  rw [down, if_neg Bool.false_ne_true]
  split <;> simp

theorem settlePorts_tx (s : State) (m : Fin 32) : (settlePorts s).tiles.tx[m.val] = driveTx s m s.tiles.tx[m.val] :=
  updAll_get s.tiles.tx (driveTx s) m

theorem settle_tx (s : State) (m : Fin 32) : (settle s).tiles.tx[m.val] = driveTx s m s.tiles.tx[m.val] := by
  rw [settle_tiles, settlePorts_tx]

/-- A port that a blanking input holds is gated. -/
theorem gated_of_blanked {m : Fin 32} {s : State} (blanked : txBlanked m s = true) : (gateWord m s % 16 / 2 != 0) = true := by
  have bit_le (b : Bool) : bit b ≤ 1 := by cases b <;> decide
  have halted := bit_le (haltAsserted s)
  have muted := bit_le (portMuted m s)
  have held := bit_le (femHeld m s)
  have eight : bit (txBlanked m s) = 1 := by rw [blanked]; rfl
  rw [bne_iff_ne, gateWord]
  omega

/-- No port that a blanking input holds is on or ramps up. -/
theorem settle_blanked_down {m : Fin 32} {s : State} (blanked : txBlanked m s = true) :
    ((settle s).tiles.tx[m.val]).output ≠ .on ∧ ((settle s).tiles.tx[m.val]).output ≠ .rampingUp := by
  rw [settle_tx]
  simp only [driveTx, gated_of_blanked blanked]
  exact outputOf_down (driveStep_gated_down ..)

/-! ### The lines of a coexistence pair (R227 to R232) -/

theorem cxLevels_role (s : State) (c : CxPair) : (cxLevels s c).role = c.role := by
  unfold cxLevels
  dsimp only
  split <;> rfl

theorem cxLevels_denied (s : State) (c : CxPair) : (cxLevels s c).denied = c.denied := by
  unfold cxLevels
  dsimp only
  split <;> rfl

/-- A pair that is no arbiter takes the grant from its line. -/
theorem cxLevels_grant_line {c : CxPair} (other : c.role ≠ 2) (s : State) : (cxLevels s c).grant = c.pinG := by
  by_cases requester : c.role = 1
  · rw [cxLevels, if_pos requester]
  · rw [cxLevels, if_neg requester]
    exact if_neg other

/-- A pair that is no requester takes the request from its line. -/
theorem cxLevels_request_line {c : CxPair} (other : c.role ≠ 1) (s : State) : (cxLevels s c).request = c.pinA := by
  rw [cxLevels, if_neg other]

/-- The ports bound to a pair. -/
def boundPorts (c : CxPair) : List (Fin 32) := (indices 32).filter fun m => c.ports.getLsbD m

/-- Does a bound port withhold an arbiter's grant: it is not blanked, and transmits or is about to? -/
def withholds (c : CxPair) (s : State) (m : Fin 32) : Bool := !txBlanked m s && (transmits m s || rampsWithin m (4000 * c.lead) s)

theorem cxLevels_arbiter {c : CxPair} (arbiter : c.role = 2) (s : State) :
    (cxLevels s c).grant = (c.pinA && !(boundPorts c).any (withholds c s)) := by
  rw [cxLevels, if_neg (by rw [arbiter]; decide)]
  exact if_pos arbiter

theorem cxLevels_withheld {c : CxPair} {s : State} {m : Fin 32} (arbiter : c.role = 2) (bound : c.ports.getLsbD m = true)
    (busy : withholds c s m = true) : (cxLevels s c).grant = false := by
  have some : (boundPorts c).any (withholds c s) = true :=
    List.any_eq_true.mpr ⟨m, List.mem_filter.mpr ⟨mem_indices m, bound⟩, busy⟩
  rw [cxLevels_arbiter arbiter, some, Bool.not_true, Bool.and_false]

theorem cxLevels_granted {c : CxPair} {s : State} (arbiter : c.role = 2)
    (free : ∀ m : Fin 32, c.ports.getLsbD m = true → withholds c s m = false) : (cxLevels s c).grant = c.pinA := by
  have none : (boundPorts c).any (withholds c s) = false :=
    List.any_eq_false.mpr fun m bound => Bool.eq_false_iff.mp (free m (List.mem_filter.mp bound).2)
  rw [cxLevels_arbiter arbiter, none, Bool.not_false, Bool.and_true]

/-! ### What withholds a grant once the ports are up to date -/

theorem txBlanked_settlePorts (m : Fin 32) (s : State) : txBlanked m (settlePorts s) = txBlanked m s := by
  rw [txBlanked, settlePorts, txBlanked]

theorem isPair_of_slices {s t : State} (h : t.slices = s.slices) (m : Fin 32) : isPair m t = isPair m s := by
  simp only [isPair, liveDef, h]

theorem driveTx_output (s : State) (m : Fin 32) (x : TxPort) : (driveTx s m x).output = outputOf s.time.mono (driveTx s m x).drive := by
  simp only [driveTx]

/-- A port transmits when it shows an output that is not off. -/
theorem settlePorts_transmits (m : Fin 32) (s : State) : transmits m (settlePorts s) = true ↔ ((settle s).tiles.tx[m]).output ≠ .off := by
  have time : (settlePorts s).time = s.time := by rw [settlePorts_levelled]
  rw [Fin.getElem_fin, settle_tx, driveTx_output, ne_eq, outputOf_off_iff, Bool.not_eq_false, transmits, Fin.getElem_fin, settlePorts_tx, time]

/-- A port that is in no TDD pair and not due to ramp up is not about to. -/
theorem rampsWithin_idle {m : Fin 32} {s : State} (idle : (s.tiles.tx[m]).drive.due = none) (single : isPair m s = false) (lead : Nat) :
    rampsWithin m lead s = false := by
  simp only [rampsWithin, idle, single, Option.any_none, Bool.false_and, Bool.or_self]

theorem settlePorts_withholds {m : Fin 32} {s : State} (c : CxPair) (free : txBlanked m s = false)
    (shows : ((settle s).tiles.tx[m]).output ≠ .off) : withholds c (settlePorts s) m = true := by
  rw [withholds, txBlanked_settlePorts, free, (settlePorts_transmits m s).mpr shows, Bool.true_or, Bool.not_false, Bool.true_and]

theorem settlePorts_not_withholds {m : Fin 32} {s : State} (c : CxPair)
    (free : txBlanked m s = true ∨
      (((settle s).tiles.tx[m]).output = .off ∧ ((settle s).tiles.tx[m]).drive.due = none ∧ isPair m s = false)) :
    withholds c (settlePorts s) m = false := by
  unfold withholds
  rcases free with blanked | ⟨off, idle, single⟩
  · rw [txBlanked_settlePorts, blanked, Bool.not_true, Bool.false_and]
  · have still : transmits m (settlePorts s) = false :=
      Bool.eq_false_iff.mpr fun shows => (settlePorts_transmits m s).mp shows off
    have slices : (settlePorts s).slices = s.slices := by rw [settlePorts_levelled]
    rw [settle_tiles] at idle
    rw [still, rampsWithin_idle idle ((isPair_of_slices slices m).trans single), Bool.or_self, Bool.and_false]

/-! ### An arbiter's grant goes out when it changes (R227) -/

theorem cxEdges_grant {c : Fin 8} {old : FrontEnd} {s : State} (arbiter : (s.fec.cx[c]).role = 2) (edge : (s.fec.cx[c]).grant ≠ (old.cx[c]).grant) :
    cxEdges old s c = emit (.grant c (s.fec.cx[c]).grant) s := by
  unfold cxEdges
  dsimp only
  rw [arbiter, if_neg (by simp), if_pos (by simpa using edge.symm)]

theorem cxEdges_foldl_grant {c : Fin 8} {l : List (Fin 8)} (listed : c ∈ l) {old : FrontEnd} {s : State} (arbiter : (s.fec.cx[c]).role = 2)
    (edge : (s.fec.cx[c]).grant ≠ (old.cx[c]).grant) : .grant c (s.fec.cx[c]).grant ∈ (l.foldl (cxEdges old) s).out := by
  induction l generalizing s with
  | nil => cases listed
  | cons a l ih =>
    rw [List.foldl_cons]
    rcases List.mem_cons.mp listed with rfl | later
    · refine (cxEdges_foldl_sentSince old l _).mem ?_
      rw [cxEdges_grant arbiter edge]
      exact List.mem_cons_self
    · have kept := cxEdges_fec old s a
      have sent := ih (s := cxEdges old s a) later (by rw [kept]; exact arbiter) (by rw [kept]; exact edge)
      rwa [kept] at sent

theorem settleCx_sends_grant {c : Fin 8} {s : State} (arbiter : (s.fec.cx[c]).role = 2)
    (edge : (cxLevels s s.fec.cx[c]).grant ≠ (s.fec.cx[c]).grant) : .grant c (cxLevels s s.fec.cx[c]).grant ∈ (settleCx s).out := by
  unfold settleCx
  generalize levels : { s with fec := { s.fec with cx := s.fec.cx.map (cxLevels s) } } = t
  have level : t.fec.cx[c] = cxLevels s s.fec.cx[c] := by rw [← levels]; exact Vector.getElem_map ..
  rw [← level] at edge ⊢
  exact cxEdges_foldl_grant (mem_indices c) (by rw [level, cxLevels_role, arbiter]) edge

theorem settle_sends_grant {c : Fin 8} {s : State} (arbiter : (s.fec.cx[c]).role = 2)
    (edge : ((settle s).fec.cx[c]).grant ≠ (s.fec.cx[c]).grant) : .grant c ((settle s).fec.cx[c]).grant ∈ (settle s).out := by
  rw [Fin.getElem_fin, settle_cx] at edge ⊢
  rw [settle_eq, settleFems_out, beforeFems]
  exact settleCx_sends_grant arbiter edge

/-! ### The events of a coexistence pair (R227 to R230) -/

/-- A level at CXG. -/
def grantRead (c : Fin 8) (level : Bool) (s : State) : State :=
  onCx c (fun x => { x with pinG := level, grant := if x.role = 2 then x.grant else level }) s

theorem exec_grantChange (c : Fin 8) (level : Bool) (s : State) : exec (.grantChange c level) s = .next (settle (grantRead c level s)) := rfl

/-- A level at CXA. -/
def requestRead (c : Fin 8) (level : Bool) (s : State) : State :=
  onCx c (fun x => { x with pinA := level, request := if x.role = 1 then x.request else level }) s

theorem exec_coexRequestChange (c : Fin 8) (level : Bool) (s : State) :
    exec (.coexRequestChange c level) s = .next (settle (requestRead c level s)) := rfl

/-- A pair that is no requester takes a level at CXA as its request. -/
theorem requestRead_request {c : Fin 8} {s : State} (other : (s.fec.cx[c]).role ≠ 1) (level : Bool) :
    ((settle (requestRead c level s)).fec.cx[c]).request = level := by
  have role : ((requestRead c level s).fec.cx[c.val]).role ≠ 1 := by simpa [requestRead] using other
  rw [Fin.getElem_fin, settle_cx, cxLevels_request_line role]
  simp [requestRead]

theorem requestRead_txBlanked (m : Fin 32) (c : Fin 8) (level : Bool) (s : State) : txBlanked m (requestRead c level s) = txBlanked m s := rfl

theorem requestRead_isPair (m : Fin 32) (c : Fin 8) (level : Bool) (s : State) : isPair m (requestRead c level s) = isPair m s :=
  isPair_of_slices rfl m

section
variable {c : Fin 8} {level : Bool} {s t : State}

theorem requestRead_ports : ((requestRead c level s).fec.cx[c.val]).ports = (s.fec.cx[c]).ports := by simp [requestRead]

theorem requestRead_arbiter (arbiter : (s.fec.cx[c]).role = 2) : ((requestRead c level s).fec.cx[c.val]).role = 2 := by
  simpa [requestRead] using arbiter

variable (settled : settle (requestRead c level s) = t) (arbiter : (s.fec.cx[c]).role = 2)
include settled arbiter

/-- An arbiter that is not asked grants nothing. -/
theorem requestRead_low (low : level = false) : (t.fec.cx[c]).grant = false := by
  rw [← settled, Fin.getElem_fin, settle_cx, cxLevels_arbiter (requestRead_arbiter arbiter)]
  simp [requestRead, low]

/-- A bound port that is not blanked and whose output is not off withholds the grant. -/
theorem requestRead_withheld {m : Fin 32} (bound : (s.fec.cx[c]).ports.getLsbD m = true) (free : txBlanked m s = false)
    (shows : (t.tiles.tx[m]).output ≠ .off) : (t.fec.cx[c]).grant = false := by
  rw [← settled] at shows ⊢
  rw [Fin.getElem_fin, settle_cx]
  refine cxLevels_withheld (requestRead_arbiter arbiter) ?_ (settlePorts_withholds _ ((requestRead_txBlanked ..).trans free) shows)
  rw [requestRead_ports]
  exact bound

/-- Bound ports that are each blanked, or off for now, let the grant follow the request. -/
theorem requestRead_granted
    (lets : ∀ m : Fin 32, (s.fec.cx[c]).ports.getLsbD m = true → txBlanked m s = true ∨
      ((t.tiles.tx[m]).output = .off ∧ (t.tiles.tx[m]).drive.due = none ∧ isPair m s = false)) : (t.fec.cx[c]).grant = level := by
  rw [← settled, Fin.getElem_fin, settle_cx, cxLevels_granted (requestRead_arbiter arbiter) fun m bound => settlePorts_not_withholds _ ?_]
  · simp [requestRead]
  · rw [requestRead_ports] at bound
    rw [requestRead_txBlanked, requestRead_isPair, settled]
    exact lets m bound

/-- An arbiter's grant goes out when it changes. -/
theorem requestRead_sent (edge : (t.fec.cx[c]).grant ≠ (s.fec.cx[c]).grant) : .grant c (t.fec.cx[c]).grant ∈ t.out := by
  have before : ((requestRead c level s).fec.cx[c]).grant = (s.fec.cx[c]).grant := by simp [requestRead]
  rw [← settled, ← before] at edge
  rw [← settled]
  exact settle_sends_grant (requestRead_arbiter arbiter) edge

end

/-- A wait for a grant that has exceeded its time-out. -/
def grantDenied (c : Fin 8) (since : Nat) (s : State) : State :=
  notify (80 + c.val) 0 0 (onCx c (fun x => { x with denied := satAdd 65535 x.denied 1, counted := true })
    (advanceMono (since + 4000 * (s.fec.cx[c]).grantTimeout) s))

theorem exec_grantTimeout {c : Fin 8} {since : Nat} {s : State} (requester : (s.fec.cx[c]).role = 1)
    (waits : (s.fec.cx[c]).waitSince = some since) (first : (s.fec.cx[c]).counted = false) (limited : (s.fec.cx[c]).grantTimeout ≠ 0) :
    exec (.grantTimeout c) s = .next (grantDenied c since s) := by
  show execGrantTimeout c s = _
  simp only [execGrantTimeout, waits]
  exact if_pos ⟨requester, limited, first⟩

/-! ### The events of a blanking input (R231 to R235) -/

/-- An enabled input that rises. -/
def blankRisen (b : Fin 8) (s : State) : State :=
  onBlank b (fun x => { x with level := true, asserts := (x.asserts + 1) % 65536, since := some s.time.mono, overdue := false }) s

theorem exec_blankAssert_rises {b : Fin 8} {s : State} (enabled : (s.fec.blanks[b]).enable = true) (low : (s.fec.blanks[b]).level = false) :
    exec (.blankAssert b) s = .next (settle (notify 89 0 0 (blankRisen b s))) := by
  have twice : onBlank b (fun x => { x with asserts := (x.asserts + 1) % 65536, since := some s.time.mono, overdue := false })
      (onBlank b (fun x => { x with level := true }) s) = blankRisen b s := by
    simp [onBlank, onFec, blankRisen, upd]
  rw [← twice]
  exact if_pos ⟨enabled, low⟩

theorem exec_blankAssert_unused {b : Fin 8} {s : State} (unused : (s.fec.blanks[b]).enable = false) :
    exec (.blankAssert b) s = .next (onBlank b (fun x => { x with level := true }) s) :=
  if_neg fun rises => Bool.false_ne_true (unused.symm.trans rises.1)

/-- An input that rises blanks the ports that it masks. -/
theorem blankRisen_blanks {b : Fin 8} {s : State} {m : Fin 32} (enabled : (s.fec.blanks[b]).enable = true)
    (masked : (s.fec.blanks[b]).txMask.getLsbD m = true) : txBlanked m (notify 89 0 0 (blankRisen b s)) = true := by
  refine (anyOf_iff ..).mpr ⟨b, ?_⟩
  rw [notify_fec, blankRisen, Fin.getElem_fin, onBlank_self]
  exact Bool.and_eq_true_iff.mpr ⟨Bool.and_eq_true_iff.mpr ⟨enabled, rfl⟩, masked⟩

/-- An input that is released. -/
def blankReleased (b : Fin 8) (s : State) : State := onBlank b (fun x => { x with level := false, since := none, overdue := false }) s

theorem exec_blankRelease (b : Fin 8) (s : State) :
    exec (.blankRelease b) s = .next (if (s.fec.blanks[b]).enable && (s.fec.blanks[b]).level
      then settle (notify 89 0 0 (blankReleased b s)) else blankReleased b s) := (apply_ite Host.Outcome.next ..).symm

/-- An input found stuck. -/
def blankFound (b : Fin 8) (since : Nat) (s : State) : State :=
  onBlank b (fun x => { x with stuck := true, overdue := true }) (advanceMono (since + 4000000 * (s.fec.blanks[b]).blankMax) s)

theorem exec_blankStuck {b : Fin 8} {since : Nat} {s : State} (active : blankActive s.fec.blanks[b] = true)
    (asserted : (s.fec.blanks[b]).since = some since) (limited : (s.fec.blanks[b]).blankMax ≠ 0) (first : (s.fec.blanks[b]).overdue = false) :
    exec (.blankStuck b) s = .next (raise 90 0 0 (blankFound b since s)) := by
  show execBlankStuck b s = _
  simp only [execBlankStuck, asserted]
  exact if_pos (by rw [active, first]; simpa using limited)

/-! ### O35 -/

/-- Settles O35: a pair's lines follow its pins and its ports, and a blanking input that is obeyed gates the ports that it masks. -/
theorem coexistenceAndBlanking : Obligations.CoexistenceAndBlanking := by
  refine ⟨?grant, ?denied, ?arbiter, ?rises, ?falls, ?stuck, ?unused, ?line⟩
  case grant =>
    intro c level s other
    have role : ((grantRead c level s).fec.cx[c.val]).role ≠ 2 := by simpa [grantRead] using other
    refine does_of_next (exec_grantChange c level s) ⟨?_, ?_, ?_, ?_, ?_⟩
    · rw [Fin.getElem_fin, settle_cx, cxLevels_grant_line role]
      simp [grantRead]
    all_goals simp [cxLevels_denied, grantRead, onCx]
  case denied =>
    intro c since s requester waits first limited
    refine does_of_next (exec_grantTimeout requester waits first limited) ⟨?_, fun k hk => ?others, ?_, ?_, ?_, ?_⟩
    case others => simp [grantDenied, onCx_other hk]
    all_goals simp [grantDenied, satAdd, onCx, advanceMono_mono, -advanceMono_time]
  case arbiter =>
    intro c level s arbiter
    have step := exec_coexRequestChange c level s
    have request := requestRead_request (c := c) (s := s) (by rw [arbiter]; decide) level
    have slices : (settle (requestRead c level s)).slices = s.slices := settle_slices _
    have time : (settle (requestRead c level s)).time = s.time := settle_time _
    generalize settled : settle (requestRead c level s) = t at step request slices time
    exact does_of_next step ⟨request, requestRead_low settled arbiter,
      fun ⟨m, bound, free, shows⟩ => requestRead_withheld settled arbiter bound free shows, requestRead_granted settled arbiter,
      requestRead_sent settled arbiter, slices, time⟩
  case rises =>
    intro b s enabled low
    refine does_of_next (exec_blankAssert_rises enabled low) ⟨?_, fun k hk => ?others, fun m masked => ?down, ?_, ?_, ?_⟩
    case others => simp [blankRisen, onBlank_other hk]
    case down => exact settle_blanked_down (blankRisen_blanks enabled masked)
    all_goals simp [blankRisen, onBlank]
  case falls =>
    intro b s
    have others (k : Fin 8) (hk : k ≠ b) : (blankReleased b s).fec.blanks[k.val] = s.fec.blanks[k.val] := onBlank_other hk _ s
    refine does_of_next (exec_blankRelease b s) ?_
    split
    · refine ⟨?_, fun k hk => ?others, ?_, ?_, ?_⟩
      case others => simp [others k hk]
      all_goals simp [blankReleased, onBlank]
    · exact ⟨onBlank_self .., others, rfl, rfl, rfl⟩
  case stuck =>
    intro b since s active asserted limited first
    refine does_of_next (exec_blankStuck active asserted limited first) ⟨?_, fun k hk => ?others, ?events, ?_, ?_⟩
    case others => simp [blankFound, onBlank_other hk]
    case events => rw [raise_events]; simp [blankFound, onBlank]
    all_goals simp [blankFound, onBlank, advanceMono_mono, -advanceMono_time]
  case unused =>
    intro b s unused
    exact does_of_next (exec_blankAssert_unused unused) ⟨onBlank_self .., fun k hk => onBlank_other hk .., rfl⟩
  case line =>
    intro c level s off
    refine does_of_next (exec_coexRequestChange c level s) ⟨requestRead_request (by rw [off]; decide) level, ?_, ?_, ?_⟩
    all_goals simp [requestRead, onCx]

end Sys2Proof.Machine
end

section
/-! PROOFS. The deletion of a slice (R297, R299) and its meters (R283; O38). -/
namespace Sys2Proof.Machine
open Sys2Proof

/-! ### SLICE_DELETE (R297, R299) -/

/-- One that passes its checks begins the deletion. The checks read the slice, which the start of a command leaves. -/
theorem exec_sliceDelete_begins {d : Desc} {sl : SliceId} {s : State} (runs : Runs 0x1B d s) (unit : d.unit .slice 256 = some sl)
    (direct : d.indirect = false) (clean : firstFail [d.strayCheck []] = none) (defined : isDefined sl s = true)
    (alive : (s.slices.slice[sl]).state ≠ .deleting) :
    exec (.sliceDelete d) s = .next (settle (settleUnits (beginDelete sl (issueOf 0x1B d s) (startCommand d s)))) := by
  have stray : (d.strayCheck []).1 = false := (firstFail_none_iff _).mp clean _ List.mem_cons_self
  have defined' : isDefined sl (startCommand d s) = true := defined
  have alive' : ((startCommand d s).slices.slice[sl]).state ≠ .deleting := alive
  have passes : firstFail [(d.indirect, badParam 1), d.strayCheck [], (!isDefined sl (startCommand d s), badParam 8),
      (((startCommand d s).slices.slice[sl]).state == .deleting, refuseTarget .rejectedBusy d.tgt)] = none := by
    rw [firstFail_none_iff]
    simp only [List.forall_mem_cons, List.not_mem_nil, false_imp_iff, implies_true, and_true]
    exact ⟨direct, stray, by rw [defined']; rfl, beq_false_of_ne alive'⟩
  show execSliceDelete d s = _
  simp only [execSliceDelete, hostCommand_runs runs, unit, passes]

theorem exec_sliceDeleteDone {sl : SliceId} {iss : Issue} {s : State} (waits : (s.slices.slice[sl]).deleting = some iss) :
    exec (.sliceDeleteDone sl) s = .next (settleUnits (restoreStopped (placeFeeds (complete iss .ok (emptySlice sl s))))) := by
  show execSliceDeleteDone sl s = _
  simp only [execSliceDeleteDone, waits]

/-! ### What ends with a slice lies beside the slices -/

theorem Beside.time {s t : State} (h : Beside s t) : t.time = s.time := by rw [h]

theorem endCaptures_beside (sl : SliceId) (s : State) : Beside s (endCaptures sl s) := rfl

theorem abandonMoves_beside (sl : SliceId) (s : State) : Beside s (abandonMoves sl s) := (onPlc_beside ..).trans (dropMoves_beside ..)

theorem freeBuffers_beside (f : BufKey → Bool) (s : State) : Beside s (freeBuffers f s) := rfl

theorem unreserve_beside (sl : SliceId) (s : State) : Beside s (unreserve sl s) := (onPlc_beside ..).trans (freeBuffers_beside ..)

theorem freePlaced_beside (sl : SliceId) (s : State) : Beside s (freePlaced sl s) := (onPlc_beside ..).trans (freeBuffers_beside ..)

theorem completeOpt_beside (iss : Option Issue) (st : Status) (s : State) : Beside s (completeOpt iss st s) := .of_answered (completeOpt_answered ..)

/-! ### A deletion begins -/

/-- A slice that is being deleted for a command. -/
def deletingFor (iss : Issue) (x : Slice) : Slice := { x with state := .deleting, deleting := some iss, restart := none, pending := none }

/-- Captures, moves and a reservation end before the slice changes, and the commands that waited on it are answered after. -/
theorem beginDelete_parts (sl : SliceId) (iss : Issue) (s : State) :
    ∃ freed, Beside s freed ∧ Beside (onSlice sl (deletingFor iss) freed) (beginDelete sl iss s) :=
  ⟨_, ((endCaptures_beside ..).trans (abandonMoves_beside ..)).trans (unreserve_beside ..),
    (completeOpt_beside ..).trans (completeOpt_beside ..)⟩

theorem beginDelete_self (sl : SliceId) (iss : Issue) (s : State) :
    (beginDelete sl iss s).slices.slice[sl] = deletingFor iss s.slices.slice[sl] := by
  obtain ⟨freed, before, after⟩ := beginDelete_parts sl iss s
  rw [after.slice, onSlice_self, before.slice]

theorem beginDelete_other {sl k : SliceId} (h : k ≠ sl) (iss : Issue) (s : State) :
    (beginDelete sl iss s).slices.slice[k] = s.slices.slice[k] := by
  obtain ⟨freed, before, after⟩ := beginDelete_parts sl iss s
  rw [after.slice, onSlice_other h, before.slice]

theorem beginDelete_time (sl : SliceId) (iss : Issue) (s : State) : (beginDelete sl iss s).time = s.time := by
  obtain ⟨freed, before, after⟩ := beginDelete_parts sl iss s
  exact after.time.trans before.time

/-! ### An index reads EMPTY -/

theorem canIdx_a_ne_b (sl : SliceId) : canIdx sl .a ≠ canIdx sl .b := by
  simp only [canIdx, ne_eq, Fin.mk.injEq]
  omega

@[simp] theorem settle_can (s : State) : (settle s).can = s.can := by rw [settle_frame]

/-- An index off the shed list, with its cancellers, its chains and itself as at reset. -/
def clearIndex (sl : SliceId) (s : State) : State :=
  let s := onCanceller sl .a (fun _ => cancellerReset) (onCanceller sl .b (fun _ => cancellerReset) (leaveShed sl s))
  countStreams (onSlice sl (fun _ => sliceReset) (onChain sl .b (fun _ => chainReset) (onChain sl .a (fun _ => chainReset) s)))

/-- What the slice had placed and its streams are freed before its index clears. -/
theorem emptySlice_parts (sl : SliceId) (s : State) : ∃ freed, Beside s freed ∧ emptySlice sl s = settle (clearIndex sl freed) :=
  ⟨_, ((freePlaced_beside sl s).trans (onPlc_beside ..)).trans (onLnk_beside ..), rfl⟩

theorem clearIndex_slice (sl : SliceId) (s : State) :
    (clearIndex sl s).slices.slice = upd (leaveShed sl s).slices.slice sl fun _ => sliceReset := rfl

theorem clearIndex_can (sl : SliceId) (s : State) : (clearIndex sl s).can =
    (onCanceller sl .a (fun _ => cancellerReset) (onCanceller sl .b (fun _ => cancellerReset) (leaveShed sl s))).can := rfl

theorem clearIndex_time (sl : SliceId) (s : State) : (clearIndex sl s).time = s.time := by
  simp only [clearIndex, countStreams, onSlice, onChain, onCanceller, leaveShed, onDfe_time, onSlices_time, onSig_time, onCan_time, onThm_time]

theorem clearIndex_self (sl : SliceId) (s : State) : (clearIndex sl s).slices.slice[sl] = sliceReset := by
  rw [clearIndex_slice]
  exact upd_self ..

theorem clearIndex_other {sl k : SliceId} (h : k ≠ sl) (s : State) : (clearIndex sl s).slices.slice[k] = s.slices.slice[k] := by
  rw [clearIndex_slice, upd_other _ _ _ _ h]
  exact onSlice_other h ..

theorem clearIndex_canceller (sl : SliceId) (p : PathId) (s : State) : (clearIndex sl s).can.path[canIdx sl p] = cancellerReset := by
  rw [clearIndex_can]
  cases p with
  | a => rw [onCanceller_self]
  | b => rw [onCanceller_other (canIdx_a_ne_b sl).symm, onCanceller_self]

theorem emptySlice_self (sl : SliceId) (s : State) : (emptySlice sl s).slices.slice[sl] = sliceReset := by
  obtain ⟨freed, -, empties⟩ := emptySlice_parts sl s
  rw [empties, settle_slices, clearIndex_self]

theorem emptySlice_other {sl k : SliceId} (h : k ≠ sl) (s : State) : (emptySlice sl s).slices.slice[k] = s.slices.slice[k] := by
  obtain ⟨freed, before, empties⟩ := emptySlice_parts sl s
  rw [empties, settle_slices, clearIndex_other h, before.slice]

theorem emptySlice_canceller (sl : SliceId) (p : PathId) (s : State) : (emptySlice sl s).can.path[canIdx sl p] = cancellerReset := by
  obtain ⟨freed, -, empties⟩ := emptySlice_parts sl s
  rw [empties, settle_can, clearIndex_canceller]

theorem emptySlice_time (sl : SliceId) (s : State) : (emptySlice sl s).time = s.time := by
  obtain ⟨freed, before, empties⟩ := emptySlice_parts sl s
  rw [empties, settle_time, clearIndex_time, before.time]

/-! ### Meters (R283) -/

theorem meterStep_sums {w : Nat} {m : Meter} (h : m.count + 1 < 2 ^ w) (v : Cplx) :
    meterStep w v m = { m with sum := m.sum + cNorm v, count := m.count + 1 } := if_neg (Nat.not_le.mpr h)

theorem meterStep_ends {w : Nat} {m : Meter} (h : 2 ^ w ≤ m.count + 1) (v : Cplx) :
    meterStep w v m = { sum := 0, count := 0, ended := some (m.sum + cNorm v, m.count + 1) } := if_pos h

theorem meterReading_bounds (w : Nat × Nat) (k : Nat) : -32767 ≤ meterReading w k ∧ meterReading w k ≤ 32767 :=
  ⟨Int.le_max_left .., Int.max_le.mpr ⟨by decide, Int.min_le_left ..⟩⟩

/-- The reading of a meter whose window has ended. -/
def readingOf (m : Meter) (k : Nat) : Option Int := m.ended.map fun w => meterReading w k

/-- The readings of a path's two meters stored, where their windows have ended. -/
def storeReadings (p : PathId) (i o : Option Int) (y : Slice) : Slice :=
  match p with
  | .a => { y with inA := i.getD y.inA, outA := o.getD y.outA }
  | .b => { y with inB := i.getD y.inB, outB := o.getD y.outB }

/-- A path's two windows are reported. -/
def takeWindows (x : Chain) : Chain := { x with meterIn := { x.meterIn with ended := none }, meterOut := { x.meterOut with ended := none } }

/-- The state in which a path's windows are reported, with readings `i` and `o`. -/
def metered (sl : SliceId) (p : PathId) (i o : Option Int) (s : State) : State :=
  onChain sl p takeWindows (keepLowest sl p o (onSlice sl (storeReadings p i o) { s with free := s.free + 2 }))

theorem exec_meterWindowEnd (sl : SliceId) (p : PathId) (s : State) :
    exec (.meterWindowEnd sl p) s =
      .next (metered sl p (readingOf (s.sig.path[canIdx sl p]).meterIn s.free) (readingOf (s.sig.path[canIdx sl p]).meterOut (s.free + 1)) s) := by
  cases p <;> rfl

/-- The lowest reading is the protection's alone. -/
theorem keepLowest_frame (sl : SliceId) (p : PathId) (v : Option Int) (s : State) :
    keepLowest sl p v s = { s with nps := (keepLowest sl p v s).nps } := by
  cases v <;> rfl

section
variable (sl : SliceId) (p : PathId) (i o : Option Int) (s : State)

theorem metered_frame : metered sl p i o s = { s with
    slices := { s.slices with slice := (metered sl p i o s).slices.slice }, sig := (metered sl p i o s).sig, nps := (metered sl p i o s).nps
    free := s.free + 2 } := by
  unfold metered
  rw [keepLowest_frame]
  rfl

theorem metered_slice : (metered sl p i o s).slices.slice = upd s.slices.slice sl (storeReadings p i o) := by
  unfold metered
  rw [keepLowest_frame]
  rfl

theorem metered_self : (metered sl p i o s).slices.slice[sl] = storeReadings p i o s.slices.slice[sl] := by
  rw [metered_slice]
  exact upd_self ..

theorem metered_other {k : SliceId} (h : k ≠ sl) : (metered sl p i o s).slices.slice[k] = s.slices.slice[k] := by
  rw [metered_slice, upd_other _ _ _ _ h]

theorem metered_taken : ((metered sl p i o s).sig.path[canIdx sl p]).meterIn.ended = none ∧
    ((metered sl p i o s).sig.path[canIdx sl p]).meterOut.ended = none := by
  have taken : (metered sl p i o s).sig.path[canIdx sl p] = takeWindows _ := upd_self ..
  rw [taken]
  exact ⟨rfl, rfl⟩

end

/-- Both meters of a path whose windows have ended are read, each with its own free value. -/
theorem meterWindowEnd_reads {sl : SliceId} {p : PathId} {i o : Nat × Nat} {s : State} (input : (s.sig.path[canIdx sl p]).meterIn.ended = some i)
    (output : (s.sig.path[canIdx sl p]).meterOut.ended = some o) :
    Does (.meterWindowEnd sl p) s fun t =>
      t.slices.slice[sl] = storeReadings p (some (meterReading i s.free)) (some (meterReading o (s.free + 1))) s.slices.slice[sl] ∧
      (t.sig.path[canIdx sl p]).meterIn.ended = none ∧ (t.sig.path[canIdx sl p]).meterOut.ended = none ∧
      (∀ k : SliceId, k ≠ sl → t.slices.slice[k] = s.slices.slice[k]) ∧
      t = { s with slices := { s.slices with slice := t.slices.slice }, sig := t.sig, nps := t.nps, free := s.free + 2 } := by
  have runs := exec_meterWindowEnd sl p s
  simp only [readingOf, input, output, Option.map_some] at runs
  obtain ⟨inTaken, outTaken⟩ := metered_taken sl p (some (meterReading i s.free)) (some (meterReading o (s.free + 1))) s
  exact does_of_next runs ⟨metered_self .., inTaken, outTaken, fun k h => metered_other _ _ _ _ _ h, metered_frame ..⟩

/-- Without a window that has ended nothing is stored. -/
theorem meterWindowEnd_idle {sl : SliceId} {p : PathId} {s : State} (input : (s.sig.path[canIdx sl p]).meterIn.ended = none)
    (output : (s.sig.path[canIdx sl p]).meterOut.ended = none) :
    Does (.meterWindowEnd sl p) s fun t => t.slices.slice[sl] = s.slices.slice[sl] ∧ t.nps = s.nps := by
  have runs := exec_meterWindowEnd sl p s
  simp only [readingOf, input, output, Option.map_none] at runs
  refine does_of_next runs ⟨(metered_self ..).trans ?_, rfl⟩
  cases p <;> rfl

/-! ### O38 -/

/-- Settles O38: a deletion frees what lies beside the slices around one change of the index, and a window's end stores the readings of one path. -/
theorem slicesAreDeleted : Obligations.SlicesAreDeleted := by
  refine ⟨fun d sl s runs unit direct clean defined alive => exec_sliceDelete_begins runs unit direct clean defined alive, ?begins,
    fun sl iss s waits => exec_sliceDeleteDone waits, ?empties, fun sl i o s input output => meterWindowEnd_reads input output,
    fun sl i o s input output => meterWindowEnd_reads input output, fun w v m => ⟨fun h => meterStep_sums h v, fun h => meterStep_ends h v⟩,
    meterReading_bounds, fun sl p s input output => meterWindowEnd_idle input output⟩
  case begins =>
    intro sl iss s t
    have self : t.slices.slice[sl] = deletingFor iss s.slices.slice[sl] := beginDelete_self sl iss s
    rw [self]
    exact ⟨rfl, rfl, rfl, rfl, fun k h => beginDelete_other h iss s, beginDelete_time sl iss s⟩
  case empties =>
    intro sl s t
    exact ⟨emptySlice_self sl s, fun k h => emptySlice_other h s, emptySlice_canceller sl .a s, emptySlice_canceller sl .b s, emptySlice_time sl s⟩

end Sys2Proof.Machine
end

section
/-! PROOFS. What leaves station time where it is: answers, the relocation of a slice by restart, mutes of slices and the settling of the pairs (R350,
R351, R362, R390, R456). -/
namespace Sys2Proof.Machine
open Sys2Proof

/-! ### Answers leave station time and TDD timing alone -/

theorem Answered.time {s t : State} (h : Answered s t) : t.time = s.time := by rw [h]

theorem Answered.tdd {s t : State} (h : Answered s t) : t.tdd = s.tdd := by rw [h]

@[simp] theorem recordNow_time (p : Payload) (s : State) : (recordNow p s).time = s.time := (recordNow_answered ..).time

@[simp] theorem notify_tdd (src u d : Nat) (s : State) : (notify src u d s).tdd = s.tdd := (notify_answered ..).tdd

@[simp] theorem completeOpt_time (i : Option Issue) (st : Status) (s : State) : (completeOpt i st s).time = s.time := (completeOpt_answered ..).time

@[simp] theorem completeOpt_tdd (i : Option Issue) (st : Status) (s : State) : (completeOpt i st s).tdd = s.tdd := (completeOpt_answered ..).tdd

/-- A fold whose steps keep station time keeps it. -/
theorem foldl_time {α : Type} {f : State → α → State} (h : ∀ s a, (f s a).time = s.time) (l : List α) (s : State) : (l.foldl f s).time = s.time :=
  foldl_keeps (fun s t => t.time = s.time) (fun _ => rfl) (fun a b => b.trans a) f h l s

/-! ### A relocation by restart (R456, R460) -/

theorem allocBuffer_time {k : BufKey} {bytes : Nat} {s t : State} (h : allocBuffer k bytes s = some t) : t.time = s.time := by
  obtain ⟨chunks, -, rfl⟩ := Option.map_eq_some_iff.mp h
  rfl

theorem allocBuffers_time {sl : SliceId} {l : List (PathId × Nat)} {o : Option State} {t : State}
    (h : l.foldl (fun o x => o.bind (allocBuffer (lineKey sl x.1 true) (4 * x.2))) o = some t) : ∃ s, o = some s ∧ t.time = s.time := by
  induction l generalizing o with
  | nil => exact ⟨t, h, rfl⟩
  | cons x l ih =>
    obtain ⟨u, allocated, rest⟩ := ih h
    obtain ⟨s, start, one⟩ := Option.bind_eq_some_iff.mp allocated
    exact ⟨s, start, rest.trans (allocBuffer_time one)⟩

theorem reserve_time {sl : SliceId} {d : SliceDef} {s t : State} (h : reserve sl d s = some t) : t.time = s.time := by
  obtain ⟨host, -, reserved⟩ := Option.bind_eq_some_iff.mp h
  obtain ⟨u, start, kept⟩ := allocBuffers_time reserved
  rw [kept, ← Option.some.inj start, onPlc_time]

theorem stopForCapacity_time (sl : SliceId) (s : State) : (stopForCapacity sl s).time = s.time := by
  have freed : (freePlaced sl (abandonMoves sl s)).time = s.time := ((abandonMoves_beside sl s).trans (freePlaced_beside sl _)).time
  rw [stopForCapacity, stopSlice, raise_time, onSlice, onSlices_time, recordNow_time, onPlc_time, freed]

theorem makeRoomIn_time (sl : SliceId) (fits : State → Bool) (l : List SliceId) (s : State) : (makeRoomIn sl fits l s).time = s.time := by
  induction l generalizing s with
  | nil => exact stopForCapacity_time sl s
  | cons x l ih =>
    unfold makeRoomIn
    dsimp only
    split
    · exact stopForCapacity_time x s
    · exact (ih _).trans (stopForCapacity_time x s)

theorem makeRoom_time (sl : SliceId) (fits : State → Bool) (src : Fin 320) (unit : Nat) (s : State) : (makeRoom sl fits src unit s).time = s.time :=
  (raise_time ..).trans (makeRoomIn_time ..)

theorem restartPresent_time (keep : Bool) (sl : SliceId) (s : State) : (restartPresent keep sl s).time = s.time := by
  unfold restartPresent
  split
  · rfl
  · exact ((endCaptures_beside sl s).trans (abandonMoves_beside sl _)).time

theorem relocate_time (unit : Nat) (sl : SliceId) (s : State) : (relocate unit sl s).time = s.time := by
  unfold relocate
  split
  · rfl
  · next x _ =>
    extract_lets freed roomy
    have hFreed : freed.time = s.time := ((abandonMoves_beside sl s).trans (unreserve_beside sl _)).time
    have hRoomy : roomy.time = freed.time := by
      show (match reserve sl x.defn freed with | some _ => freed | none => _).time = _
      split
      · rfl
      · exact makeRoom_time ..
    have kept := hRoomy.trans hFreed
    split
    · exact kept
    · split
      · next reserved => exact (restartPresent_time ..).trans ((reserve_time reserved).trans kept)
      · exact kept

theorem Settled.time {s t : State} (h : Settled s t) : t.time = s.time := by rw [h]

theorem abandonMove_beside (i : Fin 8) (m : Move) (s : State) : Beside s (abandonMove i m s) :=
  ((onPlc_beside _ s).trans (moveRecord_beside 2 m _)).trans (bumpGen_beside _)

theorem causeAbandon_time (i : Fin 8) (m : Move) (s : State) : (causeAbandon i m s).time = s.time := by
  refine (settleUnits_settled _).time.trans ?_
  split
  · exact (relocate_time ..).trans (abandonMove_beside i m s).time
  · exact (abandonMove_beside i m s).time

theorem abandonShadow_time (sl : SliceId) (s : State) : (abandonShadow sl s).time = s.time := by
  refine foldl_time (fun s i => ?_) _ s
  split
  · split
    · exact causeAbandon_time ..
    · rfl
  · rfl

/-! ### Mutes of slices (R338, R350, R351) -/

theorem muteSlice_time (inj : Bool) (sl : SliceId) (k : SliceMute) (value : Int) (s : State) : (muteSlice inj sl k value s).time = s.time := by
  have recorded : (protRecord (muteCause k) 0 0 (target .slice sl) value (onSliceProt sl (setMuteOf k true) s)).time = s.time := recordNow_time ..
  unfold muteSlice
  split
  · rfl
  · cases k <;> exact recorded

theorem timingMute_time (inj : Bool) (s : State) : (timingMute inj s).time = s.time := by
  refine foldl_time (fun s sl => ?_) _ s
  split
  · split
    · exact (abandonShadow_time ..).trans (muteSlice_time ..)
    · rfl
  · rfl

/-- The parts of the state that the release of mutes touches. -/
def Unmuted (s t : State) : Prop := t = { s with nps := t.nps, evr := t.evr, pmc := t.pmc }

theorem Unmuted.refl (s : State) : Unmuted s s := rfl

theorem Unmuted.trans {s t u : State} (h : Unmuted s t) (k : Unmuted t u) : Unmuted s u := by
  unfold Unmuted at *
  rw [k, h]

theorem Unmuted.time {s t : State} (h : Unmuted s t) : t.time = s.time := by rw [h]

theorem Unmuted.tdd {s t : State} (h : Unmuted s t) : t.tdd = s.tdd := by rw [h]

theorem recordNow_unmuted (p : Payload) (s : State) : Unmuted s (recordNow p s) := by
  unfold Unmuted
  rw [recordNow_frame]

theorem unmuteSlice_unmuted (sl : SliceId) (k : SliceMute) (s : State) : Unmuted s (unmuteSlice sl k s) := by
  have cleared : Unmuted s (onSliceProt sl (setMuteOf k false) s) := rfl
  unfold unmuteSlice
  split
  · exact (cleared.trans (recordNow_unmuted ..)).trans (recordNow_unmuted ..)
  · exact .refl s

theorem timingRelease_unmuted (i : Fin 8) (s : State) : Unmuted s (timingRelease i s) := by
  unfold timingRelease
  split
  · exact .refl s
  · refine foldl_keeps Unmuted .refl .trans _ (fun s sl => ?_) _ s
    split
    · split
      · exact unmuteSlice_unmuted ..
      · exact .refl s
    · exact .refl s

/-! ### The settling of the pairs (R390, R391) -/

@[simp] theorem settle_tdd (s : State) : (settle s).tdd = s.tdd := by rw [settle_frame]

@[simp] theorem settle_cfg (s : State) : (settle s).cfg = s.cfg := by rw [settle_frame]

@[simp] theorem settlePairs_time (s : State) : (settlePairs s).time = s.time := by
  rw [settlePairs, settle_time, onTdd_time]

@[simp] theorem settlePairs_timers (s : State) : (settlePairs s).tdd.timers = s.tdd.timers := by
  rw [settlePairs, settle_tdd, onTdd_tdd]

theorem timersStep_time (d : Int) (s : State) : (timersStep d s).time = s.time := by
  unfold timersStep
  split
  · rfl
  · exact settlePairs_time _

theorem cancellersStep_time (s : State) : (cancellersStep s).time = s.time := by
  refine foldl_time (fun s sl => ?_) _ s
  split <;> rfl

end Sys2Proof.Machine
end

section
/-! PROOFS. Station time: reads, the loss of its source, the pulses of PPS_IN and PPS_OUT, and the estimated error (R371, R372, R374 to R378, R384;
O24). -/
namespace Sys2Proof.Machine
open Sys2Proof

/-! ### Time that passes leaves the rest of station time alone (R25) -/

section
variable (n : Nat) (s : State)

@[simp] theorem elapse_state : (elapse n s).time.state = s.time.state := by rw [elapse_time]; rfl

@[simp] theorem advanceTo_state : (advanceTo n s).time.state = s.time.state := elapse_state ..

@[simp] theorem advanceTo_ppsDelay : (advanceTo n s).time.ppsDelay = s.time.ppsDelay := by rw [advanceTo_time]; rfl

@[simp] theorem advanceTo_outMode : (advanceTo n s).time.outMode = s.time.outMode := by rw [advanceTo_time]; rfl

@[simp] theorem advanceTo_outPolarity : (advanceTo n s).time.outPolarity = s.time.outPolarity := by rw [advanceTo_time]; rfl

@[simp] theorem advanceTo_outWidth : (advanceTo n s).time.outWidth = s.time.outWidth := by rw [advanceTo_time]; rfl

end

/-! ### Reads, sources and loss (R371, R372, R378) -/

theorem exec_timNowNsRead_open {fn : Fn} {s : State} (h : BarOpen fn s) :
    exec (.timNowNsRead fn) s = .next { s with
      time := { s.time with latchedSec := s.time.q / qSecond }, out := .readData fn (s.time.q % qSecond) :: s.out } :=
  congrArg Host.Outcome.next (viaBar_open h)

/-- An ALIGNED part that loses its source. -/
def heldOver (s : State) : State := raise 163 0 0 (onTime (fun t => { t with state := .holdover }) s)

theorem heldOver_events (s : State) : ((heldOver s).flt.sources[(163 : Fin 320)]).events = (s.flt.sources[(163 : Fin 320)]).events + 1 :=
  raise_events 163 0 0 _

theorem heldOver_frame (s : State) :
    heldOver s = { s with time := { s.time with state := .holdover }, flt := { s.flt with sources := (heldOver s).flt.sources } } := rfl

/-- An ALIGNED part whose source is lost after a time. -/
theorem heldOver_elapse (n : Nat) (s : State) :
    (heldOver (elapse n s)).time.state = .holdover ∧ (heldOver (elapse n s)).time.mono = s.time.mono + n ∧
    ((heldOver (elapse n s)).flt.sources[(163 : Fin 320)]).events = (s.flt.sources[(163 : Fin 320)]).events + 1 ∧
    heldOver (elapse n s) = { elapse n s with
      time := (heldOver (elapse n s)).time, flt := { s.flt with sources := (heldOver (elapse n s)).flt.sources } } := by
  have time : (heldOver (elapse n s)).time = { later n s.time with state := .holdover } := by rw [heldOver_frame, elapse_time]
  refine ⟨by rw [time], by rw [time, later], by rw [heldOver_events, elapse_flt], ?_⟩
  rw [← elapse_flt n s]
  rfl

theorem exec_timeSourceChange_aligned {source : Bool} {s : State} (other : s.time.source ≠ source) (aligned : s.time.state = .aligned) :
    exec (.timeSourceChange source) s = .next (heldOver (onTime (fun t => { t with source := source }) s)) :=
  (if_neg other).trans (congrArg _ (if_pos aligned))

theorem exec_timeSourceChange_unaligned {source : Bool} {s : State} (other : s.time.source ≠ source) (unaligned : s.time.state ≠ .aligned) :
    exec (.timeSourceChange source) s = .next (onTime (fun t => { t with source := source }) s) :=
  (if_neg other).trans (congrArg _ (if_neg unaligned))

theorem exec_ppsLoss_aligned {s : State} (aligned : s.time.state = .aligned) :
    exec .ppsLoss s = .next (heldOver (elapse (s.time.lastEdge + 4400000000 - s.time.mono) s)) := by
  show execPpsLoss s = _
  rw [execPpsLoss, if_pos aligned, enterHoldover, if_pos ((elapse_state ..).trans aligned), heldOver]

/-! ### Pulses of PPS_IN (R375 to R377) -/

/-- A pulse that is too short has come. -/
def strayCounted (capture : Nat) (s : State) : State :=
  raise 165 0 0 (onTime (fun t => { t with strays := satAdd 255 t.strays 1 }) (advanceTo capture s))

theorem strayCounted_time (capture : Nat) (s : State) :
    (strayCounted capture s).time = { later (capture - s.time.q) s.time with strays := satAdd 255 s.time.strays 1 } := by
  rw [strayCounted, raise_time, onTime_time, advanceTo_time]
  rfl

theorem strayCounted_frame (capture : Nat) (s : State) : strayCounted capture s = { advanceTo capture s with
    time := (strayCounted capture s).time, flt := { s.flt with sources := (strayCounted capture s).flt.sources } } := by
  rw [← advanceTo_flt capture s]
  rfl

theorem exec_ppsEdge_short {width : Nat} {s : State} (pps : s.time.source = false) (short : width < 100) (capture active : Nat) :
    exec (.ppsEdge capture width active) s = .next (strayCounted capture s) := by
  show execPpsEdge capture width active s = _
  simp only [execPpsEdge, pps, Bool.false_eq_true, if_false, if_pos short]
  rfl

/-- The timing edge of a pulse is taken. -/
def edgeTaken (capture : Nat) (s : State) : State :=
  takeEdge capture s.time.ppsDelay .ppsAlign (onTime (fun t => { t with linkAccuracy := none }) (advanceTo capture s))

/-- The polarity has toggled, and the pulse's other edge is taken. -/
def otherEdgeTaken (capture : Nat) (s : State) : State :=
  takeEdge capture s.time.ppsDelay .ppsAlign (advanceTo capture (raise 162 0 0 s))

/-- A pulse of 100 ns or more is taken by its timing edge, and after three long active times by its other edge too. -/
theorem exec_ppsEdge_long {capture width active : Nat} {s : State} {u : StationTime} {toggled : Bool} (pps : s.time.source = false)
    (long : 100 ≤ width) (judged : judgePolarity active (edgeTaken capture s).time = (u, toggled)) :
    exec (.ppsEdge capture width active) s = .next (
      if toggled then otherEdgeTaken (capture + 4 * active) (onTime (fun _ => u) (edgeTaken capture s))
      else onTime (fun _ => u) (edgeTaken capture s)) := by
  unfold edgeTaken at judged ⊢
  show execPpsEdge capture width active s = _
  simp only [execPpsEdge, pps, Bool.false_eq_true, if_false, if_neg (Nat.not_lt.mpr long), onTime_time, advanceTo_ppsDelay, judged, raise_time,
    otherEdgeTaken]
  cases toggled <;> rfl

theorem exec_ppsEdge_unused {s : State} (fronthaul : s.time.source = true) (capture width active : Nat) :
    exec (.ppsEdge capture width active) s = .next s := if_pos fronthaul

/-! ### The estimated error (R374) -/

theorem updateError_time (s : State) : (updateError s).time =
    { s.time with estimate := estimateOf s.time, errorOver := estimateOver (estimateOf s.time) } := by
  unfold updateError
  extract_lets e beyond rose updated raised
  have hRaised : raised.time = updated.time := by
    show (if rose = true then raise 164 0 0 updated else updated).time = _
    split <;> rfl
  split
  · exact (timingMute_time false raised).trans hRaised
  · exact hRaised

theorem le_ceilTo {m : Nat} (h : 0 < m) (v : Nat) : v ≤ ceilTo m v := by
  have := Nat.div_add_mod (v + (m - 1)) m
  have := Nat.mod_lt (v + (m - 1)) h
  unfold ceilTo
  rw [Nat.mul_comm]
  omega

/-! ### PPS_OUT (R384) -/

theorem exec_ppsOutPulse_runs {s : State} (runs : ppsOutRuns (advanceTo (nextSecond s.time.outOffset s.time.q) s).time = true) :
    exec .ppsOutPulse s =
      .next { advanceTo (nextSecond s.time.outOffset s.time.q) s with out := .ppsPulse s.time.outPolarity s.time.outWidth :: s.out } := by
  show execPpsOutPulse s = _
  refine Eq.trans (if_pos runs) ?_
  rw [emit, advanceTo_out, State.now, advanceTo_outPolarity, advanceTo_outWidth]

theorem ppsOutRuns_always {t : StationTime} (mode : t.outMode = 2) : ppsOutRuns t = true := by
  simp only [ppsOutRuns, mode]

theorem ppsOutRuns_aligned {t : StationTime} (mode : t.outMode = 1) (aligned : t.state = .aligned) : ppsOutRuns t = true := by
  simp only [ppsOutRuns, mode, aligned]

/-! ### O24 -/

/-- Settles O24: each clause is the meaning of one read, change of source, pulse or millisecond; the time to its instant moves the clocks. -/
theorem stationTimeReadsAndLoss : Obligations.StationTimeReadsAndLoss := by
  refine ⟨fun fn s h => does_of_next (exec_timNowNsRead_open h) rfl, ?sourceLost, ?sourceChanged, ?edgesLost, ?short, ?long, ?estimated, ?always,
    ?toggled, fun capture width active s fronthaul => exec_ppsEdge_unused fronthaul capture width active, ?whileAligned⟩
  case sourceLost =>
    intro source s other aligned
    exact does_of_next (exec_timeSourceChange_aligned other aligned) ⟨rfl, heldOver_events _, rfl⟩
  case sourceChanged =>
    intro source s other unaligned
    exact does_of_next (exec_timeSourceChange_unaligned other unaligned) rfl
  case edgesLost =>
    intro s aligned
    obtain ⟨state, mono, events, frame⟩ := heldOver_elapse (s.time.lastEdge + 4400000000 - s.time.mono) s
    refine does_of_next (exec_ppsLoss_aligned aligned) ⟨state, mono.trans ?_, events, frame⟩
    omega
  case short =>
    intro capture width active s pps short
    have time := strayCounted_time capture s
    have q : (strayCounted capture s).time.q = max s.time.q capture := advanceTo_q capture s
    refine does_of_next (exec_ppsEdge_short pps short capture active) ⟨?_, q, ?_, ?_, ?_, strayCounted_frame capture s⟩ <;>
    · rw [time]
      rfl
  case long =>
    intro capture width active u s pps long judged
    exact exec_ppsEdge_long pps long judged
  case estimated =>
    intro s
    have time := updateError_time (advanceTo (ceilTo 4000000 s.time.q) s)
    refine does_of_next (t := updateError (advanceTo (ceilTo 4000000 s.time.q) s)) rfl ⟨?_, by rw [time]⟩
    rw [time]
    exact (advanceTo_q ..).trans (Nat.max_eq_right (le_ceilTo (by decide) _))
  case always =>
    intro s mode
    exact does_of_next (exec_ppsOutPulse_runs (ppsOutRuns_always ((advanceTo_outMode ..).trans mode))) rfl
  case toggled =>
    intro capture width active u s pps long judged
    exact does_of_next (exec_ppsEdge_long pps long judged) rfl
  case whileAligned =>
    intro s mode aligned
    exact does_of_next (exec_ppsOutPulse_runs (ppsOutRuns_aligned ((advanceTo_outMode ..).trans mode) ((advanceTo_state ..).trans aligned))) rfl

end Sys2Proof.Machine
end

section
/-! PROOFS. Steps of station time (R379 to R383; O25, O52): what TIME_SET decides, and what a decided step does at its strobe. -/
namespace Sys2Proof.Machine
open Sys2Proof

/-! ### TIME_SET (R382, R383) -/

theorem exec_timeSet {d : Desc} {s : State} (runs : Runs 0x08 d s) (valid : timeSetCheck d = none) :
    exec (.timeSet d) s = .next (timeSet (issueOf 0x08 d s) d (startCommand d s)) := by
  show execTimeSet d s = _
  simp only [execTimeSet, hostCommand_runs runs, valid]

section
variable {d : Desc} {s : State} (iss : Issue)

theorem timeSet_absolute (mode : d.u 12 1 = 0) (unaligned : s.time.state ≠ .aligned) (free : s.time.step = none) :
    timeSet iss d s = onTime (fun t => { t with step := some (setStep iss (d.u 20 6 * qSecond + d.u 16 4) (d.u 28 4) s) }) s := by
  simp only [timeSet, mode, if_neg unaligned, free, Option.isSome_none, Bool.false_eq_true, if_false]

theorem timeSet_absolute_aligned (mode : d.u 12 1 = 0) (aligned : s.time.state = .aligned) : timeSet iss d s = refuse iss (refusal .busyOwned) s := by
  simp only [timeSet, mode, if_pos aligned]

theorem timeSet_seconds (mode : d.u 12 1 = 1) :
    timeSet iss d s = completeOpt (s.time.seconds.map (·.issue)) .superseded
      (onTime (fun t => { t with seconds := some { seconds := d.u 20 6, issue := iss } }) s) := by
  simp only [timeSet, mode]

theorem timeSet_relative (mode : d.u 12 1 = 2) (unaligned : s.time.state ≠ .aligned) (free : s.time.step = none)
    (above : 0 ≤ ((stepStrobe s.tdd (d.s 16 8) s.now : Nat) : Int) + d.s 16 8) :
    timeSet iss d s = onTime (fun t => { t with step := some (relStep iss (d.s 16 8) (d.u 28 4) s) }) s := by
  have above' : ¬ ((relStep iss (d.s 16 8) (d.u 28 4) s).strobe : Int) + (relStep iss (d.s 16 8) (d.u 28 4) s).delta < 0 := Int.not_lt.mpr above
  simp only [timeSet, mode, if_neg above', if_neg unaligned, free, Option.isSome_none, Bool.false_eq_true, if_false]

end

theorem exec_timeSetTimeout_waiting {p : PendingSeconds} {s : State} (waits : s.time.seconds = some p) :
    exec .timeSetTimeout s = .next (refuse p.issue (refusal .timeout) { s with time := { s.time with seconds := none } }) := by
  show execTimeSetTimeout s = _
  simp only [execTimeSetTimeout, waits, onTime]

/-! ### A step at its strobe (R379 to R381) -/

theorem exec_timeStep_decided {p : PendingStep} {s : State} (decided : s.time.step = some p) : exec .timeStep s = .next (applyStep p s) := by
  show execTimeStep s = _
  simp only [execTimeStep, decided]

/-- The counter's value after a step that it takes at `old`. -/
def stepValue (p : PendingStep) (old : Nat) : Nat := p.toValue.getD (shiftTime old p.delta)

/-- Station time after a step. -/
def stepTime (p : PendingStep) (t : StationTime) : StationTime :=
  { t with
    q := stepValue p t.q, epoch := if epochMoves ((stepValue p t.q : Int) - t.q) then (t.epoch + 1) % 65536 else t.epoch
    state := p.newState, baseError := p.baseError, lastEdge := p.edge.getD t.mono, step := none
    linkAccuracy := if p.newState = .set then none else t.linkAccuracy }

/-- The record and the notifications of a step. -/
theorem stepNoted_time (aligned : Bool) (p : Payload) (s : State) :
    (if aligned = true then notify 160 0 0 (notify 161 0 0 (recordNow p s)) else notify 161 0 0 (recordNow p s)).time = s.time := by
  split
  · rw [notify_time, notify_time, recordNow_time]
  · rw [notify_time, recordNow_time]

/-- The record, the timers, the cancellers and the answer of a step leave station time as the step makes it. -/
theorem applyStep_time (p : PendingStep) (s : State) : (applyStep p s).time = stepTime p (advanceTo p.strobe s).time := by
  rw [applyStep, completeOpt_time, cancellersStep_time, timersStep_time, stepNoted_time]
  rfl

/-- Until the strobe both clocks pass, and then the counter alone steps. -/
theorem applyStep_clocks (p : PendingStep) (s : State) :
    (applyStep p s).time.q = stepValue p (max s.time.q p.strobe) ∧ (applyStep p s).time.mono = s.time.mono + (p.strobe - s.time.q) := by
  rw [applyStep_time]
  exact ⟨congrArg (stepValue p) (advanceTo_q ..), advanceTo_mono ..⟩

theorem applyStep_epoch (p : PendingStep) (s : State) : (applyStep p s).time.epoch =
    if epochMoves ((stepValue p (max s.time.q p.strobe) : Int) - (max s.time.q p.strobe : Nat)) then (s.time.epoch + 1) % 65536
    else s.time.epoch := by
  have epoch : (advanceTo p.strobe s).time.epoch = s.time.epoch := by rw [advanceTo_time]; rfl
  rw [applyStep_time, ← advanceTo_q, ← epoch]
  rfl

theorem epochMoves_iff (new old : Nat) : epochMoves ((new : Int) - old) = true ↔ new < old ∨ old + qSecond < new := by
  simp only [epochMoves, Bool.or_eq_true, decide_eq_true_eq]
  omega

/-! ### O52 -/

/-- Settles O52: the epoch moves as the sign and the size of the step say. -/
theorem stepsMoveTheEpoch : Obligations.StepsMoveTheEpoch := by
  intro p s decided old
  obtain ⟨value, mono⟩ := applyStep_clocks p s
  have epoch := applyStep_epoch p s
  refine does_of_next (exec_timeStep_decided decided) ⟨?moves, ?stays, value, ?mono⟩
  case moves =>
    intro far
    rw [value] at far
    rw [epoch, if_pos ((epochMoves_iff _ _).mpr far)]
  case stays =>
    intro low high
    rw [value] at low high
    have near : ¬ epochMoves ((stepValue p old : Int) - old) = true := fun moves =>
      ((epochMoves_iff _ _).mp moves).elim (Nat.not_lt.mpr low) (Nat.not_lt.mpr high)
    rw [epoch, if_neg near]
  case mono =>
    rw [mono]
    show _ = _ + (max s.time.q p.strobe - s.time.q)
    omega

/-! ### O25 -/

/-- Settles O25: each mode of TIME_SET decides one step or keeps one value, and a decided step is the work of its strobe. -/
theorem stationTimeIsSet : Obligations.StationTimeIsSet := by
  refine ⟨?absolute, ?busy, ?seconds, fun p s waits => exec_timeSetTimeout_waiting waits, ?applied, ?relative⟩
  case absolute =>
    intro d s runs valid mode unaligned free
    rw [exec_timeSet runs valid, timeSet_absolute (s := startCommand d s) _ mode unaligned free]
    rfl
  case busy =>
    intro d s runs valid mode aligned
    rw [exec_timeSet runs valid, timeSet_absolute_aligned (s := startCommand d s) _ mode aligned]
  case seconds =>
    intro d s runs valid mode
    rw [exec_timeSet runs valid, timeSet_seconds _ mode]
    rfl
  case applied =>
    intro p s decided early
    have strobe : max s.time.q p.strobe = p.strobe := Nat.max_eq_right early
    obtain ⟨value, mono⟩ := applyStep_clocks p s
    have epoch := applyStep_epoch p s
    have time := applyStep_time p s
    rw [strobe] at value epoch
    exact does_of_next (exec_timeStep_decided decided) ⟨value, by rw [time]; rfl, by rw [time]; rfl, mono, epoch⟩
  case relative =>
    intro d s runs valid mode unaligned free above
    rw [exec_timeSet runs valid, timeSet_relative (s := startCommand d s) _ mode unaligned free above]
    rfl

end Sys2Proof.Machine
end

section
/-! PROOFS. The pattern timers and the switches of the TDD pairs (R388 to R393; O26). -/
namespace Sys2Proof.Machine
open Sys2Proof

/-! ### TDD_PATTERN_SET (R392, R393) -/

theorem exec_tddPatternSet {d : Desc} {bs : List Byte} {i : Fin 8} {p : Pattern} {s : State} (runs : Runs 0x09 d s) (buffer : d.bytes = some bs)
    (valid : patternSetCheck d bs s = none) (entry : patternOf bs = some (i, p)) :
    exec (.tddPatternSet d) s = .next (askPattern i (some p) (instantOrNow (d.u 24 8) s) (some (issueOf 0x09 d s)) (startCommand d s)) := by
  have valid' : patternSetCheck d bs (startCommand d s) = none := valid
  show execTddPatternSet d s = _
  simp only [execTddPatternSet, hostCommand_runs runs, buffer, valid', entry]
  rfl

/-- A change that waits for a timer's X. -/
def changeAsked (p : Option Pattern) (instant : Nat) (iss : Option Issue) (s : State) : PatternChange :=
  { pattern := p, x := max instant (s.now + 4000000), issue := iss }

theorem askPattern_time (i : Fin 8) (p : Option Pattern) (instant : Nat) (iss : Option Issue) (s : State) :
    (askPattern i p instant iss s).time = s.time := completeOpt_time ..

/-- A request changes of TDD timing the change that its timer waits for, and nothing else. -/
theorem askPattern_tdd (i : Fin 8) (p : Option Pattern) (instant : Nat) (iss : Option Issue) (s : State) :
    (askPattern i p instant iss s).tdd =
      { s.tdd with timers := upd s.tdd.timers i fun x => { x with change := some (changeAsked p instant iss s) } } := completeOpt_tdd ..

/-! ### Period starts (R390, R393) -/

theorem exec_patternPeriodStart_running {i : Fin 8} {p : Pattern} {s : State} (steady : (s.tdd.timers[i]).incoming = none)
    (live : (s.tdd.timers[i]).pattern = some p) (settled : (s.tdd.timers[i]).change = none) :
    exec (.patternPeriodStart i) s = .next (periodStarts i (advanceTo (nextStart p s.now) s)) := by
  show execPatternPeriodStart i s = _
  simp only [execPatternPeriodStart, steady, live, settled]

theorem exec_patternPeriodStart_incoming {i : Fin 8} {c : PatternChange} {p : Pattern} {s : State} (gap : (s.tdd.timers[i]).incoming = some c)
    (new : c.pattern = some p) : exec (.patternPeriodStart i) s = .next (patternLive i c (advanceTo (nextStart p (max s.now c.x)) s)) := by
  show execPatternPeriodStart i s = _
  simp only [execPatternPeriodStart, gap, new]

theorem periodStarts_unmuted (i : Fin 8) (s : State) :
    Unmuted (settlePairs (takeSides i (onTimer i (fun x => { x with state := .running }) s))) (periodStarts i s) := timingRelease_unmuted ..

theorem periodStarts_time (i : Fin 8) (s : State) : (periodStarts i s).time = s.time :=
  (periodStarts_unmuted i s).time.trans (settlePairs_time _)

/-- A period start sets its timer Running; its pairs follow, and no timer else changes. -/
theorem periodStarts_timers (i : Fin 8) (s : State) :
    (periodStarts i s).tdd.timers = upd s.tdd.timers i fun x => { x with state := .running } := by
  rw [(periodStarts_unmuted i s).tdd, settlePairs_timers]
  rfl

/-- A timer whose new pattern goes live is Running with it. -/
theorem patternLive_timer {c : PatternChange} {p : Pattern} (new : c.pattern = some p) (i : Fin 8) (s : State) :
    (patternLive i c s).tdd.timers[i.val] = { s.tdd.timers[i.val] with incoming := none, pattern := some p, state := .running } := by
  unfold patternLive
  simp only [new, completeOpt_tdd, periodStarts_timers, upd_self, onTimer, onTdd_tdd]

theorem patternLive_time {c : PatternChange} {p : Pattern} (new : c.pattern = some p) (i : Fin 8) (s : State) :
    (patternLive i c s).time = s.time := by
  unfold patternLive
  simp only [new, completeOpt_time]
  exact periodStarts_time ..

/-! ### Switches (R388, R391) -/

/-- A pair on the side that its pattern gives it at `t`. -/
def pairSwitched (pair : Fin 32) (t : Nat) (s : State) : State :=
  onTdd (fun x => { x with pairs := upd x.pairs pair fun y => { y with transmitting := transmitPhase pair t s } }) s

theorem pairSwitched_timers (pair : Fin 32) (t : Nat) (s : State) : (pairSwitched pair t s).tdd.timers = s.tdd.timers := rfl

theorem exec_tddSwitch_due {pair : Fin 32} {x : Nat} {s : State} (due : nextSwitch pair s = some x) :
    exec (.tddSwitch pair) s = .next (settle (pairSwitched pair x (advanceTo x s))) := by
  show execTddSwitch pair s = _
  simp only [execTddSwitch, due]
  rfl

/-! ### O26 -/

/-- Settles O26: a request changes one timer, a period start sets one Running, and a switch changes one pair. -/
theorem tddTiming : Obligations.TddTiming := by
  refine ⟨?asked, ?running, ?switched, ?live⟩
  case asked =>
    intro d bs i p s runs buffer valid entry
    have tdd := askPattern_tdd i (some p) (instantOrNow (d.u 24 8) s) (some (issueOf 0x09 d s)) (startCommand d s)
    refine does_of_next (exec_tddPatternSet runs buffer valid entry) ⟨?_, fun j h => ?_, by rw [tdd]; rfl, askPattern_time ..⟩
    · rw [tdd]
      exact congrArg PatternTimer.change (upd_self ..)
    · rw [tdd]
      exact upd_other _ _ _ _ h
  case running =>
    intro i p s steady live settled
    have timer : (periodStarts i (advanceTo (nextStart p s.now) s)).tdd.timers[i] = { s.tdd.timers[i] with state := .running } := by
      rw [periodStarts_timers, advanceTo_tdd]
      exact upd_self ..
    refine does_of_next (exec_patternPeriodStart_running steady live settled) ⟨by rw [timer], by rw [timer]; exact live, ?_⟩
    rw [periodStarts_time]
    exact advanceTo_q ..
  case switched =>
    intro pair x s due
    refine does_of_next (exec_tddSwitch_due due) ⟨?_, fun m h => ?_, ?_, ?_, ?_, ?_⟩
    · rw [settle_tdd]
      exact congrArg TddPair.transmitting (upd_self ..)
    · rw [settle_tdd]
      exact (upd_other _ _ _ _ h).trans (by rw [advanceTo_tdd])
    · rw [settle_tdd, pairSwitched_timers, advanceTo_tdd]
    · rw [settle_time]
      exact advanceTo_q x s
    · rw [settle_slices]
      exact advanceTo_slices x s
    · rw [settle_cfg]
      exact advanceTo_cfg x s
  case live =>
    intro i c p s gap new
    have timer := patternLive_timer new i (advanceTo (nextStart p (max s.now c.x)) s)
    refine does_of_next (exec_patternPeriodStart_incoming gap new)
      ⟨congrArg PatternTimer.state timer, congrArg PatternTimer.pattern timer, congrArg PatternTimer.incoming timer, ?_⟩
    rw [patternLive_time new]
    exact advanceTo_q ..

end Sys2Proof.Machine
end

section
/-! PROOFS. The inference of a pattern from a slice (R395 to R398; O27). -/
namespace Sys2Proof.Machine
open Sys2Proof

/-! ### An observation starts (R395, R398) -/

/-- The observation that a command asks for, with the defaults where its fields are 0. -/
def askedInference (d : Desc) (sl : SliceId) (i : Fin 8) (s : State) : Inference :=
  { issue := some (issueOf 0x0A d s), slice := sl, timer := i, gap := if d.u 16 2 = 0 then 1000 else d.u 16 2
    observe := if d.u 14 2 = 0 then 200 else d.u 14 2, start := none, bins := [] }

theorem exec_tddInfer {d : Desc} {sl : SliceId} {i : Fin 8} {s : State} (runs : Runs 0x0A d s) (valid : inferCheck d s = none)
    (unit : d.unit .slice 256 = some sl) (timer : finOf 8 (d.u 12 1) = some i) :
    exec (.tddInfer d) s = .next (onTdd (fun t => { t with infer := some (askedInference d sl i s) }) (startCommand d s)) := by
  have valid' : inferCheck d (startCommand d s) = none := valid
  show execTddInfer d s = _
  simp only [execTddInfer, hostCommand_runs runs, valid', unit, timer]
  rfl

/-- The periodic observation of a timer's pattern. -/
def periodicInference (i : Fin 8) (p : Pattern) : Inference :=
  { issue := none, slice := p.inferSlice, timer := i, gap := 1000, observe := 200, start := none, bins := [] }

theorem exec_inferInterval_starts {i : Fin 8} {p : Pattern} {s : State} (live : (s.tdd.timers[i]).pattern = some p) (periodic : p.inferInterval ≠ 0)
    (idle : s.tdd.infer = none) (seen : observable p.inferSlice s = true) :
    exec (.inferInterval i) s = .next (onTdd (fun t => { t with infer := some (periodicInference i p) }) s) := by
  have starts : ¬(p.inferInterval = 0 ∨ s.tdd.infer.isSome = true ∨ observable p.inferSlice s = false) := by
    simp [periodic, idle, seen]
  show execInferInterval i s = _
  simp only [execInferInterval, live, if_neg starts]
  rfl

/-! ### An observation ends (R396, R397) -/

/-- What the bins of an observation propose. -/
def observed (x : Inference) (s : State) : Option Proposal :=
  inferProposal x.timer x.gap (inferBin (((liveDef x.slice s).map (·.k)).getD 0)) (x.start.getD 0 / 4) x.bins.reverse

/-- The state in which no observation runs. -/
def inferEnded (s : State) : State := onTdd (fun t => { t with infer := none }) s

/-- The state in which no observation runs and none has left a proposal. -/
def inferFailed (s : State) : State := { s with tdd := { s.tdd with infer := none, proposal := none } }

theorem exec_inferDone_nothing {x : Inference} {s : State} (ends : s.tdd.infer = some x) (nothing : observed x s = none) :
    exec .inferDone s = .next (match x.issue with | some i => refuse i (refusal .timeout) (inferFailed s) | none => inferFailed s) := by
  unfold observed at nothing
  show execInferDone s = _
  simp only [execInferDone, ends, nothing, Option.filter_none]
  rfl

theorem exec_inferDone_proposes {x : Inference} {y : Proposal} {s : State} (ends : s.tdd.infer = some x) (proposes : observed x s = some y)
    (valid : patternValid { period := y.period, offset := y.offset, segs := y.segs, autoAdopt := false, inferSlice := 0, inferInterval := 0 }
      (timerSwitch x.timer s) = true) :
    exec .inferDone s = .next (completeOpt x.issue .ok (publishProposal x.issue.isNone y (inferEnded s))) := by
  have switch : timerSwitch x.timer (inferEnded s) = timerSwitch x.timer s := rfl
  unfold observed at proposes
  unfold inferEnded at switch
  show execInferDone s = _
  simp only [execInferDone, ends, proposes, switch, Option.filter_some, valid, if_true]
  rfl

/-- A proposal stands, with the observation and the station time of another state. -/
structure Proposed (y : Proposal) (s t : State) : Prop where
  proposal : t.tdd.proposal = some y
  infer    : t.tdd.infer = s.tdd.infer
  time     : t.time = s.time

theorem Proposed.of_ask {y : Proposal} {s t : State} (h : Proposed y s t) (i : Fin 8) (p : Option Pattern) (instant : Nat) (iss : Option Issue) :
    Proposed y s (askPattern i p instant iss t) where
  proposal := by rw [askPattern_tdd]; exact h.proposal
  infer := by rw [askPattern_tdd]; exact h.infer
  time := (askPattern_time ..).trans h.time

/-- What is published stands, whether or not it is adopted. -/
theorem publishProposal_proposed (periodic : Bool) (y : Proposal) (s : State) :
    Proposed y s (publishProposal periodic y s) := by
  unfold publishProposal
  extract_lets adopted proposed remembered asked
  have hRemembered : Proposed y s remembered := by
    show Proposed y s (if periodic = true then _ else proposed)
    split <;> exact ⟨rfl, rfl, rfl⟩
  have hAsked : Proposed y s asked := by
    clear_value adopted
    cases adopted with
    | some p => exact hRemembered.of_ask ..
    | none => exact hRemembered
  exact ⟨by rw [notify_tdd]; exact hAsked.proposal, by rw [notify_tdd]; exact hAsked.infer, (notify_time ..).trans hAsked.time⟩

/-! ### O27 -/

/-- Settles O27: an observation starts with one record, and ends by what its bins propose. -/
theorem patternInference : Obligations.PatternInference := by
  refine ⟨fun d sl i s runs valid unit timer => exec_tddInfer runs valid unit timer,
    fun i p s live periodic idle seen => does_of_next (exec_inferInterval_starts live periodic idle seen) rfl,
    ?periodicFails, ?proposes, ?commandFails⟩
  case periodicFails =>
    intro x s ends nothing periodic
    have runs := exec_inferDone_nothing ends nothing
    rw [periodic] at runs
    exact does_of_next runs rfl
  case proposes =>
    intro x y s ends proposes valid
    obtain ⟨proposal, infer, time⟩ := publishProposal_proposed x.issue.isNone y (inferEnded s)
    refine does_of_next (exec_inferDone_proposes ends proposes valid) ?_
    rw [completeOpt_tdd, completeOpt_time]
    exact ⟨proposal, infer, time⟩
  case commandFails =>
    intro x i s ends nothing command
    have runs := exec_inferDone_nothing ends nothing
    rw [command] at runs
    exact runs

end Sys2Proof.Machine
end

section
/-! PROOFS. Weathervane at work (R450 to R463): moves and their ends, copies of buffers, tests of units, spreads and passes. -/
namespace Sys2Proof.Machine
open Sys2Proof

/-! ### Bringing units up to date moves no work -/

theorem Settled.slices {s t : State} (h : Settled s t) : t.slices = s.slices := by rw [h]

/-- Work stays where it is: moves in flight and waiting, placed slices and the spread are kept, and source 261 alone may count an event. -/
structure WorkKept (s t : State) : Prop where
  moves   : t.plc.moves = s.plc.moves
  waiting : t.plc.waiting = s.plc.waiting
  placed  : t.plc.placed = s.plc.placed
  spread  : t.plc.spread = s.plc.spread
  sources : ∀ i : Fin 320, i ≠ 261 → t.flt.sources[i] = s.flt.sources[i]

theorem WorkKept.refl (s : State) : WorkKept s s := ⟨rfl, rfl, rfl, rfl, fun _ _ => rfl⟩

theorem WorkKept.trans {s t u : State} (h : WorkKept s t) (k : WorkKept t u) : WorkKept s u where
  moves := k.moves.trans h.moves
  waiting := k.waiting.trans h.waiting
  placed := k.placed.trans h.placed
  spread := k.spread.trans h.spread
  sources i other := (k.sources i other).trans (h.sources i other)

theorem WorkKept.of_answered {s t : State} (h : Answered s t) : WorkKept s t := by
  rw [h]
  exact ⟨rfl, rfl, rfl, rfl, fun _ _ => rfl⟩

theorem bumpGen_workKept (s : State) : WorkKept s (bumpGen s) := ⟨rfl, rfl, rfl, rfl, fun _ _ => rfl⟩

theorem recordNow_workKept (p : Payload) (s : State) : WorkKept s (recordNow p s) := .of_answered (recordNow_answered ..)

theorem moveRecord_workKept (ev : Nat) (m : Move) (s : State) : WorkKept s (moveRecord ev m s) := recordNow_workKept ..

theorem unitRecord_workKept (st : UnitState) (unit : Nat) (s : State) : WorkKept s (unitRecord st unit s) := recordNow_workKept ..

theorem setEngine_workKept (e : Fin 64) (st : UnitState) (s : State) : WorkKept s (setEngine e st s) := by
  unfold setEngine
  split
  · exact .refl s
  · refine WorkKept.trans ?_ (unitRecord_workKept ..)
    exact ⟨rfl, rfl, rfl, rfl, fun _ _ => rfl⟩

theorem setBank_workKept (b : Fin 48) (st : UnitState) (s : State) : WorkKept s (setBank b st s) := by
  unfold setBank
  split
  · exact .refl s
  · refine WorkKept.trans ?_ (unitRecord_workKept ..)
    exact ⟨rfl, rfl, rfl, rfl, fun _ _ => rfl⟩

theorem retireUnit_workKept (c : TargetClass) (i source : Nat) (s : State) : WorkKept s (retireUnit c i source s) := by
  unfold retireUnit
  rw [queueFlash_frame]
  exact ⟨rfl, rfl, rfl, rfl, fun _ _ => rfl⟩

theorem raise261_workKept (u d : Nat) (s : State) : WorkKept s (raise 261 u d s) :=
  ⟨rfl, rfl, rfl, rfl, fun i other => raise_other 261 i u d s other⟩

/-- A change that keeps work keeps it where it is made on a condition. -/
theorem WorkKept.ite {s t : State} (h : WorkKept s t) (c : Prop) [Decidable c] : WorkKept s (if c then t else s) := by
  split
  · exact h
  · exact .refl s

theorem settleEngine_workKept (s : State) (e : Fin 64) : WorkKept s (settleEngine s e) := by
  unfold settleEngine
  dsimp only
  split
  · exact (setEngine_workKept e .testing s).ite _
  · split
    · exact (setEngine_workKept e .forbidden s).ite _
    · exact .refl s

theorem settleBank_workKept (s : State) (b : Fin 48) : WorkKept s (settleBank s b) := by
  have retired : WorkKept s (raise 261 (target .bank b) 0 (retireUnit .bank b 0 (setBank b .retired s))) :=
    ((setBank_workKept ..).trans (retireUnit_workKept ..)).trans (raise261_workKept ..)
  unfold settleBank
  dsimp only
  split
  · exact (setBank_workKept b .testing s).ite _
  · split
    · exact retired.ite _
    · split
      · exact (setBank_workKept b .owned s).ite _
      · exact ((setBank_workKept b .forbidden s).ite _).ite _

theorem settleWaits_workKept (s : State) : WorkKept s (settleWaits s) :=
  .trans (t := onPlc _ s) ⟨rfl, rfl, rfl, rfl, fun _ _ => rfl⟩ (.of_answered (completeAll_answered ..))

theorem settleUnits_workKept (s : State) : WorkKept s (settleUnits s) := by
  have engines (l : List (Fin 64)) (s : State) := foldl_keeps WorkKept .refl .trans settleEngine settleEngine_workKept l s
  have banks (l : List (Fin 48)) (s : State) := foldl_keeps WorkKept .refl .trans settleBank settleBank_workKept l s
  unfold settleUnits
  dsimp only
  split
  · exact (engines ..).trans (banks ..)
  · exact ((engines ..).trans (banks ..)).trans (settleWaits_workKept _)

/-! ### A move starts (R450, R454, R460) -/

/-- The parts of the state that a step of Weathervane with its record may touch. -/
def PlacedAnew (s t : State) : Prop := t = { s with plc := t.plc, evr := t.evr, pmc := t.pmc }

theorem PlacedAnew.trans {s t u : State} (h : PlacedAnew s t) (k : PlacedAnew t u) : PlacedAnew s u := by
  unfold PlacedAnew at *
  rw [k, h]

theorem PlacedAnew.slices {s t : State} (h : PlacedAnew s t) : t.slices = s.slices := by rw [h]

theorem PlacedAnew.time {s t : State} (h : PlacedAnew s t) : t.time = s.time := by rw [h]

theorem recordNow_placedAnew (p : Payload) (s : State) : PlacedAnew s (recordNow p s) := by
  unfold PlacedAnew
  rw [recordNow_frame]

theorem moveRecord_placedAnew (ev : Nat) (m : Move) (s : State) : PlacedAnew s (moveRecord ev m s) := recordNow_placedAnew ..

/-- The next epoch strobe after now lies ahead. -/
theorem advanceTo_nextStrobe_q (s : State) : (advanceTo (strobeAt (s.time.q + 1)) s).time.q = strobeAt (s.time.q + 1) := by
  have ahead : s.time.q + 1 ≤ strobeAt (s.time.q + 1) := le_ceilTo (by decide) _
  rw [advanceTo_q]
  omega

theorem waiting_ne_nil_of_nextMove {r : MoveReq} {s : State} (next : nextMove s = some r) : s.plc.waiting ≠ [] := by
  intro none
  simp [nextMove, none] at next

/-- While moves wait, none is asked for beside them. -/
theorem exec_moveStart_waiting {s : State} (waits : s.plc.waiting ≠ []) : exec .moveStart s = .next (moveStart s) := by
  show execMoveStart s = _
  simp only [execMoveStart, List.isEmpty_iff, waits, if_false]

/-- A waiting move of a part on `src` is due: neither the limit, the fatal state nor a restart holds it, and it is no evacuation of a slice on a
rung. -/
structure MoveDue (r : MoveReq) (src : Fin 64) (s : State) : Prop where
  room   : (movesOf s).length < s.plc.moveLimit
  alive  : s.flt.fatal = false
  served : s.sec.restart = none
  next   : nextMove s = some r
  source : moveSource r s = some src
  calm   : r.reason = .evacuation → sliceOnRung r.slice s = false

theorem MoveDue.not_relocated {r : MoveReq} {src : Fin 64} {s : State} (due : MoveDue r src s) :
    ¬ (r.reason = .evacuation ∧ sliceOnRung r.slice s = true) :=
  fun ⟨evacuation, rung⟩ => Bool.false_ne_true ((due.calm evacuation).symm.trans rung)

theorem moveStart_target {r : MoveReq} {src dst : Fin 64} {s : State} (due : MoveDue r src s) (target : moveTarget r s = some dst) :
    moveStart s = startMove r src dst s := by
  simp only [moveStart, Nat.not_le.mpr due.room, due.alive, due.served, due.next, due.source, due.not_relocated, target, Option.isSome_none,
    decide_false, Bool.or_self, Bool.false_eq_true, if_false]

theorem moveStart_noTarget {r : MoveReq} {src : Fin 64} {s : State} (due : MoveDue r src s) (noTarget : moveTarget r s = none) :
    moveStart s = if r.reason = .evacuation
      then settleUnits (makeRoom r.slice (fun s => (moveTarget r s).isSome) 210 (target .engine src) s)
      else settleUnits (dropReq r s) := by
  simp only [moveStart, Nat.not_le.mpr due.room, due.alive, due.served, due.next, due.source, due.not_relocated, noTarget, Option.isSome_none,
    decide_false, Bool.or_self, Bool.false_eq_true, if_false]

theorem exec_moveStart_noTarget {r : MoveReq} {src : Fin 64} {s : State} (due : MoveDue r src s) (noTarget : moveTarget r s = none) :
    exec .moveStart s = .next (settleUnits (if r.reason = .evacuation
      then makeRoom r.slice (fun s => (moveTarget r s).isSome) 210 (target .engine src) s else dropReq r s)) := by
  rw [exec_moveStart_waiting (waiting_ne_nil_of_nextMove due.next), moveStart_noTarget due noTarget, apply_ite settleUnits]

/-- The move that a waiting one becomes as it starts (R450). -/
def startedMove (r : MoveReq) (src dst : Fin 64) (s : State) : Move :=
  { slice := r.slice, part := r.part, src := src, dst := dst, reason := r.reason, phase := .warmUp
    start := strobeAt (s.time.q + 1), matched := 0, shadowed := 0 }

/-- A move takes slot `i` and leaves the queue. -/
def startInSlot (i : Fin 8) (r : MoveReq) (m : Move) (s : State) : State :=
  bumpGen (onPlc (fun p => { p with moves := p.moves.set i (some m) }) (dropReq r s))

theorem exec_moveStart_starts {r : MoveReq} {src dst : Fin 64} {i : Fin 8} {s : State} (due : MoveDue r src s) (target : moveTarget r s = some dst)
    (free : findIdx s.plc.moves (·.isNone) = some i) :
    exec .moveStart s = .next (moveRecord 0 (startedMove r src dst s)
      (startInSlot i r (startedMove r src dst s) (advanceTo (strobeAt (s.time.q + 1)) s))) := by
  have now : (advanceTo (strobeAt (s.now + 1)) s).now = strobeAt (s.time.q + 1) := advanceTo_nextStrobe_q s
  rw [exec_moveStart_waiting (waiting_ne_nil_of_nextMove due.next), moveStart_target due target]
  simp only [startMove, free, now]
  rfl

theorem startInSlot_placedAnew (i : Fin 8) (r : MoveReq) (m : Move) (s : State) : PlacedAnew s (startInSlot i r m s) := rfl

/-- What the start of a move in slot `i` leaves: the other slots and all placed slices are kept, and nothing but placement and records has changed. -/
structure MoveStarted (i : Fin 8) (m : Move) (s t : State) : Prop where
  slot   : t.plc.moves[i] = some m
  others : ∀ j : Fin 8, j ≠ i → t.plc.moves[j] = s.plc.moves[j]
  placed : t.plc.placed = s.plc.placed
  frame  : PlacedAnew s t

theorem startInSlot_started (i : Fin 8) (r : MoveReq) (m : Move) (s : State) : MoveStarted i m s (moveRecord 0 m (startInSlot i r m s)) := by
  have kept := moveRecord_workKept 0 m (startInSlot i r m s)
  have moves : (startInSlot i r m s).plc.moves = s.plc.moves.set i (some m) := rfl
  refine ⟨?_, fun j other => ?_, kept.placed, (startInSlot_placedAnew i r m s).trans (moveRecord_placedAnew ..)⟩
  · rw [kept.moves, moves]
    exact Vector.getElem_set_self _
  · have apart : i.val ≠ j.val := fun same => other (Fin.ext same.symm)
    rw [kept.moves, moves]
    exact Vector.getElem_set_ne _ _ apart

/-- At the limit of moves, in the fatal state and while the supervisor restarts no move starts. -/
theorem exec_moveStart_barred {s : State} (barred : s.plc.moveLimit ≤ (movesOf s).length ∨ s.flt.fatal = true ∨ s.sec.restart ≠ none)
    (waits : s.plc.waiting ≠ []) : exec .moveStart s = .next s := by
  rw [exec_moveStart_waiting waits]
  refine congrArg _ (if_pos ?_)
  simpa [Option.isSome_iff_ne_none, or_assoc] using barred

/-! ### A move in shadow, and its cutover (R450, R451) -/

theorem exec_shadowStart_computes {i : Fin 8} {m : Move} {d : SliceDef} {s : State} (slot : s.plc.moves[i] = some m) (live : liveDef m.slice s = some d)
    (warm : m.phase = .warmUp) (calm : sliceOnRung m.slice s = false) :
    exec (.shadowStart i) s = .next
      { advanceTo (m.start + warmUp d) s with plc := { s.plc with moves := s.plc.moves.set i (some { m with phase := .shadow }) } } := by
  have stillCalm : sliceOnRung m.slice (advanceTo (m.start + warmUp d) s) = false := by
    rw [sliceOnRung, advanceTo_nps]
    exact calm
  show execShadowStart i s = _
  simp [execShadowStart, slot, live, warm, stillCalm, onPlc]

theorem exec_moveCutover {i : Fin 8} {m : Move} {s : State} (slot : s.plc.moves[i] = some m) :
    exec (.moveCutover i) s = .next (if m.phase = .cutover ∧ s.flt.fatal = false then cutOver i m s else s) := by
  show execMoveCutover i s = _
  simp only [execMoveCutover, slot]
  split <;> rfl

/-- The slice of a move once its part runs on the target. -/
def partMoved (m : Move) (x : Placed) : Placed := { x with live := x.live.map fun h => { h with engines := h.engines.set m.part m.dst } }

/-- Slot `i` is idle and the part of its move runs on the target. -/
def movePart (i : Fin 8) (m : Move) (s : State) : State :=
  onPlc (fun p => { p with placed := upd p.placed m.slice (partMoved m) }) (clearMove i s)

theorem cutOver_eq (i : Fin 8) (m : Move) (s : State) : cutOver i m s = settleUnits (moveRecord 1 m (bumpGen (movePart i m s))) := rfl

/-- A cutover moves the part; what follows moves no work. -/
theorem cutOver_workKept (i : Fin 8) (m : Move) (s : State) : WorkKept (movePart i m s) (cutOver i m s) := by
  rw [cutOver_eq]
  exact (bumpGen_workKept _).trans ((moveRecord_workKept ..).trans (settleUnits_workKept _))

theorem cutOver_time (i : Fin 8) (m : Move) (s : State) : (cutOver i m s).time = s.time := by
  rw [cutOver_eq, (settleUnits_settled _).time, (moveRecord_placedAnew ..).time]
  rfl

theorem cutOver_slices (i : Fin 8) (m : Move) (s : State) : (cutOver i m s).slices = s.slices := by
  rw [cutOver_eq, (settleUnits_settled _).slices, (moveRecord_placedAnew ..).slices]
  rfl

theorem cutOver_slot (i : Fin 8) (m : Move) (s : State) : (cutOver i m s).plc.moves[i] = none := by
  rw [(cutOver_workKept i m s).moves]
  simp [movePart, clearMove]

theorem cutOver_part {i : Fin 8} {m : Move} {h : Hosting} {s : State} (live : (s.plc.placed[m.slice]).live = some h) :
    ((cutOver i m s).plc.placed[m.slice]).live = some { h with engines := h.engines.set m.part m.dst } := by
  have moved : (movePart i m s).plc.placed[m.slice] = partMoved m s.plc.placed[m.slice] := upd_self ..
  rw [(cutOver_workKept i m s).placed, moved, partMoved, live]
  rfl

theorem cutOver_others (i : Fin 8) {m : Move} {sl : SliceId} (s : State) (other : sl ≠ m.slice) :
    (cutOver i m s).plc.placed[sl] = s.plc.placed[sl] := by
  rw [(cutOver_workKept i m s).placed]
  exact upd_other _ _ _ _ other

theorem cutOver_sources (i : Fin 8) (m : Move) (s : State) {k : Fin 320} (other : k ≠ 261) :
    (cutOver i m s).flt.sources[k] = s.flt.sources[k] :=
  (cutOver_workKept i m s).sources k other

/-! ### A move without a match (R452) -/

/-- The move with the run of agreeing samples that its record names. -/
def unmatched (n : Nat) (m : Move) : Move := { m with matched := min 2047 (min m.matched n) }

theorem exec_moveAbandon_early {i : Fin 8} {m : Move} {s : State} (n : Nat) (slot : s.plc.moves[i] = some m) (early : m.shadowed < 8192) :
    exec (.moveAbandon i n) s = .next s := by
  show execMoveAbandon i n s = _
  simp only [execMoveAbandon, slot, early, or_true, if_true]

theorem exec_moveAbandon_cutsOver {i : Fin 8} {m : Move} {s : State} (n : Nat) (slot : s.plc.moves[i] = some m) (computes : m.phase ≠ .warmUp)
    (late : 8192 ≤ m.shadowed) (evacuation : m.reason = .evacuation) :
    exec (.moveAbandon i n) s = .next (cutOver i (unmatched n m) (raise 209 (target .engine m.src) 0 s)) := by
  show execMoveAbandon i n s = _
  simp only [execMoveAbandon, slot, computes, Nat.not_lt.mpr late, evacuation, or_self, if_false, if_true, unmatched]

theorem exec_moveAbandon_abandons {i : Fin 8} {m : Move} {s : State} (n : Nat) (slot : s.plc.moves[i] = some m) (computes : m.phase ≠ .warmUp)
    (late : 8192 ≤ m.shadowed) (other : m.reason ≠ .evacuation) :
    exec (.moveAbandon i n) s = .next (settleUnits (raise 208 (target .engine m.dst) 0 (abandonMove i (unmatched n m) s))) := by
  show execMoveAbandon i n s = _
  simp only [execMoveAbandon, slot, computes, Nat.not_lt.mpr late, other, or_self, if_false, unmatched]

/-- A move that is abandoned leaves its slot; its record moves no work. -/
theorem abandonMove_workKept (i : Fin 8) (m : Move) (s : State) : WorkKept (clearMove i s) (abandonMove i m s) :=
  (moveRecord_workKept ..).trans (bumpGen_workKept _)

theorem abandonMove_slices (i : Fin 8) (m : Move) (s : State) : (abandonMove i m s).slices = s.slices := by
  rw [abandonMove, bumpGen, onPlc_slices, (moveRecord_placedAnew ..).slices]
  rfl

/-- What the end of a move without a match leaves: its slot is idle, no slice has moved, and source 208 has counted. -/
structure MoveAbandoned (i : Fin 8) (s t : State) : Prop where
  idle   : t.plc.moves[i] = none
  placed : t.plc.placed = s.plc.placed
  slices : t.slices = s.slices
  events : (t.flt.sources[(208 : Fin 320)]).events = (s.flt.sources[(208 : Fin 320)]).events + 1

theorem abandonMove_abandoned (i : Fin 8) (m : Move) (unit : Nat) (s : State) :
    MoveAbandoned i s (settleUnits (raise 208 unit 0 (abandonMove i m s))) := by
  have kept := abandonMove_workKept i m s
  have settled := settleUnits_workKept (raise 208 unit 0 (abandonMove i m s))
  refine ⟨?_, ?_, ?_, ?_⟩
  · rw [settled.moves, raise_plc, kept.moves, clearMove, onPlc_plc]
    exact Vector.getElem_set_self _
  · rw [settled.placed, raise_plc, kept.placed, clearMove, onPlc_plc]
  · rw [(settleUnits_settled _).slices, raise_slices, abandonMove_slices]
  · rw [settled.sources 208 (by decide), raise_events, kept.sources 208 (by decide), clearMove, onPlc_flt]

/-! ### A copy of a buffer ends (R455, R553) -/

/-- Station time and placement are kept. -/
structure Still (s t : State) : Prop where
  plc  : t.plc = s.plc
  time : t.time = s.time

theorem Still.refl (s : State) : Still s s := ⟨rfl, rfl⟩

theorem Still.trans {s t u : State} (h : Still s t) (k : Still t u) : Still s u := ⟨k.plc.trans h.plc, k.time.trans h.time⟩

theorem onMem_still (f : Smem → Smem) (s : State) : Still s (onMem f s) := ⟨rfl, rfl⟩

theorem onCanceller_still (sl : SliceId) (p : PathId) (f : Canceller → Canceller) (s : State) : Still s (onCanceller sl p f s) := ⟨rfl, rfl⟩

theorem loseContainer_still (k : BufKey) (pos : Nat) (s : State) : Still s (loseContainer k pos s) := by
  unfold loseContainer
  dsimp only
  repeat' split
  · exact .refl s
  · exact .refl s
  · exact ⟨rfl, rfl⟩
  · exact onCanceller_still ..

theorem loseWord_still (k : BufKey) (w bytes : Nat) (s : State) : Still s (loseWord k w bytes s) := by
  have half (lost : Prop) [Decidable lost] (pos : Nat) (s : State) : Still s (if lost then loseContainer k pos s else s) := by
    split
    · exact loseContainer_still ..
    · exact .refl s
  exact (half ..).trans (half ..)

theorem copyPage_still (k : BufKey) (i src dst : Nat) (s : State) : Still s (copyPage k i src dst s) := by
  unfold copyPage
  split
  · exact .refl s
  · extract_lets was marked here
    have hMarked : Still s marked := by
      show Still s (if was = true then onMem (setWritten dst) s else s)
      split
      · exact onMem_still ..
      · exact .refl s
    refine hMarked.trans (foldl_keeps Still .refl .trans _ (fun s f => ?_) _ _)
    split
    · exact onMem_still ..
    · exact loseWord_still ..

theorem placeLine_still (sl : SliceId) (p : PathId) (s : State) : Still s (placeLine sl p s) := by
  unfold placeLine
  split <;> exact onCanceller_still ..

/-- A buffer whose copy has ended, when it is the one with this key. -/
def switchCopy (k : BufKey) (new : List (Fin 48 × BitVec 512)) (x : Buffer) : Buffer :=
  if x.key = k then { x with chunks := new, copy := none } else x

/-- The pages of a buffer as its readers find them at the strobe: copied to the new ones, the old ones released. -/
def pagesCopied (k : BufKey) (b : Buffer) (new : List (Fin 48 × BitVec 512)) (s : State) : State :=
  clearWritten (b.chunks.filter fun c => !new.contains c)
    (((pageList b.chunks).zip (pageList new)).zipIdx.foldl (fun s x => copyPage k x.2 x.1.1 x.1.2 s) (advanceTo (strobeAt (s.time.q + 1)) s))

/-- A buffer with its new pages, before the banks that it leaves are settled. -/
def bufferCopied (k : BufKey) (b : Buffer) (new : List (Fin 48 × BitVec 512)) (s : State) : State :=
  placeLine k.slice k.path
    (bumpGen (onPlc (fun p => { p with buffers := p.buffers.map (switchCopy k new) }) (pagesCopied k b new s)))

theorem exec_bufferCopyDone {sl : SliceId} {p : PathId} {dl : Bool} {f : Nat} {b : Buffer} {new : List (Fin 48 × BitVec 512)} {s : State}
    (found : (s.plc.buffers.find? fun b => b.key == ({ slice := sl, path := p, delay := dl, feed := f } : BufKey) && b.copy.isSome) = some b)
    (copy : b.copy = some new) :
    exec (.bufferCopyDone sl p dl f) s =
      .next (settleUnits (leaveBanks (bufferCopied { slice := sl, path := p, delay := dl, feed := f } b new s))) := by
  show execBufferCopyDone sl p dl f s = _
  simp only [execBufferCopyDone, found, copy, Option.getD_some]
  rfl

theorem pagesCopied_still (k : BufKey) (b : Buffer) (new : List (Fin 48 × BitVec 512)) (s : State) :
    Still (advanceTo (strobeAt (s.time.q + 1)) s) (pagesCopied k b new s) := by
  unfold pagesCopied clearWritten
  exact (foldl_keeps Still .refl .trans _ (fun s (x : (Nat × Nat) × Nat) => copyPage_still k x.2 x.1.1 x.1.2 s) _ _).trans (onMem_still ..)

theorem bufferCopied_buffers (k : BufKey) (b : Buffer) (new : List (Fin 48 × BitVec 512)) (s : State) :
    (bufferCopied k b new s).plc.buffers = s.plc.buffers.map (switchCopy k new) := by
  rw [bufferCopied, (placeLine_still ..).plc, bumpGen, onPlc_plc, onPlc_plc, (pagesCopied_still k b new s).plc, advanceTo_plc]

theorem bufferCopied_q (k : BufKey) (b : Buffer) (new : List (Fin 48 × BitVec 512)) (s : State) :
    (bufferCopied k b new s).time.q = strobeAt (s.time.q + 1) := by
  rw [bufferCopied, (placeLine_still ..).time, bumpGen, onPlc_time, onPlc_time, (pagesCopied_still k b new s).time, advanceTo_nextStrobe_q]

/-- Every buffer with the key of the one that was copied has the new pages. -/
theorem switched_of_key {k : BufKey} {new : List (Fin 48 × BitVec 512)} {l : List Buffer} {x : Buffer} (mem : x ∈ l.map (switchCopy k new))
    (key : x.key = k) : x.chunks = new ∧ x.copy = none := by
  obtain ⟨y, -, rfl⟩ := List.mem_map.mp mem
  unfold switchCopy at key ⊢
  split at key
  · next named => simp [named]
  · next other => exact absurd key other

/-! ### The end of a unit's test (R459, R461, R467) -/

theorem exec_engineTested (e : Fin 64) (pass : Bool) (s : State) : exec (.unitSelftestDone (.engine e) pass) s = .next (engineTested e pass s) := rfl

theorem exec_bankTested (b : Fin 48) (pass : Bool) (s : State) : exec (.unitSelftestDone (.bank b) pass) s = .next (bankTested b pass s) := rfl

theorem exec_engineTested_passes {e : Fin 64} {s : State} (tests : (s.plc.engine[e]).state = .testing) :
    exec (.unitSelftestDone (.engine e) true) s = .next (settleUnits (restoreStopped (endTest .engine e true id
      (setEngine e (if (s.plc.engine[e]).forbid = true then .forbidden else .available) s)))) := by
  rw [exec_engineTested]
  simp only [engineTested, tests, bne_self_eq_false, Bool.false_eq_true, if_false, if_true]

theorem exec_engineTested_fails {e : Fin 64} {x : SelfTest} {s : State} (tests : (s.plc.engine[e]).state = .testing) (test : testOf .engine e s = some x) :
    exec (.unitSelftestDone (.engine e) false) s = .next (settleUnits (restoreStopped (endTest .engine e false id
      (raise 104 (target .engine e) 0 (retireUnit .engine e x.source (setEngine e .retired s)))))) := by
  rw [exec_engineTested]
  simp only [engineTested, tests, test, bne_self_eq_false, Bool.false_eq_true, if_false, Option.map_some, Option.getD_some]

theorem exec_engineTested_idle {e : Fin 64} (pass : Bool) {s : State} (idle : (s.plc.engine[e]).state ≠ .testing) :
    exec (.unitSelftestDone (.engine e) pass) s = .next s := by
  rw [exec_engineTested, engineTested, if_pos (bne_iff_ne.mpr idle)]

theorem exec_bankTested_passes {b : Fin 48} {s : State} (tests : (s.mem.bank[b]).state = .testing) (whole : (s.mem.bank[b]).recode = false) :
    exec (.unitSelftestDone (.bank b) true) s = .next (settleUnits (restoreStopped (endTest .bank b true (notify 262 (target .bank b) 0)
      (cleanBank b (setBank b (bankPassed b s) s))))) := by
  rw [exec_bankTested]
  simp only [bankTested, tests, whole, bne_self_eq_false, Bool.or_self, Bool.false_eq_true, if_false, if_true]

theorem exec_bankTested_fails {b : Fin 48} {x : SelfTest} {s : State} (tests : (s.mem.bank[b]).state = .testing)
    (whole : (s.mem.bank[b]).recode = false) (test : testOf .bank b s = some x) :
    exec (.unitSelftestDone (.bank b) false) s = .next (settleUnits (restoreStopped (endTest .bank b false id
      (raise 261 (target .bank b) 0 (retireUnit .bank b x.source (setBank b .retired s)))))) := by
  rw [exec_bankTested]
  simp only [bankTested, tests, whole, test, bne_self_eq_false, Bool.or_self, Bool.false_eq_true, if_false, Option.map_some, Option.getD_some]

theorem exec_bankTested_idle {b : Fin 48} (pass : Bool) {s : State} (idle : (s.mem.bank[b]).state ≠ .testing ∨ (s.mem.bank[b]).recode = true) :
    exec (.unitSelftestDone (.bank b) pass) s = .next s := by
  rw [exec_bankTested, bankTested, if_pos (by simpa using idle)]

/-! ### Asking for moves (R462, R463) -/

/-- Moves are asked for: the queue of those that wait alone may change. -/
def Asked (s t : State) : Prop := t = { s with plc := { s.plc with waiting := t.plc.waiting } }

theorem Asked.refl (s : State) : Asked s s := rfl

theorem Asked.trans {s t u : State} (h : Asked s t) (k : Asked t u) : Asked s u := by
  unfold Asked at *
  rw [k, h]

theorem askMove_asked (r : MoveReq) (s : State) : Asked s (askMove r s) := by
  unfold askMove
  split <;> rfl

theorem askPlanned_asked (r : MoveReason) (s : State) (p : Planned) : Asked s (askPlanned r s p) := by
  unfold askPlanned
  split
  · exact .refl s
  · exact askMove_asked ..

theorem askAll_asked (r : MoveReason) (l : List Planned) (s : State) : Asked s (l.foldl (askPlanned r) s) :=
  foldl_keeps Asked .refl .trans _ (askPlanned_asked r) l s

theorem thermalMoves_asked (s : State) : Asked s (thermalMoves s) := by
  unfold thermalMoves
  split
  · exact askAll_asked ..
  · exact .refl s

/-! ### Spreads (R462, R629) -/

/-- The dwell of a spread has ended, at which station time stands. -/
def dwelt (m : Nat) (s : State) : State := advanceMono (m + dwellQ s.thm.zone[4]) (retimeSpread s)

theorem dwelt_mono (m : Nat) (s : State) : (dwelt m s).time.mono = max s.time.mono (m + dwellQ s.thm.zone[4]) := by
  have time : (retimeSpread s).time = s.time := rfl
  rw [dwelt, advanceMono_time, time]
  simp only [later]
  omega

theorem dwelt_plc (m : Nat) (s : State) : (dwelt m s).plc = (retimeSpread s).plc := advanceMono_plc ..

theorem dwelt_slices (m : Nat) (s : State) : (dwelt m s).slices = s.slices := advanceMono_slices ..

theorem dwelt_flt (m : Nat) (s : State) : (dwelt m s).flt = s.flt := advanceMono_flt ..

/-- A spread is declared, with its error, and its timer begins anew. -/
def declareSpread (s : State) : State := raise 212 0 0 (onPlc (fun p => { p with spread := true, spreadSince := none }) s)

/-- A spread is over, and the thermal moves that wait are given up. -/
def clearSpread (s : State) : State :=
  onPlc (fun p => { p with spread := false, spreadSince := none, waiting := p.waiting.filter fun w => w.reason != .thermal }) s

theorem exec_spreadDeclared {m : Nat} {s : State} (even : s.plc.spread = false) (since : (retimeSpread s).plc.spreadSince = some m) :
    exec .spreadDeclared s = .next (retimeSpread (thermalMoves (declareSpread (dwelt m s)))) := by
  have stillEven : (retimeSpread s).plc.spread = false := even
  show execSpreadDeclared s = _
  simp only [execSpreadDeclared, since, stillEven, Bool.false_eq_true, if_false]
  rfl

theorem exec_spreadCleared {m : Nat} {s : State} (spread : s.plc.spread = true) (since : (retimeSpread s).plc.spreadSince = some m) :
    exec .spreadCleared s = .next (retimeSpread (settleUnits (clearSpread (dwelt m s)))) := by
  have stillSpread : (retimeSpread s).plc.spread = true := spread
  show execSpreadCleared s = _
  simp only [execSpreadCleared, since, stillSpread, if_true]
  rfl

theorem exec_spread_untimed {s : State} (untimed : (retimeSpread s).plc.spreadSince = none) :
    exec .spreadDeclared s = .next (retimeSpread s) ∧ exec .spreadCleared s = .next (retimeSpread s) := by
  constructor
  · show execSpreadDeclared s = _
    simp only [execSpreadDeclared, untimed]
  · show execSpreadCleared s = _
    simp only [execSpreadCleared, untimed]

/-- What the declaration of a spread leaves: the moves that it asks for wait, and nothing but placement and the event sources has changed. -/
structure SpreadDeclared (s t : State) : Prop where
  spread : t.plc.spread = true
  placed : t.plc.placed = s.plc.placed
  events : (t.flt.sources[(212 : Fin 320)]).events = (s.flt.sources[(212 : Fin 320)]).events + 1
  frame  : t = { s with plc := t.plc, flt := t.flt }

theorem declareSpread_declared (s : State) : SpreadDeclared s (retimeSpread (thermalMoves (declareSpread s))) := by
  have asked := thermalMoves_asked (declareSpread s)
  generalize thermalMoves (declareSpread s) = t at asked ⊢
  have events : ((declareSpread s).flt.sources[(212 : Fin 320)]).events = (s.flt.sources[(212 : Fin 320)]).events + 1 := raise_events ..
  rw [asked]
  exact ⟨rfl, rfl, events, rfl⟩

/-- What the end of a spread leaves: no thermal move waits, and no slice has moved. -/
structure SpreadCleared (s t : State) : Prop where
  even    : t.plc.spread = false
  waiting : ∀ w ∈ t.plc.waiting, w.reason ≠ .thermal
  placed  : t.plc.placed = s.plc.placed
  time    : t.time = s.time
  slices  : t.slices = s.slices

theorem clearSpread_cleared (s : State) : SpreadCleared s (retimeSpread (settleUnits (clearSpread s))) := by
  have kept := settleUnits_workKept (clearSpread s)
  have settled := settleUnits_settled (clearSpread s)
  generalize settleUnits (clearSpread s) = t at kept settled ⊢
  refine ⟨kept.spread, fun w mem => ?_, kept.placed, settled.time, settled.slices⟩
  have waits : w ∈ t.plc.waiting := mem
  rw [kept.waiting] at waits
  exact bne_iff_ne.mp (List.mem_filter.mp waits).2

/-! ### Periodic passes (R463) -/

/-- A pass notes how many moves it asks for. -/
def notePass (n : Nat) (s : State) : State := onPlc (fun p => { p with lastPass := n }) s

/-- The moves of a periodic pass are asked for. -/
def askPass (l : List Planned) (s : State) : State := l.foldl (askPlanned .periodic) (notePass (min 1023 l.length) s)

/-- What a pass leaves: its moves wait, and nothing is placed otherwise. -/
structure PassAsked (n : Nat) (s t : State) : Prop where
  noted  : t.plc.lastPass = n
  placed : t.plc.placed = s.plc.placed
  frame  : t = { s with plc := t.plc }

theorem Asked.passAsked {n : Nat} {s t : State} (h : Asked (notePass n s) t) : PassAsked n s t := by
  rw [h]
  exact ⟨rfl, rfl, rfl⟩

theorem askPass_passAsked (l : List Planned) (s : State) : PassAsked (min 1023 l.length) s (askPass l s) := (askAll_asked ..).passAsked

theorem exec_rebalancePass {s : State} (spreads : s.plc.policy = false) (periodic : s.plc.interval ≠ 0) :
    exec .rebalancePass s = .next (askPass (planPass s 256 (carried s)) s) := by
  have runs : ¬ (s.plc.policy || decide (s.plc.interval = 0)) = true := by simp [spreads, periodic]
  show execRebalancePass s = _
  rw [execRebalancePass, if_neg runs]
  rfl

theorem exec_rebalancePass_none {s : State} (none : s.plc.policy = true ∨ s.plc.interval = 0) : exec .rebalancePass s = .next s := by
  show execRebalancePass s = _
  rw [execRebalancePass, if_pos (by simpa using none)]

/-! ### O55 -/

/-- Settles O55: each clause is the meaning of one event of Weathervane; bringing the units up to date after it moves no work. -/
theorem movesAndTests : Obligations.MovesAndTests := by
  refine ⟨?starts, fun i m d s slot live warm calm => exec_shadowStart_computes slot live warm calm, ?cutsOver, ?abandons, ?evacuates, ?copied,
    fun e s tests => exec_engineTested_passes tests, fun e x s tests test => exec_engineTested_fails tests test,
    fun b s tests whole => exec_bankTested_passes tests whole, ?declares, ?clears, ?passes, fun s none => exec_rebalancePass_none none, ?early,
    fun r src s room alive served next source noTarget calm => exec_moveStart_noTarget ⟨room, alive, served, next, source, calm⟩ noTarget,
    fun s barred waits => exec_moveStart_barred barred waits,
    fun b x s tests whole test => exec_bankTested_fails tests whole test, fun e ok s idle => exec_engineTested_idle ok idle,
    fun b ok s idle => exec_bankTested_idle ok idle, fun s untimed => exec_spread_untimed untimed⟩
  case starts =>
    intro r src dst i s room alive served next source target calm free
    refine does_of_next (exec_moveStart_starts ⟨room, alive, served, next, source, calm⟩ target free) ?_
    obtain ⟨slot, others, placed, frame⟩ :=
      startInSlot_started i r (startedMove r src dst s) (advanceTo (strobeAt (s.time.q + 1)) s)
    rw [advanceTo_plc] at others placed
    exact ⟨slot, others, placed, by rw [frame.time, advanceTo_nextStrobe_q], frame⟩
  case cutsOver =>
    intro i m h s slot matched alive live
    have runs := exec_moveCutover slot
    rw [if_pos ⟨matched, alive⟩] at runs
    exact does_of_next runs
      ⟨cutOver_slot i m s, cutOver_part live, fun sl other => cutOver_others i s other, cutOver_slices i m s, cutOver_time i m s⟩
  case abandons =>
    intro i m n s slot computes late other
    refine does_of_next (exec_moveAbandon_abandons n slot computes late other) ?_
    obtain ⟨idle, placed, slices, events⟩ := abandonMove_abandoned i (unmatched n m) (target .engine m.dst) s
    exact ⟨idle, placed, slices, events⟩
  case evacuates =>
    intro i m h n s slot computes late evacuation live
    refine does_of_next (exec_moveAbandon_cutsOver n slot computes late evacuation) ?_
    refine ⟨cutOver_slot .., cutOver_part (m := unmatched n m) live, ?_⟩
    rw [cutOver_sources _ _ _ (by decide), raise_events]
  case copied =>
    intro sl p dl f b new s found copy
    refine ⟨_, exec_bufferCopyDone found copy, fun x mem key => ?_, ?_, bufferCopied_q ..⟩
    · rw [bufferCopied_buffers] at mem
      exact switched_of_key mem key
    · rw [bufferCopied_buffers, List.length_map]
  case declares =>
    intro m s even since
    refine does_of_next (exec_spreadDeclared even since) ?_
    obtain ⟨spread, placed, events, frame⟩ := declareSpread_declared (dwelt m s)
    refine ⟨spread, ?_, by rw [events, dwelt_flt], by rw [placed, dwelt_plc]; rfl, frame⟩
    rw [frame]
    exact dwelt_mono m s
  case clears =>
    intro m s spread since
    refine does_of_next (exec_spreadCleared spread since) ?_
    obtain ⟨even, waiting, placed, time, slices⟩ := clearSpread_cleared (dwelt m s)
    exact ⟨even, by rw [time, dwelt_mono], waiting, by rw [placed, dwelt_plc]; rfl, by rw [slices, dwelt_slices]⟩
  case passes =>
    intro s spreads periodic
    refine does_of_next (exec_rebalancePass spreads periodic) ?_
    obtain ⟨noted, placed, frame⟩ := askPass_passAsked (planPass s 256 (carried s)) s
    exact ⟨noted, placed, frame⟩
  case early =>
    intro i m n s slot
    refine ⟨fun unmatched => ?_, exec_moveAbandon_early n slot⟩
    rw [exec_moveCutover slot, if_neg fun both => unmatched both.1]

end Sys2Proof.Machine
end

section
/-! PROOFS. One-time-programmable memory only grows (O5): the commands that program it, and then every step. -/
namespace Sys2Proof.Machine
open Sys2Proof

/-! ### Fuses that stay, and fuses that are programmed (R646) -/

theorem lasting_otp {s t : State} (h : lasting t = lasting s) : otpOf t.sec = otpOf s.sec := congrArg Prod.snd h

/-- The same fuses and the same min_svn. -/
theorem otpGrows_of_otp {a b : Security} (h : otpOf b = otpOf a) : otpGrows a b := by
  obtain ⟨svn, fuses⟩ := Prod.ext_iff.mp h
  refine ⟨Nat.le_of_eq svn.symm, fun i programmed => ?_⟩
  have same : fusesOf b.owner[i.val] = fusesOf a.owner[i.val] := by
    simpa only [Vector.getElem_map] using congrArg (fun v => v[i.val]) (show b.owner.map fusesOf = a.owner.map fusesOf from fuses)
  obtain ⟨hash, rest⟩ := Prod.ext_iff.mp same
  obtain ⟨prog, revoked⟩ := Prod.ext_iff.mp rest
  exact ⟨prog.trans programmed, hash, fun r => revoked.trans r⟩

theorem otpGrows_of_lasting {s t : State} (h : lasting t = lasting s) : otpGrows s.sec t.sec := otpGrows_of_otp (lasting_otp h)

/-- What grows before operations that keep what lasts, or after them. -/
theorem otpGrows_lasting {s t u : State} (h : otpGrows s.sec t.sec) (k : lasting u = lasting t) : otpGrows s.sec u.sec :=
  otpGrows_trans h (otpGrows_of_lasting k)

/-- A change of one key slot in which no fuse is lost. -/
theorem otpGrows_upd {a b : Security} {i : Fin 4} {f : OwnerSlot → OwnerSlot} (svn : a.minSvn ≤ b.minSvn) (slots : b.owner = upd a.owner i f)
    (grows : fusesGrow a.owner[i] (f a.owner[i])) : otpGrows a b := by
  refine ⟨svn, fun j => ?_⟩
  rw [slots, upd_get]
  split
  · next same => rw [same]; exact grows
  · exact fusesGrow_refl _

/-- An outcome in which no fuse is lost. -/
def KeepsFuses (s : State) (o : Host.Outcome State Fault Refusal) : Prop := ∀ t, o = .next t → otpGrows s.sec t.sec

theorem keepsFuses_next {s t : State} (h : otpGrows s.sec t.sec) : KeepsFuses s (.next t) := by
  rintro _ ⟨⟩
  exact h

theorem Lasts.keepsFuses {s : State} {o : Host.Outcome State Fault Refusal} (h : Lasts s o) : KeepsFuses s o :=
  fun t e => otpGrows_of_lasting (h t e)

/-! ### Resets and the owner register program nothing (R95) -/

theorem dropRadioStates_otp (s : State) : otpOf (dropRadioStates s).sec = otpOf s.sec :=
  lasting_otp (by simp [dropRadioStates])

theorem coldReset_otp (s : State) : otpOf (coldReset s).sec = otpOf s.sec := by
  rw [← dropRadioStates_otp s]
  simp only [coldReset, otpOf_mk, otpOf_fold]

theorem execPowerFail_fuses (s : State) : KeepsFuses s (execPowerFail s) := by
  unfold execPowerFail
  exact keepsFuses_next (otpGrows_of_otp (coldReset_otp s))

theorem execSysReset_fuses (straps sel) (s : State) : KeepsFuses s (execSysReset straps sel s) := by
  refine keepsFuses_next (otpGrows_of_otp ?_)
  rw [← coldReset_otp s]
  simp only [onSec_sec, onBoot_sec, otpOf_mk, otpOf_fold]

theorem execPerstAssert_fuses (s : State) : KeepsFuses s (execPerstAssert s) := keepsFuses_next (otpGrows_refl _)

theorem warmReset_otp (s : State) : otpOf (warmReset s).sec = otpOf s.sec := by
  rw [← dropRadioStates_otp s]
  simp only [warmReset, securityKept, otpOf_mk, otpOf_fold]

theorem booted_lasting (s : State) : lasting ((indices 6).foldl checkCold (calm (warmReset s))) = lasting (warmReset s) :=
  (foldl_lasting (fun _ _ => checkCold_lasting ..) _ _).trans (calm_lasting ..)

theorem execWarmResetSequence_fuses (s : State) : KeepsFuses s (execWarmResetSequence s) := by
  have booted := otpGrows_lasting (otpGrows_of_otp (warmReset_otp s)) (booted_lasting s)
  unfold execWarmResetSequence
  dsimp only
  split
  · exact keepsFuses_next booted
  · exact keepsFuses_next (otpGrows_lasting booted (raise_lasting ..))
  · exact keepsFuses_next (otpGrows_refl _)

theorem execRingOwnerWrite_fuses (ring owner) (s : State) : KeepsFuses s (execRingOwnerWrite ring owner s) := by
  refine keepsFuses_next (otpGrows_of_otp ?_)
  unfold viaBar
  dsimp only
  repeat' split
  all_goals rfl

/-! ### Firmware that is confirmed raises min_svn at most (R651) -/

/-- A host command loses no fuse that its body keeps. -/
theorem hostCommand_fuses {op self d} {body : Issue → State → State} (h : ∀ i t, otpGrows t.sec (body i t).sec) (s : State) :
    otpGrows s.sec (hostCommand op self d body s).sec := by
  have starts : otpGrows s.sec (startCommand d s).sec := otpGrows_refl _
  unfold hostCommand
  split
  · exact otpGrows_of_lasting (holdCommand_lasting ..)
  · dsimp only
    split
    · exact otpGrows_lasting starts (refuse_lasting ..)
    · exact otpGrows_trans starts (h _ _)

theorem confirmFirmware_fuses (iss raiseSvn) (s : State) : otpGrows s.sec (confirmFirmware iss raiseSvn s).sec := by
  unfold confirmFirmware
  split
  · exact otpGrows_of_lasting (refuse_lasting ..)
  · dsimp only
    refine otpGrows_lasting ?_ (complete_lasting ..)
    refine ⟨?_, fun _ => fusesGrow_refl _⟩
    dsimp only [onSec, onFlash]
    split
    · exact Nat.le_max_left ..
    · exact Nat.le_refl _

theorem execFwActivate_fuses (d proof) (s : State) : KeepsFuses s (execFwActivate d proof s) := by
  refine keepsFuses_next (hostCommand_fuses (fun iss s => ?_) s)
  split
  · exact otpGrows_of_lasting (refuse_lasting ..)
  · split
    · split
      · exact otpGrows_of_lasting (bufferError_lasting ..)
      · exact otpGrows_of_lasting (loadFirmware_lasting ..)
    · split
      · exact otpGrows_of_lasting (activateFirmware_lasting ..)
      · exact confirmFirmware_fuses ..

/-! ### A key change takes a free slot or revokes (R646, R664) -/

theorem programKey_fuses {i : Fin 4} (hash) {s : State} (free : (s.sec.owner[i]).programmed = false) : otpGrows s.sec (programKey i hash s).sec := by
  refine otpGrows_lasting (t := onSec (fun x => { x with owner := x.owner.set i _ }) s) (otpGrows_upd (f := fun _ => _) (Nat.le_refl _) rfl ?_)
    (queueFlash_lasting ..)
  intro programmed
  exact absurd (free.symm.trans programmed) Bool.noConfusion

theorem keyChange_fuses {op sigOk} {s t : State} (h : keyChange op sigOk s = .ok t) : otpGrows s.sec t.sec := by
  cases op with
  | provision hash =>
    by_cases used : anyOf s.sec.owner (·.programmed) = true
    · simp [keyChange, used] at h
    · have free : (s.sec.owner[(0 : Fin 4)]).programmed = false := by
        simpa using fun p => used ((anyOf_iff ..).mpr ⟨0, p⟩)
      simp only [keyChange, used] at h
      split at h
      · cases h
      · split at h <;> cases h
        exact programKey_fuses hash free
  | add hash =>
    simp only [keyChange] at h
    split at h
    · cases h
    · split at h
      · cases h
      · next i found =>
        split at h <;> cases h
        exact programKey_fuses hash (by simpa using findIdx_some _ _ _ found)
  | revoke i =>
    simp only [keyChange] at h
    repeat' split at h
    all_goals cases h
    exact otpGrows_upd (f := fun k => { k with revoked := true }) (Nat.le_refl _) rfl fun p => ⟨p, rfl, fun _ => rfl⟩

theorem execOwnerKey_fuses (inst op sigOk) (s : State) : KeepsFuses s (execOwnerKey inst op sigOk s) := by
  refine keepsFuses_next ?_
  unfold gated
  split
  · exact otpGrows_refl _
  · split
    · exact otpGrows_of_lasting (respond_lasting ..)
    · dsimp only
      split
      · exact otpGrows_of_lasting (respond_lasting ..)
      · next changed => exact otpGrows_lasting (keyChange_fuses changed) ((respond_lasting ..).trans (raise_lasting ..))

/-! ### Every step -/

theorem exec_fuses (c : Instr) (s : State) : KeepsFuses s (exec c s) := by
  by_cases h : changesLasting c = false
  · exact (exec_lasting h s).keepsFuses
  · cases c
    case powerFail => exact execPowerFail_fuses s
    case sysReset => apply execSysReset_fuses
    case warmResetSequence => exact execWarmResetSequence_fuses s
    case perstAssert => exact execPerstAssert_fuses s
    case ringOwnerWrite => apply execRingOwnerWrite_fuses
    case fwActivate => apply execFwActivate_fuses
    case ownerKey => apply execOwnerKey_fuses
    all_goals exact absurd rfl h

theorem runHeld_fuses (rest r c) (s : State) : KeepsFuses s (runHeld rest r c s) := by
  unfold runHeld
  split
  · next t ran => exact keepsFuses_next (otpGrows_trans (otpGrows_of_lasting (leaveHeld_lasting r s)) (exec_fuses c _ t ran))
  · rintro _ ⟨⟩
  · rintro _ ⟨⟩

theorem idle_fuses (s : State) : KeepsFuses s (idle s) := by
  unfold idle
  split
  · apply runHeld_fuses
  · exact (tick_lasting s).keepsFuses

/-- Settles O5: every command but seven keeps what lasts, four of those reset around it, a confirmation raises min_svn, and a key change takes a free
slot or revokes. -/
theorem otpNeverShrinks : Obligations.OtpNeverShrinks := by
  unfold Obligations.OtpNeverShrinks
  intro s t stepped
  cases pending : s.pending with
  | nil => rw [step_nil s pending] at stepped; exact idle_fuses s t stepped
  | cons c rest => rw [step_cons c rest s pending] at stepped; exact exec_fuses c { s with pending := rest } t stepped

end Sys2Proof.Machine
end

section
/-! PROOFS. A step runs the command at the front of the queue (O1). -/
namespace Sys2Proof.Machine
open Sys2Proof

/-- The step goes on. -/
def Answers (o : Host.Outcome State Fault Refusal) : Prop := ∃ t, o = .next t

theorem answers_next (t : State) : Answers (.next t) := ⟨t, rfl⟩

/-- Of the JTAG instructions only the scan and debug ones of level 2 have no meaning here (R669). -/
theorem execJtagInstruction_answers {op : JtagOp} {s : State} (h : op ≠ .inner ∨ s.sec.debug ≠ 2) : Answers (execJtagInstruction op s) := by
  cases op with
  | readRegister | writeRegister | trace => simp only [execJtagInstruction]; split <;> exact answers_next _
  | inner => exact ⟨s, if_neg (h.resolve_left fun ne => ne rfl)⟩
  | _ => exact answers_next _

/-- Every other command is one next state, or a choice between some: of those that choose, the names stand here in the model's order. -/
theorem exec_answers {c : Instr} {s : State} (h : c ≠ .jtagInstruction .inner ∨ s.sec.debug ≠ 2) : Answers (exec c s) := by
  cases c
  case jtagInstruction op => exact execJtagInstruction_answers (h.imp_left fun ne same => ne (congrArg _ same))
  all_goals simp only [exec,
    execFlr, execPcieLinkUp, execAerError, execUnsupportedRequest, execPcieConfigRequest, execVectorTimer, execDescriptorFetch,
    execRecordPublish, execRecordMirror, execThresholdDeclared, execThresholdCleared, execThawEnd, execOvercastStep, execCriticalDeclared,
    execThermalHaltEnd, execLedgerSecond, execRadioTransitionDone, execTileLockFail, execLockTimeout, execSynthLockLost, execTileRelock,
    execSpareRotation, execCorrectionTimeout, execRxOverrange, execLoadFault, execPortSelftestDone, execQueueAlignmentError,
    execPresencePoll, execRffeCommandDone, execRffeQueueTimeout, execRffeMailboxGo, execGrantTimeout, execBlankAssert, execBlankRelease,
    execBlankStuck, execPassTrigger, execPassComplete, execInjectionComplete, execCalMeasurementDone, execComparatorTrip,
    execComparatorRelease, execOpenCheck, execReferenceCheck, execMadcSelftestDone, execShadowStart, execMoveCutover, execMoveAbandon,
    execBufferCopyDone, execSpreadDeclared, execSpreadCleared, execRebalancePass, execSliceDeleteDone, execCaptureBlock, execCaptureEnd,
    execResidueMismatch, execSliceSampleBoundary, execCancelWindowEnd, execSquallWindowEnd, execOverdriveInterval, execNoiseIntervalEnd,
    execEmissionVisitEnd, execDonorLossTimeout, execDonorRecover, execTrimHoldExpiry, execTrimReleaseStep, execSmemReadError,
    execScrubPassEnd, execCodeSelWrite, execCodeSelZeroDone, execTimeSourceChange, execPpsLoss, execPpsEdge, execPpsOutPulse, execTddSwitch,
    execPatternPeriodStart, execTimeSetTimeout, execTimeStep, execInferInterval, execInferDone, execLaneUp, execLaneTrainTimeout,
    execLaneFail, execLaneDegraded, execLaneSelftestDone, execLaneSpareReady, execFrameHeader, execLinkMapEffect, execSegmentReceive,
    execBlockPlayout, execCommitApply, execWindowEnd, execFallbackReturn, execStagedCopyRebuild, execFlashWriteDone, execFlashRetry,
    execPersistFlush, execPowerGood, execRefclkQualified, execPllLockLost, execWatchdogExpiry, execWarmResetSequence, execFwRun, execReady,
    execSynthCalDone, execTempHandoverTrigger, execTwinPrepared, execHandoverBoundary, execHandoverRecord, execTwinFailed, execTwinRetry,
    execBandDeclared, execBandTableApply, execInjectionFire, execInjectionHoldEnd, execWideRegisterCapture, execDumpAssembled,
    execDumpWritten, execFwWindowExpiry, execNonceExpiry]
  all_goals repeat' split
  all_goals exact answers_next _

/-- Settles O1. -/
theorem stepRunsTheFront : Obligations.StepRunsTheFront := by
  unfold Obligations.StepRunsTheFront
  refine ⟨?runs, ?answers⟩
  case runs => exact fun c rest s => step_cons c rest { s with pending := c :: rest } rfl
  case answers =>
    intro c rest s h
    rw [step_cons c rest { s with pending := c :: rest } rfl]
    exact exec_answers (s := { s with pending := rest }) h

end Sys2Proof.Machine
end

section
/-! PROOFS. What the recorder does with a record (R598, R605, R606; O18). -/
namespace Sys2Proof.Machine
open Sys2Proof

@[simp] theorem clearSuppressed_staging (p : Payload) (r : Recorder) : (clearSuppressed p r).staging = r.staging := by
  unfold clearSuppressed
  split <;> rfl

@[simp] theorem clearSuppressed_seqNext (p : Payload) (r : Recorder) : (clearSuppressed p r).seqNext = r.seqNext := by
  unfold clearSuppressed
  split <;> rfl

section
variable {p : Payload} {stamp epoch sup : Nat} {own : Option Nat} {e : Recorder} {s : State}

/-- The rate limit turns a record away (R605). -/
theorem record_limited (h : rateCheck p s.time.mono s.evr = (e, none)) : record p stamp epoch own s = pulse 0x0601 0 1 { s with evr := e } := by
  simp only [record, h]

/-- Staging has no room for it (R598). -/
theorem record_lost (h : rateCheck p s.time.mono s.evr = (e, some sup)) (full : 63 ≤ unreserved e) :
    record p stamp epoch own s =
      pulse 0x0602 0 1 { s with evr := { e with lostPending := e.lostPending + 1, stagingLost := satAdd 65535 e.stagingLost 1 } } := by
  simp only [record, h, if_pos full]

/-- It enters staging (R598, R606). -/
theorem record_enters (h : rateCheck p s.time.mono s.evr = (e, some sup)) (room : unreserved e < 63) :
    record p stamp epoch none s =
      pulse 0x0600 0 1 { s with evr := { clearSuppressed p e with
        staging := e.staging ++ [{ sequence := e.seqNext, stamp := stamp, epoch := epoch, suppressed := sup, payload := p }]
        seqNext := (e.seqNext + 1) % 2 ^ 64 } } := by
  simp [record, h, if_neg (Nat.not_le.mpr room)]

end

/-- Settles O18: the rate check and the room in staging decide what becomes of a record. -/
theorem recordingAnEvent : Obligations.RecordingAnEvent := by
  unfold Obligations.RecordingAnEvent
  refine ⟨?enters, ?lost, ?limited⟩
  case enters =>
    intro p stamp epoch sup e s passes room
    dsimp only
    refine ⟨?_, ?_, record_frame ..⟩ <;> rw [record_enters passes room] <;> rfl
  case lost =>
    intro p stamp epoch sup e s passes full
    dsimp only
    refine ⟨?_, ?_, ?_, record_frame ..⟩ <;> rw [record_lost passes full] <;> rfl
  case limited =>
    intro p stamp epoch own e s limited
    dsimp only
    rw [record_limited limited]
    exact ⟨rfl, rfl⟩

end Sys2Proof.Machine
end

section
/-! PROOFS. The store of the event recorder and its mirror in the event ring (R76, R79, R599 to R603; O17). -/
namespace Sys2Proof.Machine
open Sys2Proof

/-! ### Publication (R599 to R601) -/

/-- Without a loss to report nothing enters staging. -/
theorem placeOverflow_none {s : State} (h : s.evr.lostPending = 0) : placeOverflow s = s := if_pos (.inl h)

/-- The OVERFLOW record of kind 0 that reports every loss counted since the last (R599). -/
def lossRecord (s : State) : Record :=
  { sequence := s.evr.seqNext, stamp := s.stamp, epoch := s.time.epoch, suppressed := 0, payload := .overflow 0 s.evr.lostPending 0 }

theorem placeOverflow_places {s : State} (lost : s.evr.lostPending ≠ 0) (free : s.evr.staging.length ≤ unreserved s.evr) :
    placeOverflow s = pulse 0x0600 0 1 { s with evr := { s.evr with
      staging := s.evr.staging ++ [lossRecord s], lostPending := 0, seqNext := (s.evr.seqNext + 1) % 2 ^ 64 } } :=
  if_neg (not_or.mpr ⟨lost, Nat.not_lt.mpr free⟩)

/-- The oldest record has left staging for the store. -/
def published (r : Record) (rest : List Record) (s : State) : State := storeRecord r { s with evr := { s.evr with staging := rest } }

theorem published_last (r : Record) (rest : List Record) (s : State) :
    ((published r rest s).evr.store.getLast?).map (·.entry) = some r := by
  simp [published, storeRecord]

theorem exec_recordPublish {r : Record} {rest : List Record} {s : State} (h : s.evr.staging = r :: rest) :
    exec .recordPublish s = .next (placeOverflow (published r rest s)) := by
  simp only [exec, execRecordPublish, h]
  rfl

/-! ### The mirror (R76 to R79, R85, R603) -/

theorem countEntry_hif (fn : Fn) (v : Nat) (now : Bool) (s : State) :
    (countEntry fn v now s).hif = { s.hif with fns := (countEntry fn v now s).hif.fns } := by
  unfold countEntry
  split
  · rfl
  · dsimp only
    split
    · exact signalVector_hif ..
    · rfl

/-- Padding goes out at most before a record. -/
def padded (r : Record) (s : State) : State :=
  let x := s.hif.evr
  let at' := placeAt (2 ^ x.log2) x.prod.toNat r.size
  if at' = x.prod.toNat then s else emit (.padding (x.base + x.prod.toNat % 2 ^ x.log2) (at' - x.prod.toNat)) s

theorem padded_frame (r : Record) (s : State) : padded r s = { s with out := (padded r s).out } := by
  unfold padded
  dsimp only
  split <;> rfl

/-- The producer behind a record. -/
def mirrorProd (r : Record) (x : EventRing) : Word := BitVec.ofNat 32 (placeAt (2 ^ x.log2) x.prod.toNat r.size + r.size)

/-- The mirror's address of a record. -/
def mirrorAddress (r : Record) (x : EventRing) : Nat := x.base + placeAt (2 ^ x.log2) x.prod.toNat r.size % 2 ^ x.log2

theorem mirrorWrite_eq (r : Record) (s : State) :
    mirrorWrite r s = countEntry 0 s.hif.evr.vector false (emit (.eventWriteBack s.hif.evr.wb (mirrorProd r s.hif.evr).toNat)
      (onHif (fun h => { h with evr := { h.evr with prod := mirrorProd r s.hif.evr } })
        (emit (.mirrored (mirrorAddress r s.hif.evr) r) (padded r s)))) :=
  rfl

theorem mirrorWrite_sends (r : Record) (s : State) : Out.mirrored (mirrorAddress r s.hif.evr) r ∈ (mirrorWrite r s).out := by
  rw [mirrorWrite_eq]
  exact countEntry_sent (List.mem_cons_of_mem _ List.mem_cons_self) ..

theorem mirrorWrite_prod (r : Record) (s : State) : (mirrorWrite r s).hif.evr.prod = mirrorProd r s.hif.evr := by
  rw [mirrorWrite_eq, countEntry_hif]
  rfl

/-- A record that is mirrored touches the host interface and what was sent out. -/
theorem mirrorWrite_frame (r : Record) (s : State) : mirrorWrite r s = { s with hif := (mirrorWrite r s).hif, out := (mirrorWrite r s).out } := by
  rw [mirrorWrite_eq, countEntry_frame, padded_frame]
  rfl

theorem mirrorWrite_evr (r : Record) (s : State) : (mirrorWrite r s).evr = s.evr := by rw [mirrorWrite_frame]

section
variable {r : Record} {seq skipped : Nat} {s : State}

/-- The mirror past a record. -/
def mirrorPast (seq skipped : Nat) (e : Recorder) : Recorder :=
  { e with mirrorSeq := seq, firstLost := none, storeLost := satAdd 65535 e.storeLost skipped, mirrorPaused := false }

/-- What a mirror that runs does with the next record (R42, R79). -/
theorem exec_recordMirror (running : s.hif.evr.state = .running) (master : (s.hif.fns[(0 : Fn)]).busMaster = true)
    (d0 : (s.hif.fns[(0 : Fn)]).d3hot = false) (found : nextToMirror s.evr = some (r, seq, skipped)) :
    exec .recordMirror s =
      if eventRoom s.hif.evr (mirrorNeed r s.hif.evr) = true then .next (mirrorWrite r { s with evr := mirrorPast seq skipped s.evr })
      else if s.evr.mirrorPaused = true then .next s
      else .next (raise 4 0 0 { s with evr := { s.evr with mirrorPaused := true } }) := by
  have goes : (s.hif.evr.state != .running || !(s.hif.fns[(0 : Fn)]).busMaster || (s.hif.fns[(0 : Fn)]).d3hot) = false := by
    rw [running, master, d0]
    rfl
  simp only [exec, execRecordMirror, goes, found, Bool.false_eq_true, if_false]
  rfl

end

/-! ### O17 -/

/-- Settles O17: publication stores the oldest record and then reports the losses; the mirror writes the next record or pauses. -/
theorem recordsReachTheStoreAndTheMirror : Obligations.RecordsReachTheStoreAndTheMirror := by
  unfold Obligations.RecordsReachTheStoreAndTheMirror
  refine ⟨?publishes, ?mirrors, ?pauses, ?reports⟩
  case publishes =>
    intro r rest s staged none'
    refine does_of_next (exec_recordPublish staged) ?_
    rw [placeOverflow_none (s := published r rest s) none']
    exact ⟨rfl, published_last .., rfl, rfl⟩
  case mirrors =>
    intro r seq skipped s running master d0 found room
    refine does_of_next ((exec_recordMirror running master d0 found).trans (if_pos room)) ?_
    rw [mirrorWrite_evr]
    exact ⟨rfl, rfl, rfl, rfl, mirrorWrite_sends .., mirrorWrite_prod .., by rw [restKept, mirrorWrite_frame]⟩
  case pauses =>
    intro r seq skipped s running master d0 found full goes
    refine does_of_next (((exec_recordMirror running master d0 found).trans (if_neg (by simp [full]))).trans (if_neg (by simp [goes]))) ?_
    exact ⟨rfl, rfl, raise_events .., rfl⟩
  case reports =>
    intro r rest s staged lost free
    refine does_of_next (exec_recordPublish staged) ?_
    rw [placeOverflow_places (s := published r rest s) lost free]
    exact ⟨rfl, rfl, rfl, published_last .., rfl⟩

end Sys2Proof.Machine
end

section
/-! PROOFS. Injected faults and self-tests on command (R574 to R576, R579, R582; O23). -/
namespace Sys2Proof.Machine
open Sys2Proof

/-! ### Words in target encoding (R68) -/

/-- The classes stand in the order of their codes. -/
theorem allClasses_classCode (c : TargetClass) : allClasses[classCode c]? = some c := by cases c <;> rfl

theorem classCode_inj {c k : TargetClass} (h : classCode c = classCode k) : c = k :=
  Option.some.inj ((allClasses_classCode c).symm.trans (h ▸ allClasses_classCode k))

theorem targetOf_target {k : TargetClass} {i : Nat} (h : i < 2 ^ 24) (c : TargetClass) (n : Nat) :
    targetOf c n (target k i) = if k = c then finOf n i else none := by
  have code : target k i / 2 ^ 24 = classCode k := by unfold target; omega
  have idx : targetIdx (target k i) = i := by unfold targetIdx target; omega
  rw [targetOf, code, idx]
  by_cases same : k = c
  · rw [if_pos same, if_pos (congrArg _ same)]
  · rw [if_neg same, if_neg fun codes => same (classCode_inj codes)]

theorem unit_of_target {d : Desc} {k : TargetClass} {n : Nat} {i : Fin n} (named : d.tgt = target k i) (small : n ≤ 2 ^ 24) (c : TargetClass)
    (m : Nat) : d.unit c m = if k = c then finOf m i else none := by
  unfold Desc.unit
  rw [named, targetOf_target (by omega)]

theorem finOf_self {n : Nat} (i : Fin n) : finOf n i.val = some i := finOf_some i.isLt

/-! ### FAULT_INJECT (R574, R575) -/

/-- What a FAULT_INJECT asks of a source (R574). -/
def asked (d : Desc) (src : Fin 320) (s : State) : Injection :=
  { issue := issueOf 0x52 d s, source := src, isHold := d.byte 12 == 1, capture := bitOf (d.byte 13) 0, duration := d.u 14 2
    instant := if d.u 16 8 = 0 then s.now else instantOf s.now (d.u 16 8), unit := d.u 24 4, inst := d.u 28 2, fired := false }

/-- The checks read nothing that the start of a command changes. -/
theorem injectCheck_startCommand (d e : Desc) (s : State) : injectCheck d (startCommand e s) = injectCheck d s := rfl

theorem exec_faultInject {d : Desc} {src : Fin 320} {s : State} (runs : Runs 0x52 d s) (valid : injectCheck d s = none)
    (named : d.unit .errorSource 320 = some src) :
    exec (.faultInject d) s = .next { startCommand d s with flt := { s.flt with injections := s.flt.injections ++ [asked d src s] } } := by
  show execFaultInject d s = _
  simp only [execFaultInject, hostCommand_runs runs, injectCheck_startCommand, valid, named]
  rfl

/-! ### The instant of an injection, and the end of a hold (R575, R576) -/

/-- Of a detector that reports by injection only the injected count or the hold moves. -/
theorem fireInjection_source {x : Injection} {src : Fin 320} (own : x.source = src) (s : State) :
    ∃ after stamp epoch, (fireInjection x s).flt.sources[src] = tagSource s.flt.sources[src] after x.isHold x.capture x.unit stamp epoch := by
  subst own
  unfold fireInjection
  dsimp only
  exact ⟨_, _, _, upd_self ..⟩

/-- The instant has come, and the injections of the source are under way. -/
def injectionDue (src : Fin 320) (x : Injection) (s : State) : State :=
  let s := advanceTo x.instant s
  onFlt (fun c => { c with injections := c.injections.map fun y =>
    if y.source = src then { y with fired := true, instant := s.time.mono + 4000 * x.duration } else y }) s

theorem injectionDue_sources (src : Fin 320) (x : Injection) (s : State) : (injectionDue src x s).flt.sources = s.flt.sources := by
  simp [injectionDue]

theorem exec_injectionFire {src : Fin 320} {x : Injection} {s : State}
    (waits : (s.flt.injections.find? fun x => x.source == src && !x.fired) = some x) :
    exec (.injectionFire src) s = .next (fireInjection x (injectionDue src x s)) := by
  show execInjectionFire src s = _
  simp only [execInjectionFire, waits, injectionDue]

/-- What an injection makes of its source when its instant comes. -/
theorem exec_injectionFire_source {src : Fin 320} {x : Injection} {s : State}
    (waits : (s.flt.injections.find? fun x => x.source == src && !x.fired) = some x) :
    Does (.injectionFire src) s fun t => ∃ after stamp epoch,
      t.flt.sources[src] = tagSource s.flt.sources[src] after x.isHold x.capture x.unit stamp epoch := by
  have own : x.source = src := by
    have found := List.find?_some waits
    simp only [Bool.and_eq_true, beq_iff_eq] at found
    exact found.1
  obtain ⟨after, stamp, epoch, fired⟩ := fireInjection_source own (injectionDue src x s)
  rw [injectionDue_sources] at fired
  exact does_of_next (exec_injectionFire waits) ⟨after, stamp, epoch, fired⟩

theorem exec_injectionHoldEnd {src : Fin 320} {x : Injection} {s : State}
    (holds : (s.flt.injections.find? fun x => x.source == src && x.fired && x.isHold) = some x) :
    exec (.injectionHoldEnd src) s = .next (complete x.issue .ok
      { advanceMono x.instant s with flt := { s.flt with
          injections := s.flt.injections.filter fun y => y.source != src
          sources := upd s.flt.sources src fun y => { y with hold := false } } }) := by
  show execInjectionHoldEnd src s = _
  simp only [execInjectionHoldEnd, holds, onFlt, advanceMono_flt]

/-! ### SELFTEST (R579, R582) -/

/-- The test that a host's SELFTEST asks for. -/
def hostTest (k : UnitKind) (i : Nat) (iss : Issue) : SelfTest := { kind := k, index := i, source := 0, injectedOnly := false, hosts := [iss] }

/-- A unit without a test gets one. -/
theorem askTest_new {k : UnitKind} {i : Nat} {s : State} (h : testOf k i s = none) (iss : Issue) :
    askTest k i 0 false [iss] s = onFlt (fun f => { f with selftests := f.selftests ++ [hostTest k i iss] }) s := by
  simp only [askTest, h]
  rfl

/-- What SELFTEST does with a unit of each class (R582). -/
def testBody (iss : Issue) (d : Desc) (s : State) : Option (State → State) :=
  if let some e := d.unit .engine 64 then some (selftestEngine iss e d.tgt)
  else if let some b := d.unit .bank 48 then some (selftestBank iss b d.tgt)
  else if let some l := d.unit .lane 64 then some (selftestLane iss l d.tgt)
  else if let some p := d.unit .rxPort 32 then some (selftestPort iss .rxPort p (rxRetired p s))
  else if let some p := d.unit .txPort 32 then some (selftestPort iss .txPort p (txRetired p s))
  else if let some c := d.unit .madc 8 then
    some (fun s => if madcRetired c s then refuse iss (badParam 8) s else askTest .madc c 0 false [iss] s)
  else none

theorem exec_selftest {d : Desc} {s : State} {f : State → State} (runs : Runs 0x50 d s) (direct : d.indirect = false)
    (clean : firstFail [d.strayCheck []] = none) (body : testBody (issueOf 0x50 d s) d (startCommand d s) = some f) :
    exec (.selftest d) s = .next (f (startCommand d s)) := by
  have passes : firstFail [(d.indirect, badParam 1)] = none := by rw [direct]; rfl
  show execSelftest d s = _
  simp only [execSelftest, hostCommand_runs runs, passes, clean]
  split
  · next nothing => exact absurd (body.symm.trans nothing) (Option.some_ne_none f)
  · next found stray => cases stray
  · next found _ => rw [Option.some.inj (found.symm.trans body)]

theorem exec_selftest_port {d : Desc} {s : State} {k : UnitKind} {p : Fin 32} (runs : Runs 0x50 d s) (direct : d.indirect = false)
    (clean : firstFail [d.strayCheck []] = none) (on : (s.tiles.tile[tileOf p]).state = .synthOn) (free : testOf k p s = none)
    (body : testBody (issueOf 0x50 d s) d (startCommand d s) = some (selftestPort (issueOf 0x50 d s) k p false)) :
    exec (.selftest d) s = .next (onFlt (fun f => { f with selftests := f.selftests ++ [hostTest k p (issueOf 0x50 d s)] }) (startCommand d s)) := by
  have inService : ¬ (false = true ∨ ((startCommand d s).tiles.tile[tileOf p]).state ≠ .synthOn) := by
    rintro (h | h)
    · cases h
    · exact h on
  rw [exec_selftest runs direct clean body, ← askTest_new (s := startCommand d s) free, selftestPort, if_neg inService]

/-! ### O23 -/

/-- Settles O23: each clause is the meaning of one command or of the instant that one of them waits for. -/
theorem injectionsAndSelftests : Obligations.InjectionsAndSelftests := by
  unfold Obligations.InjectionsAndSelftests
  refine ⟨fun d src s => exec_faultInject, ?pulse, ?hold, fun src x s => exec_injectionHoldEnd, ?rx, ?tx, ?madc, ?engine, ?bank, ?lane⟩
  case pulse =>
    intro src x s waits pulse
    obtain ⟨t, runs, after, stamp, epoch, fired⟩ := exec_injectionFire_source waits
    refine does_of_next runs ?_
    rw [fired, pulse]
    exact ⟨rfl, rfl⟩
  case hold =>
    intro src x s waits hold
    obtain ⟨t, runs, after, stamp, epoch, fired⟩ := exec_injectionFire_source waits
    refine does_of_next runs ?_
    rw [fired, hold]
    exact ⟨Bool.or_true _, rfl⟩
  case rx =>
    intro d p s runs direct clean named serves on free
    have retired : rxRetired p (startCommand d s) = false := serves
    exact exec_selftest_port runs direct clean on free (by simp [testBody, unit_of_target named, finOf_self, retired])
  case tx =>
    intro d p s runs direct clean named serves on free
    have retired : txRetired p (startCommand d s) = false := serves
    exact exec_selftest_port runs direct clean on free (by simp [testBody, unit_of_target named, finOf_self, retired])
  case madc =>
    intro d c s runs direct clean named serves free
    have retired : madcRetired c (startCommand d s) = false := serves
    rw [exec_selftest runs direct clean (by simp [testBody, unit_of_target named, finOf_self]; rfl), retired]
    exact congrArg _ (askTest_new (s := startCommand d s) free _)
  case engine =>
    intro d e s runs direct clean named
    exact exec_selftest runs direct clean (by simp [testBody, unit_of_target named, finOf_self])
  case bank =>
    intro d b s runs direct clean named
    exact exec_selftest runs direct clean (by simp [testBody, unit_of_target named, finOf_self])
  case lane =>
    intro d l s runs direct clean named
    exact exec_selftest runs direct clean (by simp [testBody, unit_of_target named, finOf_self])

end Sys2Proof.Machine
end

section
/-! PROOFS. PLDM monitoring and the SPDM responder (R658 to R660, R665, R669; O60). -/
namespace Sys2Proof.Machine
open Sys2Proof

/-! ### PLDM (R665) -/

/-- What goes out with an answer. -/
theorem emit_eq (o : Out) (s : State) : emit o s = { s with out := o :: s.out } := rfl

/-- A PLDM request that is served sends its answer (R665). -/
theorem pldm_served {s : State} (port : PortOpen s) (gate : messageGate false s = none) (body : State → Answer) :
    pldm body s = .next { s with out := .answer (body s) :: s.out } := by
  unfold pldm
  rw [alwaysOn_open port]
  simp only [gate, emit_eq]

theorem numericSensor_zone (z : Fin 6) (s : State) : numericSensor (z + 1) s = some (zoneValue z s) := by
  have range : 1 ≤ z.val + 1 ∧ z.val + 1 ≤ 6 := by omega
  rw [numericSensor, if_pos range]
  exact congrArg (Option.map _) (finOf_some z.isLt)

/-- Numeric sensors are numbered from 1 to 25 (R665). -/
theorem numericSensor_isSome (k : Nat) (s : State) : (numericSensor k s).isSome ↔ 1 ≤ k ∧ k ≤ 25 := by
  unfold numericSensor
  split
  · next zone => rw [finOf_some (show k - 1 < 6 by omega)]; simp; omega
  · split
    · simp; omega
    · split
      · simp; omega
      · split
        · simp; omega
        · split
          · next input => rw [finOf_some (show k + 86 < 128 by omega)]; simp; omega
          · simp; omega

/-- State sensors are numbered from 26 to 30 (R665). -/
theorem stateSensor_isSome (k : Nat) (s : State) : (stateSensor k s).isSome ↔ 26 ≤ k ∧ k ≤ 30 := by
  unfold stateSensor
  repeat' split
  all_goals simp; omega

/-! ### SPDM (R658 to R660, R669) -/

/-- A change of a transport's negotiation is what that transport then shows, and touches the security block alone. -/
theorem negotiation_onNegotiation (t : Transport) (f : Negotiation → Negotiation) (s : State) :
    negotiation t (onNegotiation t f s) = f (negotiation t s) := by
  cases t <;> rfl

theorem onNegotiation_frame (t : Transport) (f : Negotiation → Negotiation) (s : State) :
    onNegotiation t f s = { s with sec := (onNegotiation t f s).sec } := by
  cases t <;> rfl

/-- A response leaves the negotiation. -/
theorem negotiation_spdmResponse (t : Transport) (code : Nat) (data : List Nat) (s : State) :
    negotiation t (spdmResponse code data s) = negotiation t s := by
  cases t <;> rfl

section
variable {t : Transport} {s : State} (reached : reaches t s = true) (gate : messageGate false s = none)
include reached gate

/-- A request that is served runs. -/
theorem spdm_served (body : State → State) : spdm t body s = .next (body s) := by
  simp only [spdm, reached, gate, Bool.not_true, Bool.false_eq_true, if_false]

theorem negotiated_served {need : Negotiation → Bool} (ready : need (negotiation t s) = true) (body : State → State) :
    negotiated t need body s = .next (body s) :=
  (spdm_served reached gate _).trans (congrArg _ (if_pos ready))

/-- One that comes before its turn does not (R659). -/
theorem negotiated_early {need : Negotiation → Bool} (early : need (negotiation t s) = false) (body : State → State) :
    negotiated t need body s = .next (spdmError .unexpectedRequest s) :=
  (spdm_served reached gate _).trans (congrArg _ (if_neg (by simp [early])))

theorem exec_getVersion : exec (.getVersion t) s = .next (spdmResponse 0x04 [0x12]
    (onNegotiation t (fun _ => { version := true, capabilities := false, algorithms := false }) s)) := by
  show execGetVersion t s = _
  rw [execGetVersion, spdm_served reached gate]

theorem exec_getCapabilities (version : (negotiation t s).version = true) : exec (.getCapabilities t) s =
    .next (spdmResponse 0x61 [0x02 + 0x04 + 0x10] (onNegotiation t (fun n => { n with capabilities := true }) s)) := by
  show execGetCapabilities t s = _
  rw [execGetCapabilities, negotiated_served reached gate version]

theorem exec_negotiateAlgorithms (capabilities : (negotiation t s).capabilities = true) : exec (.negotiateAlgorithms t true) s =
    .next (spdmResponse 0x63 [freeAnswer 0x63 0, freeAnswer 0x63 1] (onNegotiation t (fun n => { n with algorithms := true }) s)) := by
  show execNegotiateAlgorithms t true s = _
  rw [execNegotiateAlgorithms, negotiated_served reached gate capabilities, if_pos rfl]

variable (algorithms : (negotiation t s).algorithms = true)
include algorithms

theorem exec_getDigests : exec (.getDigests t) s = .next (spdmResponse 0x01 [freeAnswer 0x01 0] s) := by
  show execGetDigests t s = _
  rw [execGetDigests, negotiated_served reached gate algorithms]

theorem exec_getCertificate (o n : Half) : exec (.getCertificate t 0 o n) s =
    .next (spdmResponse 0x02 ((List.range n.toNat).map fun i => freeAnswer 0x02 (o.toNat + i)) s) := by
  show execGetCertificate t 0 o n s = _
  rw [execGetCertificate, negotiated_served reached gate algorithms, if_pos rfl]

theorem exec_challenge (signs : s.sec.debug ≠ 2) : exec (.challenge t 0) s = .next (withSignature 0x03 [0] s) := by
  show execChallenge t 0 s = _
  rw [execChallenge, negotiated_served reached gate algorithms, if_neg signs, if_pos rfl]

/-- At level 2 the identity key signs nothing (R669). -/
theorem exec_challenge_locked (locked : s.sec.debug = 2) : exec (.challenge t 0) s = .next (spdmError .unspecified s) := by
  show execChallenge t 0 s = _
  rw [execChallenge, negotiated_served reached gate algorithms, if_pos locked]

theorem exec_getMeasurements_locked (locked : s.sec.debug = 2) (i : Nat) :
    exec (.getMeasurements t i true) s = .next (spdmError .unspecified s) := by
  show execGetMeasurements t i true s = _
  rw [execGetMeasurements, negotiated_served reached gate algorithms, if_pos (by simp [locked])]

theorem exec_getMeasurements {i : Nat} (low : 1 ≤ i) (high : i ≤ 5) :
    exec (.getMeasurements t i false) s = .next (spdmResponse 0x60 (i :: measurement i s) s) := by
  have one : i ≠ 0 := by omega
  show execGetMeasurements t i false s = _
  rw [execGetMeasurements, negotiated_served reached gate algorithms, if_neg (by simp)]
  simp only [one, high, Bool.false_eq_true, if_false, if_true]

end

/-- A step of the negotiation and its response. -/
theorem negotiates {c : Instr} {t : Transport} {f : Negotiation → Negotiation} {code : Nat} {data : List Nat} {s : State}
    (runs : exec c s = .next (spdmResponse code data (onNegotiation t f s))) :
    Does c s fun u => negotiation t u = f (negotiation t s) ∧ u = { s with sec := u.sec, out := u.out } := by
  refine does_of_next runs ⟨by rw [negotiation_spdmResponse, negotiation_onNegotiation], ?_⟩
  rw [onNegotiation_frame]
  rfl

/-! ### O60 -/

/-- Settles O60: the gate lets each request reach its body. -/
theorem pldmAndSpdm : Obligations.PldmAndSpdm := by
  unfold Obligations.PldmAndSpdm
  refine ⟨?pldm, ?zones, ?version, ?capabilities, ?algorithms, ?early, ?negotiated⟩
  case pldm =>
    intro s port gate
    refine ⟨?tid, ?pldmVersion, pldm_served port gate _, ?commands, ?repository, ?record, ?numeric, ?state⟩
    case tid => exact ⟨_, pldm_served port gate _, rfl⟩
    case pldmVersion => exact ⟨_, pldm_served port gate _, rfl⟩
    case commands =>
      refine fun k => ⟨_, pldm_served port gate _, ?_⟩
      by_cases base : k = 0
      · simp [base]
      · by_cases monitoring : k = 2 <;> simp [base, monitoring]
    case repository => exact ⟨_, pldm_served port gate _, rfl⟩
    case record => exact fun k => ⟨_, pldm_served port gate _, rfl⟩
    case numeric =>
      refine fun k => ⟨_, pldm_served port gate _, ?_⟩
      rw [← numericSensor_isSome k s]
      cases numericSensor k s <;> simp
    case state =>
      refine fun k => ⟨_, pldm_served port gate _, ?_⟩
      rw [← stateSensor_isSome k s]
      cases stateSensor k s <;> simp
  case zones =>
    intro z s port gate
    refine (pldm_served port gate _).trans ?_
    simp only [numericSensor_zone]
  case version =>
    intro tr s reached gate
    exact ⟨negotiates (exec_getVersion reached gate), spdm_served reached gate _⟩
  case capabilities =>
    intro tr s reached gate version
    exact negotiates (exec_getCapabilities reached gate version)
  case algorithms =>
    intro tr s reached gate capabilities
    exact negotiates (exec_negotiateAlgorithms reached gate capabilities)
  case early =>
    intro tr s reached gate early
    exact negotiated_early reached gate early _
  case negotiated =>
    intro tr o n s reached gate algorithms
    exact ⟨⟨_, exec_getDigests reached gate algorithms, rfl⟩, ⟨_, exec_getCertificate reached gate algorithms o n, rfl, by simp⟩,
      fun signs => ⟨_, exec_challenge reached gate algorithms signs, rfl⟩,
      fun locked => ⟨exec_challenge_locked reached gate algorithms locked, exec_getMeasurements_locked reached gate algorithms locked⟩,
      fun i => exec_getMeasurements reached gate algorithms⟩

end Sys2Proof.Machine
end

section
/-! PROOFS. Errors of sample memory, its scrubber and the code of a bank (R544, R547 to R549, R555, R562; O56). -/
namespace Sys2Proof.Machine
open Sys2Proof

/-! ### The list of faults -/

/-- A word shows the fault that it took last. -/
@[simp] theorem faultAt_setFault (loc : Nat) (f : WordFault) (m : Smem) : faultAt loc (setFault loc f m) = some f := by
  have before : ((m.faults.filter fun x => x.1 < loc).find? fun x => x.1 == loc) = none := by
    simp only [List.find?_eq_none, List.mem_filter, decide_eq_true_eq, beq_iff_eq, and_imp]
    omega
  simp [faultAt, setFault, List.find?_append, before]

/-! ### What a lost word touches (R549) -/

/-- Cancellers and link blocks alone lose samples with a word. -/
def Lost (s t : State) : Prop := t = { s with can := t.can, lnk := t.lnk }

theorem Lost.refl (s : State) : Lost s s := rfl

theorem Lost.trans {s t u : State} (h : Lost s t) (k : Lost t u) : Lost s u := by
  unfold Lost at *
  rw [k, h]

theorem loseContainer_lost (k : BufKey) (pos : Nat) (s : State) : Lost s (loseContainer k pos s) := by
  unfold loseContainer
  dsimp only
  repeat' split
  all_goals rfl

theorem loseWord_lost (k : BufKey) (w bytes : Nat) (s : State) : Lost s (loseWord k w bytes s) := by
  have half (lost : Prop) [Decidable lost] (pos : Nat) (s : State) : Lost s (if lost then loseContainer k pos s else s) := by
    split
    · exact loseContainer_lost ..
    · exact .refl s
  unfold loseWord
  exact (half ..).trans (half ..)

theorem poisonWord_lost (loc : Nat) (s : State) : Lost (onMem (setFault loc .poison) s) (poisonWord loc s) := by
  unfold poisonWord
  dsimp only
  split
  · exact loseWord_lost ..
  · exact .refl _

theorem poisonWord_mem (loc : Nat) (s : State) : (poisonWord loc s).mem = setFault loc .poison s.mem := by rw [poisonWord_lost, onMem_mem]

theorem poisonWord_flt (loc : Nat) (s : State) : (poisonWord loc s).flt = s.flt := by rw [poisonWord_lost, onMem_flt]

/-! ### Errors of a word (R548 to R550, R562) -/

/-- A word is uncorrectable: it takes a fault, and its bank and a source count the error. -/
structure Uncorrectable (loc : Nat) (b : Fin 48) (f : WordFault) (src : Fin 320) (s t : State) : Prop where
  fault  : faultAt loc t.mem = some f
  bank   : (t.mem.bank[b]).uncorrectable = min 255 ((s.mem.bank[b]).uncorrectable + 1)
  source : (t.flt.sources[src]).events = (s.flt.sources[src]).events + 1

/-- The count, the note and the event of an error of a word that has taken its fault. -/
theorem uncorrectable_counted {loc : Nat} {f : WordFault} {s u : State} (mem : u.mem = setFault loc f s.mem) (flt : u.flt = s.flt) (b : Fin 48)
    (src : Fin 320) (unit at' syn kind : Nat) (scrub : Bool) :
    Uncorrectable loc b f src s
      (raise src unit 0 (noteError at' syn kind scrub (countError b (fun x => { x with uncorrectable := satAdd 255 x.uncorrectable 1 }) u))) where
  fault := by
    show faultAt loc u.mem = some f
    rw [mem, faultAt_setFault]
  bank := by
    show ((upd u.mem.bank b _)[b]).uncorrectable = _
    rw [upd_get, if_pos rfl, mem]
    rfl
  source := by
    rw [raise_events]
    show (u.flt.sources[src]).events + 1 = _
    rw [flt]

theorem Uncorrectable.of_lost {loc : Nat} {b : Fin 48} {f : WordFault} {src : Fin 320} {s t u : State} (h : Uncorrectable loc b f src s t)
    (lost : Lost t u) : Uncorrectable loc b f src s u := by
  rw [lost]
  exact ⟨h.fault, h.bank, h.source⟩

section
variable {loc : Nat} {b : Fin 48} {r : Reader} {s : State}

theorem secdedFails_uncorrectable (src : Fin 320) (syn kind : Nat) :
    Uncorrectable loc b .poison src s (secdedFails src loc b syn kind r s) :=
  uncorrectable_counted (poisonWord_mem ..) (poisonWord_flt ..) ..

/-- Failed bytes of a word of a parity bank (R550). -/
theorem readWord_failedBytes {m : Nat} (parity : (s.mem.bank[b]).parity = true) (failed : m % 256 ≠ 0) (whole : r ≠ .partialWrite) :
    Uncorrectable loc b (.parity (m % 256)) 258 s (readWord loc b r (.parity m) s) := by
  have counted : Uncorrectable loc b (.parity (m % 256)) 258 s _ :=
    uncorrectable_counted (u := onMem (setFault loc (.parity (m % 256))) s) rfl rfl b 258 (target .bank b) loc (m % 256) 3 (decide (r = .scrub))
  simp only [readWord, parity, failed, whole, or_self, if_true, if_false]
  split
  · exact counted
  · split
    · exact counted.of_lost (loseWord_lost ..)
    · exact counted

section
variable (secded : (s.mem.bank[b]).parity = false)
include secded

/-- A poisoned word is only counted as read (R548). -/
theorem readWord_poisoned (poison : faultAt loc s.mem = some .poison) (e : ReadError) :
    readWord loc b r e s = countError b (fun x => { x with poisonReads := satAdd 255 x.poisonReads 1 }) s := by
  simp only [readWord, secded, poison, Bool.false_eq_true, if_true, if_false]

variable (clean : faultAt loc s.mem ≠ some .poison)
include clean

theorem readWord_single (syn : Nat) :
    readWord loc b r (.single syn) s = raise 256 (target .bank b) 0 (pulse 0x0402 (target .bank b) 1 (noteError loc syn 1 (decide (r = .scrub))
      (countError b (fun x => { x with corrected := satAdd 65535 x.corrected 1 }) s))) := by
  simp only [readWord, secded, clean, Bool.false_eq_true, if_false]

theorem readWord_uncorrectable (syn : Nat) : readWord loc b r (.uncorrectable syn) s = secdedFails 257 loc b syn 2 r s := by
  simp only [readWord, secded, clean, Bool.false_eq_true, if_false]

theorem readWord_address (syn : Nat) : readWord loc b r (.address syn) s = secdedFails 259 loc b syn 4 r s := by
  simp only [readWord, secded, clean, Bool.false_eq_true, if_false]

end

end

theorem exec_smemReadError {loc : Fin 16777216} {b : Fin 48} {r : Reader} {s : State} (found : finOf 48 (loc.val / 2 ^ 18) = some b)
    (read : readable loc (decide (r = .scrub)) s = true) (e : ReadError) : exec (.smemReadError loc r e) s = .next (readWord loc b r e s) := by
  show execSmemReadError loc r e s = _
  simp only [execSmemReadError, found, read, if_true]

/-- A word of a page that nothing has written is not checked (R547). -/
theorem exec_smemReadError_unread {loc : Fin 16777216} {r : Reader} {s : State} (unread : readable loc (decide (r = .scrub)) s = false)
    (e : ReadError) : exec (.smemReadError loc r e) s = .next s := by
  show execSmemReadError loc r e s = _
  unfold execSmemReadError
  split
  · rfl
  · exact if_neg (Bool.eq_false_iff.mp unread)

/-! ### The code of a bank (R544) -/

/-- A bank that changes its state. -/
theorem setBank_mem {b : Fin 48} {st : UnitState} {s : State} (other : (s.mem.bank[b]).state ≠ st) :
    (setBank b st s).mem = { s.mem with bank := upd s.mem.bank b fun x => { x with state := st } } := by
  rw [setBank, if_neg other, unitRecord, recordNow_frame]
  rfl

/-- The bank is zeroed in the other code. -/
def recoded (b : Fin 48) (p : Bool) (s : State) : State :=
  onMem (fun m => { m with bank := upd m.bank b fun x => { x with parity := p, recode := true } }) (setBank b .testing s)

theorem recoded_bank {b : Fin 48} {s : State} (writable : codeWritable b s = true) (p : Bool) :
    (recoded b p s).mem.bank = upd s.mem.bank b fun x => { x with state := .testing, parity := p, recode := true } := by
  have available : (s.mem.bank[b]).state ≠ .testing := by
    simp only [codeWritable, Bool.and_eq_true, beq_iff_eq] at writable
    obtain ⟨⟨available, -⟩, -⟩ := writable
    rw [available]
    nofun
  simp only [recoded, onMem_mem, setBank_mem available, upd_upd]

section
variable {b : Fin 48} {p : Bool} {s : State}

theorem exec_codeSelWrite_same (same : (s.mem.bank[b]).parity = p) : exec (.codeSelWrite b p) s = .next s := if_pos same

theorem exec_codeSelWrite_recodes (new : (s.mem.bank[b]).parity ≠ p) (writable : codeWritable b s = true) :
    exec (.codeSelWrite b p) s = .next (recoded b p s) := (if_neg new).trans (if_pos writable)

theorem exec_codeSelWrite_ignored (new : (s.mem.bank[b]).parity ≠ p) (busy : codeWritable b s = false) :
    exec (.codeSelWrite b p) s = .next (onMem (fun m => { m with codeIgnored := true }) s) := (if_neg new).trans (if_neg (Bool.eq_false_iff.mp busy))

end

/-! ### O56 -/

/-- Settles O56: each clause is one branch of a read, of the end of a pass, or of a write of the code and its end. -/
theorem sampleMemoryErrors : Obligations.SampleMemoryErrors := by
  unfold Obligations.SampleMemoryErrors
  refine ⟨?single, ?uncorrectable, fun loc r e s unread => exec_smemReadError_unread unread e, ?scrub, ?recodes,
    fun b p s => exec_codeSelWrite_ignored, ?zeroed, ?stays, ?address, ?poisoned, ?parity⟩
  case single =>
    intro loc b r syn s found read secded clean
    refine does_of_next (exec_smemReadError found read _) ?_
    rw [readWord_single secded clean]
    refine ⟨?_, rfl, fun k other => upd_other _ _ _ _ other, raise_events .., ?_⟩
    · exact congrArg Bank.corrected ((upd_get ..).trans (if_pos rfl))
    · rw [raise_frame, pulse_frame]
      rfl
  case uncorrectable =>
    intro loc b r syn s found read secded clean
    refine does_of_next (exec_smemReadError found read _) ?_
    obtain ⟨fault, bank, source⟩ := secdedFails_uncorrectable (loc := loc) (b := b) (r := r) (s := s) 257 syn 2
    rw [readWord_uncorrectable secded clean]
    exact ⟨fault, bank, source⟩
  case scrub => exact fun s => ⟨fun runs => if_pos runs, fun rests => if_neg (Bool.eq_false_iff.mp rests)⟩
  case recodes =>
    intro b p s new writable
    refine does_of_next (exec_codeSelWrite_recodes new writable) ?_
    rw [recoded_bank writable, upd_get, if_pos rfl]
    refine ⟨rfl, rfl, rfl, fun k other => upd_other _ _ _ _ other, ?_⟩
    show (setBank b .testing s).slices = s.slices
    rw [setBank_frame]
  case zeroed =>
    intro b s recode
    show execCodeSelZeroDone b s = _
    rw [execCodeSelZeroDone, if_pos recode]
    rfl
  case stays => exact fun b p s => ⟨exec_codeSelWrite_same, fun done => if_neg (Bool.eq_false_iff.mp done)⟩
  case address =>
    intro loc b r syn s found read secded clean
    refine does_of_next (exec_smemReadError found read _) ?_
    obtain ⟨fault, bank, source⟩ := secdedFails_uncorrectable (loc := loc) (b := b) (r := r) (s := s) 259 syn 4
    rw [readWord_address secded clean]
    exact ⟨fault, bank, source⟩
  case poisoned =>
    intro loc b r e s found read secded poison
    rw [exec_smemReadError found read, readWord_poisoned secded poison]
    rfl
  case parity =>
    intro loc b r m s found read parity failed whole
    refine does_of_next (exec_smemReadError found read _) ?_
    obtain ⟨fault, bank, source⟩ := readWord_failedBytes (loc := loc) parity failed whole
    exact ⟨fault, bank, source⟩

end Sys2Proof.Machine
end

section
/-! PROOFS. Passes of the monitor converters and their entries (R512 to R517, R534; O45). -/
namespace Sys2Proof.Machine
open Sys2Proof

/-! ### A change of one converter -/

theorem onConv_self (c : Fin 8) (f : Converter → Converter) (s : State) : (onConv c f s).mon.conv[c] = f s.mon.conv[c] := upd_self ..

theorem onConv_other {c k : Fin 8} (h : k ≠ c) (f : Converter → Converter) (s : State) : (onConv c f s).mon.conv[k] = s.mon.conv[k] :=
  upd_other _ _ _ _ h

theorem onConv_onConv (c : Fin 8) (f g : Converter → Converter) (s : State) : onConv c g (onConv c f s) = onConv c (fun x => g (f x)) s := by
  simp only [onConv, onMon, upd_upd]

/-- Two changes that agree on the converter. -/
theorem onConv_congr {c : Fin 8} {f g : Converter → Converter} {s : State} (h : f s.mon.conv[c] = g s.mon.conv[c]) :
    onConv c f s = onConv c g s := by
  have same : upd s.mon.conv c f = upd s.mon.conv c g := upd_congr h
  simp only [onConv, onMon, same]

/-! ### A pass starts (R516, R534) -/

section
variable {c : Fin 8} {s : State}

theorem startPass_plain (h : (s.mon.conv[c]).next = none) : startPass c s = onConv c (fun x => { x with running := true }) s := by
  simp only [startPass, h]

theorem startPass_enters {cfg : ConvCfg} {iss : Option Issue} (h : (s.mon.conv[c]).next = some (cfg, iss)) :
    startPass c s = completeOpt iss .ok (onConv c (fun x => { takeConvEntry cfg x with running := decide (cfg.mode = .scan), next := none }) s) := by
  simp only [startPass, h]

/-- With no trigger held a converter stays as it is. -/
theorem resumeConv_none (h : (s.mon.conv[c]).pending = false) : resumeConv c s = s := by
  simp only [resumeConv, h, Bool.false_and, Bool.false_eq_true, if_false]

/-! ### Triggers (R516, R517) -/

theorem discardTrigger_events (c : Fin 8) (s : State) :
    ((discardTrigger c s).flt.sources[(250 : Fin 320)]).events = (s.flt.sources[(250 : Fin 320)]).events + 1 :=
  raise_events ..

/-- A trigger of a converter that runs no passes does nothing. -/
theorem exec_passTrigger_idle (h : (s.mon.conv[c]).cfg.mode ≠ .scan ∨ madcRetired c s = true) : exec (.passTrigger c) s = .next s :=
  if_pos (by simpa using h)

variable (scans : (s.mon.conv[c]).cfg.mode = .scan) (serves : madcRetired c s = false)
include scans serves

/-- What the trigger of a SCAN converter in service does. -/
theorem exec_passTrigger :
    exec (.passTrigger c) s =
      if (!convBusy c s) = true then .next (startPass c s)
      else if (s.mon.conv[c]).cfg.policy = 1 then .next (discardTrigger c s)
      else if ((s.mon.conv[c]).cfg.policy = 2 && (s.mon.conv[c]).running && !madcTesting c s && !measuring c s) = true then
        .next (startPass c (onConv c (fun x => { x with lastAborted := true, restarts := satAdd 65535 x.restarts 1 }) s))
      else if (s.mon.conv[c]).pending = true then .next (discardTrigger c s)
      else .next (onConv c (fun x => { x with pending := true }) s) := by
  have passes : ¬ (decide ((s.mon.conv[c]).cfg.mode ≠ .scan) || madcRetired c s) = true := by rw [scans, serves]; decide
  exact if_neg passes

theorem exec_passTrigger_free (free : convBusy c s = false) : exec (.passTrigger c) s = .next (startPass c s) := by
  rw [exec_passTrigger scans serves, free]
  rfl

theorem exec_passTrigger_discards (busy : convBusy c s = true) (policy : (s.mon.conv[c]).cfg.policy = 1) :
    exec (.passTrigger c) s = .next (discardTrigger c s) := by
  rw [exec_passTrigger scans serves, busy, policy]
  rfl

/-- With policy 2 the running pass starts anew (R517). -/
theorem exec_passTrigger_restarts (runs : (s.mon.conv[c]).running = true) (untested : madcTesting c s = false) (unmeasured : measuring c s = false)
    (policy : (s.mon.conv[c]).cfg.policy = 2) :
    exec (.passTrigger c) s =
      .next (startPass c (onConv c (fun x => { x with lastAborted := true, restarts := satAdd 65535 x.restarts 1 }) s)) := by
  have busy : convBusy c s = true := by simp only [convBusy, runs, Bool.true_or]
  rw [exec_passTrigger scans serves, busy, policy, runs, untested, unmeasured]
  rfl

/-- With policy 0 a trigger is held, and discarded when one is held already (R517). -/
theorem exec_passTrigger_holds (busy : convBusy c s = true) (policy : (s.mon.conv[c]).cfg.policy = 0) :
    exec (.passTrigger c) s =
      if (s.mon.conv[c]).pending = true then .next (discardTrigger c s) else .next (onConv c (fun x => { x with pending := true }) s) := by
  rw [exec_passTrigger scans serves, busy, policy]
  rfl

end

/-! ### A pass ends (R512, R515) -/

/-- What a published result makes of its input (R512). -/
theorem publish_self (n : Fin 128) (average : Nat) (s : State) :
    (publish n average s).mon.sense[n] = { s.mon.sense[n] with
      value := calibrated n s.mon.sense[n] average, raw := unsigned 14 (roundEven average 4)
      updates := (s.mon.sense[n]).updates + 1, stream := false } :=
  upd_self ..

/-- A pass of one step publishes one result. -/
theorem exec_passComplete_one {c : Fin 8} {st : ConvStep} {a : Nat} {s : State} (runs : (s.mon.conv[c]).running = true)
    (ready : refWait s.mon.conv[c] = false) (untested : madcTesting c s = false) (unmeasured : measuring c s = false)
    (steps : (s.mon.conv[c]).cfg.steps = [st]) (none' : (s.mon.conv[c]).pending = false) :
    exec (.passComplete c [a]) s = .next (onConv c (fun x => { x with running := false })
      (conversions c (st.settle + 2 ^ st.avg) (publish (senseIdx c st.input) a s))) := by
  have goes : ¬ (!(s.mon.conv[c]).running || refWait s.mon.conv[c] || madcTesting c s || measuring c s) = true := by
    rw [runs, ready, untested, unmeasured]
    decide
  refine (if_neg goes).trans (congrArg _ ?_)
  rw [steps]
  refine (resumeConv_none ?_).trans ?_
  · exact (congrArg Converter.pending (onConv_self ..)).trans none'
  · simp

/-! ### MON_SEQ_SET (R534) -/

section
variable {d : Desc} {c : Fin 8} {bs : List Byte} {s : State} (runs : Runs 0x30 d s) (fields : monSeqCheck d = none) (named : d.unit .madc 8 = some c)
  (bytes : d.bytes = some bs)
include runs fields named bytes

theorem exec_monSeqSet {cfg : ConvCfg} (legal : convOf bs = some (c, cfg)) (host : ownedByOther 0x06 c s = false) :
    exec (.monSeqSet d) s = .next (installEntry c cfg (issueOf 0x30 d s) (startCommand d s)) := by
  have host' : ownedByOther 0x06 c (startCommand d s) = false := host
  show execMonSeqSet d s = _
  simp only [execMonSeqSet, hostCommand_runs runs, fields, named, bytes, legal, host', ne_eq, not_true_eq_false, Bool.false_eq_true, if_false]

theorem exec_monSeqSet_illegal (illegal : ∀ cfg : ConvCfg, convOf bs ≠ some (c, cfg)) :
    exec (.monSeqSet d) s = .next (refuse (issueOf 0x30 d s) (badParam 0xFFFF) (startCommand d s)) := by
  show execMonSeqSet d s = _
  simp only [execMonSeqSet, hostCommand_runs runs, fields, named, bytes]
  split
  · rfl
  · next e cfg found =>
    have other : e ≠ c := by
      rintro rfl
      exact illegal cfg found
    rw [if_pos other]

end

section
variable {c : Fin 8} {cfg : ConvCfg} {iss : Issue} {s : State} (free : (s.mon.conv[c]).next = none)
include free

/-- Between two entries of SCAN the new one waits for the next pass. -/
theorem installEntry_waits (old : (s.mon.conv[c]).cfg.mode = .scan) (new : cfg.mode = .scan) :
    installEntry c cfg iss s = onConv c (fun x => { x with next := some (cfg, some iss) }) (addClaim 0x06 c s) := by
  simp only [installEntry, free, old, new, and_self, if_true]

theorem installEntry_enters (leaves : (s.mon.conv[c]).cfg.mode ≠ .scan ∨ cfg.mode ≠ .scan) :
    installEntry c cfg iss s = complete iss .ok (onConv c (takeConvEntry cfg) (addClaim 0x06 c s)) := by
  have notBoth : ¬ ((s.mon.conv[c]).cfg.mode = .scan ∧ cfg.mode = .scan) := fun ⟨old, new⟩ => leaves.elim (· old) (· new)
  simp only [installEntry, free, if_neg notBoth]

end

theorem addClaim_frame (cls idx : Nat) (s : State) : addClaim cls idx s = { s with cfg := (addClaim cls idx s).cfg } := by
  unfold addClaim
  split <;> rfl

theorem addClaim_mon (cls idx : Nat) (s : State) : (addClaim cls idx s).mon = s.mon := by rw [addClaim_frame]

/-! ### The reference (R513) -/

theorem exec_refReady {c : Fin 8} {s : State} (on : refOn s.mon.conv[c] = true) (none' : (s.mon.conv[c]).pending = false) :
    exec (.refReady c) s = .next (onConv c (fun x => { x with refReady := true }) s) := by
  have stored : onConv c (fun x => if refOn x then { x with refReady := true } else x) s = onConv c (fun x => { x with refReady := true }) s :=
    onConv_congr (if_pos on)
  show execRefReady c s = _
  rw [execRefReady, stored, resumeConv_none ((congrArg Converter.pending (onConv_self ..)).trans none')]

/-! ### O45 -/

/-- Settles O45: each clause is one branch of a trigger, of the end of a pass, or of the arrival of an entry or of the reference. -/
theorem converterPasses : Obligations.ConverterPasses := by
  unfold Obligations.ConverterPasses
  refine ⟨?starts, ?discards, ?publishes, ?waits, ?enters, ?ready, ?takes, ?restarts, ?holds, fun c s => exec_passTrigger_idle,
    fun d c bs s => exec_monSeqSet_illegal, ?installs⟩
  case starts =>
    intro c s scans serves free plain
    refine does_of_next (exec_passTrigger_free scans serves free) ?_
    rw [startPass_plain plain]
    exact ⟨onConv_self .., fun k other => onConv_other other .., rfl⟩
  case discards =>
    intro c s scans serves busy policy
    refine does_of_next (exec_passTrigger_discards scans serves busy policy) ?_
    exact ⟨onConv_self .., discardTrigger_events .., rfl⟩
  case publishes =>
    intro c st a s runs ready untested unmeasured steps none'
    refine does_of_next (exec_passComplete_one runs ready untested unmeasured steps none') ?_
    have result := publish_self (senseIdx c st.input) a s
    exact ⟨congrArg Sense.value result, congrArg Sense.updates result, congrArg Converter.running (onConv_self ..),
      fun n other => upd_other _ _ _ _ other, rfl⟩
  case waits =>
    intro d c bs cfg s runs fields named bytes legal host free old new
    refine does_of_next (exec_monSeqSet runs fields named bytes legal host) ?_
    have mon : (addClaim 0x06 c (startCommand d s)).mon = s.mon := addClaim_mon ..
    rw [installEntry_waits (s := startCommand d s) free old new]
    generalize addClaim 0x06 c (startCommand d s) = u at mon ⊢
    rw [← mon]
    exact ⟨onConv_self .., fun k other => onConv_other other .., rfl⟩
  case enters =>
    intro d c bs cfg s runs fields named bytes legal host free leaves
    rw [exec_monSeqSet runs fields named bytes legal host, installEntry_enters (s := startCommand d s) free leaves]
  case ready =>
    intro c s on none'
    refine does_of_next (exec_refReady on none') ?_
    exact ⟨onConv_self .., fun k other => onConv_other other .., rfl⟩
  case takes =>
    intro c cfg iss s scans serves free next
    refine does_of_next (exec_passTrigger_free scans serves free) ?_
    rw [startPass_enters next, completeOpt_answered]
    exact ⟨onConv_self .., fun k other => onConv_other other .., rfl, rfl⟩
  case restarts =>
    intro c s scans serves runs untested unmeasured plain policy
    refine does_of_next (exec_passTrigger_restarts scans serves runs untested unmeasured policy) ?_
    rw [startPass_plain ((congrArg Converter.next (onConv_self ..)).trans plain), onConv_onConv]
    exact ⟨onConv_self .., fun k other => onConv_other other .., rfl⟩
  case holds =>
    intro c s scans serves busy policy
    have runs := exec_passTrigger_holds scans serves busy policy
    cases held : (s.mon.conv[c]).pending with
    | true =>
      refine does_of_next (runs.trans (if_pos held)) ⟨?_, fun k other => onConv_other other .., rfl⟩
      exact onConv_self ..
    | false =>
      refine does_of_next (runs.trans (if_neg (Bool.eq_false_iff.mp held))) ⟨?_, fun k other => onConv_other other .., rfl⟩
      exact ⟨onConv_self .., rfl⟩
  case installs =>
    intro d c bs cfg s runs fields named bytes legal host
    exact exec_monSeqSet runs fields named bytes legal host

end Sys2Proof.Machine
end

section
/-! PROOFS. Power, the reset ball and the reference (R94, R118, R646, R673 to R682; O7). -/
namespace Sys2Proof.Machine
open Sys2Proof

/-! ### What answering a command leaves of the host interface -/

/-- The era of every ring pair, and PERST_L. -/
def erasAndPerst (h : Hif) : Vector Nat 64 × Bool := (h.rings.map Ring.era, h.perstLow)

theorem onRing_eras {f : Ring → Ring} (h : ∀ x, (f x).era = x.era) (r : RingId) (s : State) :
    erasAndPerst (onRing r f s).hif = erasAndPerst s.hif := Prod.ext (map_upd h) rfl

theorem signalVector_eras (fn : Fn) (v : Fin 64) (s : State) : erasAndPerst (signalVector fn v s).hif = erasAndPerst s.hif := by
  unfold signalVector
  dsimp only
  split <;> rfl

theorem countEntry_eras (fn : Fn) (v : Nat) (now : Bool) (s : State) : erasAndPerst (countEntry fn v now s).hif = erasAndPerst s.hif := by
  unfold countEntry
  split
  · rfl
  · dsimp only
    split
    · exact signalVector_eras ..
    · rfl

theorem writeBack_eras (r : RingId) (s : State) : erasAndPerst (writeBack r s).hif = erasAndPerst s.hif := by
  unfold writeBack
  dsimp only
  split
  · rfl
  · split
    · exact onRing_eras (f := fun x => { x with wbDue := false, wbAt := some s.time.mono }) (fun _ => rfl) ..
    · exact onRing_eras (f := fun x => { x with wbDue := true }) (fun _ => rfl) ..

theorem putMarker_eras (r : RingId) (hi : Nat) (s : State) : erasAndPerst (putMarker r hi s).hif = erasAndPerst s.hif :=
  onRing_eras (f := fun x => { takeSlot x with marker := some (s.time.epoch, hi) }) (fun _ => rfl) ..

theorem writeCompletion_eras (iss : Issue) (st : Status) (seq stamp : Nat) (s : State) :
    erasAndPerst (writeCompletion iss st seq stamp s).hif = erasAndPerst s.hif := by
  have entry (s : State) : erasAndPerst (writeEntry iss st seq stamp s).hif = erasAndPerst s.hif :=
    (countEntry_eras ..).trans ((writeBack_eras ..).trans (onRing_eras (f := takeSlot) (fun _ => rfl) ..))
  by_cases marked : (s.hif.rings[iss.ring]).marker = some (s.time.epoch, seq / 2 ^ 32)
  · rw [writeCompletion_marked marked, entry]
  · rw [writeCompletion_unmarked marked, entry]
    exact putMarker_eras ..

theorem completeAt_eras (stamp : Nat) (iss : Issue) (r : Refuse) (s : State) :
    erasAndPerst (completeAt stamp iss r s).hif = erasAndPerst s.hif := by
  have flight (s : State) : erasAndPerst (leaveFlight iss s).hif = erasAndPerst s.hif := onRing_eras (fun x => by split <;> rfl) ..
  have written (b : Bool) (seq : Nat) (s : State) :
      erasAndPerst (if b then writeCompletion iss r.status seq stamp s else s).hif = erasAndPerst s.hif := by
    split
    · exact writeCompletion_eras ..
    · rfl
  unfold completeAt
  dsimp only
  split
  · rw [written, flight]
  · rw [record_frame]
    exact (written ..).trans (flight _)

/-! ### What a cold reset takes along (R95, R102, R103, R208) -/

/-- What ending the RADIO_STATEs in progress touches: answers, and the tiles; no ring pair's era and not PERST_L. -/
structure RadioStatesEnd (s t : State) : Prop where
  frame : t = { s with hif := t.hif, evr := t.evr, pmc := t.pmc, out := t.out, tiles := t.tiles }
  eras  : erasAndPerst t.hif = erasAndPerst s.hif

theorem RadioStatesEnd.refl (s : State) : RadioStatesEnd s s := ⟨rfl, rfl⟩

theorem RadioStatesEnd.trans {s t u : State} (h : RadioStatesEnd s t) (k : RadioStatesEnd t u) : RadioStatesEnd s u where
  frame := by
    have hf := h.frame
    have kf := k.frame
    rw [kf, hf]
  eras := k.eras.trans h.eras

theorem complete_radioStatesEnd (i : Issue) (st : Status) (s : State) : RadioStatesEnd s (complete i st s) where
  frame := by
    have answered := complete_answered i st s
    unfold Answered at answered
    rw [answered]
  eras := completeAt_eras ..

theorem completeOpt_radioStatesEnd (i : Option Issue) (st : Status) (s : State) : RadioStatesEnd s (completeOpt i st s) := by
  cases i with
  | none => exact .refl s
  | some i => exact complete_radioStatesEnd i st s

theorem onTile_radioStatesEnd (t : Fin 4) (f : Tile → Tile) (s : State) : RadioStatesEnd s (onTile t f s) := ⟨rfl, rfl⟩

theorem endRequest_radioStatesEnd (u : RadioUnit) (st : Status) (s : State) : RadioStatesEnd s (endRequest u st s) := by
  unfold endRequest dropIssue
  split
  · refine RadioStatesEnd.trans ?_ (complete_radioStatesEnd ..)
    cases u <;> exact ⟨rfl, rfl⟩
  · exact .refl s

theorem dropRadioStates_ends (s : State) : RadioStatesEnd s (dropRadioStates s) := by
  unfold dropRadioStates
  refine .trans (foldl_keeps _ .refl .trans _ (fun s p => ?_) (indices 32) s) (foldl_keeps _ .refl .trans _ (fun s t => ?_) (indices 4) _)
  · exact (endRequest_radioStatesEnd ..).trans (endRequest_radioStatesEnd ..)
  · exact .trans (onTile_radioStatesEnd ..) (completeOpt_radioStatesEnd ..)

theorem RadioStatesEnd.perstLow {s t : State} (h : RadioStatesEnd s t) : t.hif.perstLow = s.hif.perstLow := congrArg Prod.snd h.eras

theorem RadioStatesEnd.era {s t : State} (h : RadioStatesEnd s t) (r : RingId) : (t.hif.rings[r]).era = (s.hif.rings[r]).era := by
  have eras : t.hif.rings.map Ring.era = s.hif.rings.map Ring.era := congrArg Prod.fst h.eras
  simpa using congrArg (fun v : Vector Nat 64 => v[r]) eras

/-- A cold reset: of what stands in the flash, in the firmware slots and at the pins, the end of the RADIO_STATEs takes nothing. -/
theorem coldReset_eq (s : State) :
    coldReset s = { State.reset with
      pending := s.pending, out := (dropRadioStates s).out, free := s.free, flash := flashKept s, fec := pinsKept s.fec false frontEndReset
      hif := { hifReset with
        perstLow := s.hif.perstLow, rings := (dropRadioStates s).hif.rings.map fun x => { ringReset with era := x.era + 1 } }
      sec := { securityReset with
        owner := s.sec.owner, minSvn := s.sec.minSvn, fw := firmwareKept s, addr := s.sec.addr, nonces := s.sec.nonces } } := by
  unfold coldReset
  dsimp only
  rw [(dropRadioStates_ends s).perstLow]
  have frame := (dropRadioStates_ends s).frame
  generalize dropRadioStates s = t at frame ⊢
  rw [frame]
  rfl

/-- The era of every ring pair goes on by one. -/
theorem coldReset_ring (s : State) (r : RingId) :
    (coldReset s).hif.rings[r] = { ringReset with era := (s.hif.rings[r]).era + 1 } := by
  rw [coldReset_eq]
  have era := (dropRadioStates_ends s).era r
  generalize dropRadioStates s = t at era ⊢
  simp only [Fin.getElem_fin, Vector.getElem_map]
  exact congrArg (fun e => { ringReset with era := e + 1 }) era

/-! ### O7 -/

/-- Settles O7: the two resets by `coldReset_eq`, and the other events by their guards. -/
theorem powerAndReset : Obligations.PowerAndReset := by
  unfold Obligations.PowerAndReset
  refine ⟨?good, ?fail, ?ball, ?reference, ?lost, ?held, ?off⟩
  case good =>
    intro straps sel s held
    exact does_of_next (if_pos held) rfl
  case fail =>
    intro s
    refine does_of_next rfl ⟨?_, coldReset_ring s⟩
    simp only [onBoot, coldReset_eq s]
    generalize dropRadioStates s = t
    rfl
  case ball =>
    intro straps sel s
    refine does_of_next rfl ⟨?_, coldReset_ring s⟩
    simp only [onBoot, onSec, coldReset_eq s]
    generalize dropRadioStates s = t
    cases s.boot.heldBy <;> rfl
  case reference =>
    intro hz s good free stage ok
    refine does_of_next (if_pos ?_) rfl
    simp [good, free, stage, ok]
  case lost =>
    intro s past
    refine does_of_next (if_pos past) ⟨raise_events .., rfl, fun i other => raise_other _ _ _ _ _ other, rfl⟩
  case held =>
    intro straps sel s held
    exact if_neg held
  case off =>
    intro hz s outside
    refine if_neg ?_
    simp [outside]

end Sys2Proof.Machine
end

section
/-! PROOFS. The halt path (R354 to R356): what setting and releasing a halt source may touch, which sources are active then, and what an asserted halt
path does to the outputs. -/
namespace Sys2Proof.Machine
open Sys2Proof

/-! ### What a halt source touches -/

/-- The parts of the state that a change of the halt path may touch. -/
def HaltWork (s t : State) : Prop :=
  t = { s with nps := t.nps, evr := t.evr, pmc := t.pmc, flt := t.flt, fec := t.fec, tiles := t.tiles, out := t.out }

theorem HaltWork.refl (s : State) : HaltWork s s := rfl

theorem HaltWork.trans {s t u : State} (h : HaltWork s t) (k : HaltWork t u) : HaltWork s u := by
  unfold HaltWork at *
  rw [k, h]

theorem recordNow_haltWork (p : Payload) (s : State) : HaltWork s (recordNow p s) := by
  unfold HaltWork
  rw [recordNow_frame]

theorem setCond_haltWork (src : Fin 320) (b : Bool) (u d : Nat) (s : State) : HaltWork s (setCond src b u d s) := rfl

theorem onNps_haltWork (f : Protect → Protect) (s : State) : HaltWork s (onNps f s) := rfl

theorem settle_haltWork (s : State) : HaltWork s (settle s) := by
  unfold HaltWork
  rw [settle_frame]

theorem HaltWork.time {s t : State} (h : HaltWork s t) : t.time = s.time := by rw [h]
theorem HaltWork.boot {s t : State} (h : HaltWork s t) : t.boot = s.boot := by rw [h]
theorem HaltWork.slices {s t : State} (h : HaltWork s t) : t.slices = s.slices := by rw [h]
theorem HaltWork.sec {s t : State} (h : HaltWork s t) : t.sec = s.sec := by rw [h]
theorem HaltWork.thm {s t : State} (h : HaltWork s t) : t.thm = s.thm := by rw [h]
theorem HaltWork.cfg {s t : State} (h : HaltWork s t) : t.cfg = s.cfg := by rw [h]

theorem setHalt_haltWork (k : HaltCause) (s : State) : HaltWork s (setHalt k s) := by
  unfold setHalt
  split
  · exact .refl s
  · exact (((onNps_haltWork ..).trans (recordNow_haltWork ..)).trans (setCond_haltWork ..)).trans (settle_haltWork _)

/-- The state in which the release of a source asks whether another one is active. -/
def sourceReleased (k : HaltCause) (s : State) : State := notify 140 0 0 (protRecord (haltCode k) 1 0xFF 0 0 (onNps (setHaltOf k false) s))

/-- The release of an active source ends error 138 with the last one. -/
theorem clearHalt_active {k : HaltCause} {s : State} (active : haltOf s.nps k = true) :
    clearHalt k s =
      settle (if haltAsserted (sourceReleased k s) then sourceReleased k s else setCond 138 false 0 0 (sourceReleased k s)) := if_pos active

theorem clearHalt_idle {k : HaltCause} {s : State} (idle : haltOf s.nps k = false) : clearHalt k s = s :=
  if_neg (Bool.eq_false_iff.mp idle)

theorem sourceReleased_haltWork (k : HaltCause) (s : State) : HaltWork s (sourceReleased k s) :=
  ((onNps_haltWork ..).trans (recordNow_haltWork ..)).trans (recordNow_haltWork ..)

theorem clearHalt_haltWork (k : HaltCause) (s : State) : HaltWork s (clearHalt k s) := by
  cases active : haltOf s.nps k with
  | false => rw [clearHalt_idle active]; exact .refl s
  | true =>
    rw [clearHalt_active active]
    refine (sourceReleased_haltWork k s).trans (.trans ?_ (settle_haltWork _))
    split
    · exact .refl _
    · exact setCond_haltWork ..

/-! ### Which halt sources are active -/

@[simp] theorem settle_nps (s : State) : (settle s).nps = s.nps := by rw [settle_frame]

@[simp] theorem recordNow_nps (p : Payload) (s : State) : (recordNow p s).nps = s.nps := by rw [recordNow_frame]

@[simp] theorem protRecord_nps (cause action path tgt : Nat) (value : Int) (s : State) : (protRecord cause action path tgt value s).nps = s.nps :=
  recordNow_nps ..

@[simp] theorem notify_nps (src u d : Nat) (s : State) : (notify src u d s).nps = s.nps := recordNow_nps ..

@[simp] theorem recordNow_flt (p : Payload) (s : State) : (recordNow p s).flt = s.flt := by rw [recordNow_frame]

@[simp] theorem protRecord_flt (cause action path tgt : Nat) (value : Int) (s : State) : (protRecord cause action path tgt value s).flt = s.flt :=
  recordNow_flt ..

/-- A source that is not active yet is set, with the instant. -/
theorem setHalt_nps {k : HaltCause} {s : State} (idle : haltOf s.nps k = false) :
    (setHalt k s).nps = { setHaltOf k true s.nps with haltTime := s.stamp } := by
  rw [setHalt, if_neg (Bool.eq_false_iff.mp idle)]
  exact (settle_nps _).trans (protRecord_nps ..)

theorem haltOf_haltTime (n : Protect) (t : Nat) (j : HaltCause) : haltOf { n with haltTime := t } j = haltOf n j := by cases j <;> rfl

theorem haltOf_setHalt (k j : HaltCause) (s : State) : haltOf (setHalt k s).nps j = if j = k then true else haltOf s.nps j := by
  cases active : haltOf s.nps k with
  | false => rw [setHalt_nps active, haltOf_haltTime, haltOf_set]
  | true =>
    rw [setHalt, if_pos active]
    split
    · next same => rw [same, active]
    · rfl

theorem sourceReleased_nps (k : HaltCause) (s : State) : (sourceReleased k s).nps = setHaltOf k false s.nps :=
  (notify_nps ..).trans (protRecord_nps ..)

theorem sourceReleased_flt (k : HaltCause) (s : State) : (sourceReleased k s).flt = s.flt := (notify_flt ..).trans (protRecord_flt ..)

theorem clearHalt_nps {k : HaltCause} {s : State} (active : haltOf s.nps k = true) : (clearHalt k s).nps = setHaltOf k false s.nps := by
  rw [clearHalt_active active, settle_nps, ← sourceReleased_nps]
  rw [apply_ite State.nps, setCond_nps, ite_self]

theorem haltOf_clearHalt (k j : HaltCause) (s : State) : haltOf (clearHalt k s).nps j = if j = k then false else haltOf s.nps j := by
  cases active : haltOf s.nps k with
  | true => rw [clearHalt_nps active, haltOf_set]
  | false =>
    rw [clearHalt_idle active]
    split
    · next same => rw [same, active]
    · rfl

/-- The halt path is asserted while any halt source is active. -/
theorem haltAsserted_of_haltOf {k : HaltCause} {s : State} (active : haltOf s.nps k = true) : haltAsserted s = true := by
  cases k <;> simp_all [haltAsserted, haltOf]

theorem haltAsserted_of_nps {s t : State} (h : t.nps = s.nps) : haltAsserted t = haltAsserted s := by simp only [haltAsserted, h]

/-! ### What an asserted halt path does to the outputs -/

/-- A halted drive neither goes up nor keeps a level. -/
theorem driveStep_halted_off (m : Fin 32) (gated : Bool) (d : Drive) (s : State) : outputOf s.time.mono (driveStep m gated true d s) = .off := by
  rw [outputOf_off_iff]
  simp only [driveStep, Bool.not_true, Bool.and_false, Bool.not_false, if_true]
  split
  · simp [rampAt]
  · next rests => exact Bool.eq_false_iff.mpr rests

theorem settle_halted_output {s : State} (halted : haltAsserted s = true) (m : Fin 32) : ((settle s).tiles.tx[m.val]).output = .off := by
  rw [settle_tx]
  simp only [driveTx, halted]
  exact driveStep_halted_off ..

/-- TXEN and PAEN are strobes 0 and 3. -/
theorem strobeLevel_halted {s : State} (halted : haltAsserted s = true) (n : Fin 16) {i : Fin 4} (gates : i = 0 ∨ i = 3) :
    strobeLevel n i s = false := by
  have tx : (i.val == 0 || i.val == 3) = true := by rcases gates with rfl | rfl <;> rfl
  simp only [strobeLevel, tx, halted, Bool.true_or, Bool.and_self, if_true]

theorem settle_halted_strobe {s : State} (halted : haltAsserted s = true) (n : Fin 16) {i : Fin 4} (gates : i = 0 ∨ i = 3) :
    (((settle s).fec.fems[n.val]).strobes[i.val]).asserted = false := by
  have same : (beforeFems s).nps = s.nps := by rw [beforeFems_levelled]
  rw [settle_fem, driveFem_strobe]
  exact strobeLevel_halted ((haltAsserted_of_nps same).trans halted) n gates

end Sys2Proof.Machine
end

section
/-! PROOFS. PROTECT_HALT and PROTECT_CLEAR (R335, R354 to R360; O43). -/
namespace Sys2Proof.Machine
open Sys2Proof

/-! ### The halt path is asserted and released (R354, R355) -/

/-- A source that was not active puts every output off and deasserts TXEN and PAEN, and error 138 holds. -/
theorem setHalt_idle {k : HaltCause} {s : State} (idle : haltOf s.nps k = false) :
    setHalt k s = settle (setCond 138 true 0 0 (protRecord (haltCode k) 0 0xFF 0 0
      (onNps (fun n => { setHaltOf k true n with haltTime := s.stamp }) s))) := if_neg (Bool.eq_false_iff.mp idle)

section
variable {k : HaltCause} {s : State} (idle : haltOf s.nps k = false)
include idle

/-- The halt path is asserted before the outputs are brought up to date. -/
theorem setHalt_settles : ∃ u : State, setHalt k s = settle u ∧ haltAsserted u = true ∧ (u.flt.sources[(138 : Fin 320)]).cond = true := by
  refine ⟨_, setHalt_idle idle, ?_, setCond_cond ..⟩
  refine haltAsserted_of_haltOf (k := k) ?_
  rw [setCond_nps, protRecord_nps, onNps_nps, haltOf_haltTime, haltOf_set, if_pos rfl]

theorem setHalt_output (m : Fin 32) : ((setHalt k s).tiles.tx[m]).output = .off := by
  obtain ⟨u, set, halted, -⟩ := setHalt_settles idle
  rw [set]
  exact settle_halted_output halted m

theorem setHalt_strobe (n : Fin 16) {i : Fin 4} (gates : i = 0 ∨ i = 3) :
    (((setHalt k s).fec.fems[n]).strobes[i]).asserted = false := by
  obtain ⟨u, set, halted, -⟩ := setHalt_settles idle
  rw [set]
  exact settle_halted_strobe halted n gates

theorem setHalt_cond : ((setHalt k s).flt.sources[(138 : Fin 320)]).cond = true := by
  obtain ⟨u, set, -, holds⟩ := setHalt_settles idle
  rw [set, settle_flt]
  exact holds

end

/-- Error 138 holds until the last source is released. -/
theorem clearHalt_cond {k : HaltCause} {s : State} (active : haltOf s.nps k = true) :
    ((clearHalt k s).flt.sources[(138 : Fin 320)]).cond = (haltAsserted (clearHalt k s) && (s.flt.sources[(138 : Fin 320)]).cond) := by
  have asserted : haltAsserted (clearHalt k s) = haltAsserted (sourceReleased k s) :=
    haltAsserted_of_nps ((clearHalt_nps active).trans (sourceReleased_nps k s).symm)
  rw [asserted, clearHalt_active active, settle_flt]
  cases haltAsserted (sourceReleased k s) with
  | true => rw [if_pos rfl, Bool.true_and, sourceReleased_flt]
  | false =>
    rw [if_neg Bool.false_ne_true, Bool.false_and]
    exact setCond_cond ..

/-! ### PROTECT_HALT (R358) -/

/-- A PROTECT_HALT with valid parameters sets the host's source or releases it, and completes OK. -/
theorem exec_protectHalt {d : Desc} {s : State} (runs : Runs 0x21 d s) (direct : d.indirect = false) (tgt : d.tgt = 0) (on : d.u 12 1 ≤ 1)
    (stray : firstFail [d.strayCheck [(12, 1)]] = none) :
    exec (.protectHalt d) s = .next (complete (issueOf 0x21 d s) .ok
      (if d.u 12 1 = 1 then setHalt .host (startCommand d s) else clearHalt .host (startCommand d s))) := by
  have checks : firstFail [(d.indirect, badParam 1), (d.tgt != 0, badParam 8), (decide (1 < d.u 12 1), badParam 12), d.strayCheck [(12, 1)]]
      = none := by
    rw [firstFail_none_iff] at stray ⊢
    simp_all
  show execProtectHalt d s = _
  rw [execProtectHalt, hostCommand_runs runs, checks]

/-! ### PROTECT_CLEAR (R359, R360) -/

/-- The answer to a PROTECT_CLEAR: STILL_ACTIVE when a cause persists. -/
def clearAnswer (d : Desc) (s : State) (r : Bool × State) : State :=
  if r.1 then refuse (issueOf 0x20 d s) (refuseTarget .stillActive d.tgt) r.2 else complete (issueOf 0x20 d s) .ok r.2

/-- The paths that a PROTECT_CLEAR names. -/
def clearedPaths (d : Desc) : List PathId := if d.u 14 1 = 1 then [.a] else if d.u 14 1 = 2 then [.b] else [.a, .b]

section
variable {d : Desc} {s : State} (runs : Runs 0x20 d s) (direct : d.indirect = false) (causes : d.u 12 2 ≠ 0) (path : d.u 14 1 ≤ 2)
  (stray : firstFail [d.strayCheck [(12, 3)]] = none)
include direct causes path stray

theorem clearFields_valid {c : TargetClass} (legal : clearable c (d.u 12 2) = true) :
    firstFail [(d.indirect, badParam 1), (d.u 12 2 == 0 || !clearable c (d.u 12 2), badParam 12), (decide (2 < d.u 14 1), badParam 14),
      d.strayCheck [(12, 3)]] = none := by
  rw [firstFail_none_iff] at stray ⊢
  simp_all

include runs

theorem exec_protectClear_slice {sl : SliceId} (unit : d.unit .slice 256 = some sl) (legal : clearable .slice (d.u 12 2) = true) :
    exec (.protectClear d) s = .next (clearAnswer d s (clearSlice sl (d.u 12 2) (clearedPaths d) (startCommand d s))) := by
  have valid := clearFields_valid direct causes path stray legal
  have paths : (match d.u 14 1 with | 1 => [PathId.a] | 2 => [.b] | _ => [.a, .b]) = clearedPaths d := by
    unfold clearedPaths
    split <;> simp_all
  show execProtectClear d s = _
  simp only [execProtectClear, hostCommand_runs runs, unit, valid, ← paths]
  rfl

theorem exec_protectClear_txPort {m : Fin 32} (other : d.unit .slice 256 = none) (unit : d.unit .txPort 32 = some m)
    (legal : clearable .txPort (d.u 12 2) = true) :
    exec (.protectClear d) s = .next (clearAnswer d s (clearTxPort m (d.u 12 2) (startCommand d s))) := by
  have valid := clearFields_valid direct causes path stray legal
  show execProtectClear d s = _
  simp only [execProtectClear, hostCommand_runs runs, unit, other, valid]
  rfl

end

theorem clearPort_reflected_gone {m : Fin 32} {s : State} {stays : Bool} (muted : (s.nps.port[m]).reflected = true)
    (idle : (s.nps.port[m]).tripped = false) (load : (s.tiles.tx[m]).loadFault = false) :
    clearPort m .reflected (stays, s) = (stays, unmutePort m .reflected s) := by
  simp only [clearPort, muted, portPersists, idle, load, Bool.or_self, Bool.not_true, Bool.false_eq_true, if_false]

theorem clearMute_persists {sl : SliceId} {ps : List PathId} {k : SliceMute} {s : State} {stays : Bool}
    (muted : muteOf (s.nps.slice[sl]) k = true) (persists : mutePersists sl ps k s = true) : clearMute sl ps k (stays, s) = (true, s) := by
  simp only [clearMute, muted, persists, Bool.not_true, Bool.false_eq_true, if_false, if_true]

/-- REFLECTED alone is cleared. -/
theorem clearTxPort_reflected (m : Fin 32) (s : State) : clearTxPort m 16 s = clearPort m .reflected (false, s) := by
  have named (i : Nat) : bitOf 16 i = decide (4 = i) := Nat.testBit_two_pow (n := 4)
  simp [clearTxPort, named, portCause]

/-- A donor loss alone is cleared. -/
theorem clearSlice_donorLoss (sl : SliceId) (ps : List PathId) (s : State) : clearSlice sl 512 ps s = clearMute sl ps .donorLoss (false, s) := by
  have named (i : Nat) : bitOf 512 i = decide (9 = i) := Nat.testBit_two_pow (n := 9)
  simp [clearSlice, named, trimCause, muteCause]

/-! ### O43 -/

/-- Settles O43: the halt path by what `settle` makes of an asserted one, the two commands by their checks. -/
theorem haltAndClear : Obligations.HaltAndClear := by
  unfold Obligations.HaltAndClear
  refine ⟨?halts, ?releases, ?set, ?cleared, ?reflected, ?donor, ?slice, ?port⟩
  case halts =>
    intro d s runs direct tgt on stray
    rw [exec_protectHalt runs direct tgt on.le stray, if_pos on]
  case releases =>
    intro d s runs direct tgt off stray
    rw [exec_protectHalt runs direct tgt (by omega) stray, if_neg (by omega)]
  case set =>
    intro k s idle
    have work := setHalt_haltWork k s
    refine ⟨?_, setHalt_output idle, setHalt_cond idle, fun n => ⟨setHalt_strobe idle n (.inl rfl), setHalt_strobe idle n (.inr rfl)⟩, ?_,
      work.slices, work.time⟩
    · rw [haltOf_setHalt, if_pos rfl]
    · rw [setHalt_nps idle]
  case cleared =>
    intro k s active
    refine ⟨?_, clearHalt_cond active, (clearHalt_haltWork k s).slices⟩
    rw [haltOf_clearHalt, if_pos rfl]
  case reflected =>
    intro d m s runs other unit direct mask path stray muted idle load
    have legal : clearable .txPort (d.u 12 2) = true := by rw [mask]; decide
    rw [exec_protectClear_txPort runs direct (by omega) (by omega) stray other unit legal, mask, clearTxPort_reflected,
      clearPort_reflected_gone (s := startCommand d s) muted idle load, clearAnswer, if_neg Bool.false_ne_true]
  case donor =>
    intro d sl s runs unit direct mask path stray muted persists
    have legal : clearable .slice (d.u 12 2) = true := by rw [mask]; decide
    have both : clearedPaths d = [.a, .b] := by simp [clearedPaths, path]
    rw [exec_protectClear_slice runs direct (by omega) (by omega) stray unit legal, mask, both,
      clearSlice_donorLoss, clearMute_persists (s := startCommand d s) (k := .donorLoss) muted persists, clearAnswer, if_pos rfl]
  case slice =>
    intro d sl s runs unit direct mask legal path stray
    exact exec_protectClear_slice runs direct mask path stray unit legal
  case port =>
    intro d m s runs other unit direct mask legal path stray
    exact exec_protectClear_txPort runs direct mask path stray other unit legal

end Sys2Proof.Machine
end

section
/-! PROOFS. A warm reset is asked for, and then runs (R94 to R98, R118, R587, R662; O9). -/
namespace Sys2Proof.Machine
open Sys2Proof

/-! ### A warm reset is asked for (R94, R97, R118) -/

/-- What a request records in boot: its cause, and what holds the part. -/
def warmAsked (cause : BitVec 10) (watchdog : Bool) (b : Boot) : Boot :=
  { b with cause := b.cause ||| cause, heldBy := if watchdog then .watchdog else .warm }

theorem startWarm_may {s : State} (may : mayWarm s = true) (cause : BitVec 10) (watchdog : Bool) :
    startWarm cause watchdog s = setHalt .reset (onBoot (warmAsked cause watchdog) s) := if_pos may

section
variable {s : State} (may : mayWarm s = true) (cause : BitVec 10) (watchdog : Bool)
include may

theorem startWarm_boot : (startWarm cause watchdog s).boot = warmAsked cause watchdog s.boot := by
  rw [startWarm_may may, (setHalt_haltWork ..).boot, onBoot_boot]

theorem startWarm_time : (startWarm cause watchdog s).time = s.time := by
  rw [startWarm_may may, (setHalt_haltWork ..).time, onBoot_time]

/-- The halt path is asserted. -/
theorem startWarm_haltReset : (startWarm cause watchdog s).nps.haltReset = true := by
  rw [startWarm_may may]
  exact (haltOf_setHalt .reset .reset _).trans (if_pos rfl)

end

theorem exec_glbResetWarm_open {s : State} (opens : BarOpen 0 s) (key : Half) :
    exec (.glbResetWarm key) s = .next (if key = 0x6144 then startWarm 4 false s else dropAccess 0 s) :=
  congrArg Host.Outcome.next (viaBar_open opens)

theorem exec_warmReset_open {s : State} (opens : PortOpen s) (inst : Byte) :
    exec (.warmReset inst 0x6144) s = .next (startWarm 8 false (respond 0x03 inst .ok [] s)) :=
  congrArg Host.Outcome.next (alwaysOn_open opens)

/-- What was sent out before a halt source is set stays sent. -/
theorem setHalt_sentSince (k : HaltCause) (s : State) : SentSince s (setHalt k s) := by
  cases active : haltOf s.nps k with
  | true => rw [setHalt, if_pos active]; exact .refl s
  | false =>
    have recorded : (protRecord (haltCode k) 0 0xFF 0 0 (onNps (fun n => { setHaltOf k true n with haltTime := s.stamp }) s)).out = s.out := by
      rw [protRecord, recordNow_frame]
      rfl
    rw [setHalt, if_neg (Bool.eq_false_iff.mp active)]
    refine SentSince.trans ?_ (settle_sentSince _)
    exact ⟨[], (setCond_out ..).trans recorded⟩

/-! ### The blocks begin anew (R95, R97, R113) -/

/-- The parts of the state that outputs brought up to date and the check for COLD_START may touch. -/
def ColdChecked (s t : State) : Prop := t = { s with fec := t.fec, tiles := t.tiles, out := t.out, flt := t.flt, thm := t.thm }

theorem ColdChecked.refl (s : State) : ColdChecked s s := rfl

theorem ColdChecked.trans {s t u : State} (h : ColdChecked s t) (k : ColdChecked t u) : ColdChecked s u := by
  unfold ColdChecked at *
  rw [k, h]

theorem settle_coldChecked (s : State) : ColdChecked s (settle s) := by
  unfold ColdChecked
  rw [settle_frame]

theorem enterThaw_coldChecked (s : State) : ColdChecked s (enterThaw s) := by
  unfold enterThaw
  split
  · exact .refl s
  · split
    · exact .refl s
    · rfl

theorem calm_coldChecked (s : State) : ColdChecked s (calm s) := (settle_coldChecked s).trans (enterThaw_coldChecked _)

theorem raise_coldChecked (src : Fin 320) (u d : Nat) (s : State) : ColdChecked s (raise src u d s) := rfl

theorem onZone_coldChecked (z : Fin 6) (f : Zone → Zone) (s : State) : ColdChecked s (onZone z f s) := rfl

theorem checkCold_coldChecked (s : State) (z : Fin 6) : ColdChecked s (checkCold s z) := by
  unfold checkCold declareCold
  split
  · dsimp only
    split
    · exact (onZone_coldChecked ..).trans (raise_coldChecked ..)
    · exact (onZone_coldChecked ..).trans (enterThaw_coldChecked _)
  · exact .refl s

/-- A part whose blocks have begun anew. -/
def rebooted (s : State) : State := (indices 6).foldl checkCold (calm (warmReset s))

theorem rebooted_coldChecked (s : State) : ColdChecked (warmReset s) (rebooted s) :=
  (calm_coldChecked _).trans (foldl_keeps ColdChecked .refl .trans _ checkCold_coldChecked _ _)

theorem exec_warmResetSequence {s : State} (held : s.boot.heldBy = .warm ∨ s.boot.heldBy = .watchdog) :
    ∃ t, exec .warmResetSequence s = .next t ∧ ColdChecked (warmReset s) t := by
  show ∃ t, execWarmResetSequence s = .next t ∧ _
  unfold execWarmResetSequence
  rw [← rebooted]
  rcases held with held | held <;> rw [held]
  · exact ⟨_, rfl, rebooted_coldChecked s⟩
  · exact ⟨_, rfl, (rebooted_coldChecked s).trans (raise_coldChecked ..)⟩

/-! ### O9 -/

/-- Settles O9: the requests by `startWarm`, the sequence by what the blocks' new beginning leaves of `warmReset`. -/
theorem warmResetRuns : Obligations.WarmReset := by
  unfold Obligations.WarmReset
  refine ⟨?key, ?watchdog, ?message, ?sequence, ?other⟩
  case key =>
    intro s opens may
    refine does_of_next ((exec_glbResetWarm_open opens 0x6144).trans (congrArg _ (if_pos rfl))) ?_
    exact ⟨startWarm_boot may .., startWarm_haltReset may .., startWarm_time may ..⟩
  case watchdog =>
    intro s alive may
    have run : exec .watchdogExpiry s = .next (startWarm 16 true s) := if_neg (by simp [alive])
    exact does_of_next run ⟨startWarm_boot may .., startWarm_haltReset may .., startWarm_time may ..⟩
  case message =>
    intro inst s opens may
    have may' : mayWarm (respond 0x03 inst .ok [] s) = true := may
    refine does_of_next (exec_warmReset_open opens inst)
      ⟨startWarm_boot may' .., startWarm_haltReset may' .., startWarm_time may' .., ?_⟩
    rw [startWarm_may may']
    exact (setHalt_sentSince ..).mem List.mem_cons_self
  case sequence =>
    intro s held
    obtain ⟨t, run, checked⟩ := exec_warmResetSequence held
    refine does_of_next run ?_
    unfold ColdChecked at checked
    rw [checked, warmReset]
    have frame := (dropRadioStates_ends s).frame
    generalize dropRadioStates s = u at frame ⊢
    rw [frame]
    refine ⟨rfl, rfl, rfl, rfl, rfl, rfl, rfl, rfl, rfl, rfl, rfl, rfl, rfl⟩
  case other =>
    intro key s opens wrong
    refine does_of_next ((exec_glbResetWarm_open opens key).trans (congrArg _ (if_neg wrong))) ⟨?_, rfl, dropAccess_restKept 0 s⟩
    exact congrArg Func.accessDrop (dropAccess_counts 0 s)

end Sys2Proof.Machine
end

section
/-! PROOFS. The management port: the always-on messages, MCTP control, and JTAG (R354, R355, R661 to R669, R685; O59). -/
namespace Sys2Proof.Machine
open Sys2Proof

/-! ### Always-on messages (R354, R355, R662) -/

theorem exec_halt_open {s : State} (opens : PortOpen s) (inst : Byte) : exec (.halt inst) s = .next (respond 0x01 inst .ok [] (setHalt .mgmt s)) :=
  congrArg Host.Outcome.next (alwaysOn_open opens)

theorem exec_release_open {s : State} (opens : PortOpen s) (inst : Byte) :
    exec (.release inst) s = .next (respond 0x02 inst .ok [] (clearHalt .host (clearHalt .mgmt s))) :=
  congrArg Host.Outcome.next (alwaysOn_open opens)

theorem release_haltWork (s : State) : HaltWork s (clearHalt .host (clearHalt .mgmt s)) := (clearHalt_haltWork ..).trans (clearHalt_haltWork ..)

theorem haltOf_release (j : HaltCause) (s : State) :
    haltOf (clearHalt .host (clearHalt .mgmt s)).nps j = if j = .host then false else if j = .mgmt then false else haltOf s.nps j := by
  rw [haltOf_clearHalt, haltOf_clearHalt]

/-- What a vendor message answers with (R662). -/
def vendorAnswer (cmd : Nat) (inst : Byte) (st : Status) (payload : List Byte) : Answer :=
  { code := statusCode st, data := vendorId :: (0x80 + cmd) :: inst.toNat :: asData payload }

theorem vendorAnswer_length (cmd : Nat) (inst : Byte) (st : Status) (payload : List Byte) :
    (vendorAnswer cmd inst st payload).data.length = 3 + payload.length := by
  simp [vendorAnswer, asData]
  omega

/-- FAULT_READ answers OK with the collector's status or a history entry, and with BAD_PARAM beyond the entries. -/
theorem exec_faultRead_open {s : State} (opens : PortOpen s) (inst sel : Byte) :
    ∃ st payload, exec (.faultRead inst sel) s = .next (respond 0x04 inst st payload s) ∧ (statusCode st = statusCode .ok ↔ sel.toNat ≤ 32) := by
  show ∃ st payload, execFaultRead inst sel s = _ ∧ _
  rw [execFaultRead, alwaysOn_open opens]
  dsimp only
  split
  · next zero => exact ⟨.ok, _, rfl, by simp [zero]⟩
  · split
    · next entry => exact ⟨.ok, _, rfl, by simp [entry]⟩
    · next beyond => exact ⟨.badParam, _, rfl, by simp [beyond, statusCode]⟩

@[simp] theorem toBytes_length (n v : Nat) : (toBytes n v).length = n := by
  induction n generalizing v with
  | zero => rfl
  | succ n ih => simp [toBytes, ih]

/-- What CFG_INFO answers with: the status, four versions and three digests. -/
def cfgInfoBytes (s : State) : List Byte :=
  toBytes 4 (configStatusWord s) ++
    ([slotVersion s.cfg.active, slotVersion s.cfg.previous, slotVersion s.cfg.staged, s.cfg.high].flatMap fun v => toBytes 4 v) ++
    (List.range 3).flatMap fun k => toBytes 32 (configDigest k s.cfg)

theorem cfgInfoBytes_length (s : State) : (cfgInfoBytes s).length = 116 := by
  simp [cfgInfoBytes, List.range_succ]

theorem exec_cfgInfo_open {s : State} (opens : PortOpen s) (inst : Byte) :
    exec (.cfgInfo inst) s = .next (respond 0x05 inst .ok (cfgInfoBytes s) s) := congrArg Host.Outcome.next (alwaysOn_open opens)

/-- DUMP_READ of a range inside the retained dump answers with as many bytes. -/
theorem exec_dumpRead_open {s : State} {h : DumpHeader} {o : Word} {n : Half} (opens : PortOpen s) (held : s.flt.dump.retained = some h)
    (low : 1 ≤ n.toNat) (high : n.toNat ≤ 1024) (inside : o.toNat + n.toNat ≤ s.flt.dump.retainedLen * 4096) (inst : Byte) :
    ∃ payload, exec (.dumpRead inst o n) s = .next (respond 0x06 inst .ok payload s) ∧ payload.length = n.toNat := by
  refine ⟨((dumpBytes h).drop o.toNat ++ List.replicate n.toNat 0).take n.toNat, ?_, by simp⟩
  show execDumpRead inst o n s = _
  rw [execDumpRead, alwaysOn_open opens]
  simp only [held, low, high, inside, and_self, if_true]

theorem exec_dumpRead_none {s : State} (opens : PortOpen s) (empty : s.flt.dump.retained = none) (inst : Byte) (o : Word) (n : Half) :
    exec (.dumpRead inst o n) s = .next (respond 0x06 inst .badParam [] s) := by
  show execDumpRead inst o n s = _
  rw [execDumpRead, alwaysOn_open opens]
  simp only [empty]

/-! ### MCTP control (R661) -/

theorem controlAnswer_open {s : State} (opens : PortOpen s) (data : List Nat) :
    controlAnswer data s = .next { s with out := .answer { code := 0, data := data } :: s.out } := congrArg Host.Outcome.next (alwaysOn_open opens)

theorem exec_setEndpointId_open {s : State} {e : Byte} (opens : PortOpen s) (low : e ≠ 0) (high : e ≠ 0xFF) :
    exec (.setEndpointId e) s =
      .next (emit (.answer { code := 0, data := [e.toNat] }) (onSec (fun x => { x with eid := e.toNat }) s)) :=
  congrArg Host.Outcome.next ((alwaysOn_open opens).trans (if_neg (not_or.mpr ⟨low, high⟩)))

theorem exec_mctpPecDrop_open {s : State} (opens : PortOpen s) :
    exec .mctpPecDrop s = .next (raise 296 0 0 (onSec (fun x => { x with pecErrors := satAdd 255 x.pecErrors 1 }) s)) :=
  congrArg Host.Outcome.next (alwaysOn_open opens)

/-! ### JTAG (R667 to R669) -/

/-- No instruction acts at debug level 0. -/
theorem exec_jtag_locked {s : State} (locked : s.sec.debug = 0) (op : JtagOp) : exec (.jtagInstruction op) s = .next s := by
  show execJtagInstruction op s = _
  cases op <;> simp [execJtagInstruction, locked]

/-- A public instruction changes nothing at any level. -/
theorem exec_jtag_public {op : JtagOp} (isPublic : op ∈ [JtagOp.bypass, .idcode, .sample, .extest, .extestPulse, .extestTrain]) (s : State) :
    exec (.jtagInstruction op) s = .next s := by
  simp only [List.mem_cons, List.not_mem_nil, or_false] at isPublic
  rcases isPublic with rfl | rfl | rfl | rfl | rfl | rfl <;> rfl

section
variable {s : State} {off size : Nat} (unlocked : s.sec.debug ≠ 0) (ok : accessOk 0 off size = true)
include unlocked ok

theorem exec_jtag_read : exec (.jtagInstruction (.readRegister off size)) s =
    .next (emit (.readData 0 (readBar0 0 off size s).1) (readBar0 0 off size s).2) :=
  (if_neg unlocked).trans (congrArg Host.Outcome.next (if_pos ok))

theorem exec_jtag_write (v : Nat) (word : size = 4) :
    exec (.jtagInstruction (.writeRegister off size v)) s = .next (writeWord 0 off (v % 2 ^ 32) s) := by
  refine (if_neg unlocked).trans (congrArg Host.Outcome.next ?_)
  rw [jtagWrite, ok, if_neg (by decide), if_pos word, word]

end

/-! ### O59 -/

/-- Settles O59: the halt messages by the halt path's laws, every other message by its one answer, and JTAG by its level. -/
theorem managementPort : Obligations.ManagementPort := by
  unfold Obligations.ManagementPort
  refine ⟨?halt, ?release, ?fault, ?info, ?dump, ?noDump, ?setId, ?control, ?pec, fun _ => rfl, fun op s isPublic => exec_jtag_public isPublic s,
    fun s shut => if_neg shut, fun s level => if_pos level, fun op s locked => exec_jtag_locked locked op, ?registers, ?trace⟩
  case halt =>
    intro inst s opens
    have work := setHalt_haltWork .mgmt s
    exact does_of_next (exec_halt_open opens inst)
      ⟨haltOf_setHalt .mgmt .mgmt s, haltOf_setHalt .mgmt .host s, haltOf_setHalt .mgmt .reset s, haltOf_setHalt .mgmt .thermal s,
        work.slices, work.time, work.sec⟩
  case release =>
    intro inst s opens
    have work := release_haltWork s
    exact does_of_next (exec_release_open opens inst)
      ⟨haltOf_release .mgmt s, haltOf_release .host s, haltOf_release .reset s, haltOf_release .thermal s, work.slices, work.time, work.sec⟩
  case fault =>
    intro inst sel s opens
    obtain ⟨st, payload, run, ok⟩ := exec_faultRead_open opens inst sel
    exact ⟨vendorAnswer 0x04 inst st payload, run, ok⟩
  case info =>
    intro inst s opens
    exact ⟨vendorAnswer 0x05 inst .ok (cfgInfoBytes s), exec_cfgInfo_open opens inst, rfl, by rw [vendorAnswer_length, cfgInfoBytes_length]⟩
  case dump =>
    intro inst o n h s opens held low high inside
    obtain ⟨payload, run, bytes⟩ := exec_dumpRead_open opens held low high inside inst
    exact ⟨vendorAnswer 0x06 inst .ok payload, run, rfl, by rw [vendorAnswer_length, bytes]⟩
  case noDump =>
    intro inst o n s opens empty
    exact exec_dumpRead_none opens empty inst o n
  case setId =>
    intro e s opens low high
    exact does_of_next (exec_setEndpointId_open opens low high) ⟨rfl, rfl⟩
  case control =>
    intro s opens
    exact ⟨controlAnswer_open opens _, ⟨_, controlAnswer_open opens _⟩, controlAnswer_open opens _, controlAnswer_open opens _⟩
  case pec =>
    intro s opens
    exact does_of_next (exec_mctpPecDrop_open opens) ⟨rfl, raise_events .., rfl⟩
  case registers =>
    intro off size s unlocked ok
    exact ⟨exec_jtag_read unlocked ok, fun v word => exec_jtag_write unlocked ok v word⟩
  case trace =>
    intro s unlocked
    exact does_of_next (if_neg unlocked) rfl

end Sys2Proof.Machine
end

section
/-! PROOFS. A tile resets, loses lock and locks again (R100, R118, R178; O29). -/
namespace Sys2Proof.Machine
open Sys2Proof

/-! ### Ports that sleep (R100, R208) -/

theorem mem_tileUnits {i : Fin 4} {p : Fin 32} (h : tileOf p = i) : .rx p ∈ tileUnits i ∧ .tx p ∈ tileUnits i := by
  have port : p ∈ portsOf i := by simp [portsOf, h]
  exact ⟨List.mem_flatMap.mpr ⟨p, port, by simp⟩, List.mem_flatMap.mpr ⟨p, port, by simp⟩⟩

theorem enterState_other {u v : RadioUnit} (h : v ≠ u) (new : PortState) (s : State) : radioOf v (enterState u new s) = radioOf v s := by
  cases hr : radioOf u s with
  | none =>
    unfold enterState
    rw [hr]
  | some r =>
    by_cases there : r.state = new
    · rw [← there, enterState_there hr]
    · obtain ⟨f, moved⟩ := enterState_moves hr there
      rw [moved]
      exact onRadio_other h ..

theorem portSleep_portWork (u : RadioUnit) (s : State) : PortWork s (portSleep u s) :=
  ((endRequest_portWork ..).trans (enterState_portWork ..)).trans (onRadio_portWork ..)

theorem portSleep_other {u v : RadioUnit} (h : v ≠ u) (s : State) : radioOf v (portSleep u s) = radioOf v s :=
  (onRadio_other h ..).trans ((enterState_other h ..).trans (endRequest_other h ..))

/-- A port that goes to Sleep is there, with Sleep as its target. -/
theorem portSleep_self {u : RadioUnit} {s : State} {a b : PortState} (aim : portAim u s = some (a, b)) :
    portAim u (portSleep u s) = some (.sleep, .sleep) := by
  have there : portAim u (enterState u .sleep (endRequest u .superseded s)) = some (.sleep, b) :=
    enterState_aim ((endRequest_aim ..).trans aim) _
  obtain ⟨r, hr, state, -⟩ := portAim_some there
  simp [portAim, portSleep, onRadio_self, hr, state]

theorem foldl_portSleep_keeps {u : RadioUnit} (l : List RadioUnit) {s : State} (sleeps : portAim u s = some (.sleep, .sleep)) :
    portAim u (l.foldl (fun s u => portSleep u s) s) = some (.sleep, .sleep) := by
  induction l generalizing s with
  | nil => exact sleeps
  | cons w l ih =>
    refine ih ?_
    by_cases same : u = w
    · subst same
      exact portSleep_self sleeps
    · rw [portAim_of_radioOf (portSleep_other same s), sleeps]

theorem foldl_portSleep_mem {u : RadioUnit} {l : List RadioUnit} (h : u ∈ l) {s : State} {a b : PortState} (aim : portAim u s = some (a, b)) :
    portAim u (l.foldl (fun s u => portSleep u s) s) = some (.sleep, .sleep) := by
  induction l generalizing s with
  | nil => cases h
  | cons w l ih =>
    by_cases same : u = w
    · subst same
      exact foldl_portSleep_keeps l (portSleep_self aim)
    · refine ih ((List.mem_cons.mp h).resolve_left same) ?_
      rw [portAim_of_radioOf (portSleep_other same s), aim]

/-! ### A tile is reset (R94, R100) -/

/-- The ports of a tile in Sleep. -/
def portsAsleep (i : Fin 4) (s : State) : State := (tileUnits i).foldl (fun s u => portSleep u s) s

theorem portsAsleep_portWork (i : Fin 4) (s : State) : PortWork s (portsAsleep i s) :=
  foldl_keeps PortWork .refl .trans _ (fun s u => portSleep_portWork u s) _ s

/-- What follows for the tile itself touches that tile alone. -/
theorem tileSleep_tileWork (i : Fin 4) (s : State) : TileWork i (portsAsleep i s) (tileSleep i s) :=
  ((leaveSynthOn_tileWork ..).trans (abandonStandby_tileWork ..)).trans (completeOpt_tileWork ..)

/-- The registers of a tile and its ports, cleared. -/
def tilesCleared (i : Fin 4) (s : State) (x : Tiles) : Tiles :=
  { tile := upd x.tile i (tileCleared i s)
    rx := updAll x.rx fun m y => if tileOf m = i then rxCleared y else y
    tx := updAll x.tx fun m y => if tileOf m = i then txCleared y else y }

theorem onDfe_frame (f : Dfe → Dfe) (s : State) : onDfe f s = { s with dfe := (onDfe f s).dfe } := rfl

theorem clearTile_eq (i : Fin 4) (s : State) : ∃ u, u = { s with dfe := u.dfe } ∧ clearTile i s = onTiles (tilesCleared i u) u := by
  unfold clearTile
  exact ⟨_, onDfe_frame .., rfl⟩

/-- The tile is in Sleep and asks for no more. -/
theorem clearTile_self (i : Fin 4) (s : State) :
    ((clearTile i s).tiles.tile[i.val]).state = .sleep ∧ ((clearTile i s).tiles.tile[i.val]).floor = .sleep := by
  obtain ⟨u, -, cleared⟩ := clearTile_eq i s
  have self : (clearTile i s).tiles.tile[i.val] = tileCleared i u u.tiles.tile[i.val] := by
    rw [cleared]
    exact upd_self u.tiles.tile i _
  rw [self]
  exact ⟨rfl, rfl⟩

theorem clearTile_other {i j : Fin 4} (h : j ≠ i) (s : State) : (clearTile i s).tiles.tile[j] = s.tiles.tile[j] := by
  obtain ⟨u, frame, cleared⟩ := clearTile_eq i s
  have tiles : u.tiles = s.tiles := by rw [frame]
  rw [cleared, ← tiles]
  exact upd_other u.tiles.tile i j _ h

theorem clearTile_kept (i : Fin 4) (s : State) : RadioKept s (clearTile i s) ∧ (clearTile i s).boot = s.boot := by
  obtain ⟨u, frame, cleared⟩ := clearTile_eq i s
  rw [cleared, frame]
  exact ⟨⟨rfl, rfl, rfl⟩, rfl⟩

theorem rxCleared_radio (x : RxPort) : (rxCleared x).radio = x.radio := rfl

theorem txCleared_radio (x : TxPort) : (txCleared x).radio = x.radio := rfl

/-- The registers of a port are cleared, and its radio stays. -/
theorem clearTile_radioOf (i : Fin 4) (v : RadioUnit) (s : State) : radioOf v (clearTile i s) = radioOf v s := by
  obtain ⟨u, frame, cleared⟩ := clearTile_eq i s
  have tiles : u.tiles = s.tiles := by rw [frame]
  rw [cleared, ← radioOf_of_tiles tiles v]
  cases v with
  | tile j => rfl
  | rx p =>
    simp only [radioOf, onTiles_tiles, tilesCleared, Fin.getElem_fin, updAll_get]
    rw [apply_ite RxPort.radio, rxCleared_radio, ite_self]
  | tx p =>
    simp only [radioOf, onTiles_tiles, tilesCleared, Fin.getElem_fin, updAll_get]
    rw [apply_ite TxPort.radio, txCleared_radio, ite_self]

/-- A tile that is reset, before the outputs follow. -/
def tileDown (i : Fin 4) (s : State) : State := onTile i (fun x => { x with resetDown := true }) (clearTile i (tileSleep i s))

theorem tileDown_kept (i : Fin 4) (s : State) : RadioKept s (tileDown i s) ∧ (tileDown i s).boot = s.boot := by
  have ports := portsAsleep_portWork i s
  have tile := tileSleep_tileWork i s
  obtain ⟨cleared, boot⟩ := clearTile_kept i (tileSleep i s)
  have asleep : (tileSleep i s).boot = s.boot := by rw [tile.frame, ports]
  have marked : TileWork i (clearTile i (tileSleep i s)) (tileDown i s) := onTile_tileWork ..
  refine ⟨((ports.kept.trans tile.kept).trans cleared).trans marked.kept, ?_⟩
  rw [marked.frame]
  dsimp only
  rw [boot, asleep]

theorem tileDown_self (i : Fin 4) (s : State) : ((tileDown i s).tiles.tile[i.val]).state = .sleep ∧
    ((tileDown i s).tiles.tile[i.val]).floor = .sleep ∧ ((tileDown i s).tiles.tile[i.val]).resetDown = true := by
  obtain ⟨state, floor⟩ := clearTile_self i (tileSleep i s)
  rw [tileDown, onTile_self]
  dsimp only
  exact ⟨state, floor, rfl⟩

theorem tileDown_other {i j : Fin 4} (h : j ≠ i) (s : State) : (tileDown i s).tiles.tile[j] = s.tiles.tile[j] := by
  rw [tileDown, (onTile_tileWork ..).others j h, clearTile_other h, (tileSleep_tileWork i s).others j h, (portsAsleep_portWork i s).tile]

theorem tileDown_asleep {i : Fin 4} {u : RadioUnit} (h : u ∈ tileUnits i) {s : State} {a b : PortState} (aim : portAim u s = some (a, b)) :
    portAim u (tileDown i s) = some (.sleep, .sleep) := by
  have same : radioOf u (tileDown i s) = radioOf u (portsAsleep i s) := by
    rw [tileDown, (onTile_tileWork ..).radioOf, clearTile_radioOf, (tileSleep_tileWork i s).radioOf]
  rw [portAim_of_radioOf same]
  exact foldl_portSleep_mem h aim

/-- Every port of a tile that is reset is in Sleep. -/
theorem tileDown_port {i : Fin 4} {u : RadioUnit} {r : Radio} (h : u ∈ tileUnits i) {s : State} (hr : radioOf u s = some r) :
    (radioOf u (calm (tileDown i s))).map (·.state) = some .sleep := by
  have aim : portAim u s = some (r.state, r.target) := by rw [portAim, hr]; rfl
  obtain ⟨x, hx, state, -⟩ := portAim_some (tileDown_asleep h aim)
  rw [calm_radioOf, hx, Option.map_some, state]

/-- A reset with the right key, which no wider reset absorbs. -/
theorem exec_tileReset_key {s : State} (opens : BarOpen 0 s) (free : s.boot.heldBy = .nothing) (i : Fin 4) :
    exec (.tileReset i 0x6144) s =
      .next (calm (tileDown i (onBoot (fun b => { b with cause := b.cause ||| BitVec.twoPow 10 (6 + i.val) }) s))) :=
  congrArg Host.Outcome.next ((viaBar_open opens).trans ((if_neg (not_not_intro rfl)).trans (if_pos free)))

theorem exec_tileReset_other {s : State} (opens : BarOpen 0 s) {key : Half} (wrong : key ≠ 0x6144) (i : Fin 4) :
    exec (.tileReset i key) s = .next (dropAccess 0 s) :=
  congrArg Host.Outcome.next ((viaBar_open opens).trans (if_pos wrong))

/-! ### Lock is lost (R178) -/

theorem unclock_portWork (again : Bool) (u : RadioUnit) (s : State) : PortWork s (unclock again u s) := by
  unfold unclock
  split
  · exact .refl s
  · split
    · exact .refl s
    · split
      · exact (enterState_portWork ..).trans (onRadio_portWork ..)
      · exact ((endRequest_portWork ..).trans (enterState_portWork ..)).trans (onRadio_portWork ..)

theorem dropFloor_poisoned (i : Fin 4) (s : State) : ((dropFloor i s).tiles.tile[i.val]).poisoned = (s.tiles.tile[i.val]).poisoned := by
  unfold dropFloor
  dsimp only
  split <;> simp

/-- A tile that has lost lock is in Standby and its queues poison, before its ports follow. -/
def lockLost (i : Fin 4) (again : Bool) (s : State) : State :=
  onTile i (fun x => { x with poisoned := true, relock := again }) (leaveSynthOn i .standby (raise (tileSource i 1) (target .tile i) 0 s))

theorem lockLost_tileWork (i : Fin 4) (again : Bool) (s : State) : TileWork i s (lockLost i again s) :=
  ((raise_tileWork ..).trans (leaveSynthOn_tileWork ..)).trans (onTile_tileWork ..)

theorem lockLost_self (i : Fin 4) (again : Bool) (s : State) : ((lockLost i again s).tiles.tile[i.val]).state = .standby ∧
    ((lockLost i again s).tiles.tile[i.val]).poisoned = true ∧ ((lockLost i again s).tiles.tile[i.val]).relock = again := by
  rw [lockLost, onTile_self]
  exact ⟨leaveSynthOn_state .., rfl, rfl⟩

/-- Can a tile lock again on its twin: is that locked and not Failed? -/
def twinServes (i : Fin 4) (s : State) : Bool :=
  ((s.tiles.tile[i]).syn[twinOf s.tiles.tile[i]]).locked && !hasFailed ((s.tiles.tile[i]).syn[twinOf s.tiles.tile[i]])

/-- What a loss of lock leaves for the tile that cannot lock again. -/
def lockGone (i : Fin 4) (again : Bool) (s : State) : State := if again then s else finishTile i (dropFloor i s)

theorem lockGone_tileWork (i : Fin 4) (again : Bool) (s : State) : TileWork i s (lockGone i again s) := by
  cases again with
  | true => exact .refl i s
  | false => exact (dropFloor_tileWork ..).trans (finishTile_tileWork ..)

theorem lockGone_self (i : Fin 4) (again : Bool) (s : State) :
    ((lockGone i again s).tiles.tile[i.val]).state = (s.tiles.tile[i.val]).state ∧
    ((lockGone i again s).tiles.tile[i.val]).poisoned = (s.tiles.tile[i.val]).poisoned ∧
    ((lockGone i again s).tiles.tile[i.val]).relock = (s.tiles.tile[i.val]).relock := by
  cases again with
  | true => exact ⟨rfl, rfl, rfl⟩
  | false =>
    obtain ⟨state, relock⟩ := dropFloor_self i s
    rw [lockGone, if_neg Bool.false_ne_true, finishTile_self]
    exact ⟨state, dropFloor_poisoned i s, relock⟩

theorem exec_synthLockLost {i : Fin 4} {s : State} (on : (s.tiles.tile[i]).state = .synthOn) :
    ∃ u, PortWork (lockLost i (twinServes i s) s) u ∧ exec (.synthLockLost i) s = .next (calm (lockGone i (twinServes i s) u)) :=
  ⟨_, foldl_keeps PortWork .refl .trans _ (fun s u => unclock_portWork _ u s) (tileUnits i) (lockLost i (twinServes i s) s),
    (if_pos on : execSynthLockLost i s = _)⟩

/-! ### Lock is found again (R28, R178) -/

theorem enterSynthOn_self (i : Fin 4) (y : Fin 2) (stored : Bool) (s : State) :
    ((enterSynthOn i y stored s).tiles.tile[i.val]).active = y ∧ ((enterSynthOn i y stored s).tiles.tile[i.val]).relock = false := by
  unfold enterSynthOn
  extract_lets x z band relock t u v twin
  have entered : (v.tiles.tile[i.val]).active = y ∧ (v.tiles.tile[i.val]).relock = false := by
    show ((alignQueues i u).tiles.tile[i.val]).active = y ∧ ((alignQueues i u).tiles.tile[i.val]).relock = false
    constructor <;> simp [alignQueues, u]
  split
  · exact entered
  · rw [startPrep_self]
    exact entered

theorem exec_tileRelock {i : Fin 4} {s : State} (again : (s.tiles.tile[i]).relock = true) (idle : (s.tiles.tile[i]).standbyCal = none) :
    exec (.tileRelock i) s = .next (settle (finishTile i (enterSynthOn i (twinOf s.tiles.tile[i]) true s))) :=
  (if_pos (by simp_all) : execTileRelock i s = _)

/-! ### O29 -/

/-- Settles O29: each event is work on its tile and on that tile's ports. -/
theorem tilesResetAndRelock : Obligations.TilesResetAndRelock := by
  unfold Obligations.TilesResetAndRelock
  refine ⟨?resets, ?loses, ?relocks, ?dropped⟩
  case resets =>
    intro i s opens free
    generalize marked : onBoot (fun b => { b with cause := b.cause ||| BitVec.twoPow 10 (6 + i.val) }) s = u
    have run := exec_tileReset_key opens free i
    rw [marked] at run
    obtain ⟨kept, boot⟩ := tileDown_kept i u
    obtain ⟨state, floor, down⟩ := tileDown_self i u
    have kept := kept.trans (.of_cycled (calm_cycled _))
    refine does_of_next run ⟨?_, ?_, ?_, ?_, fun j other => ?_, fun p mine => ?_, ?_, ?_, ?_⟩
    · rw [calm_tile]; exact state
    · rw [calm_tile]; exact floor
    · rw [calm_tile]; exact down
    · rw [calm_coldChecked, boot, ← marked]; rfl
    · rw [calm_tile, tileDown_other other, ← marked]; rfl
    · obtain ⟨rx, tx⟩ := mem_tileUnits mine
      exact ⟨Option.some.inj (tileDown_port rx rfl), Option.some.inj (tileDown_port tx rfl)⟩
    · rw [kept.time, ← marked]; rfl
    · rw [kept.slices, ← marked]; rfl
    · rw [kept.cfg, ← marked]; rfl
  case loses =>
    intro i s on
    obtain ⟨u, ports, run⟩ := exec_synthLockLost on
    have lost := lockLost_tileWork i (twinServes i s) s
    have gone := lockGone_tileWork i (twinServes i s) u
    obtain ⟨state, poisoned, relock⟩ := lockLost_self i (twinServes i s) s
    obtain ⟨state', poisoned', relock'⟩ := lockGone_self i (twinServes i s) u
    rw [ports.tile] at state' poisoned' relock'
    refine does_of_next run ⟨?_, ?_, ?_, fun j other => ?_, ?_⟩
    · rw [calm_tile]; exact state'.trans state
    · rw [calm_tile]; exact poisoned'.trans poisoned
    · rw [calm_tile]; exact relock'.trans relock
    · rw [calm_tile, gone.others j other, ports.tile, lost.others j other]
    · rw [calm_coldChecked, gone.time, ports.kept.time, lost.time]
  case relocks =>
    intro i s again idle
    have work := (enterSynthOn_tileWork i (twinOf s.tiles.tile[i]) true s).trans (finishTile_tileWork ..)
    obtain ⟨active, relock⟩ := enterSynthOn_self i (twinOf s.tiles.tile[i]) true s
    have state := enterSynthOn_state i (twinOf s.tiles.tile[i]) true s
    refine does_of_next (exec_tileRelock again idle) ⟨?_, ?_, ?_, fun j other => ?_, ?_⟩
    · rw [(settle_portWork _).tile]; simpa using state
    · rw [(settle_portWork _).tile]; simpa using active
    · rw [(settle_portWork _).tile]; simpa using relock
    · rw [(settle_portWork _).tile, work.others j other]
    · rw [settle_time, work.time]
  case dropped =>
    intro i key s opens wrong
    exact does_of_next (exec_tileReset_other opens wrong i)
      ⟨congrArg Func.accessDrop (dropAccess_counts 0 s), dropAccess_reports 0 s, dropAccess_restKept 0 s⟩

end Sys2Proof.Machine
end

section
/-! PROOFS. Comparators, open inputs, and the checks of a converter (R343, R527 to R532, R580; O47). -/
namespace Sys2Proof.Machine
open Sys2Proof

/-! ### Comparators (R527, R528) -/

theorem onCmp_self (n : Fin 64) (f : Comparator → Comparator) (s : State) : (onCmp n f s).mon.cmp[n] = f s.mon.cmp[n] := upd_self ..

theorem onCmp_other {n k : Fin 64} (h : k ≠ n) (f : Comparator → Comparator) (s : State) : (onCmp n f s).mon.cmp[k] = s.mon.cmp[k] :=
  upd_other _ _ _ _ h

theorem onPortProt_self (m : Fin 32) (f : PortProt → PortProt) (s : State) : (onPortProt m f s).nps.port[m] = f s.nps.port[m] := upd_self ..

theorem onPortProt_other {m k : Fin 32} (h : k ≠ m) (f : PortProt → PortProt) (s : State) : (onPortProt m f s).nps.port[k] = s.nps.port[k] :=
  upd_other _ _ _ _ h

/-- An automatic conversion waits for its converter (R528). -/
theorem autoInject_asks (n : Fin 128) (s : State) :
    ∃ i ∈ ((autoInject n s).mon.conv[convOfSense n]).queue, i.issue = none ∧ i.input.val = n.val % 16 := by
  unfold autoInject
  rw [onConv_self]
  dsimp only
  split
  · next waits =>
    obtain ⟨i, auto, input⟩ := List.any_eq_true.mp waits
    rw [List.mem_filter] at auto
    exact ⟨i, auto.1, Option.isNone_iff_eq_none.mp auto.2, congrArg Fin.val (eq_of_beq input)⟩
  · exact ⟨_, List.mem_append_left _ (List.mem_append_right _ (List.mem_singleton_self _)), rfl, rfl⟩

theorem autoInject_frame (n : Fin 128) (s : State) : autoInject n s = { s with mon := { s.mon with conv := (autoInject n s).mon.conv } } := rfl

/-- A comparator that has tripped, with the conversion that it asks for. -/
def cmpTripped (n : Fin 64) (s : State) : State := autoInject (cmpSense n) (onCmp n (fun x => { x with tripped := true, latch := true }) s)

theorem cmpTripped_self (n : Fin 64) (s : State) : (cmpTripped n s).mon.cmp[n] = { s.mon.cmp[n] with tripped := true, latch := true } := by
  rw [cmpTripped, autoInject_frame]
  exact onCmp_self ..

theorem cmpTripped_other {n k : Fin 64} (h : k ≠ n) (s : State) : (cmpTripped n s).mon.cmp[k] = s.mon.cmp[k] := by
  rw [cmpTripped, autoInject_frame]
  exact onCmp_other h ..

theorem cmpTripped_frame (n : Fin 64) (s : State) : cmpTripped n s = { s with mon := (cmpTripped n s).mon } := rfl

/-- A comparator that trips: at the upper threshold of a reflected input its port is tripped too, and muted where REFLECTED protects it. -/
def tripOutcome (n : Fin 64) (high : Bool) (s : State) : State :=
  let t := cmpTripped n s
  if high && n.val % 2 == 1 then
    let u := onPortProt (cmpPort n) (fun p => { p with tripped := true }) t
    if (u.nps.port[cmpPort n]).reflectedEnable then mutePort false (cmpPort n) .reflected false 0 u else u
  else t

theorem exec_comparatorTrip {n : Fin 64} {high : Bool} {s : State} (on : (s.mon.cmp[n]).cfg.enable = true)
    (set : high = true ∨ (s.mon.cmp[n]).cfg.lo ≠ 0) : exec (.comparatorTrip n high) s = .next (tripOutcome n high s) := by
  have trips : ¬((!(s.mon.cmp[n]).cfg.enable || (!high && (s.mon.cmp[n]).cfg.lo == 0)) = true) := by
    rcases set with rfl | lo
    · simp_all
    · simp_all
  show execComparatorTrip n high s = _
  unfold execComparatorTrip
  dsimp only
  rw [if_neg trips, tripOutcome]
  dsimp only [cmpTripped]
  split
  · split <;> rfl
  · rfl

theorem exec_comparatorTrip_off {n : Fin 64} {high : Bool} {s : State}
    (off : (s.mon.cmp[n]).cfg.enable = false ∨ (high = false ∧ (s.mon.cmp[n]).cfg.lo = 0)) : exec (.comparatorTrip n high) s = .next s := by
  refine if_pos ?_
  rcases off with off | ⟨low, lo⟩ <;> simp_all

theorem onPortProt_haltWork (m : Fin 32) (f : PortProt → PortProt) (s : State) : HaltWork s (onPortProt m f s) := rfl

theorem protRecord_haltWork (cause action path tgt : Nat) (value : Int) (s : State) : HaltWork s (protRecord cause action path tgt value s) :=
  recordNow_haltWork ..

theorem raiseBy_haltWork (inj : Bool) (src : Fin 320) (u d : Nat) (s : State) : HaltWork s (raiseBy inj src u d s) := rfl

/-- What muting a port touches beside the port's protection. -/
theorem mutePort_haltWork (inj : Bool) (m : Fin 32) (k : PortMute) (fromLoad : Bool) (value : Int) (s : State) :
    HaltWork s (mutePort inj m k fromLoad value s) := by
  cases k with
  | reflected =>
    rw [mutePort]
    dsimp only
    split
    · exact .refl s
    · exact (((onPortProt_haltWork ..).trans (protRecord_haltWork ..)).trans (raiseBy_haltWork ..)).trans (settle_haltWork _)
  | squall =>
    rw [mutePort]
    dsimp only
    split
    · exact .refl s
    · exact (((onPortProt_haltWork ..).trans (protRecord_haltWork ..)).trans (raiseBy_haltWork ..)).trans (settle_haltWork _)

/-- A port that REFLECTED had not muted is muted by it, and keeps the rest of its protection but for the count of mutes. -/
theorem mutePort_reflected {inj : Bool} {m : Fin 32} {fromLoad : Bool} {value : Int} {s : State} (idle : (s.nps.port[m]).reflected = false) :
    ((mutePort inj m .reflected fromLoad value s).nps.port[m]).reflected = true ∧
    ((mutePort inj m .reflected fromLoad value s).nps.port[m]).tripped = (s.nps.port[m]).tripped := by
  unfold mutePort
  dsimp only
  rw [if_neg (Bool.eq_false_iff.mp idle), settle_nps, raiseBy_nps, protRecord_nps, onPortProt_self]
  exact ⟨rfl, rfl⟩

theorem exec_comparatorRelease (n : Fin 64) (s : State) :
    exec (.comparatorRelease n) s = .next (if n.val % 2 = 1 then
      onPortProt (cmpPort n) (fun p => { p with tripped := false }) (onCmp n (fun x => { x with tripped := false }) s)
      else onCmp n (fun x => { x with tripped := false }) s) := by
  show execComparatorRelease n s = _
  unfold execComparatorRelease
  dsimp only
  split <;> rfl

/-! ### A check takes a slot of a converter (R518, R519, R530, R532) -/

theorem onSense_self (n : Fin 128) (f : Sense → Sense) (s : State) : (onSense n f s).mon.sense[n] = f s.mon.sense[n] := upd_self ..

theorem onSense_other {n k : Fin 128} (h : k ≠ n) (f : Sense → Sense) (s : State) : (onSense n f s).mon.sense[k] = s.mon.sense[k] :=
  upd_other _ _ _ _ h

/-- A result tells nothing of an open input. -/
theorem publishResult_isOpen (b : Bool) (n k : Fin 128) (v : Int) (s : State) :
    ((publishResult b n v s).mon.sense[k]).isOpen = (s.mon.sense[k]).isOpen := by
  unfold publishResult
  by_cases same : k = n
  · rw [same, onSense_self]
  · rw [onSense_other same]

/-- What the chain of a STREAM converter may touch when it takes a sample: converters, and the result of the stream input. -/
structure Fed (n : Fin 128) (s t : State) : Prop where
  frame : t = { s with mon := t.mon }
  isOpen : ∀ k : Fin 128, (t.mon.sense[k]).isOpen = (s.mon.sense[k]).isOpen
  other : ∀ k : Fin 128, k ≠ n → t.mon.sense[k] = s.mon.sense[k]

theorem Fed.trans {n : Fin 128} {s t u : State} (h : Fed n s t) (k : Fed n t u) : Fed n s u where
  frame := by rw [k.frame, h.frame]
  isOpen j := (k.isOpen j).trans (h.isOpen j)
  other j away := (k.other j away).trans (h.other j away)

theorem onConv_fed (n : Fin 128) (c : Fin 8) (f : Converter → Converter) (s : State) : Fed n s (onConv c f s) := ⟨rfl, fun _ => rfl, fun _ _ => rfl⟩

theorem publishResult_fed (b : Bool) (n : Fin 128) (v : Int) (s : State) : Fed n s (publishResult b n v s) :=
  ⟨rfl, fun _ => publishResult_isOpen .., fun _ away => onSense_other away ..⟩

theorem feedStream_fed (c : Fin 8) (raw : Nat) (s : State) : Fed (senseIdx c (s.mon.conv[c]).cfg.streamInput) s (feedStream c raw s) := by
  unfold feedStream
  dsimp only
  split
  · exact onConv_fed ..
  · exact (onConv_fed ..).trans (publishResult_fed ..)

/-- A check that takes a slot of a STREAM converter feeds its chain. -/
theorem takeCheckSlot_fed (c : Fin 8) (s : State) : Fed (senseIdx c (s.mon.conv[c]).cfg.streamInput) s (takeCheckSlot c s) := by
  have fed : Fed (senseIdx c (s.mon.conv[c]).cfg.streamInput) s (repeatSamples c 1 s) := by
    simp only [repeatSamples]
    split
    · have input : ((onConv c (fun x => { x with restarts := satAdd 65535 x.restarts 1 }) s).mon.conv[c]).cfg = (s.mon.conv[c]).cfg := by
        rw [onConv_self]
      have chain := feedStream_fed c (s.mon.conv[c]).line.last (onConv c (fun x => { x with restarts := satAdd 65535 x.restarts 1 }) s)
      rw [input] at chain
      exact (onConv_fed ..).trans chain
    · exact ⟨rfl, fun _ => rfl, fun _ _ => rfl⟩
  unfold takeCheckSlot
  dsimp only
  split
  · exact fed.trans (onConv_fed ..)
  · exact fed

/-- Beside its stream input a check leaves every sense input alone; without a stream it leaves them all alone. -/
theorem takeCheckSlot_sense {c : Fin 8} {s : State} (still : (s.mon.conv[c]).cfg.mode ≠ .stream) :
    (takeCheckSlot c s).mon.sense = s.mon.sense := by
  have none : repeatSamples c 1 s = s := if_neg still
  rw [takeCheckSlot, none]
  split <;> rfl

/-- The slot that an open check of an input takes feeds that input or none. -/
theorem takeCheckSlot_checked {c : Fin 8} {i : Fin 16} {s : State} (checks : checksInput s.mon.conv[c] i = true) :
    Fed (senseIdx c i) s (takeCheckSlot c s) := by
  by_cases stream : (s.mon.conv[c]).cfg.mode = .stream
  · have input : (s.mon.conv[c]).cfg.streamInput = i := by
      simp only [checksInput, stream, Bool.and_eq_true, beq_iff_eq] at checks
      exact checks.2
    exact input ▸ takeCheckSlot_fed c s
  · have same := takeCheckSlot_sense stream
    exact ⟨(takeCheckSlot_fed c s).frame, fun _ => by rw [same], fun _ _ => by rw [same]⟩

theorem conversions_frame (c : Fin 8) (n : Nat) (s : State) : conversions c n s = { s with pmc := (conversions c n s).pmc } := rfl

/-- The state after the slot of a check is taken and its conversion counted. -/
def checked (c : Fin 8) (s : State) : State := conversions c 1 (takeCheckSlot c s)

theorem checked_frame (c : Fin 8) (s : State) : checked c s = { s with mon := (checked c s).mon, pmc := (checked c s).pmc } := by
  have frame := (takeCheckSlot_fed c s).frame
  rw [checked, conversions_frame]
  generalize takeCheckSlot c s = t at *
  rw [frame]

theorem checked_mon (c : Fin 8) (s : State) : (checked c s).mon = (takeCheckSlot c s).mon := pulse_mon ..

/-! ### Open inputs (R530, R531) -/

/-- The run of conversions that exceed the normal one, after one more. -/
def nextOpenRun (x : Int) (y : Sense) : Nat := if 2048 ≤ x then min 3 (y.openRun + 1) else 0

/-- The run of conversions below the lower limit, after one more. -/
def nextClearRun (x : Int) (y : Sense) : Nat := if x < 1024 then min 3 (y.clearRun + 1) else 0

/-- A sense input after one open check. -/
def openChecked (x : Int) (y : Sense) : Sense :=
  { y with
    openRun := nextOpenRun x y, clearRun := nextClearRun x y
    isOpen := if nextOpenRun x y = 3 then true else if nextClearRun x y = 3 then false else y.isOpen }

theorem openChecked_opens {x : Int} {y : Sense} (run : 2 ≤ y.openRun) (above : 2048 ≤ x) :
    nextOpenRun x y = 3 ∧ (openChecked x y).isOpen = true := by
  have third : nextOpenRun x y = 3 := by
    rw [nextOpenRun, if_pos above]
    omega
  exact ⟨third, if_pos third⟩

theorem openChecked_closes {x : Int} {y : Sense} (run : 2 ≤ y.clearRun) (below : x < 1024) :
    nextOpenRun x y = 0 ∧ (openChecked x y).isOpen = false := by
  have ends : nextOpenRun x y = 0 := if_neg (by omega)
  have third : nextClearRun x y = 3 := by
    rw [nextClearRun, if_pos below]
    omega
  refine ⟨ends, ?_⟩
  simp [openChecked, ends, third]

/-- The state after an open check, before the error. -/
def openCheckedState (c : Fin 8) (i : Fin 16) (x : Int) (s : State) : State := checked c (onSense (senseIdx c i) (openChecked x) s)

section
variable {c : Fin 8} {i : Fin 16} {x : Int} {s : State}

theorem exec_openCheck (checks : checksInput s.mon.conv[c] i = true) (ready : refWait s.mon.conv[c] = false) (calm : madcTesting c s = false)
    (live : madcRetired c s = false) :
    exec (.openCheck c i x) s = .next (if !(s.mon.sense[senseIdx c i]).isOpen && nextOpenRun x s.mon.sense[senseIdx c i] == 3 then
      raise 249 (target .madc c) (senseIdx c i).val (openCheckedState c i x s) else openCheckedState c i x s) := by
  refine if_neg ?_
  simp only [checks, ready, calm, live]
  decide

theorem openCheckedState_fed (checks : checksInput s.mon.conv[c] i = true) :
    Fed (senseIdx c i) (onSense (senseIdx c i) (openChecked x) s) (takeCheckSlot c (onSense (senseIdx c i) (openChecked x) s)) :=
  takeCheckSlot_checked (s := onSense (senseIdx c i) (openChecked x) s) checks

theorem openCheckedState_isOpen (checks : checksInput s.mon.conv[c] i = true) :
    ((openCheckedState c i x s).mon.sense[senseIdx c i]).isOpen = (openChecked x s.mon.sense[senseIdx c i]).isOpen := by
  rw [openCheckedState, checked_mon, (openCheckedState_fed checks).isOpen, onSense_self]

theorem openCheckedState_other (checks : checksInput s.mon.conv[c] i = true) {k : Fin 128} (away : k ≠ senseIdx c i) :
    (openCheckedState c i x s).mon.sense[k] = s.mon.sense[k] := by
  rw [openCheckedState, checked_mon, (openCheckedState_fed checks).other k away, onSense_other away]

theorem openCheckedState_frame :
    openCheckedState c i x s = { s with mon := (openCheckedState c i x s).mon, pmc := (openCheckedState c i x s).pmc } := by
  rw [openCheckedState, checked_frame]
  rfl

theorem does_openCheck_opens (checks : checksInput s.mon.conv[c] i = true) (ready : refWait s.mon.conv[c] = false) (calm : madcTesting c s = false)
    (live : madcRetired c s = false) (closed : (s.mon.sense[senseIdx c i]).isOpen = false) (run : 2 ≤ (s.mon.sense[senseIdx c i]).openRun)
    (above : 2048 ≤ x) : Does (.openCheck c i x) s fun t =>
      (t.mon.sense[senseIdx c i]).isOpen = true ∧ (t.flt.sources[(249 : Fin 320)]).events = (s.flt.sources[(249 : Fin 320)]).events + 1 ∧
      (∀ n : Fin 128, n ≠ senseIdx c i → t.mon.sense[n] = s.mon.sense[n]) ∧ t = { s with mon := t.mon, flt := t.flt, pmc := t.pmc } := by
  obtain ⟨third, opens⟩ := openChecked_opens run above
  have frame := openCheckedState_frame (c := c) (i := i) (x := x) (s := s)
  have isOpen := openCheckedState_isOpen (x := x) checks
  have other (n : Fin 128) (away : n ≠ senseIdx c i) := openCheckedState_other (x := x) checks away
  refine ⟨_, exec_openCheck checks ready calm live, ?_⟩
  rw [if_pos (by simp only [closed, third]; decide)]
  generalize openCheckedState c i x s = t at *
  refine ⟨isOpen.trans opens, (raise_events ..).trans (by rw [frame]), other, ?_⟩
  rw [raise_frame, frame]

theorem does_openCheck_closes (checks : checksInput s.mon.conv[c] i = true) (ready : refWait s.mon.conv[c] = false) (calm : madcTesting c s = false)
    (live : madcRetired c s = false) (run : 2 ≤ (s.mon.sense[senseIdx c i]).clearRun) (below : x < 1024) : Does (.openCheck c i x) s fun t =>
      (t.mon.sense[senseIdx c i]).isOpen = false ∧ t = { s with mon := t.mon, pmc := t.pmc } := by
  obtain ⟨ends, closes⟩ := openChecked_closes run below
  refine ⟨_, exec_openCheck checks ready calm live, ?_⟩
  have none : ¬((!(s.mon.sense[senseIdx c i]).isOpen && nextOpenRun x s.mon.sense[senseIdx c i] == 3) = true) := by
    rw [ends]
    simp
  rw [if_neg none]
  exact ⟨(openCheckedState_isOpen checks).trans closes, openCheckedState_frame⟩

end

/-! ### Reference checks (R532) -/

section
variable {c : Fin 8} {code : Nat} {s : State}

theorem exec_referenceCheck (ready : refWait s.mon.conv[c] = false) (calm : madcTesting c s = false) (live : madcRetired c s = false) :
    exec (.referenceCheck c code) s = .next (if 8192 - 40 ≤ code ∧ code ≤ 8192 + 40 then checked c s else
      askTest .madc c (refSource c) false [] (raise (refSource c) (target .madc c) code (checked c s))) := by
  refine (if_neg ?_).trans ?_
  · simp only [ready, calm, live]
    decide
  · split <;> rfl

theorem does_referenceCheck_inside (ready : refWait s.mon.conv[c] = false) (calm : madcTesting c s = false) (live : madcRetired c s = false)
    (low : 8152 ≤ code) (high : code ≤ 8232) : Does (.referenceCheck c code) s fun t => t = { s with mon := t.mon, pmc := t.pmc } := by
  refine ⟨_, exec_referenceCheck ready calm live, ?_⟩
  rw [if_pos ⟨low, high⟩]
  exact checked_frame c s

theorem does_referenceCheck_outside (ready : refWait s.mon.conv[c] = false) (calm : madcTesting c s = false) (live : madcRetired c s = false)
    (out : code < 8152 ∨ 8232 < code) : Does (.referenceCheck c code) s fun t =>
      (t.flt.sources[refSource c]).events = (s.flt.sources[refSource c]).events + 1 ∧ (testOf .madc c t).isSome = true ∧
      t = { s with mon := t.mon, flt := t.flt, pmc := t.pmc } := by
  have frame := checked_frame c s
  refine ⟨_, exec_referenceCheck ready calm live, ?_⟩
  rw [if_neg (by omega)]
  generalize checked c s = u at *
  have events : ((raise (refSource c) (target .madc c) code u).flt.sources[refSource c]).events = (s.flt.sources[refSource c]).events + 1 :=
    (raise_events ..).trans (by rw [frame])
  have raised := raise_frame (refSource c) (target .madc c) code u
  generalize raise (refSource c) (target .madc c) code u = v at *
  refine ⟨?_, askTest_some .., ?_⟩
  · rw [askTest_frame]
    exact events
  · rw [askTest_frame, raised, frame]

end

/-! ### Self-tests of a converter (R532, R580) -/

/-- The test that ends is gone, and the last one says how it ended. -/
theorem endTest_ends {k : UnitKind} {i : Nat} {pass : Bool} {x : SelfTest} {s : State} (runs : testOf k i s = some x) :
    testOf k i (endTest k i pass id s) = none ∧ ∃ l, (endTest k i pass id s).flt.stLast = some l ∧ l.pass = pass := by
  simp only [endTest, runs, id, ite_self]
  have completed (l : List Issue) (t : State) : (completeAll l .ok t).flt = t.flt := (completeAll_answered ..).flt
  have recorded (p : Payload) (a b : Nat) (q : Option Nat) (t : State) : (record p a b q t).flt = t.flt := (record_answered ..).flt
  refine ⟨?_, ?_⟩
  · rw [testOf, recorded, completed]
    refine List.find?_eq_none.mpr fun y there => ?_
    have kept := (List.mem_filter.mp there).2
    simpa only [Bool.not_eq_true', Bool.not_eq_true] using kept
  · rw [recorded, completed]
    exact ⟨_, rfl, rfl⟩

/-- A calibration that ends with its converter leaves whether that runs, and touches nothing but the converters and its answer. -/
theorem endCal_ends (c : Fin 8) (s : State) :
    ((endCal c s).mon.conv[c]).running = (s.mon.conv[c]).running ∧ (endCal c s).map = s.map ∧ (endCal c s).flt = s.flt := by
  unfold endCal
  split
  · exact ⟨rfl, rfl, rfl⟩
  · rw [refuse_answered]
    refine ⟨?_, rfl, rfl⟩
    dsimp only
    rw [onConv_self]
    rfl

theorem retireUnit_madcs (c : Fin 8) (source : Nat) (s : State) : ((retireUnit .madc c source s).map.madcs).getLsbD c = true := by
  rw [retireUnit, queueFlash_frame]
  simp [onMap, markRetired]

theorem retireUnit_flt (c : TargetClass) (i source : Nat) (s : State) : (retireUnit c i source s).flt = s.flt := by
  rw [retireUnit, queueFlash_frame]
  rfl

theorem exec_madcSelftestDone_pass {c : Fin 8} {x : SelfTest} {s : State} (runs : testOf .madc c s = some x)
    (idle : (s.mon.conv[c]).pending = false) : exec (.madcSelftestDone c true) s = .next (endTest .madc c true id s) := by
  have same : (endTest .madc c true id s).mon = s.mon := by rw [endTest_tested .madc c true id Tested.refl s]
  show execMadcSelftestDone c true s = _
  rw [execMadcSelftestDone, runs]
  dsimp only
  rw [if_pos rfl, resumeConv_none (by rw [same]; exact idle)]

/-- The state of a converter whose self-test failed, before its calibration ends. -/
def madcFailed (c : Fin 8) (s : State) : State :=
  raise 248 (target .madc c) 0
    (onConv c (fun x => { x with running := false, pending := false }) (retireUnit .madc c 248 (endTest .madc c false id s)))

theorem exec_madcSelftestDone_fail {c : Fin 8} {x : SelfTest} {s : State} (runs : testOf .madc c s = some x) :
    exec (.madcSelftestDone c false) s = .next (endCal c (madcFailed c s)) := by
  show execMadcSelftestDone c false s = _
  rw [execMadcSelftestDone, runs]
  rfl

theorem does_madcSelftest_pass {c : Fin 8} {x : SelfTest} {s : State} (runs : testOf .madc c s = some x)
    (idle : (s.mon.conv[c]).pending = false) : Does (.madcSelftestDone c true) s fun t =>
      testOf .madc c t = none ∧ (∃ l, t.flt.stLast = some l ∧ l.pass = true) ∧ t.mon = s.mon ∧ t.map = s.map := by
  obtain ⟨gone, last⟩ := endTest_ends (pass := true) runs
  refine ⟨_, exec_madcSelftestDone_pass runs idle, gone, last, ?_⟩
  rw [endTest_tested .madc c true id Tested.refl s]
  exact ⟨rfl, rfl⟩

theorem does_madcSelftest_fail {c : Fin 8} {x : SelfTest} {s : State} (runs : testOf .madc c s = some x) :
    Does (.madcSelftestDone c false) s fun t =>
      (t.map.madcs).getLsbD c = true ∧ (t.mon.conv[c]).running = false ∧ (∃ l, t.flt.stLast = some l ∧ l.pass = false) := by
  obtain ⟨_, l, last, failed⟩ := endTest_ends (pass := false) runs
  obtain ⟨running, map, flt⟩ := endCal_ends c (madcFailed c s)
  refine ⟨_, exec_madcSelftestDone_fail runs, ?_, ?_, l, ?_, failed⟩
  · rw [map, madcFailed, raise_map]
    exact retireUnit_madcs ..
  · rw [running, madcFailed, raise_mon, onConv_self]
  · rw [flt]
    show (retireUnit .madc c 248 (endTest .madc c false id s)).flt.stLast = some l
    rw [retireUnit_flt, last]

/-! ### The obligation -/

section
variable {n : Fin 64} {high : Bool} {s : State}

theorem does_comparatorTrip_reflected (on : (s.mon.cmp[n]).cfg.enable = true) (odd : n.val % 2 = 1)
    (protects : (s.nps.port[cmpPort n]).reflectedEnable = true) (idle : (s.nps.port[cmpPort n]).reflected = false) :
    Does (.comparatorTrip n true) s fun t =>
      (t.mon.cmp[n]).tripped = true ∧ (t.mon.cmp[n]).latch = true ∧ (t.nps.port[cmpPort n]).tripped = true ∧ (t.nps.port[cmpPort n]).reflected = true ∧
      (∀ k : Fin 64, k ≠ n → t.mon.cmp[k] = s.mon.cmp[k]) ∧ t.slices = s.slices ∧ t.time = s.time := by
  have port : (onPortProt (cmpPort n) (fun p => { p with tripped := true }) (cmpTripped n s)).nps.port[cmpPort n] =
      { s.nps.port[cmpPort n] with tripped := true } := onPortProt_self ..
  have self := cmpTripped_self n s
  have other (k : Fin 64) (away : k ≠ n) := cmpTripped_other away s
  have frame := cmpTripped_frame n s
  refine ⟨_, exec_comparatorTrip on (.inl rfl), ?_⟩
  dsimp only [tripOutcome]
  rw [if_pos (by rw [odd]; rfl), if_pos (by rw [port]; exact protects)]
  obtain ⟨reflected, tripped⟩ := mutePort_reflected (inj := false) (m := cmpPort n) (fromLoad := false) (value := 0)
    (s := onPortProt (cmpPort n) (fun p => { p with tripped := true }) (cmpTripped n s)) (by rw [port]; exact idle)
  have work := mutePort_haltWork false (cmpPort n) .reflected false 0 (onPortProt (cmpPort n) (fun p => { p with tripped := true }) (cmpTripped n s))
  rw [port] at tripped
  generalize mutePort false (cmpPort n) .reflected false 0 _ = t at *
  have mon : t.mon = (cmpTripped n s).mon := by rw [work]; rfl
  rw [mon, self]
  exact ⟨rfl, rfl, tripped, reflected, other, by rw [work.slices]; rfl, by rw [work.time]; rfl⟩

theorem does_comparatorTrip (on : (s.mon.cmp[n]).cfg.enable = true) (set : high = true ∨ (s.mon.cmp[n]).cfg.lo ≠ 0) :
    Does (.comparatorTrip n high) s fun t =>
      t.mon.cmp[n] = { s.mon.cmp[n] with tripped := true, latch := true } ∧
      (∃ i ∈ (t.mon.conv[convOfSense (cmpSense n)]).queue, i.issue = none ∧ i.input.val = n.val % 16) ∧
      ((high = false ∨ n.val % 2 = 0) → t = { s with mon := t.mon }) := by
  have asks := autoInject_asks (cmpSense n) (onCmp n (fun x => { x with tripped := true, latch := true }) s)
  have self := cmpTripped_self n s
  have mon : (tripOutcome n high s).mon = (cmpTripped n s).mon := by
    dsimp only [tripOutcome]
    split
    · split
      · rw [mutePort_haltWork]
        rfl
      · rfl
    · rfl
  refine ⟨_, exec_comparatorTrip on set, by rw [mon]; exact self, by rw [mon]; exact asks, fun plain => ?_⟩
  have inside : ¬((high && n.val % 2 == 1) = true) := by
    rcases plain with rfl | even
    · simp
    · simp [even]
  dsimp only [tripOutcome]
  rw [if_neg inside]
  exact cmpTripped_frame n s

theorem does_comparatorRelease_odd (odd : n.val % 2 = 1) : Does (.comparatorRelease n) s fun t =>
    t.mon.cmp[n] = { s.mon.cmp[n] with tripped := false } ∧ (t.nps.port[cmpPort n]).tripped = false ∧
    (∀ k : Fin 64, k ≠ n → t.mon.cmp[k] = s.mon.cmp[k]) ∧ t = { s with mon := { s.mon with cmp := t.mon.cmp }, nps := { s.nps with port := t.nps.port } } := by
  have port : ((onPortProt (cmpPort n) (fun p => { p with tripped := false })
      (onCmp n (fun x => { x with tripped := false }) s)).nps.port[cmpPort n]).tripped = false := by rw [onPortProt_self]
  refine ⟨_, exec_comparatorRelease n s, ?_⟩
  rw [if_pos odd]
  exact ⟨onCmp_self .., port, fun k away => onCmp_other away .., rfl⟩

theorem does_comparatorRelease_even (even : n.val % 2 = 0) : Does (.comparatorRelease n) s fun t =>
    t.mon.cmp[n] = { s.mon.cmp[n] with tripped := false } ∧ (∀ k : Fin 64, k ≠ n → t.mon.cmp[k] = s.mon.cmp[k]) ∧
    t = { s with mon := { s.mon with cmp := t.mon.cmp } } := by
  refine ⟨_, exec_comparatorRelease n s, ?_⟩
  rw [if_neg (by omega)]
  exact ⟨onCmp_self .., fun k away => onCmp_other away .., rfl⟩

end

/-- Settles O47: each clause is the outcome of its command, which the laws above give for each branch. -/
theorem comparatorsAndChecks : Obligations.ComparatorsAndChecks :=
  ⟨fun _ _ on odd protects idle => does_comparatorTrip_reflected on odd protects idle,
    fun _ _ odd => does_comparatorRelease_odd odd,
    fun _ _ _ _ checks ready calm live closed run above => does_openCheck_opens checks ready calm live closed run above,
    fun _ _ _ ready calm live out _ => does_referenceCheck_outside ready calm live out,
    fun _ _ _ runs idle => does_madcSelftest_pass runs idle,
    fun _ _ _ runs => does_madcSelftest_fail runs,
    fun _ _ _ on set => does_comparatorTrip on set,
    fun _ _ _ off => exec_comparatorTrip_off off,
    fun _ _ even => does_comparatorRelease_even even,
    fun _ _ _ _ checks ready calm live run below => does_openCheck_closes checks ready calm live run below,
    fun _ _ _ ready calm live low high => does_referenceCheck_inside ready calm live low high⟩

end Sys2Proof.Machine
end

section
/-! PROOFS. Samples, thresholds, Thaw, Overcast and the thermal halt (R115, R625 to R639; O57). -/
namespace Sys2Proof.Machine
open Sys2Proof

/-! ### A change of one sensor or zone -/

theorem onSensor_self (i : Fin 24) (f : Sensor → Sensor) (s : State) : (onSensor i f s).thm.sensor[i] = f s.thm.sensor[i] := upd_self ..

theorem onSensor_other {i k : Fin 24} (h : k ≠ i) (f : Sensor → Sensor) (s : State) : (onSensor i f s).thm.sensor[k] = s.thm.sensor[k] :=
  upd_other _ _ _ _ h

theorem onZone_self (z : Fin 6) (f : Zone → Zone) (s : State) : (onZone z f s).thm.zone[z] = f s.thm.zone[z] := upd_self ..

theorem onZone_other {z k : Fin 6} (h : k ≠ z) (f : Zone → Zone) (s : State) : (onZone z f s).thm.zone[k] = s.thm.zone[k] :=
  upd_other _ _ _ _ h

/-! ### Overcast and Thaw begin (R626, R630, R632) -/

theorem enterOvercast_frame (z : Fin 6) (s : State) : enterOvercast z s =
    { s with thm := { s.thm with overcast := (enterOvercast z s).thm.overcast }, flt := (enterOvercast z s).flt } := by
  unfold enterOvercast
  split <;> rfl

theorem enterThaw_frame (s : State) : enterThaw s = { s with thm := { s.thm with thaw := (enterThaw s).thm.thaw }, flt := (enterThaw s).flt } := by
  unfold enterThaw
  split
  · rfl
  · split <;> rfl

/-- A declaration of COLD_START marks its zone, and may begin Thaw. -/
theorem declareCold_frame (z : Fin 6) (s : State) : declareCold z s =
    { onZone z (fun x => { x with cold := true }) s with
      thm := { (onZone z (fun x => { x with cold := true }) s).thm with thaw := (declareCold z s).thm.thaw }, flt := (declareCold z s).flt } := by
  unfold declareCold
  dsimp only
  split
  · rfl
  · exact enterThaw_frame _

/-! ### A round of samples (R625, R626) -/

/-- What the rest of a round of samples may touch, once each sensor has its sample: no sensor's samples. -/
structure Sensed (s t : State) : Prop where
  frame : t = { s with thm := t.thm, flt := t.flt, tiles := t.tiles, flash := t.flash, plc := t.plc }
  samples : ∀ i : Fin 24, (t.thm.sensor[i]).samples = (s.thm.sensor[i]).samples

theorem Sensed.refl (s : State) : Sensed s s := ⟨rfl, fun _ => rfl⟩

theorem Sensed.trans {s t u : State} (h : Sensed s t) (k : Sensed t u) : Sensed s u where
  frame := by rw [k.frame, h.frame]
  samples i := (k.samples i).trans (h.samples i)

theorem Sensed.time {s t : State} (h : Sensed s t) : t.time = s.time := by rw [h.frame]
theorem Sensed.slices {s t : State} (h : Sensed s t) : t.slices = s.slices := by rw [h.frame]
theorem Sensed.nps {s t : State} (h : Sensed s t) : t.nps = s.nps := by rw [h.frame]

theorem onSensor_sensed {i : Fin 24} {f : Sensor → Sensor} (same : ∀ x, (f x).samples = x.samples) (s : State) : Sensed s (onSensor i f s) where
  frame := rfl
  samples k := by
    by_cases it : k = i
    · rw [it, onSensor_self, same]
    · rw [onSensor_other it]

theorem onZone_sensed (z : Fin 6) (f : Zone → Zone) (s : State) : Sensed s (onZone z f s) := ⟨rfl, fun _ => rfl⟩

theorem raise_sensed (src : Fin 320) (u d : Nat) (s : State) : Sensed s (raise src u d s) := ⟨rfl, fun _ => rfl⟩

theorem onTiles_sensed (f : Tiles → Tiles) (s : State) : Sensed s (onTiles f s) := ⟨rfl, fun _ => rfl⟩

theorem enterOvercast_sensed (z : Fin 6) (s : State) : Sensed s (enterOvercast z s) := by
  rw [enterOvercast_frame]
  exact ⟨rfl, fun _ => rfl⟩

theorem declareCold_sensed (z : Fin 6) (s : State) : Sensed s (declareCold z s) := by
  rw [declareCold_frame]
  exact ⟨rfl, fun _ => rfl⟩

theorem checkFlash_sensed (s : State) : Sensed s (checkFlash s) := by
  rw [checkFlash_frame]
  exact ⟨rfl, fun _ => rfl⟩

theorem failSensor_sensed (i : Fin 24) (s : State) : Sensed s (failSensor i s) := by
  have failed : Sensed s (onSensor i (fun x => { x with failed := true, hot := 0 }) s) :=
    onSensor_sensed (f := fun x => { x with failed := true, hot := 0 }) (fun _ => rfl) s
  unfold failSensor
  dsimp only
  split
  · exact ((failed.trans (raise_sensed ..)).trans (onZone_sensed ..)).trans ((raise_sensed ..).trans (enterOvercast_sensed ..))
  · exact failed.trans (raise_sensed ..)

theorem judgeSensor_sensed (bad : BitVec 24) (s : State) (i : Fin 24) : Sensed s (judgeSensor bad s i) := by
  unfold judgeSensor
  extract_lets x since u
  split
  · exact .refl s
  · have timed (since : Option Nat) : Sensed s (onSensor i (fun x => { x with awaySince := since }) s) :=
      onSensor_sensed (f := fun x => { x with awaySince := since }) (fun _ => rfl) s
    split
    · exact (timed since).trans (failSensor_sensed ..)
    · exact timed since

theorem bootZone_sensed (s : State) (z : Fin 6) : Sensed s (bootZone s z) := by
  have cold (t : State) : Sensed t (checkCold t z) := by
    unfold checkCold
    split
    · exact declareCold_sensed ..
    · exact .refl t
  unfold bootZone
  dsimp only
  split
  · exact ((onZone_sensed ..).trans (onTiles_sensed ..)).trans (cold _)
  · exact (onZone_sensed ..).trans (cold _)

theorem sampleZone_sensed (s : State) (z : Fin 6) : Sensed s (sampleZone s z) := by
  unfold sampleZone
  dsimp only
  split
  · exact ((onZone_sensed ..).trans (bootZone_sensed ..)).trans (onZone_sensed ..)
  · exact (onZone_sensed ..).trans (onZone_sensed ..)

/-- Every sensor takes its raw sample. -/
def sensorsSampled (v : Vector Int 24) (s : State) : State :=
  onThm (fun t => { t with sensor := updAll t.sensor fun i x => takeSample v[i] x }) s

theorem sensorsSampled_samples (v : Vector Int 24) (s : State) (i : Fin 24) :
    ((sensorsSampled v s).thm.sensor[i]).samples = (v[i] :: (s.thm.sensor[i]).samples).take 8 := congrArg Sensor.samples (updAll_get ..)

theorem retimeTile_sensed (s : State) (t : Fin 4) : Sensed s (retimeTile s t) := ⟨rfl, fun _ => rfl⟩

theorem retimeSpread_sensed (s : State) : Sensed s (retimeSpread s) := ⟨rfl, fun _ => rfl⟩

/-- What follows the samples: sensors judged, zones and tiles brought up to date. -/
def afterSamples (bad : BitVec 24) (s : State) : State :=
  retimeSpread (checkFlash ((indices 4).foldl retimeTile ((indices 6).foldl sampleZone ((indices 24).foldl (judgeSensor bad) s))))

theorem afterSamples_sensed (bad : BitVec 24) (s : State) : Sensed s (afterSamples bad s) := by
  have sensors := foldl_keeps Sensed .refl .trans (judgeSensor bad) (judgeSensor_sensed bad) (indices 24) s
  have zones := foldl_keeps Sensed .refl .trans sampleZone sampleZone_sensed (indices 6)
  have tiles := foldl_keeps Sensed .refl .trans retimeTile retimeTile_sensed (indices 4)
  exact ((sensors.trans (zones _)).trans (tiles _)).trans ((checkFlash_sensed _).trans (retimeSpread_sensed _))

theorem does_thermalSample (v : Vector Int 24) (bad : BitVec 24) (s : State) : Does (.thermalSample v bad) s fun t =>
    (∀ i : Fin 24, (t.thm.sensor[i]).samples = (v[i] :: (s.thm.sensor[i]).samples).take 8) ∧ t.time = s.time ∧ t.slices = s.slices ∧ t.nps = s.nps := by
  have rest := afterSamples_sensed bad (sensorsSampled v s)
  refine ⟨afterSamples bad (sensorsSampled v s), rfl, ?_⟩
  generalize afterSamples bad (sensorsSampled v s) = t at *
  exact ⟨fun i => (rest.samples i).trans (sensorsSampled_samples v s i), rest.time.trans (onThm_time ..), rest.slices.trans (onThm_slices ..),
    rest.nps.trans (onThm_nps ..)⟩

/-! ### Thresholds (R627, R628) -/

/-- A threshold is declared. -/
def declared (k : Threshold) (z : Zone) : Zone :=
  match k with
  | .coldStart => { z with cold := true }
  | .lowWarn => { z with lowWarn := true }
  | .highWarn => { z with highWarn := true }
  | .throttle => { z with throttle := true }

/-- What the declaration of a threshold may touch: thermal management and the error sources; of the zones it marks its own. -/
structure Declares (z : Fin 6) (k : Threshold) (s t : State) : Prop where
  frame : t = { s with thm := t.thm, flt := t.flt }
  zone : t.thm.zone = upd s.thm.zone z (declared k)

theorem declareThreshold_declares (z : Fin 6) (k : Threshold) (s : State) : Declares z k s (declareThreshold z k s) := by
  cases k with
  | coldStart =>
    have frame := declareCold_frame z s
    dsimp only [declareThreshold]
    generalize declareCold z s = t at *
    rw [frame]
    exact ⟨rfl, rfl⟩
  | lowWarn => exact ⟨rfl, rfl⟩
  | highWarn => exact ⟨rfl, rfl⟩
  | throttle =>
    have frame := enterOvercast_frame z (onZone z (fun x => { x with throttle := true }) s)
    dsimp only [declareThreshold]
    generalize enterOvercast z (onZone z (fun x => { x with throttle := true }) s) = t at *
    rw [frame]
    exact ⟨rfl, rfl⟩

/-- The timers of a zone tell nothing of what is declared. -/
theorem declaredOf_retimed (mono : Nat) (z : Zone) (t : ZoneTimers) (k : Threshold) :
    declaredOf (retimeZone mono { z with timers := t }) k = declaredOf z k := by cases k <;> rfl

theorem declaredOf_declared (k : Threshold) (z : Zone) : declaredOf (declared k z) k = true := by cases k <;> rfl

theorem declaredOf_undeclare (k : Threshold) (z : Zone) : declaredOf (undeclare k z) k = false := by cases k <;> rfl

section
variable {z : Fin 6} {k : Threshold} {m : Nat} {s : State}

/-- The state when a zone's dwell has passed. -/
abbrev afterDwell (z : Fin 6) (m : Nat) (s : State) : State := advanceMono (m + dwellQ s.thm.zone[z]) s

theorem exec_thresholdDeclared (runs : timerOf (s.thm.zone[z]).timers k = some m) (below : declaredOf s.thm.zone[z] k = false) :
    exec (.thresholdDeclared z k) s = .next (onZone z
      (fun x => retimeZone (declareThreshold z k (afterDwell z m s)).time.mono { x with timers := stopTimer k x.timers })
      (declareThreshold z k (afterDwell z m s))) := by
  show execThresholdDeclared z k s = _
  rw [execThresholdDeclared]
  dsimp only
  rw [runs]
  exact if_neg (by rw [below]; decide)

theorem exec_thresholdCleared (runs : timerOf (s.thm.zone[z]).timers k = some m) (above : declaredOf s.thm.zone[z] k = true) :
    exec (.thresholdCleared z k) s = .next (onZone z
      (fun x => retimeZone (afterDwell z m s).time.mono { undeclare k x with timers := stopTimer k x.timers }) (afterDwell z m s)) := by
  show execThresholdCleared z k s = _
  rw [execThresholdCleared]
  dsimp only
  rw [runs]
  exact if_pos above

theorem exec_threshold_still (still : timerOf (s.thm.zone[z]).timers k = none) :
    exec (.thresholdDeclared z k) s = .next s ∧ exec (.thresholdCleared z k) s = .next s := by
  constructor
  · show execThresholdDeclared z k s = _
    rw [execThresholdDeclared, still]
  · show execThresholdCleared z k s = _
    rw [execThresholdCleared, still]

theorem does_thresholdDeclared (runs : timerOf (s.thm.zone[z]).timers k = some m) (below : declaredOf s.thm.zone[z] k = false) :
    Does (.thresholdDeclared z k) s fun t =>
      declaredOf t.thm.zone[z] k = true ∧ t.time.mono = max s.time.mono (m + dwellQ s.thm.zone[z]) ∧
      (∀ y : Fin 6, y ≠ z → t.thm.zone[y] = s.thm.zone[y]) ∧ t = { afterDwell z m s with thm := t.thm, flt := t.flt } := by
  have mono := advanceMono_mono (m + dwellQ s.thm.zone[z]) s
  obtain ⟨frame, zone⟩ := declareThreshold_declares z k (afterDwell z m s)
  rw [advanceMono_thm] at zone
  refine ⟨_, exec_thresholdDeclared runs below, ?_⟩
  generalize declareThreshold z k (afterDwell z m s) = t at *
  have time : t.time = (afterDwell z m s).time := by rw [frame]
  refine ⟨?_, (congrArg (·.mono) time).trans mono, fun y away => ?_, ?_⟩
  · rw [onZone_self, declaredOf_retimed, zone]
    exact (congrArg (declaredOf · k) (upd_self ..)).trans (declaredOf_declared ..)
  · rw [onZone_other away, zone]
    exact upd_other _ _ _ _ away
  · rw [onZone, onThm]
    generalize hu : ({ t.thm with zone := _ } : Thermal) = u
    rw [frame]

theorem does_thresholdCleared (runs : timerOf (s.thm.zone[z]).timers k = some m) (above : declaredOf s.thm.zone[z] k = true) :
    Does (.thresholdCleared z k) s fun t =>
      declaredOf t.thm.zone[z] k = false ∧ t.time.mono = max s.time.mono (m + dwellQ s.thm.zone[z]) ∧
      (∀ y : Fin 6, y ≠ z → t.thm.zone[y] = s.thm.zone[y]) ∧ t = { afterDwell z m s with thm := t.thm } := by
  refine ⟨_, exec_thresholdCleared runs above, ?_, advanceMono_mono .., fun y away => ?_, rfl⟩
  · rw [onZone_self, declaredOf_retimed]
    exact declaredOf_undeclare ..
  · rw [onZone_other away, advanceMono_thm]

end


/-! ### Thaw ends (R115) -/

/-- The state after the end of Thaw, before its ports go on. -/
def thawed (m : Nat) (s : State) : State :=
  onThm (fun t => { t with thaw := false, zone := t.zone.map (endCold (advanceMono m s).time.mono) }) (advanceMono m s)

theorem thawed_cold (m : Nat) (s : State) (z : Fin 6) : ((thawed m s).thm.zone[z]).cold = false := by
  simp [thawed, onThm, endCold, retimeZone]

/-- The ports that Thaw held back go on. -/
def deferredStarted (s : State) : State :=
  onTiles (fun x => { x with
    tile := updAll x.tile fun t y => { y with fullCal := y.fullCal || deferredFullCal t s }
    tx := x.tx.map startDeferred
    rx := x.rx.map fun y =>
      if y.radio.deferred then { y with radio := { y.radio with deferred := false, deferredCal := false, target := .active } } else y }) s

theorem exec_thawEnd {m : Nat} {s : State} (held : allHeld (·.thaw) s = some m) (thaws : s.thm.thaw = true) :
    exec .thawEnd s = .next (settle (deferredStarted (thawed m s))) := by
  show execThawEnd s = _
  rw [execThawEnd, held]
  exact if_pos thaws

theorem does_thawEnd {m : Nat} {s : State} (held : allHeld (·.thaw) s = some m) (thaws : s.thm.thaw = true) : Does .thawEnd s fun t =>
    t.thm.thaw = false ∧ ∀ z : Fin 6, (t.thm.zone[z]).cold = false := by
  have cold := thawed_cold m s
  refine ⟨_, exec_thawEnd held thaws, ?_⟩
  rw [settle_frame]
  exact ⟨rfl, cold⟩

/-! ### Overcast (R632 to R635) -/

/-- Which slice is shed next rests on the slices, the zones and what has been shed. -/
theorem nextShed_congr {s t : State} (slices : t.slices = s.slices) (zone : t.thm.zone = s.thm.zone)
    (shed : t.thm.overcast.shed = s.thm.overcast.shed) : nextShed t = nextShed s := by
  simp only [nextShed, shedCandidates, liveDef, throttledZones, slices, zone, shed]

/-- The state when an interval has passed since the last step of Overcast. -/
def afterInterval (s : State) : State := advanceMono (s.thm.overcast.last + s.thm.interval * 4000000) s

theorem afterInterval_thm (s : State) : (afterInterval s).thm = s.thm := advanceMono_thm ..
theorem afterInterval_slices (s : State) : (afterInterval s).slices = s.slices := advanceMono_slices ..
theorem afterInterval_flt (s : State) : (afterInterval s).flt = s.flt := advanceMono_flt ..

theorem afterInterval_throttle (s : State) : anyThrottle (afterInterval s) = anyThrottle s := by rw [anyThrottle, anyThrottle, afterInterval_thm]

/-- The instant of a step is noted. -/
def stepNoted (s : State) : State := onThm (fun t => { t with overcast := { t.overcast with last := s.time.mono } }) s

section
variable {s : State}

theorem exec_overcastStep (on : s.thm.overcast.stage ≠ 0) : exec .overcastStep s = .next (stepNoted
    (if anyThrottle s then overcastAdvance (afterInterval s) else overcastRetreat (afterInterval s))) := by
  rw [← afterInterval_throttle]
  exact if_neg on

theorem exec_overcastStep_off (off : s.thm.overcast.stage = 0) : exec .overcastStep s = .next s := if_pos off

theorem overcastAdvance_asks {t : State} (more : t.thm.overcast.request < 300) : overcastAdvance t =
    onThm (fun x => { x with overcast := { x.overcast with stage := 2, request := x.overcast.request + 50 } }) t := if_pos more

theorem does_overcast_asks (on : s.thm.overcast.stage ≠ 0) (hot : anyThrottle s = true) (more : s.thm.overcast.request < 300) :
    Does .overcastStep s fun t =>
      t.thm.overcast = { s.thm.overcast with stage := 2, request := s.thm.overcast.request + 50, last := t.time.mono } ∧
      t.time.mono = max s.time.mono (s.thm.overcast.last + s.thm.interval * 4000000) ∧ t = { afterInterval s with thm := t.thm } := by
  refine ⟨_, exec_overcastStep on, ?_⟩
  have mono : (afterInterval s).time.mono = max s.time.mono (s.thm.overcast.last + s.thm.interval * 4000000) := advanceMono_mono ..
  have thm := afterInterval_thm s
  rw [if_pos hot, overcastAdvance_asks (by rw [thm]; exact more)]
  generalize afterInterval s = t at *
  refine ⟨?_, mono, rfl⟩
  rw [← thm]
  rfl

/-- A shed marks its slice and counts an event of source 275. -/
theorem shedOne_next {sl : SliceId} {t : State} (next : nextShed t = some sl) :
    ∃ d, shedOne t = raise 275 (target .slice sl) d (onSlice sl (fun x => { x with shed := true })
      (onThm (fun x => { x with overcast := { x.overcast with stage := 3, shed := sl :: x.overcast.shed } }) t)) := by
  have same : nextShed (onThm (fun x => { x with overcast := { x.overcast with stage := 3 } }) t) = some sl :=
    (nextShed_congr rfl rfl rfl).trans next
  rw [shedOne]
  dsimp only
  rw [same]
  exact ⟨_, rfl⟩

theorem does_overcast_sheds {sl : SliceId} (on : s.thm.overcast.stage ≠ 0) (hot : anyThrottle s = true) (most : 300 ≤ s.thm.overcast.request)
    (next : nextShed s = some sl) : Does .overcastStep s fun t =>
      t.thm.overcast = { s.thm.overcast with stage := 3, shed := sl :: s.thm.overcast.shed, last := t.time.mono } ∧
      (t.slices.slice[sl]).shed = true ∧ (∀ k : SliceId, k ≠ sl → t.slices.slice[k] = s.slices.slice[k]) ∧
      (t.flt.sources[(275 : Fin 320)]).events = (s.flt.sources[(275 : Fin 320)]).events + 1 := by
  have thm := afterInterval_thm s
  have slices := afterInterval_slices s
  have flt := afterInterval_flt s
  have same : nextShed (afterInterval s) = some sl :=
    (nextShed_congr slices (by rw [thm]) (by rw [thm])).trans next
  have sheds : overcastAdvance (afterInterval s) = shedOne (afterInterval s) := if_neg (by rw [thm]; omega)
  refine ⟨_, exec_overcastStep on, ?_⟩
  rw [if_pos hot, sheds]
  generalize afterInterval s = t at *
  obtain ⟨d, shed⟩ := shedOne_next same
  rw [shed, ← thm, ← slices, ← flt]
  refine ⟨rfl, ?_, fun k away => ?_, raise_events ..⟩
  · exact congrArg Slice.shed (onSlice_self ..)
  · exact onSlice_other away ..

theorem does_overcast_restores {sl : SliceId} {rest : List SliceId} (on : s.thm.overcast.stage ≠ 0) (cool : anyThrottle s = false)
    (some : s.thm.overcast.shed = sl :: rest) : Does .overcastStep s fun t =>
      t.thm.overcast = { s.thm.overcast with stage := if rest.isEmpty then 2 else 3, shed := rest, last := t.time.mono } ∧
      (t.slices.slice[sl]).shed = false ∧ (∀ k : SliceId, k ≠ sl → t.slices.slice[k] = s.slices.slice[k]) ∧ t.flt = s.flt := by
  have thm := afterInterval_thm s
  have slices := afterInterval_slices s
  have flt := afterInterval_flt s
  refine ⟨_, exec_overcastStep on, ?_⟩
  rw [if_neg (Bool.eq_false_iff.mp cool), ← slices, ← flt, overcastRetreat, thm, some]
  generalize afterInterval s = t at *
  refine ⟨by rw [← thm]; rfl, ?_, fun k away => ?_, rfl⟩
  · exact congrArg Slice.shed (onSlice_self ..)
  · exact onSlice_other away ..

theorem does_overcast_retreats (on : s.thm.overcast.stage ≠ 0) (cool : anyThrottle s = false) (none : s.thm.overcast.shed = [])
    (asks : s.thm.overcast.request ≠ 0) : Does .overcastStep s fun t =>
      t.thm.overcast =
        { s.thm.overcast with request := s.thm.overcast.request - 50, stage := if s.thm.overcast.request ≤ 50 then 1 else 2, last := t.time.mono } ∧
      t.slices = s.slices ∧ t.flt = s.flt := by
  have thm := afterInterval_thm s
  have slices := afterInterval_slices s
  have flt := afterInterval_flt s
  refine ⟨_, exec_overcastStep on, ?_⟩
  rw [if_neg (Bool.eq_false_iff.mp cool), ← slices, ← flt, overcastRetreat, thm, none]
  dsimp only
  rw [if_pos asks]
  generalize afterInterval s = t at *
  exact ⟨by rw [← thm]; rfl, rfl, rfl⟩

theorem does_overcast_ends (on : s.thm.overcast.stage ≠ 0) (cool : anyThrottle s = false) (none : s.thm.overcast.shed = [])
    (asks : s.thm.overcast.request = 0) : Does .overcastStep s fun t =>
      t.thm.overcast = { s.thm.overcast with stage := 0, slow := false, last := t.time.mono } ∧ t = { afterInterval s with thm := t.thm } := by
  have thm := afterInterval_thm s
  refine ⟨_, exec_overcastStep on, ?_⟩
  rw [if_neg (Bool.eq_false_iff.mp cool), overcastRetreat, thm, none]
  dsimp only
  rw [if_neg (not_not.mpr asks)]
  generalize afterInterval s = t at *
  exact ⟨by rw [← thm]; rfl, rfl⟩

end

/-! ### The thermal halt (R637 to R639) -/

/-- A halt source is recorded as set, before error 138 and the outputs follow. -/
def sourceSet (k : HaltCause) (s : State) : State :=
  protRecord (haltCode k) 0 0xFF 0 0 (onNps (fun n => { setHaltOf k true n with haltTime := s.stamp }) s)

theorem sourceSet_flt (k : HaltCause) (s : State) : (sourceSet k s).flt = s.flt := protRecord_flt ..

/-- Setting a source that is not active asserts error 138. -/
theorem setHalt_sourceSet {k : HaltCause} {s : State} (idle : haltOf s.nps k = false) :
    setHalt k s = settle (setCond 138 true 0 0 (sourceSet k s)) := setHalt_idle idle

/-- Setting a halt source counts no event but that of error 138. -/
theorem setHalt_source {x : Fin 320} (h : x ≠ 138) (k : HaltCause) (s : State) : (setHalt k s).flt.sources[x] = s.flt.sources[x] := by
  cases active : haltOf s.nps k with
  | true => rw [setHalt, if_pos active]
  | false =>
    have kept := sourceSet_flt k s
    rw [setHalt_sourceSet active]
    generalize sourceSet k s = t at *
    rw [settle_flt, setCond_other h, kept]

/-- The thermal halt is set. -/
def haltedThm (z : Fin 6) (s : State) : State :=
  onThm (fun t => { t with halted := true, zone := t.zone.map (restartHalt s.time.mono) }) (onZone z (fun z => { z with critical := true }) s)

theorem restartHalt_critical (m : Nat) (z : Zone) : (restartHalt m z).critical = z.critical := rfl

theorem haltedThm_zone (z : Fin 6) (s : State) :
    (haltedThm z s).thm.zone = (onZone z (fun z => { z with critical := true }) s).thm.zone.map (restartHalt s.time.mono) := by
  rw [haltedThm, onThm_thm]

theorem haltedThm_critical (z : Fin 6) (s : State) : ((haltedThm z s).thm.zone[z]).critical = true := by
  rw [haltedThm_zone, Fin.getElem_fin, Vector.getElem_map, restartHalt_critical]
  exact congrArg Zone.critical (onZone_self z (fun z => { z with critical := true }) s)

/-- Every slice is gated with its engine. -/
def gatedAll (s : State) : State := onSlices (fun x => { x with slice := x.slice.map gateSlice }) s

theorem gated_running {sl : SliceId} {s : State} (runs : (s.slices.slice[sl]).state = .running) :
    ((gatedAll s).slices.slice[sl]).state = .stopped := by
  simp_all [gatedAll, onSlices, gateSlice]

theorem does_criticalDeclared {z : Fin 6} {i : Fin 24} {s : State} (calm : (s.thm.zone[z]).critical = false) (there : i ∈ zoneSensors z)
    (works : (s.thm.sensor[i]).failed = false) (hot : 4 ≤ (s.thm.sensor[i]).hot) : Does (.criticalDeclared z) s fun t =>
      (t.thm.zone[z]).critical = true ∧ t.thm.halted = true ∧ haltOf t.nps .thermal = true ∧
      (∀ sl : SliceId, (s.slices.slice[sl]).state = .running → (t.slices.slice[sl]).state = .stopped) ∧
      (t.flt.sources[(276 : Fin 320)]).events = (s.flt.sources[(276 : Fin 320)]).events + 1 := by
  have declares : exec (.criticalDeclared z) s =
      .next (raise 276 0 (zoneDetail z (gatedAll (setHalt .thermal (haltedThm z s)))) (gatedAll (setHalt .thermal (haltedThm z s)))) := by
    have any : (zoneSensors z).any (fun i => !(s.thm.sensor[i]).failed && decide (4 ≤ (s.thm.sensor[i]).hot)) = true :=
      List.any_eq_true.mpr ⟨i, there, by rw [works, decide_eq_true hot]; rfl⟩
    refine if_neg ?_
    rw [calm, any]
    decide
  have critical := haltedThm_critical z s
  have halts := haltOf_setHalt .thermal .thermal (haltedThm z s)
  have work := setHalt_haltWork .thermal (haltedThm z s)
  have source := setHalt_source (x := 276) (by decide) .thermal (haltedThm z s)
  refine ⟨_, declares, ?_⟩
  generalize setHalt .thermal (haltedThm z s) = t at *
  have thm := work.thm
  refine ⟨?_, ?_, halts, fun sl runs => gated_running ?_, (raise_events ..).trans ?_⟩
  · rw [← thm] at critical
    exact critical
  · show t.thm.halted = true
    rw [thm]
    rfl
  · rw [work.slices]
    exact runs
  · exact congrArg (·.events + 1) source

theorem exec_thermalHaltEnd {m : Nat} {s : State} (held : allHeld (·.halt) s = some m) (halted : s.thm.halted = true) :
    exec .thermalHaltEnd s = .next ((indices 256).foldl (fun s sl => if haltStopped sl s then restartPresent true sl s else s)
      (clearHalt .thermal { advanceMono m s with
        thm := { s.thm with halted := false, zone := s.thm.zone.map fun z => { z with critical := false } } })) := by
  show execThermalHaltEnd s = _
  rw [execThermalHaltEnd, held]
  dsimp only
  rw [if_pos halted, onThm, advanceMono_thm]

/-- Settles O57: each clause is the outcome of its command, which the laws above give for each branch. -/
theorem thermalManagement : Obligations.ThermalManagement :=
  ⟨does_thermalSample,
    fun _ _ _ _ runs below => does_thresholdDeclared runs below,
    fun _ _ _ _ runs above => does_thresholdCleared runs above,
    fun _ _ _ still => exec_threshold_still still,
    fun _ _ held thaws => does_thawEnd held thaws,
    fun _ on hot more => does_overcast_asks on hot more,
    fun _ on cool none asks => does_overcast_ends on cool none asks,
    fun _ _ _ calm there works hot => does_criticalDeclared calm there works hot,
    fun _ _ held halted => exec_thermalHaltEnd held halted,
    fun _ _ on hot most next => does_overcast_sheds on hot most next,
    fun _ _ _ on cool some => does_overcast_restores on cool some,
    fun _ on cool none asks => does_overcast_retreats on cool none asks,
    fun _ off => exec_overcastStep_off off⟩

end Sys2Proof.Machine
end

section
/-! PROOFS. The boot runs a firmware and selects a configuration (R104 to R108, R119; O8). -/
namespace Sys2Proof.Machine
open Sys2Proof

/-! ### What the flash records change at boot (R558, R559, R647) -/

/-- What loading the records of flash leaves alone: the boot, the running firmware and min_svn, and which banks are zeroed. -/
structure RecordsLoaded (s t : State) : Prop where
  boot : t.boot = s.boot
  running : t.sec.running = s.sec.running
  slot : t.sec.slot = s.sec.slot
  minSvn : t.sec.minSvn = s.sec.minSvn
  zeroed : ∀ b : Fin 48, (t.mem.bank[b]).zeroed = (s.mem.bank[b]).zeroed

theorem RecordsLoaded.refl (s : State) : RecordsLoaded s s := ⟨rfl, rfl, rfl, rfl, fun _ => rfl⟩

theorem RecordsLoaded.trans {s t u : State} (h : RecordsLoaded s t) (k : RecordsLoaded t u) : RecordsLoaded s u where
  boot := k.boot.trans h.boot
  running := k.running.trans h.running
  slot := k.slot.trans h.slot
  minSvn := k.minSvn.trans h.minSvn
  zeroed b := (k.zeroed b).trans (h.zeroed b)

theorem raise_recordsLoaded (src : Fin 320) (u d : Nat) (s : State) : RecordsLoaded s (raise src u d s) := ⟨rfl, rfl, rfl, rfl, fun _ => rfl⟩

theorem reportCopies_recordsLoaded {n : Nat} (ok : Vector Bool n) (s : State) : RecordsLoaded s (reportCopies ok s) := by
  refine foldl_keeps RecordsLoaded .refl .trans _ (fun t i => ?_) (indices n) s
  split
  · exact .refl t
  · exact raise_recordsLoaded ..

theorem onMap_recordsLoaded (f : RetireMap → RetireMap) (s : State) : RecordsLoaded s (onMap f s) := ⟨rfl, rfl, rfl, rfl, fun _ => rfl⟩

theorem onThm_recordsLoaded (f : Thermal → Thermal) (s : State) : RecordsLoaded s (onThm f s) := ⟨rfl, rfl, rfl, rfl, fun _ => rfl⟩

theorem applyMap_bank (s : State) : (applyMap s).mem.bank =
    updAll s.mem.bank fun b x => if s.map.banks.getLsbD b then { x with state := .retired } else x := by rw [applyMap]

theorem applyMap_zeroed (s : State) (b : Fin 48) : ((applyMap s).mem.bank[b]).zeroed = (s.mem.bank[b]).zeroed := by
  rw [applyMap_bank, Fin.getElem_fin, updAll_get]
  split <;> rfl

theorem applyMap_recordsLoaded (s : State) : RecordsLoaded s (applyMap s) where
  boot := by rw [applyMap]
  running := by rw [applyMap]
  slot := by rw [applyMap]
  minSvn := by rw [applyMap]
  zeroed := applyMap_zeroed s

/-- The owner keys as the check of the key record leaves them. -/
theorem onSec_recordsLoaded {f : Security → Security} (running : ∀ x, (f x).running = x.running) (slot : ∀ x, (f x).slot = x.slot)
    (minSvn : ∀ x, (f x).minSvn = x.minSvn) (s : State) : RecordsLoaded s (onSec f s) where
  boot := onSec_boot ..
  running := by rw [onSec_sec, running]
  slot := by rw [onSec_sec, slot]
  minSvn := by rw [onSec_sec, minSvn]
  zeroed b := by rw [onSec_mem]

theorem checkKeys_recordsLoaded (keys : Vector Bool 4) (s : State) : RecordsLoaded s (checkKeys keys s) := by
  unfold checkKeys
  extract_lets bad u
  have reported : RecordsLoaded s u := reportCopies_recordsLoaded ..
  clear_value u
  refine reported.trans (onSec_recordsLoaded ?_ ?_ ?_ u) <;> exact fun _ => rfl

/-! ### A firmware runs (R104 to R107) -/

theorem zeroBanks_bank (skip : BitVec 48) (s : State) : (zeroBanks skip s).mem.bank =
    updAll s.mem.bank fun b x => { x with zeroed := !(if s.boot.cold then skip else BitVec.allOnes 48).getLsbD b } := by
  rw [zeroBanks, onMem_mem, onBoot_mem]

theorem zeroBanks_boot (skip : BitVec 48) (s : State) :
    (zeroBanks skip s).boot = { s.boot with skipped := if s.boot.cold then skip else BitVec.allOnes 48 } := by
  rw [zeroBanks, onMem_boot, onBoot_boot]

/-- The firmware of a slot runs, and the records are still to be loaded. -/
def firmwareStarted (slot : Bool) (f : Firmware) (skip : BitVec 48) (s : State) : State :=
  onSec (fun x => { x with running := some f, slot := slot })
    (onBoot (fun b => { b with stage := .fwRun, fwSlot := slot, fwFallback := slot != s.flash.boot }) (zeroBanks skip s))

section
variable (slot : Bool) (f : Firmware) (skip : BitVec 48) (s : State)

theorem firmwareStarted_boot : (firmwareStarted slot f skip s).boot =
    { s.boot with
      skipped := if s.boot.cold then skip else BitVec.allOnes 48, stage := .fwRun, fwSlot := slot, fwFallback := slot != s.flash.boot } := by
  rw [firmwareStarted, onSec_boot, onBoot_boot, zeroBanks_boot]

theorem firmwareStarted_sec : (firmwareStarted slot f skip s).sec = { s.sec with running := some f, slot := slot } := by
  rw [firmwareStarted, onSec_sec, onBoot_sec, zeroBanks, onMem_sec, onBoot_sec]

theorem firmwareStarted_zeroed (b : Fin 48) : ((firmwareStarted slot f skip s).mem.bank[b]).zeroed =
    !(if s.boot.cold then skip else BitVec.allOnes 48).getLsbD b := by
  rw [firmwareStarted, onSec_mem, onBoot_mem, zeroBanks_bank, Fin.getElem_fin, updAll_get]

end

theorem runFirmware_recordsLoaded (slot : Bool) (f : Firmware) (maps ledgers : Vector Bool 2) (keys : Vector Bool 4) (skip : BitVec 48) (s : State) :
    RecordsLoaded (firmwareStarted slot f skip s) (runFirmware slot f maps ledgers keys skip s) := by
  unfold runFirmware
  extract_lets fall a b c d e
  have fallen : RecordsLoaded b c := by
    show RecordsLoaded b (if fall then raise 288 0 0 b else b)
    split
    · exact raise_recordsLoaded ..
    · exact .refl b
  have mapped : RecordsLoaded c d :=
    ((reportCopies_recordsLoaded maps c).trans (onMap_recordsLoaded ..)).trans (applyMap_recordsLoaded _)
  have ledger : RecordsLoaded d e := by
    show RecordsLoaded d (if d.boot.cold then _ else d)
    split
    · exact (reportCopies_recordsLoaded ledgers d).trans (onThm_recordsLoaded ..)
    · exact .refl d
  exact ((fallen.trans mapped).trans ledger).trans (checkKeys_recordsLoaded keys e)

section
variable {okA okB : Bool} {maps ledgers : Vector Bool 2} {keys : Vector Bool 4} {skip : BitVec 48} {f : Firmware} {s : State}

/-- The image of the current slot, and of the other one, that the boot ROM may boot. -/
abbrev currentFit (okA okB : Bool) (s : State) : Option Firmware :=
  if s.flash.boot then bootable okB s.sec.fw[1] s else bootable okA s.sec.fw[0] s

/-- See `currentFit`. -/
abbrev otherFit (okA okB : Bool) (s : State) : Option Firmware :=
  if s.flash.boot then bootable okA s.sec.fw[0] s else bootable okB s.sec.fw[1] s

theorem exec_fwRun (early : s.boot.stage = .rom ∨ s.boot.stage = .fwVerify) : exec (.fwRun okA okB maps ledgers keys skip) s =
    .next (match currentFit okA okB s, otherFit okA okB s with
      | some f, _ => runFirmware s.flash.boot f maps ledgers keys skip s
      | none, some f => runFirmware (!s.flash.boot) f maps ledgers keys skip s
      | none, none => onBoot (fun b => { b with stage := .recovery }) (zeroBanks skip s)) := by
  refine (if_neg ?_).trans ?_
  · rcases early with h | h <;> simp [h]
  · change (match currentFit okA okB s, otherFit okA okB s with
      | some f, _ => _
      | none, some f => _
      | none, none => _) = _
    cases currentFit okA okB s with
    | some f => rfl
    | none => cases otherFit okA okB s <;> rfl

theorem does_fwRun_current (early : s.boot.stage = .rom ∨ s.boot.stage = .fwVerify) (fit : currentFit okA okB s = some f) :
    Does (.fwRun okA okB maps ledgers keys skip) s fun t =>
      t.boot.stage = .fwRun ∧ t.boot.fwSlot = s.flash.boot ∧ t.boot.fwFallback = false ∧ t.sec.running = some f ∧ t.sec.slot = s.flash.boot ∧
      t.sec.minSvn = s.sec.minSvn ∧ t.boot.skipped = (if s.boot.cold then skip else BitVec.allOnes 48) ∧
      (∀ b : Fin 48, (t.mem.bank[b]).zeroed = !t.boot.skipped.getLsbD b) := by
  have loaded := runFirmware_recordsLoaded s.flash.boot f maps ledgers keys skip s
  have boot := loaded.boot.trans (firmwareStarted_boot ..)
  have sec := firmwareStarted_sec s.flash.boot f skip s
  refine ⟨runFirmware s.flash.boot f maps ledgers keys skip s, (exec_fwRun early).trans (by rw [fit]), ?_⟩
  dsimp only
  rw [boot, loaded.running, loaded.slot, loaded.minSvn, sec]
  exact ⟨rfl, rfl, bne_self_eq_false _, rfl, rfl, rfl, rfl, fun b => (loaded.zeroed b).trans (firmwareStarted_zeroed ..)⟩

theorem does_fwRun_other (early : s.boot.stage = .rom ∨ s.boot.stage = .fwVerify) (unfit : currentFit okA okB s = none)
    (fit : otherFit okA okB s = some f) : Does (.fwRun okA okB maps ledgers keys skip) s fun t =>
      t.boot.stage = .fwRun ∧ t.boot.fwSlot = !s.flash.boot ∧ t.boot.fwFallback = true ∧ t.sec.running = some f := by
  have loaded := runFirmware_recordsLoaded (!s.flash.boot) f maps ledgers keys skip s
  have boot := loaded.boot.trans (firmwareStarted_boot ..)
  have sec := firmwareStarted_sec (!s.flash.boot) f skip s
  refine ⟨runFirmware (!s.flash.boot) f maps ledgers keys skip s, (exec_fwRun early).trans (by rw [unfit, fit]), ?_⟩
  dsimp only
  rw [boot, loaded.running, sec]
  exact ⟨rfl, rfl, Bool.not_bne_self _, rfl⟩

theorem does_fwRun_recovery (early : s.boot.stage = .rom ∨ s.boot.stage = .fwVerify) (noA : bootable okA s.sec.fw[0] s = none)
    (noB : bootable okB s.sec.fw[1] s = none) : Does (.fwRun okA okB maps ledgers keys skip) s fun t =>
      t.boot.stage = .recovery ∧ t.sec = s.sec ∧ t.hif = s.hif := by
  have unfit : currentFit okA okB s = none := by rw [currentFit, noA, noB, ite_self]
  have other : otherFit okA okB s = none := by rw [otherFit, noA, noB, ite_self]
  exact ⟨onBoot (fun b => { b with stage := .recovery }) (zeroBanks skip s), (exec_fwRun early).trans (by rw [unfit, other]), rfl, rfl, rfl⟩

end

/-! ### The configuration of the boot (R108, R119, R129) -/

/-- What follows the choice of the configuration leaves the boot and the ACTIVE image alone. -/
def BootKept (s t : State) : Prop := t.boot = s.boot ∧ t.cfg.active = s.cfg.active

theorem BootKept.trans {s t u : State} (h : BootKept s t) (k : BootKept t u) : BootKept s u := ⟨k.1.trans h.1, k.2.trans h.2⟩

theorem Settled.bootKept {s t : State} (h : Settled s t) : BootKept s t := by
  rw [h]
  exact ⟨rfl, rfl⟩

theorem HaltWork.bootKept {s t : State} (h : HaltWork s t) : BootKept s t := ⟨h.boot, congrArg (·.active) h.cfg⟩

theorem dropCopy_bootKept (s : State) : BootKept s (dropCopy s) := by
  unfold dropCopy
  split
  · exact ⟨rfl, rfl⟩
  · exact BootKept.trans (t := bumpGen (onPlc (fun p => { p with stagedBank := none }) s)) ⟨rfl, rfl⟩ (settleUnits_settled _).bootKept

theorem writeDirectory_bootKept (s : State) : BootKept s (writeDirectory s) := by
  rw [writeDirectory, queueFlash_frame]
  exact ⟨rfl, rfl⟩

theorem emptyStaged_bootKept (s : State) : BootKept s (emptyStaged s) := by
  have emptied : BootKept s (onCfg (fun c => { c with staged := none, returned := false }) s) := ⟨rfl, rfl⟩
  have dropped := dropCopy_bootKept (onCfg (fun c => { c with staged := none, returned := false }) s)
  exact (emptied.trans dropped).trans ((writeDirectory_bootKept _).trans ⟨raise_boot .., congrArg (·.active) (raise_cfg ..)⟩)

theorem bootStaged_bootKept (verified : Vector Bool 3) (s : State) : BootKept s (bootStaged verified s) := by
  unfold bootStaged
  split
  · split
    · exact ⟨rfl, rfl⟩
    · split
      · split <;> exact ⟨rfl, rfl⟩
      · exact emptyStaged_bootKept s
  · split
    · exact emptyStaged_bootKept s
    · exact ⟨rfl, rfl⟩

/-- The end of READY. -/
def bootEnded (verified : Vector Bool 3) (s : State) : State := clearHalt .reset (trimShed (bootStaged verified s))

theorem bootEnded_bootKept (verified : Vector Bool 3) (s : State) : BootKept s (bootEnded verified s) :=
  ((bootStaged_bootKept verified s).trans (t := bootStaged verified s) (u := trimShed (bootStaged verified s)) ⟨rfl, rfl⟩).trans
    (clearHalt_haltWork ..).bootKept

theorem bootNothing_bootKept (s : State) : (bootNothing s).boot = { s.boot with stage := .noConfig, cfgSource := 0, cfgVersion := 0 } ∧
    (bootNothing s).cfg.active = s.cfg.active := by
  have kept := (settleUnits_settled (countStreams s)).bootKept
  obtain ⟨boot, active⟩ := kept
  refine ⟨?_, active⟩
  rw [bootNothing, onBoot_boot, boot]
  rfl

section
variable {verified : Vector Bool 3} {s : State}

/-- READY in a stage that loads the configuration. -/
theorem exec_ready (loads : s.boot.stage = .fwRun ∨ s.boot.stage = .cfgLoad) : exec (.ready verified) s =
    .next (bootEnded verified (match (loadSlots s).cfg.active with
      | some x => if bootVerifies verified (loadSlots s) x && (loadSlots s).cfg.confirmed then bootApply 1 x (loadSlots s)
        else bootReturn verified (!bootVerifies verified (loadSlots s) x) (loadSlots s)
      | none => if (flashDirectory s).active.isSome then bootReturn verified true (loadSlots s) else bootNothing (loadSlots s))) := by
  refine (if_neg ?_).trans rfl
  rcases loads with h | h <;> simp [h]

theorem does_ready_nothing (loads : s.boot.stage = .fwRun ∨ s.boot.stage = .cfgLoad) (none : (flashDirectory s).active = none) :
    Does (.ready verified) s fun t => t.boot.stage = .noConfig ∧ t.boot.cfgSource = 0 ∧ t.boot.cfgVersion = 0 ∧ t.cfg.active = .none := by
  have active : (loadSlots s).cfg.active = .none := congrArg (fun r => roleSlot r s) none
  obtain ⟨boot, same⟩ := bootNothing_bootKept (loadSlots s)
  obtain ⟨keepsBoot, keepsActive⟩ := bootEnded_bootKept verified (bootNothing (loadSlots s))
  refine ⟨bootEnded verified (bootNothing (loadSlots s)), (exec_ready loads).trans (by rw [active, none]; rfl), ?_⟩
  dsimp only
  rw [keepsBoot, keepsActive, boot, same, active]
  exact ⟨rfl, rfl, rfl, rfl⟩

theorem does_ready_active {x : Slot} (loads : s.boot.stage = .fwRun ∨ s.boot.stage = .cfgLoad) (active : (loadSlots s).cfg.active = some x)
    (fit : bootVerifies verified (loadSlots s) x = true) (confirmed : (loadSlots s).cfg.confirmed = true) :
    Does (.ready verified) s fun t => t.boot.stage = .ready ∧ t.boot.cfgSource = 1 ∧ t.boot.cfgVersion = x.image.version := by
  have kept := (bootEnded_bootKept verified (bootApply 1 x (loadSlots s))).1
  refine ⟨bootEnded verified (bootApply 1 x (loadSlots s)), (exec_ready loads).trans (by rw [active]; dsimp only; rw [fit, confirmed]; rfl), ?_⟩
  dsimp only
  rw [kept, bootApply, onBoot_boot]
  exact ⟨rfl, rfl, rfl⟩

end

/-- Settles O8: FW_RUN by the fitness of the two slots, READY by the ACTIVE role that flash names. -/
theorem firmwareBoot : Obligations.FirmwareBoot :=
  ⟨fun _ _ _ _ _ _ _ _ early fit => does_fwRun_current early fit,
    fun _ _ _ _ _ _ _ _ early unfit fit => does_fwRun_other early unfit fit,
    fun _ _ _ _ _ _ _ early noA noB => does_fwRun_recovery early noA noB,
    fun _ _ loads none _ => does_ready_nothing loads none,
    fun _ _ _ loads active fit confirmed => does_ready_active loads active fit confirmed⟩

end Sys2Proof.Machine
end

section
/-! PROOFS. What ending the moves of a slice in shadow touches (R362, R456, R460): placement and memory, slices that stop or restart, and the sources of
their errors. -/
namespace Sys2Proof.Machine
open Sys2Proof

/-! ### Placement alone -/

/-- The parts of the state that a change of placement with its records may touch. -/
def Replaced (s t : State) : Prop := t = { s with plc := t.plc, mem := t.mem, evr := t.evr, pmc := t.pmc }

theorem Replaced.refl (s : State) : Replaced s s := rfl

theorem Replaced.trans {s t u : State} (h : Replaced s t) (k : Replaced t u) : Replaced s u := by
  unfold Replaced at *
  rw [k, h]

theorem onPlc_replaced (f : Placement → Placement) (s : State) : Replaced s (onPlc f s) := rfl

theorem recordNow_replaced (p : Payload) (s : State) : Replaced s (recordNow p s) := by
  unfold Replaced
  rw [recordNow_frame]

theorem bumpGen_replaced (s : State) : Replaced s (bumpGen s) := onPlc_replaced _ s

theorem moveRecord_replaced (ev : Nat) (m : Move) (s : State) : Replaced s (moveRecord ev m s) := recordNow_replaced ..

theorem freeBuffers_replaced (f : BufKey → Bool) (s : State) : Replaced s (freeBuffers f s) := rfl

theorem abandonMoves_replaced (sl : SliceId) (s : State) : Replaced s (abandonMoves sl s) := by
  unfold abandonMoves dropMoves
  refine ((onPlc_replaced ..).trans (onPlc_replaced ..)).trans (foldl_keeps Replaced .refl .trans _ (fun t m => ?_) _ _)
  exact (moveRecord_replaced 2 m t).trans (bumpGen_replaced _)

theorem unreserve_replaced (sl : SliceId) (s : State) : Replaced s (unreserve sl s) := (onPlc_replaced ..).trans (freeBuffers_replaced ..)

theorem freePlaced_replaced (sl : SliceId) (s : State) : Replaced s (freePlaced sl s) := (onPlc_replaced ..).trans (freeBuffers_replaced ..)

theorem allocBuffer_replaced {k : BufKey} {bytes : Nat} {s t : State} (h : allocBuffer k bytes s = some t) : Replaced s t := by
  obtain ⟨chunks, -, rfl⟩ := Option.map_eq_some_iff.mp h
  rfl

theorem allocBuffers_replaced {sl : SliceId} {l : List (PathId × Nat)} {o : Option State} {t : State}
    (h : l.foldl (fun o x => o.bind (allocBuffer (lineKey sl x.1 true) (4 * x.2))) o = some t) : ∃ s, o = some s ∧ Replaced s t := by
  induction l generalizing o with
  | nil => exact ⟨t, h, .refl t⟩
  | cons x l ih =>
    obtain ⟨u, allocated, rest⟩ := ih h
    obtain ⟨s, start, one⟩ := Option.bind_eq_some_iff.mp allocated
    exact ⟨s, start, (allocBuffer_replaced one).trans rest⟩

theorem reserve_replaced {sl : SliceId} {d : SliceDef} {s t : State} (h : reserve sl d s = some t) : Replaced s t := by
  obtain ⟨host, -, reserved⟩ := Option.bind_eq_some_iff.mp h
  obtain ⟨u, start, kept⟩ := allocBuffers_replaced reserved
  exact .trans (by rw [← Option.some.inj start]; exact onPlc_replaced ..) kept

theorem abandonMove_replaced (i : Fin 8) (m : Move) (s : State) : Replaced s (abandonMove i m s) :=
  ((onPlc_replaced _ s).trans (moveRecord_replaced 2 m _)).trans (bumpGen_replaced _)

/-! ### Slices stop or restart (R308, R456, R460) -/

/-- What ending moves touches beside placement: slices, which stay defined, and of the error sources 97, 210 and 261. -/
structure Shifted (s t : State) : Prop where
  frame : t = { s with
    plc := t.plc, mem := t.mem, map := t.map, flash := t.flash, flt := t.flt, hif := t.hif, evr := t.evr, pmc := t.pmc, out := t.out
    slices := t.slices }
  stays : ∀ sl : SliceId, isDefined sl s = true → isDefined sl t = true
  sources : ∀ i : Fin 320, i ≠ 97 → i ≠ 210 → i ≠ 261 → t.flt.sources[i] = s.flt.sources[i]

theorem Shifted.refl (s : State) : Shifted s s := ⟨rfl, fun _ h => h, fun _ _ _ _ => rfl⟩

theorem Shifted.trans {s t u : State} (h : Shifted s t) (k : Shifted t u) : Shifted s u where
  frame := by rw [k.frame, h.frame]
  stays sl defined := k.stays sl (h.stays sl defined)
  sources i a b c := (k.sources i a b c).trans (h.sources i a b c)

theorem Shifted.nps {s t : State} (h : Shifted s t) : t.nps = s.nps := by rw [h.frame]
theorem Shifted.sig {s t : State} (h : Shifted s t) : t.sig = s.sig := by rw [h.frame]
theorem Shifted.time {s t : State} (h : Shifted s t) : t.time = s.time := by rw [h.frame]
theorem Shifted.cfg {s t : State} (h : Shifted s t) : t.cfg = s.cfg := by rw [h.frame]

theorem Replaced.shifted {s t : State} (h : Replaced s t) : Shifted s t := by
  rw [h]
  exact ⟨rfl, fun _ h => h, fun _ _ _ _ => rfl⟩

theorem settleUnits_shifted (s : State) : Shifted s (settleUnits s) where
  frame := by rw [settleUnits_settled s]
  stays sl defined := by rw [isDefined, (settleUnits_settled s).slices]; exact defined
  sources i _ _ other := (settleUnits_workKept s).sources i other

/-- A change of a slice that leaves it defined. -/
theorem onSlice_shifted {sl : SliceId} {f : Slice → Slice} {s : State}
    (stays : isDefined sl s = true → isDefined sl (onSlice sl f s) = true) : Shifted s (onSlice sl f s) where
  frame := rfl
  stays k defined := by
    by_cases same : k = sl
    · subst same
      exact stays defined
    · rw [isDefined, onSlice_other same]
      exact defined
  sources _ _ _ _ := rfl

theorem raise_shifted {src : Fin 320} (named : src = 97 ∨ src = 210) (u d : Nat) (s : State) : Shifted s (raise src u d s) where
  frame := rfl
  stays _ defined := defined
  sources i a b _ := raise_other src i u d s (by rintro rfl; exact named.elim a b)

theorem endCaptures_shifted (sl : SliceId) (s : State) : Shifted s (endCaptures sl s) := ⟨rfl, fun _ h => h, fun _ _ _ _ => rfl⟩

theorem stopSlice_shifted (sl : SliceId) (s : State) : Shifted s (stopSlice sl s) := by
  refine (onSlice_shifted (f := fun x => { x with state := .stopped }) fun defined => ?_).trans (raise_shifted (.inl rfl) ..)
  rw [isDefined, onSlice_self]
  exact defined

theorem stopForCapacity_shifted (sl : SliceId) (s : State) : Shifted s (stopForCapacity sl s) :=
  ((((abandonMoves_replaced sl s).trans (freePlaced_replaced sl _)).trans (onPlc_replaced ..)).trans (recordNow_replaced ..)).shifted.trans
    (stopSlice_shifted ..)

theorem makeRoomIn_shifted (sl : SliceId) (fits : State → Bool) (l : List SliceId) (s : State) : Shifted s (makeRoomIn sl fits l s) := by
  induction l generalizing s with
  | nil => exact stopForCapacity_shifted sl s
  | cons x l ih =>
    unfold makeRoomIn
    dsimp only
    split
    · exact stopForCapacity_shifted x s
    · exact (stopForCapacity_shifted x s).trans (ih _)

theorem scheduleRestart_shifted (sl : SliceId) (x : SliceParams) (iss : Option Issue) (after : Nat) (keep : Bool) (s : State) :
    Shifted s (scheduleRestart sl x iss after keep s) := by
  unfold scheduleRestart
  dsimp only
  refine ((endCaptures_shifted sl s).trans (abandonMoves_replaced sl _).shifted).trans (onSlice_shifted fun _ => ?_)
  rw [isDefined, onSlice_self]
  exact Bool.or_true _

theorem restartPresent_shifted (keep : Bool) (sl : SliceId) (s : State) : Shifted s (restartPresent keep sl s) := by
  unfold restartPresent
  split
  · exact .refl s
  · exact scheduleRestart_shifted ..

theorem relocate_shifted (unit : Nat) (sl : SliceId) (s : State) : Shifted s (relocate unit sl s) := by
  unfold relocate
  split
  · exact .refl s
  · next x _ =>
    extract_lets freed roomy
    have hFreed : Shifted s freed := ((abandonMoves_replaced sl s).trans (unreserve_replaced sl _)).shifted
    have hRoomy : Shifted freed roomy := by
      show Shifted freed (match reserve sl x.defn freed with | some _ => freed | none => _)
      split
      · exact .refl freed
      · exact (makeRoomIn_shifted ..).trans (raise_shifted (.inr rfl) ..)
    have roomier := hFreed.trans hRoomy
    split
    · exact roomier
    · split
      · next reserved => exact (roomier.trans (reserve_replaced reserved).shifted).trans (restartPresent_shifted ..)
      · exact roomier

theorem causeAbandon_shifted (i : Fin 8) (m : Move) (s : State) : Shifted s (causeAbandon i m s) := by
  refine .trans ?_ (settleUnits_shifted _)
  split
  · exact (abandonMove_replaced i m s).shifted.trans (relocate_shifted ..)
  · exact (abandonMove_replaced i m s).shifted

theorem abandonShadow_shifted (sl : SliceId) (s : State) : Shifted s (abandonShadow sl s) := by
  refine foldl_keeps Shifted .refl .trans _ (fun s i => ?_) _ s
  split
  · split
    · exact causeAbandon_shifted ..
    · exact .refl s
  · exact .refl s

end Sys2Proof.Machine
end

section
/-! PROOFS. The override stage (R335 to R338, R352, R362): what a change of a trim, of a mute of a slice or of a port says afterwards, and what it leaves
alone. -/
namespace Sys2Proof.Machine
open Sys2Proof

/-! ### A change of one slice's or one path's protection -/

theorem onSliceProt_self (sl : SliceId) (f : SliceProt → SliceProt) (s : State) : (onSliceProt sl f s).nps.slice[sl] = f s.nps.slice[sl] := upd_self ..

theorem onSliceProt_other {sl k : SliceId} (h : k ≠ sl) (f : SliceProt → SliceProt) (s : State) :
    (onSliceProt sl f s).nps.slice[k] = s.nps.slice[k] := upd_other _ _ _ _ h

theorem onPathProt_path (sl : SliceId) (p : PathId) (f : PathProt → PathProt) (s : State) :
    pathProt ((onPathProt sl p f s).nps.slice[sl]) p = f (pathProt (s.nps.slice[sl]) p) := by
  rw [onPathProt, onSliceProt_self]
  cases p <;> rfl

theorem onPathProt_other {sl k : SliceId} (h : k ≠ sl) (p : PathId) (f : PathProt → PathProt) (s : State) :
    (onPathProt sl p f s).nps.slice[k] = s.nps.slice[k] := onSliceProt_other h ..

/-- The other path of the slice is left alone. -/
theorem onPathProt_otherPath {p q : PathId} (h : q ≠ p) (sl : SliceId) (f : PathProt → PathProt) (s : State) :
    pathProt ((onPathProt sl p f s).nps.slice[sl]) q = pathProt (s.nps.slice[sl]) q := by
  rw [onPathProt, onSliceProt_self]
  cases p with
  | a => cases q with
    | a => exact absurd rfl h
    | b => rfl
  | b => cases q with
    | a => rfl
    | b => exact absurd rfl h

/-- What lies beside the paths of a slice's protection. -/
theorem onPathProt_beside (sl : SliceId) (p : PathId) (f : PathProt → PathProt) (s : State) :
    ((onPathProt sl p f s).nps.slice[sl]).guard = (s.nps.slice[sl]).guard ∧
    ((onPathProt sl p f s).nps.slice[sl]).squallCount = (s.nps.slice[sl]).squallCount := by
  rw [onPathProt, onSliceProt_self]
  cases p <;> exact ⟨rfl, rfl⟩

theorem onSliceProt_guard {sl : SliceId} {f : SliceProt → SliceProt} (same : ∀ x, (f x).guard = x.guard) (k : SliceId) (s : State) :
    ((onSliceProt sl f s).nps.slice[k]).guard = (s.nps.slice[k]).guard := by
  by_cases it : k = sl
  · rw [it, onSliceProt_self, same]
  · rw [onSliceProt_other it]

/-! ### One trim component of a path (R336) -/

theorem trimOf_setTrim (k : TrimKind) (f : Trim → Trim) (x : PathProt) : trimOf (setTrim k f x) k = f (trimOf x k) := by cases k <;> rfl

/-- A fresh value of a trim component: a recurrence stops its release. -/
def freshTrim (value : Nat) (present : Bool) : Trim := { value := value, present := present, releasing := false, fast := false }

/-- The parts of the state that a change of a trim touches. -/
def TrimWork (s t : State) : Prop := t = { s with nps := t.nps, evr := t.evr, pmc := t.pmc, flt := t.flt }

theorem TrimWork.trans {s t u : State} (h : TrimWork s t) (k : TrimWork t u) : TrimWork s u := by
  unfold TrimWork at *
  rw [k, h]

theorem onSliceProt_trimWork (sl : SliceId) (f : SliceProt → SliceProt) (s : State) : TrimWork s (onSliceProt sl f s) := rfl

theorem protRecord_trimWork (cause action path tgt : Nat) (value : Int) (s : State) : TrimWork s (protRecord cause action path tgt value s) := by
  unfold TrimWork
  rw [protRecord, recordNow_frame]

theorem raiseBy_trimWork (inj : Bool) (src : Fin 320) (u d : Nat) (s : State) : TrimWork s (raiseBy inj src u d s) := rfl

/-- The error source of a trim's cause (R368): overdrive counts at its port. -/
def trimSource (inj : Bool) (sl : SliceId) (k : TrimKind) (s : State) : State :=
  match k with
  | .squall => raiseBy inj 128 (target .slice sl) 0 s
  | .overdrive => s
  | .noise => raiseBy inj 133 (target .slice sl) 0 s
  | .emission => raiseBy inj 134 (target .slice sl) 0 s

theorem trimSource_trimWork (inj : Bool) (sl : SliceId) (k : TrimKind) (s : State) : TrimWork s (trimSource inj sl k s) := by cases k <;> rfl

theorem trimSource_nps (inj : Bool) (sl : SliceId) (k : TrimKind) (s : State) : (trimSource inj sl k s).nps = s.nps := by
  cases k
  case overdrive => rfl
  all_goals exact raiseBy_nps ..

/-- A trim takes a value, with the record and the source of a change. -/
def trimTaken (inj : Bool) (sl : SliceId) (p : PathId) (k : TrimKind) (value : Nat) (present : Bool) (fresh : Option Int) (s : State) : State :=
  setTrimValue sl p k value present fresh (trimSource inj sl k) s

section
variable (inj : Bool) (sl : SliceId) (p : PathId) (k : TrimKind) (value : Nat) (present : Bool) (fresh : Option Int) (s : State)

theorem trimTaken_trimWork : TrimWork s (trimTaken inj sl p k value present fresh s) := by
  unfold trimTaken setTrimValue
  extract_lets old was t u
  have set : TrimWork s t := onSliceProt_trimWork ..
  have told : TrimWork s u := by
    show TrimWork s (if value = was then t else _)
    split
    · exact set
    · exact (set.trans (protRecord_trimWork ..)).trans (trimSource_trimWork ..)
  split
  · exact told.trans (raiseBy_trimWork ..)
  · exact told

theorem trimTaken_nps : (trimTaken inj sl p k value present fresh s).nps = (onPathProt sl p (setTrim k fun _ => freshTrim value present) s).nps := by
  unfold trimTaken setTrimValue
  extract_lets old was t u
  have told : u.nps = t.nps := by
    show (if value = was then t else _).nps = _
    split
    · rfl
    · exact (trimSource_nps ..).trans (protRecord_nps ..)
  split
  · exact (raise_nps ..).trans told
  · exact told

/-- An OVERDRIVE trim counts at most an event of source 139. -/
theorem trimTaken_overdrive_source {i : Fin 320} (other : i ≠ 139) :
    (trimTaken inj sl p .overdrive value present fresh s).flt.sources[i] = s.flt.sources[i] := by
  unfold trimTaken setTrimValue
  extract_lets old was t u
  have told : u.flt = s.flt := by
    show (if value = was then t else _).flt = _
    split
    · rfl
    · exact protRecord_flt ..
  split
  · exact (raise_other _ _ _ _ _ other).trans (congrArg (fun f : Collector => f.sources[i]) told)
  · exact congrArg (fun f : Collector => f.sources[i]) told

theorem raiseTrim_taken : raiseTrim inj sl p k value present fresh s = abandonShadow sl (trimTaken inj sl p k value present fresh s) := by
  cases k <;> rfl

/-- A trim that is raised has its fresh value, and the shadow runs that it ends leave protection alone. -/
theorem raiseTrim_nps : (raiseTrim inj sl p k value present fresh s).nps = (onPathProt sl p (setTrim k fun _ => freshTrim value present) s).nps := by
  rw [raiseTrim_taken, (abandonShadow_shifted ..).nps, trimTaken_nps]

end

/-- What a protection cause leaves alone, even where it ends shadow runs: station time, the configuration, the sample path, and that a slice is
defined. -/
structure CauseWork (s t : State) : Prop where
  time : t.time = s.time
  cfg : t.cfg = s.cfg
  sig : t.sig = s.sig
  stays : ∀ sl : SliceId, isDefined sl s = true → isDefined sl t = true

theorem CauseWork.refl (s : State) : CauseWork s s := ⟨rfl, rfl, rfl, fun _ h => h⟩

theorem CauseWork.trans {s t u : State} (h : CauseWork s t) (k : CauseWork t u) : CauseWork s u where
  time := k.time.trans h.time
  cfg := k.cfg.trans h.cfg
  sig := k.sig.trans h.sig
  stays sl defined := k.stays sl (h.stays sl defined)

theorem TrimWork.causeWork {s t : State} (h : TrimWork s t) : CauseWork s t := by
  rw [h]
  exact ⟨rfl, rfl, rfl, fun _ h => h⟩

theorem HaltWork.causeWork {s t : State} (h : HaltWork s t) : CauseWork s t := by
  rw [h]
  exact ⟨rfl, rfl, rfl, fun _ h => h⟩

theorem Shifted.causeWork {s t : State} (h : Shifted s t) : CauseWork s t := ⟨h.time, h.cfg, h.sig, h.stays⟩

theorem raiseTrim_causeWork (inj : Bool) (sl : SliceId) (p : PathId) (k : TrimKind) (value : Nat) (present : Bool) (fresh : Option Int) (s : State) :
    CauseWork s (raiseTrim inj sl p k value present fresh s) := by
  rw [raiseTrim_taken]
  exact (trimTaken_trimWork ..).causeWork.trans (abandonShadow_shifted ..).causeWork

/-! ### Mutes of a slice and of a port (R338, R362) -/

theorem setMuteOf_same {k : SliceMute} {on : Bool} {x : SliceProt} (h : muteOf x k = on) : setMuteOf k on x = x := by subst h; cases k <;> rfl

theorem pathProt_setMute (k : SliceMute) (on : Bool) (x : SliceProt) (p : PathId) : pathProt (setMuteOf k on x) p = pathProt x p := by
  cases k <;> cases p <;> rfl

/-- A change that leaves the slice's protection as it is changes nothing. -/
theorem onSliceProt_same {sl : SliceId} {f : SliceProt → SliceProt} {s : State} (h : f s.nps.slice[sl] = s.nps.slice[sl]) :
    (onSliceProt sl f s).nps = s.nps := by
  have same : upd s.nps.slice sl f = s.nps.slice := by
    rw [upd_congr (g := id) h]
    exact Vector.set_getElem_self ..
  rw [onSliceProt, onNps_nps, same]

/-- A slice with a mute cause set and recorded. -/
def muteMarked (sl : SliceId) (k : SliceMute) (value : Int) (s : State) : State :=
  protRecord (muteCause k) 0 0 (target .slice sl) value (onSliceProt sl (setMuteOf k true) s)

/-- A mute cause that becomes active is recorded and counts on its source. -/
theorem muteSlice_idle {sl : SliceId} {k : SliceMute} {s : State} (idle : ¬muteOf (s.nps.slice[sl]) k = true) (inj : Bool) (value : Int) :
    ∃ src u, muteSlice inj sl k value s = raiseBy inj src u 0 (muteMarked sl k value s) := by
  rw [muteSlice, if_neg idle]
  cases k
  case squall => exact ⟨129, _, rfl⟩
  case emission => exact ⟨135, _, rfl⟩
  case donorLoss => exact ⟨136, _, rfl⟩
  case tddTiming => exact ⟨137, _, rfl⟩

theorem muteSlice_active {sl : SliceId} {k : SliceMute} {s : State} (active : muteOf (s.nps.slice[sl]) k = true) (inj : Bool) (value : Int) :
    muteSlice inj sl k value s = s := if_pos active

theorem muteSlice_nps (inj : Bool) (sl : SliceId) (k : SliceMute) (value : Int) (s : State) :
    (muteSlice inj sl k value s).nps = (onSliceProt sl (setMuteOf k true) s).nps := by
  by_cases active : muteOf (s.nps.slice[sl]) k = true
  · rw [muteSlice_active active, onSliceProt_same (setMuteOf_same active)]
  · obtain ⟨src, u, told⟩ := muteSlice_idle active inj value
    rw [told, raiseBy_nps, muteMarked, protRecord_nps]

theorem muteSlice_trimWork (inj : Bool) (sl : SliceId) (k : SliceMute) (value : Int) (s : State) : TrimWork s (muteSlice inj sl k value s) := by
  by_cases active : muteOf (s.nps.slice[sl]) k = true
  · rw [muteSlice_active active]
    rfl
  · obtain ⟨src, u, told⟩ := muteSlice_idle active inj value
    have marked : TrimWork s (muteMarked sl k value s) := (onSliceProt_trimWork ..).trans (protRecord_trimWork ..)
    rw [told]
    exact marked.trans (raiseBy_trimWork ..)

theorem causeMute_nps (inj : Bool) (sl : SliceId) (k : SliceMute) (value : Int) (s : State) :
    (causeMute inj sl k value s).nps = (onSliceProt sl (setMuteOf k true) s).nps := by
  rw [causeMute, (abandonShadow_shifted ..).nps, muteSlice_nps]

theorem causeMute_causeWork (inj : Bool) (sl : SliceId) (k : SliceMute) (value : Int) (s : State) : CauseWork s (causeMute inj sl k value s) :=
  (muteSlice_trimWork ..).causeWork.trans (abandonShadow_shifted ..).causeWork

/-- A mute cause that is active is cleared, recorded and reported. -/
theorem unmuteSlice_active {sl : SliceId} {k : SliceMute} {s : State} (active : muteOf (s.nps.slice[sl]) k = true) :
    unmuteSlice sl k s =
      notify 140 (target .slice sl) 0 (protRecord (muteCause k) 1 0 (target .slice sl) 0 (onSliceProt sl (setMuteOf k false) s)) := if_pos active

theorem unmuteSlice_idle {sl : SliceId} {k : SliceMute} {s : State} (idle : muteOf (s.nps.slice[sl]) k = false) : unmuteSlice sl k s = s :=
  if_neg (Bool.eq_false_iff.mp idle)

theorem unmuteSlice_nps (sl : SliceId) (k : SliceMute) (s : State) : (unmuteSlice sl k s).nps = (onSliceProt sl (setMuteOf k false) s).nps := by
  cases active : muteOf (s.nps.slice[sl]) k with
  | true =>
    have marked := protRecord_nps (muteCause k) 1 0 (target .slice sl) 0 (onSliceProt sl (setMuteOf k false) s)
    rw [unmuteSlice_active active]
    generalize protRecord (muteCause k) 1 0 (target .slice sl) 0 (onSliceProt sl (setMuteOf k false) s) = t at *
    rw [notify_nps, marked]
  | false => rw [unmuteSlice_idle active, onSliceProt_same (setMuteOf_same active)]

/-- Muting a port changes nothing of the slices. -/
theorem mutePort_slice (inj : Bool) (m : Fin 32) (k : PortMute) (fromLoad : Bool) (value : Int) (s : State) :
    (mutePort inj m k fromLoad value s).nps.slice = s.nps.slice := by
  cases k with
  | reflected =>
    rw [mutePort]
    dsimp only
    split
    · rfl
    · rw [settle_nps, raiseBy_nps, protRecord_nps, onPortProt, onNps_nps]
  | squall =>
    rw [mutePort]
    dsimp only
    split
    · rfl
    · rw [settle_nps, raiseBy_nps, protRecord_nps, onPortProt, onNps_nps]

/-! ### A trim that falls (R352) -/

/-- A trim component after a fall of at most 0.50 dB. -/
def loweredTrim (v : Nat) (t : Trim) : Trim := if v = 0 then freshTrim 0 false else { t with value := v }

/-- A slice with a trim component lowered and recorded. -/
def trimLowered (sl : SliceId) (p : PathId) (k : TrimKind) (v : Nat) (s : State) : State :=
  let t := onPathProt sl p (setTrim k (loweredTrim v)) s
  protRecord (trimCause k) (if v = 0 then 1 else 3) (pathByte p) (target .slice sl) (totalTrim sl p t) t

theorem lowerTrim_up {sl : SliceId} {p : PathId} {k : TrimKind} {v : Nat} {s : State} (up : v ≠ 0)
    (value : (trimOf (pathProt (s.nps.slice[sl]) p) k).value = v) : lowerTrim sl p k s =
      if v - 50 = 0 then notify 140 (target .slice sl) 0 (trimLowered sl p k (v - 50) s) else trimLowered sl p k (v - 50) s := by
  subst value
  exact if_neg up

theorem lowerTrim_nps {sl : SliceId} {p : PathId} {k : TrimKind} {v : Nat} {s : State} (up : v ≠ 0)
    (value : (trimOf (pathProt (s.nps.slice[sl]) p) k).value = v) :
    (lowerTrim sl p k s).nps = (onPathProt sl p (setTrim k (loweredTrim (v - 50))) s).nps := by
  have lowered : (trimLowered sl p k (v - 50) s).nps = (onPathProt sl p (setTrim k (loweredTrim (v - 50))) s).nps := protRecord_nps ..
  rw [lowerTrim_up up value]
  split
  · exact (notify_nps ..).trans lowered
  · exact lowered

theorem protRecord_unmuted (cause action path tgt : Nat) (value : Int) (s : State) : Unmuted s (protRecord cause action path tgt value s) :=
  recordNow_unmuted ..

theorem onPathProt_unmuted (sl : SliceId) (p : PathId) (f : PathProt → PathProt) (s : State) : Unmuted s (onPathProt sl p f s) := rfl

theorem lowerTrim_unmuted {sl : SliceId} {p : PathId} {k : TrimKind} {v : Nat} {s : State} (up : v ≠ 0)
    (value : (trimOf (pathProt (s.nps.slice[sl]) p) k).value = v) : Unmuted s (lowerTrim sl p k s) := by
  have lowered : Unmuted s (trimLowered sl p k (v - 50) s) := 
    (onPathProt_unmuted sl p (setTrim k (loweredTrim (v - 50))) s).trans (protRecord_unmuted ..)
  rw [lowerTrim_up up value]
  split
  · exact lowered.trans (recordNow_unmuted ..)
  · exact lowered

end Sys2Proof.Machine
end

section
/-! PROOFS. Emission visits and the loss of a donor (R346 to R349; O42). -/
namespace Sys2Proof.Machine
open Sys2Proof

/-! ### Emission visits (R346, R347) -/

/-- The bins of a visit above the mask of a port and away from the band of every slice on it. -/
def binsAbove (here : List (SliceId × SliceDef)) (x : PortProt) (bins : List (Nat × Int)) : List (Nat × Int) :=
  bins.filter fun b => decide (x.emissionMask < b.2) && !(here.any fun y => nearBand y.2 b.1)

/-- Those that were above it on the visit before too. -/
def loudBins (here : List (SliceId × SliceDef)) (x : PortProt) (bins : List (Nat × Int)) : List (Nat × Int) :=
  (binsAbove here x bins).filter fun b => x.aboveLast.contains b.1

/-- The slices on a port with their definitions. -/
def portDefs (m : Fin 32) (s : State) : List (SliceId × SliceDef) := (slicesOnTx m s).filterMap fun sl => (liveDef sl s).map fun d => (sl, d)

/-- A port after a visit. -/
def visited (m : Fin 32) (bins : List (Nat × Int)) (s : State) : State :=
  onPortProt m (fun x => { x with
    aboveLast := (binsAbove (portDefs m s) s.nps.port[m] bins).map (·.1)
    exceeds := !(loudBins (portDefs m s) s.nps.port[m] bins).isEmpty }) s

/-- What a visit does to one slice on the port. -/
def visitSlice (m : Fin 32) (here : List (SliceId × SliceDef)) (loud : List (Nat × Int)) (s : State) (y : SliceId × SliceDef) : State :=
  match loud.filter fun b => nearestSlice here b.1 == some y.1 with
  | [] => trimAbsent y.1 (pathTo y.2 m) .emission (onPathProt y.1 (pathTo y.2 m) (fun x => { x with exceeds := false }) s)
  | b :: bs => emissionActs false y.1 (pathTo y.2 m) (bs.foldl (fun m c => max m c.2) b.2) s

section
variable {m : Fin 32} {bins : List (Nat × Int)} {s : State}

theorem exec_emissionVisitEnd (on : (s.nps.port[m]).emissionEnable = true) (sends : (s.tiles.tx[m]).radio.state = .active) :
    exec (.emissionVisitEnd m bins) s = .next ((portDefs m s).foldl
      (visitSlice m (portDefs m s) (loudBins (portDefs m s) s.nps.port[m] bins)) (visited m bins s)) := by
  refine if_neg ?_
  rw [on, sends]
  decide

/-- Without a slice on the port a bin that is loud is one above the mask on both visits. -/
theorem loudBins_alone (x : PortProt) : (!(loudBins [] x bins).isEmpty) = bins.any fun b => decide (x.emissionMask < b.2) && x.aboveLast.contains b.1 := by
  rw [loudBins, binsAbove, List.filter_filter, Bool.eq_iff_iff]
  simp only [List.any_nil, Bool.not_false, Bool.and_true, Bool.not_eq_true', List.isEmpty_eq_false_iff, ne_eq, List.filter_eq_nil_iff, List.any_eq_true,
    not_forall]
  constructor
  · rintro ⟨b, there, loud⟩
    exact ⟨b, there, by simpa [and_comm] using loud⟩
  · rintro ⟨b, there, loud⟩
    exact ⟨b, there, by simpa [and_comm] using loud⟩

theorem binsAbove_alone (x : PortProt) : binsAbove [] x bins = bins.filter fun b => decide (x.emissionMask < b.2) := by
  simp only [binsAbove, List.any_nil, Bool.not_false, Bool.and_true]

theorem does_emissionVisit_empty (on : (s.nps.port[m]).emissionEnable = true) (sends : (s.tiles.tx[m]).radio.state = .active)
    (alone : slicesOnTx m s = []) : Does (.emissionVisitEnd m bins) s fun t =>
      (t.nps.port[m]).aboveLast = (bins.filter fun b => decide ((s.nps.port[m]).emissionMask < b.2)).map (·.1) ∧
      (t.nps.port[m]).exceeds = (bins.any fun b => decide ((s.nps.port[m]).emissionMask < b.2) && (s.nps.port[m]).aboveLast.contains b.1) ∧
      (∀ k : Fin 32, k ≠ m → t.nps.port[k] = s.nps.port[k]) ∧ t = { s with nps := { s.nps with port := t.nps.port } } := by
  have none : portDefs m s = [] := by rw [portDefs, alone]; rfl
  refine ⟨visited m bins s, (exec_emissionVisitEnd on sends).trans (by rw [none]; rfl), ?_⟩
  have self : (visited m bins s).nps.port[m] = _ := onPortProt_self ..
  have other (k : Fin 32) (away : k ≠ m) : (visited m bins s).nps.port[k] = s.nps.port[k] := onPortProt_other away ..
  refine ⟨?_, ?_, other, rfl⟩
  · rw [self, none, binsAbove_alone]
  · rw [self, none, loudBins_alone]

end

/-! ### An emission that exceeds (R347) -/

section
variable {sl : SliceId} {p : PathId} {power : Int} {s : State}

/-- The EMISSION trim of a path after a visit that exceeds. -/
def emissionRaised (sl : SliceId) (p : PathId) (s : State) : Trim := freshTrim (trimValue sl p .emission s + s.nps.cfg.emissionStep) true

/-- The state with the EMISSION trim raised. -/
def emissionTrimmed (sl : SliceId) (p : PathId) (s : State) : State :=
  let t := onPathProt sl p (fun x => { x with exceeds := true }) s
  raiseTrim false sl p .emission (trimValue sl p .emission t + t.nps.cfg.emissionStep) true none t

theorem emissionActs_steps : emissionActs false sl p power s =
    if s.nps.cfg.maxTrim ≤ totalTrim sl p s then causeMute false sl .emission power (emissionTrimmed sl p s) else emissionTrimmed sl p s := by
  unfold emissionActs emissionTrimmed
  simp only [decide_eq_true_eq]

theorem emissionTrimmed_nps : (emissionTrimmed sl p s).nps.port = s.nps.port ∧
    (pathProt ((emissionTrimmed sl p s).nps.slice[sl]) p).emission = emissionRaised sl p s := by
  have value : trimValue sl p .emission (onPathProt sl p (fun x => { x with exceeds := true }) s) = trimValue sl p .emission s := by
    rw [trimValue, onPathProt_path]
    rfl
  rw [emissionTrimmed, raiseTrim_nps, onPathProt_path, value]
  exact ⟨rfl, rfl⟩

theorem emissionTrimmed_causeWork : CauseWork s (emissionTrimmed sl p s) :=
  CauseWork.trans (t := onPathProt sl p (fun x => { x with exceeds := true }) s) ⟨rfl, rfl, rfl, fun _ h => h⟩ (raiseTrim_causeWork ..)

theorem emissionActs_nps : (emissionActs false sl p power s).nps.port = s.nps.port ∧
    (pathProt ((emissionActs false sl p power s).nps.slice[sl]) p).emission = emissionRaised sl p s ∧
    (s.nps.cfg.maxTrim ≤ totalTrim sl p s → ((emissionActs false sl p power s).nps.slice[sl]).emissionMute = true) := by
  obtain ⟨port, raised⟩ := emissionTrimmed_nps (sl := sl) (p := p) (s := s)
  rw [emissionActs_steps]
  generalize emissionTrimmed sl p s = t at *
  split
  · have self : (causeMute false sl .emission power t).nps.slice[sl] = setMuteOf .emission true t.nps.slice[sl] := by
      rw [causeMute_nps, onSliceProt_self]
    have ports : (causeMute false sl .emission power t).nps.port = t.nps.port := by rw [causeMute_nps, onSliceProt, onNps_nps]
    refine ⟨ports.trans port, ?_, fun _ => by rw [self]; rfl⟩
    rw [self, pathProt_setMute]
    exact raised
  · next less => exact ⟨port, raised, fun full => absurd full less⟩

theorem emissionActs_causeWork : CauseWork s (emissionActs false sl p power s) := by
  rw [emissionActs_steps]
  split
  · exact emissionTrimmed_causeWork.trans (causeMute_causeWork ..)
  · exact emissionTrimmed_causeWork

end

section
variable {m : Fin 32} {sl : SliceId} {d : SliceDef} {f : Nat} {v : Int} {bins : List (Nat × Int)} {s : State}

/-- A bin that exceeds a port of one slice is that slice's. -/
theorem loud_of_bin {x : PortProt} (there : (f, v) ∈ bins) (above : x.emissionMask < v) (away : nearBand d f = false)
    (before : x.aboveLast.contains f = true) :
    ∃ b bs, (loudBins [(sl, d)] x bins).filter (fun b => nearestSlice [(sl, d)] b.1 == some sl) = b :: bs := by
  have loud : (f, v) ∈ loudBins [(sl, d)] x bins :=
    List.mem_filter.mpr ⟨List.mem_filter.mpr ⟨there, by simp [above, away]⟩, before⟩
  have own : (f, v) ∈ (loudBins [(sl, d)] x bins).filter (fun b => nearestSlice [(sl, d)] b.1 == some sl) :=
    List.mem_filter.mpr ⟨loud, beq_self_eq_true (some sl)⟩
  exact List.exists_cons_of_ne_nil (List.ne_nil_of_mem own)

theorem does_emissionVisit_exceeds (on : (s.nps.port[m]).emissionEnable = true) (sends : (s.tiles.tx[m]).radio.state = .active)
    (one : slicesOnTx m s = [sl]) (live : liveDef sl s = some d) (there : (f, v) ∈ bins) (above : (s.nps.port[m]).emissionMask < v)
    (away : nearBand d f = false) (before : (s.nps.port[m]).aboveLast.contains f = true) : Does (.emissionVisitEnd m bins) s fun t =>
      (pathProt (t.nps.slice[sl]) (pathTo d m)).emission.value = (pathProt (s.nps.slice[sl]) (pathTo d m)).emission.value + s.nps.cfg.emissionStep ∧
      (pathProt (t.nps.slice[sl]) (pathTo d m)).emission.present = true ∧ (t.nps.port[m]).exceeds = true ∧
      (s.nps.cfg.maxTrim ≤ totalTrim sl (pathTo d m) s → (t.nps.slice[sl]).emissionMute = true) ∧ t.time = s.time ∧ t.cfg = s.cfg := by
  have here : portDefs m s = [(sl, d)] := by rw [portDefs, one, List.filterMap_cons, live]; rfl
  obtain ⟨b, bs, own⟩ := loud_of_bin (sl := sl) there above away before
  have loud : (!(loudBins [(sl, d)] s.nps.port[m] bins).isEmpty) = true := by
    cases all : loudBins [(sl, d)] s.nps.port[m] bins with
    | nil => rw [all] at own; exact absurd own (List.cons_ne_nil b bs).symm
    | cons => rfl
  have acts : exec (.emissionVisitEnd m bins) s =
      .next (emissionActs false sl (pathTo d m) (bs.foldl (fun m c => max m c.2) b.2) (visited m bins s)) := by
    rw [exec_emissionVisitEnd on sends, here, List.foldl_cons, List.foldl_nil, visitSlice, own]
  obtain ⟨port, raised, mutes⟩ := emissionActs_nps (sl := sl) (p := pathTo d m) (power := bs.foldl (fun m c => max m c.2) b.2) (s := visited m bins s)
  have work := emissionActs_causeWork (sl := sl) (p := pathTo d m) (power := bs.foldl (fun m c => max m c.2) b.2) (s := visited m bins s)
  refine ⟨_, acts, ?_⟩
  generalize emissionActs false sl (pathTo d m) (bs.foldl (fun m c => max m c.2) b.2) (visited m bins s) = t at *
  have exceeds : (t.nps.port[m]).exceeds = true := by
    rw [port]
    exact (congrArg PortProt.exceeds (onPortProt_self ..)).trans (by rw [here]; exact loud)
  refine ⟨?_, ?_, exceeds, mutes, work.time, work.cfg⟩
  · rw [raised]
    rfl
  · rw [raised]
    rfl

end

/-! ### Donor loss (R348, R349) -/

/-- The slices that a reference covers rest on their guards alone. -/
theorem donorGroup_congr {ref : SliceId} {s t : State} (h : ∀ sl : SliceId, (t.nps.slice[sl]).guard = (s.nps.slice[sl]).guard) :
    donorGroup ref t = donorGroup ref s := by simp only [donorGroup, h]

/-- A donor loss mutes a slice that is defined. -/
def donorMute (v : Int) (s : State) (sl : SliceId) : State := if isDefined sl s then causeMute false sl .donorLoss v s else s

/-- What the mutes of a donor loss leave: marks of low references, and mutes that are set. -/
structure DonorMuted (s t : State) : Prop extends CauseWork s t where
  low : ∀ k : SliceId, (t.nps.slice[k]).donorLow = (s.nps.slice[k]).donorLow
  muted : ∀ k : SliceId, (s.nps.slice[k]).donorLoss = true → (t.nps.slice[k]).donorLoss = true

theorem DonorMuted.refl (s : State) : DonorMuted s s := ⟨.refl s, fun _ => rfl, fun _ h => h⟩

theorem DonorMuted.trans {s t u : State} (h : DonorMuted s t) (k : DonorMuted t u) : DonorMuted s u where
  toCauseWork := h.toCauseWork.trans k.toCauseWork
  low sl := (k.low sl).trans (h.low sl)
  muted sl set := k.muted sl (h.muted sl set)

theorem causeMute_donorLoss (sl k : SliceId) (v : Int) (s : State) : (causeMute false sl .donorLoss v s).nps.slice[k] =
    if k = sl then { s.nps.slice[k] with donorLoss := true } else s.nps.slice[k] := by
  rw [causeMute_nps]
  exact upd_get ..

theorem donorMute_muted (v : Int) (s : State) (sl : SliceId) : DonorMuted s (donorMute v s sl) := by
  unfold donorMute
  split
  · refine ⟨causeMute_causeWork .., fun k => ?_, fun k set => ?_⟩
    · rw [causeMute_donorLoss]
      split <;> rfl
    · rw [causeMute_donorLoss]
      split
      · rfl
      · exact set
  · exact .refl s

theorem donorMutes_muted (v : Int) (l : List SliceId) (s : State) : DonorMuted s (l.foldl (donorMute v) s) :=
  foldl_keeps DonorMuted .refl .trans (donorMute v) (donorMute_muted v) l s

/-- Every defined slice of the group is muted in its turn, and stays so. -/
theorem donorMutes_mute {v : Int} {l : List SliceId} {sl : SliceId} {s : State} (named : sl ∈ l) (defined : isDefined sl s = true) :
    ((l.foldl (donorMute v) s).nps.slice[sl]).donorLoss = true := by
  induction l generalizing s with
  | nil => exact absurd named (List.not_mem_nil)
  | cons x l ih =>
    rw [List.foldl_cons]
    rcases List.mem_cons.mp named with rfl | later
    · refine (donorMutes_muted v l _).muted sl ?_
      rw [donorMute, if_pos defined, causeMute_donorLoss, if_pos rfl]
    · exact ih later ((donorMute_muted v s x).stays sl defined)

section
variable {ref : SliceId} {s : State}

/-- The reference is marked as low, or no longer. -/
def donorMarked (ref : SliceId) (low : Bool) (s : State) : State := onSliceProt ref (fun x => { x with donorLow := low }) s

theorem donorMarked_group (low : Bool) : donorGroup ref (donorMarked ref low s) = donorGroup ref s :=
  donorGroup_congr fun k => onSliceProt_guard (f := fun x => { x with donorLow := low }) (fun _ => rfl) k s

theorem exec_donorLossTimeout (named : donorNamed ref s = true) (low : donorPower ref s < donorFloor ref s) :
    exec (.donorLossTimeout ref) s =
      .next ((donorGroup ref s).foldl (donorMute (donorPower ref s)) (donorMarked ref true s)) := by
  rw [← donorMarked_group true]
  refine if_pos ?_
  rw [named, decide_eq_true low]
  rfl

theorem does_donorLossTimeout (named : donorNamed ref s = true) (low : donorPower ref s < donorFloor ref s) :
    Does (.donorLossTimeout ref) s fun t =>
      (t.nps.slice[ref]).donorLow = true ∧ (∀ sl ∈ donorGroup ref s, isDefined sl s = true → (t.nps.slice[sl]).donorLoss = true) ∧
      t.time = s.time ∧ t.cfg = s.cfg := by
  have muted := donorMutes_muted (donorPower ref s) (donorGroup ref s) (donorMarked ref true s)
  refine ⟨_, exec_donorLossTimeout named low, (muted.low ref).trans ?_, fun sl there defined => donorMutes_mute there defined, muted.time, muted.cfg⟩
  exact congrArg SliceProt.donorLow (onSliceProt_self ..)

/-- A reference that has recovered and names no other is still low no longer. -/
theorem donorMarked_recovered (free : (s.nps.slice[ref]).guard.donor = false) : donorStillLow ref (donorMarked ref false s) = false := by
  have self : (donorMarked ref false s).nps.slice[ref] = { s.nps.slice[ref] with donorLow := false } := onSliceProt_self ..
  rw [donorStillLow]
  simp only [self, free, Bool.false_and, Bool.or_self]

theorem exec_donorRecover (high : donorFloor ref s + s.nps.cfg.donorHyst ≤ donorPower ref s) (alone : donorGroup ref s = [ref])
    (free : (s.nps.slice[ref]).guard.donor = false) :
    exec (.donorRecover ref) s = .next (unmuteSlice ref .donorLoss (donorMarked ref false s)) := by
  have group := (donorMarked_group (ref := ref) (s := s) false).trans alone
  have recovered := donorMarked_recovered free
  refine (if_pos high).trans (congrArg Host.Outcome.next ?_)
  show (donorGroup ref (donorMarked ref false s)).foldl (fun s sl => if donorStillLow sl s then s else unmuteSlice sl .donorLoss s)
    (donorMarked ref false s) = _
  rw [group, List.foldl_cons, List.foldl_nil, if_neg (Bool.eq_false_iff.mp recovered)]

theorem does_donorRecover (high : donorFloor ref s + s.nps.cfg.donorHyst ≤ donorPower ref s) (alone : donorGroup ref s = [ref])
    (free : (s.nps.slice[ref]).guard.donor = false) : Does (.donorRecover ref) s fun t =>
      (t.nps.slice[ref]).donorLow = false ∧ (t.nps.slice[ref]).donorLoss = false ∧ (∀ k : SliceId, k ≠ ref → t.nps.slice[k] = s.nps.slice[k]) ∧
      t = { s with nps := t.nps, evr := t.evr, pmc := t.pmc } := by
  have nps := unmuteSlice_nps ref .donorLoss (donorMarked ref false s)
  have marked : Unmuted s (donorMarked ref false s) := rfl
  have work : Unmuted s (unmuteSlice ref .donorLoss (donorMarked ref false s)) := marked.trans (unmuteSlice_unmuted ..)
  have self : (onSliceProt ref (setMuteOf .donorLoss false) (donorMarked ref false s)).nps.slice[ref] =
      { s.nps.slice[ref] with donorLow := false, donorLoss := false } := by
    rw [onSliceProt_self, donorMarked, onSliceProt_self]
    rfl
  have other (k : SliceId) (away : k ≠ ref) :
      (onSliceProt ref (setMuteOf .donorLoss false) (donorMarked ref false s)).nps.slice[k] = s.nps.slice[k] := by
    rw [onSliceProt_other away, donorMarked, onSliceProt_other away]
  refine ⟨_, exec_donorRecover high alone free, ?_, ?_, fun k away => ?_, work⟩
  · rw [nps, self]
  · rw [nps, self]
  · rw [nps]
    exact other k away

end

/-- Settles O42: a visit by the slices on the port, a donor by the fold over the slices that it covers. -/
theorem emissionAndDonorLoss : Obligations.EmissionAndDonorLoss :=
  ⟨fun _ _ _ on sends alone => does_emissionVisit_empty on sends alone,
    fun _ _ named low => does_donorLossTimeout named low,
    fun _ _ high alone free => does_donorRecover high alone free,
    fun _ _ _ _ _ _ _ on sends one live there above away before => does_emissionVisit_exceeds on sends one live there above away before⟩

end Sys2Proof.Machine
end

section
/-! PROOFS. Squall, overdrive and noise trim a path, and trims are released (R336, R339 to R345, R352; O41). -/
namespace Sys2Proof.Machine
open Sys2Proof

/-! ### A trim is released (R352) -/

theorem loweredTrim_high {v : Nat} (high : 50 < v) (t : Trim) : loweredTrim (v - 50) t = { t with value := v - 50 } := if_neg (by omega)

theorem loweredTrim_low {v : Nat} (low : v ≤ 50) (t : Trim) : loweredTrim (v - 50) t = freshTrim 0 false := if_pos (by omega)

section
variable {sl : SliceId} {p : PathId} {k : TrimKind} {v : Nat} {s : State}

/-- What a fall of a trim changes: the component, and of the slices its own. -/
theorem lowerTrim_falls (up : v ≠ 0) (value : (trimOf (pathProt (s.nps.slice[sl]) p) k).value = v) :
    trimOf (pathProt ((lowerTrim sl p k s).nps.slice[sl]) p) k = loweredTrim (v - 50) (trimOf (pathProt (s.nps.slice[sl]) p) k) ∧
    (∀ j : SliceId, j ≠ sl → (lowerTrim sl p k s).nps.slice[j] = s.nps.slice[j]) ∧ Unmuted s (lowerTrim sl p k s) := by
  refine ⟨?_, fun j away => ?_, lowerTrim_unmuted up value⟩
  · rw [lowerTrim_nps up value, onPathProt_path, trimOf_setTrim]
  · rw [lowerTrim_nps up value]
    exact onPathProt_other away ..

/-- A release begins. -/
def releaseBegun (sl : SliceId) (p : PathId) (k : TrimKind) (s : State) : State :=
  onPathProt sl p (setTrim k fun t => { t with releasing := true }) s

theorem releaseBegun_trim : trimOf (pathProt ((releaseBegun sl p k s).nps.slice[sl]) p) k =
    { trimOf (pathProt (s.nps.slice[sl]) p) k with releasing := true } := by rw [releaseBegun, onPathProt_path, trimOf_setTrim]

theorem exec_trimHoldExpiry (up : (trimOf (pathProt (s.nps.slice[sl]) p) k).value ≠ 0)
    (absent : (trimOf (pathProt (s.nps.slice[sl]) p) k).present = false) (held : (trimOf (pathProt (s.nps.slice[sl]) p) k).releasing = false) :
    exec (.trimHoldExpiry sl p k) s = .next (lowerTrim sl p k (releaseBegun sl p k s)) := if_pos ⟨up, by rw [absent]; decide, by rw [held]; decide⟩

theorem exec_trimReleaseStep (releasing : (trimOf (pathProt (s.nps.slice[sl]) p) k).releasing = true) :
    exec (.trimReleaseStep sl p k) s = .next (lowerTrim sl p k s) := if_pos releasing

theorem does_trimHoldExpiry (absent : (trimOf (pathProt (s.nps.slice[sl]) p) k).present = false)
    (held : (trimOf (pathProt (s.nps.slice[sl]) p) k).releasing = false) (high : 50 < (trimOf (pathProt (s.nps.slice[sl]) p) k).value) :
    Does (.trimHoldExpiry sl p k) s fun t =>
      (trimOf (pathProt (t.nps.slice[sl]) p) k).value = (trimOf (pathProt (s.nps.slice[sl]) p) k).value - 50 ∧
      (trimOf (pathProt (t.nps.slice[sl]) p) k).releasing = true ∧ (∀ j : SliceId, j ≠ sl → t.nps.slice[j] = s.nps.slice[j]) ∧
      t = { s with nps := t.nps, evr := t.evr, pmc := t.pmc } := by
  have up : (trimOf (pathProt (s.nps.slice[sl]) p) k).value ≠ 0 := by omega
  have begun := releaseBegun_trim (sl := sl) (p := p) (k := k) (s := s)
  have value : (trimOf (pathProt ((releaseBegun sl p k s).nps.slice[sl]) p) k).value = (trimOf (pathProt (s.nps.slice[sl]) p) k).value := by rw [begun]
  obtain ⟨trim, others, work⟩ := lowerTrim_falls (s := releaseBegun sl p k s) up value
  rw [begun, loweredTrim_high high] at trim
  have release : Unmuted s (releaseBegun sl p k s) := onPathProt_unmuted ..
  refine ⟨_, exec_trimHoldExpiry up absent held, by rw [trim], by rw [trim], fun j away => ?_, release.trans work⟩
  exact (others j away).trans (onPathProt_other away ..)

theorem does_trimHoldExpiry_ends (absent : (trimOf (pathProt (s.nps.slice[sl]) p) k).present = false)
    (held : (trimOf (pathProt (s.nps.slice[sl]) p) k).releasing = false) (up : (trimOf (pathProt (s.nps.slice[sl]) p) k).value ≠ 0)
    (low : (trimOf (pathProt (s.nps.slice[sl]) p) k).value ≤ 50) : Does (.trimHoldExpiry sl p k) s fun t =>
      trimOf (pathProt (t.nps.slice[sl]) p) k = { value := 0, present := false, releasing := false, fast := false } := by
  have begun := releaseBegun_trim (sl := sl) (p := p) (k := k) (s := s)
  have value : (trimOf (pathProt ((releaseBegun sl p k s).nps.slice[sl]) p) k).value = (trimOf (pathProt (s.nps.slice[sl]) p) k).value := by rw [begun]
  obtain ⟨trim, -, -⟩ := lowerTrim_falls (s := releaseBegun sl p k s) up value
  exact ⟨_, exec_trimHoldExpiry up absent held, trim.trans (loweredTrim_low low _)⟩

theorem does_trimReleaseStep (releasing : (trimOf (pathProt (s.nps.slice[sl]) p) k).releasing = true)
    (up : (trimOf (pathProt (s.nps.slice[sl]) p) k).value ≠ 0) : Does (.trimReleaseStep sl p k) s fun t =>
      (trimOf (pathProt (t.nps.slice[sl]) p) k).value = (trimOf (pathProt (s.nps.slice[sl]) p) k).value - 50 ∧
      (∀ j : SliceId, j ≠ sl → t.nps.slice[j] = s.nps.slice[j]) ∧ t = { s with nps := t.nps, evr := t.evr, pmc := t.pmc } := by
  obtain ⟨trim, others, work⟩ := lowerTrim_falls up rfl
  refine ⟨_, exec_trimReleaseStep releasing, ?_, others, work⟩
  rw [trim]
  rcases Nat.lt_or_ge 50 (trimOf (pathProt (s.nps.slice[sl]) p) k).value with high | low
  · rw [loweredTrim_high high]
  · rw [loweredTrim_low low]
    exact (Nat.sub_eq_zero_of_le low).symm

theorem does_trimReleaseStep_ends (releasing : (trimOf (pathProt (s.nps.slice[sl]) p) k).releasing = true)
    (up : (trimOf (pathProt (s.nps.slice[sl]) p) k).value ≠ 0) (low : (trimOf (pathProt (s.nps.slice[sl]) p) k).value ≤ 50) :
    Does (.trimReleaseStep sl p k) s fun t =>
      trimOf (pathProt (t.nps.slice[sl]) p) k = { value := 0, present := false, releasing := false, fast := false } :=
  ⟨_, exec_trimReleaseStep releasing, (lowerTrim_falls up rfl).1.trans (loweredTrim_low low _)⟩

end

/-! ### Overdrive (R344) -/

theorem trimAbsent_trim (sl : SliceId) (p : PathId) (k : TrimKind) (s : State) :
    trimOf (pathProt ((trimAbsent sl p k s).nps.slice[sl]) p) k = { trimOf (pathProt (s.nps.slice[sl]) p) k with present := false } := by
  rw [trimAbsent, onPathProt_path, trimOf_setTrim]

/-- The condition is absent on one path after it is on another. -/
theorem trimAbsent_any (sl j : SliceId) (p q : PathId) (k : TrimKind) (s : State) :
    trimOf (pathProt ((trimAbsent sl p k s).nps.slice[j]) q) k = (if j = sl ∧ q = p then
      { trimOf (pathProt (s.nps.slice[j]) q) k with present := false } else trimOf (pathProt (s.nps.slice[j]) q) k) := by
  by_cases same : j = sl
  · subst same
    by_cases path : q = p
    · rw [path, trimAbsent_trim, if_pos ⟨rfl, rfl⟩]
    · rw [if_neg fun h => path h.2, trimAbsent, onPathProt_otherPath path]
  · rw [if_neg fun h => same h.1, trimAbsent, onPathProt_other same]

/-- Every path of a list has the condition absent, and no other trim changes. -/
theorem trimsAbsent_get (l : List (SliceId × PathId)) (k : TrimKind) (j : SliceId) (q : PathId) (s : State) :
    trimOf (pathProt ((l.foldl (fun s x => trimAbsent x.1 x.2 k s) s).nps.slice[j]) q) k = (if (j, q) ∈ l then
      { trimOf (pathProt (s.nps.slice[j]) q) k with present := false } else trimOf (pathProt (s.nps.slice[j]) q) k) := by
  induction l generalizing s with
  | nil => rfl
  | cons x l ih =>
    rw [List.foldl_cons, ih, trimAbsent_any]
    have named : (j, q) ∈ x :: l ↔ (j = x.1 ∧ q = x.2) ∨ (j, q) ∈ l := by rw [List.mem_cons, Prod.ext_iff]
    by_cases rest : (j, q) ∈ l
    · rw [if_pos rest, if_pos (named.mpr (.inr rest))]
      split <;> rfl
    · rw [if_neg rest]
      by_cases first : j = x.1 ∧ q = x.2
      · rw [if_pos first, if_pos (named.mpr (.inl first))]
      · rw [if_neg first, if_neg fun h => (named.mp h).elim first rest]

/-- What leaves all of the state but the override stage alone. -/
def NpsOnly (s t : State) : Prop := t = { s with nps := t.nps }

theorem NpsOnly.refl (s : State) : NpsOnly s s := rfl

theorem NpsOnly.trans {s t u : State} (h : NpsOnly s t) (k : NpsOnly t u) : NpsOnly s u := by
  unfold NpsOnly at *
  rw [k, h]

theorem onPathProt_npsOnly (sl : SliceId) (p : PathId) (f : PathProt → PathProt) (s : State) : NpsOnly s (onPathProt sl p f s) := rfl

theorem NpsOnly.causeWork {s t : State} (h : NpsOnly s t) : CauseWork s t := by
  rw [h]
  exact ⟨rfl, rfl, rfl, fun _ h => h⟩

theorem trimsAbsent_npsOnly (l : List (SliceId × PathId)) (k : TrimKind) (s : State) :
    NpsOnly s (l.foldl (fun s x => trimAbsent x.1 x.2 k s) s) :=
  foldl_keeps NpsOnly .refl .trans (fun s x => trimAbsent x.1 x.2 k s) (fun _ _ => onPathProt_npsOnly ..) l s

theorem trimsAbsent_overdriven (l : List (SliceId × PathId)) (k : TrimKind) (s : State) :
    (l.foldl (fun s x => trimAbsent x.1 x.2 k s) s).nps.overdriven = s.nps.overdriven :=
  foldl_keeps (fun s t => t.nps.overdriven = s.nps.overdriven) (fun _ => rfl) (fun a b => b.trans a)
    (fun s x => trimAbsent x.1 x.2 k s) (fun _ _ => rfl) l s

section
variable {rx : Fin 32} {s : State}

/-- A port is marked as overdriven, or not. -/
def overdriveMarked (rx : Fin 32) (on : Bool) (s : State) : State := onNps (fun n => { n with overdriven := n.overdriven.set rx on }) s

theorem overdriveMarked_mark (on : Bool) : (overdriveMarked rx on s).nps.overdriven[rx] = on := Vector.getElem_set_self ..

theorem exec_overdriveInterval_quiet (few : (s.sig.rx[rx]).loudRun < 10) :
    exec (.overdriveInterval rx) s =
      .next ((pathsFromRx rx s).foldl (fun s x => trimAbsent x.1 x.2 .overdrive s) (overdriveMarked rx false s)) := by
  have absent : decide (10 ≤ (s.sig.rx[rx]).loudRun) = false := decide_eq_false (by omega)
  show execOverdriveInterval rx s = _
  rw [execOverdriveInterval, absent]
  rfl

theorem does_overdriveInterval_quiet (few : (s.sig.rx[rx]).loudRun < 10) : Does (.overdriveInterval rx) s fun t =>
    t.nps.overdriven[rx] = false ∧ (∀ x ∈ pathsFromRx rx s,
      (pathProt (t.nps.slice[x.1]) x.2).overdrive = { (pathProt (s.nps.slice[x.1]) x.2).overdrive with present := false }) ∧
    t = { s with nps := t.nps } := by
  have marked : NpsOnly s (overdriveMarked rx false s) := rfl
  have mark := overdriveMarked_mark (rx := rx) (s := s) false
  refine ⟨_, exec_overdriveInterval_quiet few, ?_, fun x there => ?_, marked.trans (trimsAbsent_npsOnly ..)⟩
  · rw [trimsAbsent_overdriven]
    exact mark
  · exact (trimsAbsent_get _ .overdrive x.1 x.2 _).trans (if_pos there)

/-- The loud microseconds of an interval are taken. -/
def loudTaken (rx : Fin 32) (s : State) : State :=
  onSig (fun g => { g with rx := upd g.rx rx fun x => { x with loudRun := x.loudRun - 10 } }) (overdriveMarked rx true s)

theorem exec_overdriveInterval_loud (many : 10 ≤ (s.sig.rx[rx]).loudRun) :
    exec (.overdriveInterval rx) s = .next (overdriveStep false rx (loudTaken rx s)) := by
  have present : decide (10 ≤ (s.sig.rx[rx]).loudRun) = true := decide_eq_true many
  show execOverdriveInterval rx s = _
  rw [execOverdriveInterval, present]
  rfl

theorem overdriveStep_one {sl : SliceId} {p : PathId} (one : pathsFromRx rx s = [(sl, p)]) : overdriveStep false rx s =
    raise 132 (target .rxPort rx) 0
      (raiseTrim false sl p .overdrive (trimValue sl p .overdrive s + s.nps.cfg.overdriveStep) true none s) := by
  rw [overdriveStep, one, List.foldl_cons, List.foldl_nil, raise]

theorem raiseTrim_overdrive_source (sl : SliceId) (p : PathId) (v : Nat) (s : State) :
    (raiseTrim false sl p .overdrive v true none s).flt.sources[(132 : Fin 320)] = s.flt.sources[(132 : Fin 320)] := by
  rw [raiseTrim_taken, (abandonShadow_shifted ..).sources 132 (by decide) (by decide) (by decide), trimTaken_overdrive_source _ _ _ _ _ _ _ (by decide)]

/-- A further interval of overdrive on the one path from a port. -/
theorem overdriveStep_raises {sl : SliceId} {p : PathId} (one : pathsFromRx rx s = [(sl, p)]) :
    let t := overdriveStep false rx s
    t.nps.overdriven = s.nps.overdriven ∧ t.sig = s.sig ∧ t.time = s.time ∧
    (pathProt (t.nps.slice[sl]) p).overdrive = freshTrim ((pathProt (s.nps.slice[sl]) p).overdrive.value + s.nps.cfg.overdriveStep) true ∧
    (t.flt.sources[(132 : Fin 320)]).events = (s.flt.sources[(132 : Fin 320)]).events + 1 := by
  dsimp only
  rw [overdriveStep_one one]
  have nps := raiseTrim_nps false sl p .overdrive (trimValue sl p .overdrive s + s.nps.cfg.overdriveStep) true none s
  have work := raiseTrim_causeWork false sl p .overdrive (trimValue sl p .overdrive s + s.nps.cfg.overdriveStep) true none s
  have source := raiseTrim_overdrive_source sl p (trimValue sl p .overdrive s + s.nps.cfg.overdriveStep) s
  generalize raiseTrim false sl p .overdrive (trimValue sl p .overdrive s + s.nps.cfg.overdriveStep) true none s = t at *
  refine ⟨?_, (raise_sig ..).trans work.sig, (raise_time ..).trans work.time, ?_, (raise_events ..).trans (by rw [source])⟩
  · rw [raise_nps, nps]
    rfl
  · rw [raise_nps, nps, onPathProt_path]
    rfl

theorem loudTaken_nps : (loudTaken rx s).nps = (overdriveMarked rx true s).nps := onSig_nps ..

theorem loudTaken_loudRun : ((loudTaken rx s).sig.rx[rx]).loudRun = (s.sig.rx[rx]).loudRun - 10 :=
  congrArg (·.loudRun) (upd_self s.sig.rx rx fun x => { x with loudRun := x.loudRun - 10 })

theorem loudTaken_frame : loudTaken rx s = { s with nps := (loudTaken rx s).nps, sig := (loudTaken rx s).sig } := rfl

theorem does_overdriveInterval_loud {sl : SliceId} {p : PathId} (one : pathsFromRx rx s = [(sl, p)]) (many : 10 ≤ (s.sig.rx[rx]).loudRun) :
    Does (.overdriveInterval rx) s fun t =>
      t.nps.overdriven[rx] = true ∧ (t.sig.rx[rx]).loudRun = (s.sig.rx[rx]).loudRun - 10 ∧
      (pathProt (t.nps.slice[sl]) p).overdrive.value = (pathProt (s.nps.slice[sl]) p).overdrive.value + s.nps.cfg.overdriveStep ∧
      (pathProt (t.nps.slice[sl]) p).overdrive.present = true ∧
      (t.flt.sources[(132 : Fin 320)]).events = (s.flt.sources[(132 : Fin 320)]).events + 1 ∧ t.time = s.time := by
  have frame := loudTaken_frame (rx := rx) (s := s)
  have nps := loudTaken_nps (rx := rx) (s := s)
  have loudRun := loudTaken_loudRun (rx := rx) (s := s)
  have alone : pathsFromRx rx (loudTaken rx s) = [(sl, p)] := by rw [frame]; exact one
  have mark := overdriveMarked_mark (rx := rx) (s := s) true
  have raised := overdriveStep_raises alone
  refine ⟨_, exec_overdriveInterval_loud many, ?_⟩
  generalize overdriveStep false rx (loudTaken rx s) = t at *
  obtain ⟨overdriven, sig, time, trim, events⟩ := raised
  have slice : (loudTaken rx s).nps.slice = s.nps.slice := by rw [nps]; rfl
  have step : (loudTaken rx s).nps.cfg = s.nps.cfg := by rw [nps]; rfl
  rw [slice, step] at trim
  refine ⟨?_, ?_, by rw [trim]; rfl, by rw [trim]; rfl, events.trans (by rw [frame]), time.trans (by rw [frame])⟩
  · rw [overdriven, nps]
    exact mark
  · rw [sig]
    exact loudRun

end

/-! ### Noise (R345) -/

/-- What the comparison of a density with a limit does to the NOISE trim of a path. -/
def noiseJudged (limit density : Int) (t : Trim) : Trim :=
  if limit < density then freshTrim (t.value + 50) true else if density ≤ limit - 100 then { t with present := false } else t

section
variable {sl : SliceId} {p : PathId} {s : State}

/-- A path says whether its noise is high. -/
def noiseMarked (sl : SliceId) (p : PathId) (high : Bool) (s : State) : State := onPathProt sl p (fun x => { x with noiseHigh := high }) s

theorem noiseActs_steps (density : Int) : noiseActs sl p density s =
    let t := noiseMarked sl p (decide ((s.nps.slice[sl]).guard.noiseLimit - 100 < density)) s
    if (s.nps.slice[sl]).guard.noiseLimit < density then raiseTrim false sl p .noise (trimValue sl p .noise t + 50) true none t
    else if density ≤ (s.nps.slice[sl]).guard.noiseLimit - 100 then trimAbsent sl p .noise t else t := rfl

theorem noiseMarked_path (high : Bool) :
    pathProt ((noiseMarked sl p high s).nps.slice[sl]) p = { pathProt (s.nps.slice[sl]) p with noiseHigh := high } :=
  onPathProt_path sl p (fun x => { x with noiseHigh := high }) s

/-- A path whose NOISE trim has risen by 0.50 dB. -/
theorem noiseRaised_path (t : State) : pathProt ((raiseTrim false sl p .noise (trimValue sl p .noise t + 50) true none t).nps.slice[sl]) p =
    { pathProt (t.nps.slice[sl]) p with noise := freshTrim ((pathProt (t.nps.slice[sl]) p).noise.value + 50) true } := by
  have nps := raiseTrim_nps false sl p .noise (trimValue sl p .noise t + 50) true none t
  generalize raiseTrim false sl p .noise (trimValue sl p .noise t + 50) true none t = u at *
  rw [nps, onPathProt_path]
  rfl

theorem noiseAbsent_path (t : State) : pathProt ((trimAbsent sl p .noise t).nps.slice[sl]) p =
    { pathProt (t.nps.slice[sl]) p with noise := { (pathProt (t.nps.slice[sl]) p).noise with present := false } } :=
  onPathProt_path sl p (setTrim .noise fun t => { t with present := false }) t

theorem noiseActs_path (density : Int) : pathProt ((noiseActs sl p density s).nps.slice[sl]) p =
    { pathProt (s.nps.slice[sl]) p with
      noise := noiseJudged (s.nps.slice[sl]).guard.noiseLimit density (pathProt (s.nps.slice[sl]) p).noise
      noiseHigh := decide ((s.nps.slice[sl]).guard.noiseLimit - 100 < density) } := by
  have marked := noiseMarked_path (sl := sl) (p := p) (s := s) (decide ((s.nps.slice[sl]).guard.noiseLimit - 100 < density))
  rw [noiseActs_steps]
  generalize noiseMarked sl p (decide ((s.nps.slice[sl]).guard.noiseLimit - 100 < density)) s = t at *
  dsimp only
  by_cases high : (s.nps.slice[sl]).guard.noiseLimit < density
  · rw [if_pos high, noiseRaised_path, marked, noiseJudged, if_pos high]
  · rw [if_neg high, noiseJudged, if_neg high]
    by_cases low : density ≤ (s.nps.slice[sl]).guard.noiseLimit - 100
    · rw [if_pos low, noiseAbsent_path, marked, if_pos low]
    · rw [if_neg low, marked, if_neg low]

theorem noiseActs_causeWork (density : Int) : CauseWork s (noiseActs sl p density s) := by
  have marked (high : Bool) : CauseWork s (noiseMarked sl p high s) := ⟨rfl, rfl, rfl, fun _ h => h⟩
  rw [noiseActs_steps]
  dsimp only
  split
  · exact (marked _).trans (raiseTrim_causeWork ..)
  · split
    · exact (marked _).trans (NpsOnly.causeWork (onPathProt_npsOnly ..))
    · exact marked _

/-- The lowest reading of an interval is taken, and its rounding with it. -/
def lowestTaken (sl : SliceId) (p : PathId) (s : State) : State :=
  { onPathProt sl p (fun x => { x with lowest := none }) s with free := s.free + 1 }

theorem lowestTaken_path : pathProt ((lowestTaken sl p s).nps.slice[sl]) p = { pathProt (s.nps.slice[sl]) p with lowest := none } :=
  onPathProt_path sl p (fun x => { x with lowest := none }) s

theorem lowestTaken_limit : ((lowestTaken sl p s).nps.slice[sl]).guard.noiseLimit = (s.nps.slice[sl]).guard.noiseLimit :=
  congrArg (·.noiseLimit) (onPathProt_beside sl p (fun x => { x with lowest := none }) s).1

theorem exec_noiseIntervalEnd {d : SliceDef} {v : Int} (live : liveDef sl s = some d) (up : uplinkPath d = some p)
    (on : (s.nps.slice[sl]).guard.noise = true) (lowest : (pathProt (s.nps.slice[sl]) p).lowest = some v) :
    exec (.noiseIntervalEnd sl) s = .next (noiseActs sl p (v - centibels (d.bandwidth * 1000) 1 s.free) (lowestTaken sl p s)) := by
  show execNoiseIntervalEnd sl s = _
  rw [execNoiseIntervalEnd, live, Option.bind_some, up]
  dsimp only
  rw [lowest]
  exact if_pos on

theorem does_noiseIntervalEnd {d : SliceDef} {v : Int} (live : liveDef sl s = some d) (up : uplinkPath d = some p)
    (on : (s.nps.slice[sl]).guard.noise = true) (lowest : (pathProt (s.nps.slice[sl]) p).lowest = some v) :
    Does (.noiseIntervalEnd sl) s fun t =>
      let density := v - centibels (d.bandwidth * 1000) 1 s.free
      ((s.nps.slice[sl]).guard.noiseLimit < density →
        (pathProt (t.nps.slice[sl]) p).noise.value = (pathProt (s.nps.slice[sl]) p).noise.value + 50 ∧ (pathProt (t.nps.slice[sl]) p).noise.present = true) ∧
      (density ≤ (s.nps.slice[sl]).guard.noiseLimit - 100 →
        (pathProt (t.nps.slice[sl]) p).noise.value = (pathProt (s.nps.slice[sl]) p).noise.value ∧ (pathProt (t.nps.slice[sl]) p).noise.present = false) ∧
      (pathProt (t.nps.slice[sl]) p).lowest = none ∧ t.time = s.time ∧ t.cfg = s.cfg := by
  refine ⟨_, exec_noiseIntervalEnd live up on lowest, ?_⟩
  generalize v - centibels (d.bandwidth * 1000) 1 s.free = density
  have work := noiseActs_causeWork (sl := sl) (p := p) (s := lowestTaken sl p s) density
  have path := noiseActs_path (sl := sl) (p := p) (s := lowestTaken sl p s) density
  rw [lowestTaken_path, lowestTaken_limit] at path
  generalize noiseActs sl p density (lowestTaken sl p s) = t at *
  dsimp only
  rw [path]
  refine ⟨fun high => ?_, fun low => ?_, rfl, work.time, work.cfg⟩
  · rw [noiseJudged, if_pos high]
    exact ⟨rfl, rfl⟩
  · rw [noiseJudged, if_neg (by omega), if_pos low]
    exact ⟨rfl, rfl⟩

end

/-! ### Squall (R339 to R342) -/

section
variable {sl : SliceId} {p : PathId} {s : State}

/-- SQUALL_PORT leaves the protection of slices alone. -/
theorem squallPorts_kept (inj : Bool) (value : Int) :
    (squallPorts inj sl value s).nps.slice = s.nps.slice ∧ CauseWork s (squallPorts inj sl value s) := by
  unfold squallPorts
  split
  · exact ⟨rfl, .refl s⟩
  · refine foldl_keeps (fun s t => t.nps.slice = s.nps.slice ∧ CauseWork s t) (fun s => ⟨rfl, .refl s⟩)
      (fun h k => ⟨k.1.trans h.1, h.2.trans k.2⟩) _ (fun t m => ?_) _ s
    split
    · exact ⟨mutePort_slice .., (mutePort_haltWork ..).causeWork⟩
    · exact ⟨rfl, .refl t⟩

/-- A path whose canceller is unsettled by a detecting window, with its SQUALL trim of 10.00 dB. -/
def squallTrimmed (sl : SliceId) (p : PathId) (growth : Int) (s : State) : State :=
  raiseTrim false sl p .squall 1000 false (some growth)
    (onCanceller sl p (fun c => { c with squallSeen := c.squallSeen || c.present }) (unsettlePath sl p s))

theorem squallActs_steps (growth : Int) : squallActs false sl p growth false s = squallPorts false sl growth (squallTrimmed sl p growth s) := rfl

theorem squallTrimmed_nps (growth : Int) :
    (squallTrimmed sl p growth s).nps = (onPathProt sl p (setTrim .squall fun _ => freshTrim 1000 false) s).nps := raiseTrim_nps ..

theorem squallTrimmed_causeWork (growth : Int) : CauseWork s (squallTrimmed sl p growth s) :=
  CauseWork.trans (t := onCanceller sl p (fun c => { c with squallSeen := c.squallSeen || c.present }) (unsettlePath sl p s))
    ⟨rfl, rfl, rfl, fun _ h => h⟩ (raiseTrim_causeWork ..)

/-- A detecting window after one that was not gives its path a SQUALL trim of 10.00 dB. -/
theorem squallActs_trims (growth : Int) :
    (squallActs false sl p growth false s).nps.slice = (onPathProt sl p (setTrim .squall fun _ => freshTrim 1000 false) s).nps.slice ∧
    CauseWork s (squallActs false sl p growth false s) := by
  have nps := squallTrimmed_nps (sl := sl) (p := p) (s := s) growth
  have work := squallTrimmed_causeWork (sl := sl) (p := p) (s := s) growth
  rw [squallActs_steps]
  generalize squallTrimmed sl p growth s = t at *
  obtain ⟨slice, ports⟩ := squallPorts_kept (sl := sl) (s := t) false growth
  exact ⟨slice.trans (by rw [nps]), work.trans ports⟩

/-- A window that has ended is taken. -/
def windowTaken (sl : SliceId) (p : PathId) (s : State) : State :=
  onChain sl p (fun x => { x with squall := { x.squall with ended := none } }) s

theorem windowTaken_ended : (((windowTaken sl p s).sig.path[canIdx sl p]).squall).ended = none :=
  congrArg (·.squall.ended) (upd_self s.sig.path (canIdx sl p) fun x => { x with squall := { x.squall with ended := none } })

/-- The window is tested with a rounding of its own. -/
def windowTested (sl : SliceId) (p : PathId) (w : List Cplx) (s : State) : State :=
  testWindow sl p (((liveDef sl s).map (·.k)).getD 0) (squallReading w) s.free { windowTaken sl p s with free := s.free + 1 }

theorem exec_squallWindowEnd {w : List Cplx} {spoilt : Bool} (ended : ((s.sig.path[canIdx sl p]).squall).ended = some (w, spoilt))
    (watches : squallWatches sl p s = true) : exec (.squallWindowEnd sl p) s = .next (if spoilt then
      onPathProt sl p (fun x => { x with last := none, previous := false }) (windowTaken sl p s) else windowTested sl p w s) := by
  have still : ¬((!squallWatches sl p (windowTaken sl p s)) = true) := by
    have same : squallWatches sl p (windowTaken sl p s) = true := watches
    rw [same]
    decide
  show execSquallWindowEnd sl p s = _
  rw [execSquallWindowEnd, ended]
  refine (if_neg still).trans ?_
  cases spoilt <;> rfl

theorem does_squallWindow_spoilt {w : List Cplx} (ended : ((s.sig.path[canIdx sl p]).squall).ended = some (w, true))
    (watches : squallWatches sl p s = true) : Does (.squallWindowEnd sl p) s fun t =>
      (pathProt (t.nps.slice[sl]) p).last = none ∧ (pathProt (t.nps.slice[sl]) p).squall = (pathProt (s.nps.slice[sl]) p).squall ∧
      (∀ k : SliceId, k ≠ sl → t.nps.slice[k] = s.nps.slice[k]) ∧ t = { s with nps := t.nps, sig := t.sig } := by
  have path := onPathProt_path sl p (fun x => { x with last := none, previous := false }) (windowTaken sl p s)
  have other (k : SliceId) (away : k ≠ sl) := onPathProt_other away p (fun x => { x with last := none, previous := false }) (windowTaken sl p s)
  refine ⟨_, (exec_squallWindowEnd ended watches).trans (congrArg Host.Outcome.next (if_pos rfl)), ?_⟩
  dsimp only
  rw [path]
  exact ⟨rfl, rfl, other, rfl⟩

theorem windowTested_first {w : List Cplx} (first : (pathProt (s.nps.slice[sl]) p).last = none) : windowTested sl p w s =
    onPathProt sl p (fun x => { x with last := some (squallReading w), previous := false }) { windowTaken sl p s with free := s.free + 1 } := by
  have first' : (pathProt (({ windowTaken sl p s with free := s.free + 1 } : State).nps.slice[sl]) p).last = none := first
  rw [windowTested, testWindow]
  dsimp only at first' ⊢
  rw [first']

theorem does_squallWindow_first {w : List Cplx} (ended : ((s.sig.path[canIdx sl p]).squall).ended = some (w, false))
    (watches : squallWatches sl p s = true) (first : (pathProt (s.nps.slice[sl]) p).last = none) : Does (.squallWindowEnd sl p) s fun t =>
      (pathProt (t.nps.slice[sl]) p).last = some (squallReading w) ∧ (pathProt (t.nps.slice[sl]) p).squall = (pathProt (s.nps.slice[sl]) p).squall ∧
      (∀ k : SliceId, k ≠ sl → t.nps.slice[k] = s.nps.slice[k]) ∧ t = { s with nps := t.nps, sig := t.sig, free := t.free } := by
  have path := onPathProt_path sl p (fun x => { x with last := some (squallReading w), previous := false })
    { windowTaken sl p s with free := s.free + 1 }
  have other (k : SliceId) (away : k ≠ sl) := onPathProt_other away p (fun x => { x with last := some (squallReading w), previous := false })
    { windowTaken sl p s with free := s.free + 1 }
  refine ⟨_, (exec_squallWindowEnd ended watches).trans (congrArg Host.Outcome.next ((if_neg Bool.false_ne_true).trans (windowTested_first first))), ?_⟩
  dsimp only
  rw [path]
  exact ⟨rfl, rfl, other, rfl⟩

/-- The window of a path that has a reference is tested: the path notes what it found, and a detection counts on the slice. -/
def windowHit (sl : SliceId) (p : PathId) (r : Nat × Nat × List Nat) (s : State) : State :=
  onSliceProt sl (fun y => { y with squallCount := (y.squallCount + 1) % 65536 })
    (onPathProt sl p (fun x => { x with last := some r, detecting := true, previous := true }) { windowTaken sl p s with free := s.free + 1 })

theorem windowHit_slice (r : Nat × Nat × List Nat) : pathProt ((windowHit sl p r s).nps.slice[sl]) p =
      { pathProt (s.nps.slice[sl]) p with last := some r, detecting := true, previous := true } ∧
    ((windowHit sl p r s).nps.slice[sl]).squallCount = ((s.nps.slice[sl]).squallCount + 1) % 65536 := by
  have path := onPathProt_path sl p (fun x => { x with last := some r, detecting := true, previous := true })
    { windowTaken sl p s with free := s.free + 1 }
  have count := (onPathProt_beside sl p (fun x => { x with last := some r, detecting := true, previous := true })
    { windowTaken sl p s with free := s.free + 1 }).2
  rw [windowHit, onSliceProt_self]
  refine ⟨.trans ?_ path, congrArg (fun n => (n + 1) % 65536) count⟩
  cases p <;> rfl

theorem windowHit_causeWork (r : Nat × Nat × List Nat) : CauseWork (windowTaken sl p s) (windowHit sl p r s) := ⟨rfl, rfl, rfl, fun _ h => h⟩

theorem windowTested_hit {w : List Cplx} {last : Nat × Nat × List Nat} (some : (pathProt (s.nps.slice[sl]) p).last = .some last)
    (fresh : (pathProt (s.nps.slice[sl]) p).previous = false)
    (detects : squallDetects s.nps.cfg (((liveDef sl s).map (·.k)).getD 0) last (squallReading w) = true) :
    ∃ growth, windowTested sl p w s = squallActs false sl p growth false (windowHit sl p (squallReading w) s) := by
  have some' : (pathProt (({ windowTaken sl p s with free := s.free + 1 } : State).nps.slice[sl]) p).last = .some last := some
  have fresh' : (pathProt (({ windowTaken sl p s with free := s.free + 1 } : State).nps.slice[sl]) p).previous = false := fresh
  have detects' : squallDetects ({ windowTaken sl p s with free := s.free + 1 } : State).nps.cfg (((liveDef sl s).map (·.k)).getD 0) last
    (squallReading w) = true := detects
  rw [windowTested, testWindow, windowHit]
  generalize ({ windowTaken sl p s with free := s.free + 1 } : State) = u at *
  dsimp only
  rw [some', fresh']
  dsimp only
  rw [detects', if_pos rfl]
  exact ⟨_, rfl⟩

theorem does_squallWindow_hit {w : List Cplx} {last : Nat × Nat × List Nat}
    (ended : ((s.sig.path[canIdx sl p]).squall).ended = some (w, false)) (watches : squallWatches sl p s = true)
    (some : (pathProt (s.nps.slice[sl]) p).last = .some last) (fresh : (pathProt (s.nps.slice[sl]) p).previous = false)
    (detects : squallDetects s.nps.cfg (((liveDef sl s).map (·.k)).getD 0) last (squallReading w) = true) :
    Does (.squallWindowEnd sl p) s fun t =>
      (pathProt (t.nps.slice[sl]) p).squall.value = 1000 ∧ (t.nps.slice[sl]).squallCount = ((s.nps.slice[sl]).squallCount + 1) % 65536 ∧
      (pathProt (t.nps.slice[sl]) p).detecting = true ∧ ((t.sig.path[canIdx sl p]).squall).ended = none ∧ t.time = s.time ∧ t.cfg = s.cfg := by
  obtain ⟨growth, hit⟩ := windowTested_hit some fresh detects
  obtain ⟨path, count⟩ := windowHit_slice (sl := sl) (p := p) (s := s) (squallReading w)
  obtain ⟨slice, acts⟩ := squallActs_trims (sl := sl) (p := p) (s := windowHit sl p (squallReading w) s) growth
  have ended' := windowTaken_ended (sl := sl) (p := p) (s := s)
  have work := (windowHit_causeWork (sl := sl) (p := p) (s := s) (squallReading w)).trans acts
  have trimmed := onPathProt_path sl p (setTrim .squall fun _ => freshTrim 1000 false) (windowHit sl p (squallReading w) s)
  have beside := (onPathProt_beside sl p (setTrim .squall fun _ => freshTrim 1000 false) (windowHit sl p (squallReading w) s)).2
  refine ⟨_, (exec_squallWindowEnd ended watches).trans (congrArg Host.Outcome.next ((if_neg Bool.false_ne_true).trans hit)), ?_⟩
  dsimp only
  rw [slice, trimmed, beside, path, work.sig]
  exact ⟨rfl, count, rfl, ended', work.time, work.cfg⟩

end

/-- Settles O41: each clause is the outcome of its command, which the laws above give for each branch. -/
theorem protectionTrims : Obligations.ProtectionTrims :=
  ⟨fun _ _ _ _ ended watches first => does_squallWindow_first ended watches first,
    fun _ _ _ _ _ ended watches some fresh detects => does_squallWindow_hit ended watches some fresh detects,
    fun _ _ _ _ one many => does_overdriveInterval_loud one many,
    fun _ _ _ _ _ live up on lowest => does_noiseIntervalEnd live up on lowest,
    fun _ _ _ _ absent held high => does_trimHoldExpiry absent held high,
    fun _ _ _ _ releasing up => does_trimReleaseStep releasing up,
    fun _ _ _ _ ended watches => does_squallWindow_spoilt ended watches,
    fun _ _ few => does_overdriveInterval_quiet few,
    fun _ _ _ _ releasing up low => does_trimReleaseStep_ends releasing up low,
    fun _ _ _ _ absent held up low => does_trimHoldExpiry_ends absent held up low⟩

end Sys2Proof.Machine
end
